-- ==== Sys2Proof/Word.lean ====
section
/-!
DEFINITION. Word.lean: the word types of the device.
Registers are 32 bits wide (spec/00_scope.md, Registers and access types); mailbox payloads, frames and memory are bytes.
-/
namespace Sys2Proof

/-- One byte of a payload, a frame, a register or memory. -/
abbrev Byte := BitVec 8

/-- One 32-bit register word. -/
abbrev Word := BitVec 32

/-- A 64-bit value: a counter pair, a device identity, a trunk time stamp. -/
abbrev Wide := BitVec 64

end Sys2Proof
end

