-- ==== Sys2Proof/Syntax.lean ====
section
/-!
DEFINITION. Syntax.lean: the commands the device takes, one constructor per row of spec/opcode_table.json.
Operands are what the outside world brings to the row: an address and a value, a received frame, a measured level.
-/
namespace Sys2Proof

/-! Numbered objects (spec/00_scope.md, Numbering). -/

/-- Slice 0 to 7. -/
abbrev SliceId := Fin 8
/-- Line lane L0 to L31. -/
abbrev Lane := Fin 32
/-- Host port, named by its first lane H0 to H31. -/
abbrev PortId := Fin 32
/-- Trunk group TG0 to TG3. -/
abbrev GroupId := Fin 4
/-- Device grant account 64g + a. -/
abbrev AccountId := Fin 256
/-- HBM channel. -/
abbrev ChanId := Fin 8
/-- Cipher key slot. -/
abbrev SlotId := Fin 1024
/-- Mailbox 0 to 8 (8 is the service port). -/
abbrev MboxId := Fin 9
/-- Fabric lane F0 to F15. -/
abbrev FabLane := Fin 16
/-- Bridge port p joins slice s to slice s XOR 2^p. -/
abbrev BridgePort := Fin 3
/-- One of two: anchor-capable slice 0 or 1, cipher half A or B, pipe, pseudo-channel, stack half. -/
abbrev Half := Fin 2
/-- Host egress queue of a port. -/
abbrev QueueId := Fin 32
/-- Management queue. -/
abbrev MgtQueue := Fin 8
/-- MSI-X vector. -/
abbrev VectorId := Fin 64
/-- A port-ID on the trunk. -/
abbrev PortTag := BitVec 20
/-- An AES-256 key. -/
abbrev KeyBits := BitVec 256
/-- A frame's bytes, without its FCS. -/
abbrev FrameBytes := List Byte

/-- A flit on an inter-slice bridge (R23, R26): source and destination slice, sequence number, hops taken, its 64 bytes and its CRC-32
as received, the number of the packet it belongs to and whether it begins or ends that packet. -/
structure Flit where
  src : SliceId
  dst : SliceId
  seq : BitVec 16
  hops : Nat
  bytes : List Byte
  crc : Word
  pkt : Nat
  first : Bool
  last : Bool
  deriving DecidableEq, Repr

/-- Why a bridge port is declared down (R24). -/
inductive BridgeDownCause where
  | ackTimeout
  | retriesFailed
  | laneLockLost
  deriving DecidableEq, Repr

/-- A 257-bit block as received on a line lane (R44). -/
structure LineBlock where
  hdr : Bool
  body : BitVec 256
  deriving DecidableEq, Repr

/-- A received frame header position (R57): its block position in the lane's stream, the header bit, the 256-bit body, the
1/64-tick part of its arrival (R62), and the blocks that follow it on the line up to the next header position, as received. -/
structure HeaderRx where
  pos : Nat
  hdrBit : Bool
  body : BitVec 256
  sub : BitVec 6
  blocks : List LineBlock
  deriving DecidableEq, Repr

/-- A received OAM message of 64 bytes: byte 0 is the most significant; `viaPkt` says that it came as an OAM trunk packet
in the lane's own frames; `framesAgo` is the number of frames by which it trails the last aligned one. -/
structure OamRx where
  bytes : BitVec 512
  viaPkt : Bool
  framesAgo : Nat
  deriving DecidableEq, Repr

/-- A frame received by a host port (R223): its bytes without FCS, whether the FCS checks, and whether a code error
fell in it. -/
structure FrameRx where
  bytes : FrameBytes
  fcsOk : Bool
  codeErr : Bool
  /-- FEC codewords received since the frame before, up to the end of this one: corrected, uncorrectable, and symbols corrected
  (R220, R247). -/
  corrected : Nat
  uncorrectable : Nat
  symbols : Nat
  deriving DecidableEq, Repr

/-- A received PAUSE or PFC frame (R237). -/
structure PauseRx where
  pfc : Bool
  prios : Byte
  quanta : List Nat
  fcsOk : Bool
  deriving DecidableEq, Repr

/-- Modes of the utility pipe (R335). -/
inductive UtilMode where
  | ctr
  | cbc
  | cfb128
  | kw
  | kwp
  | gcm
  deriving DecidableEq, Repr

/-- A utility-pipe job (R335, R357, R358): URGENT or NORMAL, its mode and direction, its key, its IV or counter block, its AAD
and its data. -/
structure UtilJob where
  urgent : Bool
  id : Nat
  mode : UtilMode
  encrypt : Bool
  aes256 : Bool
  key : KeyBits
  iv : List Byte
  aad : List Byte
  data : List Byte
  deriving DecidableEq, Repr

/-- A request for a buffer (R282). -/
structure AllocReq where
  owner : Nat
  prio : Nat
  bytes : Nat
  count : Nat
  deriving DecidableEq, Repr

/-- A shaper that a wheel entry names (R322). -/
inductive ShaperRef where
  | port (p : PortId)
  | node (p : PortId) (n : Fin 8)
  | queue (p : PortId) (q : QueueId)
  | cls (a : AccountId) (c : Fin 8)
  | account (a : AccountId)
  deriving DecidableEq, Repr

/-- Page hints of a memory request (R397). -/
inductive PageHint where
  | none
  | open
  | close
  deriving DecidableEq, Repr

/-- A memory request (R394): the requesting slice and unit (REQUESTER code of R412), its hint and tag, the channel-local
byte address, and the bytes to write, or as many bytes as are to be read. -/
structure HbmReq where
  requester : SliceId
  unit : Nat
  hint : PageHint
  tag : Word
  write : Bool
  addr : Nat
  data : List Byte
  deriving DecidableEq, Repr

/-- What the ECC check of a read word found (R407). -/
inductive EccOutcome where
  | ok
  | corrected
  | uncorrectable
  deriving DecidableEq, Repr

/-- A serial lane: slice and index 0 to 10 within the slice. -/
structure SerialRef where
  slice : SliceId
  idx : Fin 11
  deriving DecidableEq, Repr

/-- A HELLO cell (R435). -/
structure Hello where
  bytes : List Byte
  /-- The XOFF bits of its cell header (R439). -/
  xoffHigh : Bool := false
  xoffNormal : Bool := false
  deriving DecidableEq, Repr

/-- A fabric cell. -/
structure Cell where
  header : BitVec 128
  payload : List Byte
  crc : Word
  deriving DecidableEq, Repr

/-- An ADDR cell (R440). -/
structure AddrCell where
  bytes : List Byte
  /-- The XOFF bits of its cell header (R439). -/
  xoffHigh : Bool := false
  xoffNormal : Bool := false
  deriving DecidableEq, Repr

/-- An LSA cell (R442). -/
structure Lsa where
  bytes : List Byte
  /-- The XOFF bits of its cell header (R439). -/
  xoffHigh : Bool := false
  xoffNormal : Bool := false
  deriving DecidableEq, Repr

/-- Why a fabric lane goes DOWN (R436). -/
inductive FabDownCause where
  | alignLost
  | silence
  | helloTimeout
  | xoffWatchdog
  deriving DecidableEq, Repr

/-- A lane that can receive low-power idle (R240). -/
inductive LpiRef where
  | host (p : PortId)
  | fabric (f : FabLane)
  deriving DecidableEq, Repr

/-- A clock source of a slice (R512). -/
inductive ClockSrc where
  | xtal
  | refHost
  | refPcie
  | ring
  | trunk (g : GroupId)
  deriving DecidableEq, Repr

/-- Cycles of XTAL and of REFCLK_HOST counted over 2^20 cycles of the ring oscillator after a frequency trip (R517). -/
structure RingCmp where
  xtalCount : Nat
  refCount : Nat
  deriving DecidableEq, Repr

/-- A clock domain (R514). -/
inductive Domain where
  | core
  | host
  | line
  | fabric
  | hbm
  | mgmt
  | service
  deriving DecidableEq, Repr

/-- Straps sampled at reset release (R549). -/
structure Straps where
  anchorPref : Half
  recover : Bool
  smbAddr : Byte
  deriving DecidableEq, Repr

/-- The commands of the device: one constructor per row of spec/opcode_table.json. -/
inductive Instr where
  /-- REGISTER_WRITE (R8): A host write to a register field with no behaviour of its own is ignored and counted as a write to read-only space. -/
  | registerWrite (addr : Nat) (value : Word)
  /-- UNALIGNED_ACCESS (R459): An unaligned or mis-sized register access reads all zeros with no read effects, or its write is ignored and counted. -/
  | unalignedAccess (addr : Nat) (width : Nat) (write : Bool)
  /-- W1C_CLEAR (R476): A host write of 1 to a W1C flag clears it. -/
  | w1cClear (addr : Nat) (value : Word) (hwSet : Word)
  /-- RC_READ (R8): A read of a 32-bit clear-on-read register returns the value and clears it in the same access. -/
  | rcRead (addr : Nat)
  /-- COUNTER_LOW_READ (R10): A read of a 64-bit counter's low word captures the full value into the holding register, returns bits [31:0] and clears the counter. -/
  | counterLowRead (addr : Nat) (arriving : Nat)
  /-- COUNTER_HIGH_READ (R10): A read of a 64-bit counter's high word returns bits [63:32] of the holding register and clears nothing. -/
  | counterHighRead (addr : Nat)
  /-- COLLISION_COUNTER_READ (R476): A read of a collision-counter word returns four byte counters and clears all four. -/
  | collisionCounterRead (addr : Nat) (hwSet : Word)
  /-- TIME_NS_READ (R372): A read of TIME_NS captures all 96 bits of the time counter into a holding register and returns NS. -/
  | timeNsRead
  /-- RNG_LANE_TRX_LO_READ (R62): A read of RNG_LANE_TRX_LO returns the low word of the last EPOCH_START stamp and latches its high word. -/
  | rngLaneTrxLoRead (lane : Lane)
  /-- UNREACHABLE_ACCESS (R30): An access to a present slice with no path from the anchor, or to a DORMANT or WAKING slice, reads 0xFFFF_FFFF or drops the write, and counts in MGT_UNREACH_ACCESS. -/
  | unreachableAccess (slice : SliceId) (write : Bool)
  /-- TRUNK_GROUP_SET (R19): Command that checks a new lane binding for a stopped trunk group and accepts it pending FUNC_START. -/
  | trunkGroupSet
  /-- FLIT_RECEIVE (R26): A bridge flit is received, checked by CRC and hop count, and delivered in sequence order or held early. -/
  | flitReceive (slice : SliceId) (port : BridgePort) (flit : Flit)
  /-- BRIDGE_PORT_DOWN (R24): A bridge port is declared down on an acknowledgement timeout of 1 µs, 8 failed retries of one flit, or loss of lane lock. -/
  | bridgePortDown (slice : SliceId) (port : BridgePort) (cause : BridgeDownCause)
  /-- BRIDGE_RETRAIN (R24): A bridge port that is down attempts to retrain every 1 ms. -/
  | bridgeRetrain (slice : SliceId) (port : BridgePort) (goodFlits : Nat)
  /-- BRIDGE_PORT_UP (R24): A bridge port is declared up after 10,000 consecutive good flits. -/
  | bridgePortUp (slice : SliceId) (port : BridgePort)
  /-- ROUTE_TABLE_INSTALL (R25): Firmware installs the recomputed slice route table within 1 ms of a port change. -/
  | routeTableInstall (slice : SliceId)
  /-- BRIDGE_SEQ_GAP_TIMEOUT (R26): A flit sequence gap still open after 4 µs is declared lost; its packets are discarded and delivery resumes after the gap. -/
  | bridgeSeqGapTimeout (dst : SliceId) (src : SliceId)
  /-- LEASE_SEND (R32): The anchor sends a lease to the deputy every 10 µs, and the deputy acknowledges it. -/
  | leaseSend
  /-- LEASE_EXPIRY (R32): A lease not renewed for 100 µs expires, and MIRROR_SYNC clears. -/
  | leaseExpiry
  /-- MIRROR_RESYNC_COMPLETE (R33): A mirror resync completes within 50 ms, and MIRROR_SYNC sets. -/
  | mirrorResyncComplete
  /-- CLAIM_LINE_FREE (R34): A slice judges the claim line free after reading it high for 2 µs and, where it waits to claim, asserts it. -/
  | claimLineFree (half : Half) (high : Bool)
  /-- CLAIM_PROBE (R36): At each probe window a slice asserting the claim line releases it, reads it, and moves between ELECT, ANCHOR and ABSTAIN by the result. -/
  | claimProbe (half : Half) (lowWhileDriving : Bool) (highInWindow : Bool)
  /-- ELECTION_TIMEOUT (R35): At 1 ms after reset release the non-preferred slice asserts the free line or enters DEPUTY, or both slices resolve a stuck line. -/
  | electionTimeout (half : Half) (high : Bool)
  /-- ANCHOR_FAULT_REPORT (R36): The deputy receives the anchor's report of its own fault and prepares to take the line. -/
  | anchorFaultReport (half : Half)
  /-- ANCHOR_OWN_FAULT (R36): The anchor detects its own fault, reports it, releases the line and pins, and enters FAULTED. -/
  | anchorOwnFault (half : Half)
  /-- HANDOVER_LINE_RELEASE (R36): 1 ms after the ANCHOR_HANDOVER response the anchor releases the claim line and enters DEPUTY. -/
  | handoverLineRelease (half : Half)
  /-- PEER_PATH_RETURN (R42): A path between slices 0 and 1 returns; an abstaining slice resyncs or is elected, and divergent slices are marked. -/
  | peerPathReturn
  /-- PCIE_LINK_TRAINED (R40): The PCIe link retrains after a takeover with the mirrored configuration space and MSI-X table. -/
  | pcieLinkTrained
  /-- TAKE_CHARGE (R39): SMBus command 0x5A naming a slice makes that slice enter ELECT when its lease has expired or it has no peer path. -/
  | takeCharge (half : Half)
  /-- SMBUS_DEV_ID_READ (R470): SMBus code 0x01 returns MGT_DEV_ID. -/
  | smbusDevIdRead
  /-- SMBUS_ANCHOR_READ (R470): SMBus code 0x02 returns the anchor register. -/
  | smbusAnchorRead
  /-- SMBUS_LOG_STATUS_READ (R470): SMBus code 0x03 returns the newest contact-sheet SEQ and the count of ERROR-or-worse records. -/
  | smbusLogStatusRead
  /-- SMBUS_SENSOR_READ (R470): SMBus code 0x10 returns the reading of the indexed sensor. -/
  | smbusSensorRead (index : Nat)
  /-- SMBUS_BAD_CODE (R470): An unknown SMBus code is not acknowledged and counts in MGT_SMBUS_BAD. -/
  | smbusBadCode (code : Byte)
  /-- ANCHOR_HANDOVER (R43): Command that hands management to the deputy on purpose, or returns BUSY or NOT_PERMITTED. -/
  | anchorHandover
  /-- BLOCK_LOCK_WINDOW (R56): At the end of each 1,024-block window, the header-bit count per position decides the gain or loss of block lock. -/
  | blockLockWindow (lane : Lane) (counts : List Nat)
  /-- BLOCK_LOCK_LOST (R56): Block lock is lost at once on CDR loss or an asserted lane status input, and alignment returns to HUNT. -/
  | blockLockLost (lane : Lane) (llos : Bool)
  /-- FRAME_HEADER_RX (R57): A frame header position is received and checked, driving frame alignment, stamping, BIP checks and acceptance of the frame. -/
  | frameHeaderRx (lane : Lane) (rx : HeaderRx)
  /-- TRUNK_PACKET_HEADER_RX (R65): A trunk packet header is delineated, HEC-checked or corrected, and handled by its TYPE. -/
  | trunkPacketHeaderRx (lane : Lane) (word : Nat)
  /-- REASM_TIMEOUT (R74): A reassembly context still open 50 µs after its first fragment enters DISCARD. -/
  | reasmTimeout (lane : Lane) (portId : BitVec 20)
  /-- REASM_DISCARD_EXPIRY (R74): A context in DISCARD is freed 1 ms after it entered DISCARD. -/
  | reasmDiscardExpiry (lane : Lane) (portId : BitVec 20)
  /-- SETTLE_WINDOW_CLOSE (R75): A 50 µs settle window closes, and its port-IDs become settled. -/
  | settleWindowClose (lane : Lane) (portId : Option PortTag)
  /-- PORT_FILTER_WRITE (R71): Command that writes 1 to 64 port-ID filter entries of one group. -/
  | portFilterWrite
  /-- PORT_FILTER_READ (R559): Command that reads back port-ID filter entries. -/
  | portFilterRead
  /-- OAM_RX_DISCARD (R86): A downstream OAM message that fails its CRC, addressing or type test is discarded, with or without a count. -/
  | oamRxDiscard (lane : Lane) (msg : OamRx)
  /-- DISCOVER (R88): A DISCOVER message is accepted and held, updating the logical distance and discovery parameters. -/
  | discover (lane : Lane) (msg : OamRx)
  /-- RANGE_REQUEST (R94): A RANGE_REQUEST is acted on by adopting the terminal ID and scheduling a RANGE_REPLY, or ignored. -/
  | rangeRequest (lane : Lane) (msg : OamRx)
  /-- EQD_ASSIGN (R98): An EQD_ASSIGN is checked and accepted for a later APPLY_EPOCH, and an ACK is queued. -/
  | eqdAssign (lane : Lane) (msg : OamRx)
  /-- TOD (R104): A TOD on the time lane is accepted and updates the group's time offset and time state. -/
  | tod (lane : Lane) (msg : OamRx)
  /-- RANGE_PROVISION (R81): Command that sets a group's registration and time parameters. -/
  | rangeProvision
  /-- ANNOUNCE (R89): In ANNOUNCE the group answers a discovery grant with an ANNOUNCE burst at a random offset, or skips the grant. -/
  | announce (group : GroupId) (start : Nat)
  /-- RESPONSE_WAIT_EXPIRY (R92): RESPONSE_WAIT passes without a RANGE_REQUEST, and a random back-off count is drawn. -/
  | responseWaitExpiry (group : GroupId)
  /-- RANGE_REPLY (R94): A RANGE_REPLY burst is launched in the named ranging grant with EQD_TRIAL. -/
  | rangeReply (lane : Lane)
  /-- RANGE_TIMEOUT (R79): 100 ms in RANGE without an accepted RANGE_REQUEST or EQD_ASSIGN returns the group to LISTEN. -/
  | rangeTimeout (group : GroupId)
  /-- APPLICATION_INSTANT (R557): At the application instant an accepted EQD_ASSIGN, LEADER_SET or REPORT_POLICY takes its visible effect, and a group in RANGE enters OPERATE. -/
  | applicationInstant (group : GroupId)
  /-- HOLDOVER_EXPIRY (R79): HOLDOVER_LIMIT elapses, and the group discards its ID and EqDs and returns to LISTEN. -/
  | holdoverExpiry (group : GroupId)
  /-- TOD_STALE (R108): No accepted TOD for 3 s in COARSE or LOCKED time state sets TOD_STALE. -/
  | todStale (group : GroupId)
  /-- GRANT_MAP_RX (R113): A GRANT_MAP block's entries are checked and accepted into the lane's table for the next epoch or its standing plan. -/
  | grantMapRx (lane : Lane) (body : BitVec 256)
  /-- GRANT_TABLE_COMPLETE (R113): Within 2 µs of the end of an epoch's last frame, the next epoch's grant table is completed with overlap and overflow rules. -/
  | grantTableComplete (lane : Lane)
  /-- JUMP_HOLD_CLEAR (R119): JUMP_HOLD clears at the first tick of the first epoch whose previous epoch arrived whole after the jump. -/
  | jumpHoldClear (lane : Lane)
  /-- AMEND (R121): An AMEND message is checked, answered by an ACK and accepted or refused. -/
  | amend (lane : Lane) (msg : OamRx)
  /-- AMEND_APPLY (R122): An accepted AMEND changes, removes or revokes its grant within 5 µs of its frame's end. -/
  | amendApply (group : GroupId)
  /-- LEADER_SET (R124): A LEADER_SET message is checked and accepted for a later epoch, and an ACK is queued. -/
  | leaderSet (lane : Lane) (msg : OamRx)
  /-- BURST_LAUNCH (R125): At a grant's slot edge the lane launches its developed burst, or records the grant as missed or too short. -/
  | burstLaunch (lane : Lane)
  /-- BURST_END_LEAVE (R155): A burst's BURST_END leaves the serialiser, its slot and darkslide are released, and launch statistics count. -/
  | burstEndLeave (lane : Lane)
  /-- FILL_END (R142): FILL after a burst ends before the next burst or at the end of the epoch. -/
  | fillEnd (lane : Lane)
  /-- GRANT_TABLE_READ (R143): Command that returns a snapshot of one lane's grants or standing plan. -/
  | grantTableRead
  /-- RATE_UPDATE (R147): Every 8,000 ticks the three arrival averages of each account are updated. -/
  | rateUpdate (group : GroupId)
  /-- STAGING_BEGIN (R154): Staging of a latent burst begins at slot_edge minus DEPTH once a slot, darkslide space and earlier closures are available. -/
  | stagingBegin (lane : Lane) (epoch : Nat) (start : Nat)
  /-- PACKET_PLACE (R156): The account scheduler releases a packet that is placed, encrypted and charged into the open latent burst. -/
  | packetPlace (account : AccountId)
  /-- INVOCATION_DRAW_RESUME (R348): A draw waiting for an earlier packet of the half to launch proceeds. -/
  | invocationDrawResume (slot : SlotId)
  /-- DEVELOP (R162): At the cut-off a latent burst is developed: region closed, delimiter and reports written, remainder pinned and buffers handed to be freed. -/
  | develop (lane : Lane) (epoch : Nat) (start : Nat)
  /-- REBUILD_START (R172): 400 ticks after a fog that leaves the grant standing, the rebuilt burst may place packets again. -/
  | rebuildStart (lane : Lane) (epoch : Nat) (start : Nat)
  /-- REPORT_POLICY (R153): A REPORT_POLICY message is checked and accepted for a later epoch, and an ACK is queued. -/
  | reportPolicy (lane : Lane) (msg : OamRx)
  /-- RUNAHEAD_SET (R179): Command that sets a group's forecast and staging parameters. -/
  | runaheadSet
  /-- ACCOUNT_STOP (R180): Command that stops or restarts upstream service of one account, fogging its latent bursts on stop. -/
  | accountStop
  /-- LOS_DECLARE (R182): LOS is declared after 10 µs of its condition; bursts in progress stop and latent bursts are fogged. -/
  | losDeclare (lane : Lane)
  /-- LOS_CLEAR (R182): LOS clears after 100 µs without its conditions. -/
  | losClear (lane : Lane)
  /-- LOF_DECLARE (R182): LOF is declared when LOF_TIME elapses since the last good FAW with OOF asserted. -/
  | lofDeclare (lane : Lane)
  /-- LOF_CLEAR (R182): LOF clears after the lane has held SYNC for 1 ms. -/
  | lofClear (lane : Lane)
  /-- WINDOW_EVALUATE (R183): At each epoch window's end the BIP count declares or clears SF and SD. -/
  | windowEvaluate (lane : Lane)
  /-- RDI (R189): A downstream RDI message is accepted and counts towards declaring or clearing RDI. -/
  | rdi (lane : Lane) (msg : OamRx)
  /-- RDI_TIMEOUT (R189): RDI clears after 10 ms with no accepted RDI message. -/
  | rdiTimeout (group : GroupId)
  /-- RDI_PERIODIC (R190): An upstream RDI is queued every 1 ms while any lane of the group is in defect. -/
  | rdiPeriodic (group : GroupId)
  /-- DISABLE (R192): A DISABLE message is accepted, setting the latch and flags. -/
  | disable (lane : Lane) (msg : OamRx)
  /-- DISABLE_APPLY (R192): Within 10 µs of its frame, an accepted DISABLE darkens every lane and moves the group to DISABLED. -/
  | disableApply (group : GroupId)
  /-- ENABLE (R195): An ENABLE clears the latch and moves a DISABLED group to LISTEN, OPERATE, HOLDOVER or RANGE. -/
  | enable (lane : Lane) (msg : OamRx)
  /-- PROTECT_EVALUATE (R201): Every 10 µs, and on any change, the pair's target group is evaluated. -/
  | protectEvaluate (group : GroupId)
  /-- RESTEER_COMPLETE (R204): Re-steer completes, and LAST_SWITCH_US is recorded. -/
  | resteerComplete (group : GroupId)
  /-- PROTECT_COMMAND (R208): A PROTECT_COMMAND message sets or clears the head's held request, and an ACK is queued. -/
  | protectCommand (lane : Lane) (msg : OamRx)
  /-- PROTECT_STATUS_SEND (R450): Each end of a remote pair sends PROTECT_STATUS every 100 µs and on change. -/
  | protectStatusSend (group : GroupId)
  /-- PROTECT_STATUS (R206): A received PROTECT_STATUS updates the remote group's state and any relayed command. -/
  | protectStatus (src : Nat) (payload : List Byte)
  /-- REMOTE_STALE (R206): A peer status older than 300 µs marks the remote group stale or lost. -/
  | remoteStale (group : GroupId)
  /-- PROTECT_NOTIFY (R451): A received PROTECT_NOTIFY makes the peer switch at once and acknowledge. -/
  | protectNotify (src : Nat) (payload : List Byte)
  /-- NOTIFY_RESEND (R451): An unacknowledged PROTECT_NOTIFY is resent at 20, 40 and 60 µs. -/
  | notifyResend (group : GroupId)
  /-- NOTIFY_FAIL (R451): No ACK by 90 µs sets NOTIFY_FAIL. -/
  | notifyFail (group : GroupId)
  /-- NOTIFY_ACK (R451): The sender receives the ACK echoing NOTIFY_SEQ and stops resending. -/
  | notifyAck (src : Nat) (seq : Nat)
  /-- PM_SECOND (R209): At each whole second the lane's EFRAMES and DEFECT are latched and the second classified into bins. -/
  | pmSecond (group : GroupId)
  /-- DEFECT_SET (R213): Command that sets a group's defect parameters. -/
  | defectSet
  /-- PROTECT_SET (R214): Command that forms or dissolves a protection pair. -/
  | protectSet
  /-- PROTECT_REQUEST (R215): Command that sets or clears the host's held protection request. -/
  | protectRequest
  /-- PM_READ (R216): Command that returns a performance-monitoring bin. -/
  | pmRead
  /-- PORT_MODE_SET (R221): Command that sets the host port mode of slices pending FUNC_START. -/
  | portModeSet
  /-- HOST_FRAME_RX (R223): A host port receives a whole frame and accepts it or discards it by length, FCS, code errors and address filter. -/
  | hostFrameRx (port : PortId) (frame : FrameRx)
  /-- PAUSE_FRAME_RX (R237): A received PAUSE or PFC frame is consumed, counted and, when honoured, stops the named queues. -/
  | pauseFrameRx (port : PortId) (frame : PauseRx)
  /-- PAUSE_EXPIRY (R237): The received pause quanta run out and the stopped queues resume. -/
  | pauseExpiry (port : PortId) (queue : QueueId)
  /-- PAUSE_STORM (R238): A queue paused continuously for WATCHDOG sets PAUSE_STORM, and received pause is ignored. -/
  | pauseStorm (port : PortId)
  /-- PAUSE_STORM_END (R238): 10 ms without non-zero pause ends the storm state. -/
  | pauseStormEnd (port : PortId)
  /-- PAUSE_SEND (R236): A change of XOFF indication sends a PAUSE or PFC frame at the next frame boundary after 200 ns. -/
  | pauseSend (port : PortId)
  /-- PAUSE_REFRESH (R236): A pause frame is repeated every REFRESH quanta while XOFF stays set. -/
  | pauseRefresh (port : PortId)
  /-- HOST_FRAME_TX (R229): At a frame boundary the port selects and transmits a frame, or discards it for oversize or fault. -/
  | hostFrameTx (port : PortId)
  /-- PORT_LINK_CHANGE (R220): A host port goes down or comes up with its PCS alignment and fault state. -/
  | portLinkChange (port : PortId) (aligned : Bool) (localFault : Bool)
  /-- LPI_ENTER (R240): After LPI_IDLE with all conditions held, the port enters transmit LPI. -/
  | lpiEnter (port : PortId)
  /-- LPI_EXIT (R240): A frame, pause or timed launch wakes the port from LPI for TW_TX. -/
  | lpiExit (port : PortId)
  /-- LINK_FAULT_SIGNAL_CHANGE (R242): Within 10 µs of the group condition changing, the port begins or ends Local Fault signalling. -/
  | linkFaultSignalChange (port : PortId)
  /-- PORT_SET (R243): Command that sets a host port's flags, MAX_FRAME and default priority. -/
  | portSet
  /-- FLOW_CONTROL_SET (R244): Command that sets a port's flow-control mode and parameters. -/
  | flowControlSet
  /-- EEE_SET (R245): Command that sets a port's low-power idle parameters. -/
  | eeeSet
  /-- MAC_FILTER_WRITE (R246): Command that writes hash bins or exact entries of a port's address filter. -/
  | macFilterWrite
  /-- MAC_FILTER_READ (R246): Command that reads a port's address filter. -/
  | macFilterRead
  /-- PARSE_AND_CLASSIFY (R261): A frame entering the packet path is parsed, keyed, looked up and carried out to drop, policer, mirror and buffer. -/
  | parseAndClassify (slice : SliceId)
  /-- RECIRC_PASS (R262): A frame from the recirculation queue makes its second pass. -/
  | recircPass (slice : SliceId)
  /-- RETIREMENT (R266): Once every frame carrying the old version has finished, the slice copies the current tables to the shadow and retires the version. -/
  | retirement (slice : SliceId)
  /-- RETIRE_FORCED (R266): 40 µs after a flip, old-version frames still in the recirculation queue are discarded. -/
  | retireForced (slice : SliceId)
  /-- CLS_SOURCE_SET (R271): Command that sets one classifier source's settings. -/
  | clsSourceSet
  /-- PROFILE_SET (R272): Command that sets an exact-match profile. -/
  | profileSet
  /-- RULE_WRITE (R274): Command that writes exact-match, ternary or spread entries. -/
  | ruleWrite
  /-- RULE_READ (R275): Command that reads table entries of the lowest slice in the mask. -/
  | ruleRead
  /-- RULE_COMMIT (R276): Command that flips the current version of VERSIONED tables. -/
  | ruleCommit
  /-- TABLE_MODE_SET (R277): Command that sets a table's update mode. -/
  | tableModeSet
  /-- SHADOW_LOAD_COMPLETE (R277): The shadow copy of a table changed to VERSIONED is loaded and RETIRE_PENDING clears. -/
  | shadowLoadComplete (slice : SliceId)
  /-- SPREAD_SET (R278): Command that sets a spread group's kind, fields and seed. -/
  | spreadSet
  /-- MIRROR_SET (R279): Command that sets a mirror session. -/
  | mirrorSet
  /-- BUFFER_ALLOC (R282): A buffer request is served from the smallest pool the quotas and thresholds allow, or answered EMPTY. -/
  | bufferAlloc (slice : SliceId) (request : AllocReq)
  /-- FREE (R287): A buffer FREE from its owner releases it. -/
  | free (slice : SliceId) (ptr : Word) (issuer : Byte)
  /-- HAND_OFF (R287): A buffer changes owner from its current owner to a new one. -/
  | handOff (slice : SliceId) (ptr : Word) (issuer : Byte) (newOwner : Byte) (count : Nat)
  /-- REF_ADD (R288): A privileged buffer's reference count is raised by 1. -/
  | refAdd (slice : SliceId) (ptr : Word) (issuer : Byte)
  /-- REF_DROP (R288): A privileged buffer's reference count is lowered by 1, freeing it at 0. -/
  | refDrop (slice : SliceId) (ptr : Word) (issuer : Byte)
  /-- XREF_RECLAIM (R293): Within 1 ms of a path loss each slice drops descriptors into unreachable slices and reclaims buffers owned from them. -/
  | xrefReclaim (slice : SliceId)
  /-- SPILL_WRITE_COMPLETE (R302): A frame's HBM spill write completes and its SRAM buffer is freed. -/
  | spillWriteComplete (account : AccountId)
  /-- SPILL_READBACK (R303): An account's SRAM head below REFILL starts the read of its next spill page. -/
  | spillReadback (account : AccountId)
  /-- READBACK_RETRY (R303): A read-back that found no buffer retries every 1 µs. -/
  | readbackRetry (account : AccountId)
  /-- PAGE_READ_COMPLETE (R303): A spill page's records are appended to their class queues and the page freed. -/
  | pageReadComplete (account : AccountId)
  /-- SPILL_REMAP (R306): After a channel freeze or unreachable half, spill pages there are discarded and spill remapped within 200 µs. -/
  | spillRemap (chan : ChanId)
  /-- POOL_CARVE (R307): Command that sets pool sizes pending FUNC_START. -/
  | poolCarve
  /-- BUF_OWNER_SET (R308): Command that sets an owner's quotas and thresholds. -/
  | bufOwnerSet
  /-- BUF_PRIO_SET (R309): Command that sets per-priority thresholds of a host port. -/
  | bufPrioSet
  /-- BUF_POOL_SET (R310): Command that sets a pool's thresholds. -/
  | bufPoolSet
  /-- SPILL_SET (R311): Command that sets an account's spill parameters. -/
  | spillSet
  /-- SHAPER_ELIGIBLE (R322): A shaper's eligible time comes round in the fine wheel and it permits again. -/
  | shaperEligible (shaper : ShaperRef)
  /-- OVERFLOW_WHEEL_MOVE (R322): Entries of an overflow-wheel slot move to the fine wheel when the slot comes round. -/
  | overflowWheelMove (slice : SliceId)
  /-- TIMED_LAUNCH_DUE (R325): A timed head frame's LAUNCH_TIME is reached and the frame is released. -/
  | timedLaunchDue (port : PortId) (queue : QueueId)
  /-- SCHED_SET (R330): Command that sets shaper, weight, overhead or timed settings. -/
  | schedSet
  /-- SCHED_TREE_SET (R331): Command that sets a port's node hierarchy pending FUNC_START. -/
  | schedTreeSet
  /-- POLICER_SET (R332): Command that sets a policer. -/
  | policerSet
  /-- POLICER_READ (R333): Command that reads and optionally clears policer counters. -/
  | policerRead
  /-- KEY_DELIVER (R341): A KEY_DELIVER message is checked and starts an unwrap and write of the inactive half. -/
  | keyDeliver (lane : Lane) (msg : OamRx)
  /-- KEY_WRITE_COMPLETE (R338): A key write completes on every slice and the ACK is queued. -/
  | keyWriteComplete (slot : SlotId)
  /-- KEY_SWITCH (R342): A KEY_SWITCH message is checked and schedules a half switch at frame FN. -/
  | keySwitch (lane : Lane) (msg : OamRx)
  /-- SWITCH_BOUNDARY (R343): The switch boundary is reached and the new half becomes current, fogging latent bursts that straddle it. -/
  | switchBoundary (slot : SlotId) (lane : Lane)
  /-- DECRYPT_COMPLETE (R355): A decrypt pipe finishes a packet, releasing plaintext on a good tag or erasing it. -/
  | decryptComplete (slice : SliceId) (pipe : Half)
  /-- DOWN_HALF_LIFETIME_END (R353): A DOWN half is retired 4,000,000,000 frames after its first verified packet. -/
  | downHalfLifetimeEnd (slot : SlotId) (half : Half)
  /-- KEY_ERASE_COMPLETE (R356): An erase zeroes both halves on every slice and clears ERASE_PENDING. -/
  | keyEraseComplete (slot : SlotId)
  /-- UTILITY_JOB_ARRIVE (R358): A utility job arrives, suspending a running NORMAL job if it is URGENT. -/
  | utilityJobArrive (job : UtilJob)
  /-- UTILITY_JOB_COMPLETE (R357): A utility job completes and any suspended job resumes. -/
  | utilityJobComplete
  /-- KEY_SLOT_SET (R360): Command that sets a key slot's direction, manager and limits. -/
  | keySlotSet
  /-- KEY_LOAD (R361): Command that unwraps and loads a key into a host-managed slot's inactive half. -/
  | keyLoad
  /-- KEY_COMMIT (R362): Command that makes a half current at once or at frame FN. -/
  | keyCommit
  /-- KEY_ERASE (R363): Command that marks a slot ERASE_PENDING and starts its erase. -/
  | keyErase
  /-- KEY_BIND (R364): Command that binds an account to a key slot. -/
  | keyBind
  /-- KEY_STATUS_READ (R365): Command that returns key slot usage. -/
  | keyStatusRead
  /-- CIP_PORT_FAIL_READ (R366): Command that returns and optionally clears per-entry tag failure counts. -/
  | cipPortFailRead
  /-- KEK_SET (R367): Command on the service port that provisions a key-encryption key. -/
  | kekSet
  /-- TIME_STEER (R374): At each accepted TOD and at least every 1 ms firmware steps or slews the time counter. -/
  | timeSteer
  /-- SLEW_END (R374): A slew has removed its error and INC_TRUNK returns to nominal. -/
  | slewEnd
  /-- TIME_COUNTER_RESTART (R378): The time counter restarts from its stopped value and the gap count is latched. -/
  | timeCounterRestart
  /-- GAP_ESTIMATE (R380): Within 1 ms of a restart firmware steps the counter by the estimated gap. -/
  | gapEstimate
  /-- RING_MEASURE (R379): Once per second ring cycles are counted over 50,000,000 XTAL cycles into RING_PER_S. -/
  | ringMeasure (cycles : Nat)
  /-- TIME_SET (R387): Command that sets the steering mode, steps, sets or changes an increment of the time counter. -/
  | timeSet
  /-- TIME_JUMP_ACCEPT (R388): Command that accepts or dismisses a latched change of master. -/
  | timeJumpAccept
  /-- TIME_OUTPUT_SET (R389): Command that sets the time outputs. -/
  | timeOutputSet
  /-- PTP_SET (R390): Command that sets JUMP_LIMIT and the transparent-clock sources. -/
  | ptpSet
  /-- HBM_REQUEST (R394): A memory request reaches a channel controller and is served, queued or aborts a self-refresh entry. -/
  | hbmRequest (chan : ChanId) (request : HbmReq)
  /-- HBM_READ_COMPLETE (R407): A read word returns, corrected on a single-bit error or freezing the channel on an uncorrectable one. -/
  | hbmReadComplete (chan : ChanId) (ecc : EccOutcome)
  /-- HBM_CA_PARITY (R408): The stack reports a command/address parity error and the channel freezes. -/
  | hbmCaParity (chan : ChanId)
  /-- HBM_SERVICE_ENTRY (R396): After training and zero fill firmware moves a channel to SERVICE. -/
  | hbmServiceEntry (chan : ChanId)
  /-- HBM_TEMP_READ (R398): Every 1 ms the stack temperature is read, changing the refresh interval or raising an alarm. -/
  | hbmTempRead (temp : Byte)
  /-- HBM_TEMP_STALE (R398): No reading for 5 ms sets TEMP_STALE. -/
  | hbmTempStale (half : Half)
  /-- HBM_REFRESH (R399): An all-bank refresh falls due on a pseudo-channel. -/
  | hbmRefresh (chan : ChanId) (pc : Half)
  /-- HBM_RETRAIN (R401): Every 100 ms a channel in SERVICE enters a retraining pause. -/
  | hbmRetrain (chan : ChanId)
  /-- HBM_RETRAIN_END (R402): A retraining pause ends, converged or restoring old settings and freezing after three failures. -/
  | hbmRetrainEnd (chan : ChanId) (converged : Bool)
  /-- HBM_RETRAIN_RETRY (R402): 1 ms after a failed retraining the channel tries again. -/
  | hbmRetrainRetry (chan : ChanId)
  /-- HBM_SR_ENTRY (R403): After SR_IDLE of idle the controller closes banks and places SRE. -/
  | hbmSrEntry (chan : ChanId)
  /-- HBM_SR_ENTRY_COMPLETE (R403): Self-refresh entry completes and clocks stop. -/
  | hbmSrEntryComplete (chan : ChanId)
  /-- HBM_SR_EXIT_COMPLETE (R405): Self-refresh exit retrains and returns the channel to SERVICE. -/
  | hbmSrExitComplete (chan : ChanId)
  /-- HBM_CHANNEL_RELEASE (R411): Long command that resets, refills and returns a frozen channel to service. -/
  | hbmChannelRelease
  /-- HBM_RELEASE_COMPLETE (R411): A channel release finishes with OK or TIMEOUT. -/
  | hbmReleaseComplete (mbox : MboxId) (trained : Bool)
  /-- HBM_HISTORY_READ (R412): Command that returns a frozen channel's command history. -/
  | hbmHistoryRead
  /-- HBM_SET (R413): Command that sets the self-refresh mask and idle time. -/
  | hbmSet
  /-- CDR_LOCK_GAINED (R421): A lane's receiver gains CDR lock. -/
  | cdrLockGained (lane : SerialRef)
  /-- CDR_LOST (R421): A lane loses CDR lock. -/
  | cdrLost (lane : SerialRef)
  /-- DEEP_ENTRY (R423): A lane whose DEEP condition holds begins a 10 µs entry to DEEP. -/
  | deepEntry (lane : SerialRef)
  /-- DEEP_ENTRY_COMPLETE (R423): The PLL powers off and the lane is in DEEP. -/
  | deepEntryComplete (lane : SerialRef)
  /-- DEEP_EXIT (R423): The DEEP condition ends, aborting entry or starting a 2 ms exit. -/
  | deepExit (lane : SerialRef)
  /-- LANE_EQ_SET (R420): Command that overrides a lane's equalisation entry and restarts the lane. -/
  | laneEqSet
  /-- LANE_EQ_READ (R420): Command that returns a lane's entry in force and its source. -/
  | laneEqRead
  /-- LOOP_SET (R427): Command that sets or clears a loop-back. -/
  | loopSet
  /-- LOOP_EXPIRED (R427): A loop's DURATION runs out, ending the loop and restarting the lanes. -/
  | loopExpired (lane : SerialRef)
  /-- LOOP_BURST (R426): LOOP_DELAY ticks after an even-FN header, a TRUNK_FRAME loop burst is transmitted. -/
  | loopBurst (lane : Lane)
  /-- PATTERN_SET (R430): Command that sets a lane's pattern generator and checker. -/
  | patternSet
  /-- CHK_LOCK (R429): The pattern checker gains lock after 1,024 matching symbols. -/
  | chkLock (lane : SerialRef)
  /-- CHK_LOCK_LOST (R429): More than 256 mismatches in 1,024 symbols lose checker lock. -/
  | chkLockLost (lane : SerialRef) (symErr bitErr window : Nat)
  /-- HELLO_SEND (R435): Every enabled fabric lane sends a HELLO every 100 µs. -/
  | helloSend (lane : FabLane)
  /-- HELLO (R436): A received HELLO advances the lane's adjacency state. -/
  | hello (lane : FabLane) (hello : Hello)
  /-- FABRIC_LINK_DOWN (R436): Loss of alignment, silence, HELLO timeout or XOFF watchdog takes a fabric lane DOWN and moves its queued cells. -/
  | fabricLinkDown (lane : FabLane) (cause : FabDownCause)
  /-- IDLE_CELL_SEND (R437): A lane with nothing to send sends an IDLE cell at least every 10 µs. -/
  | idleCellSend (lane : FabLane)
  /-- FABRIC_CELL_RX (R434): A fabric cell is received, checked, and forwarded in transit or delivered. -/
  | fabricCellRx (lane : FabLane) (cell : Cell)
  /-- FAB_SEQ_HOLD_EXPIRY (R449): A fabric sequence gap still open after 20 µs is declared lost. -/
  | fabSeqHoldExpiry (src : Nat) (cls : Nat)
  /-- ADDR_FLOOD (R440): The root floods an ADDR cell every 10 ms and on change. -/
  | addrFlood
  /-- ADDR (R441): A received ADDR cell assigns an AUTO device its address. -/
  | addr (lane : FabLane) (addr : AddrCell)
  /-- ADDR_HOLD_EXPIRY (R441): An address of a departed AUTO device becomes reusable after 60 s. -/
  | addrHoldExpiry (address : Nat)
  /-- LSA_SEND (R443): A device floods its LSA on change and every 100 ms. -/
  | lsaSend
  /-- LSA (R443): A received LSA with a higher sequence is stored and reflooded. -/
  | lsa (lane : FabLane) (lsa : Lsa)
  /-- LSA_EXPIRY (R443): An LSA not refreshed for 350 ms is removed. -/
  | lsaExpiry (device : BitVec 64)
  /-- ROUTE_RECOMPUTE (R444): Within 1 ms of an LSA database change the fabric route table is recomputed. -/
  | routeRecompute
  /-- FAB_LPI_ENTER (R453): A fabric lane idle for 20 µs enters LPI. -/
  | fabLpiEnter (lane : FabLane)
  /-- FABRIC_SET (R454): Command that sets the fabric address, lanes, classes and costs. -/
  | fabricSet
  /-- FABRIC_ROUTE_READ (R455): Command that returns fabric route entries. -/
  | fabricRouteRead
  /-- RING (R462): A host write of RING latches the request area and makes the mailbox PENDING, or is ignored. -/
  | ring (mbox : MboxId)
  /-- ABORT (R462): A host write of ABORT withdraws a PENDING request with ABORTED, or is ignored. -/
  | abort (mbox : MboxId) (ring : Bool)
  /-- REQUEST_AREA_WRITE (R462): A host write to a mailbox request area is stored, or ignored while PENDING or RUNNING. -/
  | requestAreaWrite (mbox : MboxId) (offset : Nat) (data : List Byte)
  /-- COMMAND_TAKE (R463): The anchor takes the next PENDING request in ring order and runs the common checks. -/
  | commandTake
  /-- SERVICE_REQUEST_RX (R469): A service-port request frame is latched in mailbox 8 or answered BUSY. -/
  | serviceRequestRx (frame : List Byte)
  /-- FENCE (R471): Long command that waits for earlier commands' effects to be in force on every slice. -/
  | fence
  /-- FENCE_COMPLETE (R471): The FENCE instant is reached and the final OK is written. -/
  | fenceComplete (mbox : MboxId)
  /-- DRAIN_FENCE (R472): Long command that waits for every earlier packet to leave, within LIMIT. -/
  | drainFence
  /-- DRAIN_FENCE_COMPLETE (R472): Every earlier packet has left, or LIMIT expires with TIMEOUT. -/
  | drainFenceComplete (mbox : MboxId)
  /-- FUNC_STOP (R473): Command that stops function instances. -/
  | funcStop
  /-- FUNC_START (R473): Command that starts function instances and applies pending changes. -/
  | funcStart
  /-- EVENT_QUEUE_SET (R480): Command that sets the host event queue. -/
  | eventQueueSet
  /-- EVENT_ROUTE_SET (R483): Command that maps event classes to vectors or sets coalescing. -/
  | eventRouteSet
  /-- MGT_QUEUE_SET (R484): Command that sets a management ring. -/
  | mgtQueueSet
  /-- EVQ_CONS_WRITE (R480): A host write of EVQ_CONS frees queue slots and, after a loss, triggers an EVQ_OVERFLOW record. -/
  | evqConsWrite (value : Nat)
  /-- VECTOR_DELAY_EXPIRY (R482): A vector's DELAY expires after its first pending cause and it fires. -/
  | vectorDelayExpiry (vector : VectorId)
  /-- MSIX_UNMASK (R482): A masked vector with its PBA bit set is unmasked and sends its message. -/
  | msixUnmask (vector : VectorId)
  /-- TXQ_TAIL_WRITE (R485): A host write of TXQ_TAIL makes descriptors available for the device to read. -/
  | txqTailWrite (queue : MgtQueue) (value : Nat)
  /-- TX_DESCRIPTOR_READ (R485): The device reads a TX descriptor and injects or rejects its frame. -/
  | txDescriptorRead (queue : MgtQueue) (desc : List Byte) (frame : FrameBytes)
  /-- TX_DESCRIPTOR_WRITEBACK (R486): A TX descriptor is written back with its stamp or DROPPED. -/
  | txDescriptorWriteback (queue : MgtQueue)
  /-- RXQ_TAIL_WRITE (R487): A host write of RXQ_TAIL posts receive buffers. -/
  | rxqTailWrite (queue : MgtQueue) (value : Nat)
  /-- MGT_RX_DELIVER (R487): A frame for a management queue is delivered into a posted buffer or dropped. -/
  | mgtRxDeliver (queue : MgtQueue) (size : Nat)
  /-- SENSOR_SAMPLE (R494): Every 1 ms each sensor is sampled and its thresholds checked. -/
  | sensorSample (index : Nat) (reading : Word)
  /-- SENSOR_GET (R495): Command that returns sensor readings. -/
  | sensorGet
  /-- SENSOR_SET (R495): Command that sets a sensor's thresholds. -/
  | sensorSet
  /-- CHECKPOINT (R496): Every 15 minutes of uptime the next checkpoint slot is written with recent records. -/
  | checkpoint (written : Bool)
  /-- LOG_READ (R497): Long command that returns contact-sheet records by SEQ. -/
  | logRead
  /-- FW_STAGE (R501): Long command that writes an image chunk to the staging bank and verifies on the last. -/
  | fwStage
  /-- FW_ACTIVATE (R503): Long command that activates the staged image hitlessly or cold. -/
  | fwActivate
  /-- ACTIVATION_STEP (R504): A hitless activation advances through its steps, or rolls back on failure. -/
  | activationStep (ok : Bool)
  /-- SLICE_CONTROLLER_SWITCH (R505): A slice controller switches to new code at the next epoch boundary. -/
  | sliceControllerSwitch (slice : SliceId)
  /-- FW_STATUS_READ (R507): Command that returns firmware bank and version status. -/
  | fwStatusRead
  /-- FUSE_READ (R510): Command that returns fused identity and key-presence data. -/
  | fuseRead
  /-- FW_START_TIMEOUT (R508): Management firmware not ready 2 s after start sends the ROM to darkroom mode. -/
  | fwStartTimeout
  /-- CLOCK_STABLE (R515): An oscillator or PLL becomes stable after 65,536 cycles. -/
  | clockStable (slice : SliceId) (source : ClockSrc)
  /-- CLOCK_STOP_DETECT (R516): A source showing no edge for 64 ring cycles is FAILED, and its domains switch or stop. -/
  | clockStopDetect (slice : SliceId) (source : ClockSrc)
  /-- FREQ_WINDOW (R516): At the end of a frequency window a source failing twice is FAILED or the pair becomes SUSPECT. -/
  | freqWindow (slice : SliceId) (source : ClockSrc) (ppm : Int) (ring : Option RingCmp)
  /-- CLOCK_RECOVER (R518): A FAILED source passing both tests for 1 s becomes GOOD. -/
  | clockRecover (slice : SliceId) (source : ClockSrc)
  /-- DOMAIN_RESTART (R520): A stopped domain restarts when one of its sources is stable and GOOD. -/
  | domainRestart (slice : SliceId) (domain : Domain)
  /-- DVFS_STEP (R522): The sequencer moves a slice's core one level, voltage and frequency in order. -/
  | dvfsStep (slice : SliceId)
  /-- AVS_ACK (R522): The regulator acknowledges a setpoint and the step proceeds. -/
  | avsAck (slice : SliceId)
  /-- AVS_TIMEOUT (R523): No acknowledgement within 100 µs holds the lower frequency and sets AVS_UNCONFIRMED. -/
  | avsTimeout (slice : SliceId)
  /-- AVS_POLL (R523): Every 1 ms the regulator voltage is read until it confirms the level above. -/
  | avsPoll (slice : SliceId) (millivolt : Nat)
  /-- THERMAL_THROTTLE (R525): A sensor at 100 °C caps the slice at P1. -/
  | thermalThrottle (slice : SliceId) (sensor : Nat) (reading : Int)
  /-- THERMAL_CAP_RELEASE (R525): All sensors at 95 °C or below lift the cap. -/
  | thermalCapRelease (slice : SliceId)
  /-- THERMAL_SHUTDOWN (R525): A sensor at 115 °C stops the slice at once and asserts THERMTRIP_N. -/
  | thermalShutdown (slice : SliceId) (sensor : Nat) (reading : Int)
  /-- IDLE_ENTRY (R526): After IDLE_TIME with an empty packet path the slice enters IDLE. -/
  | idleEntry (slice : SliceId)
  /-- IDLE_EXIT (R526): A frame, staging, bridge request or command returns an IDLE slice to RUN. -/
  | idleExit (slice : SliceId)
  /-- DROWSE_ENTRY (R526): After DROWSE_TIME in IDLE with no traffic interfaces the slice enters DROWSE. -/
  | drowseEntry (slice : SliceId)
  /-- DORMANT_ENTRY (R526): After DORMANT_TIME in DROWSE the slice quiesces and enters DORMANT. -/
  | dormantEntry (slice : SliceId)
  /-- WAKE_STEP (R530): A waking slice advances through the fixed steps of the wake table. -/
  | wakeStep (slice : SliceId)
  /-- QUIESCE_TIMEOUT (R533): After 1 ms of quiesce the outstanding transfers complete with ABORTED. -/
  | quiesceTimeout (slice : SliceId)
  /-- POWER_STATE_SET (R536): Long command that sets slice or device power states or policy. -/
  | powerStateSet
  /-- POWER_STATE_REACHED (R536): Every named slice reaches the state and the final response is written. -/
  | powerStateReached (mbox : MboxId)
  /-- DVFS_SET (R537): Command that records a requested core level. -/
  | dvfsSet
  /-- CLOCK_STATUS_READ (R538): Command that returns clock source and domain status. -/
  | clockStatusRead
  /-- RESET_ISSUE (R539): Long command that issues a device, slice, function or crossing reset. -/
  | resetIssue
  /-- RESET_COMPLETE (R539): A slice, function or crossing reset finishes and the final response is written. -/
  | resetComplete (mbox : MboxId)
  /-- POWER_ON_RESET (R547): Supply monitors hold and release power-on reset on rail validity. -/
  | powerOnReset (straps : Straps)
  /-- PIN_RESET (R534): RESET_N held low resets the whole device except the safelight domains. -/
  | pinReset (straps : Straps)
  /-- SLICE_RESET (R534): A per-slice reset resets one slice and it rejoins with its configuration restored. -/
  | sliceReset (slice : SliceId)
  /-- QUARANTINE_EXIT (R535): A crossing leaves quarantine when both reset handshakes complete. -/
  | quarantineExit (slice : SliceId) (crossing : Nat)
  /-- REMOVAL (R551): PRSNT_N going high darkens every lane, idles transmitters, abandons flash writes and records REMOVAL. -/
  | removal
  /-- PRESENCE_RETURN (R551): PRSNT_N low for 100 ms returns the device as from a pin reset. -/
  | presenceReturn (straps : Straps)
  /-- PERST (R553): PERST_N or a PCIe link loss resets the PCIe function, aborts PENDING mailboxes and disables host rings. -/
  | perst
  /-- GAP_SAT (R378): The 48-bit gap counter reaches its maximum, holds there and sets GAP_SAT. -/
  | gapSat
  /-- DEEP_EXIT_COMPLETE (R422): A lane leaving DEEP completes its 2 ms exit, lane start included, and is in RUN. -/
  | deepExitComplete (lane : SerialRef)
  /-- FW_STAGE_COMPLETE (R501): A long FW_STAGE finishes writing its chunk to flash, verifies on the last chunk, and writes its final response. -/
  | fwStageComplete (mbox : MboxId)
  /-- LOG_READ_COMPLETE (R497): A long LOG_READ finishes reading the ring, HBM history or flash slots and writes its final response. -/
  | logReadComplete (mbox : MboxId)
  /-- FIRMWARE_READY (R508): The management firmware started by the ROM reports ready, ending the boot start before the 2 s limit. -/
  | firmwareReady
  /-- REMOTE_FAULT_RECEIVED (R231): A host port starts or stops receiving Remote Fault, so it sends Idle and discards frames at its egress queues, or resumes. -/
  | remoteFaultReceived (port : PortId) (on : Bool)
  /-- RECEIVE_LPI (R240): The link partner enters or leaves low-power idle on a host port or fabric lane, which LPI_RX shows and which suspends the fabric silence rule. -/
  | receiveLpi (lane : LpiRef) (on : Bool)
  deriving DecidableEq, Repr

end Sys2Proof
end

