-- ==== Sys2Proof/Config.lean ====
section
/-!
DEFINITION. Config.lean: what an implementation fixes and the spec leaves open.
Every constant here is opaque: nothing in Lean can evaluate it, so a claim holds for every value of it.
-/
namespace Sys2Proof

/-- The device's random source (the spec draws random numbers and does not give their values: R89, R92).
`Config.random n` is the n-th value drawn; State.env.draws counts the draws.  Log 5. -/
opaque Config.random : Nat → Nat

/-- What SMBus code 0x10 returns for an index that names no sensor; the spec gives no result for one (R470).  Log 13. -/
opaque Config.smbusNoSensor : Nat → BitVec 32

/-- LAST_CAUSE on the protection side of a remote pair that follows the target of a PROTECT_STATUS, which carries no cause (R203,
R451), by the instant of the switch.  Log 128. -/
opaque Config.followCause : Nat → Nat

end Sys2Proof
end

