-- ==== Sys2Proof/Machine/Addr.lean ====
section
/-!
DEFINITION. Machine/Addr.lean: where registers lie (R457, R458) and under which key the model holds them.
A word of the global region keeps its BAR0 offset; a word of slice s keeps 0x0100_0000 * (s + 1) + offset; a word that reads
the same in every slice region (R558) is held once, under 0xFE00_0000 + its offset within a slice region.
-/
namespace Sys2Proof.Machine

/-- Key of a word in slice s's own region. -/
def sliceReg (s off : Nat) : Nat := 0x1000000 * (s + 1) + off

/-- Key of a device-wide word of every slice region (R558). -/
def devReg (off : Nat) : Nat := 0xFE000000 + off

/-- Key of a per-lane word in the trunk block of the lane's slice. -/
def laneReg (l : Lane) (base stride : Nat) : Nat := sliceReg (l.val / 4) (base + stride * (l.val % 4))

/-! Global region. -/
def aRoWrites : Nat := 0x10
def aCollisions : Nat := 0x18
def aRingIgnored : Nat := 0x28
def aSmbusBad : Nat := 0x30
def aMboxFlags (m : Nat) : Nat := 0x2000C + 0x10 * m
def aEvqFlags : Nat := 0x2010C
def aEvqLost : Nat := 0x20118
def aAnchorFlags : Nat := 0x30004
def aDiverged : Nat := 0x30008
def aTakeovers : Nat := 0x30010
def aUnreach : Nat := 0x30030
def aRxqFlags (q : Nat) : Nat := 0x60010 + 0x100 * q
def aRxqDrop (q : Nat) : Nat := 0x60080 + 0x100 * q

/-! Bridges (spec/02_package_slices_anchor.md). -/
def aBridgeRetry (s : SliceId) (p : BridgePort) : Nat := sliceReg s (0x60 + 8 * p.val)
def aBridgeDown (s : SliceId) (p : BridgePort) : Nat := sliceReg s (0x80 + 8 * p.val)
def aBridgeLost (s : SliceId) : Nat := sliceReg s 0xA0
def aBridgeTtl (s : SliceId) : Nat := sliceReg s 0xA8
def aBridgeUnreach (s : SliceId) : Nat := sliceReg s 0xB0

/-! Trunk blocks. -/
def aTrkFlags (l : Lane) : Nat := laneReg l 0x600030 4
/-- Counters of R77 at an offset. -/
def aTrk (l : Lane) (off : Nat) : Nat := laneReg l (0x600100 + off) 0x100
def aRngFlags (g : GroupId) : Nat := devReg (0x601004 + 0x80 * g.val)
/-- Counters of R110. -/
def aRng (g : GroupId) (off : Nat) : Nat := devReg (0x601040 + 0x80 * g.val + off)
def aGntFlags (l : Lane) : Nat := laneReg l 0x602008 0x10
/-- Counters of R144. -/
def aGnt (l : Lane) (off : Nat) : Nat := laneReg l (0x602100 + off) 0x100
def aFragLost (g : GroupId) : Nat := devReg (0x603008 + 0x80 * g.val)
def aRunFlags (g : GroupId) : Nat := devReg (0x604020 + 0x80 * g.val)
/-- Counters of R181. -/
def aRun (g : GroupId) (off : Nat) : Nat := devReg (0x604800 + 0x100 * g.val + off)
def aPrtLaneFlags (l : Lane) : Nat := laneReg l 0x606004 0x10
/-- Lane counters of R217. -/
def aPrtLane (l : Lane) (off : Nat) : Nat := laneReg l (0x606100 + off) 0x40
def aPrtFlags (g : GroupId) : Nat := devReg (0x60700C + 0x80 * g.val)
/-- Group counters of R217. -/
def aPrt (g : GroupId) (off : Nat) : Nat := devReg (0x607400 + 0x100 * g.val + off)

/-! Packet path. -/
def aMacFlags (p : PortId) : Nat := sliceReg (p.val / 4) (0x101004 + 0x1000 * (p.val % 4))
/-- Counters of R247. -/
def aMac (p : PortId) (off : Nat) : Nat := sliceReg (p.val / 4) (0x101100 + 0x1000 * (p.val % 4) + off)
def aPfcRx (p : PortId) (k : Nat) : Nat := sliceReg (p.val / 4) (0x101200 + 0x1000 * (p.val % 4) + 8 * k)
def aPfcTx (p : PortId) (k : Nat) : Nat := sliceReg (p.val / 4) (0x101240 + 0x1000 * (p.val % 4) + 8 * k)
def aClsFlags (s : SliceId) : Nat := sliceReg s 0x200004
/-- Counters of R280. -/
def aCls (s : SliceId) (off : Nat) : Nat := sliceReg s (0x200100 + off)
def aBufFlags (s : SliceId) : Nat := sliceReg s 0x300000
/-- Slice counters of R312. -/
def aBuf (s : SliceId) (off : Nat) : Nat := sliceReg s (0x301000 + off)
def aSpillFlags : Nat := devReg 0x302008
/-- Device counters of R312. -/
def aSpill (off : Nat) : Nat := devReg (0x302100 + off)
def aSchFlags (s : SliceId) : Nat := sliceReg s 0x400004
/-- Slice counters of R334. -/
def aSch (s : SliceId) (off : Nat) : Nat := sliceReg s (0x400100 + off)
/-- Queue counters of R334. -/
def aSchQ (p : PortId) (q off : Nat) : Nat :=
  sliceReg (p.val / 4) (0x402000 + 0x400 * (p.val % 4) + 0x20 * q + off)
/-- Class counters of R334. -/
def aSchC (d c off : Nat) : Nat := devReg (0x40C000 + 0x100 * d + 0x10 * c + off)
def aKeyFlags (n : Nat) : Nat := devReg (0x501004 + 0x10 * n)
/-- Counters of R368. -/
def aCip (s off : Nat) : Nat := sliceReg s (0x500100 + off)

end Sys2Proof.Machine
end

