-- ==== Sys2Proof/Machine/Bits.lean ====
section
/-!
DEFINITION. Machine/Bits.lean: bit fields, byte orders and the checks the spec computes over bits: CRC-8, CRC-16, CRC-32,
the additive scrambler and the one-bit correction of a packet header.
-/
namespace Sys2Proof.Machine

/-! Byte orders (R7). -/

/-- Value of bytes, least significant first (mailbox payloads and the register window). -/
def leNat : List Byte → Nat
  | [] => 0
  | b :: t => b.toNat + 256 * leNat t

/-- `n` bytes of a value, least significant first. -/
def toLe : Nat → Nat → List Byte
  | 0, _ => []
  | n + 1, v => BitVec.ofNat 8 v :: toLe n (v / 256)

/-- Value of bytes, most significant first (the trunk). -/
def beNat (l : List Byte) : Nat := l.foldl (fun a b => a * 256 + b.toNat) 0

/-- `n` bytes of a value, most significant first. -/
def toBe (n v : Nat) : List Byte := (toLe n v).reverse

/-- The value of the `n` bytes at offset `k`, least significant first; bytes beyond the list read as 0. -/
def leAt (l : List Byte) (k n : Nat) : Nat := leNat ((l.drop k).take n)

/-- The value of the `n` bytes at offset `k`, most significant first. -/
def beAt (l : List Byte) (k n : Nat) : Nat := beNat ((l.drop k).take n)

/-- Byte `k` of a list, 0 beyond its end. -/
def byteOf (l : List Byte) (k : Nat) : Byte := l.getD k 0

/-- Two's-complement value of the low `w` bits. -/
def signed (w v : Nat) : Int :=
  if v % 2 ^ w < 2 ^ (w - 1) then (v % 2 ^ w : Nat) else ((v % 2 ^ w : Nat) : Int) - (2 ^ w : Nat)

/-- Ceiling of a quotient. -/
def ceilDiv (a b : Nat) : Nat := (a + b - 1) / b

/-! Fields of a vector. -/

/-- Bits [lo + n - 1 : lo] of a vector, as a number. -/
def fld {w : Nat} (v : BitVec w) (lo n : Nat) : Nat := (v.extractLsb' lo n).toNat

/-- Bit `i` of a vector. -/
def bitOf {w : Nat} (v : BitVec w) (i : Nat) : Bool := v.getLsbD i

/-- Bit `i` of a number. -/
def natBit (v i : Nat) : Bool := v.testBit i

/-- The bits of a vector, most significant first. -/
def bitsMsb {w : Nat} (v : BitVec w) : List Bool := (List.range w).map fun i => v.getLsbD (w - 1 - i)

/-- The bits of bytes in transmission order. -/
def bitsOfBytes (l : List Byte) : List Bool := l.flatMap fun b => bitsMsb b

/-- A field placed at bit `lo`. -/
def put (w lo v : Nat) : BitVec w := BitVec.ofNat w v <<< lo

/-- The value of bits, most significant first. -/
def natOfBits (l : List Bool) : Nat := l.foldl (fun a b => 2 * a + b.toNat) 0

/-- Byte `k` of an n-byte vector, byte 0 the most significant (R45, R83). -/
def vecByte {w : Nat} (v : BitVec w) (k : Nat) : Byte := v.extractLsb' (w - 8 - 8 * k) 8

/-- The bytes of a vector, most significant first. -/
def vecBytes {w : Nat} (v : BitVec w) : List Byte := (List.range (w / 8)).map fun k => vecByte v k

/-- A vector from bytes, most significant first. -/
def vecOfBytes (w : Nat) (l : List Byte) : BitVec w := BitVec.ofNat w (beNat l)

/-! CRCs: no reflection, most significant bit first. -/

/-- One bit through a CRC register. -/
def crcStep {w : Nat} (poly c : BitVec w) (b : Bool) : BitVec w :=
  if c.msb != b then (c <<< 1) ^^^ poly else c <<< 1

/-- A CRC over bits. -/
def crcBits {w : Nat} (poly init : BitVec w) (l : List Bool) : BitVec w := l.foldl (crcStep poly) init

/-- CRC-16 of HCRC, HEC, DCRC, RCRC and ECRC (R51, R64): 0x1021, initial value 0xFFFF. -/
def crc16 (l : List Bool) : BitVec 16 := crcBits 0x1021#16 0xFFFF#16 l

/-- CRC-8 of a grant entry (R112): 0x2F, initial value 0xFF, final XOR 0xFF. -/
def crc8 (l : List Bool) : BitVec 8 := crcBits 0x2F#8 0xFF#8 l ^^^ 0xFF#8

/-- CRC-32 with generator 0x04C1_1DB7 and the given initial value, no final XOR (R227, R259, R269). -/
def crc32 (init : Word) (l : List Bool) : Word := crcBits 0x04C11DB7#32 init l

/-- The bits of bytes in the order in which Ethernet sends them: least significant bit of each byte first. -/
def bitsLsb (l : List Byte) : List Bool := l.flatMap fun b => (List.range 8).map fun i => b.getLsbD i

/-- The FCS of an Ethernet frame in wire order, as IEEE 802.3 defines it (R219, R229). -/
def fcsBytes (l : List Byte) : List Byte :=
  let r := crc32 0xFFFFFFFF#32 (bitsLsb l) ^^^ 0xFFFFFFFF#32
  (List.range 4).map fun i => BitVec.ofNat 8 ((List.range 8).foldl (fun n j => n + (r.getLsbD (31 - 8 * i - j)).toNat * 2 ^ j) 0)

/-- CRC-32 of an OAM message and of a fabric cell (R84): initial value and final XOR 0xFFFF_FFFF. -/
def crcOam (l : List Bool) : Word := crc32 0xFFFFFFFF#32 l ^^^ 0xFFFFFFFF#32

/-! Scrambler (R55, R132, R138). -/

/-- The output bits of the scrambler started from a state, and the state it ends in. -/
def scramble : Nat → BitVec 31 → List Bool
  | 0, _ => []
  | n + 1, s =>
    let k := s.getLsbD 30 != s.getLsbD 27
    k :: scramble n ((s <<< 1) ||| BitVec.ofNat 31 k.toNat)

/-- A scrambler seed: the value XOR the mask, or all ones where that is zero (R55, R138). -/
def scrambleSeed (v : Nat) (mask : BitVec 31) : BitVec 31 :=
  let s := BitVec.ofNat 31 v ^^^ mask
  if s = 0 then 0x7FFFFFFF#31 else s

/-- The seed of a downstream frame (R55). -/
def frameSeed (fn : Nat) : BitVec 31 := scrambleSeed fn 0x55555555#31

/-- The seed of a burst's data region (R138). -/
def burstSeed (epoch16 burstCtr : BitVec 16) : BitVec 31 :=
  scrambleSeed (epoch16.toNat * 65536 + burstCtr.toNat) 0x2AAAAAAA#31

/-- The state of the scrambler `n` data bits on. -/
def scrambleFrom : Nat → BitVec 31 → BitVec 31
  | 0, s => s
  | n + 1, s => scrambleFrom n ((s <<< 1) ||| BitVec.ofNat 31 (s.getLsbD 30 != s.getLsbD 27).toNat)

/-! BIP-16. -/

/-- XOR of the 16-bit words of a body. -/
def bodyBip (b : BitVec 256) : BitVec 16 := (List.range 16).foldl (fun a k => a ^^^ b.extractLsb' (16 * k) 16) 0#16

/-- XOR over bodies (R53, R136). -/
def bipOf (l : List (BitVec 256)) : BitVec 16 := l.foldl (fun a b => a ^^^ bodyBip b) 0#16

/-! Packet header error check (R64). -/

/-- The HEC of header bits [63:16]. -/
def hecOf (h : BitVec 64) : BitVec 16 := crc16 ((bitsMsb h).take 48)

/-- Whether a packet header's HEC checks. -/
def hecOk (h : BitVec 64) : Bool := hecOf h == h.extractLsb' 0 16

/-- The header with its single-bit error put right, if one bit explains the syndrome (R64). -/
def hecCorrect (h : BitVec 64) : Option (BitVec 64) :=
  ((List.range 64).map fun i => h ^^^ (1#64 <<< i)).find? hecOk

/-- The number of set bits. -/
def popCount {w : Nat} (v : BitVec w) : Nat := ((List.range w).filter fun i => v.getLsbD i).length

end Sys2Proof.Machine
end

