-- ==== Sys2Proof/Machine/Sparse.lean ====
section
/-!
DEFINITION. Machine/Sparse.lean: sparse tables keyed by a number, in one canonical form.
A table is a list of (key, value) pairs with strictly rising keys; an unlisted key reads as the table's default, and no
entry holds the default, so that equal tables are equal data.
-/
namespace Sys2Proof.Machine

/-- A sparse table: (key, value) pairs. -/
abbrev Sparse (α : Type) := List (Nat × α)

/-- The value a table holds at a key; `d` is what an unlisted key reads as. -/
def sparseGet {α : Type} (d : α) : Sparse α → Nat → α
  | [], _ => d
  | (k, v) :: t, n => if n = k then v else if n < k then d else sparseGet d t n

/-- Put an entry in its place; the default value removes it. -/
def sparseSet {α : Type} [DecidableEq α] (d : α) : Sparse α → Nat → α → Sparse α
  | [], n, x => if x = d then [] else [(n, x)]
  | (k, v) :: t, n, x =>
    if n = k then (if x = d then t else (n, x) :: t)
    else if n < k then (if x = d then (k, v) :: t else (n, x) :: (k, v) :: t)
    else (k, v) :: sparseSet d t n x

/-- Every key of the table is above `lo`, keys rise strictly, and no entry holds the default. -/
def sparseAbove {α : Type} [DecidableEq α] (d : α) : Nat → Sparse α → Bool
  | _, [] => true
  | lo, (k, v) :: t => decide (lo < k) && !decide (v = d) && sparseAbove d k t

/-- The canonical form: keys strictly rising, no entry equal to the default. -/
def sparseWf {α : Type} [DecidableEq α] (d : α) : Sparse α → Bool
  | [] => true
  | (k, v) :: t => !decide (v = d) && sparseAbove d k t

/-- Change the value at a key. -/
def sparseMod {α : Type} [DecidableEq α] (d : α) (t : Sparse α) (n : Nat) (f : α → α) : Sparse α :=
  sparseSet d t n (f (sparseGet d t n))

/-- Replace one element of a fixed table. -/
def vmod {α : Type} {n : Nat} (v : Vector α n) (i : Fin n) (f : α → α) : Vector α n :=
  v.set i (f v[i])

end Sys2Proof.Machine
end

