-- ==== Sys2Proof/Machine/MgmtState.lean ====
section
/-!
DEFINITION. Machine/MgmtState.lean: the state of identity, bridges, anchor, mailboxes, events and management queues
(spec/00_scope.md, spec/02_package_slices_anchor.md, spec/17_mailboxes_and_commands.md).
Every field's default is its value at reset.
-/
namespace Sys2Proof.Machine

/-- The four parts (R1). -/
inductive Part where
  | ct1602
  | ct3204
  | ct4806
  | ct6408
  deriving DecidableEq, Repr

/-- Status codes of a response (R467). -/
inductive Status where
  | ok
  | busy
  | badOpcode
  | badLength
  | notPermitted
  | notStopped
  | outOfRange
  | conflict
  | timeout
  | aborted
  | deferred
  deriving DecidableEq, Repr

/-! Slices and bridges (spec/02_package_slices_anchor.md). -/

/-- A flit in a retry buffer (R24): the instant at which it was last sent, and how often it has failed its CRC. -/
structure OutFlit where
  flit : Flit
  sentAt : Nat
  fails : Nat := 0
  deriving DecidableEq, Repr

/-- One bridge port of a slice (R24, R27): link up, bridge loop, consecutive good flits of the retrain attempt and the instant of the
next attempt. -/
structure Bridge where
  up : Bool := false
  loop : Bool := false
  /-- The bridge loop ends at this instant (R427). -/
  loopEnd : Option Nat := none
  goodRun : Nat := 0
  nextRetrain : Nat := 0
  /-- The retry buffer: flits sent and not yet acknowledged, oldest first, and flits that wait for room in it (R24). -/
  unacked : List OutFlit := []
  sendQ : List Flit := []
  /-- The last acknowledgement arrived at this instant. -/
  ackAt : Nat := 0
  deriving DecidableEq, Repr

/-- One route entry of a slice (R25, R27); `none` reads 0b11. -/
structure Route where
  primary : Option BridgePort := none
  alternate : Option BridgePort := none
  altActive : Bool := false
  unreachable : Bool := false
  deriving DecidableEq, Repr

/-- Flit sequence state of one source at one destination slice (R26). -/
structure SeqRx where
  expected : BitVec 16 := 0
  /-- Flits that arrived early, each with the instant of its arrival. -/
  held : List (Nat × Flit) := []
  last : Option Flit := none
  delivered : Nat := 0
  dropPkt : Option Nat := none
  deriving DecidableEq, Repr

/-- Anchor states (R36, R43). -/
inductive AnchorSt where
  | reset
  | deputy
  | elect
  | anchor
  | abstain
  | faulted
  deriving DecidableEq, Repr

/-- What an anchor-capable slice holds (R32 to R43). -/
structure AnchorCap where
  st : AnchorSt := .reset
  /-- It drives the claim line low. -/
  drives : Bool := false
  /-- It waits for the claim line to be free (R36). -/
  waits : Bool := false
  /-- It entered ELECT by the election of R35, not by a takeover. -/
  bootElect : Bool := false
  /-- The instant its own reset was released (R35). -/
  releasedAt : Nat := 0
  /-- The instant it came out of a power-on or pin reset rather than a per-slice reset. -/
  coldStart : Bool := true
  /-- The ANCHOR_HANDOVER response was written at this instant (R43). -/
  handoverAt : Option Nat := none
  /-- The generation of each slice's configuration that it recorded (R42). -/
  genSeen : Vector Nat 8 := Vector.replicate 8 0
  deriving DecidableEq, Repr

/-! Mailboxes (spec/17_mailboxes_and_commands.md). -/

/-- A latched request (R460): header fields and the payload bytes that LENGTH covers, at most 4,080. -/
structure Request where
  opcode : BitVec 16 := 0
  flags : Byte := 0
  sliceMask : Byte := 0
  seq : Word := 0
  length : Word := 0
  reserved : Word := 0
  payload : List Byte := []
  deriving DecidableEq, Repr

/-- A response area (R460). -/
structure Response where
  status : Status := .ok
  seq : Word := 0
  payload : List Byte := []
  doneNs : Word := 0
  doneSec : Word := 0
  deriving DecidableEq, Repr

/-- Mailbox states (R462). -/
inductive MboxSt where
  | idle
  | pending
  | running
  | done
  deriving DecidableEq, Repr

/-- One mailbox (R460 to R462). -/
structure Mbox where
  area : Sparse Byte := []
  req : Request := {}
  st : MboxSt := .idle
  resp : Response := {}
  /-- The cycle in which its doorbell was rung (R463). -/
  rungAt : Nat := 0
  /-- The ordinal of its taking among all takings (R463). -/
  takenNo : Nat := 0
  /-- The instant of its taking (R472). -/
  takenAt : Nat := 0
  /-- Last mirrored sequence number and response (R33, R41, R43). -/
  mirrorSeq : Word := 0
  mirrorResp : Option Response := none
  /-- The taking of the request whose response the mirror holds (R40). -/
  mirrorNo : Nat := 0
  deriving DecidableEq, Repr

/-- What a long command that runs is waiting for (R464). -/
inductive LongKind where
  | taken
  | fence (payload : List Byte)
  | drain (limitAt : Nat) (instant : Option Nat)
  | hbmRelease (chan : ChanId)
  | fwStage
  | fwActivate
  | logRead
  | power
  | reset
  deriving DecidableEq, Repr

/-- A long command that runs. -/
structure LongCmd where
  mbox : MboxId
  kind : LongKind
  deriving DecidableEq, Repr

/-! Events (R478 to R483). -/

/-- Event severities (R478). -/
inductive Severity where
  | info
  | notice
  | warning
  | error
  | critical
  deriving DecidableEq, Repr

/-- A contact-sheet record (R478); `data` is the 14 bytes DATA. -/
structure Record where
  seq : Word
  code : BitVec 16
  severity : Severity
  source : Byte
  timeNs : Word
  timeSec : Word
  flags : Byte
  data : List Byte
  deriving DecidableEq, Repr

/-- The host event queue (R480). -/
structure EventQueue where
  base : Nat := 0
  entries : Nat := 0
  enabled : Bool := false
  minSev : Nat := 0
  prod : Nat := 0
  cons : Nat := 0
  consSeen : Nat := 0
  /-- SEQ of the first record not queued since the last EVQ_OVERFLOW. -/
  firstLost : Option Word := none
  lostCount : Nat := 0
  /-- The record last copied into each slot of host memory. -/
  slots : Sparse (Option Record) := []
  deriving DecidableEq, Repr

/-- One MSI-X vector with its table entry (R482). -/
structure Vec where
  count : Nat := 1
  delay : Nat := 0
  causes : Nat := 0
  firstAt : Nat := 0
  masked : Bool := true
  pba : Bool := false
  sent : Nat := 0
  addr : Wide := 0
  data : Word := 0
  deriving DecidableEq, Repr

/-- A TX descriptor's write-back (R486); its TAG is none where the descriptor was not read, and stands as the host wrote it. -/
structure TxWriteback where
  tag : Option Word
  valid : Bool
  estimated : Bool
  stepped : Bool
  dropped : Bool
  point : Byte
  reason : Byte
  stamp : BitVec 96
  deriving DecidableEq, Repr

/-- A TX descriptor read and not yet written back: its ring slot, TAG, whether it asks a stamp, and its write-back once it
is known. -/
structure TxOwed where
  slot : Nat
  tag : Word
  tsReq : Bool
  /-- STEP_GEN at injection (R385). -/
  gen : Nat := 0
  ready : Option TxWriteback := none
  deriving DecidableEq, Repr

/-- An RX descriptor's write-back with the frame delivered (R487). -/
structure RxWriteback where
  frame : FrameBytes
  stampValid : Bool
  estimated : Bool
  l3Bad : Bool
  l4Bad : Bool
  mirror : Bool
  srcKind : Nat
  srcId : Nat
  outcome : Nat
  passTag : Nat
  stamp : BitVec 96
  portId : PortTag
  deriving DecidableEq, Repr

/-- The two management rings of a queue (R484 to R487). -/
structure MgtRing where
  txBase : Nat := 0
  txEntries : Nat := 0
  txEnabled : Bool := false
  txHead : Nat := 0
  txTail : Nat := 0
  txOwed : List TxOwed := []
  /-- Write-backs done, by slot of the ring. -/
  txDone : Sparse (Option TxWriteback) := []
  rxBase : Nat := 0
  rxEntries : Nat := 0
  rxEnabled : Bool := false
  rxHead : Nat := 0
  rxTail : Nat := 0
  /-- Write-backs of the receive ring, by slot. -/
  rxDone : Sparse (Option RxWriteback) := []
  deriving DecidableEq, Repr

end Sys2Proof.Machine
end

