-- ==== Sys2Proof/Machine/LineState.lean ====
section
/-!
DEFINITION. Machine/LineState.lean: the state of packets, line lanes, trunk groups and their latent bursts
(spec/01_trunk_and_terminal.md to spec/07_trunk_oam_performance_protection.md, spec/12_cipher_engine.md).
Every field's default is its value at reset.  Instants are State.now ticks; stamps and edges are values of the group tick
counter in 1/64 tick.
-/
namespace Sys2Proof.Machine

/-- A value of a group tick counter: 48 bits of ticks and 6 bits of 1/64 tick (R102). -/
abbrev Stamp := BitVec 54

/-- Where a frame entered (R254): kind 0 host port, 1 trunk group, 2 fabric, 3 management; and its number. -/
structure Source where
  kind : Nat := 0
  id : Nat := 0
  deriving DecidableEq, Repr

/-- A frame on its way through the device. -/
structure Packet where
  /-- The order of entering the packet path (R16, R472). -/
  entry : Nat := 0
  bytes : FrameBytes := []
  src : Source := {}
  /-- The slice at which it entered (R283). -/
  slice : SliceId := 0
  /-- Its buffer pointer, none while it is held only in HBM or in a context. -/
  buf : Option Word := none
  /-- The queue owner recorded in its descriptor (R291), and its receive priority (R295). -/
  owner : Nat := 0
  prio : Nat := 0
  /-- Upstream class (R314) or host egress queue (R313). -/
  cls : Nat := 0
  /-- Ingress time-stamp SEC NS FRAC (R381). -/
  stamp : BitVec 96 := 0
  /-- STEP_GEN at ingress, whether the counter was stopped or ESTIMATED then (R383), and whether it was stopped. -/
  gen : Nat := 0
  timeBad : Bool := false
  timeStopped : Bool := false
  /-- CSUM_L3_BAD and CSUM_L4_BAD (R234). -/
  l3Bad : Bool := false
  l4Bad : Bool := false
  /-- Downstream port-ID. -/
  portId : PortTag := 0
  ptpEvent : Bool := false
  ptpOff : Nat := 0
  /-- The account's admission number (R302). -/
  adm : Nat := 0
  /-- Plaintext bytes already carried by earlier fragments (R140). -/
  sent : Nat := 0
  /-- A management injection that asks a stamp: queue and ring slot (R385, R486). -/
  txRef : Option (MgtQueue × Nat) := none
  /-- LAUNCH_TIME: SEC and NS (R325). -/
  launch : Option (Nat × Nat) := none
  /-- The classifier outcome and tags that go with it (R254, R260, R487). -/
  outcome : Nat := 0
  passTag : Nat := 0
  mirror : Bool := false
  /-- The L that its upstream shapers were charged (R323). -/
  charged : Nat := 0
  deriving DecidableEq, Repr

/-! Downstream framing (spec/03_downstream_framing.md). -/

/-- Frame alignment states (R57, R76). -/
inductive Align where
  | hunt
  | presync
  | sync
  | oof
  deriving DecidableEq, Repr

/-- An alignment candidate: block position of its header and its frame number (R57, R58). -/
structure Candidate where
  pos : Nat
  fn : Nat
  deriving DecidableEq, Repr

/-- The stamp of a frame 0 on a lane (R62, R101): its epoch, and whether the verified position was held. -/
structure EpochStamp where
  epoch : Nat
  stamp : Stamp
  held : Bool
  deriving DecidableEq, Repr

/-- A reassembly context (R73, R74). -/
structure ReasmCtx where
  id : Nat
  port : PortTag
  discard : Bool := false
  startAt : Nat
  discardAt : Nat := 0
  bytes : FrameBytes := []
  /-- The filter entry, CLEAR and KEY_SLOT taken at its first fragment (R69). -/
  entry : Nat := 0
  clear : Bool := false
  slot : Nat := 0
  /-- Ingress stamp of its first fragment (R381). -/
  stamp : BitVec 96 := 0
  /-- Its place in the order of leaving the extractor (R76). -/
  ticket : Nat := 0
  deriving DecidableEq, Repr

/-- A packet or fragment in a decrypt pipe (R355). -/
structure DecJob where
  lane : Lane
  port : PortTag
  last : Bool
  /-- The reassembly context it belongs to; none for a whole packet. -/
  ctx : Option Nat
  clear : Bool
  slot : Nat
  half : Half
  group : GroupId
  /-- The filter entry that kept it. -/
  entry : Nat
  length : Nat
  fn : Nat
  /-- The stamp of its header (R381). -/
  stamp : BitVec 96 := 0
  /-- Its header as corrected, the data word at which it stands and the lane's spectral slice (R346, R350). -/
  header : BitVec 64 := 0
  word : Nat := 0
  spec : Nat := 0
  /-- The key, salt and write of the half, latched as the operation begins (R338). -/
  aes256 : Bool := false
  key : KeyBits := 0
  salt : Word := 0
  gen : Nat := 0
  /-- The payload received so far, and its words still to come in the next frame. -/
  data : List Byte := []
  need : Nat := 0
  /-- The packet's place in the order of leaving the extractor (R76). -/
  ticket : Nat := 0
  deriving DecidableEq, Repr

/-- A downstream packet on its way out of the extractor (R76): its place, its group and port-ID, and once it is whole its lane,
stamp and bytes. -/
structure Extract where
  ticket : Nat
  group : GroupId
  port : PortTag
  ready : Option (Lane × BitVec 96 × FrameBytes) := none
  deriving DecidableEq, Repr

/-! Grants and bursts (spec/05_grants_and_bursts.md). -/

/-- An own grant of one epoch on one lane: the 64-bit entry of R111 and whether it has been used, missed or dropped. -/
structure GrantUse where
  raw : BitVec 64
  done : Bool := false
  deriving DecidableEq, Repr

/-- A standing-plan entry: in force from an epoch, and until a revocation takes effect (R116, R122). -/
structure PlanEntry where
  raw : BitVec 64
  fromEpoch : Nat
  /-- Its place in the order of acceptance on the lane (R115). -/
  no : Nat := 0
  revokeAt : Option Nat := none
  deriving DecidableEq, Repr

/-- An AMEND accepted: the grant of an epoch replaced, withdrawn or revoked; `effectAt` is the latest instant of R122. -/
structure AmendPending where
  lane : Lane
  op : Nat
  epoch : Nat
  account : Nat
  start : Nat
  entry : BitVec 64
  acceptedAt : Nat
  deriving DecidableEq, Repr

/-- What a lane sends (R12, R142). -/
inductive TxOut where
  | dark
  | fill (epoch : Nat)
  | burst
  deriving DecidableEq, Repr

/-- A packet or fragment placed in a burst (R156, R157). -/
structure Placed where
  pkt : Packet
  /-- Plaintext bytes of this fragment and whether it is the packet's last. -/
  bytes : Nat
  last : Bool
  /-- Word of the data region at which its header stands. -/
  word : Nat
  /-- Cipher: slot, half and invocation; none in cleartext. -/
  inv : Option (Nat × Nat × Nat) := none
  /-- The write of the half it was encrypted under (R338). -/
  keyGen : Nat := 0
  /-- Its trunk packet header and the payload as sent: ciphertext and tag, or plaintext (R63, R346). -/
  header : BitVec 64 := 0
  payload : List Byte := []
  /-- The PTP correction written at placement (R171). -/
  correction : Option Int := none
  /-- It is a remainder whose preceding fragment's burst has been developed (R162, R168). -/
  pinned : Bool := false
  deriving DecidableEq, Repr

/-- An upstream OAM message without its TERM and CRC (R83, R87). -/
structure UpMsg where
  msgType : Nat
  seq : BitVec 16
  body : BitVec 448
  deriving DecidableEq, Repr

/-- A latent burst (R154 to R164). -/
structure Latent where
  lane : Lane
  epoch : Nat
  grant : BitVec 64
  /-- Device account served. -/
  account : Nat
  edge : Stamp
  /-- The stamp of frame 0 was held when the edge was reckoned (R158). -/
  stamped : Bool
  cutoff : Nat
  /-- Data words of the region (R154) and those used. -/
  words : Nat
  used : Nat := 0
  leader : Nat
  reports : Nat
  oam : List UpMsg := []
  packets : List Placed := []
  predicted : Bool := false
  closed : Bool := false
  developed : Bool := false
  /-- Some packet waited while the region had room at develop (R163). -/
  short : Bool := false
  /-- It holds a latent slot and darkslide space; a leader-only burst holds neither (R155, R160). -/
  held : Bool := true
  cont : Bool := false
  /-- Its grant was not staged before the cut-off though its account could place packets (R163). -/
  unstaged : Bool := false
  burstCtr : BitVec 16 := 0
  /-- The rebuilt burst places nothing before this counter value (R172). -/
  notBefore : Option Stamp := none
  reportBodies : List (BitVec 256) := []
  deriving DecidableEq, Repr

/-- A burst being sent by a lane. -/
structure Burst where
  kind : Nat
  epoch : Nat
  grant : BitVec 64
  account : Nat
  edge : Stamp
  launchTick : BitVec 48
  phase : BitVec 6
  term : Byte
  burstCtr : BitVec 16
  cont : Bool
  leader : Nat
  oam : List UpMsg := []
  dataBlocks : Nat := 0
  idleBlocks : Nat := 0
  reports : List (BitVec 256) := []
  packets : List Placed := []
  blocks : Nat
  delimiter : BitVec 256
  deriving DecidableEq, Repr

/-- A RANGE_REQUEST accepted and waiting for its ranging grant (R94). -/
structure RangeReq where
  epoch : Nat
  start : Nat
  token : BitVec 16
  eqd : Word
  spec : Nat
  deriving DecidableEq, Repr

/-- One line lane. -/
structure LaneSt where
  blockLock : Bool := false
  lockPos : Nat := 0
  align : Align := .hunt
  cands : List Candidate := []
  verified : Nat := 0
  badFaw : Nat := 0
  /-- In OOF: frame number of the valid header of the preceding frame at the verified position. -/
  oofPrev : Option Nat := none
  /-- Frame number and header length in use for the frame under way (R59, R60). -/
  fn : Nat := 0
  curG : Nat := 0
  curValid : Bool := false
  curOam : Bool := false
  curTod : Bool := false
  mapsTaken : Nat := 0
  /-- The blocks of the frame under way after its header, as received (R47). -/
  rxBlocks : List LineBlock := []
  /-- The payload of a TYPE 0b01 packet whose last words come in the next frame, and the 64-byte units of such packets not yet
  handed to the OAM receiver (R67). -/
  oamPart : Option (List Byte × Nat) := none
  oamUnits : List (BitVec 512) := []
  /-- FN and GMAP_LEN of the last valid header (R76). -/
  regFn : Nat := 0
  gmapLen : Nat := 0
  /-- The lane was in SYNC with a valid header for the frame under way (R53). -/
  bipUsable : Bool := false
  stampCur : Stamp := 0
  stampFn : Option Nat := none
  lastGoodFaw : Option Nat := none
  syncSince : Option Nat := none
  oofSince : Option Nat := none
  epochStamps : List EpochStamp := []
  trxLast : Stamp := 0
  trxLatch : BitVec 22 := 0
  /-- Delineation: PD_SYNC, the word of the next header counted from data word 0 of the frame under way, and whether the
  last valid header disagreed with the chain (R65). -/
  pdSync : Bool := false
  nextWord : Nat := 0
  ptrBad : Bool := false
  contexts : List ReasmCtx := []
  ctxSeq : Nat := 0
  /-- Contexts closed by LAST = 1 whose fragments are not all decrypted: they hold no place (R73). -/
  closed : List ReasmCtx := []
  /-- Port-IDs whose packet found no free context, and whose packet a settle window discards, up to LAST = 1 (R73, R75). -/
  noCtx : List PortTag := []
  settleDrop : List PortTag := []
  settleLane : Option Nat := none
  settlePorts : List (PortTag × Nat) := []
  settled : List PortTag := []
  /-- Defects: LOS, LOF, AIS, SF and SD declared (R182), the instants at which their conditions began or ended, and runs. -/
  los : Bool := false
  lof : Bool := false
  ais : Bool := false
  sf : Bool := false
  sd : Bool := false
  unreach : Bool := false
  losCond : Option Nat := none
  losReach : Option Nat := none
  losClearCond : Option Nat := none
  aisRun : Nat := 0
  sfClear : Nat := 0
  sdClear : Nat := 0
  /-- The window under way: its epoch, its count, and whether the lane has stayed in SYNC through it (R183). -/
  winEpoch : Option Nat := none
  winBits : Nat := 0
  winOk : Bool := false
  /-- The window just ended, not yet evaluated: its count and whether the lane stayed in SYNC through it. -/
  winPend : Option (Nat × Bool) := none
  /-- SF_THRESH and SD_THRESH of the window under way, and of the one just ended: new ones apply from the next window (R213). -/
  winSf : Nat := 400
  winSd : Nat := 40
  endSf : Nat := 400
  endSd : Nat := 40
  lastWinBits : Nat := 0
  lastWinEval : Bool := false
  /-- The second under way with what it has counted, the same of the second before it, and the second to which the frame under way
  belongs (R209). -/
  secNo : Nat := 0
  eframes : Nat := 0
  bipSec : Nat := 0
  defectSeen : Bool := false
  prevEframes : Nat := 0
  prevBip : Nat := 0
  prevDefect : Bool := false
  frameSec : Nat := 0
  lastEframes : Nat := 0
  lastDefect : Bool := false
  /-- Grants: accepted non-standing entries by epoch with their order of acceptance, the standing plan, grants replaced or withdrawn by AMEND, completed
  tables by epoch (R113 to R122). -/
  maps : List (Nat × List (Nat × BitVec 64)) := []
  /-- Entries accepted so far: each takes its place in the order of acceptance (R115). -/
  accepts : Nat := 0
  plan : List PlanEntry := []
  changes : List (Nat × Nat × Nat × Option (BitVec 64)) := []
  tables : List (Nat × List GrantUse) := []
  /-- JUMP_HOLD with the first epoch whose map can be whole after the jump (R119). -/
  jumpHold : Option Nat := none
  /-- After a return from HOLDOVER, the first epoch whose map is received whole in SYNC: launches resume with it (R79). -/
  resume : Option Nat := none
  short : Nat := 0
  long : Nat := 0
  /-- Leader lengths by first epoch, newest first (R124). -/
  leaders : List (Nat × Nat × Nat) := []
  leaderPend : Option (Nat × Nat × Nat) := none
  ranged : Bool := false
  /-- EqD values by first epoch, newest first (R98). -/
  eqds : List (Nat × Word) := []
  eqdPend : Option (Nat × Word) := none
  /-- The EqD of epochs before the first assigned one: the provisional EqD that it replaced (R98, R557). -/
  eqdOld : Option Word := none
  rangeReq : Option RangeReq := none
  out : TxOut := .dark
  phase : BitVec 6 := 0
  burst : Option Burst := none
  lastEnd : Option (BitVec 256) := none
  deriving DecidableEq, Repr

/-! Trunk groups (spec/04 to spec/07). -/

/-- Terminal states (R78). -/
inductive TermSt where
  | initial
  | listen
  | announce
  | range
  | operate
  | holdover
  | disabled
  deriving DecidableEq, Repr

/-- Time states of a group (R107). -/
inductive TimeSt where
  | none
  | coarse
  | locked
  | holdover
  deriving DecidableEq, Repr

/-- The fields of the DISCOVER held (R88). -/
structure Disc where
  logical : Word
  leader : Nat
  wait : Nat
  backoffMax : Nat
  headId : Word
  deriving DecidableEq, Repr

/-- An accepted message recorded for the duplicate test (R86). -/
structure DupRec where
  msgType : Nat
  seq : BitVec 16
  body : BitVec 448
  stamp : Stamp
  deriving DecidableEq, Repr

/-- An accepted message that waits for its application instant (R557). -/
inductive ApplyMsg where
  | eqd (lanes : List (Lane × Word))
  | leader (lanes : List Lane) (short long : Nat)
  | policy (count horizon : Nat) (queueOnly : Bool)
  deriving DecidableEq, Repr

/-- A protection pair as one of its groups holds it (R196 to R208, R214). -/
structure Pair where
  /-- This group is the working group. -/
  working : Bool
  partner : GroupId
  /-- 0 local, 1 to 63 the fabric address of the other device. -/
  peer : Nat
  revertive : Bool
  wtr : Nat
  holdOff : Nat
  deriving DecidableEq, Repr

/-- A request of R200: lockout, force or manual. -/
inductive ProtReq where
  | lockout
  | force
  | manualWorking
  | manualProtection
  deriving DecidableEq, Repr

/-- The line of R201 that decides (REQUEST of R217's register). -/
inductive Deciding where
  | none
  | wtr
  | manual
  | signalFail
  | force
  | lockout
  | hold
  deriving DecidableEq, Repr

/-- What a pair knows and does; held on its working group (or on the local group of a remote pair). -/
structure PairSt where
  /-- The working group is active. -/
  activeWorking : Bool := true
  /-- The downstream selector passes the working group (R203). -/
  selWorking : Bool := true
  hostReq : Option ProtReq := .none
  headReq : Option ProtReq := .none
  /-- Protection was entered by signal fail (R201). -/
  bySf : Bool := false
  sfSince : Option Nat := .none
  wtrSince : Option Nat := .none
  blocked : Bool := false
  deciding : Deciding := .none
  switchAt : Option Nat := .none
  declaredAt : Nat := 0
  lastSwitchUs : Nat := 0
  lastCause : Nat := 0
  /-- The remote group of a remote pair (R206). -/
  remoteClean : Bool := false
  remoteSf : Bool := false
  remoteTerm : Nat := 0
  remoteAt : Option Nat := .none
  remoteStale : Bool := false
  statusSentAt : Nat := 0
  /-- A PROTECT_NOTIFY awaiting its ACK: sequence, sends, first sent (R451). -/
  notify : Option (Nat × Nat × Nat) := .none
  notifySeq : Nat := 0
  notifyFail : Bool := false
  lastNotifyRx : Option Nat := .none
  lastRelayRx : Option Nat := .none
  relaySeq : Nat := 0
  /-- OP of the last PROTECT_COMMAND accepted by the local group, and whether it waits to be relayed (R450). -/
  relayOp : Nat := 0
  relayPend : Bool := false
  /-- STATUS_SEQ of the next PROTECT_STATUS, and the fields of the last one sent. -/
  statusSeq : Nat := 0
  lastStatus : List Byte := []
  deriving DecidableEq, Repr

/-- One performance bin (R212, R216). -/
structure PmBin where
  start : Nat := 0
  valid : Bool := false
  estimated : Bool := false
  adjusted : Bool := false
  monitored : Nat := 0
  es : Nat := 0
  ses : Nat := 0
  uas : Nat := 0
  dormant : Nat := 0
  eframes : Nat := 0
  bipBits : Nat := 0
  deriving DecidableEq, Repr

/-- Performance monitoring of a group (R209 to R212). -/
structure Pm where
  cur : PmBin := {}
  past : List PmBin := []
  day : PmBin := {}
  prevDay : PmBin := {}
  /-- The run of R211 not yet decided, newest first: consecutive SES while available, consecutive non-SES while unavailable;
  each second with whether it is an ES. -/
  run : List (Nat × Bool) := []
  /-- Some slice of a lane was in DROWSE or DORMANT, or the device in STANDBY, in the second under way (R210). -/
  dormantSeen : Bool := false
  unavailable : Bool := false
  lastSec : Option Nat := .none
  deriving DecidableEq, Repr

/-- One trunk group. -/
structure GroupSt where
  stopped : Bool := true
  binding : List (Lane × Nat) := []
  /-- An accepted TRUNK_GROUP_SET that awaits FUNC_START; `some []` releases every lane. -/
  bindPend : Option (List (Lane × Nat)) := .none
  st : TermSt := .initial
  termId : Nat := 0
  disc : Option Disc := .none
  eqd0 : Option Word := .none
  backoff : Nat := 0
  /-- RESPONSE_WAIT runs from this instant (R92). -/
  waitFrom : Option Nat := .none
  rangeAt : Nat := 0
  holdoverAt : Nat := 0
  /-- Provisioning (R80, R81). -/
  timeSource : Bool := false
  announce : Bool := false
  timeLaneCfg : Option Lane := .none
  coarseRtt : Word := 0xFFFFFFFF
  modemTx : Word := 0
  modemRx : Word := 0
  asym : BitVec 16 := 0
  holdoverLimit : Nat := 60
  /-- MODEM_TX, MODEM_RX and ASYM in force for the time of day (R81). -/
  modemTxUsed : Word := 0
  modemRxUsed : Word := 0
  asymUsed : BitVec 16 := 0
  /-- Trunk time (R102 to R108). -/
  ctr : Stamp := 0
  onXtal : Bool := true
  timeSt : TimeSt := .none
  /-- Offset of the time of day over the counter, in 1/65,536 ns. -/
  offset : Int := 0
  lastTodAt : Nat := 0
  todStale : Bool := false
  todFn : Word := 0
  headId : Word := 0
  lastTodHead : Option Word := .none
  /-- UTC_OFFSET and LEAP of the last accepted TOD (R369). -/
  todUtc : BitVec 16 := 0
  todLeap : BitVec 2 := 0
  downDelay : Word := 0
  /-- OAM (R86, R87). -/
  oamQ : List UpMsg := []
  upSeq : BitVec 16 := 0
  /-- The frame number that the group last held, and the instant of its header (R353). -/
  lastFn : Option (Nat × Nat) := .none
  dups : List DupRec := []
  /-- Bursts and application instants. -/
  burstCtr : BitVec 16 := 0
  lastDevCtr : BitVec 16 := 0
  pendApply : List (Nat × ApplyMsg) := []
  amends : List AmendPending := []
  /-- The last EqD applied on any lane (R100). -/
  provEqd : Option Word := .none
  /-- Forecast and staging (R149 to R153, R178). -/
  depth : Nat := 32000
  cutoff : Nat := 1600
  margin : Nat := 3200
  holdoff : Nat := 8000
  predict : Bool := true
  preempt : Bool := false
  horizon : Nat := 0
  w1 : Nat := 4
  w8 : Nat := 8
  w64 : Nat := 4
  reportMask : Wide := 0xFFFFFFFFFFFFFFFF
  reportPtr : Nat := 63
  reportCount : Nat := 1
  headHorizon : Nat := 0
  queueOnly : Bool := false
  /-- Policies by first epoch, newest first: count, horizon, queue only (R153). -/
  policies : List (Nat × Nat × Nat × Bool) := []
  latents : List Latent := []
  /-- Grants fogged and standing: lane, epoch, start and the counter value before which nothing is placed (R172). -/
  rebuilds : List (Lane × Nat × Nat × Stamp) := []
  rateAt : Nat := 0
  /-- Defects, RDI, DISABLE (R186 to R195, R213). -/
  lfOnAis : Bool := true
  lfOnLosLof : Bool := false
  laneThresh : Nat := 1
  lofTime : Nat := 300
  sfThresh : Nat := 400
  sdThresh : Nat := 40
  lfPorts : Word := 0
  linkFault : Bool := false
  startedAt : Nat := 0
  rdi : Bool := false
  rdiRun : Nat := 0
  rdiRunVal : Bool := false
  lastRdiAt : Nat := 0
  rdiSentAt : Nat := 0
  disableLatch : Bool := false
  disableAt : Option Nat := .none
  /-- Protection. -/
  pair : Option Pair := .none
  pairPend : Option (Option Pair) := .none
  prot : PairSt := {}
  pm : Pm := {}
  deriving DecidableEq, Repr

end Sys2Proof.Machine
end

