-- ==== Sys2Proof/Machine/PathState.lean ====
section
/-!
DEFINITION. Machine/PathState.lean: the state of host ports, parser and classifier, buffers and spill, schedulers and
policers, and cipher key slots (spec/08_host_ethernet_ports.md to spec/12_cipher_engine.md).
Every field's default is its value at reset.
-/
namespace Sys2Proof.Machine

/-! Schedulers (spec/11_scheduling_shaping_policing.md). -/

/-- A shaper (R320 to R322).  Tokens are in units of 1/65,536,000 byte: a rate code E, M accrues M * 2^E units per trunk
tick.  `wheel` is its entry's eligible time and whether it stands in the overflow wheel. -/
structure Shaper where
  rate : Nat := 0
  burst : Nat := 16384
  tokens : Int := 0
  at_ : Nat := 0
  wheel : Option (Nat × Bool) := none
  deriving DecidableEq, Repr

/-- A policer (R327, R332, R333); `tokens` in the units of a shaper. -/
structure Policer where
  enabled : Bool := false
  cir : Nat := 0
  overhead : Int := 24
  cbs : Nat := 16384
  tokens : Int := 0
  at_ : Nat := 0
  conformFrames : Nat := 0
  conformBytes : Nat := 0
  excessFrames : Nat := 0
  excessBytes : Nat := 0
  deriving DecidableEq, Repr

/-! Host ports (spec/08_host_ethernet_ports.md). -/

/-- One egress queue of a host port (R313, R325, R237). -/
structure EgressQ where
  frames : List Packet := []
  shaper : Shaper := {}
  weight : Nat := 1
  deficit : Int := 0
  node : Nat := 0
  prio : Nat := 0
  timed : Bool := false
  dropLate : Bool := false
  lateLimit : Nat := 1000
  /-- Received pause: the instant it ends, and the instant from which the queue is stopped without a break. -/
  pauseEnd : Nat := 0
  /-- The MAX_FRAME that the head met when it became head, where PORT_SET has changed it since (R243). -/
  headMax : Option Nat := none
  /-- The due instant of a TIMED head has come (R325). -/
  due : Bool := false
  pausedSince : Option Nat := none
  deriving DecidableEq, Repr

/-- One node of a host port (R313). -/
structure NodeSt where
  shaper : Shaper := {}
  weight : Nat := 1
  deficit : Int := 0
  /-- The member queue whose turn it is. -/
  turn : Nat := 31
  deriving DecidableEq, Repr

/-- One host port, named by its first lane. -/
structure PortSt where
  aligned : Bool := false
  lfRx : Bool := false
  rfRx : Bool := false
  lfTx : Bool := false
  /-- FLAGS of PORT_SET (R243). -/
  flags : BitVec 7 := 0x46
  maxFrame : Nat := 10240
  defPrio : Nat := 0
  /-- FLOW_CONTROL_SET (R244): 0 NONE, 1 PAUSE, 2 PFC. -/
  fcMode : Nat := 0
  rxHonour : Bool := false
  txEnable : Bool := false
  pfcMask : Byte := 0
  quanta : Nat := 0xFFFF
  refresh : Nat := 0x8000
  watchdog : Nat := 100
  /-- EEE_SET (R245). -/
  eee : Bool := false
  twTx : Nat := 0
  lpiIdle : Nat := 0
  /-- TW_TX of the wake under way or of the LPI entered (R241). -/
  twUsed : Nat := 0
  /-- Address filter: the set hash bins, rising, and the exact entries, VALID and address (R226, R246). -/
  hash : Sparse Bool := []
  exact : Sparse (Bool × BitVec 48) := []
  /-- Priorities for which the buffer manager indicates XOFF, those announced to the partner, the instant of the change
  not yet announced, and the instant of the last pause frame that carried each priority (R236). -/
  xoff : Byte := 0
  xoffSent : Byte := 0
  xoffAt : Option Nat := none
  pauseSentAt : Vector Nat 8 := Vector.replicate 8 0
  /-- The pause frame last sent: PFC, the priorities it carries and their quanta. -/
  lastPause : Option (Bool × Byte × List Nat) := none
  /-- Storm: received pause is ignored since the last non-zero quanta at this instant (R238). -/
  storm : Option Nat := none
  lpiTx : Option Nat := none
  lpiRx : Bool := false
  idleSince : Nat := 0
  wakeUntil : Nat := 0
  shaper : Shaper := {}
  overhead : Int := 20
  queues : Vector EgressQ 32 := Vector.replicate 32 {}
  nodes : Vector NodeSt 8 := Vector.replicate 8 {}
  nodeTurn : Nat := 7
  treePend : Option (List Nat) := none
  /-- The frame last sent, from destination address to FCS (R229, R233). -/
  lastSent : FrameBytes := []
  deriving DecidableEq, Repr

/-! Classifier (spec/09_parser_classifier.md). -/

/-- Settings of one classifier source (R271). -/
structure SourceSet where
  inner : Bool := false
  limitAction : Nat := 0
  malformedAction : Nat := 1
  profile : Option Nat := none
  miss : Wide := 0
  vxlan : Nat := 4789
  deriving DecidableEq, Repr

/-- An exact-match entry (R258). -/
structure EmEntry where
  profile : Nat
  key : BitVec 160
  result : Wide
  deriving DecidableEq, Repr

/-- A ternary entry (R257, R273). -/
structure TernEntry where
  value : BitVec 576
  mask : BitVec 576
  result : Wide
  deriving DecidableEq, Repr

/-- A spread group's settings (R278). -/
structure SpreadGroup where
  kind : Nat := 0
  trunk : Nat := 0
  fields : Word := 0
  seed : Word := 0
  laneAccount : List Nat := []
  deriving DecidableEq, Repr

/-- One copy of the three rule tables: exact match by way * 65,536 + position, ternary by index, spread by
group * 512 + index. -/
structure RuleTables where
  em : Sparse (Option EmEntry) := []
  tern : Sparse (Option TernEntry) := []
  spread : Sparse Nat := []
  deriving DecidableEq, Repr

/-- A frame in the recirculation queue (R262, R268). -/
structure RecircItem where
  pkt : Packet
  version : Bool
  passTag : Nat
  counts : List Nat
  /-- The source settings of the first pass (R262). -/
  src : SourceSet
  deriving DecidableEq, Repr

/-- The classifier of a slice. -/
structure ClsSt where
  version : Bool := false
  retirePending : Bool := false
  flipAt : Nat := 0
  /-- Exact-match, ternary, spread. -/
  staged : Vector Bool 3 := Vector.replicate 3 false
  versioned : Vector Bool 3 := Vector.replicate 3 false
  cur : RuleTables := {}
  shadow : RuleTables := {}
  profiles : Vector (List Nat) 16 := Vector.replicate 16 []
  groups : Sparse SpreadGroup := []
  /-- Completed entry writes per table, and changes of settings (R268). -/
  counts : Vector Nat 4 := Vector.replicate 4 0
  lastRetire : Nat := 0
  recirc : List RecircItem := []
  /-- A table whose shadow copy is being loaded (R277). -/
  loading : Option (Fin 3) := none
  deriving DecidableEq, Repr

/-- A mirror session (R279). -/
structure MirrorSess where
  destKind : Nat := 0
  dest : Nat := 0
  queue : Nat := 0
  truncate : Nat := 0
  deriving DecidableEq, Repr

/-! Buffers (spec/10_buffer_pools.md). -/

/-- A buffer pool (R281, R296). -/
structure PoolSt where
  buffers : Nat
  base : Nat
  warn : Nat
  pause : Nat
  drop : Nat
  deriving DecidableEq, Repr

/-- An owner's settings and back-pressure (R286, R294). -/
structure OwnerSt where
  quota : Vector Nat 5 := Vector.replicate 5 0
  warn : Nat := 40960
  pause : Nat := 57344
  drop : Nat := 73728
  hyst : Nat := 64
  paused : Bool := false
  deriving DecidableEq, Repr

/-- Thresholds of one priority of a HOST_RX (R295). -/
structure PrioTh where
  pause : Nat := 0
  drop : Nat := 0
  xoff : Bool := false
  deriving DecidableEq, Repr

/-- A buffer allocated: its owner ID, its reference count (0 for a normal buffer) and the priority charged. -/
structure BufEntry where
  owner : Nat
  count : Nat := 0
  prio : Nat := 0
  deriving DecidableEq, Repr

/-- The latch of the first rejection (R290). -/
structure Misuse where
  ptr : Word := 0
  issuer : Byte := 0
  holder : Byte := 0
  kind : Nat := 0
  op : Nat := 0
  valid : Bool := false
  deriving DecidableEq, Repr

/-- The reset carving of R281 with the thresholds of R296. -/
def resetPools : Vector PoolSt 5 :=
  ⟨#[{ buffers := 16384, base := 0, warn := 1024, pause := 512, drop := 128 },
     { buffers := 4096, base := 16384, warn := 256, pause := 128, drop := 32 },
     { buffers := 2048, base := 32768, warn := 128, pause := 64, drop := 16 },
     { buffers := 1024, base := 49152, warn := 64, pause := 32, drop := 8 },
     { buffers := 409, base := 65536, warn := 26, pause := 13, drop := 4 }], rfl⟩

/-- MANAGEMENT starts with a quota of 16 buffers in each pool (R286). -/
def resetOwners : Vector OwnerSt 17 :=
  (Vector.replicate 17 ({} : OwnerSt)).set 14 { quota := Vector.replicate 5 16 }

/-- The buffer manager of a slice. -/
structure BufSt where
  stopped : Bool := false
  pools : Vector PoolSt 5 := resetPools
  owners : Vector OwnerSt 17 := resetOwners
  prios : Vector (Vector PrioTh 8) 4 := Vector.replicate 4 (Vector.replicate 8 {})
  /-- Allocated buffers by pointer bits [28:0]: pool * 2^26 + first cell. -/
  bitmap : Sparse (Option BufEntry) := []
  /-- Pointer of the arbiter over owner IDs (R285), and what it becomes after the cycle under way, where that is contested. -/
  rr : Nat := 0
  rrNext : Option Nat := none
  /-- The cycle of the last request, and the keys of the buffers granted in it (R285). -/
  cycAt : Nat := 0
  granted : List Nat := []
  /-- Keys of the REF_ADD operations of this cycle applied ahead of a REF_DROP (R288). -/
  refAhead : List Nat := []
  misuse : Misuse := {}
  carvePend : Option (List Nat) := none
  /-- Back-pressure of each pool (R297). -/
  poolPaused : Vector Bool 5 := Vector.replicate 5 false
  deriving DecidableEq, Repr

/-- A spill page: channel, page number, its frames in record order, whether it is closed and whether its read is under way. -/
structure SpillPage where
  chan : Nat
  page : Nat
  frames : List Packet := []
  used : Nat := 0
  closed : Bool := false
  reading : Bool := false
  /-- Its channel froze or was reset since it was taken: what it held is lost (R306, R409). -/
  lost : Bool := false
  deriving DecidableEq, Repr

/-- One class of an account (R314). -/
structure ClassSt where
  frames : List Packet := []
  shaper : Shaper := {}
  weight : Nat := 1
  deficit : Int := 0
  deriving DecidableEq, Repr

/-- What an account encrypts with (R364). -/
inductive KeyBind where
  | unbound
  | clear
  | slot (n : Nat)
  deriving DecidableEq, Repr

/-- One grant account. -/
structure AccountSt where
  classes : Vector ClassSt 8 := Vector.replicate 8 {}
  turn : Nat := 7
  shaper : Shaper := {}
  overhead : Int := 8
  bind : KeyBind := .unbound
  stopped : Bool := false
  /-- The packet begun in an earlier burst whose remainder waits for the account's next burst (R140), and whether it is
  pinned (R162, R168). -/
  remainder : Option Packet := none
  pinned : Bool := false
  /-- The instant of its last PREEMPT fog (R173). -/
  lastPreempt : Option Nat := none
  /-- Arrival averages with 16 fractional bits and the trunk bytes of the current interval (R147). -/
  rate1 : Nat := 0
  rate8 : Nat := 0
  rate64 : Nat := 0
  arrived : Nat := 0
  forecast : Nat := 0
  /-- Spill (R300 to R303). -/
  spillEnable : Bool := true
  spillOn : Nat := 4096
  refill : Nat := 2048
  maxPages : Nat := 4032
  acctDrop : Nat := 16384
  spilling : Bool := false
  tail : List Packet := []
  /-- Frames admitted so far (R302). -/
  admitted : Nat := 0
  pages : List SpillPage := []
  atCap : Bool := false
  retryAt : Option Nat := none
  /-- The account was disabled from spilling while it spills (R311). -/
  disableWhenDone : Bool := false
  deriving DecidableEq, Repr

/-! Cipher (spec/12_cipher_engine.md). -/

/-- State of a key half (R336). -/
inductive HalfState where
  | empty
  | loaded
  | retired
  deriving DecidableEq, Repr

/-- One half of a key slot (R336). -/
structure KeyHalf where
  state : HalfState := .empty
  aes256 : Bool := false
  key : KeyBits := 0
  salt : Word := 0
  inv : Nat := 0
  blocks : Nat := 0
  launched : Option Nat := none
  rekeyed : Bool := false
  /-- SEQ of the KEY_DELIVER that wrote it (R352). -/
  seq : BitVec 16 := 0
  /-- Group and frame number of the first packet verified (R350, R353), and the frames counted since. -/
  firstFn : Option (Nat × Nat) := none
  firstAt : Nat := 0
  /-- The number of writes and erases of the half. -/
  gen : Nat := 0
  deriving DecidableEq, Repr

/-- A half switch that awaits its boundary (R342, R343). -/
structure KeySwitch where
  half : Half
  fn : Nat
  group : GroupId
  /-- Lanes that have reached the boundary, and the stamps of frame FN on the lanes that hold one. -/
  done : List Lane := []
  stamps : List (Lane × Stamp) := []
  deriving DecidableEq, Repr

/-- A key write under way (R338, R341): the key once it has been unwrapped; `ack` names the group and SEQ of its KEY_DELIVER. -/
structure KeyWrite where
  half : Half
  aes256 : Bool
  key : Option KeyBits
  salt : Word
  at_ : Nat
  ack : Option (GroupId × BitVec 16)
  deriving DecidableEq, Repr

/-- The unwrap of a KEY_DELIVER (R339, R357): its slot, group and SEQ, the KEK and the wrapped key. -/
structure UnwrapJob where
  slot : Nat
  group : GroupId
  seq : BitVec 16
  kek256 : Bool
  kek : KeyBits
  aes256 : Bool
  wrapped : List Byte
  deriving DecidableEq, Repr

/-- One key slot. -/
structure KeySlot where
  halves : Vector KeyHalf 2 := Vector.replicate 2 {}
  current : Half := 0
  down : Bool := false
  /-- 0 host; 1 to 4 group 0 to 3. -/
  manager : Nat := 0
  limInv : Nat := 2 ^ 32
  limBlocks : Nat := 2 ^ 36
  erasing : Bool := false
  switch : Option KeySwitch := none
  write : Option KeyWrite := none
  stall : Bool := false
  /-- A draw under this half waits for an earlier packet of the half to launch (R348). -/
  waiting : Option Half := none
  /-- The instant at which the other half ceased to be current, and on each lane that held a frame number the frame from which
  it did, for the 100-frame grace of R345. -/
  lastSwitch : Option (Nat × List (Lane × Nat)) := none
  deriving DecidableEq, Repr

/-- A job of the utility pipe: one that firmware gives it, or the unwrap of a KEY_DELIVER. -/
inductive UtilTask where
  | job (j : UtilJob)
  | unwrap (u : UnwrapJob)
  deriving DecidableEq, Repr

/-- The utility pipe (R357, R358); `output` is the last job's number and output, none where a check of it failed. -/
structure Util where
  urgentQ : List UtilTask := []
  normalQ : List UtilTask := []
  running : Option UtilTask := none
  suspended : Option UtilTask := none
  output : Option (Nat × Option (List Byte)) := none
  deriving DecidableEq, Repr

end Sys2Proof.Machine
end

