-- ==== Sys2Proof/Machine/InfraState.lean ====
section
/-!
DEFINITION. Machine/InfraState.lean: the state of the time counter, HBM, serial lanes, fabric, firmware, clocks, power and
pins (spec/13_time_stamping_ptp.md to spec/16_fabric.md, spec/18_management_firmware_recovery.md to
spec/20_pins_hotplug_electrical.md).
Every field's default is its value at reset.
-/
namespace Sys2Proof.Machine

/-! The time counter (spec/13_time_stamping_ptp.md). -/

/-- A refused change of master (R376): the new HEAD_ID, the offset it would bring and the implied step in 1/65,536 ns, and
the instant at which its TOD arrived. -/
structure JumpLatch where
  headId : Word
  offset : Int
  step : Int
  at_ : Nat
  /-- Whether its TOD would bring LOCKED, its FN and its down delay (R105). -/
  locked : Bool
  fn : Word
  down : Word
  /-- Its UTC_OFFSET and LEAP. -/
  utc : BitVec 16
  leap : BitVec 2
  deriving DecidableEq, Repr

/-- The device time counter, its steering, gap and outputs. -/
structure TimeAll where
  sec : BitVec 48 := 0
  ns : Nat := 0
  /-- FRAC and the hidden residue together, in 2^-32 ns (R369, R370). -/
  frac : Nat := 0
  /-- The time clock: the group and lane whose recovered clock it is, or none for XTAL (R370). -/
  src : Option (GroupId × Lane) := none
  incTrunk : Nat := 0x140000000
  incXtal : Nat := 0x140000000
  /-- MODE = HOST (R373). -/
  host : Bool := false
  stopped : Bool := false
  estimated : Bool := false
  /-- A restart with GAP_SAT: TIME_STATE reads NONE until the counter is set (R380). -/
  unset : Bool := false
  stepGen : Nat := 0
  /-- The counter's value after the last step, in 1/65,536 ns (R386). -/
  steppedTo : Nat := 0
  /-- The counter has been set since it last started (R374). -/
  isSet : Bool := false
  /-- Back in AUTO mode from HOST, it waits for the next accepted TOD (R387). -/
  resume : Bool := false
  /-- The instant at which the slew in progress ends (R374). -/
  slewEnd : Option Nat := none
  lastSteerAt : Nat := 0
  ringPerS : Nat := 0
  ratioNominal : Bool := true
  /-- The gap counter, and the last gap latched (R378). -/
  gap : Nat := 0
  gapFrac : Nat := 0
  gapCount : Nat := 0
  /-- The gap counter stood at its maximum at the restart. -/
  gapSat : Bool := false
  /-- The counter restarted at this instant and its gap has not been estimated (R380). -/
  estimateFrom : Option Nat := none
  /-- TIME_NS's holding register (R372). -/
  hold : BitVec 96 := 0
  jumpLimit : Nat := 1000
  latches : Vector (Option JumpLatch) 4 := Vector.replicate 4 none
  /-- The latch the registers show (R376). -/
  jumpGroup : GroupId := 0
  jumpHead : Word := 0
  jumpStep : Int := 0
  ppsEn : Bool := true
  tenMEn : Bool := true
  squelch : Bool := false
  width : Nat := 100000
  outDelay : Int := 0
  tcHost : Word := 0
  tcTrunk : Vector Bool 4 := Vector.replicate 4 false
  tcFabric : Bool := false
  deriving DecidableEq, Repr

/-! HBM (spec/14_hbm_controller.md). -/

/-- Channel states (R395). -/
inductive ChState where
  | reset
  | training
  | directed
  | service
  | retrain
  | selfRefresh
  | frozen
  deriving DecidableEq, Repr

/-- Commands of the history (R412). -/
inductive HbmCmd where
  | act
  | rd
  | wr
  | pre
  | preA
  | ref
  | sre
  | srx
  | mrs
  deriving DecidableEq, Repr

/-- A command-history entry (R408, R412); `at_` is the instant at which it was issued. -/
structure HistEntry where
  at_ : Nat
  cmd : HbmCmd
  pc : Nat
  /-- Bank group in bits [1:0], bank in bits [3:2]. -/
  bank : Nat
  requester : Nat
  row : Nat
  column : Nat
  flags : Nat
  tag : Word
  deriving DecidableEq, Repr

/-- One channel (R392 to R410). -/
structure HbmChan where
  st : ChState := .reset
  srEntering : Bool := false
  cause : Nat := 0
  histValid : Bool := false
  /-- The frozen history and the running one, newest first, 256 entries. -/
  history : List HistEntry := []
  frozenHist : List HistEntry := []
  frozenAt : Nat := 0
  faultAddr : Nat := 0
  faultReq : Nat := 0
  /-- The channel's 2 GB, byte by byte (R392, R396). -/
  mem : Sparse Byte := []
  /-- Open row of each bank, by 16 * pseudo-channel + bank (R397). -/
  rows : Sparse (Option Nat) := []
  /-- Requests that wait for service, oldest first. -/
  waiting : List HbmReq := []
  /-- Reads whose data has not been returned, oldest first. -/
  reads : List HbmReq := []
  lastAddr : Nat := 0
  lastReq : Nat := 0
  /-- The last request, or the end of an aborted entry (R403, R404). -/
  idleFrom : Nat := 0
  /-- The SRE stands on the command bus since this instant (R403). -/
  sreAt : Option Nat := none
  /-- Exit from self-refresh began at this instant (R405). -/
  exitAt : Option Nat := none
  exitWanted : Bool := false
  srSince : Nat := 0
  retrainAt : Nat := 0
  trainFails : Nat := 0
  retryAt : Option Nat := none
  /-- The last refresh of each pseudo-channel, and one that waits for the end of a pause (R399, R400). -/
  refAt : Vector Nat 2 := Vector.replicate 2 0
  refDue : Vector Bool 2 := Vector.replicate 2 false
  /-- SR_IDLE as it stood at the last request, in us (R413). -/
  idleTime : Nat := 1000
  deriving DecidableEq, Repr

/-- The stack; temperature is recorded on both owning slices (R398). -/
structure HbmAll where
  chans : Vector HbmChan 8 := Vector.replicate 8 {}
  tempC : Vector Nat 2 := Vector.replicate 2 0
  tempAt : Vector (Option Nat) 2 := Vector.replicate 2 none
  stale : Vector Bool 2 := Vector.replicate 2 false
  ref2x : Vector Bool 2 := Vector.replicate 2 false
  cool : Vector Nat 2 := Vector.replicate 2 0
  srMask : Byte := 0xFF
  srIdle : Nat := 1000
  /-- Read data last returned, and whether it was poisoned. -/
  readOut : List Byte := []
  poisoned : Bool := false
  deriving DecidableEq, Repr

/-! Serial lanes (spec/15_serial_lanes_loopbacks.md). -/

/-- Power states of a transmitter or receiver (R422). -/
inductive LanePower where
  | run
  | shallow
  | deep
  | off
  deriving DecidableEq, Repr

/-- An equalisation entry (R418): FLAGS, CTLE and the five taps. -/
structure EqEntry where
  flags : Nat := 0
  ctle : Nat := 10
  taps : List Int := [0, -8, 120, 0, 0]
  deriving DecidableEq, Repr

/-- Loop-back codes (R424). -/
inductive LoopKind where
  | none
  | nes
  | nep
  | fes
  | mac
  | trunkFrame
  | fabricCell
  | bridge
  deriving DecidableEq, Repr

/-- A loop burst (R426): the instant it is due, the frame number, the length in blocks and the data region descrambled. -/
structure LoopOut where
  at_ : Nat
  fn : Nat
  len : Nat
  words : List (BitVec 64)
  deriving DecidableEq, Repr

/-- One serial lane; index 11 * slice + i. -/
structure SerialLane where
  tx : LanePower := .deep
  rx : LanePower := .deep
  /-- Entry to DEEP began at this instant (R423). -/
  deepAt : Option Nat := none
  /-- The condition for DEEP ended after the PLL was powered off: exit begins at completion. -/
  deepExit : Bool := false
  exitAt : Option Nat := none
  loop : LoopKind := .none
  emit : Bool := false
  deliver : Bool := false
  quiet : Bool := false
  loopEnd : Option Nat := none
  loopDelay : Nat := 0
  gen : Nat := 0
  chk : Nat := 0
  chkLock : Bool := false
  eq : EqEntry := {}
  /-- 0 table, 1 defaults, 2 override (R420). -/
  eqSource : Nat := 1
  /-- TRUNK_FRAME: the loop burst last sent and its blocks with their header bits. -/
  loopBurst : Option LoopOut := none
  loopBlocks : List (Bool × BitVec 256) := []
  /-- Loop bursts that wait for their delay. -/
  loopDue : List LoopOut := []
  startAt : Nat := 0
  deriving DecidableEq, Repr

/-- The serial lanes and firmware's copy of the board equalisation table. -/
structure SerialAll where
  cdrLock : Vector Bool 88 := Vector.replicate 88 false
  lanes : Vector SerialLane 88 := Vector.replicate 88 {}
  /-- The board table as the flash holds it, and whether it has been read since power-on or pin reset (R419). -/
  flash : List Byte := []
  tableRead : Bool := false
  srcDefaults : Bool := false
  /-- Valid entries of the table by lane index. -/
  table : Sparse (Option EqEntry) := []
  deriving DecidableEq, Repr

/-! Fabric (spec/16_fabric.md). -/

/-- Adjacency states (R436). -/
inductive Adj where
  | down
  | init
  | twoWay
  | full
  deriving DecidableEq, Repr

/-- A cell that waits to be sent on a lane. -/
structure CellOut where
  header : BitVec 128
  payload : List Byte
  /-- The frame it carries, when this device originates it. -/
  pkt : Option Packet := none
  deriving DecidableEq, Repr

/-- What a packet on the bridges is for (R26, R27): a frame for a destination of the classifier's kinds, 6 being a device account
itself, or a fabric cell for a lane. -/
inductive Carry where
  | frame (p : Packet) (kind dest queue : Nat)
  | cell (lane : FabLane) (c : CellOut)
  deriving DecidableEq, Repr

/-- A packet whose flits are on the bridges: its source and destination slice and its number there (R26). -/
structure Transit where
  src : SliceId
  dst : SliceId
  pkt : Nat
  carry : Carry
  deriving DecidableEq, Repr

/-- One fabric lane. -/
structure FabLaneSt where
  enabled : Bool := false
  adj : Adj := .down
  aligned : Bool := false
  alignLostAt : Nat := 0
  heldHigh : Bool := false
  heldNormal : Bool := false
  heldSince : Nat := 0
  /-- XOFF bits last sent (R437, R439). -/
  xoffSent : Bool := false
  lpiTx : Bool := false
  lpiRx : Bool := false
  neighId : Wide := 0
  neighAddr : Nat := 0
  neighLane : Nat := 0
  neighLpi : Bool := false
  neighStopped : Bool := false
  cause : Nat := 0
  cost : Nat := 1
  lastCellAt : Nat := 0
  lastHelloAt : Nat := 0
  helloSentAt : Nat := 0
  lastSentAt : Nat := 0
  /-- The last cell sent that was not IDLE (R453). -/
  lastBusyAt : Nat := 0
  lsasSent : Bool := false
  lsaSeen : Bool := false
  /-- Cells that wait, by class CONTROL, HIGH, NORMAL. -/
  queues : Vector (List CellOut) 3 := Vector.replicate 3 []
  /-- The cell last sent: header, payload and CRC-32. -/
  lastSent : List Byte := []
  deriving DecidableEq, Repr

/-- A link that an LSA reports (R443). -/
structure LsaLink where
  neigh : Wide
  localLane : Nat
  neighLane : Nat
  cost : Nat
  deriving DecidableEq, Repr

/-- An LSA held. -/
structure LsaHeld where
  device : Wide
  seq : Word
  address : Nat
  auto : Bool
  stopped : Bool
  links : List LsaLink
  at_ : Nat
  deriving DecidableEq, Repr

/-- A route entry (R444, R445). -/
structure FabRoute where
  primary : BitVec 16 := 0
  alternate : BitVec 16 := 0
  altActive : Bool := false
  device : Wide := 0
  cost : Nat := 0xFFFF
  deriving DecidableEq, Repr

/-- A DATA cell that arrived early (R449): its instant and the slice of the lane it came by. -/
structure EarlyCell where
  at_ : Nat
  slice : SliceId
  header : BitVec 128
  payload : List Byte
  deriving DecidableEq, Repr

/-- Sequence context of a source and class at the destination (R449): the SEQ expected and the early cells. -/
structure FabRx where
  expected : Option Nat := none
  held : List EarlyCell := []
  deriving DecidableEq, Repr

/-- Where a DATA cell goes (R446). -/
structure FabDest where
  dest : Nat
  deliver : Nat := 0
  target : Nat := 0
  queue : Nat := 0
  cls : Nat
  portId : Nat := 0
  deriving DecidableEq, Repr

/-- The fabric of the device. -/
structure FabricAll where
  lanes : Vector FabLaneSt 16 := Vector.replicate 16 {}
  address : Nat := 0
  /-- The ADDRESS setting in force and the one pending FUNC_START: 0 AUTO. -/
  setting : Nat := 0
  settingPend : Option Nat := none
  lpi : Bool := false
  ttl : Nat := 8
  prioClass : BitVec 16 := 0x5AAA
  stopped : Bool := true
  /-- Frames held while the fabric function is stopped (R298, R454). -/
  hold : List (Packet × FabDest) := []
  lsas : List LsaHeld := []
  ownSeq : Word := 0
  ownChangedAt : Option Nat := none
  ownSentAt : Nat := 0
  dbChanged : Bool := false
  routes : Vector FabRoute 64 := Vector.replicate 64 {}
  /-- The root; 0 while no other device's LSA is held. -/
  root : Wide := 0
  /-- ROOT_ID and ADDR_SEQ of the last ADDR cell sent or accepted. -/
  addrRoot : Wide := 0
  addrSeq : Word := 0
  addrSentAt : Nat := 0
  addrChanged : Bool := false
  /-- Assignments of the last ADDR sent as root, or accepted: device, address. -/
  assigned : List (Wide × Nat) := []
  /-- Addresses of AUTO devices that have left, with the instant of their leaving (R441). -/
  leftAt : List (Nat × Nat) := []
  /-- Next SEQ by destination * 4 + class (R446). -/
  txSeq : Sparse Nat := []
  rx : Sparse FabRx := []
  /-- Cells for the device's own address, delivered at the next tick (R444). -/
  localCells : List EarlyCell := []
  deriving DecidableEq, Repr

/-! Firmware, log and sensors (spec/18_management_firmware_recovery.md). -/

/-- A boot directory copy (R493). -/
structure BootDir where
  ok : Bool := false
  gen : Nat := 0
  active : Nat := 0
  valid : Nat := 0
  deriving DecidableEq, Repr

/-- VERSION and IFACE of a running component (R498, R507). -/
structure FwComp where
  version : Word := 0
  iface : Nat := 0
  deriving DecidableEq, Repr

/-- The running components (R507): MGT, SLC, LMC, BUILD of the running MGT's image, and the slices that still run the old
slice controller. -/
structure Running where
  mgt : FwComp := {}
  slc : FwComp := {}
  lmc : FwComp := {}
  build : Word := 0
  oldSlc : Byte := 0
  deriving DecidableEq, Repr

/-- An activation under way (R503, R504). -/
structure Activation where
  mbox : MboxId
  commitSvn : Bool
  /-- ACT_STEP. -/
  step : Nat
  /-- Slice controllers still to switch, in order. -/
  todo : List Nat
  /-- The components that ran before it, and the anchor at its start. -/
  before : Running
  oldAnchor : Half
  startedAt : Nat
  deriving DecidableEq, Repr

/-- A checkpoint slot of the flash (R496). -/
structure CkSlot where
  boot : Nat
  firstSeq : Word
  timeSec : Word
  records : List Record
  deriving DecidableEq, Repr

/-- A page of contact-sheet history in HBM (R496): its channel, and its records, newest first. -/
structure HistPage where
  chan : Nat
  records : List Record
  deriving DecidableEq, Repr

/-- A sensor's thresholds (R495). -/
structure SensorSet where
  enabled : Bool := false
  high : Int := 0
  low : Int := 0
  /-- Raised and not yet re-armed. -/
  highOut : Bool := false
  lowOut : Bool := false
  deriving DecidableEq, Repr

/-- The fuses beside the serial and the SVN floor (R490, R510); no command reads the keys, and only the utility pipe and the ROM use
them. -/
structure Fuses where
  rootKeySet : Bool := true
  imageKeySet : Bool := true
  keyHashSet : Bool := true
  rootKey : KeyBits := 0
  imageKey : KeyBits := 0
  keyHash : BitVec 384 := 0
  deriving DecidableEq, Repr

/-- Firmware, flash, log history and sensors. -/
structure FwAll where
  fuses : Fuses := {}
  darkroom : Bool := false
  drCause : Nat := 0
  /-- The ROM started the management firmware at this instant; it has reported ready. -/
  startAt : Nat := 0
  ready : Bool := false
  dirs : Vector BootDir 2 := ⟨#[{ ok := true, gen := 1, active := 0, valid := 1 }, {}], rfl⟩
  banks : Vector (List Byte) 2 := Vector.replicate 2 []
  svnFloor : Nat := 0
  /-- STAGE_STATE, the offset at which the next chunk begins and TOTAL (R501). -/
  stageSt : Nat := 0
  stageNext : Nat := 0
  stageTotal : Nat := 0
  act : Option Activation := none
  running : Running := {}
  boot : Nat := 1
  /-- DARKROOM_CAUSE of the previous start (R511). -/
  prevCause : Nat := 0
  slots : Sparse (Option CkSlot) := []
  nextSlot : Nat := 0
  ckSeq : Word := 0
  ckAt : Nat := 0
  /-- A checkpoint of this start is held in flash, so that ckSeq is the last SEQ it holds. -/
  ckDone : Bool := false
  /-- History pages, newest first; the first is the open one. -/
  history : List HistPage := []
  readings : Sparse Word := []
  sensors : Sparse SensorSet := []
  deriving DecidableEq, Repr

/-! Clocks and power (spec/19_clocks_power_reset.md). -/

/-- Slice power states (R526): RUN, IDLE, DROWSE, DORMANT, WAKING, QUIESCING, FAULTED. -/
inductive SlicePower where
  | run
  | idle
  | drowse
  | dormant
  | waking
  | quiescing
  | down
  deriving DecidableEq, Repr

/-- States of a clock source (R538). -/
inductive MeterSt where
  | starting
  | good
  | failed
  | suspect
  | off
  deriving DecidableEq, Repr

/-- A light meter (R516). -/
structure Meter where
  st : MeterSt := .starting
  ppm : Int := 0
  /-- Consecutive windows outside the limits. -/
  bad : Nat := 0
  /-- The instant of its enable while STARTING, since which it passes its tests while FAILED or SUSPECT, or at which it
  became GOOD. -/
  at_ : Nat := 0
  deriving DecidableEq, Repr

/-- A clock domain of a slice (R513, R538). -/
structure DomainSt where
  source : Nat
  fallback : Nat
  stopped : Bool := false
  deriving DecidableEq, Repr

/-- Domains in the order of R538. -/
def resetDomains : Vector DomainSt 8 :=
  ⟨#[⟨0, 1, false⟩, ⟨0, 1, false⟩, ⟨0, 2, false⟩, ⟨1, 0, false⟩, ⟨1, 0, false⟩, ⟨1, 0, false⟩, ⟨0, 1, false⟩, ⟨7, 7, false⟩], rfl⟩

/-- A step of R522 under way: the level it goes to, and whether the AVSBus acknowledgement is awaited since an instant. -/
structure AvsStep where
  target : Nat
  up : Bool
  sentAt : Nat
  acked : Option Nat := none
  deriving DecidableEq, Repr

/-- Clocks and power of a slice. -/
structure SlicePw where
  since : Nat := 0
  levelReq : Nat := 0
  level : Nat := 0
  capped : Bool := false
  shutdown : Bool := false
  unconfirmed : Bool := false
  avs : Option AvsStep := none
  lastPoll : Nat := 0
  lastReset : Nat := 0
  idleTime : Nat := 5
  drowseTime : Nat := 0
  dormantTime : Nat := 0
  /-- WAKING from DROWSE (false) or DORMANT (true), and the steps of R530 taken. -/
  deepWake : Bool := false
  wakeStep : Nat := 0
  /-- The state a quiesce leads to. -/
  target : SlicePower := .run
  /-- Last reading of each die sensor in 1/16 degree (R494, R525). -/
  temps : Vector Int 4 := Vector.replicate 4 0
  meters : Vector Meter 8 := ⟨#[{}, {}, {}, {}, { st := .off }, { st := .off }, { st := .off }, { st := .off }], rfl⟩
  domains : Vector DomainSt 8 := resetDomains
  /-- Crossings in quarantine (R535). -/
  quarantine : List Nat := []
  /-- The packet path of the slice was last not empty at this instant (R526). -/
  busyAt : Nat := 0
  /-- Transfers that the last quiesce aborted (R533, R536). -/
  aborted : Nat := 0
  deriving DecidableEq, Repr

/-- Clocks and power of the device. -/
structure PowerAll where
  st : Vector SlicePower 8 := Vector.replicate 8 .run
  slices : Vector SlicePw 8 := Vector.replicate 8 {}
  standby : Bool := false
  resetCause : Nat := 0
  deriving DecidableEq, Repr

/-! Pins (spec/20_pins_hotplug_electrical.md). -/

/-- Pins and straps (R543, R544, R551). -/
structure PinAll where
  /-- The lane status inputs, high where the modem reports loss of signal; pulled up inside. -/
  llos : Vector Bool 32 := Vector.replicate 32 true
  /-- Level of PRSNT_N: false = seated, and the removal under way. -/
  prsnt : Bool := false
  removed : Bool := false
  anchorPref : Half := 0
  recover : Bool := false
  smbAddr : Nat := 0
  deriving DecidableEq, Repr

end Sys2Proof.Machine
end

