-- ==== Sys2Proof/Machine/State.lean ====
section
/-!
DEFINITION. Machine/State.lean: the state of the device as plain data, the reasons a step can stop, and the state after
reset.  Every piece of state the spec gives the block is here or in the structures of MgmtState, LineState, PathState and
InfraState; INVENTORY.md lists each with its rule and its reset value.
-/
namespace Sys2Proof.Machine

/-- Registers that read the same way in every block (R8, R10, R476): 64-bit counters and their holding registers, sticky
flag words and collision counters, keyed by the canonical address of their low word (Machine/Addr.lean). -/
structure Regs where
  ctr : Sparse Nat := []
  hold : Sparse Nat := []
  w1c : Sparse Word := []
  coll : Sparse Nat := []
  /-- MGT_RO_WRITE_ADDR (R459's register). -/
  roWriteAddr : Word := 0
  deriving DecidableEq, Repr

/-- What the outside world last read, and the draws made from the random source: the model's own fields. -/
structure Env where
  readData : Wide := 0
  smbusOut : List Byte := []
  /-- The frame last sent on the service port (R469). -/
  serviceOut : FrameBytes := []
  draws : Nat := 0
  deriving DecidableEq, Repr

/-- Inter-slice bridges (R24 to R27, R42): ports, routes, flit sequences at the receiver (destination * 8 + source) and
at the sender (source * 8 + destination) with its packet numbers, the packets under way, and each slice's configuration
generation. -/
structure BridgeAll where
  ports : Vector (Vector Bridge 3) 8 := Vector.replicate 8 (Vector.replicate 3 {})
  routes : Vector (Vector Route 8) 8 := Vector.replicate 8 (Vector.replicate 8 {})
  rx : Sparse SeqRx := []
  txSeq : Sparse (BitVec 16) := []
  txPkt : Sparse Nat := []
  transit : List Transit := []
  cfgGen : Vector Nat 8 := Vector.replicate 8 0
  deriving DecidableEq, Repr

/-- Anchor, deputy, claim line, lease and mirror (R32 to R43). -/
structure AnchorAll where
  caps : Vector AnchorCap 2 := Vector.replicate 2 {}
  pref : Half := 0
  /-- The claim line has read high since this instant. -/
  highSince : Nat := 0
  /-- Neither slice drives the line and the last probe read it low (R35). -/
  stuckLow : Bool := false
  leaseAt : Nat := 0
  mirrorSync : Bool := false
  mirrorStale : Bool := false
  pcieUp : Bool := false
  /-- The PCIe configuration space, by byte address (R33, R40). -/
  cfgSpace : Sparse Byte := []
  refused : Nat := 0
  deriving DecidableEq, Repr

/-- Mailboxes (R460 to R465): the order of doorbells, the request being executed and the long commands that run. -/
structure MailAll where
  boxes : Vector Mbox 9 := Vector.replicate 9 {}
  ringQ : List MboxId := []
  taken : Nat := 0
  cur : Option MboxId := none
  longs : List LongCmd := []
  /-- Source address of the request that mailbox 8 holds (R469). -/
  serviceFrom : BitVec 48 := 0
  deriving DecidableEq, Repr

/-- The contact sheet, the host event queue, vectors and management rings (R478 to R487). -/
structure EventAll where
  /-- Newest first, at most 16,384. -/
  log : List Record := []
  nextSeq : Word := 0
  errors : Nat := 0
  evq : EventQueue := {}
  vecs : Vector Vec 64 := Vector.replicate 64 {}
  /-- The vector of each class (R481). -/
  classMap : Vector (Option VectorId) 64 := Vector.ofFn fun c => some (if h : c.val + 16 < 64 then ⟨c.val + 16, h⟩ else 63)
  rings : Vector MgtRing 8 := Vector.replicate 8 {}
  /-- Frames that wait for a posted buffer of each management queue (R487). -/
  mgtWait : Vector (List Packet) 8 := Vector.replicate 8 []
  deriving DecidableEq, Repr

/-- A port-ID filter entry (R68, R71). -/
structure FilterEntry where
  valid : Bool := false
  clear : Bool := false
  port : PortTag := 0
  slot : Nat := 0
  deriving DecidableEq, Repr

/-- Line lanes, trunk groups and the port-ID filter (group * 4,096 + index). -/
structure TrunkAll where
  lanes : Vector LaneSt 32 := Vector.replicate 32 {}
  groups : Vector GroupSt 4 := Vector.replicate 4 {}
  filter : Sparse FilterEntry := []
  /-- Downstream packets that have begun to leave the extractor, in the order in which they began (R76). -/
  extract : List Extract := []
  tickets : Nat := 0
  deriving DecidableEq, Repr

/-- Host ports, classifiers, buffers, accounts and policers. -/
structure PathAll where
  ports : Vector PortSt 32 := Vector.replicate 32 {}
  portsStopped : Vector Bool 8 := Vector.replicate 8 true
  schedStopped : Vector Bool 8 := Vector.replicate 8 false
  mode : Vector Nat 8 := Vector.replicate 8 0
  modePend : Vector (Option Nat) 8 := Vector.replicate 8 none
  /-- Frames that have entered the packet path of a slice and wait for their parse, oldest first. -/
  ingress : Vector (List Packet) 8 := Vector.replicate 8 []
  entryNo : Nat := 0
  cls : Vector ClsSt 8 := Vector.replicate 8 {}
  /-- Source settings by kind * 256 + ID (R271). -/
  sources : Sparse SourceSet := []
  mirrors : Sparse MirrorSess := []
  bufs : Vector BufSt 8 := Vector.replicate 8 {}
  accounts : Vector AccountSt 256 := Vector.replicate 256 {}
  policers : Sparse Policer := []
  /-- The channel after which the next spill page is taken (R299). -/
  spillRr : Nat := 7
  /-- Spill pages in use: channel * 32,256 + page. -/
  spillUsed : List Nat := []
  /-- Bytes written to and read from the stack in the microsecond under way, and whether either met its budget (R304). -/
  spillWr : Nat := 0
  spillRd : Nat := 0
  wrLimited : Bool := false
  rdLimited : Bool := false
  /-- The last account that spilled stopped spilling at this instant (R403). -/
  spillEndAt : Nat := 0
  deriving DecidableEq, Repr

/-- Key slots, KEKs, decrypt pipes and the utility pipe (R335 to R358). -/
structure CryptoAll where
  slots : Sparse KeySlot := []
  /-- KEK slots: none while empty (R339, R367); AES256 and key. -/
  keks : Vector (Option (Bool × KeyBits)) 8 := Vector.replicate 8 none
  /-- CIP_PORT_FAIL by group * 4,096 + entry (R366). -/
  portFail : Sparse Nat := []
  /-- Decrypt pipes: slice * 2 + pipe, oldest first. -/
  pipes : Vector (List DecJob) 16 := Vector.replicate 16 []
  util : Util := {}
  deriving DecidableEq, Repr

/-- What the deputy's mirror holds where it may differ from the device's own state (R33, R41): the half that holds it, the slices'
configuration and the management processor's as they stood when the last path to it was lost, the contact-sheet head, the MSI-X
table and the PCIe configuration space. -/
structure Mirror where
  holder : Half
  trunk : TrunkAll
  path : PathAll
  crypto : CryptoAll
  time : TimeAll
  fabric : FabricAll
  serdes : SerialAll
  power : PowerAll
  srMask : Byte
  srIdle : Nat
  sensors : Sparse SensorSet
  vecs : Vector Vec 64
  classMap : Vector (Option VectorId) 64
  evq : EventQueue
  head : Word
  cfgSpace : Sparse Byte
  deriving DecidableEq, Repr

/-- The state of the device.  `pending` is the queue of commands that wait, first in, first out; `now` counts trunk ticks of
1.25 ns (R7); the other fields are the device's. -/
structure State where
  pending : List Instr := []
  now : Nat := 0
  /-- The part (R1, R4) and its fused serial. -/
  part : Part := .ct6408
  serial : Wide := 1
  env : Env := {}
  regs : Regs := {}
  bridge : BridgeAll := {}
  anchor : AnchorAll := {}
  mail : MailAll := {}
  ev : EventAll := {}
  trunk : TrunkAll := {}
  path : PathAll := {}
  crypto : CryptoAll := {}
  time : TimeAll := {}
  hbm : HbmAll := {}
  serdes : SerialAll := {}
  fabric : FabricAll := {}
  fw : FwAll := {}
  power : PowerAll := {}
  pins : PinAll := {}
  /-- The deputy's mirror since the last path to it was lost; none while it equals the configuration in force. -/
  mirror : Option Mirror := none
  deriving DecidableEq, Repr

/-- The reasons a step ends in a fault.  The device has no command after which the spec leaves it without a next state, so
no meaning raises one; the constructor exists because the interface asks for a type.  Safe. -/
inductive Fault where
  /-- Raised by nobody. -/
  | none
  deriving DecidableEq, Repr

/-- The reasons a step is refused.  Raised only by Machine/Dispatch.lean for a command that has no meaning yet.  Safe: the
machine stops where the device goes on. -/
inductive Refusal where
  /-- The command named has no meaning in the model yet. -/
  | notModelled (mnemonic : String)
  deriving DecidableEq, Repr

/-- The device right after reset: every field at the value the spec states, or at the value a log entry names (logs 2 to
6).  No command waits. -/
def State.reset : State := {}

end Sys2Proof.Machine
end

