-- ==== Sys2Proof/Machine/Ops.lean ====
section
/-!
DEFINITION. Machine/Ops.lean: the named operations every family uses: counters, sticky flags, event records, interrupts,
the random source, and the accessors of lanes, groups, accounts, ports, slices and mailboxes.
-/
namespace Sys2Proof.Machine

/-! Time units: `State.now` counts trunk ticks of 1.25 ns (R7). -/

/-- Trunk ticks in a microsecond. -/
def usTicks : Nat := 800
/-- Trunk ticks in a millisecond. -/
def msTicks : Nat := 800000
/-- Trunk ticks in a second. -/
def secTicks : Nat := 800000000
/-- Trunk ticks in a frame (R47). -/
def frameTicks : Nat := 8000
/-- Trunk ticks in an epoch. -/
def epochTicks : Nat := 800000

/-- `d` ticks have passed since instant `t`. -/
def since (s : State) (t d : Nat) : Bool := t + d ≤ s.now

/-! The part (R1, R3). -/

/-- Slices on a part. -/
def Part.slices : Part → Nat
  | .ct1602 => 2
  | .ct3204 => 4
  | .ct4806 => 6
  | .ct6408 => 8

/-- Slice s is present. -/
def present (s : State) (k : Nat) : Bool := k < s.part.slices

/-- The slices present, rising. -/
def presentSlices (s : State) : List Nat := List.range s.part.slices

/-- The slice of a line lane or host lane (R22). -/
def laneSlice (l : Fin 32) : SliceId := ⟨l.val / 4, by omega⟩

/-- Its local index. -/
def laneIdx (l : Fin 32) : Fin 4 := ⟨l.val % 4, by omega⟩

/-! Modifiers: one per table of State. -/

def modLane (s : State) (l : Lane) (f : LaneSt → LaneSt) : State :=
  { s with trunk := { s.trunk with lanes := vmod s.trunk.lanes l f } }

def modGroup (s : State) (g : GroupId) (f : GroupSt → GroupSt) : State :=
  { s with trunk := { s.trunk with groups := vmod s.trunk.groups g f } }

def modAcct (s : State) (a : AccountId) (f : AccountSt → AccountSt) : State :=
  { s with path := { s.path with accounts := vmod s.path.accounts a f } }

def modPort (s : State) (p : PortId) (f : PortSt → PortSt) : State :=
  { s with path := { s.path with ports := vmod s.path.ports p f } }

def modCls (s : State) (k : SliceId) (f : ClsSt → ClsSt) : State :=
  { s with path := { s.path with cls := vmod s.path.cls k f } }

def modBuf (s : State) (k : SliceId) (f : BufSt → BufSt) : State :=
  { s with path := { s.path with bufs := vmod s.path.bufs k f } }

def modBox (s : State) (m : MboxId) (f : Mbox → Mbox) : State :=
  { s with mail := { s.mail with boxes := vmod s.mail.boxes m f } }

def modCap (s : State) (h : Half) (f : AnchorCap → AnchorCap) : State :=
  { s with anchor := { s.anchor with caps := vmod s.anchor.caps h f } }

def modVec (s : State) (v : VectorId) (f : Vec → Vec) : State :=
  { s with ev := { s.ev with vecs := vmod s.ev.vecs v f } }

def modRing (s : State) (q : MgtQueue) (f : MgtRing → MgtRing) : State :=
  { s with ev := { s.ev with rings := vmod s.ev.rings q f } }

def modBridge (s : State) (k : SliceId) (p : BridgePort) (f : Bridge → Bridge) : State :=
  { s with bridge := { s.bridge with ports := vmod s.bridge.ports k fun v => vmod v p f } }

def modRoute (s : State) (k d : SliceId) (f : Route → Route) : State :=
  { s with bridge := { s.bridge with routes := vmod s.bridge.routes k fun v => vmod v d f } }

/-- A key slot; a slot never written is in its reset state (R360). -/
def slotAt (s : State) (n : Nat) : KeySlot := sparseGet {} s.crypto.slots n

def modSlot (s : State) (n : Nat) (f : KeySlot → KeySlot) : State :=
  { s with crypto := { s.crypto with slots := sparseMod {} s.crypto.slots n f } }

def modHalf (s : State) (n : Nat) (h : Half) (f : KeyHalf → KeyHalf) : State :=
  modSlot s n fun k => { k with halves := vmod k.halves h f }

def laneAt (s : State) (l : Lane) : LaneSt := s.trunk.lanes[l]
def groupAt (s : State) (g : GroupId) : GroupSt := s.trunk.groups[g]
def acctAt (s : State) (a : AccountId) : AccountSt := s.path.accounts[a]
def portAt (s : State) (p : PortId) : PortSt := s.path.ports[p]
def clsAt (s : State) (k : SliceId) : ClsSt := s.path.cls[k]
def bufAt (s : State) (k : SliceId) : BufSt := s.path.bufs[k]
def boxAt (s : State) (m : MboxId) : Mbox := s.mail.boxes[m]
def capAt (s : State) (h : Half) : AnchorCap := s.anchor.caps[h]

/-! Counters (R10): 64 bits, wrapping. -/

/-- The value of a counter. -/
def counterAt (s : State) (a : Nat) : Nat := sparseGet 0 s.regs.ctr a

/-- Add to a counter. -/
def count (a n : Nat) (s : State) : State :=
  { s with regs := { s.regs with ctr := sparseMod 0 s.regs.ctr a fun v => (v + n) % 2 ^ 64 } }

/-- Add one to a counter. -/
def count1 (a : Nat) (s : State) : State := count a 1 s

/-! Random source: a free value per draw (log 5). -/

/-- Draw a number from 0 to `max`, uniformly in the hardware; here a free value. -/
def drawUpTo (max : Nat) (s : State) : Nat × State :=
  (Config.random s.env.draws % (max + 1), { s with env := { s.env with draws := s.env.draws + 1 } })

/-! Interrupts (R481, R482). -/

/-- Send a vector's message, or hold it in the PBA while the vector is masked. -/
def fireVec (v : VectorId) (s : State) : State :=
  modVec s v fun x =>
    if x.masked then { x with causes := 0, pba := true } else { x with causes := 0, sent := x.sent + 1 }

/-- A cause of a vector: it fires at COUNT causes, or at once for DELAY 0 and for a CRITICAL record (R482). -/
def causeVec (v : VectorId) (critical : Bool) (s : State) : State :=
  let x := s.ev.vecs[v]
  let s1 := modVec s v fun x => { x with causes := x.causes + 1, firstAt := if x.causes = 0 then s.now else x.firstAt }
  if critical || x.count ≤ x.causes + 1 || x.delay == 0 then fireVec v s1 else s1

/-! Event records (R478, R480). -/

/-- Severity as its code (R478). -/
def Severity.code : Severity → Nat
  | .info => 0
  | .notice => 1
  | .warning => 2
  | .error => 3
  | .critical => 4

/-- DATA is 14 bytes. -/
def padData (d : List Byte) : List Byte := (d ++ List.replicate 14 0).take 14

/-- The record of a cause now. -/
def mkRecord (s : State) (code : BitVec 16) (sev : Severity) (src : Byte) (collision : Bool) (data : List Byte) : Record :=
  { seq := s.ev.nextSeq, code := code, severity := sev, source := src,
    timeNs := BitVec.ofNat 32 s.time.ns, timeSec := s.time.sec.setWidth 32,
    flags := BitVec.ofNat 8 (s.time.estimated.toNat + 2 * s.time.stopped.toNat + 4 * collision.toNat),
    data := padData data }

/-- A channel state in which the channel is in service: SERVICE, a retraining pause, or self-refresh (R395). -/
def ChState.serving : ChState → Bool
  | .service => true
  | .retrain => true
  | .selfRefresh => true
  | _ => false

/-- A channel is in service. -/
def chanServes (s : State) (k : Nat) : Bool := if h : k < 8 then s.hbm.chans[k].st.serving else false

/-- The channel in service after channel `c`, in rotation (R299, R496). -/
def nextServing (s : State) (c : Nat) : Option Nat := ((List.range 8).map fun i => (c + 1 + i) % 8).find? (chanServes s)

/-- The history pages that a channel keeps (R496). -/
def trimPages (c : Nat) (l : List HistPage) : List HistPage :=
  let mine := l.filter fun p => p.chan == c
  if mine.length ≤ 256 then l
  else match mine.getLast? with
    | some old => l.erase old
    | none => l

/-- A record that leaves the ring goes to the open history page, 2,048 to a page; pages rotate over the channels in service
(R496). -/
def pushHistory (r : Record) (s : State) : State :=
  let put := fun l => { s with fw := { s.fw with history := l } }
  match s.fw.history with
  | p :: t =>
    if p.records.length < 2048 then put ({ p with records := r :: p.records } :: t)
    else match nextServing s p.chan with
      | some c => put (trimPages c ({ chan := c, records := [r] } :: p :: t))
      | none => s
  | [] => match nextServing s 7 with
    | some c => put [{ chan := c, records := [r] }]
    | none => s

/-- Write a record to the contact sheet: a ring of 16,384, SEQ one higher each (R478); the oldest goes to the history. -/
def pushRecord (r : Record) (s : State) : State :=
  let s1 := if 16384 ≤ s.ev.log.length then (match s.ev.log.getLast? with
    | some old => pushHistory old s
    | none => s) else s
  { s1 with ev := { s1.ev with
      log := (r :: s1.ev.log).take 16384,
      nextSeq := s1.ev.nextSeq + 1,
      errors := if 3 ≤ r.severity.code then s1.ev.errors + 1 else s1.ev.errors } }

/-- The event queue is enabled and takes the record's severity. -/
def evqTakes (r : Record) (s : State) : Bool := s.ev.evq.enabled && decide (s.ev.evq.minSev ≤ r.severity.code)

/-- One more copy would make EVQ_PROD equal to EVQ_CONS. -/
def evqFull (s : State) : Bool := (s.ev.evq.prod + 1) % s.ev.evq.entries == s.ev.evq.cons

/-- The vector that a class maps to fires for a copy (R481); classes above 63 follow vector 63. -/
def classVec (s : State) (code : BitVec 16) : Option VectorId :=
  let c := code.toNat / 256
  if h : c < 64 then s.ev.classMap[c] else some 63

/-- Copy a record into the slot EVQ_PROD and advance it. -/
def evqCopy (r : Record) (s : State) : State :=
  let q := s.ev.evq
  let s1 := { s with ev := { s.ev with evq := { q with
      slots := sparseSet none q.slots q.prod (some r), prod := (q.prod + 1) % q.entries } } }
  match classVec s r.code with
  | some v => causeVec v (r.severity == .critical) s1
  | none => s1

/-- A record that found the queue full is not queued: it is counted (R480). -/
def evqLose (r : Record) (s : State) : State :=
  let q := s.ev.evq
  count1 aEvqLost { s with ev := { s.ev with evq := { q with
      firstLost := some (q.firstLost.getD r.seq), lostCount := q.lostCount + 1 } } }

/-- The flag word held at a key. -/
def flagWord (s : State) (a : Nat) : Word := sparseGet 0 s.regs.w1c a

/-- Change a flag word. -/
def putFlags (a : Nat) (v : Word) (s : State) : State :=
  { s with regs := { s.regs with w1c := sparseSet 0 s.regs.w1c a v } }

/-- Region and offset X of a key as a FLAG_SET record names them (R479, R558). -/
def flagRegion (a : Nat) : Nat := if 0xFE000000 ≤ a then 0xFE else if a < 0x1000000 then 0xFF else a / 0x1000000 - 1

/-- DATA of a FLAG_SET record. -/
def flagData (a bits : Nat) : List Byte :=
  BitVec.ofNat 8 (flagRegion a) :: 0 :: (toLe 4 (a % 0x1000000) ++ toLe 4 bits)

/-- SOURCE of a FLAG_SET record: the slice, or 0xFF for a global or device-wide word. -/
def flagSource (a : Nat) : Byte := if flagRegion a < 8 then BitVec.ofNat 8 (flagRegion a) else 0xFF

/-- The FLAG_SET record of a flag that sets now. -/
def flagRecord (s : State) (a bits : Nat) (collision : Bool) : Record :=
  mkRecord s 0x0201 .notice (flagSource a) collision (flagData a bits)

/-- Write a record and copy it to the event queue; on a full queue EVQ_OVF sets, with its own FLAG_SET record, which finds
the queue full as well. -/
def writeRecord (r : Record) (s : State) : State :=
  let s1 := pushRecord r s
  if evqTakes r s then
    if evqFull s then
      let s2 := evqLose r s1
      if (flagWord s2 aEvqFlags).getLsbD 0 then s2
      else
        let s3 := putFlags aEvqFlags (flagWord s2 aEvqFlags ||| 1) s2
        let r2 := flagRecord s3 aEvqFlags 1 false
        let s4 := pushRecord r2 s3
        if evqTakes r2 s4 then evqLose r2 s4 else s4
    else evqCopy r s1
  else s1

/-- Write an event record (R478). -/
def logEvent (code : BitVec 16) (sev : Severity) (src : Byte) (data : List Byte) (s : State) : State :=
  writeRecord (mkRecord s code sev src false data) s

/-- A condition sets bit `b` of the sticky flag word at `a`; a change from 0 to 1 writes one FLAG_SET record (R477). -/
def setFlag (a b : Nat) (s : State) : State :=
  if (flagWord s a).getLsbD b then s
  else
    let s1 := putFlags a (flagWord s a ||| BitVec.ofNat 32 (2 ^ b)) s
    writeRecord (flagRecord s1 a (2 ^ b) false) s1

/-- Apply a state change when a condition holds. -/
def whenB (c : Bool) (f : State → State) (s : State) : State := if c then f s else s

/-- Thread a list of items through a state change. -/
def foldS {α : Type} (l : List α) (f : α → State → State) (s : State) : State := l.foldl (fun st x => f x st) s

/-! Bridges and the anchor: reachability (R25, R31, R38). -/

/-- Slice joined by port p of slice k: k XOR 2^p (R23). -/
def bridgePeer (k : Nat) (p : Nat) : Nat := k ^^^ 2 ^ p

/-- Port p of slice k is wired on the part (R23, R27). -/
def bridgeWired (s : State) (k p : Nat) : Bool := present s k && present s (bridgePeer k p)

/-- A bridge port by numbers. -/
def bridgeAt (s : State) (k p : Nat) : Bridge :=
  if h : k < 8 ∧ p < 3 then (s.bridge.ports[k]'h.1)[p]'h.2 else {}

/-- The bridge ports of a slice run: the slice is not in DORMANT, on its way out of it, or FAULTED, and its core clock has not
stopped (R520, R525, R526, R528). -/
def bridgesRun (s : State) (k : Nat) : Bool :=
  if h : k < 8 then
    let p := s.power.st[k]
    !(p == .dormant || p == .down || (p == .waking && s.power.slices[k].deepWake && decide (s.power.slices[k].wakeStep < 2))) &&
      !s.power.slices[k].domains[(0 : Fin 8)].stopped
  else false

/-- The link at port p of slice k works: wired and up at both ends, with no bridge loop on it. -/
def linkUp (s : State) (k p : Nat) : Bool :=
  bridgeWired s k p && bridgesRun s k && bridgesRun s (bridgePeer k p) && (bridgeAt s k p).up && (bridgeAt s (bridgePeer k p) p).up &&
    !(bridgeAt s k p).loop && !(bridgeAt s (bridgePeer k p) p).loop

/-- Slices one hop from a set. -/
def spread (s : State) (l : List Nat) : List Nat :=
  (presentSlices s).filter fun k => l.contains k || [0, 1, 2].any fun p => linkUp s k p && l.contains (bridgePeer k p)

/-- Slices that reach slice k over working links. -/
def reachable (s : State) (k : Nat) : List Nat :=
  (List.range 7).foldl (fun l _ => spread s l) ((presentSlices s).filter (· == k))

/-- A working bridge path joins two slices. -/
def path (s : State) (a b : Nat) : Bool := present s a && present s b && (a == b || (reachable s a).contains b)

/-- A path joins slices 0 and 1 (PEER_PATH). -/
def peerPath (s : State) : Bool := path s 0 1

/-- The slice in ANCHOR, the lower-numbered first. -/
def anchorSlice (s : State) : Option Half :=
  if (capAt s 0).st == .anchor then some 0 else if (capAt s 1).st == .anchor then some 1 else none

/-- The governing slice (R38). -/
def governing (s : State) : Option Half :=
  match anchorSlice s with
  | some h => some h
  | none =>
    if (capAt s 0).st == .elect then some 0
    else if (capAt s 1).st == .elect then some 1
    else if (capAt s 0).st == .deputy || (capAt s 0).st == .abstain then some 0
    else if (capAt s 1).st == .deputy || (capAt s 1).st == .abstain then some 1
    else none

/-- The device carries traffic: PRSNT_N has not gone high (R551), and it is not in darkroom mode (R509). -/
def carriesTraffic (s : State) : Bool := !s.pins.removed && !s.fw.darkroom

/-! Lanes and groups (R17, R18). -/

/-- The group whose binding in force holds the lane. -/
def boundGroup (s : State) (l : Lane) : Option GroupId :=
  [0, 1, 2, 3].find? fun g => (groupAt s g).binding.any fun b => b.1 == l

/-- A group is enabled while it has a binding in force and is not stopped (R18). -/
def groupEnabled (s : State) (g : GroupId) : Bool := !(groupAt s g).binding.isEmpty && !(groupAt s g).stopped

/-- The enabled group a lane is bound to. -/
def laneGroup (s : State) (l : Lane) : Option GroupId :=
  match boundGroup s l with
  | some g => if groupEnabled s g then some g else none
  | none => none

/-- Lanes of a group, rising. -/
def groupLanes (s : State) (g : GroupId) : List Lane :=
  (List.finRange 32).filter fun l => (groupAt s g).binding.any fun b => b.1 == l

/-- The spectral slice a lane is bound to. -/
def laneSpec (s : State) (g : GroupId) (l : Lane) : Nat :=
  match (groupAt s g).binding.find? fun b => b.1 == l with
  | some b => b.2
  | none => 0

/-- The lane of a group on a spectral slice. -/
def specLane (s : State) (g : GroupId) (k : Nat) : Option Lane :=
  match (groupAt s g).binding.find? fun b => b.2 == k with
  | some b => some b.1
  | none => none

/-- The lead lane: the lowest-numbered lane of the group in SYNC (R78). -/
def leadLane (s : State) (g : GroupId) : Option Lane :=
  (groupLanes s g).find? fun l => (laneAt s l).align == .sync

/-- The time lane: TIME_LANE while it is in SYNC, otherwise the lead lane (R102). -/
def timeLane (s : State) (g : GroupId) : Option Lane :=
  match (groupAt s g).timeLaneCfg with
  | some l =>
    if (groupLanes s g).contains l && (laneAt s l).align == .sync then some l else leadLane s g
  | none => leadLane s g

/-- Device account 64g + a. -/
def accountOf (g : GroupId) (a : Fin 64) : AccountId := ⟨64 * g.val + a.val, by omega⟩

/-- The group of a device account. -/
def acctGroup (a : AccountId) : GroupId := ⟨a.val / 64, by omega⟩

/-- Device account by numbers. -/
def accountNo (g a : Nat) : AccountId := Fin.ofNat 256 (64 * g + a)

/-! Epochs (R49). -/

/-- Frames in the period of the frame number. -/
def fnWrap : Nat := 4292608000

/-- Epochs in the period. -/
def epochWrap : Nat := 42926080

/-- The next frame number. -/
def fnNext (n : Nat) : Nat := (n + 1) % fnWrap

/-- Epoch of a frame. -/
def epochOf (fn : Nat) : Nat := fn / 100

/-- `k` epochs later. -/
def epochAdd (e k : Nat) : Nat := (e + k) % epochWrap

/-- Epochs from `a` on to `b`, going forward. -/
def epochDist (a b : Nat) : Nat := (b + epochWrap - a % epochWrap) % epochWrap

/-- Low 16 bits read as the nearest epoch at or after `cur` (R94, R98, R120). -/
def epochRead (cur low : Nat) : Nat := epochAdd cur ((low + 65536 - cur % 65536) % 65536)

/-- Epoch `b` lies at or after epoch `a` (within half the period). -/
def epochLe (a b : Nat) : Bool := epochDist a b < epochWrap / 2

/-- Signed distance from counter value `b` to `a`, in 1/64 tick, modulo the counter (R125). -/
def stampDiff (a b : Stamp) : Int := (a - b).toInt

/-- Counter value `a` has been reached at counter value `c`. -/
def stampReached (a c : Stamp) : Bool := 0 ≤ stampDiff c a

/-- `n` ticks as a counter value. -/
def ticks (n : Nat) : Stamp := BitVec.ofNat 54 (64 * n)

end Sys2Proof.Machine
end

