-- ==== Sys2Proof/Machine/Command.lean ====
section
/-!
DEFINITION. Machine/Command.lean: how a mailbox command is taken, checked, carried out and answered
(spec/17_mailboxes_and_commands.md, R460 to R468, R475), as shared operations of the command rows.
-/
namespace Sys2Proof.Machine

/-! Request fields (R460). -/

/-- FLAGS bit 0 ORDER. -/
def Request.order (r : Request) : Bool := r.flags.getLsbD 0
/-- FLAGS bit 1 FENCE_AFTER. -/
def Request.fenceAfter (r : Request) : Bool := r.flags.getLsbD 1
/-- FLAGS bit 2 NOTIFY. -/
def Request.notify (r : Request) : Bool := r.flags.getLsbD 2
/-- LENGTH as a number. -/
def Request.len (r : Request) : Nat := r.length.toNat
/-- A payload byte. -/
def Request.u8 (r : Request) (k : Nat) : Nat := leAt r.payload k 1
/-- A 2-byte payload field. -/
def Request.u16 (r : Request) (k : Nat) : Nat := leAt r.payload k 2
/-- A 4-byte payload field. -/
def Request.u32 (r : Request) (k : Nat) : Nat := leAt r.payload k 4
/-- An 8-byte payload field. -/
def Request.u64 (r : Request) (k : Nat) : Nat := leAt r.payload k 8
/-- SLICE_MASK names slice k. -/
def Request.inMask (r : Request) (k : Nat) : Bool := r.sliceMask.getLsbD k
/-- The slices SLICE_MASK names, rising. -/
def Request.maskSlices (r : Request) : List SliceId := (List.finRange 8).filter fun k => r.inMask k.val

/-! The opcode index (R475). -/

/-- Ports on which an opcode is permitted. -/
inductive Ports where
  | operator
  | maintainer
  | both
  deriving DecidableEq, Repr

/-- What the opcode index gives an opcode. -/
structure OpInfo where
  ports : Ports
  long : Bool := false
  deriving DecidableEq, Repr

/-- The opcode index. -/
def opInfo (op : Nat) : Option OpInfo :=
  if op = 0x0010 ∨ op = 0x0011 then some ⟨.operator, true⟩
  else if op = 0x0012 ∨ op = 0x0013 ∨ (0x0017 ≤ op ∧ op ≤ 0x0019) ∨ op = 0x0021 ∨ op = 0x0101 ∨ op = 0x0110 then some ⟨.operator, false⟩
  else if op = 0x0111 then some ⟨.both, false⟩
  else if op = 0x0120 then some ⟨.operator, false⟩
  else if op = 0x0130 then some ⟨.both, false⟩
  else if op = 0x0140 ∨ op = 0x0141 ∨ (0x0150 ≤ op ∧ op ≤ 0x0152) then some ⟨.operator, false⟩
  else if op = 0x0153 then some ⟨.both, false⟩
  else if 0x0200 ≤ op ∧ op ≤ 0x0204 then some ⟨.operator, false⟩
  else if op = 0x0205 then some ⟨.both, false⟩
  else if 0x0300 ≤ op ∧ op ≤ 0x0302 then some ⟨.operator, false⟩
  else if op = 0x0303 then some ⟨.both, false⟩
  else if 0x0304 ≤ op ∧ op ≤ 0x0307 then some ⟨.operator, false⟩
  else if 0x0400 ≤ op ∧ op ≤ 0x0404 then some ⟨.operator, false⟩
  else if op = 0x0500 ∨ op = 0x0501 ∨ op = 0x0506 then some ⟨.operator, false⟩
  else if op = 0x0507 then some ⟨.both, false⟩
  else if 0x0600 ≤ op ∧ op ≤ 0x0604 then some ⟨.operator, false⟩
  else if op = 0x0605 ∨ op = 0x0606 then some ⟨.both, false⟩
  else if op = 0x0607 then some ⟨.maintainer, false⟩
  else if 0x0700 ≤ op ∧ op ≤ 0x0703 then some ⟨.operator, false⟩
  else if op = 0x0800 then some ⟨.operator, true⟩
  else if op = 0x0801 then some ⟨.both, false⟩
  else if op = 0x0802 ∨ op = 0x0900 then some ⟨.operator, false⟩
  else if 0x0901 ≤ op ∧ op ≤ 0x0903 then some ⟨.both, false⟩
  else if op = 0x0A00 then some ⟨.operator, false⟩
  else if op = 0x0A01 then some ⟨.both, false⟩
  else if op = 0x0B00 ∨ op = 0x0B01 then some ⟨.maintainer, true⟩
  else if op = 0x0B02 then some ⟨.both, false⟩
  else if op = 0x0B03 then some ⟨.maintainer, false⟩
  else if op = 0x0B10 then some ⟨.both, true⟩
  else if op = 0x0B11 then some ⟨.both, false⟩
  else if op = 0x0B12 then some ⟨.operator, false⟩
  else if op = 0x0C00 then some ⟨.operator, true⟩
  else if op = 0x0C01 then some ⟨.operator, false⟩
  else if op = 0x0C02 then some ⟨.both, false⟩
  else if op = 0x0C03 then some ⟨.operator, true⟩
  else none

/-- The port of arrival permits the opcode (R468): mailboxes 0 to 7 are the operator's, mailbox 8 the maintainer's. -/
def permitted (m : MboxId) (i : OpInfo) : Bool :=
  match i.ports with
  | .both => true
  | .operator => m.val < 8
  | .maintainer => m.val == 8

/-! Checks and outcomes. -/

/-- One check of a command: the status it returns where it fails. -/
structure Check where
  fails : Bool
  status : Status
  deriving DecidableEq, Repr

/-- The status of the first failing check. -/
def firstFailing : List Check → Option Status
  | [] => none
  | c :: t => if c.fails then some c.status else firstFailing t

/-- What a command's own execution leaves: the state, the status and the response payload. -/
structure Done where
  st : State
  status : Status := .ok
  payload : List Byte := []

/-- SEC[31:0] and NS of the time counter (R460). -/
def stampResponse (s : State) (st : Status) (seq : Word) (payload : List Byte) : Response :=
  { status := st, seq := seq, payload := payload,
    doneNs := BitVec.ofNat 32 s.time.ns, doneSec := s.time.sec.setWidth 32 }

/-! The service port (R469, R500). -/

/-- Code of a status (R467). -/
def Status.code : Status → Nat
  | .ok => 0
  | .busy => 1
  | .badOpcode => 2
  | .badLength => 3
  | .notPermitted => 4
  | .notStopped => 5
  | .outOfRange => 6
  | .conflict => 7
  | .timeout => 8
  | .aborted => 9
  | .deferred => 10

/-- The bytes of a response: header and payload (R460). -/
def responseBytes (r : Response) : List Byte :=
  toLe 2 r.status.code ++ toLe 2 r.payload.length ++ toLe 4 r.seq.toNat ++ toLe 4 r.doneNs.toNat ++ toLe 4 r.doneSec.toNat ++ r.payload

/-- The service port's address: 02-C7 and bits [31:0] of the serial. -/
def serviceAddr (s : State) : BitVec 48 := 0x02C7#16 ++ s.serial.setWidth 32

/-- A response goes to the source address of its request in a frame of EtherType 0x88B5. -/
def serviceSend (to_ : BitVec 48) (r : Response) (s : State) : State :=
  { s with env := { s.env with serviceOut := vecBytes to_ ++ vecBytes (serviceAddr s) ++ [0x88, 0xB5] ++ responseBytes r } }

/-- What mailbox 8 answers leaves on the service port. -/
def serviceAnswer (m : MboxId) (r : Response) (s : State) : State :=
  if m.val = 8 then serviceSend s.mail.serviceFrom r s else s

/-- The deputy: the anchor-capable slice other than the anchor, while it is in DEPUTY and a path joins them. -/
def deputyReached (s : State) : Option Half :=
  match anchorSlice s with
  | some h =>
    let d : Half := if h = 0 then 1 else 0
    if (capAt s d).st == .deputy && peerPath s then some d else none
  | none => none

/-- The anchor's copy of an effect and response to the deputy's mirror, before the response is written (R33). -/
def mirrorCopy (m : MboxId) (r : Response) (s : State) : State :=
  match anchorSlice s, deputyReached s with
  | some h, some d =>
    modCap (modBox s m fun b => { b with mirrorSeq := r.seq, mirrorResp := some r, mirrorNo := b.takenNo }) d
      fun c => { c with genSeen := (capAt s h).genSeen }
  | _, _ => s

/-! The slices that a command names (R31, R42). -/

/-- Opcodes that act on the slices of their mask. -/
def maskScoped (r : Request) : Bool :=
  let op := r.opcode.toNat
  ((op == 0x0012 || op == 0x0013) && (r.u8 0 == 1 || r.u8 0 == 2 || r.u8 0 == 3)) || op == 0x0200 ||
    (decide (0x0301 ≤ op) && decide (op ≤ 0x0306)) || (decide (0x0400 ≤ op) && decide (op ≤ 0x0401)) || op == 0x0403 ||
    op == 0x0C00 || op == 0x0C01

/-- Opcodes carried out by the management processor alone, and those that name the owner of an HBM channel, which answer for
its reachability themselves. -/
def centralOp (op : Nat) : Bool :=
  (decide (0x0017 ≤ op) && decide (op ≤ 0x0019)) || op == 0x0021 || (decide (0x0800 ≤ op) && decide (op ≤ 0x0802)) ||
    (decide (0x0B00 ≤ op) && decide (op ≤ 0x0B12)) || op == 0x0C02 || op == 0x0C03

/-- The slice of the one port or lane that a command names. -/
def targetSlice (r : Request) : Option Nat :=
  let op := r.opcode.toNat
  if (0x0201 ≤ op ∧ op ≤ 0x0205) ∨ op = 0x0402 ∨ op = 0x0500 then some (r.u8 0 / 4)
  else if op = 0x0501 ∧ r.u8 0 < 3 then some (r.u16 2 / 4)
  else if 0x0900 ≤ op ∧ op ≤ 0x0903 then
    (match r.u8 0 with
     | 0 | 1 => some (r.u8 1 / 4)
     | 2 => some (r.u8 1 / 2)
     | 3 => some (r.u8 1)
     | _ => some 8)
  else none

/-- The slices on which a command takes its effect: those of its mask, that of the port or lane it names, none for one of the
management processor alone, and every present slice otherwise. -/
def takesCommand (s : State) (r : Request) (k : Nat) : Bool :=
  if maskScoped r then r.inMask k
  else if centralOp r.opcode.toNat then false
  else match targetSlice r with
    | some t => t == k
    | none => present s k

/-- The slices that take the effect of a command, and the anchor, record its generation (R42). -/
def bumpGen (r : Request) (s : State) : State :=
  match anchorSlice s with
  | some h =>
    let takes := fun k : Fin 8 => takesCommand s r k.val && path s h.val k.val
    let gen := Vector.ofFn fun k : Fin 8 => s.bridge.cfgGen[k] + (if takes k then 1 else 0)
    modCap { s with bridge := { s.bridge with cfgGen := gen } } h fun c =>
      { c with genSeen := Vector.ofFn fun k : Fin 8 => if takes k then gen[k] else c.genSeen[k] }
  | none => s

/-- Write the final response of mailbox m: every byte before MBOX_STATE changes and before the interrupt that announces it
(R462, R481). -/
def respond (m : MboxId) (st : Status) (payload : List Byte) (s : State) : State :=
  let b := boxAt s m
  let r := stampResponse s st b.req.seq payload
  let s1 := mirrorCopy m r s
  let s2 := serviceAnswer m r (modBox s1 m fun b => { b with resp := r, st := .done })
  let s3 := { s2 with mail := { s2.mail with
      longs := s2.mail.longs.filter fun c => c.mbox != m,
      cur := if s2.mail.cur == some m then none else s2.mail.cur } }
  if b.req.notify && decide (m.val < 8) then causeVec (Fin.ofNat 64 m.val) false s3 else s3

/-- A long command of mailbox m now waits for `k` (R464); it takes no further execution. -/
def setLong (m : MboxId) (k : LongKind) (s : State) : State :=
  { s with mail := { s.mail with
      longs := s.mail.longs.map fun c => if c.mbox == m then { c with kind := k } else c,
      cur := if s.mail.cur == some m then none else s.mail.cur } }

/-- The long command that mailbox m runs. -/
def longOf (s : State) (m : MboxId) : Option LongKind :=
  match s.mail.longs.find? fun c => c.mbox == m with
  | some c => some c.kind
  | none => none

/-- A command's own execution has ended: with FENCE_AFTER and OK a FENCE runs as part of it, its effect and response standing in the
mirror meanwhile, otherwise the final response is written (R33, R464). -/
def finish (m : MboxId) (d : Done) : State :=
  let q := (boxAt d.st m).req
  let s1 := if d.status = .ok then bumpGen q d.st else d.st
  if d.status = .ok && q.fenceAfter then setLong m (.fence d.payload) (mirrorCopy m (stampResponse s1 .ok q.seq d.payload) s1)
  else respond m d.status d.payload s1

/-- The request being executed, when its opcode is `op`. -/
def current (op : Nat) (s : State) : Option (MboxId × Request) :=
  match s.mail.cur with
  | some m => if (boxAt s m).req.opcode.toNat = op then some (m, (boxAt s m).req) else none
  | none => none

/-- A command row: the request taken with this opcode runs its checks in order; the first that fails is the status and
changes nothing, otherwise the command takes its effect (R465).  With no such request taken, nothing happens (log 6). -/
def runCommand (op : Nat) (checks : Request → State → List Check) (apply : Request → State → Done) (s : State) : State :=
  match current op s with
  | some (m, r) =>
    match firstFailing (checks r s) with
    | some st => finish m { st := s, status := st }
    | none => finish m (apply r s)
  | none => s

/-- A long command row: where every check passes the command goes on in the background as `start` says. -/
def runLong (op : Nat) (checks : Request → State → List Check) (start : MboxId → Request → State → State) (s : State) : State :=
  match current op s with
  | some (m, r) =>
    match firstFailing (checks r s) with
    | some st => finish m { st := s, status := st }
    | none => start m r s
  | none => s

/-! Checks that many commands share. -/

/-- LENGTH is not `n`: BAD_LENGTH. -/
def ckLen (r : Request) (n : Nat) : Check := ⟨r.len != n, .badLength⟩

/-- A field or reserved bit out of range. -/
def ckRange (b : Bool) : Check := ⟨b, .outOfRange⟩

/-- Reserved payload bytes that must be zero: `n` bytes at `k` (R9, R465). -/
def resv (r : Request) (k n : Nat) : Bool := leAt r.payload k n != 0

/-- The mask is zero or names an absent slice (slice-scoped commands). -/
def maskBad (r : Request) (s : State) : Bool :=
  r.sliceMask == 0 || (List.finRange 8).any fun k => r.inMask k.val && !present s k.val

/-- The response of a command with no payload. -/
def okDone (s : State) : Done := { st := s }

end Sys2Proof.Machine
end

