-- ==== Sys2Proof/Machine/BridgeSend.lean ====
section
/-!
DEFINITION. Machine/BridgeSend.lean: how a frame leaves a slice over the bridges: its flits, their sequence numbers and the retry
buffer of a port (spec/02_package_slices_anchor.md, R23 to R26).
-/
namespace Sys2Proof.Machine

/-- Bytes of a flit (R23). -/
def flitBytes : Nat := 64

/-- The CRC-32 of a flit (R23, log 135). -/
def flitCrc (b : List Byte) : Word := crc32 0xFFFFFFFF#32 (bitsOfBytes b)

/-- A flit as received checks: it has 64 bytes and its CRC is theirs. -/
def flitGood (f : Flit) : Bool := f.bytes.length == flitBytes && f.crc == flitCrc f.bytes

/-- Flits that a retry buffer holds: 2 us of a link of 1.6 Tbit/s (R24). -/
def retryFlits : Nat := 6250

/-- The port that a slice sends on towards a destination: the alternate while it is active, otherwise the primary. -/
def routePort (s : State) (k d : SliceId) : Option BridgePort :=
  let r := s.bridge.routes[k][d]
  if r.altActive then r.alternate else r.primary

/-- Flits that wait are sent as far as the retry buffer has room. -/
def fillRetry (now : Nat) (b : Bridge) : Bridge :=
  let room := retryFlits - b.unacked.length
  { b with unacked := b.unacked ++ (b.sendQ.take room).map fun f => { flit := f, sentAt := now }, sendQ := b.sendQ.drop room }

/-- Flits for one destination are sent on the port of its route, or wait for room; `front` puts them ahead of newer ones. -/
def sendFlits (front : Bool) (k d : SliceId) (l : List Flit) (s : State) : State :=
  match routePort s k d with
  | some p => modBridge s k p fun b => fillRetry s.now { b with sendQ := if front then l ++ b.sendQ else b.sendQ ++ l }
  | none => s

/-- Key of the sequence of a source at the sender (R26). -/
def txKey (src dst : SliceId) : Nat := src.val * 8 + dst.val

/-- The flits of a packet: 64 bytes each, the last one padded (log 135). -/
def cutFlits (src dst : SliceId) (seq : BitVec 16) (pkt : Nat) (b : List Byte) : List Flit :=
  let n := max 1 (ceilDiv b.length flitBytes)
  (List.range n).map fun i =>
    let part := (b.drop (flitBytes * i)).take flitBytes
    let body := part ++ List.replicate (flitBytes - part.length) 0
    { src := src, dst := dst, seq := seq + BitVec.ofNat 16 i, hops := 1, bytes := body, crc := flitCrc body, pkt := pkt,
      first := i == 0, last := i + 1 == n }

/-- A frame leaves slice `k` for slice `d`: its flits are sent, and it is in transit until the last of them is delivered. -/
def bridgeSend (k d : SliceId) (b : List Byte) (c : Carry) (s : State) : State :=
  let key := txKey k d
  let pkt := sparseGet 0 s.bridge.txPkt key
  let l := cutFlits k d (sparseGet 0 s.bridge.txSeq key) pkt b
  let s1 := { s with bridge := { s.bridge with
    txPkt := sparseSet 0 s.bridge.txPkt key (pkt + 1),
    txSeq := sparseMod 0 s.bridge.txSeq key fun q => q + BitVec.ofNat 16 l.length,
    transit := s.bridge.transit ++ [{ src := k, dst := d, pkt := pkt, carry := c }] } }
  sendFlits false k d l s1

/-- A working path with a route in force joins two slices. -/
def bridgeOpen (s : State) (k d : SliceId) : Bool := path s k.val d.val && (routePort s k d).isSome

end Sys2Proof.Machine
end

