-- ==== Sys2Proof/Machine/Shaper.lean ====
section
/-!
DEFINITION. Machine/Shaper.lean: rate codes, token buckets and deficit round robin, the shared arithmetic of
spec/11_scheduling_shaping_policing.md (R317, R319 to R324).
-/
namespace Sys2Proof.Machine

/-- Token units in a byte: a rate code accrues M * 2^E units in a trunk tick (R320: M * 100,000 * 2^(E-10) bit/s). -/
def byteUnits : Nat := 65536000

/-- Units that a rate code accrues in a trunk tick. -/
def rateUnits (code : Nat) : Nat := code % 2048 * 2 ^ (code / 2048)

/-- A valid rate code other than 0: M from 1,024 to 2,047 and a rate from 1 Mbit/s to 819.2 Gbit/s (R320). -/
def rateValid (code : Nat) : Bool :=
  decide (1024 ≤ code % 2048) && decide (10240 ≤ rateUnits code) && decide (rateUnits code ≤ 8388608000) && decide (code < 65536)

/-- Tokens accrue continuously at the rate, capped at BURST (R321). -/
def accrue (now : Nat) (sh : Shaper) : Shaper :=
  if sh.rate = 0 then sh
  else { sh with
    tokens := min (sh.burst * byteUnits : Nat) (sh.tokens + (rateUnits sh.rate * (now - sh.at_) : Nat)),
    at_ := now }

/-- The shaper permits: unshaped, or no wheel entry waits and its tokens are 0 or more (R321, R322). -/
def permits (now : Nat) (sh : Shaper) : Bool := sh.rate == 0 || (sh.wheel.isNone && decide (0 ≤ (accrue now sh).tokens))

/-- Span of the fine wheel: 4,096 slots of 5 ns, in trunk ticks (R322). -/
def fineSpan : Nat := 16384

/-- The eligible time of a bucket in debt: now + (-tokens) / rate, rounded up to a multiple of 5 ns (R322). -/
def eligibleTime (now : Nat) (sh : Shaper) : Nat := ceilDiv (now + ceilDiv (-sh.tokens).toNat (rateUnits sh.rate)) 4 * 4

/-- Enter the shaper in its wheel when it does not permit (R322). -/
def enterWheel (now : Nat) (sh : Shaper) : Shaper :=
  if sh.rate = 0 ∨ 0 ≤ sh.tokens then { sh with wheel := none }
  else { sh with wheel := some (eligibleTime now sh, decide (now + fineSpan < eligibleTime now sh)) }

/-- A selection subtracts L at once from the shaper (R321). -/
def charge (now L : Nat) (sh : Shaper) : Shaper :=
  if sh.rate = 0 then sh
  else
    let a := accrue now sh
    enterWheel now { a with tokens := a.tokens - (L * byteUnits : Nat) }

/-- A fog refunds L, capped at BURST (R323). -/
def refund (now L : Nat) (sh : Shaper) : Shaper :=
  if sh.rate = 0 then sh
  else
    let a := accrue now sh
    let b := { a with tokens := min (a.burst * byteUnits : Nat) (a.tokens + (L * byteUnits : Nat)) }
    if b.wheel.isSome then enterWheel now b else b

/-- SCHED_SET with SET_SHAPER: new rate and burst, tokens to BURST or 0, none where it is unshaped, the wheel entry
recomputed (R321, R324). -/
def setShaper (now rate burst : Nat) (toBurst : Bool) : Shaper :=
  enterWheel now { rate := rate, burst := burst, tokens := if toBurst && rate != 0 then (burst * byteUnits : Nat) else 0, at_ := now, wheel := none }

/-- The eligible time has come round in the fine wheel (R322). -/
def wheelDue (now : Nat) (sh : Shaper) : Bool :=
  match sh.wheel with
  | some (t, o) => !o && decide (t ≤ now)
  | none => false

/-- At the eligible time the shaper permits again, with the tokens accrued up to then. -/
def wheelOut (now : Nat) (sh : Shaper) : Shaper :=
  if wheelDue now sh then { accrue now sh with wheel := none } else sh

/-- An overflow entry moves to the fine wheel when its overflow slot comes round. -/
def wheelMove (now : Nat) (sh : Shaper) : Shaper :=
  match sh.wheel with
  | some (t, true) => if t ≤ now + fineSpan then { sh with wheel := some (t, false) } else sh
  | _ => sh

/-- Counted length with an overhead, never below 1 (R319). -/
def counted (bytes : Nat) (overhead : Int) : Nat := max 1 ((bytes : Int) + overhead).toNat

/-! Deficit-weighted round robin (R317). -/

/-- A member of a round robin as its selection sees it. -/
structure Member where
  id : Nat
  eligible : Bool
  empty : Bool
  deficit : Int
  quantum : Nat
  /-- Counted length of its head frame. -/
  need : Nat
  deriving DecidableEq, Repr


/-- The members in turn order starting with the one whose turn it is. -/
def turnOrder (turn : Nat) (ms : List Member) : List Member :=
  ms.filter (fun m => turn ≤ m.id) ++ ms.filter (fun m => m.id < turn)

/-- Rounds of turns: the member under way sends while its deficit covers its head; a member whose turn comes gets its
quantum; an empty member's deficit becomes 0. -/
def drrRounds : Nat → List Member → Option (Nat × List Member)
  | 0, _ => none
  | fuel + 1, ms =>
    match ms with
    | [] => none
    | m :: t =>
      if m.eligible && decide ((m.need : Int) ≤ m.deficit) then some (m.id, m :: t)
      else
        let m' := { m with deficit := if m.empty then 0 else m.deficit }
        match t ++ [m'] with
        | [] => none
        | n :: u => drrRounds fuel ({ n with deficit := if n.eligible then n.deficit + n.quantum else n.deficit } :: u)

/-- The next member by deficit-weighted round robin: the deficit of the one chosen is lowered by L (R317). -/
def drrNext (turn : Nat) (ms : List Member) : Option (Nat × List (Nat × Int)) :=
  if ms.any fun m => m.eligible then
    match drrRounds (ms.length * 170 + ms.length) (turnOrder turn ms) with
    | some (i, l) => some (i, l.map fun m => (m.id, if m.id = i then m.deficit - m.need else m.deficit))
    | none => none
  else none

end Sys2Proof.Machine
end

