-- ==== Sys2Proof/Machine/Buffer.lean ====
section
/-!
DEFINITION. Machine/Buffer.lean: the buffer manager's operations (spec/10_buffer_pools.md, R281 to R298): allocation,
FREE, HAND_OFF, REF_ADD, REF_DROP with their checks, thresholds and back-pressure.
-/
namespace Sys2Proof.Machine

/-- Cells of a buffer of a pool (R281). -/
def poolCells (p : Nat) : Nat := [1, 4, 8, 16, 40].getD p 1

/-- Bytes a buffer of a pool holds. -/
def poolBytes (p : Nat) : Nat := 256 * poolCells p

/-- Owner units (R284). -/
def unitTrunkRx : Nat := 8
def unitTrunkTx : Nat := 9
def unitFabricRx : Nat := 10
def unitFabricTx : Nat := 11
def unitSpill : Nat := 12
def unitRecirc : Nat := 13
def unitMgmt : Nat := 14
def unitReplication : Nat := 15
def unitMirror : Nat := 16

/-- Owner ID: slice in bits [7:5], unit in bits [4:0] (R284). -/
def ownerId (slice unit : Nat) : Nat := 32 * slice + unit

/-- Units 14 to 16 are privileged. -/
def privileged (owner : Nat) : Bool := decide (14 ≤ owner % 32) && decide (owner % 32 ≤ 16)

/-- Buffer pointer: SLICE [31:29], POOL [28:26], CELL [16:0] (R289). -/
def bufPtr (slice pool cell : Nat) : Word := BitVec.ofNat 32 (slice * 2 ^ 29 + pool * 2 ^ 26 + cell)
def ptrSlice (p : Word) : Nat := fld p 29 3
def ptrPool (p : Word) : Nat := fld p 26 3
def ptrResv (p : Word) : Nat := fld p 17 9
def ptrCell (p : Word) : Nat := fld p 0 17
/-- Key of a buffer in its slice's bitmap. -/
def ptrKey (p : Word) : Nat := ptrPool p * 2 ^ 26 + ptrCell p
def keyPool (k : Nat) : Nat := k / 2 ^ 26
def keyCell (k : Nat) : Nat := k % 2 ^ 26

def poolAt (b : BufSt) (p : Nat) : PoolSt := if h : p < 5 then b.pools[p] else ⟨0, 0, 0, 0, 0⟩
def ownerSt (b : BufSt) (u : Nat) : OwnerSt := if h : u < 17 then b.owners[u] else {}
def quotaOf (b : BufSt) (u p : Nat) : Nat := if h : p < 5 then (ownerSt b u).quota[p] else 0

/-- Buffers of a pool that an owner holds. -/
def heldBy (b : BufSt) (owner p : Nat) : Nat :=
  (b.bitmap.filter fun e => keyPool e.1 == p && (match e.2 with | some x => x.owner == owner | none => false)).length

/-- Buffers allocated in a pool. -/
def heldIn (b : BufSt) (p : Nat) : Nat := (b.bitmap.filter fun e => keyPool e.1 == p).length

/-- Cells of a slice's SRAM that an owner holds. -/
def usedBy (b : BufSt) (owner : Nat) : Nat :=
  b.bitmap.foldl (fun n e => match e.2 with | some x => if x.owner = owner then n + poolCells (keyPool e.1) else n | none => n) 0

/-- Cells an owner holds over all pools, in its own slice's SRAM and in those of other slices (R291, R294). -/
def usedAll (s : State) (owner : Nat) : Nat := (List.finRange 8).foldl (fun n m => n + usedBy (bufAt s m) owner) 0

/-- Cells an owner holds for one receive priority (R295). -/
def usedPrio (b : BufSt) (owner prio : Nat) : Nat :=
  b.bitmap.foldl (fun n e => match e.2 with
    | some x => if x.owner = owner ∧ x.prio = prio then n + poolCells (keyPool e.1) else n | none => n) 0

/-- Quotas of a pool over every unit. -/
def quotaSum (b : BufSt) (p : Nat) : Nat := (List.range 17).foldl (fun n u => n + quotaOf b u p) 0

/-- Free shared buffers of a pool: what neither stands in a quota nor is held beyond one (R286). -/
def sharedFree (k : Nat) (b : BufSt) (p : Nat) : Nat :=
  (poolAt b p).buffers - quotaSum b p -
    (heldIn b p - (List.range 17).foldl (fun n u => n + min (heldBy b (ownerId k u) p) (quotaOf b u p)) 0)

/-- Free buffers of a pool, quota and shared. -/
def freeIn (b : BufSt) (p : Nat) : Nat := (poolAt b p).buffers - heldIn b p

/-- Why an allocation was not made. -/
inductive AllocFail where
  | stopped
  | empty
  | ownerDrop
  | prioDrop
  | quotaFull
  deriving DecidableEq, Repr

/-- An allocation request as the buffer manager takes it. -/
structure AllocArgs where
  owner : Nat
  prio : Nat
  bytes : Nat
  /-- Reference count of a privileged buffer, 0 for a normal one. -/
  count : Nat
  /-- Only the owner's quota may be used (R298). -/
  quotaOnly : Bool := false
  deriving DecidableEq, Repr

/-- A pool can serve the request: from the owner's quota, or from the shared part under DROP_B (R286, R296, R298). -/
def poolServes (k : Nat) (b : BufSt) (a : AllocArgs) (p : Nat) : Bool :=
  let u := a.owner % 32
  decide (a.bytes ≤ poolBytes p) && decide (0 < freeIn b p) &&
    (decide (heldBy b a.owner p < quotaOf b u p) ||
      (!a.quotaOnly && decide (0 < sharedFree k b p) &&
        (privileged a.owner || u == unitSpill || decide ((poolAt b p).drop < sharedFree k b p))))

/-- The smallest pool whose buffer holds the frame (R282). -/
def firstChoice (bytes : Nat) : Option Nat := (List.range 5).find? fun p => decide (bytes ≤ poolBytes p)

/-- The pool that serves a request which meets no other, smallest first (R282). -/
def chosenPool (k : Nat) (b : BufSt) (a : AllocArgs) : Option Nat := (List.range 5).find? (poolServes k b a)

/-- The lowest free buffer of a pool. -/
def freeSlot (b : BufSt) (p : Nat) : Nat → Nat → Nat
  | 0, i => i
  | fuel + 1, i =>
    match sparseGet none b.bitmap (p * 2 ^ 26 + (poolAt b p).base + i * poolCells p) with
    | some _ => freeSlot b p fuel (i + 1)
    | none => i

/-- Key of the lowest free buffer of a pool. -/
def freeKey (b : BufSt) (p : Nat) : Nat := p * 2 ^ 26 + (poolAt b p).base + freeSlot b p (b.bitmap.length + 1) 0 * poolCells p

/-- A slice's bitmap with the lowest free buffer of a pool given to a request. -/
def withGrant (b : BufSt) (p : Nat) (a : AllocArgs) : BufSt :=
  { b with bitmap := sparseSet none b.bitmap (freeKey b p) (some { owner := a.owner, count := a.count, prio := a.prio }) }

/-! The arbiter (R285). -/

/-- Units that allocate (R284). -/
def allocates (unit : Nat) : Bool :=
  decide (unit < 4) || unit == unitTrunkRx || unit == unitFabricRx || unit == unitSpill || unit == unitMgmt || unit == unitReplication

/-- A request names an owner that allocates, a frame that a buffer can hold, and a count where the owner is privileged. -/
def allocReqOk (r : AllocReq) : Bool :=
  decide (r.owner < 256) && allocates (r.owner % 32) && decide (r.bytes ≤ 10240) && decide (0 < r.bytes) &&
    (if privileged r.owner then decide (1 ≤ r.count) && decide (r.count ≤ 255) else true)

/-- A BUFFER_ALLOC row's request. -/
def allocArgs (r : AllocReq) : AllocArgs :=
  { owner := r.owner, prio := r.prio % 8, bytes := r.bytes, count := if privileged r.owner then r.count else 0 }

/-- The requests of this cycle that reach the buffer manager of a slice after the one it serves: the BUFFER_ALLOC rows that
wait (log 42). -/
def waitingAllocs (k : SliceId) (s : State) : List AllocArgs :=
  s.pending.filterMap fun c => match c with
    | .bufferAlloc m r => if m = k ∧ allocReqOk r then some (allocArgs r) else none
    | _ => none

/-- Place of an owner in the rotation that begins at the pointer. -/
def turnOf (ptr owner : Nat) : Nat := (owner + 256 - ptr % 256) % 256

/-- Put a request in the arbiter's order; requests of one owner keep theirs. -/
def insertTurn (ptr : Nat) (x : Bool × AllocArgs) : List (Bool × AllocArgs) → List (Bool × AllocArgs)
  | [] => [x]
  | y :: t => if turnOf ptr x.2.owner < turnOf ptr y.2.owner then x :: y :: t else y :: insertTurn ptr x t

/-- The requests that a pool can give a buffer when they are taken in turn. -/
def grantTurns (k p : Nat) : List (Bool × AllocArgs) → BufSt → List (Bool × AllocArgs)
  | [], _ => []
  | x :: t, b => if poolServes k b x.2 p then x :: grantTurns k p t (withGrant b p x.2) else grantTurns k p t b

/-- Who is given a buffer of a pool: the request served, marked `true`, and the others of the cycle that want one. -/
def poolWinners (k : Nat) (b : BufSt) (a : AllocArgs) (others : List AllocArgs) (p : Nat) : List (Bool × AllocArgs) :=
  let want := (true, a) :: (others.filter fun o => chosenPool k b o == some p).map fun o => (false, o)
  grantTurns k p (want.foldl (fun l x => insertTurn b.rr x l) []) b

/-- A slice's bitmap without the buffers of a pool granted in this cycle. -/
def beforeCycle (b : BufSt) (p : Nat) : BufSt :=
  { b with bitmap := b.bitmap.filter fun e => !(keyPool e.1 == p && b.granted.contains e.1) }

/-- The pool that serves a request, smallest first, and the pools it lost to other requests of its cycle (R282, R285). -/
def arbitrate (k : Nat) (b : BufSt) (a : AllocArgs) (others : List AllocArgs) : List Nat → Option Nat × List Nat
  | [] => (none, [])
  | p :: t =>
    let rest := arbitrate k b a others t
    if poolServes k b a p then
      if (poolWinners k b a others p).any fun x => x.1 then (some p, []) else (rest.1, p :: rest.2)
    else if poolServes k (beforeCycle b p) a p then (rest.1, p :: rest.2)
    else rest

/-- Owners that won a buffer of a pool in this cycle. -/
def winnersOf (k : Nat) (b : BufSt) (a : AllocArgs) (others : List AllocArgs) (p : Nat) : List Nat :=
  ((b.granted.filter fun n => keyPool n == p).filterMap fun n => (sparseGet none b.bitmap n).map fun e => e.owner) ++
    (poolWinners k b a others p).map fun x => x.2.owner

/-- The pointer past the last winner in the rotation. -/
def pointerAfter (ptr : Nat) (winners : List Nat) : Nat :=
  (ptr + winners.foldl (fun n o => max n (turnOf ptr o + 1)) 0) % 256

/-- A request of a later cycle finds no grant of its own cycle, and the pointer as the last contest left it. -/
def newCycle (now : Nat) (b : BufSt) : BufSt :=
  if b.cycAt = now then b else { b with cycAt := now, granted := [], rr := b.rrNext.getD b.rr, rrNext := none }

/-- The receive side of a local port: HOST_RX 0 to 3. -/
def isHostRx (owner : Nat) : Bool := decide (owner % 32 < 4)

/-! Back-pressure. -/

/-- Back-pressure of a pool: at or below PAUSE_B; it ends above 2 x PAUSE_B (R296, R297). -/
def poolPressure (k : Nat) (b : BufSt) (p : Fin 5) : Bool :=
  decide (sharedFree k b p.val ≤ b.pools[p].pause) || (b.poolPaused[p] && decide (sharedFree k b p.val ≤ 2 * b.pools[p].pause))

/-- Some pool of the slice asserts back-pressure. -/
def anyPoolPaused (b : BufSt) : Bool := (List.finRange 5).any fun p => b.poolPaused[p]

/-- Owner back-pressure with its hysteresis (R294, R297). -/
def ownerPressure (s : State) (k : SliceId) (u : Fin 17) : Bool :=
  let o := (bufAt s k).owners[u]
  let n := usedAll s (ownerId k.val u.val)
  decide (o.pause ≤ n) || (o.paused && decide (o.pause ≤ n + o.hyst))

/-- XOFF of one priority of a HOST_RX with its hysteresis (R295, R297); PAUSE_P 0 disables it. -/
def prioPressure (b : BufSt) (owner j p : Nat) (t : PrioTh) : Bool :=
  let n := usedPrio b owner p
  t.pause != 0 && (decide (t.pause ≤ n) || (t.xoff && decide (t.pause ≤ n + (ownerSt b j).hyst)))

/-- Bits to a byte, bit 0 first. -/
def byteOfBits (l : List Bool) : Byte := BitVec.ofNat 8 (l.foldr (fun b n => b.toNat + 2 * n) 0)

/-- XOFF indication of HOST_RX j to its port: every priority on owner or pool back-pressure (R297). -/
def xoffByte (b : BufSt) (j : Fin 4) : Byte :=
  if (ownerSt b j.val).paused || anyPoolPaused b then 0xFF
  else byteOfBits ((List.finRange 8).map fun p => (b.prios[j])[p].xoff)

/-- Priorities that the port's mode pauses on while TX_ENABLE is 1: all of them as one in PAUSE, those of PFC_MASK in PFC (R236). -/
def pauseWanted (x : PortSt) : Byte :=
  if !x.txEnable then 0 else if x.fcMode = 1 then (if x.xoff = 0 then 0 else 0xFF) else if x.fcMode = 2 then x.xoff &&& x.pfcMask else 0

/-- An owner other than HOST_RX and FABRIC_RX: its back-pressure sets OWNER_PAUSE and acts on nothing else (R297). -/
def pauseFlagged (u : Nat) : Bool := !isHostRx u && u != unitFabricRx

/-- Recompute every back-pressure of a slice, the XOFF its ports see, POOL_WARN and OWNER_PAUSE (R294 to R297). -/
def refreshPressure (k : SliceId) (s : State) : State :=
  let b := bufAt s k
  let b1 := { b with
    poolPaused := Vector.ofFn fun p : Fin 5 => poolPressure k.val b p,
    owners := Vector.ofFn fun u : Fin 17 => { b.owners[u] with paused := ownerPressure s k u },
    prios := Vector.ofFn fun j : Fin 4 => Vector.ofFn fun p : Fin 8 =>
      { (b.prios[j])[p] with xoff := prioPressure b (ownerId k.val j.val) j.val p.val (b.prios[j])[p] } }
  let rises := (List.finRange 17).any fun u => pauseFlagged u.val && b1.owners[u].paused && !b.owners[u].paused
  let low := (List.range 5).any fun p => decide (sharedFree k.val b p ≤ (poolAt b p).warn)
  whenB rises (setFlag (aBufFlags k) 2) <| whenB low (setFlag (aBufFlags k) 0) <|
  foldS (List.finRange 4) (fun j st =>
    let port : PortId := ⟨4 * k.val + j.val, by omega⟩
    let x := xoffByte b1 j
    if (portAt st port).xoff = x then st
    else modPort st port fun q => { q with
      xoff := x, xoffAt := some (if pauseWanted q = q.xoffSent then st.now else q.xoffAt.getD st.now),
      idleSince := if pauseWanted q = 0 then q.idleSince else st.now })
    (modBuf s k fun _ => b1)

/-- Flags and event of an owner's usage after an allocation (R294, R297). -/
def warnFlags (k : SliceId) (owner : Nat) (s : State) : State :=
  let o := ownerSt (bufAt s k) (owner % 32)
  let n := usedAll s owner
  let s1 := whenB (decide (o.warn ≤ n)) (fun st =>
    logEvent 0x0302 .warning (BitVec.ofNat 8 k.val) ([BitVec.ofNat 8 owner, 0, 0, 0] ++ toLe 4 n) (setFlag (aBufFlags k) 1 st)) s
  whenB (decide (o.pause ≤ n) && pauseFlagged (owner % 32)) (setFlag (aBufFlags k) 2) s1

/-- Record a buffer in the bitmap. -/
def putBuf (k : SliceId) (key : Nat) (e : Option BufEntry) (s : State) : State :=
  modBuf s k fun b => { b with bitmap := sparseSet none b.bitmap key e }

/-- The losses of a request in the arbiter: counted, and the pointer moves past the last winner after the cycle (R285). -/
def noteLosses (k : SliceId) (a : AllocArgs) (others : List AllocArgs) (lost : List Nat) (s : State) : State :=
  foldS lost (fun p st => count1 (aBuf k 0x50) (modBuf st k fun b =>
    { b with rrNext := some (pointerAfter b.rr (winnersOf k.val b a others p)) })) s

/-- A buffer of a pool is given to a request. -/
def grantBuf (k : SliceId) (a : AllocArgs) (p : Nat) (s : State) : State :=
  let key := freeKey (bufAt s k) p
  let s1 := count1 (aBuf k (8 * p)) (modBuf s k fun b => { withGrant b p a with granted := b.granted ++ [key] })
  let s2 := match firstChoice a.bytes with
    | some q => whenB (decide (q < p)) (count1 (aBuf k (0x28 + 8 * q))) s1
    | none => s1
  refreshPressure k (warnFlags k a.owner s2)

/-- An allocation (R282, R285, R286, R294 to R296, R298): the pointer, or why not. -/
def allocBuf (k : SliceId) (a : AllocArgs) (s : State) : Except AllocFail Word × State :=
  if (bufAt s k).stopped then (.error .stopped, count1 (aBuf k 0x70) s)
  else
    let b := newCycle s.now (bufAt s k)
    let others := waitingAllocs k s
    let found := arbitrate k.val b a others (List.range 5)
    let s1 := noteLosses k a others found.2 (modBuf s k fun _ => b)
    match found.1 with
    | none => if a.quotaOnly then (.error .quotaFull, s1) else (.error .empty, setFlag (aBufFlags k) 4 (count1 (aBuf k 0x58) s1))
    | some p =>
      let u := a.owner % 32
      let fromQuota := decide (heldBy b a.owner p < quotaOf b u p)
      let th : PrioTh := if h : u < 4 ∧ a.prio < 8 then (b.prios[u]'h.1)[a.prio]'h.2 else {}
      if !fromQuota && decide ((ownerSt b u).drop < usedAll s1 a.owner + poolCells p) then (.error .ownerDrop, count1 (aBuf k 0x60) s1)
      else if isHostRx a.owner && th.drop != 0 && decide (th.drop < usedPrio b a.owner a.prio + poolCells p) then
        (.error .prioDrop, count1 (aBuf k 0x68) s1)
      else (.ok (bufPtr k.val p (keyCell (freeKey b p))), grantBuf k a p s1)

/-! Release (R287 to R290). -/

/-- Operations on a buffer. -/
inductive BufOp where
  | free
  | handOff (newOwner : Nat) (count : Nat)
  | refAdd
  | refDrop
  deriving DecidableEq, Repr

/-- MIS_OP. -/
def BufOp.code : BufOp → Nat
  | .free => 0
  | .handOff _ _ => 1
  | .refAdd => 2
  | .refDrop => 3

/-- Kinds of misuse with MIS_KIND and the offset of their counter (R289). -/
inductive MisKind where
  | ptr
  | double
  | kind
  | owner
  | ref
  deriving DecidableEq, Repr

def MisKind.code : MisKind → Nat
  | .ptr => 1
  | .double => 2
  | .kind => 3
  | .owner => 4
  | .ref => 5

def MisKind.counter : MisKind → Nat
  | .ptr => 0x78
  | .double => 0x80
  | .kind => 0x88
  | .owner => 0x90
  | .ref => 0x98

/-- The checks of R289 in order, on the slice addressed. -/
def bufCheck (k : Nat) (b : BufSt) (op : BufOp) (ptr : Word) (issuer : Nat) : Option MisKind :=
  let p := ptrPool ptr
  let c := ptrCell ptr
  if ptrSlice ptr ≠ k ∨ 4 < p ∨ c < (poolAt b p).base ∨ (poolAt b p).base + (poolAt b p).buffers * poolCells p ≤ c then some .ptr
  else if (c - (poolAt b p).base) % poolCells p ≠ 0 then some .ptr
  else
    match sparseGet none b.bitmap (ptrKey ptr) with
    | none => some .double
    | some e =>
      match op with
      | .free => if privileged e.owner then some .kind else if e.owner ≠ issuer then some .owner else none
      | .handOff _ _ => if privileged e.owner then some .kind else if e.owner ≠ issuer then some .owner else none
      | .refAdd => if !privileged e.owner then some .kind else if e.count = 255 then some .ref else none
      | .refDrop => if !privileged e.owner then some .kind else none

/-- The owner the bitmap records for a pointer, 0 where it records none. -/
def holderOf (b : BufSt) (ptr : Word) : Nat :=
  match sparseGet none b.bitmap (ptrKey ptr) with
  | some e => e.owner
  | none => 0

/-- A rejected operation: counted, MISUSE set, an event, and the first rejection latched (R289, R290). -/
def bufMisuse (k : SliceId) (op : BufOp) (ptr : Word) (issuer : Nat) (mk : MisKind) (s : State) : State :=
  let b := bufAt s k
  let holder := holderOf b ptr
  let m : Misuse := { ptr := ptr, issuer := BitVec.ofNat 8 issuer, holder := BitVec.ofNat 8 holder, kind := mk.code,
                      op := op.code, valid := true }
  let s1 := count1 (aBuf k mk.counter) s
  let s2 := whenB (!(flagWord s1 (aBufFlags k)).getLsbD 3) (fun st => modBuf st k fun b => { b with misuse := m }) s1
  logEvent 0x0301 .error (BitVec.ofNat 8 k.val)
    ([BitVec.ofNat 8 op.code, BitVec.ofNat 8 mk.code] ++ toLe 4 ptr.toNat ++ [BitVec.ofNat 8 issuer, BitVec.ofNat 8 holder])
    (setFlag (aBufFlags k) 3 s2)

/-- The effect of an operation that passes every check. -/
def bufApply (k : SliceId) (op : BufOp) (ptr : Word) (e : BufEntry) (s : State) : State :=
  match op with
  | .free => putBuf k (ptrKey ptr) none s
  | .handOff o c => putBuf k (ptrKey ptr) (some { e with owner := o, count := if privileged o then c else 0 }) s
  | .refAdd => putBuf k (ptrKey ptr) (some { e with count := e.count + 1 }) s
  | .refDrop => if e.count ≤ 1 then putBuf k (ptrKey ptr) none s else putBuf k (ptrKey ptr) (some { e with count := e.count - 1 }) s

/-- The owner that an operation gives a buffer to, or the one it leaves it with. -/
def ownerAfterOp (op : BufOp) (e : BufEntry) : Nat :=
  match op with
  | .handOff o _ => o
  | _ => e.owner

/-- An operation checked and applied; the owners concerned may be those of other slices (R289, R291). -/
def bufOpNow (k : SliceId) (op : BufOp) (ptr : Word) (issuer : Nat) (s : State) : State :=
  match bufCheck k.val (bufAt s k) op ptr issuer with
  | some mk => bufMisuse k op ptr issuer mk s
  | none =>
    match sparseGet none (bufAt s k).bitmap (ptrKey ptr) with
    | some e =>
      let slices := (List.finRange 8).filter fun m => m == k || m.val == e.owner / 32 || m.val == ownerAfterOp op e / 32
      foldS slices refreshPressure (bufApply k op ptr e s)
    | none => s

/-- The REF_ADD operations of this cycle on a buffer that have not been applied: the rows that wait (R288, log 42). -/
def waitingRefAdds (k : SliceId) (key : Nat) (s : State) : List (Word × Byte) :=
  (s.pending.filterMap fun c => match c with
    | .refAdd m ptr issuer => if m = k ∧ ptrKey ptr = key then some (ptr, issuer) else none
    | _ => none).drop ((bufAt s k).refAhead.filter fun n => n == key).length

/-- A REF_ADD applied ahead of a REF_DROP of its cycle. -/
def refAddAhead (k : SliceId) (a : Word × Byte) (s : State) : State :=
  bufOpNow k .refAdd a.1 a.2.toNat (modBuf s k fun b => { b with refAhead := b.refAhead ++ [ptrKey a.1] })

/-- A FREE, HAND_OFF, REF_ADD or REF_DROP at the slice addressed; a REF_DROP follows every REF_ADD of its cycle (R288). -/
def bufOp (k : SliceId) (op : BufOp) (ptr : Word) (issuer : Nat) (s : State) : State :=
  bufOpNow k op ptr issuer (if op = .refDrop then foldS (waitingRefAdds k (ptrKey ptr) s) (refAddAhead k) s else s)

/-- The slice a pointer addresses. -/
def ptrSliceId (p : Word) : SliceId := Fin.ofNat 8 (ptrSlice p)

/-- The current owner of a packet's buffer. -/
def bufOwner (s : State) (ptr : Word) : Nat := holderOf (bufAt s (ptrSliceId ptr)) ptr

/-- A packet's buffer passes to a unit: HAND_OFF, or nothing for a privileged buffer (R291, R292). -/
def passBuf (ptr : Option Word) (newOwner : Nat) (s : State) : State :=
  match ptr with
  | some p =>
    let o := bufOwner s p
    if privileged o then s else bufOp (ptrSliceId p) (.handOff newOwner 0) p o s
  | none => s

/-- A packet's buffer is let go: FREE, or REF_DROP for a privileged buffer (R291, R292). -/
def dropBuf (ptr : Option Word) (s : State) : State :=
  match ptr with
  | some p =>
    let o := bufOwner s p
    bufOp (ptrSliceId p) (if privileged o then .refDrop else .free) p o s
  | none => s

/-- Cells of a packet's buffer. -/
def pktCells (p : Packet) : Nat :=
  match p.buf with
  | some w => poolCells (ptrPool w)
  | none => 0

/-- A slice reaches the slice that holds a packet's buffer over working bridges (R27, R283). -/
def bufReached (s : State) (k : Nat) (p : Packet) : Bool :=
  match p.buf with
  | some w => path s k (ptrSlice w)
  | none => true

end Sys2Proof.Machine
end

