-- ==== Sys2Proof/Machine/Parser.lean ====
section
/-!
DEFINITION. Machine/Parser.lean: the parse graph, its limits and outcomes, and the 576-bit key
(spec/09_parser_classifier.md, R248 to R255), as functions of a frame's bytes.
-/
namespace Sys2Proof.Machine

/-- Outcomes (R251 to R254). -/
def outcomeOk : Nat := 0
def outcomeLimit : Nat := 1
def outcomeMalformed : Nat := 2

/-- The headers of one layer that have been loaded (R249, R253); an absent header's fields are zero. -/
structure Layer where
  hasEth : Bool := false
  tags : Nat := 0
  vid1 : Nat := 0
  pcp1 : Nat := 0
  vid2 : Nat := 0
  dmac : Nat := 0
  smac : Nat := 0
  etherType : Nat := 0
  hasMpls : Bool := false
  mplsLabel : Nat := 0
  mplsDepth : Nat := 0
  l3 : Nat := 0
  dscp : Nat := 0
  proto : Nat := 0
  sip : Nat := 0
  dip : Nat := 0
  hasL4 : Bool := false
  sport : Nat := 0
  dport : Nat := 0
  hasTcp : Bool := false
  tcpFlags : Nat := 0
  deriving DecidableEq, Repr

/-- An IPv4 header located in the frame: offset and length (R232). -/
structure Ip4Loc where
  off : Nat
  len : Nat
  deriving DecidableEq, Repr

/-- A UDP or TCP header located: whether UDP, over IPv6, its offset, segment length, the offset of its IP header, and
whether that datagram is an IPv4 fragment (R232). -/
structure L4Loc where
  udp : Bool
  v6 : Bool
  off : Nat
  len : Nat
  ip : Nat
  frag : Bool
  deriving DecidableEq, Repr

/-- What the parser has found so far. -/
structure Parse where
  outcome : Nat := 0
  count : Nat := 0
  off : Nat := 0
  /-- The innermost enclosure end (R252). -/
  encl : Nat := 0
  isInner : Bool := false
  outer : Layer := {}
  inner : Layer := {}
  tunnelled : Bool := false
  tunnelId : Nat := 0
  frag : Bool := false
  ptpEvent : Bool := false
  ptpOff : Nat := 0
  ptpReached : Bool := false
  ip4 : List Ip4Loc := []
  l4 : List L4Loc := []
  /-- The IP header under way: its offset, IPv6, and IPv4 fragment. -/
  ipOff : Nat := 0
  ipV6 : Bool := false
  ipFrag : Bool := false
  /-- PTP was entered from UDP with destination port 319. -/
  viaUdp : Bool := false
  port319 : Bool := false
  deriving DecidableEq, Repr

/-- The header to be taken next. -/
inductive Hdr where
  | eth
  | mpls
  | ip4
  | ip6
  | udp
  | tcp
  | vxlan
  | gre
  | ptp
  | stop
  deriving DecidableEq, Repr

/-- The layer under way. -/
def Parse.layer (p : Parse) : Layer := if p.isInner then p.inner else p.outer

/-- Change the layer under way. -/
def Parse.modLayer (p : Parse) (f : Layer → Layer) : Parse :=
  if p.isInner then { p with inner := f p.inner } else { p with outer := f p.outer }

/-- Parsing ends at a header with an outcome. -/
def Parse.fail (p : Parse) (o : Nat) : Parse × Hdr := ({ p with outcome := o }, .stop)

/-- A header of `n` bytes at the present offset: beyond its enclosure end it is MALFORMED, beyond the 256-byte window it is
PARSE_LIMIT (R251, R252). -/
def Parse.fits (p : Parse) (n : Nat) : Option Nat :=
  if p.encl < p.off + n then some outcomeMalformed else if 256 < p.off + n then some outcomeLimit else none

/-- The next header that an EtherType names (R248). -/
def etherNext (t : Nat) : Hdr :=
  if t = 0x0800 then .ip4 else if t = 0x86DD then .ip6 else if t = 0x8847 ∨ t = 0x8848 then .mpls
  else if t = 0x88F7 then .ptp else .stop

/-- A tag's type (R248). -/
def isTag (t : Nat) : Bool := t == 0x8100 || t == 0x88A8

/-- The Ethernet header with up to two tags; at a third the tags already taken stay loaded (R248, R251, R253; log 12). -/
def takeEth (f : List Byte) (p : Parse) : Parse × Hdr :=
  match p.fits 14 with
  | some o => p.fail o
  | none =>
    let t0 := beAt f (p.off + 12) 2
    let base : Layer := { p.layer with hasEth := true, dmac := beAt f p.off 6, smac := beAt f (p.off + 6) 6, etherType := t0 }
    if !isTag t0 then
      ({ p.modLayer (fun _ => base) with off := p.off + 14 }, etherNext t0)
    else match p.fits 18 with
      | some o => (p.modLayer fun _ => base).fail o
      | none =>
        let tci1 := beAt f (p.off + 14) 2
        let t1 := beAt f (p.off + 16) 2
        let one : Layer := { base with tags := 1, vid1 := tci1 % 4096, pcp1 := tci1 / 8192, etherType := t1 }
        if !isTag t1 then
          ({ p.modLayer (fun _ => one) with off := p.off + 18 }, etherNext t1)
        else match p.fits 22 with
          | some o => (p.modLayer fun _ => one).fail o
          | none =>
            let t2 := beAt f (p.off + 20) 2
            let two : Layer := { one with tags := 2, vid2 := beAt f (p.off + 18) 2 % 4096, etherType := t2 }
            let q := { p.modLayer (fun _ => two) with off := p.off + 22 }
            if isTag t2 then q.fail outcomeLimit else (q, etherNext t2)

/-- The label stack: labels up to the one with S = 1, at most four (R248, R251); `n` labels are taken. -/
def mplsDepthOf (f : List Byte) (p : Parse) : Nat → Nat → Except Nat Nat
  | 0, _ => .error outcomeLimit
  | fuel + 1, n =>
    match p.fits (4 * (n + 1)) with
    | some o => .error o
    | none => if natBit (beAt f (p.off + 4 * n + 2) 1) 0 then .ok (n + 1) else mplsDepthOf f p fuel (n + 1)

def takeMpls (f : List Byte) (p : Parse) : Parse × Hdr :=
  match mplsDepthOf f p 4 0 with
  | .error o => p.fail o
  | .ok n =>
    let q := { p.modLayer (fun l => { l with hasMpls := true, mplsLabel := beAt f p.off 4 / 4096, mplsDepth := n }) with
      off := p.off + 4 * n }
    if q.encl ≤ q.off then (q, .stop)
    else
      let v := beAt f q.off 1 / 16
      (q, if v = 4 then .ip4 else if v = 6 then .ip6 else .stop)

/-- The header that an IP protocol number names (R248). -/
def protoNext (n : Nat) : Hdr := if n = 6 then .tcp else if n = 17 then .udp else if n = 47 then .gre else .stop

/-- A datagram's end against its enclosure end: beyond it, or short of it other than in an outer-layer datagram of a frame
of exactly 60 bytes (R252). -/
def datagramBad (f : List Byte) (p : Parse) (e : Nat) : Bool :=
  decide (p.encl < e) || (decide (e < p.encl) && !(!p.isInner && f.length == 60))

def takeIp4 (f : List Byte) (p : Parse) : Parse × Hdr :=
  let b0 := beAt f p.off 1
  let hl := 4 * (b0 % 16)
  match p.fits (max hl 1) with
  | some o => p.fail o
  | none =>
    let total := beAt f (p.off + 2) 2
    if b0 / 16 ≠ 4 ∨ hl < 20 ∨ total < hl then p.fail outcomeMalformed
    else if datagramBad f p (p.off + total) then p.fail outcomeMalformed
    else
      let fo := beAt f (p.off + 6) 2 % 8192
      let mf := natBit (beAt f (p.off + 6) 2) 13
      let proto := beAt f (p.off + 9) 1
      let fr := mf || fo != 0
      let q := p.modLayer fun l => { l with l3 := 1, dscp := beAt f (p.off + 1) 1 / 4, proto := proto,
                                            sip := beAt f (p.off + 12) 4, dip := beAt f (p.off + 16) 4 }
      ({ q with off := p.off + hl, encl := p.off + total, ipOff := p.off, ipV6 := false, ipFrag := fr, frag := p.frag || fr,
                ip4 := p.ip4 ++ [{ off := p.off, len := hl }] },
       if fo = 0 then protoNext proto else .stop)

/-- An extension header's number (R248). -/
def isExt (n : Nat) : Bool := n == 0 || n == 43 || n == 44 || n == 60

/-- Extension headers, at most two (R251); `nh` names the next header. -/
def takeExt (f : List Byte) : Nat → Nat → Parse → Parse × Hdr
  | fuel, nh, p =>
    if !isExt nh then ({ p.modLayer (fun l => { l with proto := nh }) with off := p.off }, protoNext nh)
    else
      let p := p.modLayer fun l => { l with proto := nh }
      match fuel with
      | 0 => p.fail outcomeLimit
      | n + 1 =>
        if p.encl < p.off + 8 then p.fail outcomeMalformed
        else
          let len := if nh = 44 then 8 else 8 * (beAt f (p.off + 1) 1 + 1)
          match p.fits len with
          | some o => p.fail o
          | none =>
            let next := beAt f p.off 1
            let fo := beAt f (p.off + 2) 2 / 8
            let m := natBit (beAt f (p.off + 2) 2) 0
            if nh = 44 then
              let q := { p with off := p.off + len, frag := p.frag || m || fo != 0 }
              if fo ≠ 0 then (q.modLayer fun l => { l with proto := next }, .stop) else takeExt f n next q
            else takeExt f n next { p with off := p.off + len }

def takeIp6 (f : List Byte) (p : Parse) : Parse × Hdr :=
  match p.fits 40 with
  | some o => p.fail o
  | none =>
    let pl := beAt f (p.off + 4) 2
    if beAt f p.off 1 / 16 ≠ 6 ∨ pl = 0 then p.fail outcomeMalformed
    else if datagramBad f p (p.off + 40 + pl) then p.fail outcomeMalformed
    else
      let nh := beAt f (p.off + 6) 1
      let q := p.modLayer fun l => { l with l3 := 2, dscp := beAt f p.off 2 / 64 % 64, proto := nh,
                                            sip := beAt f (p.off + 8) 16, dip := beAt f (p.off + 24) 16 }
      takeExt f 2 nh { q with off := p.off + 40, encl := p.off + 40 + pl, ipOff := p.off, ipV6 := true, ipFrag := false }

/-- UDP: its length equals the IP payload length (R252); a VXLAN or PTP port goes on (R248, R249). -/
def takeUdp (f : List Byte) (vx : Nat) (p : Parse) : Parse × Hdr :=
  match p.fits 8 with
  | some o => p.fail o
  | none =>
    let len := beAt f (p.off + 4) 2
    if len < 8 ∨ len ≠ p.encl - p.off then p.fail outcomeMalformed
    else
      let dp := beAt f (p.off + 2) 2
      let q := p.modLayer fun l => { l with hasL4 := true, sport := beAt f p.off 2, dport := dp }
      ({ q with off := p.off + 8, viaUdp := true, port319 := dp == 319,
                l4 := p.l4 ++ [{ udp := true, v6 := p.ipV6, off := p.off, len := len, ip := p.ipOff, frag := p.ipFrag }] },
       if dp = vx then (if p.isInner then .stop else .vxlan) else if dp = 319 ∨ dp = 320 then .ptp else .stop)

def takeTcp (f : List Byte) (p : Parse) : Parse × Hdr :=
  if p.encl < p.off + 20 then p.fail outcomeMalformed
  else
    let hl := 4 * (beAt f (p.off + 12) 1 / 16)
    if hl < 20 then p.fail outcomeMalformed
    else match p.fits hl with
      | some o => p.fail o
      | none =>
        let q := p.modLayer fun l => { l with hasL4 := true, sport := beAt f p.off 2, dport := beAt f (p.off + 2) 2,
                                              hasTcp := true, tcpFlags := beAt f (p.off + 13) 1 % 64 }
        ({ q with off := p.off + hl,
                  l4 := p.l4 ++ [{ udp := false, v6 := p.ipV6, off := p.off, len := p.encl - p.off, ip := p.ipOff,
                                   frag := p.ipFrag }] }, .stop)

/-- VXLAN opens the inner layer when its I flag is 1 (R248, R249). -/
def takeVxlan (f : List Byte) (p : Parse) : Parse × Hdr :=
  match p.fits 8 with
  | some o => p.fail o
  | none =>
    if natBit (beAt f p.off 1) 3 then
      ({ p with off := p.off + 8, tunnelId := beAt f (p.off + 4) 3, tunnelled := true, isInner := true, viaUdp := false }, .eth)
    else ({ p with count := p.count - 1 }, .stop)

/-- GRE: 4 bytes, plus 4 each for C, K and S; version 0 with R = 0 may open the inner layer (R248). -/
def takeGre (f : List Byte) (p : Parse) : Parse × Hdr :=
  if p.isInner then (p, .stop)
  else match p.fits 4 with
  | some o => p.fail o
  | none =>
    let fl := beAt f p.off 2
    if fl % 8 ≠ 0 ∨ natBit fl 14 then ({ p with off := p.off + 4 }, .stop)
    else
      let c := if natBit fl 15 then 4 else 0
      let k := if natBit fl 13 then 4 else 0
      let n := 4 + c + k + (if natBit fl 12 then 4 else 0)
      match p.fits n with
      | some o => p.fail o
      | none =>
        let q := { p with off := p.off + n, tunnelId := if k = 0 then 0 else beAt f (p.off + 4 + c) 4 }
        let t := beAt f (p.off + 2) 2
        let go := { q with tunnelled := true, isInner := true }
        if t = 0x0800 then (go, .ip4) else if t = 0x86DD then (go, .ip6) else if t = 0x6558 then (go, .eth) else (q, .stop)

/-- The PTP common header; PTP_EVENT for messageType 0 to 3, over UDP on port 319 only (R250). -/
def takePtp (f : List Byte) (p : Parse) : Parse × Hdr :=
  match p.fits 34 with
  | some o => p.fail o
  | none =>
    let ev := decide (beAt f p.off 1 % 16 ≤ 3) && (!p.viaUdp || p.port319)
    ({ p with off := p.off + 34, ptpReached := true, ptpOff := p.off, ptpEvent := ev }, .stop)

/-- Take headers until one ends parsing; a ninth is PARSE_LIMIT (R251). -/
def parseFrom (f : List Byte) (vx : Nat) : Nat → Hdr → Parse → Parse
  | 0, h, p => if h = .stop ∨ (h = .gre ∧ p.isInner = true) then p else { p with outcome := outcomeLimit }
  | fuel + 1, h, p =>
    let q := { p with count := p.count + 1 }
    let go := fun r : Parse × Hdr => parseFrom f vx fuel r.2 r.1
    match h with
    | .stop => p
    | .eth => go (takeEth f q)
    | .mpls => go (takeMpls f q)
    | .ip4 => go (takeIp4 f q)
    | .ip6 => go (takeIp6 f q)
    | .udp => go (takeUdp f vx q)
    | .tcp => go (takeTcp f q)
    | .vxlan => go (takeVxlan f q)
    | .gre => go (takeGre f q)
    | .ptp => go (takePtp f q)

/-- Parse a frame without FCS with its source's VXLAN_PORT (R248). -/
def parseFrame (f : List Byte) (vx : Nat) : Parse := parseFrom f vx 8 .eth { encl := f.length }

/-! Checksums (R232, R234). -/

/-- Ones-complement sum of 16-bit words; an odd last byte is padded with zero. -/
def onesSum : List Byte → Nat → Nat
  | [], acc => acc
  | [b], acc => let t := acc + b.toNat * 256; t % 65536 + t / 65536
  | a :: b :: t, acc => let u := acc + a.toNat * 256 + b.toNat; onesSum t (u % 65536 + u / 65536)

/-- Bytes of a frame. -/
def slice_ (f : List Byte) (o n : Nat) : List Byte := (f.drop o).take n

/-- Replace bytes at an offset. -/
def splice (f : List Byte) (o : Nat) (v : List Byte) : List Byte := f.take o ++ v ++ f.drop (o + v.length)

/-- Header checksum of an IPv4 header, its field taken as 0. -/
def ip4Sum (f : List Byte) (h : Ip4Loc) : Nat := 65535 - onesSum (slice_ f h.off 10 ++ slice_ f (h.off + 12) (h.len - 12)) 0

/-- Offset of an L4 checksum field. -/
def L4Loc.field (h : L4Loc) : Nat := h.off + (if h.udp then 6 else 16)

/-- The pseudo-header of a segment. -/
def pseudo (f : List Byte) (h : L4Loc) : List Byte :=
  let n := if h.udp then 17 else 6
  if h.v6 then slice_ f (h.ip + 8) 32 ++ toBe 4 h.len ++ toBe 4 n
  else slice_ f (h.ip + 12) 8 ++ [0, BitVec.ofNat 8 n] ++ toBe 2 h.len

/-- Checksum over pseudo-header and segment, its field taken as 0. -/
def l4Sum (f : List Byte) (h : L4Loc) : Nat :=
  65535 - onesSum (pseudo f h ++ splice (slice_ f h.off h.len) (h.field - h.off) [0, 0]) 0

/-- No L4 checksum is computed for this header (R232). -/
def l4Skip (p : Parse) (h : L4Loc) : Bool := p.outcome != outcomeOk || h.frag

/-- The frame with every IPv4 header checksum recomputed. -/
def fixL3 (p : Parse) (f : List Byte) : List Byte := p.ip4.foldl (fun g h => splice g (h.off + 10) (toBe 2 (ip4Sum g h))) f

/-- The checksum that an L4 header carries when it is recomputed: a UDP over IPv4 field of 0 stays 0, and a UDP sum of 0
over IPv6 is sent as 0xFFFF (R232). -/
def l4Value (f : List Byte) (h : L4Loc) : Nat :=
  let v := l4Sum f h
  if h.udp && !h.v6 && beAt f h.field 2 == 0 then 0
  else if h.udp && v == 0 then 0xFFFF else v

/-- The frame with its L4 checksums recomputed, the innermost first. -/
def fixL4 (p : Parse) (f : List Byte) : List Byte :=
  p.l4.reverse.foldl (fun g h => if l4Skip p h then g else splice g h.field (toBe 2 (l4Value g h))) f

/-- Some IPv4 header checksum is bad (R234). -/
def l3Bad (p : Parse) (f : List Byte) : Bool := p.ip4.any fun h => beAt f (h.off + 10) 2 != ip4Sum f h

/-- Some L4 checksum is bad; a UDP over IPv6 checksum of 0 is bad (R234). -/
def l4Bad (p : Parse) (f : List Byte) : Bool :=
  p.l4.any fun h => !l4Skip p h &&
    (let c := beAt f h.field 2
     if h.udp && c == 0 then h.v6 else
       let v := l4Sum f h
       !(c == v || (c == 0xFFFF && v == 0)))

/-! The key (R254, R255). -/

/-- The field numbers of R254 with their low bit and width. -/
def keyFields : List (Nat × Nat × Nat) :=
  [(1, 0, 3), (2, 3, 8), (3, 11, 1), (4, 12, 1), (5, 13, 2), (6, 15, 6), (7, 21, 2), (8, 23, 12), (9, 35, 3), (10, 38, 12),
   (11, 50, 48), (12, 98, 48), (13, 146, 16)] ++
  [(14, 162, 20), (15, 182, 3), (16, 185, 2), (17, 187, 6), (18, 193, 8), (19, 201, 128), (20, 329, 128), (21, 457, 16),
   (22, 473, 16), (23, 489, 6), (24, 495, 32), (25, 527, 20), (26, 547, 8)]

/-- Low bit and width of a field. -/
def keyField (n : Nat) : Option (Nat × Nat) :=
  match keyFields.find? fun f => f.1 == n with
  | some f => some f.2
  | none => none

/-- The value of a field of a key. -/
def keyGet (k : BitVec 576) (n : Nat) : Nat :=
  match keyField n with
  | some f => fld k f.1 f.2
  | none => 0

/-- Everything the key takes from outside the parse. -/
structure KeyCtx where
  kind : Nat
  id : Nat
  pass : Nat
  version : Bool
  l3Bad : Bool
  l4Bad : Bool
  revised : Bool
  portId : Nat
  passTag : Nat
  /-- The layer is INNER (R255). -/
  inner : Bool
  deriving DecidableEq, Repr

/-- A field of the inner layer where its header was found there, of the outer layer otherwise (R255). -/
def pickLayer (inner : Bool) (p : Parse) (has : Layer → Bool) : Layer :=
  if inner && has p.inner then p.inner else p.outer

/-- The key vector of a pass (R254). -/
def buildKey (c : KeyCtx) (p : Parse) : BitVec 576 :=
  let e := pickLayer c.inner p fun l => l.hasEth
  let m := pickLayer c.inner p fun l => l.hasMpls
  let i := pickLayer c.inner p fun l => l.l3 != 0
  let u := pickLayer c.inner p fun l => l.hasL4
  let t := pickLayer c.inner p fun l => l.hasTcp
  let flags := c.l3Bad.toNat + 2 * c.l4Bad.toNat + 4 * p.frag.toNat + 8 * p.ptpEvent.toNat + 16 * p.tunnelled.toNat +
    32 * c.revised.toNat
  put 576 0 c.kind ||| put 576 3 c.id ||| put 576 11 c.pass ||| put 576 12 c.version.toNat ||| put 576 13 p.outcome |||
  put 576 15 flags ||| put 576 21 e.tags ||| put 576 23 e.vid1 ||| put 576 35 e.pcp1 ||| put 576 38 e.vid2 |||
  put 576 50 e.dmac ||| put 576 98 e.smac ||| put 576 146 e.etherType ||| put 576 162 m.mplsLabel |||
  put 576 182 m.mplsDepth ||| put 576 185 i.l3 ||| put 576 187 i.dscp ||| put 576 193 i.proto ||| put 576 201 i.sip |||
  put 576 329 i.dip ||| put 576 457 u.sport ||| put 576 473 u.dport ||| put 576 489 t.tcpFlags |||
  put 576 495 p.tunnelId ||| put 576 527 c.portId ||| put 576 547 c.passTag

/-- A field's bytes, zero-extended at the top to whole bytes, most significant first (R269). -/
def fieldBytes (k : BitVec 576) (n : Nat) : List Byte :=
  match keyField n with
  | some f => toBe ((f.2 + 7) / 8) (fld k f.1 f.2)
  | none => []

/-- CRC-32 of key fields in ascending number from a seed (R269, R446). -/
def keyHash (k : BitVec 576) (seed : Word) (ns : List Nat) : Word := crc32 seed (bitsOfBytes (ns.flatMap (fieldBytes k)))

end Sys2Proof.Machine
end

