-- ==== Sys2Proof/Machine/Oam.lean ====
section
/-!
DEFINITION. Machine/Oam.lean: OAM messages in both directions (spec/04_registration_ranging_trunk_time.md, R83 to R87, R99;
spec/07_trunk_oam_performance_protection.md, R188, R190): the upstream queue, the ACK, the RDI, and the six tests that a
downstream message passes before its group accepts it.
-/
namespace Sys2Proof.Machine

/-- A BODY of 56 bytes from its first bytes. -/
def body56 (l : List Byte) : BitVec 448 := vecOfBytes 448 ((l ++ List.replicate 56 0).take 56)

/-- Length of the upstream queue (R87). -/
def oamQueueMax : Nat := 32

/-- A new upstream message takes the next SEQ (R83). -/
def newMsg (g : GroupId) (ty : Nat) (body : BitVec 448) (s : State) : UpMsg := { msgType := ty, seq := (groupAt s g).upSeq, body := body }

/-- Offer a message to the group's queue: dropped without a count while the group holds no terminal ID, discarded and
counted in OAM_TX_OVF when 32 wait (R87). -/
def queueMsg (g : GroupId) (ty : Nat) (body : BitVec 448) (s : State) : State :=
  if (groupAt s g).termId = 0 then s
  else if oamQueueMax ≤ (groupAt s g).oamQ.length then count1 (aPrt g 0x20) s
  else modGroup s g fun x => { x with oamQ := x.oamQ ++ [newMsg g ty body s], upSeq := x.upSeq + 1 }

/-- ACK statuses (R99 and the chapters that add to it). -/
def ackAccepted : Nat := 0
def ackLate : Nat := 1
def ackOutOfRange : Nat := 2
def ackBusy : Nat := 3
def ackBadFormat : Nat := 4
def ackWrongState : Nat := 5
def ackNotAmendable : Nat := 6
def ackNoGrant : Nat := 7
def ackOverlap : Nat := 8
def ackHeld : Nat := 9
def ackNoKek : Nat := 10
def ackUnwrapFail : Nat := 11
def ackNotManager : Nat := 12
def ackRekeyDue : Nat := 13
def ackNoKey : Nat := 14

/-- Queue an ACK (R99). -/
def queueAck (g : GroupId) (ty st : Nat) (seq : BitVec 16) (s : State) : State :=
  queueMsg g 0x10 (body56 ([BitVec.ofNat 8 ty, BitVec.ofNat 8 st] ++ toBe 2 seq.toNat)) s

/-- The status of the first failing check of a message, or ACCEPTED. -/
def ackStatus : List (Bool × Nat) → Nat
  | [] => ackAccepted
  | (b, st) :: t => if b then st else ackStatus t

/-! What a lane shows of its defects (R182, R184, R186). -/

/-- OOF indication: bound to an enabled group and not in SYNC (R57). -/
def oofShown (s : State) (l : Lane) : Bool := (laneGroup s l).isSome && (laneAt s l).align != .sync

/-- Defects unmasked by the defects above them (R182, R184). -/
def showLos (x : LaneSt) : Bool := x.los
def showLof (x : LaneSt) : Bool := x.lof && !x.los
def showAis (x : LaneSt) : Bool := x.ais && !x.los && !x.lof
def showSf (x : LaneSt) : Bool := x.sf && !x.los && !x.lof && !x.ais
def showSd (x : LaneSt) : Bool := x.sd && !x.los && !x.lof && !x.ais && !x.sf

/-- The lane is in defect: LOS, LOF, AIS or SF shown (R186). -/
def inDefect (x : LaneSt) : Bool := showLos x || showLof x || showAis x || showSf x

/-- Lanes of a group in defect. -/
def lanesInDefect (s : State) (g : GroupId) : List Lane := (groupLanes s g).filter fun l => inDefect (laneAt s l)

/-- Group signal fail (R186). -/
def sfG (s : State) (g : GroupId) : Bool :=
  decide ((groupAt s g).laneThresh ≤ (lanesInDefect s g).length) || (groupAt s g).st == .disabled

/-- A group is clean while it is in OPERATE and not in signal fail (R186). -/
def clean (s : State) (g : GroupId) : Bool := (groupAt s g).st == .operate && !sfG s g

/-! Protection pairs as every family sees them (R196 to R198). -/

/-- The group whose PairSt holds the pair's decisions: the working group of a local pair, the local group of a remote one. -/
def pairHome (s : State) (g : GroupId) : GroupId :=
  match (groupAt s g).pair with
  | some p => if p.peer = 0 && !p.working then p.partner else g
  | none => g

/-- The group carries traffic: unpaired, or the active group of its pair. -/
def activeGroup (s : State) (g : GroupId) : Bool :=
  match (groupAt s g).pair with
  | some p => (groupAt s (pairHome s g)).prot.activeWorking == p.working
  | none => true

/-- The downstream selector passes the group's kept packets: it is unpaired, or the selector of its pair stands on it (R197, R203). -/
def selected (s : State) (g : GroupId) : Bool :=
  match (groupAt s g).pair with
  | some p => (groupAt s (pairHome s g)).prot.selWorking == p.working
  | none => true

/-- The group is the standby of a pair. -/
def standby (s : State) (g : GroupId) : Bool := !activeGroup s g

/-- The working group of a local pair, else the group itself (R196, R256). -/
def workingOf (s : State) (g : GroupId) : GroupId :=
  match (groupAt s g).pair with
  | some p => if p.peer = 0 && !p.working then p.partner else g
  | none => g

/-- The group that serves the accounts of group `w`: the active group of its pair (R196). -/
def servingGroup (s : State) (w : GroupId) : GroupId :=
  match (groupAt s w).pair with
  | some p => if p.peer = 0 && p.working && !(groupAt s w).prot.activeWorking then p.partner else w
  | none => w

/-- The device account a grant of group g for account a serves: 64w + a (R196). -/
def grantAccountNo (s : State) (g : GroupId) (a : Nat) : AccountId := accountNo (workingOf s g).val a

/-! RDI (R188, R190). -/

/-- A mask over spectral slices from the lanes that satisfy a test. -/
def specMask (s : State) (g : GroupId) (f : LaneSt → Bool) : Nat :=
  (groupLanes s g).foldl (fun n l => if f (laneAt s l) then n + 2 ^ laneSpec s g l else n) 0

/-- BODY of an upstream RDI: the state at queueing (R188). -/
def rdiBody (s : State) (g : GroupId) : BitVec 448 :=
  let paired := (groupAt s g).pair.isSome
  let flags := (!(lanesInDefect s g).isEmpty).toNat + 2 * (paired && activeGroup s g).toNat + 4 * paired.toNat
  let home := pairHome s g
  let partnerTerm := match (groupAt s g).pair with
    | some p => if p.peer = 0 then (groupAt s p.partner).termId else (groupAt s home).prot.remoteTerm
    | none => 0
  body56 ([BitVec.ofNat 8 flags, BitVec.ofNat 8 (groupAt s home).prot.lastCause, BitVec.ofNat 8 partnerTerm, 0] ++
    toBe 8 (specMask s g inDefect) ++ toBe 8 (specMask s g showSd))

/-- Queue an upstream RDI; an unsent RDI in the queue is replaced in place (R190). -/
def queueRdi (g : GroupId) (s : State) : State :=
  if (groupAt s g).termId = 0 then s
  else if (groupAt s g).oamQ.any fun m => m.msgType == 0x0B then
    modGroup s g fun x => { x with
      oamQ := x.oamQ.map fun m => if m.msgType = 0x0B then newMsg g 0x0B (rdiBody s g) s else m,
      upSeq := x.upSeq + 1, rdiSentAt := s.now }
  else modGroup (queueMsg g 0x0B (rdiBody s g) s) g fun x => { x with rdiSentAt := s.now }

/-! A downstream message (R83, R86). -/

/-- MSG fields: TERM, MSG_TYPE, SEQ, BODY, CRC. -/
def msgTerm (m : OamRx) : Nat := fld m.bytes 504 8
def msgType (m : OamRx) : Nat := fld m.bytes 496 8
def msgSeq (m : OamRx) : BitVec 16 := m.bytes.extractLsb' 480 16
def msgBody (m : OamRx) : BitVec 448 := m.bytes.extractLsb' 32 448
def msgCrc (m : OamRx) : Word := m.bytes.extractLsb' 0 32

/-- `n` bytes of the message at offset `k` (counted from byte 0 of the message), most significant first. -/
def msgAt (m : OamRx) (k n : Nat) : Nat := fld m.bytes (512 - 8 * (k + n)) (8 * n)

/-- CRC-32 over bytes 0 to 59 checks (R84). -/
def msgCrcOk (m : OamRx) : Bool := crcOam ((bitsMsb m.bytes).take 480) == msgCrc m

/-- The frame that carried a message, and the stamp of its header. -/
def carrierFn (s : State) (l : Lane) (m : OamRx) : Nat := ((laneAt s l).fn + fnWrap - m.framesAgo % fnWrap) % fnWrap
def carrierStamp (s : State) (l : Lane) (m : OamRx) : Stamp := (laneAt s l).stampCur - ticks (frameTicks * m.framesAgo)

/-- What becomes of a message under the first four tests of R86. -/
inductive OamVerdict where
  | ignore
  | crcBad (g : GroupId)
  | badType (g : GroupId)
  | pass (g : GroupId)
  deriving DecidableEq, Repr

/-- Test 1: on a lane of an enabled group, in a frame received in SYNC; in the OAM blocks of a frame, the header must be
valid and have OAM_PRESENT (R59, R61); in an OAM packet, it is a unit of one that was accepted (R67). -/
def oamCarried (s : State) (l : Lane) (m : OamRx) : Option GroupId :=
  match laneGroup s l with
  | some g =>
    let x := laneAt s l
    if x.align == .sync && (if m.viaPkt then x.oamUnits.contains m.bytes else x.curValid && x.curOam) then some g else none
  | none => none

/-- Test 3: TERM is 0; 254 in ANNOUNCE, RANGE or OPERATE, or on a DISABLE or ENABLE; or the group's own ID.  255 never
matches (R86). -/
def oamAddressed (x : GroupSt) (m : OamRx) : Bool :=
  let t := msgTerm m
  t == 0 || (t == 254 && (x.st == .announce || x.st == .range || x.st == .operate)) ||
    (t == 254 && (msgType m == 0x0C || msgType m == 0x0D)) || (t == x.termId && t != 0 && t != 255)

/-- Test 4: MSG_TYPE is not reserved (R85). -/
def oamTypeKnown (m : OamRx) : Bool := decide (1 ≤ msgType m) && decide (msgType m ≤ 0x10)

/-- The first four tests of R86 in order. -/
def oamVerdict (s : State) (l : Lane) (m : OamRx) : OamVerdict :=
  match oamCarried s l m with
  | none => .ignore
  | some g =>
    if !msgCrcOk m then .crcBad g
    else if !oamAddressed (groupAt s g) m then .ignore
    else if !oamTypeKnown m then .badType g
    else .pass g

/-- A unit of an OAM packet has been handed to the receiver (R67). -/
def takeUnit (l : Lane) (m : OamRx) (s : State) : State :=
  if m.viaPkt then modLane s l fun x => { x with oamUnits := x.oamUnits.erase m.bytes } else s

/-- The counts of a message discarded by the first four tests.  A message with a code that R85 gives to the upstream direction
(0x02, 0x04, 0x10) passes them and is neither recorded for the duplicate test nor acted on (DESIGN CHOICE, log 124). -/
def oamDiscard (s : State) (l : Lane) (m : OamRx) : State :=
  match oamVerdict s l m with
  | .crcBad g => count1 (aRng g 0x28) (takeUnit l m s)
  | .badType g => count1 (aRng g 0x30) (takeUnit l m s)
  | .ignore => takeUnit l m s
  | .pass _ => if msgType m = 0x02 ∨ msgType m = 0x04 ∨ msgType m = 0x10 then takeUnit l m s else s

/-- Two stamps lie no more than 10 ms apart: copies on several lanes may be taken in either order of their stamps (R86). -/
def dupNear (a b : Stamp) : Bool := decide (-(64 * 8000000) ≤ stampDiff a b) && decide (stampDiff a b ≤ 64 * 8000000)

/-- A message of the same type, SEQ and BODY was accepted no more than 10 ms earlier (R86). -/
def isDup (x : GroupSt) (m : OamRx) (st : Stamp) : Bool :=
  x.dups.any fun d => d.msgType == msgType m && d.seq == msgSeq m && d.body == msgBody m && dupNear st d.stamp

/-- Record an accepted message; records older than 10 ms are let go. -/
def recordDup (g : GroupId) (m : OamRx) (st : Stamp) (s : State) : State :=
  modGroup s g fun x => { x with
    dups := { msgType := msgType m, seq := msgSeq m, body := msgBody m, stamp := st } ::
      x.dups.filter fun d => dupNear st d.stamp }

/-- What the receive tests of a type say of a message (R86, test 5). -/
inductive RxTest where
  | ok
  | badType
  | ignore
  deriving DecidableEq, Repr

/-- A downstream message of type `ty` through all six tests of R86; an accepted one is acted on. -/
def oamReceive (ty : Nat) (l : Lane) (m : OamRx) (test : GroupId → State → RxTest)
    (act : GroupId → State → State) (s : State) : State :=
  if msgCrcOk m && msgType m != ty then s
  else
    match oamVerdict s l m with
    | .ignore => takeUnit l m s
    | .crcBad g => count1 (aRng g 0x28) (takeUnit l m s)
    | .badType g => count1 (aRng g 0x30) (takeUnit l m s)
    | .pass g =>
      match test g s with
      | .badType => count1 (aRng g 0x30) (takeUnit l m s)
      | .ignore => takeUnit l m s
      | .ok =>
        if isDup (groupAt s g) m (carrierStamp s l m) then count1 (aRng g 0x38) (takeUnit l m s)
        else act g (recordDup g m (carrierStamp s l m) (takeUnit l m s))

/-- No receive tests of its own. -/
def noTest (_ : GroupId) (_ : State) : RxTest := .ok

end Sys2Proof.Machine
end

