-- ==== Sys2Proof/Machine/Timing.lean ====
section
/-!
DEFINITION. Machine/Timing.lean: grant entries, EqDs, stamps and slot edges (spec/04_registration_ranging_trunk_time.md,
spec/05_grants_and_bursts.md), as shared operations.
-/
namespace Sys2Proof.Machine

/-! Grant entries (R111, R112). -/

def gTerm (g : BitVec 64) : Nat := fld g 56 8
def gAcct (g : BitVec 64) : Nat := fld g 50 6
def gStart (g : BitVec 64) : Nat := fld g 30 20
def gLen (g : BitVec 64) : Nat := fld g 14 16
def gReport (g : BitVec 64) : Bool := bitOf g 13
def gLong (g : BitVec 64) : Bool := bitOf g 12
def gFill (g : BitVec 64) : Bool := bitOf g 11
def gOam (g : BitVec 64) : Bool := bitOf g 10
def gStanding (g : BitVec 64) : Bool := bitOf g 9
def gAmendable (g : BitVec 64) : Bool := bitOf g 8
/-- GCRC checks (R112). -/
def gCrcOk (g : BitVec 64) : Bool := crc8 ((bitsMsb g).take 56) == g.extractLsb' 0 8
/-- LENGTH and START within their bounds (R113). -/
def gFieldsOk (g : BitVec 64) : Bool := gLen g != 0 && decide (gStart g + gLen g ≤ 800000)

/-! Values keyed by their first epoch, newest first. -/

/-- The value in force at epoch `e`. -/
def inForce {α : Type} (l : List (Nat × α)) (e : Nat) : Option α :=
  match l.find? fun p => epochLe p.1 e with
  | some p => some p.2
  | none => none

/-- Entries long in force are held at 128 epochs before `cur`, so that the period of the epoch number never makes an old
entry look new; entries behind one long in force are let go. -/
def ageEpochs {α : Type} (cur : Nat) : List (Nat × α) → List (Nat × α)
  | [] => []
  | (e, v) :: t =>
    if epochLe e cur && decide (128 ≤ epochDist e cur) then [((cur + epochWrap - 128) % epochWrap, v)]
    else (e, v) :: ageEpochs cur t

/-- Leader lengths of a lane at an epoch: the last LEADER_SET applied, DISC_LEADER before the first (R123, R124). -/
def leadersAt (x : GroupSt) (l : LaneSt) (e : Nat) : Nat × Nat :=
  match inForce l.leaders e with
  | some p => p
  | none =>
    match x.disc with
    | some d => (d.leader, d.leader)
    | none => (0, 0)

/-- Leader of a grant (R129). -/
def leaderOf (x : GroupSt) (l : LaneSt) (e : Nat) (g : BitVec 64) : Nat :=
  if gLong g then (leadersAt x l e).2 else (leadersAt x l e).1

/-- Report count, head horizon and QUEUE_ONLY at an epoch (R153). -/
def policyAt (x : GroupSt) (e : Nat) : Nat × Nat × Bool :=
  match inForce x.policies e with
  | some p => p
  | none => (1, 0, false)

/-! EqD (R98, R100). -/

/-- The provisional EqD of a group's lanes (R100). -/
def provisionalEqd (x : GroupSt) : Option Word :=
  match x.provEqd with
  | some v => some v
  | none => x.eqd0

/-- The EqD a lane uses for an ordinary burst in epoch `e`: its own in force when it is ranged, or before its first assigned one
the EqD that one replaced; its provisional EqD otherwise (R93, R98, R100, R557). -/
def eqdAt (x : GroupSt) (l : LaneSt) (e : Nat) : Option Word :=
  match inForce l.eqds e with
  | some v => some v
  | none =>
    if l.ranged then (match l.eqdOld with
      | some v => some v
      | none => provisionalEqd x)
    else provisionalEqd x

/-- T_resp (R82). -/
def tResp : Nat := 80000

/-- EqD_0 times 5: logical_distance - t_resp - coarse_rtt in 1/320 tick (R82). -/
def eqd0Times5 (x : GroupSt) : Option Int :=
  match x.disc with
  | some d =>
    if x.coarseRtt = 0xFFFFFFFF then none
    else some (5 * ((d.logical.toNat : Int) - (tResp * 64 : Nat)) - (256 * x.coarseRtt.toNat : Nat))
  | none => none

/-! Stamps (R62, R101). -/

/-- The stamp of frame 0 of an epoch on a lane. -/
def epochStampAt (l : LaneSt) (e : Nat) : Option EpochStamp := l.epochStamps.find? fun p => p.epoch == e

/-- t_rx of an epoch: its stamp, or the prediction at 800,000 ticks per epoch from the last one held (R158, R557), with
whether it is the stamp itself. -/
def trxAt (l : LaneSt) (e : Nat) : Option (Stamp × Bool) :=
  match epochStampAt l e with
  | some p => some (p.stamp, true)
  | none =>
    match l.epochStamps with
    | p :: _ => some (p.stamp + ticks (epochTicks * (epochDist p.epoch e % epochWrap)), false)
    | [] => none

/-- The lane held its verified position at frame 0 of the epoch (R101). -/
def heldAt (l : LaneSt) (e : Nat) : Bool :=
  match epochStampAt l e with
  | some p => p.held
  | none => false

/-- The slot edge of a start tick with a given EqD (R125). -/
def edgeFrom (trx : Stamp) (eqd : Word) (start : Nat) : Stamp :=
  trx + ticks tResp + eqd.setWidth 54 + ticks start

/-- The slot edge of a grant of an epoch on a lane, and whether it is reckoned from the stamp. -/
def slotEdge (s : State) (g : GroupId) (l : Lane) (e start : Nat) : Option (Stamp × Bool) :=
  match trxAt (laneAt s l) e, eqdAt (groupAt s g) (laneAt s l) e with
  | some (t, st), some q => some (edgeFrom t q start, st)
  | _, _ => none

/-- The upstream epoch of FILL is over: the counter has reached the tick after its last, or the lane has no timeline (R142). -/
def fillOver (s : State) (l : Lane) (e : Nat) : Bool :=
  match boundGroup s l with
  | some g => (match slotEdge s g l e epochTicks with
    | some (t, _) => stampReached t (groupAt s g).ctr
    | none => true)
  | none => true

/-- The epoch that the lane last stamped, current for messages and tables. -/
def curEpoch (s : State) (l : Lane) : Nat := epochOf (laneAt s l).fn

/-- t_launch of a trunk packet header at block `b` and word `w` of a burst, in 1/64 tick, rounded down: slot edge + 4.0 ns +
1.25 ns x (b + (1 + 64 w) / 257) (R171). -/
def tLaunch (edge : Stamp) (b w : Nat) : Stamp :=
  edge + BitVec.ofNat 54 (64 * b + (2048 * 257 + 640 * (1 + 64 * w)) / 2570)

/-- Signed distance from frame number `b` to `a`. -/
def fnDiff (a b : Nat) : Int :=
  let d := (a + fnWrap - b % fnWrap) % fnWrap
  if d < fnWrap / 2 then (d : Int) else (d : Int) - (fnWrap : Nat)

/-- The first epoch whose previous epoch arrives whole from frame `fn` on (R119). -/
def wholeFrom (fn : Nat) : Nat := if fn % 100 = 0 then epochAdd (epochOf fn) 1 else epochAdd (epochOf fn) 2

/-! The R127 conditions. -/

/-- The lane may launch the bursts of epoch `e`, ranging apart: the group's state, the verified position at frame 0, JUMP_HOLD
and the first epoch after HOLDOVER (R79, R127). -/
def mayLaunch (s : State) (g : GroupId) (l : Lane) (e : Nat) : Bool :=
  let st := (groupAt s g).st
  (st == .announce || st == .range || st == .operate) && heldAt (laneAt s l) e && (laneAt s l).jumpHold.isNone &&
    (match (laneAt s l).resume with
     | some r => epochLe r e
     | none => true)

end Sys2Proof.Machine
end

