-- ==== Sys2Proof/Machine/Stamp.lean ====
section
/-!
DEFINITION. Machine/Stamp.lean: 96-bit stamps of the device time counter and the write-backs that owe them
(spec/13_time_stamping_ptp.md, R381, R385; spec/17_mailboxes_and_commands.md, R486), as shared operations.
-/
namespace Sys2Proof.Machine

/-- Units of 1/65,536 ns in a second. -/
def secUnits : Nat := 65536 * 1000000000

/-- SEC, NS and FRAC as one number of 1/65,536 ns. -/
def timeUnits (s : State) : Nat := s.time.sec.toNat * secUnits + s.time.ns * 65536 + s.time.frac / 2 ^ 16

/-- A 96-bit stamp SEC, NS, FRAC of a time in 1/65,536 ns. -/
def stampOfUnits (u : Nat) : BitVec 96 :=
  BitVec.ofNat 96 (u / secUnits % 2 ^ 48 * 2 ^ 48 + u % secUnits / 65536 * 2 ^ 16 + u % 65536)

/-- The device time now. -/
def deviceStamp (s : State) : BitVec 96 := stampOfUnits (timeUnits s)

/-- The device time of a value of a group's tick counter: one 1/64 tick is 1,280 units. -/
def stampOut (s : State) (g : GroupId) (t : Stamp) : BitVec 96 :=
  stampOfUnits ((timeUnits s : Int) + stampDiff t (groupAt s g).ctr * 1280).toNat

/-- TIM_WB_STAMPS and TIM_WB_DROPPED of a slice (R391). -/
def aWbStamps (k : Nat) : Nat := sliceReg k 0x900120
def aWbDropped (k : Nat) : Nat := sliceReg k 0x900128

/-- Change the write-back owed for a slot of a management queue. -/
def modOwed (q : MgtQueue) (slot : Nat) (f : TxOwed → TxOwed) (s : State) : State :=
  modRing s q fun x => { x with txOwed := x.txOwed.map fun o => if o.slot = slot ∧ o.ready.isNone then f o else o }

/-- A write-back with a stamp is ready (R385, R486); `point` 0 host transmit, 1 trunk launch, 2 fabric transmit. -/
def stampOwed (q : MgtQueue) (slot point : Nat) (stamp : BitVec 96) (s : State) : State :=
  modOwed q slot (fun o => { o with
    ready := some { tag := some o.tag, valid := true, estimated := s.time.estimated, stepped := o.gen != s.time.stepGen,
                    dropped := false, point := BitVec.ofNat 8 point, reason := 0, stamp := stamp } }) s

/-- A frame dropped on its path is written back with DROPPED and reason 2. -/
def dropOwed (p : Packet) (s : State) : State :=
  match p.txRef with
  | some (q, slot) =>
    modOwed q slot (fun o => { o with
      ready := some { tag := some o.tag, valid := false, estimated := false, stepped := false, dropped := true, point := 0,
                      reason := 2, stamp := 0 } }) s
  | none => s

end Sys2Proof.Machine
end

