-- ==== Sys2Proof/Machine/Ptp.lean ====
section
/-!
DEFINITION. Machine/Ptp.lean: the one-step transparent clock (spec/13_time_stamping_ptp.md, R382 to R384) and the settings
of a frame's source (spec/09_parser_classifier.md, R271), as shared operations.
-/
namespace Sys2Proof.Machine

/-- Key of a source's settings: host port, trunk group, fabric, management (R271). -/
def sourceKey (x : Source) : Nat :=
  if x.kind = 0 then x.id % 256 else if x.kind = 1 then 256 + x.id % 256 else if x.kind = 2 then 512 else 768

/-- The settings of a source. -/
def sourceOf (s : State) (x : Source) : SourceSet := sparseGet {} s.path.sources (sourceKey x)

/-- The parse of a frame with its source's settings. -/
def parsePkt (s : State) (p : Packet) : Parse := parseFrame p.bytes (sourceOf s p.src).vxlan

/-- TIM_TC counters of a slice (R391). -/
def aTc (k off : Nat) : Nat := sliceReg k (0x900100 + off)

/-- The transparent clock is enabled for a frame's ingress source (R382, R390). -/
def tcIngress (s : State) (x : Source) : Bool :=
  if x.kind = 0 then s.time.tcHost.getLsbD x.id
  else if x.kind = 1 then (if h : x.id < 4 then s.time.tcTrunk[x.id] else false)
  else if x.kind = 2 then s.time.tcFabric
  else false

/-- A time stamp as one number of 1/65,536 ns. -/
def stampUnits (v : BitVec 96) : Int := (fld v 48 48 * secUnits + fld v 16 32 * 65536 + fld v 0 16 : Nat)

/-- What the transparent clock does to a frame (R382, R383). -/
inductive TcResult where
  | off
  | version
  | skip
  | sat
  | correct (field : Nat)
  deriving DecidableEq, Repr

/-- The correctionField after a residence time in 1/65,536 ns: the sum, or saturation where it overflows or the residence is
negative (R382, R383). -/
def tcSum (old : Nat) (residence : Int) : TcResult :=
  let sum := signed 64 old + residence
  if residence < 0 ∨ sum < -(2 ^ 63 : Int) ∨ (2 ^ 63 : Int) ≤ sum then .sat else .correct (sum % 2 ^ 64).toNat

/-- The transparent clock's decision at egress instant `egress`. -/
def tcDecide (s : State) (p : Packet) (egress : BitVec 96) : TcResult :=
  if !p.ptpEvent || !tcIngress s p.src then .off
  else if beAt p.bytes (p.ptpOff + 1) 1 % 16 ≠ 2 then .version
  else if p.gen ≠ s.time.stepGen ∨ p.timeBad ∨ s.time.stopped ∨ s.time.estimated then .skip
  else tcSum (beAt p.bytes (p.ptpOff + 8) 8) (stampUnits egress - stampUnits p.stamp)

/-- The UDP header that carries the frame's PTP message, if one does. -/
def ptpUdp (s : State) (p : Packet) : Option L4Loc :=
  let q := parsePkt s p
  if q.ptpReached && q.viaUdp then q.l4.getLast? else none

/-- The checksum after some bytes under it change (R384): a UDP over IPv4 checksum of 0 stays 0. -/
def csumUpdate (v6 : Bool) (old : Nat) (before after : List Byte) : Nat :=
  if old = 0 ∧ v6 = false then 0
  else
    let flipped := before.map fun b => ~~~b
    let v := 65535 - onesSum after (onesSum flipped (65535 - old))
    if v = 0 then 65535 else v

/-- Write a correctionField, with the UDP checksum over it (R382 to R384). -/
def putField (s : State) (p : Packet) (v : Nat) : FrameBytes :=
  let old := slice_ p.bytes (p.ptpOff + 8) 8
  let new := toBe 8 v
  let b := splice p.bytes (p.ptpOff + 8) new
  match ptpUdp s p with
  | some h => splice b h.field (toBe 2 (csumUpdate h.v6 (beAt p.bytes h.field 2) old new))
  | none => b

/-- The largest correctionField. -/
def tcMax : Nat := 2 ^ 63 - 1

/-- The frame as it leaves under the transparent clock. -/
def tcBytes (s : State) (p : Packet) (egress : BitVec 96) : FrameBytes :=
  match tcDecide s p egress with
  | .sat => putField s p tcMax
  | .correct v => putField s p v
  | _ => p.bytes

/-- The counts of the transparent clock on the slice of egress (R383, R391). -/
def tcCount (k : Nat) (p : Packet) (egress : BitVec 96) (s : State) : State :=
  match tcDecide s p egress with
  | .off => s
  | .version => count1 (aTc k 0x10) s
  | .skip => count1 (aTc k 0x08) s
  | .sat => count1 (aTc k 0x18) s
  | .correct _ => count1 (aTc k 0x00) s

end Sys2Proof.Machine
end

