-- ==== Sys2Proof/Machine/FabSend.lean ====
section
/-!
DEFINITION. Machine/FabSend.lean: fabric cells and how they leave: headers, routes, lane queues, link back-pressure and the
sending of DATA cells (spec/16_fabric.md, R432 to R434, R437 to R439, R444 to R447), as shared operations.
-/
namespace Sys2Proof.Machine

/-! Addresses of the fabric registers (R456). -/

def fabSlice (l : FabLane) : SliceId := ⟨l.val / 2, by omega⟩
def aFabLaneFlags (l : FabLane) : Nat := sliceReg (l.val / 2) (0x801004 + 0x100 * (l.val % 2))
def aFabLane (l : FabLane) (off : Nat) : Nat := sliceReg (l.val / 2) (0x801040 + 0x100 * (l.val % 2) + off)
def aFab (k off : Nat) : Nat := sliceReg k (0x800100 + off)
def aFabFlags : Nat := devReg 0x800004

def fabAt (s : State) (l : FabLane) : FabLaneSt := s.fabric.lanes[l]
def modFab (s : State) (l : FabLane) (f : FabLaneSt → FabLaneSt) : State :=
  { s with fabric := { s.fabric with lanes := vmod s.fabric.lanes l f } }

/-! Cells (R432, R433). -/

/-- TYPE codes. -/
def cellData : Nat := 0
def cellHello : Nat := 1
def cellLsa : Nat := 2
def cellAddr : Nat := 3
def cellStatus : Nat := 4
def cellNotify : Nat := 5
def cellAck : Nat := 6
def cellIdle : Nat := 7

/-- The fields of a header that differ from 0. -/
structure CellFields where
  dest : Nat := 0
  src : Nat := 0
  type : Nat
  cls : Nat := 0
  ttl : Nat := 1
  hash : Nat := 0
  length : Nat := 0
  deliver : Nat := 0
  target : Nat := 0
  queue : Nat := 0
  seq : Nat := 0
  portId : Nat := 0
  deriving DecidableEq, Repr

/-- A cell header (R433), its XOFF bits 0. -/
def cellHeader (c : CellFields) : BitVec 128 :=
  put 128 122 c.dest ||| put 128 116 c.src ||| put 128 113 c.type ||| put 128 111 c.cls ||| put 128 107 c.ttl |||
  put 128 91 c.hash ||| put 128 77 c.length ||| put 128 74 c.deliver ||| put 128 66 c.target ||| put 128 61 c.queue |||
  put 128 45 c.seq ||| put 128 25 c.portId

def chDest (h : BitVec 128) : Nat := fld h 122 6
def chSrc (h : BitVec 128) : Nat := fld h 116 6
def chType (h : BitVec 128) : Nat := fld h 113 3
def chClass (h : BitVec 128) : Nat := fld h 111 2
def chTtl (h : BitVec 128) : Nat := fld h 107 4
def chHash (h : BitVec 128) : Nat := fld h 91 16
def chLength (h : BitVec 128) : Nat := fld h 77 14
def chDeliver (h : BitVec 128) : Nat := fld h 74 3
def chTarget (h : BitVec 128) : Nat := fld h 66 8
def chQueue (h : BitVec 128) : Nat := fld h 61 5
def chSeq (h : BitVec 128) : Nat := fld h 45 16
def chPortId (h : BitVec 128) : Nat := fld h 25 20
def chXoffHigh (h : BitVec 128) : Bool := bitOf h 24
def chXoffNormal (h : BitVec 128) : Bool := bitOf h 23

/-- FABRIC_RX of a slice asserts back-pressure, by its owner threshold or by a pool (R296, R297, R439). -/
def fabricXoff (s : State) (k : SliceId) : Bool := (ownerSt (bufAt s k) unitFabricRx).paused || anyPoolPaused (bufAt s k)

/-- The header as sent, with the XOFF bits of the lane's slice (R439). -/
def withXoff (h : BitVec 128) (x : Bool) : BitVec 128 := if x then h ||| put 128 23 3 else h

/-- The bytes of a cell: header, payload and CRC-32, padded after it to 64 bytes (R432, R434). -/
def cellBytes (h : BitVec 128) (payload : List Byte) : List Byte :=
  let b := vecBytes h ++ payload
  b ++ toBe 4 (crcOam (bitsOfBytes b)).toNat ++ List.replicate (64 - (b.length + 4)) 0

/-- The frame of a cell has left its buffer for the fabric. -/
def cellLeft (k : SliceId) (c : CellOut) (s : State) : State :=
  match c.pkt with
  | some p =>
    let s1 := dropBuf p.buf (passBuf p.buf (ownerId k.val unitFabricTx) s)
    match p.txRef with
    | some (q, slot) => count1 (aWbStamps k.val) (stampOwed q slot 2 (deviceStamp s1) s1)
    | none => s1
  | none => s

/-- A cell leaves on a lane. -/
def fabTransmit (l : FabLane) (c : CellOut) (s : State) : State :=
  let x := fabricXoff s (fabSlice l)
  let s1 := modFab s l fun y => { y with
    lastSent := cellBytes (withXoff c.header x) c.payload, lastSentAt := s.now, xoffSent := x, lpiTx := false }
  let s2 := if chType c.header = cellIdle then s1
    else count (aFabLane l 0x10) c.payload.length (count1 (aFabLane l 0x00) (modFab s1 l fun y => { y with lastBusyAt := s.now }))
  cellLeft (fabSlice l) c s2

/-- The class may be sent on the lane: DATA cells of HIGH and NORMAL wait for the partner's XOFF (R439). -/
def classOpen (y : FabLaneSt) (c : Nat) : Bool := c == 0 || (c == 1 && !y.heldHigh) || (c == 2 && !y.heldNormal)

/-- Send every cell of a lane that may be sent: CONTROL first, then HIGH, then NORMAL (R447). -/
def fabDrain (l : FabLane) (s : State) : State :=
  foldS (List.finRange 3) (fun c st =>
    if classOpen (fabAt st l) c.val then
      let q := (fabAt st l).queues[c]
      foldS q (fabTransmit l) (modFab st l fun y => { y with queues := y.queues.set c [] })
    else st) s

/-- Put a cell in its class queue on a lane and send what may be sent. -/
def fabQueue (l : FabLane) (c : CellOut) (s : State) : State :=
  let k : Fin 3 := Fin.ofNat 3 (chClass c.header)
  fabDrain l (modFab s l fun y => { y with queues := vmod y.queues k fun q => q ++ [c] })

/-! Routes (R444, R445). -/

/-- FULL lanes of a mask, ascending. -/
def fullLanes (s : State) (m : BitVec 16) : List FabLane :=
  (List.finRange 16).filter fun l => m.getLsbD l.val && (fabAt s l).adj == .full

/-- The lanes in force for an address. -/
def routeLanes (s : State) (dest : Nat) : List FabLane :=
  if h : dest < 64 then
    let r := s.fabric.routes[dest]
    let p := fullLanes s r.primary
    if r.altActive || p.isEmpty then (if (fullLanes s r.alternate).isEmpty then p else fullLanes s r.alternate) else p
  else []

/-- The lane a cell leaves on (R444). -/
def routeLane (s : State) (dest hash : Nat) : Option FabLane :=
  let l := routeLanes s dest
  l[hash % l.length]?

/-- An address is reachable: its own, or one with a FULL lane (R444). -/
def fabReachable (s : State) (dest : Nat) : Bool :=
  (dest == s.fabric.address && dest != 0) || !(routeLanes s dest).isEmpty

/-- A cell for the device's own address is delivered locally: it waits for the next tick (R444). -/
def fabLocal (k : SliceId) (c : CellOut) (s : State) : State :=
  let s1 := cellLeft k c s
  { s1 with fabric := { s1.fabric with
    localCells := s1.fabric.localCells ++ [{ at_ := s.now, slice := k, header := c.header, payload := c.payload }] } }

/-- Route a cell, or discard it as unreachable; `k` is the slice that counts (R444).  To a lane of another slice it goes over the
bridges (R27). -/
def fabRoute (k : Nat) (c : CellOut) (s : State) : State :=
  if chDest c.header == s.fabric.address && chDest c.header != 0 then fabLocal (Fin.ofNat 8 k) c s
  else match routeLane s (chDest c.header) (chHash c.header) with
  | some l =>
    if k = l.val / 2 then fabQueue l c s
    else if bridgeOpen s (Fin.ofNat 8 k) (fabSlice l) then
      bridgeSend (Fin.ofNat 8 k) (fabSlice l) (cellBytes c.header c.payload) (.cell l c) s
    else
      let s1 := count1 (aBridgeUnreach (Fin.ofNat 8 k)) s
      match c.pkt with
      | some p => dropOwed p (dropBuf p.buf s1)
      | none => s1
  | none =>
    let s1 := count1 (aFab k 0x10) s
    match c.pkt with
    | some p => dropOwed p (dropBuf p.buf s1)
    | none => s1

/-! Originating DATA (R446). -/

/-- The priority of a frame (R235): the PCP of its outer tag, the port's DEFAULT_PRIO, or 0. -/
def framePrio (s : State) (p : Packet) : Nat :=
  if isTag (beAt p.bytes 12 2) then beAt p.bytes 14 1 / 32
  else if p.src.kind = 0 then (if h : p.src.id < 32 then s.path.ports[p.src.id].defPrio else 0)
  else 0

/-- PRIO_CLASS of a priority (R454). -/
def prioClassOf (s : State) (p : Nat) : Nat := fld s.fabric.prioClass (2 * p) 2

/-- FLOW_HASH of a frame (R446). -/
def flowHash (s : State) (p : Packet) : Nat :=
  let q := parsePkt s p
  let k := buildKey { kind := p.src.kind, id := p.src.id, pass := 0, version := false, l3Bad := p.l3Bad, l4Bad := p.l4Bad,
                      revised := false, portId := p.portId.toNat, passTag := 0, inner := (sourceOf s p.src).inner } q
  fld (keyHash k 0xFFFFFFFF [18, 19, 20, 21, 22, 24, 25]) 16 16

/-! Frames for a stopped function (R298, R473). -/

/-- The buffer of a frame lies within the quota of its owner. -/
def withinQuota (s : State) (p : Packet) : Bool :=
  match p.buf with
  | some w =>
    let b := bufAt s (ptrSliceId w)
    let o := holderOf b w
    decide (heldBy b o (ptrPool w) ≤ quotaOf b (o % 32) (ptrPool w))
  | none => true

/-- A frame is discarded on its path: its buffer is let go and a time-stamp owed is written back DROPPED (R291, R385). -/
def discard (p : Packet) (s : State) : State := dropOwed p (dropBuf p.buf s)

/-- A frame found no room in a stopped function: discarded and counted (R298). -/
def discardStopped (p : Packet) (s : State) : State := count1 (aBuf p.slice 0x70) (discard p s)

/-- A frame for a stopped function keeps a buffer of its receiving owner's quota alone: one beyond it is exchanged for a buffer
of the quota, and without one the frame is discarded (R298, log 133). -/
def holdStopped (p : Packet) (s : State) : Option Packet × State :=
  match p.buf with
  | some w =>
    let o := bufOwner s w
    if withinQuota s p then (some p, s)
    else if privileged o then (none, discardStopped p s)
    else
      let k := ptrSliceId w
      match allocBuf k { owner := o, prio := p.prio, bytes := p.bytes.length, count := 0, quotaOnly := true } (dropBuf p.buf s) with
      | (.ok v, s1) => (some { p with buf := some v }, s1)
      | (.error _, s1) => (none, count1 (aBuf p.slice 0x70) (dropOwed p s1))
  | none => (some p, s)

/-- A frame leaves the packet path as a DATA cell (R446); a device at address 0 discards it (R442); while the fabric function
is stopped it is held (R454). -/
def fabSend (d : FabDest) (p : Packet) (s : State) : State :=
  if s.fabric.stopped then
    match holdStopped p s with
    | (some q, s1) => { s1 with fabric := { s1.fabric with hold := s1.fabric.hold ++ [(q, d)] } }
    | (none, s1) => s1
  else if s.fabric.address = 0 then dropOwed p (dropBuf p.buf (count1 (aFab p.slice.val 0x10) s))
  else
    let e := deviceStamp s
    let bytes := tcBytes s p e
    let key := 4 * d.dest + d.cls
    let seq := sparseGet 0 s.fabric.txSeq key
    let s1 := tcCount p.slice.val p e s
    let s2 := { s1 with fabric := { s1.fabric with txSeq := sparseSet 0 s1.fabric.txSeq key ((seq + 1) % 65536) } }
    let h := cellHeader { dest := d.dest, src := s.fabric.address, type := cellData, cls := d.cls, ttl := s.fabric.ttl,
                          hash := flowHash s p, length := bytes.length, deliver := d.deliver, target := d.target,
                          queue := d.queue, seq := seq, portId := d.portId }
    fabRoute p.slice.val { header := h, payload := bytes, pkt := some p } s2

/-- A CONTROL message to another device (R450, R451). -/
def fabControl (type dest : Nat) (payload : List Byte) (s : State) : State :=
  let h := cellHeader { dest := dest, src := s.fabric.address, type := type, ttl := s.fabric.ttl, length := payload.length }
  if s.fabric.stopped ∨ s.fabric.address = 0 then s else fabRoute 0 { header := h, payload := payload } s

end Sys2Proof.Machine
end

