-- ==== Sys2Proof/Machine/Entry.lean ====
section
/-!
DEFINITION. Machine/Entry.lean: how a frame enters the packet path (R16, R254, R282 to R284, R298, R381, R472).
-/
namespace Sys2Proof.Machine

/-- A frame joins the packet path of a slice, last in order (R16); it takes the next entry number. -/
def enterPath (k : SliceId) (p : Packet) (s : State) : State :=
  { s with path := { s.path with
      entryNo := s.path.entryNo + 1,
      ingress := vmod s.path.ingress k fun q => q ++ [{ p with entry := s.path.entryNo, slice := k }] } }

/-- The marks a frame takes at ingress: STEP_GEN and whether the counter stood or was estimated (R383). -/
def ingressMarks (s : State) (p : Packet) : Packet :=
  { p with gen := s.time.stepGen, timeBad := s.time.stopped || s.time.estimated, timeStopped := s.time.stopped }

/-- A received frame asks its slice's buffer manager for a buffer in the name of a unit, and enters the packet path or is
discarded (R282, R294 to R298). -/
def receiveFrame (k : SliceId) (unit : Nat) (p : Packet) (s : State) : State :=
  let o := ownerId k.val unit
  match allocBuf k { owner := o, prio := p.prio, bytes := p.bytes.length, count := 0 } s with
  | (.ok w, s1) => enterPath k (ingressMarks s1 { p with buf := some w, owner := o }) s1
  | (.error _, s1) => dropOwed p s1

end Sys2Proof.Machine
end

