-- ==== Sys2Proof/Machine/Cipher.lean ====
section
/-!
DEFINITION. Machine/Cipher.lean: key halves, usage limits, invocations and half switches, as shared operations
(spec/12_cipher_engine.md, R336 to R356).
-/
namespace Sys2Proof.Machine

/-- The other half of a slot. -/
def otherHalf (h : Half) : Half := if h = 0 then 1 else 0

/-- A half of a slot. -/
def halfAt (s : State) (n : Nat) (h : Half) : KeyHalf := (slotAt s n).halves[h]

/-- AES blocks of one invocation over `p` plaintext bytes (R351). -/
def encBlocks (p : Nat) : Nat := ceilDiv p 16 + 1

/-- The count at which a rekey falls due (R352). -/
def rekeyAt (limit : Nat) : Nat := limit - limit / 10

/-- The group that manages a slot. -/
def slotManager (k : KeySlot) : Option GroupId :=
  if 1 ≤ k.manager ∧ k.manager ≤ 4 then some (Fin.ofNat 4 (k.manager - 1)) else none

/-- REKEY_DUE of a half, once: flag, event and, for a group-managed slot, the unsolicited ACK (R352). -/
def raiseRekey (n : Nat) (h : Half) (limit : Nat) (s : State) : State :=
  if (halfAt s n h).rekeyed then s
  else
    let s1 := modHalf s n h fun x => { x with rekeyed := true }
    let s2 := logEvent 0x0401 .warning 0xFF (toLe 2 n ++ [BitVec.ofNat 8 h.val, BitVec.ofNat 8 limit]) (setFlag (aKeyFlags n) h.val s1)
    match slotManager (slotAt s n) with
    | some g => queueAck g 0x08 ackRekeyDue (halfAt s n h).seq s2
    | none => s2

/-- Retirement of a half (R353); `cause` 0 invocations, 1 blocks, 2 lifetime. -/
def retireHalf (n : Nat) (h : Half) (cause : Nat) (s : State) : State :=
  if (halfAt s n h).state = .retired then s
  else
    let s1 := modHalf s n h fun x => { x with state := .retired }
    logEvent 0x0402 .error 0xFF (toLe 2 n ++ [BitVec.ofNat 8 h.val, BitVec.ofNat 8 cause]) (setFlag (aKeyFlags n) (2 + h.val) s1)

/-- The limit that an invocation over `p` bytes would overrun (R353): 0 invocations, 1 blocks. -/
def overrun (s : State) (n : Nat) (h : Half) (p : Nat) : Option Nat :=
  let k := slotAt s n
  let x := k.halves[h]
  if k.limInv < x.inv + 1 then some 0
  else if k.limBlocks < x.blocks + encBlocks p then some 1
  else none

/-- REKEY_DUE where a count of the half has reached its threshold (R352). -/
def checkRekey (n : Nat) (h : Half) (s : State) : State :=
  let k := slotAt s n
  let x := k.halves[h]
  if rekeyAt k.limInv ≤ x.inv then raiseRekey n h 0 s
  else if rekeyAt k.limBlocks ≤ x.blocks then raiseRekey n h 1 s
  else s

/-- One invocation over `p` plaintext bytes is counted (R351, R352). -/
def consume (n : Nat) (h : Half) (p : Nat) (s : State) : State :=
  checkRekey n h (modHalf s n h fun x => { x with inv := x.inv + 1, blocks := x.blocks + encBlocks p })

/-- A write of R338 has completed: LOADED, counts at 0, no invocation launched. -/
def loadHalf (n : Nat) (w : KeyWrite) (key : KeyBits) (seq : BitVec 16) (s : State) : State :=
  modHalf s n w.half fun x =>
    { state := .loaded, aes256 := w.aes256, key := key, salt := w.salt, seq := seq, gen := x.gen + 1 }

/-- A half zeroed: EMPTY, with nothing of its key (R356). -/
def emptyHalf (x : KeyHalf) : KeyHalf := { gen := x.gen + 1 }

/-- The half becomes the current one: SWITCHED sets and a stall of R348 clears. -/
def makeCurrent (n : Nat) (h : Half) (s : State) : State :=
  setFlag (aKeyFlags n) 4 (modSlot s n fun k => { k with current := h, stall := false, waiting := none })

/-! Switch boundaries (R343). -/

/-- The stamp of frame FN of a switch on a lane: recorded, or predicted from the last stamped frame; none while the lane
holds no stamp. -/
def switchStamp (s : State) (sw : KeySwitch) (l : Lane) : Option Stamp :=
  match sw.stamps.find? fun p => p.1 == l with
  | some p => some p.2
  | none =>
    match (laneAt s l).stampFn with
    | some f => some ((laneAt s l).stampCur + BitVec.ofInt 54 (fnDiff sw.fn f * (frameTicks * 64 : Nat)))
    | none => none

/-- The upstream boundary of a switch on a lane (R343). -/
def switchBoundary (s : State) (sw : KeySwitch) (l : Lane) : Option Stamp :=
  match switchStamp s sw l, eqdAt (groupAt s sw.group) (laneAt s l) (epochOf sw.fn) with
  | some t, some q => some (t + ticks tResp + q.setWidth 54)
  | _, _ => none

/-- The half of an UP slot in force on a lane at launch instant `t` (R343, R344). -/
def halfFor (s : State) (n : Nat) (l : Lane) (t : Stamp) : Half :=
  let k := slotAt s n
  match k.switch with
  | some sw =>
    match switchBoundary s sw l with
    | some b => if 0 ≤ stampDiff t b then sw.half else otherHalf sw.half
    | none => otherHalf sw.half
  | none => k.current

/-- The half of a DOWN slot that a packet header of frame `fn` on group `g` finds current: while a switch in the group's
numbering is under way, the new half from frame FN on and the old one before (R345). -/
def downCurrent (k : KeySlot) (g : GroupId) (fn : Nat) : Half :=
  match k.switch with
  | some sw => if sw.group = g then (if 0 ≤ fnDiff fn sw.fn then sw.half else otherHalf sw.half) else k.current
  | none => k.current

/-- Fewer than 100 frames have begun on the lane since the half last replaced ceased to be current; a lane that held no frame
number then is given as many frame times (R345). -/
def inGrace (k : KeySlot) (l : Lane) (fn now : Nat) : Bool :=
  match k.lastSwitch with
  | some (t, fs) =>
    match fs.find? fun p => p.1 == l with
    | some p => decide (0 ≤ fnDiff fn p.2) && decide (fnDiff fn p.2 < 100)
    | none => decide (now < t + 100 * frameTicks)
  | none => false

/-- A packet whose header begins in frame `fn` of a lane of group `g` may use half `h` (R345): current, or current until fewer
than 100 frames before. -/
def downUsable (k : KeySlot) (g : GroupId) (l : Lane) (fn now : Nat) (h : Half) : Bool :=
  k.halves[h].state == .loaded &&
    (h == downCurrent k g fn ||
      (match k.switch with
        | some sw => sw.group == g && decide (0 ≤ fnDiff fn sw.fn) && decide (fnDiff fn sw.fn < 100) && h == otherHalf sw.half
        | none => false) ||
      (h == otherHalf k.current && inGrace k l fn now))

/-- The frame number of each lane that holds one, with FN of a switch on the lanes of its group (R345). -/
def switchFrames (s : State) (at_ : Option (GroupId × Nat)) : List (Lane × Nat) :=
  (List.finRange 32).filterMap fun l =>
    match at_ with
    | some (g, fn) => if (groupLanes s g).contains l then some (l, fn) else (laneAt s l).stampFn.map fun _ => (l, (laneAt s l).fn)
    | none => (laneAt s l).stampFn.map fun _ => (l, (laneAt s l).fn)

/-! GCM inputs (R346, R347, R350). -/

/-- IV: SALT, then the invocation field. -/
def gcmIv (salt : Word) (inv : Nat) : List Byte := toBe 4 salt.toNat ++ toBe 8 inv

/-- Header bits [63:16] of an upstream packet: PORT_ID, LENGTH, LAST, KEY, TYPE 0 (R63, R139, R347). -/
def pktHeaderTop (portId length : Nat) (last : Bool) (key : Nat) : BitVec 64 :=
  put 64 44 (portId % 2 ^ 20) ||| put 64 30 length ||| put 64 29 last.toNat ||| put 64 28 key

/-- A header with its HEC. -/
def withHec (h : BitVec 64) : BitVec 64 := h ||| (hecOf h).setWidth 64

/-- Invocation field of a downstream packet (R350). -/
def downInvocation (fn spec word : Nat) : Nat := fn * 2 ^ 32 + spec * 2 ^ 24 + word * 2 ^ 8

/-! What an account encrypts with (R364). -/

/-- The account bound to a slot. -/
def boundAccount (s : State) (n : Nat) : Option AccountId := (List.finRange 256).find? fun a => (acctAt s a).bind == .slot n

/-- The account can encrypt, or is cleartext, judged by its slot's current half. -/
def keyUsable (s : State) (a : AccountId) : Bool :=
  match (acctAt s a).bind with
  | .clear => true
  | .unbound => false
  | .slot n => !(slotAt s n).erasing && (halfAt s n (slotAt s n).current).state == .loaded

/-- The account has no usable key in the sense of CIP_NO_KEY: unbound, current half EMPTY, or ERASE_PENDING (R364). -/
def keyMissing (s : State) (a : AccountId) : Bool :=
  match (acctAt s a).bind with
  | .clear => false
  | .unbound => true
  | .slot n => (slotAt s n).erasing || (halfAt s n (slotAt s n).current).state == .empty

/-- The account's traffic carries a tag. -/
def encrypted (s : State) (a : AccountId) : Bool :=
  match (acctAt s a).bind with
  | .clear => false
  | _ => true

/-- Tag bytes of the account's packets. -/
def tagBytes (s : State) (a : AccountId) : Nat := if encrypted s a then 16 else 0

/-- Trunk bytes of a payload carried whole (R145). -/
def trunkBytes (payload : Nat) : Nat := 8 * (1 + ceilDiv payload 8)

/-- Trunk bytes of a packet up to byte `n` of its `len` bytes: a packet counts whole however it is cut, so the parts of one
that is fragmented add up to its whole figure (R145; DEDUCED, log 20). -/
def trunkUpTo (len tag n : Nat) : Nat := if n = 0 then 0 else if len ≤ n then trunkBytes (len + tag) else trunkBytes n

/-- Trunk bytes of a packet of an account, what is left of it. -/
def pktTrunkBytes (s : State) (a : AccountId) (p : Packet) : Nat :=
  trunkUpTo p.bytes.length (tagBytes s a) (max 1 p.bytes.length) - trunkUpTo p.bytes.length (tagBytes s a) p.sent

/-- The R348 room of a half: an invocation may be drawn while it lies no more than 2^19 above LAUNCHED_INV. -/
def drawAllowed (x : KeyHalf) : Bool :=
  decide ((x.inv : Int) ≤ (match x.launched with | some v => (v : Int) | none => -1) + 2 ^ 19)

end Sys2Proof.Machine
end

