-- ==== Sys2Proof/Machine/Trunk.lean ====
section
/-!
DEFINITION. Machine/Trunk.lean: what several families do to a trunk group: fogging latent bursts (R165 to R172), losing
developed ones (R164), clearing grants (R118), entering a terminal state (R79), EqD_0 (R82, R109) and following the lead lane.
-/
namespace Sys2Proof.Machine

/-- Counter value `a` lies before `b`. -/
def edgeBefore (a b : Stamp) : Bool := decide (stampDiff a b < 0)

/-- Put an item in slot-edge order; equal edges keep their order. -/
def insertEdge {α : Type} (edge : α → Stamp) (x : α) : List α → List α
  | [] => [x]
  | y :: t => if edgeBefore (edge x) (edge y) then x :: y :: t else y :: insertEdge edge x t

/-- Slot-edge order. -/
def sortEdge {α : Type} (edge : α → Stamp) (l : List α) : List α := l.foldl (fun acc x => insertEdge edge x acc) []

/-- Replace a latent burst, named by lane, epoch and start. -/
def sameGrant (a b : Latent) : Bool := a.lane == b.lane && a.epoch == b.epoch && gStart a.grant == gStart b.grant

def modLatent (g : GroupId) (b : Latent) (f : Latent → Latent) (s : State) : State :=
  modGroup s g fun x => { x with latents := x.latents.map fun y => if sameGrant y b then f y else y }

def dropLatent (g : GroupId) (b : Latent) (s : State) : State :=
  modGroup s g fun x => { x with latents := x.latents.filter fun y => !sameGrant y b }

def findLatent (x : GroupSt) (l : Lane) (e start : Nat) : Option Latent :=
  x.latents.find? fun b => b.lane == l && b.epoch == e && gStart b.grant == start

/-! Grant tables. -/

/-- Mark a grant of an epoch as used, missed or withdrawn. -/
def markDone (l : Lane) (e start : Nat) (s : State) : State :=
  modLane s l fun x => { x with tables := x.tables.map fun t =>
    if t.1 = e then (t.1, t.2.map fun u => if gStart u.raw = start then { u with done := true } else u) else t }

/-- The completed table of an epoch. -/
def tableAt (x : LaneSt) (e : Nat) : Option (List GrantUse) :=
  match x.tables.find? fun t => t.1 == e with
  | some t => some t.2
  | none => none

/-- A grant of a completed table is still to be used. -/
def grantOpen (x : LaneSt) (e start : Nat) : Bool :=
  match tableAt x e with
  | some t => t.any fun u => gStart u.raw == start && !u.done
  | none => false

/-- A grant held and not launched: GNT_MISSED and MISSED (R127). -/
def countMissed (l : Lane) (s : State) : State := setFlag (aGntFlags l) 4 (count1 (aGnt l 0x30) s)

/-- The lane is DARK for a grant it does not launch: a FILL of the burst before ends (R127, R129, R142). -/
def goDark (l : Lane) (s : State) : State := modLane s l fun x => { x with out := if x.burst.isSome then x.out else .dark }

/-- A grant held is missed, once. -/
def missGrant (l : Lane) (e start : Nat) (s : State) : State :=
  if grantOpen (laneAt s l) e start then countMissed l (markDone l e start s) else s

/-- Plan entries in force at an epoch (R116, R122), with their order of acceptance. -/
def planEntries (x : LaneSt) (e : Nat) : List (Nat × BitVec 64) :=
  (x.plan.filter fun p => epochLe p.fromEpoch e && (match p.revokeAt with | some r => !epochLe r e | none => true)).map fun p => (p.no, p.raw)

def planAt (x : LaneSt) (e : Nat) : List (BitVec 64) := (planEntries x e).map fun p => p.2

/-- The plan at an epoch: entries that no revocation has reached (R116, R122). -/
def planNow (x : LaneSt) (e : Nat) : List PlanEntry :=
  x.plan.filter fun p => match p.revokeAt with | some r => !epochLe r e | none => true

/-- Non-standing entries accepted for an epoch, with their order of acceptance. -/
def mapEntries (x : LaneSt) (e : Nat) : List (Nat × BitVec 64) :=
  match x.maps.find? fun m => m.1 == e with
  | some m => m.2
  | none => []

def mapAt (x : LaneSt) (e : Nat) : List (BitVec 64) := (mapEntries x e).map fun p => p.2

/-- A grant after the AMENDs of its epoch: replaced or withdrawn (R122). -/
def amended (x : LaneSt) (e : Nat) (g : BitVec 64) : Option (BitVec 64) :=
  match x.changes.find? fun c => c.1 == e && c.2.1 == gAcct g && c.2.2.1 == gStart g with
  | some c => c.2.2.2
  | none => some g

/-- Put an entry in order of acceptance. -/
def insertNo (x : Nat × BitVec 64) : List (Nat × BitVec 64) → List (Nat × BitVec 64)
  | [] => [x]
  | y :: t => if x.1 < y.1 then x :: y :: t else y :: insertNo x t

/-- The same grant: ACCOUNT and START (R117; DEDUCED, log 119). -/
def sameEntry (a b : BitVec 64) : Bool := gAcct a == gAcct b && gStart a == gStart b && (gTerm a == 254) == (gTerm b == 254)

/-- Entries in order of acceptance, each grant once. -/
def onceEach : List (Nat × BitVec 64) → List (BitVec 64)
  | [] => []
  | (_, r) :: t => r :: (onceEach t).filter fun q => !sameEntry q r

/-- The grants a lane uses in an epoch: plan and map united in order of acceptance, a grant in both counted once, at most 256,
with the AMENDs of the epoch (R114, R115, R117, R122). -/
def unionAt (x : LaneSt) (e : Nat) : List (BitVec 64) :=
  let all := (mapEntries x e).foldl (fun l p => insertNo p l) ((planEntries x e).foldl (fun l p => insertNo p l) [])
  ((onceEach all).take 256).filterMap (amended x e)

/-- Every grant a group's lanes hold from epoch `e` for `n` epochs, by lane: the completed or known table of each epoch. -/
def heldGrants (x : LaneSt) (e : Nat) : List (BitVec 64) :=
  match tableAt x e with
  | some t => t.map fun u => u.raw
  | none => unionAt x e

/-! Fog (R165 to R172). -/

/-- What becomes of the grants of the bursts a cause fogs. -/
inductive FogAfter where
  | stands
  | gone
  | missed
  deriving DecidableEq, Repr

/-- The tick of a burst's cut-off, slot edge - CUTOFF rounded down to a whole tick (R161). -/
def cutoffTick (b : Latent) : Stamp := ((b.edge - ticks b.cutoff) >>> 6) <<< 6

/-- The develop tick of a burst has come: its own cut-off, or that of a later burst of its account (R161). -/
def developDue (ls : List Latent) (ctr : Stamp) (b : Latent) : Bool :=
  ls.any fun q => q.account == b.account && q.held && !q.developed && !edgeBefore q.edge b.edge && stampReached (cutoffTick q) ctr

/-- The bursts that a cause registered at counter value `ctr` fogs, in slot-edge order: those it names and every later one of the
same account (R166); it has no effect on one whose develop tick has come (R161). -/
def fogSet (ls : List Latent) (ctr : Stamp) (seed : Latent → Bool) : List Latent :=
  let live := ls.filter fun b => b.held && !b.developed && !developDue ls ctr b
  let seeds := live.filter seed
  sortEdge (fun b => b.edge) (live.filter fun b => seeds.any fun q => q.account == b.account && !edgeBefore b.edge q.edge)

/-- Packets that return whole from fogged bursts, in order of acceptance, each once (R167). -/
def returnedPkts : List Placed → List Packet
  | [] => []
  | p :: t =>
    let r := returnedPkts t
    if p.pkt.sent = 0 then p.pkt :: r.filter (fun q => q.entry != p.pkt.entry) else r

/-- The remainder that fogged bursts carried whose preceding fragment stands in a burst not fogged (R168). -/
def fogRemainder (ps : List Placed) : Option Packet :=
  let back := (returnedPkts ps).map fun p => p.entry
  match ps.find? fun p => p.pkt.sent != 0 && !back.contains p.pkt.entry with
  | some p => some p.pkt
  | none => none

/-- Return packets to the heads of their class queues and refund the shapers what each was charged (R167, R323). -/
def returnToQueues (now : Nat) (a : AccountSt) (ps : List Packet) : AccountSt :=
  ps.foldl (fun a p =>
      { a with shaper := refund now p.charged a.shaper,
               classes := vmod a.classes (Fin.ofNat 8 p.cls) fun k => { k with shaper := refund now p.charged k.shaper } })
    { a with classes := Vector.ofFn fun c : Fin 8 =>
        { a.classes[c] with frames := (ps.filter fun p => p.cls % 8 == c.val) ++ a.classes[c].frames } }

/-- The remainder that an account's fogged bursts carried is discarded (R141, R168). -/
def loseRemainder (g : GroupId) (a : AccountId) (p : Packet) (s : State) : State :=
  modAcct (count1 (aFragLost g) (dropBuf p.buf s)) a fun x => { x with remainder := none, pinned := false }

/-- One account's part of a fog: packets back to their queues, the remainder kept or discarded. -/
def fogAccount (g : GroupId) (dropRem : Bool) (fs : List Latent) (a : AccountId) (s : State) : State :=
  let ps := (fs.filter fun b => b.account == a.val).flatMap fun b => b.packets
  let back := returnedPkts ps
  let ids := back.map fun p => p.entry
  let s1 := foldS back (fun p st => passBuf p.buf p.owner st) s
  let s2 := modAcct s1 a fun x => returnToQueues s1.now x back
  let s3 := count (aRun g 0x60) back.length s2
  let s4 := modAcct s3 a fun x => match x.remainder with
    | some r => if ids.contains r.entry then { x with remainder := none, pinned := false } else x
    | none => x
  match fogRemainder ps with
  | some r =>
    if dropRem then loseRemainder g a r s4
    else
      let live := (groupAt s4 g).latents.filter fun b => b.held && !b.developed && !(fs.any fun q => sameGrant q b)
      let open_ := live.any fun b => b.packets.any fun p => p.pkt.entry == r.entry
      modAcct s4 a fun x => { x with remainder := some r, pinned := !open_ }
  | none =>
    match (acctAt s4 a).remainder with
    | some r => if dropRem then loseRemainder g a r s4 else s4
    | none => s4

/-- Messages that fogged bursts took go back to the head of the queue; an RDI gives way to a later one; the queue keeps 32
(R87, R159). -/
def returnOam (g : GroupId) (ms : List UpMsg) (s : State) : State :=
  let q := (groupAt s g).oamQ
  let keep := ms.foldr (fun m acc => if m.msgType = 0x0B ∧ (acc ++ q).any (fun n => n.msgType == 0x0B) then acc else m :: acc) []
  let all := keep ++ q
  count (aPrt g 0x20) (all.length - oamQueueMax) (modGroup s g fun x => { x with oamQ := all.take oamQueueMax })

/-- Invocations and AES blocks that bursts consumed (R169). -/
def burnedInv (fs : List Latent) : Nat := fs.foldl (fun n b => n + (b.packets.filter fun p => p.inv.isSome).length) 0
def burnedBlocks (fs : List Latent) : Nat :=
  fs.foldl (fun n b => b.packets.foldl (fun m p => if p.inv.isSome then m + encBlocks p.bytes else m) n) 0

/-- A latent packet was encrypted under the half, on any group. -/
def halfInLatents (s : State) (n : Nat) (h : Half) : Bool :=
  (List.finRange 4).any fun g => (groupAt s g).latents.any fun y => y.packets.any fun p => match p.inv with
    | some (m, k, _) => m == n && k == h.val && p.keyGen == (halfAt s n h).gen
    | none => false

/-- A draw of the slot waits and no latent packet of its half remains: INV_STALL and REKEY_DUE (R348). -/
def slotStallTest (n : Nat) (s : State) : State :=
  match (slotAt s n).waiting with
  | some h =>
    if (slotAt s n).stall || halfInLatents s n h || drawAllowed (halfAt s n h) then s
    else raiseRekey n h 0 (modSlot s n fun k => { k with stall := true })
  | none => s

/-- The same for an account's slot. -/
def stallTest (a : AccountId) (s : State) : State :=
  match (acctAt s a).bind with
  | .slot n => slotStallTest n s
  | _ => s

/-- Fog latent bursts of a group under a cause: `off` is its counter, `seed` the bursts it names among `fs`, `after` what becomes
of their grants, `dropRem` whether the account leaves the group (R165 to R169, R172). -/
def fogThese (g : GroupId) (off : Nat) (fs : List Latent) (seed : Latent → Bool) (after : FogAfter) (dropRem : Bool) (s : State) : State :=
  if fs.isEmpty then s
  else
    let accts := (List.finRange 256).filter fun a => fs.any fun b => b.account == a.val
    let s1 := foldS accts (fogAccount g dropRem fs) s
    let s2 := returnOam g (fs.flatMap fun b => b.oam) s1
    let s3 := count (aRun g 0x70) (burnedBlocks fs) (count (aRun g 0x68) (burnedInv fs) s2)
    let s4 := setFlag (aRunFlags g) 0 (count (aRun g off) fs.length s3)
    let s5 := foldS fs (fun b st =>
      let st1 := dropLatent g b st
      if seed b && after == .gone then st1
      else if seed b && after == .missed then missGrant b.lane b.epoch (gStart b.grant) st1
      else modGroup st1 g fun x => { x with
        rebuilds := (b.lane, b.epoch, gStart b.grant, x.ctr + ticks 400) ::
          x.rebuilds.filter fun r => !(r.1 == b.lane && r.2.1 == b.epoch && r.2.2.1 == gStart b.grant) }) s4
    foldS accts (fun a st => stallTest a st) s5

/-- A cause registered now fogs the bursts it names (R161, R166). -/
def fog (g : GroupId) (off : Nat) (seed : Latent → Bool) (after : FogAfter) (dropRem : Bool) (s : State) : State :=
  fogThese g off (fogSet (groupAt s g).latents (groupAt s g).ctr seed) seed after dropRem s

/-- Counter offsets of the fog causes (R181). -/
def fogGrant : Nat := 0x20
def fogPreempt : Nat := 0x28
def fogProtect : Nat := 0x30
def fogKey : Nat := 0x38
def fogRestamp : Nat := 0x40
def fogLane : Nat := 0x48
def fogStop : Nat := 0x50

/-- Drop the bursts that hold no slot and match: nothing of theirs is counted. -/
def dropUnheld (g : GroupId) (f : Latent → Bool) (s : State) : State :=
  modGroup s g fun x => { x with latents := x.latents.filter fun b => b.held || b.developed || !f b }

/-- LANE: the lane cannot launch these bursts (R165). -/
def fogLaneBursts (g : GroupId) (l : Lane) (f : Latent → Bool) (s : State) : State :=
  dropUnheld g (fun b => b.lane == l && f b) (fog g fogLane (fun b => b.lane == l && f b) .missed false s)

/-- LANE, registered when the position or the defect that bars the launch came about: before the develop tick (R165, R185). -/
def fogLaneLate (g : GroupId) (l : Lane) (f : Latent → Bool) (s : State) : State :=
  let seed := fun b : Latent => b.lane == l && f b
  let live := (groupAt s g).latents.filter fun b => b.held && !b.developed
  let seeds := live.filter seed
  let fs := sortEdge (fun b => b.edge) (live.filter fun b => seeds.any fun q => q.account == b.account && !edgeBefore b.edge q.edge)
  dropUnheld g seed (fogThese g fogLane fs seed .missed false s)

/-- STOP: every latent burst of the group (R165). -/
def fogStopAll (g : GroupId) (s : State) : State :=
  dropUnheld g (fun _ => true) (fog g fogStop (fun _ => true) .gone true s)

/-- A latent burst holds a packet encrypted under the old half of a switch whose t_launch lies at or after the boundary
(R165, R343). -/
def straddles (s : State) (n : Nat) (sw : KeySwitch) (b : Latent) : Bool :=
  match switchBoundary s sw b.lane with
  | some bd => b.packets.any fun p =>
      match p.inv with
      | some (sl, h, _) => sl == n && h == (otherHalf sw.half).val &&
          decide (0 ≤ stampDiff (tLaunch b.edge (b.leader + 1 + 3 * b.oam.length + p.word / 4) (p.word % 4)) bd)
      | none => false
  | none => false

/-- KEY: bursts of an UP slot that straddle the boundary of its pending switch. -/
def fogKeyBursts (n : Nat) (s : State) : State :=
  match (slotAt s n).switch with
  | some sw =>
    if (slotAt s n).down then s
    else foldS (List.finRange 4) (fun g st => fog g fogKey (straddles st n sw) .stands false st) s
  | none => s

/-! Developed bursts that cannot launch (R164). -/

/-- A developed burst's packets are lost; a remainder it pinned is discarded, and a later burst not yet developed is left without
it: a developed one is never altered. -/
def loseDeveloped (g : GroupId) (b : Latent) (s : State) : State :=
  let a : AccountId := Fin.ofNat 256 b.account
  let s1 := dropLatent g b s
  let s2 := if b.packets.isEmpty then s1 else setFlag (aRunFlags g) 3 (count (aRun g 0x80) b.packets.length s1)
  match b.packets.find? fun p => !p.last with
  | some p =>
    let s3 := modGroup s2 g fun x => { x with latents := x.latents.map fun y =>
      if y.account = b.account ∧ !y.developed ∧ y.packets.any (fun q => q.pkt.entry == p.pkt.entry) then
        { y with packets := y.packets.filter fun q => q.pkt.entry != p.pkt.entry, cont := false }
      else y }
    match (acctAt s3 a).remainder with
    | some r => if r.entry = p.pkt.entry then loseRemainder g a r s3 else count1 (aFragLost g) (dropBuf p.pkt.buf s3)
    | none => count1 (aFragLost g) (dropBuf p.pkt.buf s3)
  | none => s2

/-- Developed bursts of a group that match and have not begun to be sent are lost. -/
def loseDevelopedWhere (g : GroupId) (f : Latent → Bool) (s : State) : State :=
  let sending := fun b : Latent => match (laneAt s b.lane).burst with
    | some u => u.epoch == b.epoch && gStart u.grant == gStart b.grant
    | none => false
  foldS ((groupAt s g).latents.filter fun b => b.developed && !sending b && f b)
    (fun b st => stallTest (Fin.ofNat 256 b.account) (loseDeveloped g b st)) s

/-! Clearing and states (R78, R79, R87, R118, R141). -/

/-- Accounts that a group serves: its own, or its working group's while it is active. -/
def servedAccounts (s : State) (g : GroupId) : List AccountId :=
  let w := workingOf s g
  if servingGroup s w = g then (List.finRange 64).map fun a => accountOf w a else []

/-- The group leaves OPERATE: the remainders of its fragmented packets are discarded (R141). -/
def discardRemainders (g : GroupId) (s : State) : State :=
  foldS (servedAccounts s g) (fun a st => match (acctAt st a).remainder with
    | some r => loseRemainder g a r st
    | none => st) s

/-- Grant tables, standing plans, leader lengths and report policy are cleared (R118, R153). -/
def clearGrants (g : GroupId) (s : State) : State :=
  let s1 := foldS (groupLanes s g) (fun l st => modLane st l fun x => { x with
    maps := [], plan := [], changes := [], tables := [], leaders := [], leaderPend := none, short := 0, long := 0, resume := none }) s
  modGroup s1 g fun x => { x with
    policies := [], reportCount := 1, headHorizon := 0, queueOnly := false, amends := [], rebuilds := [],
    pendApply := x.pendApply.filter fun m => match m.2 with | .eqd _ => true | _ => false }

/-- Accepted EQD_ASSIGNs not yet applied are discarded. -/
def dropEqdPending (g : GroupId) (s : State) : State :=
  let s1 := foldS (groupLanes s g) (fun l st => modLane st l fun x =>
    { x with eqdPend := none, eqds := match x.eqdPend with
        | some p => x.eqds.filter fun e => e != p
        | none => x.eqds }) s
  modGroup s1 g fun x => { x with pendApply := x.pendApply.filter fun m => match m.2 with | .eqd _ => false | _ => true }

/-- The lanes of a group are no longer ranged (R100). -/
def unrangeLanes (g : GroupId) (s : State) : State :=
  foldS (groupLanes s g) (fun l st => modLane st l fun x => { x with ranged := false, eqds := [], eqdPend := none, eqdOld := none }) s

/-- The queue empties and the terminal ID goes (R79, R87); an ANNOUNCE goes on awaiting its RESPONSE_WAIT (R92). -/
def loseIdentity (st : TermSt) (g : GroupId) (s : State) : State :=
  let s1 := unrangeLanes g (dropEqdPending g s)
  let s2 := foldS (groupLanes s1 g) (fun l a => modLane a l fun x => { x with rangeReq := none }) s1
  modGroup s2 g fun x => { x with st := st, termId := 0, oamQ := [], waitFrom := if st = .initial then none else x.waitFrom }

/-- EqD_0 from what is held: `some none` when it is negative, judged on the exact value before it is truncated to 1/64 tick (DESIGN
CHOICE, log 121). -/
def eqd0Of (x : GroupSt) : Option (Option Word) :=
  match eqd0Times5 x with
  | some v => if v < 0 then some none else some (some (BitVec.ofInt 32 (v.tdiv 5)))
  | none => none

/-- The test of R79 on a group in LISTEN. -/
def listenTest (g : GroupId) (s : State) : State :=
  let x := groupAt s g
  if x.st == .listen && (leadLane s g).isSome && x.disc.isSome && x.announce then
    match eqd0Of x with
    | none => setFlag (aRngFlags g) 5 (modGroup s g fun y => { y with eqd0 := none })
    | some none => setFlag (aRngFlags g) 6 (modGroup s g fun y => { y with eqd0 := none })
    | some (some v) => modGroup s g fun y => { y with st := .announce, eqd0 := some v, backoff := 0 }
  else s

/-- The group enters LISTEN: grants cleared, no terminal ID, empty queue, BURST_CTR 0, averages 0 (R79, R87, R118, R133,
R147). -/
def enterListen (g : GroupId) (s : State) : State :=
  let s1 := loseIdentity .listen g (clearGrants g s)
  let s2 := modGroup s1 g fun x => { x with burstCtr := 0 }
  let s3 := foldS (List.finRange 64) (fun a st => modAcct st (accountOf g a) fun x =>
    { x with rate1 := 0, rate8 := 0, rate64 := 0, arrived := 0 }) s2
  listenTest g s3

/-- EqD_0 recomputed (R109): negative sets EQD_NEG and leaves it not computed, and returns a group in ANNOUNCE to LISTEN; a group in
LISTEN makes its test anew. -/
def recomputeEqd0 (g : GroupId) (s : State) : State :=
  let x := groupAt s g
  if x.st == .initial then s
  else
    match eqd0Of x with
    | some (some v) => listenTest g (modGroup s g fun y => { y with eqd0 := some v })
    | some none =>
      let s1 := setFlag (aRngFlags g) 6 (modGroup s g fun y => { y with eqd0 := none })
      if x.st == .announce then enterListen g s1 else s1
    | none =>
      let s1 := modGroup s g fun y => { y with eqd0 := none }
      if x.st == .announce then enterListen g (setFlag (aRngFlags g) 5 s1) else listenTest g s1

/-- The counter runs on XTAL while no lane is in SYNC; a time state COARSE or LOCKED becomes HOLDOVER then (R102, R107). -/
def followClock (g : GroupId) (s : State) : State :=
  let none_ := (leadLane s g).isNone
  modGroup s g fun x => { x with
    onXtal := none_,
    timeSt := if none_ && (x.timeSt == .coarse || x.timeSt == .locked) then .holdover else x.timeSt }

/-- A lane of the group has entered or left SYNC (R78, R79, R102). -/
def syncChanged (g : GroupId) (s : State) : State :=
  let s1 := followClock g s
  let x := groupAt s1 g
  if (leadLane s1 g).isSome then listenTest g s1
  else if x.st == .announce || x.st == .range then enterListen g s1
  else s1

/-- The group leaves OPERATE for LISTEN, RANGE, INITIAL or DISABLED: every latent burst is fogged as on DISABLE, remainders
go (R79, R141). -/
def stopBursts (g : GroupId) (s : State) : State :=
  discardRemainders g (loseDevelopedWhere g (fun _ => true) (fogStopAll g s))

end Sys2Proof.Machine
end

