-- ==== Sys2Proof/Machine/Deliver.lean ====
section
/-!
DEFINITION. Machine/Deliver.lean: where a frame goes once its destination is known: a host egress queue, an upstream class
with its spill, the fabric, a management queue (spec/09 R261, spec/10 R298 to R305, spec/11 R326, spec/16 R446, R448,
spec/17 R487), as shared operations.
-/
namespace Sys2Proof.Machine

/-! Host ports (R218). -/

/-- Local lane `j` is the first lane of a port in a mode (R218). -/
def portFirst (mode j : Nat) : Bool := (mode == 1 && j == 0) || (mode == 2 && (j == 0 || j == 2)) || mode == 3 || mode == 4

/-- A port in its slice's mode in force. -/
def portExists (s : State) (p : PortId) : Bool := present s (p.val / 4) && portFirst s.path.mode[laneSlice p] (p.val % 4)

/-- Lanes of a port in a mode. -/
def portLanes (mode : Nat) : Nat := if mode = 1 then 4 else if mode = 2 then 2 else 1

/-- Serial lane of a host lane. -/
def hostSerial (p : PortId) : Fin 88 := ⟨11 * (p.val / 4) + p.val % 4, by omega⟩

/-- Loop-back in force on the port. -/
def portLoop (s : State) (p : PortId) : LoopKind := s.serdes.lanes[hostSerial p].loop

/-- The port is up (R220); a far-end loop or a pattern takes it down (R424, R428). -/
def portUp (s : State) (p : PortId) : Bool :=
  let x := portAt s p
  let quiet := (List.range (portLanes s.path.mode[laneSlice p])).all fun i =>
    let n := s.serdes.lanes[(Fin.ofNat 88 ((hostSerial p).val + i) : Fin 88)]
    n.gen == 0 && n.chk == 0
  x.aligned && !x.lfRx && portLoop s p != .fes && quiet

/-- A frame whose destination slice has no working path is discarded and counted at its own slice (R27). -/
def discardUnreach (p : Packet) (s : State) : State := count1 (aBridgeUnreach p.slice) (discard p s)

/-- Device time in ns. -/
def timeNs (s : State) : Nat := s.time.sec.toNat * 1000000000 + s.time.ns

/-- A LAUNCH_TIME in ns. -/
def launchNs (l : Nat × Nat) : Nat := l.1 * 1000000000 + l.2

def modQueue (s : State) (p : PortId) (q : QueueId) (f : EgressQ → EgressQ) : State :=
  modPort s p fun x => { x with queues := vmod x.queues q f }

/-- A frame joins a host egress queue: a LAUNCH_TIME more than 160 ms ahead in a TIMED queue is discarded (R326). -/
def enqueueHost (p : PortId) (q : QueueId) (f : Packet) (s : State) : State :=
  let k := laneSlice p
  let x := (portAt s p).queues[q]
  let far : Bool := match f.launch with
    | some l => x.timed && decide (timeNs s + 160000000 < launchNs l)
    | none => false
  let join := fun (g : Packet) (st : State) => modQueue st p q fun y => { y with
    frames := y.frames ++ [{ g with cls := q.val }],
    shaper := if y.frames.isEmpty && y.shaper.wheel.isNone then enterWheel st.now (accrue st.now y.shaper) else y.shaper }
  if far then setFlag (aSchFlags k) 2 (count1 (aSch k 0x08) (discard f s))
  else if s.path.portsStopped[k] || s.path.schedStopped[k] then
    match holdStopped f s with
    | (some g, s1) => join g s1
    | (none, s1) => s1
  else join f s

/-! Upstream admission (R147, R173, R300 to R305). -/

/-- An account's SRAM backlog in cells (R300). -/
def sramCells (a : AccountSt) : Nat :=
  ((List.finRange 8).flatMap fun c => a.classes[c].frames).foldl (fun n p => n + pktCells p) 0 +
    a.tail.foldl (fun n p => n + pktCells p) 0

/-- The burst that a strict packet's PREEMPT fogs: the earliest of the account whose cut-off lies RESTAGE_MARGIN away and
which holds a packet of a class served later (R173). -/
def preemptTarget (s : State) (g : GroupId) (a : AccountId) (c : Nat) : Option Latent :=
  let x := groupAt s g
  (sortEdge (fun b => b.edge) x.latents).find? fun b =>
    b.held && !b.developed && !developDue x.latents x.ctr b && b.account == a.val &&
      decide ((64 * x.margin : Int) ≤ stampDiff (b.edge - ticks b.cutoff) x.ctr) && b.packets.any fun p => decide (c < p.pkt.cls)

/-- A strict packet may fog a staged burst (R173). -/
def preempt (a : AccountId) (c : Nat) (s : State) : State :=
  let g := servingGroup s (acctGroup a)
  let x := groupAt s g
  let quiet : Bool := match (acctAt s a).lastPreempt with
    | some t => since s t x.holdoff
    | none => true
  if x.preempt && decide (c < 2) && quiet then
    match preemptTarget s g a c with
    | some b => modAcct (fog g fogPreempt (fun y => sameGrant y b) .stands false s) a fun y => { y with lastPreempt := some s.now }
    | none => s
  else s

/-- A packet joins its class, or the spill tail of a spilling account (R300, R301). -/
def joinClass (c : Fin 8) (p : Packet) (now : Nat) (a : AccountSt) : AccountSt :=
  let spill := decide (2 ≤ c.val) && (a.spilling || (a.spillEnable && decide (a.spillOn ≤ sramCells a)))
  if spill then { a with spilling := true, tail := a.tail ++ [p] }
  else { a with classes := vmod a.classes c fun k => { k with
    frames := k.frames ++ [p],
    shaper := if k.frames.isEmpty && k.shaper.wheel.isNone then enterWheel now (accrue now k.shaper) else k.shaper } }

/-- A frame is admitted to a class of an account (R147, R301, R305), or discarded above ACCT_DROP. -/
def admitFrame (a : AccountId) (c : Nat) (p : Packet) (s : State) : State :=
  let x := acctAt s a
  if x.acctDrop < sramCells x then setFlag aSpillFlags 3 (count1 (aSpill 0x30) (discard p s))
  else
    let q := { p with cls := c, sent := 0, adm := x.admitted }
    let n := pktTrunkBytes s a q
    let s1 := modAcct s a fun y =>
      joinClass (Fin.ofNat 8 c) q s.now { y with arrived := y.arrived + n, admitted := y.admitted + 1 }
    if c < 2 then preempt a c s1 else s1

/-- A group that holds frames or sends them: it has a binding in force; one that FUNC_STOP has stopped holds them (R18, R298, R473,
log 133). -/
def groupTakes (s : State) (g : GroupId) : Bool := !(groupAt s g).binding.isEmpty

/-- A frame for an account of a stopped group is held within its receiving owner's quota (R298, R473). -/
def admitLocal (a : AccountId) (c : Nat) (p : Packet) (s : State) : State :=
  if (groupAt s (servingGroup s (acctGroup a))).stopped then
    match holdStopped p s with
    | (some q, s1) => admitFrame a c q s1
    | (none, s1) => s1
  else admitFrame a c p s

/-- The remote group that serves an account whose pair has moved it to a fabric peer (R205). -/
def movedTo (s : State) (a : AccountId) : Option (Nat × Nat) :=
  let w := acctGroup a
  match (groupAt s w).pair with
  | some p => if p.peer ≠ 0 ∧ p.working ∧ (groupAt s w).prot.activeWorking = false then some (p.peer, p.partner.val) else none
  | none => none

/-- A frame for an upstream class leaves for the peer that serves its account, or is admitted here (R205). -/
def admitUp (a : AccountId) (c : Nat) (p : Packet) (s : State) : State :=
  match movedTo s a with
  | some (peer, g) =>
    fabSend { dest := peer, deliver := 1, target := 64 * g + a.val % 64, queue := c, cls := if c < 2 then 1 else 2 } p s
  | none => admitLocal a c p s

/-! Management queues (R286, R487). -/

/-- MGT_RXQ_DROP of a queue. -/
def rxqDrop (q : MgtQueue) (s : State) : State := count1 (aRxqDrop q.val) s

/-- A frame for a management queue waits in a buffer of MANAGEMENT's quota; beyond it the frame is discarded (R487). -/
def mgtDeliver (q : MgtQueue) (p : Packet) (s : State) : State :=
  let k := p.slice
  let o := ownerId k.val unitMgmt
  let a : AllocArgs := { owner := o, prio := 0, bytes := p.bytes.length, count := 1, quotaOnly := true }
  let s0 := dropBuf p.buf s
  match chosenPool k.val (bufAt s0 k) a with
  | none => rxqDrop q (dropOwed p s0)
  | some _ =>
    match allocBuf k a s0 with
    | (.ok w, s1) =>
      { s1 with ev := { s1.ev with mgtWait := vmod s1.ev.mgtWait q fun l => l ++ [{ p with buf := some w, owner := o }] } }
    | (.error _, s1) => rxqDrop q (dropOwed p s1)

/-! The fabric. -/

/-- A frame for a fabric address under a classifier result: the device's own address is delivered locally (R444, R446,
R448). -/
def sendFabric (dest : Nat) (p : Packet) (s : State) : State :=
  if dest = s.fabric.address then enterPath p.slice { p with
    src := { kind := 2, id := dest }, portId := 0, l3Bad := false, l4Bad := false, launch := none } s
  else fabSend { dest := dest, cls := prioClassOf s (framePrio s p) } p s

end Sys2Proof.Machine
end

