-- ==== Sys2Proof/Machine/Classify.lean ====
section
/-!
DEFINITION. Machine/Classify.lean: lookup, results, spreading, recirculation and rule updates
(spec/09_parser_classifier.md, R256 to R279).
-/
namespace Sys2Proof.Machine

/-! Results (R260). -/

def resKind (r : Wide) : Nat := fld r 0 3
def resDest (r : Wide) : Nat := fld r 3 12
def resQueue (r : Wide) : Nat := fld r 15 5
def resPolice (r : Wide) : Bool := bitOf r 20
def resPolicer (r : Wide) : Nat := fld r 21 16
def resMirror (r : Wide) : Nat := fld r 37 4
def resRecirc (r : Wide) : Bool := bitOf r 41
def resPassTag (r : Wide) : Nat := fld r 42 8
def resOverride (r : Wide) : Bool := bitOf r 50

/-- A result's DEST lies in the range of its kind (R260). -/
def resDestOk (r : Wide) : Bool :=
  let d := resDest r
  match resKind r with
  | 1 => decide (d ≤ 255)
  | 2 => decide (d ≤ 31)
  | 3 => decide (1 ≤ d) && decide (d ≤ 63)
  | 4 => decide (d ≤ 7)
  | 5 => decide (d ≤ 63)
  | _ => true

/-- A result's DEST names a host port on an absent slice (R3). -/
def resAbsent (s : State) (r : Wide) : Bool := resKind r == 2 && decide (resDest r ≤ 31) && !present s (resDest r / 4)

/-- The result checks of R274: true where the result fails. -/
def resBad (r : Wide) : Bool :=
  decide (5 < resKind r) || !resDestOk r || (resKind r == 1 && decide (7 < resQueue r)) || fld r 51 13 != 0

/-! Tables (R257 to R259, R264, R265). -/

def emTable : Fin 3 := 0
def ternTable : Fin 3 := 1
def spreadTable : Fin 3 := 2

/-- The copy of a table that a frame of a version uses (R265). -/
def tablesFor (c : ClsSt) (t : Fin 3) (version : Bool) : RuleTables :=
  if c.versioned[t] && c.version != version then c.shadow else c.cur

/-- Position of an exact-match entry in a way (R259). -/
def emPos (way profile : Nat) (key : BitVec 160) : Nat :=
  fld (crc32 (BitVec.ofNat 32 (0x5A5A0000 + way)) (bitsOfBytes (BitVec.ofNat 8 profile :: toLe 20 key.toNat))) 0 16

/-- Index of a position over the four ways. -/
def emIndex (way profile : Nat) (key : BitVec 160) : Nat := way * 65536 + emPos way profile key

/-- An exact-match entry of a profile and key, and its index (R258, R259). -/
def emFind (t : RuleTables) (profile : Nat) (key : BitVec 160) : Option (Nat × EmEntry) :=
  let hits := [0, 1, 2, 3].filterMap fun w =>
    match sparseGet none t.em (emIndex w profile key) with
    | some e => if e.profile = profile ∧ e.key = key then some (emIndex w profile key, e) else none
    | none => none
  hits.head?

/-- The lowest-numbered ternary entry that matches (R257). -/
def ternFind (t : RuleTables) (k : BitVec 576) : Option TernEntry :=
  t.tern.findSome? fun e => match e.2 with
    | some x => if k &&& x.mask = x.value &&& x.mask then some x else none
    | none => none

/-- Fields packed from bit 0 in list order (R258). -/
def packFields (k : BitVec 576) (ns : List Nat) : Nat :=
  (ns.foldl (fun (a : Nat × Nat) n => match keyField n with
    | some f => (a.1 + fld k f.1 f.2 * 2 ^ a.2, a.2 + f.2)
    | none => a) (0, 0)).1

/-- The exact key of a profile (R258). -/
def exactKey (c : ClsSt) (profile : Nat) (k : BitVec 576) : BitVec 160 :=
  BitVec.ofNat 160 (packFields k (if h : profile < 16 then c.profiles[profile] else []))

/-- Where a result came from. -/
inductive HitKind where
  | em
  | tern
  | miss
  deriving DecidableEq, Repr

/-- The result of a pass (R257). -/
def lookup (c : ClsSt) (src : SourceSet) (version : Bool) (k : BitVec 576) : HitKind × Wide :=
  let t := ternFind (tablesFor c ternTable version) k
  let e := match src.profile with
    | some p => emFind (tablesFor c emTable version) p (exactKey c p k)
    | none => none
  match t, e with
  | some x, some y => if resOverride x.result then (.tern, x.result) else (.em, y.2.result)
  | some x, none => (.tern, x.result)
  | none, some y => (.em, y.2.result)
  | none, none => (.miss, src.miss)

/-! Spreading (R269, R270). -/

/-- A member of a spread group is live (R269). -/
def memberLive (s : State) (g : SpreadGroup) (m : Nat) : Bool :=
  match g.kind with
  | 1 =>
    let l : Lane := Fin.ofNat 32 m
    let tg : GroupId := Fin.ofNat 4 g.trunk
    (groupLanes s tg).contains l && (laneAt s l).ranged && !inDefect (laneAt s l)
  | 2 => portExists s (Fin.ofNat 32 m) && portUp s (Fin.ofNat 32 m)
  | _ => true

/-- Destination of a member: kind and DEST (R269). -/
def memberDest (g : SpreadGroup) (m : Nat) : Nat × Nat :=
  match g.kind with
  | 1 => (1, 64 * g.trunk + g.laneAccount.getD m 0)
  | 2 => (2, m)
  | _ => (1, m)

/-- Field numbers of a mask. -/
def maskFields (v : Word) : List Nat := (List.range 27).filter fun n => decide (1 ≤ n) && v.getLsbD n

/-- The member a frame takes: at its index, or the next live one (R269, R270). -/
def spreadMember (s : State) (c : ClsSt) (version : Bool) (n : Nat) (k : BitVec 576) : Option (Nat × Nat) :=
  let g := sparseGet {} c.groups n
  let i := fld (keyHash k g.seed (maskFields g.fields)) 23 9
  let t := (tablesFor c spreadTable version).spread
  match (List.range 512).find? fun j => memberLive s g (sparseGet 0 t (512 * n + (i + j) % 512)) with
  | some j => some (memberDest g (sparseGet 0 t (512 * n + (i + j) % 512)))
  | none => none

/-! Policers (R327, R328). -/

/-- Home slice of a policer (R327). -/
def policerHome (s : State) (p : Nat) : Nat := p % s.part.slices

/-- Meter a frame: the policer after it, and whether the frame conforms (R327). -/
def meter (now L : Nat) (x : Policer) : Policer × Bool :=
  let tok : Int := if x.cir = 0 then x.tokens else min (x.cbs * byteUnits : Nat) (x.tokens + (rateUnits x.cir * (now - x.at_) : Nat))
  let y := { x with tokens := tok, at_ := now }
  if !x.enabled || decide ((L * byteUnits : Nat) ≤ tok) then
    ({ y with tokens := if x.enabled then tok - (L * byteUnits : Nat) else tok,
              conformFrames := (x.conformFrames + 1) % 2 ^ 64, conformBytes := (x.conformBytes + L) % 2 ^ 64 }, true)
  else ({ y with excessFrames := (x.excessFrames + 1) % 2 ^ 64, excessBytes := (x.excessBytes + L) % 2 ^ 64 }, false)

/-- Step 4 of R261: with POLICE the frame is metered at the home slice, or passes unmetered without a path (R328). -/
def police (k : SliceId) (p : Packet) (r : Wide) (s : State) : Bool × State :=
  if !resPolice r then (true, s)
  else if !path s k.val (policerHome s (resPolicer r)) then (true, setFlag (aSchFlags k) 3 (count1 (aSch k 0x00) s))
  else
    let x := sparseGet {} s.path.policers (resPolicer r)
    let m := meter s.now (counted p.bytes.length x.overhead) x
    (m.2, { s with path := { s.path with policers := sparseSet {} s.path.policers (resPolicer r) m.1 } })

/-! Destinations (R261). -/

/-- A frame of this source may go to a grant account (R261, step 3). -/
def upSource (kind : Nat) : Bool := kind == 0 || kind == 2 || kind == 3

/-- An account of a protection group is its working group's (R196). -/
def mappedAccount (s : State) (d : Nat) : AccountId := accountNo (workingOf s (Fin.ofNat 4 (d / 64))).val (d % 64)

/-- The destination exists (R261, step 3). -/
def destValid (s : State) (srcKind kind dest : Nat) : Bool :=
  match kind with
  | 1 => decide (dest ≤ 255) && upSource srcKind && groupTakes s (acctGroup (mappedAccount s dest))
  | 2 => if h : dest < 32 then portExists s ⟨dest, h⟩ else false
  | 3 => decide (1 ≤ dest) && decide (dest ≤ 63) && (fabReachable s dest || s.fabric.stopped)
  | 4 => decide (dest ≤ 7)
  | _ => false

/-- Slices one of which a frame must reach to be carried to its destination; none asked of the fabric, whose lane decides
(R27). -/
def destSlices (s : State) (kind dest : Nat) : List Nat :=
  let lanes := fun a => (groupLanes s (servingGroup s (acctGroup a))).map fun l => l.val / 4
  match kind with
  | 1 => if (movedTo s (mappedAccount s dest)).isSome then [] else lanes (mappedAccount s dest)
  | 2 => [dest / 4]
  | 4 => (match anchorSlice s with | some h => [h.val] | none => [])
  | 6 => lanes (Fin.ofNat 256 dest)
  | _ => []

/-- No working path leads to the destination's slice (R27). -/
def destCut (s : State) (p : Packet) (kind dest : Nat) : Bool :=
  let l := destSlices s kind dest
  !l.isEmpty && l.all fun k => !path s p.slice.val k

/-- A frame has reached the slice of its destination. -/
def landFrame (kind dest queue : Nat) (p : Packet) (s : State) : State :=
  match kind with
  | 1 => admitUp (mappedAccount s dest) (queue % 8) p s
  | 2 => enqueueHost (Fin.ofNat 32 dest) (Fin.ofNat 32 queue) p s
  | 3 => sendFabric dest p s
  | 4 => mgtDeliver (Fin.ofNat 8 dest) p s
  | 6 => admitLocal (Fin.ofNat 256 dest) queue p s
  | _ => s

/-- The slice to which a frame goes over the bridges: none while it stands at one of its destination's, else the first that it
reaches. -/
def bridgeTo (s : State) (p : Packet) (kind dest : Nat) : Option SliceId :=
  let l := destSlices s kind dest
  if l.contains p.slice.val then none else (l.find? fun k => path s p.slice.val k).map (Fin.ofNat 8)

/-- Carry a frame to its destination (R27, R261, step 6). -/
def toDest (kind dest queue : Nat) (p : Packet) (s : State) : State :=
  if destCut s p kind dest then discardUnreach p s
  else
    match bridgeTo s p kind dest with
    | some d => if bridgeOpen s p.slice d then bridgeSend p.slice d p.bytes (.frame p kind dest queue) s else discardUnreach p s
    | none => landFrame kind dest queue p s

/-- An invalid destination is discarded (R261, step 3). -/
def destBad (k : SliceId) (p : Packet) (s : State) : State := setFlag (aClsFlags k) 6 (count1 (aCls k 0x40) (discard p s))

/-- A frame that a mirror session also holds lies in a MIRROR buffer with one more reference (R291, R292). -/
def shareBuf (p : Packet) (s : State) : State :=
  match p.buf with
  | some w =>
    let o := bufOwner s w
    if privileged o then bufOp (ptrSliceId w) .refAdd w o s
    else bufOp (ptrSliceId w) (.handOff (ownerId (ptrSlice w) unitMirror) 2) w o s
  | none => s

/-- Step 5 of R261: a copy for the mirror session, cut to TRUNCATE (R279). -/
def mirrorFrame (k : SliceId) (p : Packet) (n : Nat) (s : State) : State :=
  if n = 0 then s
  else
    let m := sparseGet {} s.path.mirrors n
    if m.destKind = 0 ∨ destValid s 3 m.destKind m.dest = false then count1 (aCls k 0x40) s
    else
      let c := { p with bytes := if m.truncate = 0 then p.bytes else p.bytes.take m.truncate,
                        mirror := true, ptpEvent := false, txRef := none, launch := none }
      toDest m.destKind m.dest m.queue c (count1 (aCls k 0x78) (shareBuf p s))

/-- A final result carried out in the order of R261. -/
def carryOut (k : SliceId) (p : Packet) (version : Bool) (key : BitVec 576) (r : Wide) (s : State) : State :=
  if resKind r = 0 then count1 (aCls k 0x38) (discard p s)
  else
    let d : Option (Nat × Nat) :=
      if resKind r = 5 then spreadMember s (clsAt s k) version (resDest r) key else some (resKind r, resDest r)
    match d with
    | none => setFlag (aClsFlags k) 7 (count1 (aCls k 0x70) (discard p s))
    | some (kind, dest) =>
      if !destValid s p.src.kind kind dest then destBad k p s
      else
        let (ok, s1) := police k p r s
        if ok then toDest kind dest (resQueue r) p (mirrorFrame k p (resMirror r) s1) else discard p s1

/-! Passes. -/

/-- RECIRC hands the frame to the recirculation queue, 512 frames deep, with its source's settings (R262). -/
def recirculate (k : SliceId) (p : Packet) (src : SourceSet) (version : Bool) (tag : Nat) (s : State) : State :=
  if 512 ≤ (clsAt s k).recirc.length then setFlag (aClsFlags k) 8 (count1 (aCls k 0x50) (discard p s))
  else
    let s1 := passBuf p.buf (ownerId k.val unitRecirc) s
    modCls s1 k fun c => { c with
      recirc := c.recirc ++ [{ pkt := p, version := version, passTag := tag, counts := c.counts.toList, src := src }] }

/-- Counts and flags of a parse (R253, R280). -/
def parseMarks (k : SliceId) (o : Nat) (s : State) : State :=
  let s1 := count1 (aCls k 0x00) s
  if o = outcomeLimit then setFlag (aClsFlags k) 3 (count1 (aCls k 0x08) s1)
  else if o = outcomeMalformed then setFlag (aClsFlags k) 4 (count1 (aCls k 0x10) s1)
  else s1

/-- The source's action for an outcome: 0 CLASSIFY, 1 DROP, 2 MANAGEMENT (R253). -/
def outcomeAction (src : SourceSet) (o : Nat) : Nat :=
  if o = outcomeLimit then src.limitAction else if o = outcomeMalformed then src.malformedAction else 0

/-- The hit counters (R257). -/
def hitCount (k : SliceId) (h : HitKind) (s : State) : State :=
  match h with
  | .em => count1 (aCls k 0x20) s
  | .tern => count1 (aCls k 0x28) s
  | .miss => count1 (aCls k 0x30) s

/-- The second pass takes a frame out of RECIRC: it goes back to the owner that received it, which holds it while it is queued, unless
the result drops it (R284, R291, log 134). -/
def fromRecirc (p : Packet) (s : State) : State := passBuf p.buf p.owner s

/-- One pass of a frame under the settings `src` of its source: parse, action, key, lookup and what its result says (R248 to
R263). -/
def classifyPass (k : SliceId) (p : Packet) (src : SourceSet) (second : Bool) (version revised : Bool) (tag : Nat) (s : State) : State :=
  let q := parseFrame p.bytes src.vxlan
  let pkt := { p with ptpEvent := q.ptpEvent, ptpOff := q.ptpOff, outcome := q.outcome, passTag := tag }
  let s1 := parseMarks k q.outcome s
  match outcomeAction src q.outcome with
  | 1 => discard pkt s1
  | 2 => mgtDeliver 7 pkt (count1 (aCls k 0x18) s1)
  | _ =>
    let inner := if second && q.tunnelled then !src.inner else src.inner
    let key := buildKey { kind := p.src.kind, id := p.src.id, pass := second.toNat, version := version, l3Bad := p.l3Bad,
                          l4Bad := p.l4Bad, revised := revised, portId := p.portId.toNat, passTag := tag, inner := inner } q
    let (h, r) := lookup (clsAt s1 k) src version key
    let s2 := hitCount k h s1
    if resRecirc r && !second then recirculate k pkt src version (resPassTag r) s2
    else
      let s3 := if resRecirc r then count1 (aCls k 0x58) s2 else s2
      carryOut k pkt version key r (if second && resKind r != 0 then fromRecirc pkt s3 else s3)

/-! PARSE_AND_CLASSIFY. -/

def parseAndClassifyGuard (slice : SliceId) (s : State) : Bool := !s.path.ingress[slice].isEmpty

/-- The oldest frame that waits makes its first pass; it takes the current version (R265). -/
def parseAndClassifyEffect (slice : SliceId) (s : State) : State :=
  match s.path.ingress[slice] with
  | p :: t =>
    let s1 := { s with path := { s.path with ingress := vmod s.path.ingress slice fun _ => t } }
    classifyPass slice p (sourceOf s p.src) false (clsAt s slice).version false 0 s1
  | [] => s

def execParseAndClassify (slice : SliceId) (s : State) : Host.Outcome State Fault Refusal :=
  .next (whenB (parseAndClassifyGuard slice s) (parseAndClassifyEffect slice) s)

/-! RECIRC_PASS (R262, R263, R268). -/

def recircPassGuard (slice : SliceId) (s : State) : Bool := !(clsAt s slice).recirc.isEmpty

/-- An ATOMIC_ENTRY count has changed since the first lookup: exact-match, ternary, spread, settings (R268). -/
def isRevised (c : ClsSt) (old : List Nat) : Bool :=
  (List.finRange 4).any fun i =>
    (if h : i.val < 3 then !c.versioned[i.val] else true) && old.getD i.val 0 != c.counts[i]

def recircPassEffect (slice : SliceId) (s : State) : State :=
  match (clsAt s slice).recirc with
  | i :: t =>
    let rev := isRevised (clsAt s slice) i.counts
    let s1 := count1 (aCls slice 0x48) (modCls s slice fun c => { c with recirc := t })
    classifyPass slice i.pkt i.src true i.version rev i.passTag (if rev then count1 (aCls slice 0x60) s1 else s1)
  | [] => s

def execRecircPass (slice : SliceId) (s : State) : Host.Outcome State Fault Refusal :=
  .next (whenB (recircPassGuard slice s) (recircPassEffect slice) s)

/-! Retirement (R266). -/

/-- Frames of the old version that still recirculate. -/
def oldInFlight (c : ClsSt) : Nat := (c.recirc.filter fun i => i.version != c.version).length

/-- Copy the current tables into the shadow, clear RETIRE_PENDING and STAGED, set RETIRED and LAST_RETIRE in 10 ns. -/
def retireTables (slice : SliceId) (s : State) : State :=
  setFlag (aClsFlags slice) 1 (modCls s slice fun c => { c with
    shadow := c.cur, retirePending := false, staged := Vector.replicate 3 false,
    lastRetire := min 65535 ((s.now - c.flipAt) / 8) })

def retirementGuard (slice : SliceId) (s : State) : Bool :=
  let c := clsAt s slice
  c.retirePending && c.loading.isNone && oldInFlight c == 0

def retirementEffect (slice : SliceId) (s : State) : State := retireTables slice s

def execRetirement (slice : SliceId) (s : State) : Host.Outcome State Fault Refusal :=
  .next (whenB (retirementGuard slice s) (retirementEffect slice) s)

/-- RETIRE_FORCED: frames of the old version still queued 40 us after the flip are discarded. -/
def retireForcedGuard (slice : SliceId) (s : State) : Bool :=
  let c := clsAt s slice
  c.retirePending && c.loading.isNone && oldInFlight c != 0 && since s c.flipAt (40 * usTicks)

def retireForcedEffect (slice : SliceId) (s : State) : State :=
  let c := clsAt s slice
  let old := c.recirc.filter fun i => i.version != c.version
  let s1 := modCls s slice fun c => { c with recirc := c.recirc.filter fun i => i.version == c.version }
  setFlag (aClsFlags slice) 2 (count (aCls slice 0x68) old.length (foldS old (fun i st => discard i.pkt st) s1))

def execRetireForced (slice : SliceId) (s : State) : Host.Outcome State Fault Refusal :=
  .next (whenB (retireForcedGuard slice s) (retireForcedEffect slice) s)

/-- A table's shadow copy has been loaded after a change to VERSIONED (R277). -/
def shadowLoadCompleteGuard (slice : SliceId) (s : State) : Bool := (clsAt s slice).loading.isSome

def shadowLoadCompleteEffect (slice : SliceId) (s : State) : State :=
  modCls s slice fun c => { c with
    shadow := match c.loading with
      | some 0 => { c.shadow with em := c.cur.em }
      | some 1 => { c.shadow with tern := c.cur.tern }
      | some _ => { c.shadow with spread := c.cur.spread }
      | none => c.shadow,
    loading := none, retirePending := false }

def execShadowLoadComplete (slice : SliceId) (s : State) : Host.Outcome State Fault Refusal :=
  .next (whenB (shadowLoadCompleteGuard slice s) (shadowLoadCompleteEffect slice) s)

/-! Commands (R271 to R279). -/

/-- A change of settings counts for REVISED (R268). -/
def bumpSettings (s : State) : State :=
  foldS (List.finRange 8) (fun k st => modCls st k fun c => { c with counts := vmod c.counts 3 (· + 1) }) s

/-- Retirement is pending on a slice in the mask (R267). -/
def retiring (r : Request) (s : State) : Bool := r.maskSlices.any fun k => (clsAt s k).retirePending

def clsSourceSetChecks (r : Request) (s : State) : List Check :=
  let k := r.u8 0
  let id := r.u8 1
  [ckLen r 16,
   ckRange ((k == 0 && (decide (31 < id) || !present s (id / 4))) || (k == 1 && decide (3 < id)) || decide (3 < k) ||
     resAbsent s (BitVec.ofNat 64 (r.u64 4))),
   ckRange (decide (r.u8 2 / 2 % 4 = 3) || decide (r.u8 2 / 8 % 4 = 3) || decide (32 ≤ r.u8 2) || resv r 14 2 ||
     (decide (15 < r.u8 3) && r.u8 3 != 255) || r.u16 12 == 0 || resBad (BitVec.ofNat 64 (r.u64 4)))]

def clsSourceSetApply (r : Request) (s : State) : Done :=
  let v : SourceSet := { inner := natBit (r.u8 2) 0, limitAction := r.u8 2 / 2 % 4, malformedAction := r.u8 2 / 8 % 4,
                         profile := if r.u8 3 = 255 then none else some (r.u8 3), miss := BitVec.ofNat 64 (r.u64 4),
                         vxlan := r.u16 12 }
  okDone (bumpSettings { s with path := { s.path with
    sources := sparseSet {} s.path.sources (sourceKey { kind := r.u8 0, id := r.u8 1 }) v } })

def execClsSourceSet (s : State) : Host.Outcome State Fault Refusal :=
  .next (runCommand 0x0300 clsSourceSetChecks clsSourceSetApply s)

/-- The field list of a PROFILE_SET. -/
def profileFields (r : Request) : List Nat := (List.range (r.u8 1)).map fun i => r.u8 (4 + i)

/-- A valid exact-match entry of the slice uses the profile. -/
def profileInUse (c : ClsSt) (p : Nat) : Bool :=
  (c.cur.em ++ (if c.versioned[emTable] then c.shadow.em else [])).any fun e => match e.2 with | some x => x.profile == p | none => false

def profileSetChecks (r : Request) (s : State) : List Check :=
  let fs := profileFields r
  let w : Nat := fs.foldl (fun n f => n + (match keyField f with | some x => x.2 | none => 0)) 0
  [ckLen r 12, ckRange (maskBad r s),
   ckRange (decide (15 < r.u8 0) || decide (8 < r.u8 1) || resv r 2 2 || fs.any fun f => (keyField f).isNone),
   ⟨decide (160 < w) || !fs.Nodup || r.maskSlices.any fun k => profileInUse (clsAt s k) (r.u8 0), .conflict⟩]

def profileSetApply (r : Request) (s : State) : Done :=
  okDone (foldS r.maskSlices (fun k st => modCls st k fun c => { c with
    profiles := vmod c.profiles (Fin.ofNat 16 (r.u8 0)) fun _ => profileFields r, counts := vmod c.counts 3 (· + 1) }) s)

def execProfileSet (s : State) : Host.Outcome State Fault Refusal :=
  .next (runCommand 0x0301 profileSetChecks profileSetApply s)

/-! RULE_WRITE (R273, R274). -/

/-- An item of an exact-match request. -/
structure EmItem where
  profile : Nat
  key : BitVec 160
  result : Wide
  deriving DecidableEq, Repr

def ruleTable (r : Request) : Nat := r.u8 0
def ruleOp (r : Request) : Nat := r.u8 1
def ruleCount (r : Request) : Nat := r.u16 2

/-- Item size of a table. -/
def ruleItemSize (t : Nat) : Nat := if t = 0 then 32 else if t = 1 then 160 else 8

/-- Offset of item `i`. -/
def itemAt (r : Request) (i : Nat) : Nat := 8 + ruleItemSize (ruleTable r) * i

def emItem (r : Request) (i : Nat) : EmItem :=
  let o := itemAt r i
  { profile := r.u8 o, key := BitVec.ofNat 160 (leAt r.payload (o + 4) 20), result := BitVec.ofNat 64 (leAt r.payload (o + 24) 8) }

def emItems (r : Request) : List EmItem := (List.range (ruleCount r)).map (emItem r)

/-- A ternary item: index, and the entry or none. -/
def ternItem (r : Request) (i : Nat) : Nat × Option TernEntry :=
  let o := itemAt r i
  (r.u16 o, if natBit (r.u8 (o + 2)) 0 then
    some { value := BitVec.ofNat 576 (leAt r.payload (o + 8) 72), mask := BitVec.ofNat 576 (leAt r.payload (o + 80) 72),
           result := BitVec.ofNat 64 (leAt r.payload (o + 152) 8) } else none)

/-- A spread item: group, index, member. -/
def spreadItem (r : Request) (i : Nat) : Nat × Nat × Nat :=
  let o := itemAt r i
  (r.u8 o, r.u16 (o + 2), r.u16 (o + 4))

/-- Members of a kind (R269). -/
def memberMax (kind : Nat) : Nat := if kind = 0 then 255 else 31

/-- A line lane or host port on an absent slice, as a member (R3). -/
def memberAbsent (s : State) (kind m : Nat) : Bool := kind != 0 && decide (m ≤ 31) && !present s (m / 4)

/-- The table that RULE_WRITE changes: the shadow of a VERSIONED table (R264, R265). -/
def writeTables (c : ClsSt) (t : Fin 3) : RuleTables := if c.versioned[t] then c.shadow else c.cur

def ruleItemsBad (r : Request) (s : State) : Bool :=
  (List.range (ruleCount r)).any fun i =>
    let o := itemAt r i
    match ruleTable r with
    | 0 => decide (15 < r.u8 o) || resv r (o + 1) 3 || (ruleOp r != 2 && resBad (emItem r i).result)
    | 1 => decide (16383 < r.u16 o) || decide (1 < r.u8 (o + 2)) || resv r (o + 3) 5 ||
        resBad (BitVec.ofNat 64 (leAt r.payload (o + 152) 8))
    | _ => decide (63 < r.u8 o) || resv r (o + 1) 1 || decide (511 < r.u16 (o + 2)) || resv r (o + 6) 2 ||
        r.maskSlices.any fun k => decide (memberMax (sparseGet {} (clsAt s k).groups (r.u8 o)).kind < r.u16 (o + 4))

/-- An item names a host port or a line lane on an absent slice (R3, R465). -/
def ruleItemsAbsent (r : Request) (s : State) : Bool :=
  (List.range (ruleCount r)).any fun i =>
    match ruleTable r with
    | 0 => ruleOp r != 2 && resAbsent s (emItem r i).result
    | 1 => resAbsent s (BitVec.ofNat 64 (leAt r.payload (itemAt r i + 152) 8))
    | _ => r.maskSlices.any fun k =>
        memberAbsent s (sparseGet {} (clsAt s k).groups (spreadItem r i).1).kind (spreadItem r i).2.2

/-- COUNT in the range of its table and OP. -/
def ruleCountBad (r : Request) : Bool :=
  let m := if ruleTable r = 0 then 127 else if ruleTable r = 1 then 25 else 256
  ruleCount r == 0 || decide (m < ruleCount r)

/-- Keys or indexes of the items. -/
def ruleNames (r : Request) : List (Nat × Nat) :=
  (List.range (ruleCount r)).map fun i =>
    match ruleTable r with
    | 0 => ((emItem r i).profile, (emItem r i).key.toNat)
    | 1 => ((ternItem r i).1, 0)
    | _ => ((spreadItem r i).1, (spreadItem r i).2.1)

/-- REASON of a CONFLICT: DUPLICATE for an ADD of a key present, ABSENT for a REPLACE or DELETE of one absent (R274). -/
def ruleReason (r : Request) (s : State) : Nat :=
  if ruleTable r ≠ 0 then 0
  else
    let has := fun (k : SliceId) (e : EmItem) => (emFind (writeTables (clsAt s k) emTable) e.profile e.key).isSome
    if ruleOp r = 0 then (if r.maskSlices.any fun k => (emItems r).any (has k) then 1 else 0)
    else if r.maskSlices.any fun k => (emItems r).any fun e => !has k e then 3 else 0

/-- A profile with no fields, or a name given twice. -/
def ruleConflict (r : Request) (s : State) : Bool :=
  !(ruleNames r).Nodup || ruleReason r s != 0 ||
    (ruleTable r == 0 && r.maskSlices.any fun k => (emItems r).any fun e =>
      (if h : e.profile < 16 then (clsAt s k).profiles[e.profile] else []).isEmpty)

def ruleWriteChecks (r : Request) (s : State) : List Check :=
  let v : Bool := r.maskSlices.any fun k => (if h : ruleTable r < 3 then (clsAt s k).versioned[ruleTable r] else false) && (clsAt s k).retirePending
  [⟨decide (r.len < 8) || (decide (ruleTable r ≤ 2) && r.len != 8 + ruleCount r * ruleItemSize (ruleTable r)), .badLength⟩,
   ckRange (maskBad r s || (decide (ruleTable r ≤ 2) && ruleItemsAbsent r s)),
   ⟨v, .busy⟩,
   ckRange (decide (2 < ruleTable r) || decide ((if ruleTable r = 0 then 2 else 0) < ruleOp r) || ruleCountBad r ||
     resv r 4 4 || ruleItemsBad r s)]

/-- A free position for a profile and key, after moving at most `fuel` standing entries of which none stands at a position of
`kept`: the position and the table. -/
def emFree (t : RuleTables) : Nat → List Nat → Nat → BitVec 160 → Option (Nat × RuleTables)
  | 0, kept, profile, key =>
    ([0, 1, 2, 3].find? fun w => (sparseGet none t.em (emIndex w profile key)).isNone && !kept.contains (emIndex w profile key)).map
      fun w => (emIndex w profile key, t)
  | fuel + 1, kept, profile, key =>
    [0, 1, 2, 3].findSome? fun w =>
      let i := emIndex w profile key
      if kept.contains i then none
      else match sparseGet none t.em i with
        | none => some (i, t)
        | some e =>
          match emFree t fuel (i :: kept) e.profile e.key with
          | some (j, u) => some (i, { u with em := sparseSet none (sparseSet none u.em j (some e)) i none })
          | none => none

/-- Add an entry: at a free position, or after moving up to 8 standing entries (R259); the fewest that make room, the lowest ways
first (DESIGN CHOICE, log 132). -/
def emAdd (t : RuleTables) (e : EmItem) : Option RuleTables :=
  match (List.range 9).findSome? fun n => emFree t n [] e.profile e.key with
  | some (i, u) => some { u with em := sparseSet none u.em i (some { profile := e.profile, key := e.key, result := e.result }) }
  | none => none

/-- One exact-match item on a table; none where it finds no room. -/
def emApply (op : Nat) (t : RuleTables) (e : EmItem) : Option RuleTables :=
  if op = 0 then emAdd t e
  else match emFind t e.profile e.key with
    | some (i, _) =>
      let v : Option EmEntry := if op = 1 then some { profile := e.profile, key := e.key, result := e.result } else none
      some { t with em := sparseSet none t.em i v }
    | none => some t

/-- Put a changed table back, staged where VERSIONED, counted where ATOMIC_ENTRY (R264, R265, R268). -/
def putTables (k : SliceId) (t : Fin 3) (v : RuleTables) (s : State) : State :=
  modCls s k fun c =>
    if c.versioned[t] then { c with shadow := v, staged := c.staged.set t true }
    else { c with cur := v, counts := vmod c.counts ⟨t.val, by omega⟩ (· + 1) }

/-- One item on one slice. -/
def ruleItem (r : Request) (i : Nat) (k : SliceId) (s : State) : State :=
  match ruleTable r with
  | 0 =>
    match emApply (ruleOp r) (writeTables (clsAt s k) emTable) (emItem r i) with
    | some t => putTables k emTable t s
    | none => s
  | 1 =>
    let t := writeTables (clsAt s k) ternTable
    putTables k ternTable { t with tern := sparseSet none t.tern (ternItem r i).1 (ternItem r i).2 } s
  | _ =>
    let t := writeTables (clsAt s k) spreadTable
    let m := spreadItem r i
    putTables k spreadTable { t with spread := sparseSet 0 t.spread (512 * m.1 + m.2.1) m.2.2 } s

/-- The slices of the mask on which an exact-match item finds no room (R259). -/
def noRoom (r : Request) (i : Nat) (s : State) : List SliceId :=
  r.maskSlices.filter fun k => ruleTable r == 0 &&
    (emApply (ruleOp r) (writeTables (clsAt s k) emTable) (emItem r i)).isNone

/-- Items in request order until one finds no room on some slice: its index, with every earlier item in place (R274). -/
def ruleItems (r : Request) : List Nat → State → Option Nat × State
  | [], s => (none, s)
  | i :: t, s =>
    let full := noRoom r i s
    if full.isEmpty then ruleItems r t (foldS r.maskSlices (ruleItem r i) s)
    else (some i, foldS full (fun k st => setFlag (aClsFlags k) 5 (count1 (aCls k 0x80) st)) s)

/-- The 4-byte response. -/
def ruleResponse (applied reason : Nat) : List Byte := toLe 2 applied ++ [BitVec.ofNat 8 reason, 0]

def ruleWriteApply (r : Request) (s : State) : Done :=
  if ruleConflict r s then { st := s, status := .conflict, payload := ruleResponse 0 (ruleReason r s) }
  else
    match ruleItems r (List.range (ruleCount r)) s with
    | (none, s1) => { st := s1, payload := ruleResponse (ruleCount r) 0 }
    | (some i, s1) => { st := s1, status := .conflict, payload := ruleResponse i 2 }

def execRuleWrite (s : State) : Host.Outcome State Fault Refusal :=
  .next (runCommand 0x0302 ruleWriteChecks ruleWriteApply s)

/-! RULE_READ (R275). -/

/-- Entries of a table. -/
def ruleTableSize (t : Nat) : Nat := if t = 0 then 262144 else if t = 1 then 16384 else 32768

/-- Bytes of a response item. -/
def readItemSize (t : Nat) : Nat := if t = 0 then 33 else if t = 1 then 160 else 8

def ruleReadChecks (r : Request) (s : State) : List Check :=
  let n := r.u16 4
  [ckLen r 8, ckRange (maskBad r s),
   ckRange (decide (2 < r.u8 0) || decide (1 < r.u8 1) || resv r 6 2 || decide (ruleTableSize (r.u8 0) < r.u16 2 + n) ||
     decide (4080 < n * readItemSize (r.u8 0))),
   ⟨r.u8 1 == 1 && (match r.maskSlices.head? with
      | some k => if h : r.u8 0 < 3 then !(clsAt s k).versioned[r.u8 0] else false
      | none => false), .conflict⟩]

/-- One item of the response. -/
def ruleReadItem (t : RuleTables) (table i : Nat) : List Byte :=
  match table with
  | 0 =>
    match sparseGet none t.em i with
    | some e => [BitVec.ofNat 8 e.profile, 0, 0, 0] ++ toLe 20 e.key.toNat ++ toLe 8 e.result.toNat ++ [1]
    | none => List.replicate 33 0
  | 1 =>
    match sparseGet none t.tern i with
    | some e => toLe 2 i ++ [1, 0, 0, 0, 0, 0] ++ toLe 72 e.value.toNat ++ toLe 72 e.mask.toNat ++ toLe 8 e.result.toNat
    | none => toLe 2 i ++ List.replicate 158 0
  | _ => [BitVec.ofNat 8 (i / 512), 0] ++ toLe 2 (i % 512) ++ toLe 2 (sparseGet 0 t.spread i) ++ [0, 0]

def ruleReadApply (r : Request) (s : State) : Done :=
  match r.maskSlices.head? with
  | some k =>
    let t := if r.u8 1 = 1 then (clsAt s k).shadow else (clsAt s k).cur
    { st := s, payload := (List.range (r.u16 4)).flatMap fun i => ruleReadItem t (r.u8 0) (r.u16 2 + i) }
  | none => okDone s

def execRuleRead (s : State) : Host.Outcome State Fault Refusal :=
  .next (runCommand 0x0303 ruleReadChecks ruleReadApply s)

/-! RULE_COMMIT (R265, R276). -/

def ruleCommitChecks (r : Request) (s : State) : List Check :=
  [ckLen r 0, ckRange (maskBad r s), ⟨retiring r s, .busy⟩]

/-- Flip V on a slice: the staged copies of the VERSIONED tables become current; without such a table nothing retires. -/
def flip (k : SliceId) (s : State) : State :=
  let c := clsAt s k
  let any := c.versioned.toList.any id
  let pick := fun (t : Fin 3) => if c.versioned[t] then c.shadow else c.cur
  let other := fun (t : Fin 3) => if c.versioned[t] then c.cur else c.shadow
  setFlag (aClsFlags k) 0 (modCls s k fun c => { c with
    version := !c.version,
    cur := { em := (pick 0).em, tern := (pick 1).tern, spread := (pick 2).spread },
    shadow := { em := (other 0).em, tern := (other 1).tern, spread := (other 2).spread },
    retirePending := any, flipAt := s.now })

def ruleCommitApply (r : Request) (s : State) : Done :=
  let s1 := foldS r.maskSlices flip s
  let v := r.maskSlices.foldl (fun n k => if (clsAt s1 k).version then n + 2 ^ k.val else n) 0
  { st := s1, payload := [BitVec.ofNat 8 v, 0, 0, 0] }

def execRuleCommit (s : State) : Host.Outcome State Fault Refusal :=
  .next (runCommand 0x0304 ruleCommitChecks ruleCommitApply s)

/-! TABLE_MODE_SET (R277). -/

def tableModeSetChecks (r : Request) (s : State) : List Check :=
  [ckLen r 4, ckRange (maskBad r s), ⟨retiring r s, .busy⟩,
   ckRange (decide (2 < r.u8 0) || decide (1 < r.u8 1) || resv r 2 2),
   ⟨r.u8 1 == 0 && r.maskSlices.any fun k =>
      let t : Fin 3 := Fin.ofNat 3 (r.u8 0)
      (clsAt s k).versioned[t] && (clsAt s k).staged[t], .conflict⟩]

def tableModeSetApply (r : Request) (s : State) : Done :=
  let t : Fin 3 := Fin.ofNat 3 (r.u8 0)
  let v := r.u8 1 == 1
  okDone (foldS r.maskSlices (fun k st =>
    if (clsAt st k).versioned[t] = v then st
    else
      let ld : Option (Fin 3) := if v then some t else none
      modCls st k fun c => { c with versioned := c.versioned.set t v, retirePending := v, loading := ld }) s)

def execTableModeSet (s : State) : Host.Outcome State Fault Refusal :=
  .next (runCommand 0x0305 tableModeSetChecks tableModeSetApply s)

/-! SPREAD_SET, MIRROR_SET (R278, R279). -/

def spreadSetChecks (r : Request) (s : State) : List Check :=
  let fields := BitVec.ofNat 32 (r.u32 4)
  [ckLen r 44, ckRange (maskBad r s),
   ckRange (decide (63 < r.u8 0) || decide (2 < r.u8 1) || (r.u8 1 == 1 && decide (3 < r.u8 2)) || resv r 3 1 ||
     bitOf fields 0 || fld fields 27 5 != 0 ||
     (r.u8 1 == 1 && (List.range 32).any fun i => decide (63 < r.u8 (12 + i)))),
   ⟨r.maskSlices.any fun k =>
      (sparseGet {} (clsAt s k).groups (r.u8 0)).kind != r.u8 1 &&
        ([(clsAt s k).cur] ++ (if (clsAt s k).versioned[spreadTable] then [(clsAt s k).shadow] else [])).any fun t =>
          t.spread.any fun e => e.1 / 512 == r.u8 0 && (decide (memberMax (r.u8 1) < e.2) || memberAbsent s (r.u8 1) e.2), .conflict⟩]

def spreadSetApply (r : Request) (s : State) : Done :=
  let lane := r.u8 1 == 1
  let accts := (List.range 32).map fun i => r.u8 (12 + i)
  let g : SpreadGroup :=
    { kind := r.u8 1, trunk := if lane then r.u8 2 else 0, fields := BitVec.ofNat 32 (r.u32 4),
      seed := BitVec.ofNat 32 (r.u32 8), laneAccount := if lane then accts else [] }
  okDone (foldS r.maskSlices (fun k st => modCls st k fun c => { c with
    groups := sparseSet {} c.groups (r.u8 0) g, counts := vmod c.counts 3 (· + 1) }) s)

def execSpreadSet (s : State) : Host.Outcome State Fault Refusal :=
  .next (runCommand 0x0306 spreadSetChecks spreadSetApply s)

/-- Whether a mirror destination lies in range (R260, R279). -/
def mirrorRangeBad (r : Request) : Bool :=
  let k := r.u8 1
  let d := r.u16 2
  (k == 2 && (decide (31 < d) || decide (31 < r.u8 4))) || (k == 3 && (d == 0 || decide (63 < d))) || (k == 4 && decide (7 < d)) ||
    !(k == 0 || k == 2 || k == 3 || k == 4)

def mirrorSetChecks (r : Request) (s : State) : List Check :=
  [ckLen r 8,
   ckRange (r.u8 1 == 2 && !present s (r.u16 2 / 4)),
   ckRange (r.u8 0 == 0 || decide (15 < r.u8 0) || mirrorRangeBad r || resv r 5 1 ||
     !(r.u16 6 == 0 || (decide (64 ≤ r.u16 6) && decide (r.u16 6 ≤ 10240))))]

def mirrorSetApply (r : Request) (s : State) : Done :=
  let m : MirrorSess := if r.u8 1 = 0 then {} else { destKind := r.u8 1, dest := r.u16 2, queue := r.u8 4, truncate := r.u16 6 }
  okDone { s with path := { s.path with mirrors := sparseSet {} s.path.mirrors (r.u8 0) m } }

def execMirrorSet (s : State) : Host.Outcome State Fault Refusal :=
  .next (runCommand 0x0307 mirrorSetChecks mirrorSetApply s)

end Sys2Proof.Machine
end

