-- ==== Sys2Proof/Machine/Mirror.lean ====
section
/-!
DEFINITION. Machine/Mirror.lean: the deputy's mirror of the configuration, as the loss of its path leaves it, and its loading at a
takeover (spec/02_package_slices_anchor.md, R33, R36, R40, R41).
-/
namespace Sys2Proof.Machine

/-- What the mirror of half `h` holds: every slice's configuration, the contact-sheet head, the MSI-X table and the PCIe configuration
space (R33). -/
def mirrorImage (h : Half) (s : State) : Mirror :=
  { holder := h, trunk := s.trunk, path := s.path, crypto := s.crypto, time := s.time, fabric := s.fabric, serdes := s.serdes, power := s.power, srMask := s.hbm.srMask, srIdle := s.hbm.srIdle,
    sensors := s.fw.sensors, vecs := s.ev.vecs, classMap := s.ev.classMap, evq := s.ev.evq, head := s.ev.nextSeq,
    cfgSpace := s.anchor.cfgSpace }

/-- The deputy's mirror as the loss of the last path to it leaves it (R33, R41). -/
def keepMirror (s : State) : State :=
  match anchorSlice s with
  | some h => if s.anchor.mirrorSync && s.mirror.isNone then { s with mirror := some (mirrorImage (if h = 0 then 1 else 0) s) } else s
  | none => s

/-! Settings taken from the mirror: what commands set, without what the device does meanwhile. -/

def mirrorShaper (m x : Shaper) : Shaper := { x with rate := m.rate, burst := m.burst, tokens := min x.tokens (m.burst * byteUnits : Nat) }

def mirrorQueue (m x : EgressQ) : EgressQ :=
  { x with shaper := mirrorShaper m.shaper x.shaper, weight := m.weight, node := m.node, prio := m.prio, timed := m.timed,
           dropLate := m.dropLate, lateLimit := m.lateLimit }

def mirrorNode (m x : NodeSt) : NodeSt := { x with shaper := mirrorShaper m.shaper x.shaper, weight := m.weight }

/-- PORT_SET, FLOW_CONTROL_SET, EEE_SET, MAC_FILTER_WRITE, the scheduler's settings of a port. -/
def mirrorPort (m x : PortSt) : PortSt :=
  { x with flags := m.flags, maxFrame := m.maxFrame, defPrio := m.defPrio, fcMode := m.fcMode, rxHonour := m.rxHonour,
           txEnable := m.txEnable, pfcMask := m.pfcMask, quanta := m.quanta, refresh := m.refresh, watchdog := m.watchdog,
           eee := m.eee, twTx := m.twTx, lpiIdle := m.lpiIdle, hash := m.hash, exact := m.exact,
           shaper := mirrorShaper m.shaper x.shaper, overhead := m.overhead, treePend := m.treePend,
           queues := Vector.ofFn fun q : Fin 32 => mirrorQueue m.queues[q] x.queues[q],
           nodes := Vector.ofFn fun n : Fin 8 => mirrorNode m.nodes[n] x.nodes[n] }

/-- The classifier's tables, versions, profiles and spread groups. -/
def mirrorCls (m x : ClsSt) : ClsSt :=
  { x with version := m.version, retirePending := m.retirePending, flipAt := m.flipAt, staged := m.staged, versioned := m.versioned,
           cur := m.cur, shadow := m.shadow, profiles := m.profiles, groups := m.groups, loading := m.loading }

/-- A pool's thresholds, and its carving where no buffer of the slice is allocated. -/
def mirrorPool (empty : Bool) (m x : PoolSt) : PoolSt :=
  if empty then m else { x with warn := m.warn, pause := m.pause, drop := m.drop }

/-- POOL_CARVE, BUF_OWNER_SET, BUF_PRIO_SET and BUF_POOL_SET of a slice. -/
def mirrorBuf (m x : BufSt) : BufSt :=
  { x with
    stopped := m.stopped, carvePend := m.carvePend,
    pools := Vector.ofFn fun p : Fin 5 => mirrorPool x.bitmap.isEmpty m.pools[p] x.pools[p],
    owners := Vector.ofFn fun u : Fin 17 => { m.owners[u] with paused := x.owners[u].paused },
    prios := Vector.ofFn fun j : Fin 4 => Vector.ofFn fun p : Fin 8 => { (m.prios[j])[p] with xoff := ((x.prios[j])[p]).xoff } }

/-- Loops, patterns and equalisation of a serial lane. -/
def mirrorSerial (m x : SerialLane) : SerialLane :=
  { x with loop := m.loop, emit := m.emit, deliver := m.deliver, quiet := m.quiet, loopEnd := m.loopEnd, loopDelay := m.loopDelay,
           gen := m.gen, chk := m.chk, eq := m.eq, eqSource := m.eqSource }

/-- DVFS_SET and the times of POWER_STATE_SET of a slice. -/
def mirrorPower (m x : SlicePw) : SlicePw :=
  { x with levelReq := m.levelReq, idleTime := m.idleTime, drowseTime := m.drowseTime, dormantTime := m.dormantTime }

/-- Take a slice's value from the mirror where the new anchor reaches it. -/
def onReached {α : Type} (reach : SliceId → Bool) (k : SliceId) (m x : α) (f : α → α → α) : α := if reach k then f m x else x

/-- The settings of the entries that `P` names, `f` taking them over from the mirrored entry. -/
def mirrorKeys {α : Type} [DecidableEq α] (d : α) (P : Nat → Bool) (f : α → α → α) (m x : Sparse α) : Sparse α :=
  ((m ++ x).filter fun e => P e.1).foldl (fun t e => sparseMod d t e.1 (f (sparseGet d m e.1))) x

/-- The new anchor reaches a lane of the group; a group without lanes is the anchor's own. -/
def mirrorsGroup (reach : SliceId → Bool) (s : State) (g : GroupId) : Bool :=
  (groupAt s g).binding.isEmpty || (groupAt s g).binding.any fun b => reach (laneSlice b.1)

/-- TRUNK_GROUP_SET and PROTECT_SET before they apply, RANGE_PROVISION, RUNAHEAD_SET and DEFECT_SET. -/
def mirrorGroup (m x : GroupSt) : GroupSt :=
  { x with
    bindPend := m.bindPend, pairPend := m.pairPend, timeSource := m.timeSource, announce := m.announce, timeLaneCfg := m.timeLaneCfg,
    coarseRtt := m.coarseRtt, modemTx := m.modemTx, modemRx := m.modemRx, asym := m.asym, holdoverLimit := m.holdoverLimit,
    predict := m.predict, preempt := m.preempt, horizon := m.horizon, depth := m.depth, cutoff := m.cutoff, margin := m.margin,
    holdoff := m.holdoff, w1 := m.w1, w8 := m.w8, w64 := m.w64, reportMask := m.reportMask, lfOnAis := m.lfOnAis,
    lfOnLosLof := m.lfOnLosLof, laneThresh := m.laneThresh, lofTime := m.lofTime, sfThresh := m.sfThresh, sdThresh := m.sdThresh,
    lfPorts := m.lfPorts }

/-- PORT_FILTER_WRITE and the settings of the groups. -/
def mirrorTrunk (grp : GroupId → Bool) (m x : TrunkAll) : TrunkAll :=
  { x with
    groups := Vector.ofFn fun g : Fin 4 => if grp g then mirrorGroup m.groups[g] x.groups[g] else x.groups[g],
    filter := mirrorKeys {} (fun _ => true) (fun e _ => e) m.filter x.filter }

def mirrorClass (m x : ClassSt) : ClassSt := { x with shaper := mirrorShaper m.shaper x.shaper, weight := m.weight }

/-- SCHED_SET, KEY_BIND and SPILL_SET of an account. -/
def mirrorAccount (m x : AccountSt) : AccountSt :=
  { x with
    classes := Vector.ofFn fun c : Fin 8 => mirrorClass m.classes[c] x.classes[c], shaper := mirrorShaper m.shaper x.shaper,
    overhead := m.overhead, bind := m.bind, spillEnable := m.spillEnable, spillOn := m.spillOn, refill := m.refill,
    maxPages := m.maxPages, acctDrop := m.acctDrop, disableWhenDone := m.disableWhenDone }

/-- POLICER_SET. -/
def mirrorPolicer (m x : Policer) : Policer := { x with enabled := m.enabled, cir := m.cir, overhead := m.overhead, cbs := m.cbs }

/-- KEY_SLOT_SET of the slots, and the KEKs (R491). -/
def mirrorCrypto (m x : CryptoAll) : CryptoAll :=
  { x with
    keks := m.keks,
    slots := mirrorKeys {} (fun _ => true)
      (fun e y => { y with down := e.down, manager := e.manager, limInv := e.limInv, limBlocks := e.limBlocks }) m.slots x.slots }

/-- The MODE of TIME_SET, TIME_OUTPUT_SET and PTP_SET. -/
def mirrorTime (m x : TimeAll) : TimeAll :=
  { x with
    host := m.host, ppsEn := m.ppsEn, tenMEn := m.tenMEn, squelch := m.squelch, width := m.width, outDelay := m.outDelay,
    jumpLimit := m.jumpLimit, tcHost := m.tcHost, tcTrunk := m.tcTrunk, tcFabric := m.tcFabric }

/-- FABRIC_SET. -/
def mirrorFabric (m x : FabricAll) : FabricAll :=
  { x with settingPend := m.settingPend, lpi := m.lpi, ttl := m.ttl, prioClass := m.prioClass }

/-- A host port's source is its slice's; the others are the whole device's. -/
def mirrorsSource (reach : SliceId → Bool) (key : Nat) : Bool := decide (256 ≤ key) || reach (laneSlice (Fin.ofNat 32 key))

/-- The mirrored configuration of the slices that the new anchor reaches (R41). -/
def mirrorPath (reach : SliceId → Bool) (grp : GroupId → Bool) (m x : PathAll) : PathAll :=
  { x with
    ports := Vector.ofFn fun p : Fin 32 => onReached reach (laneSlice p) m.ports[p] x.ports[p] mirrorPort,
    portsStopped := Vector.ofFn fun k : Fin 8 => onReached reach k m.portsStopped[k] x.portsStopped[k] fun a _ => a,
    schedStopped := Vector.ofFn fun k : Fin 8 => onReached reach k m.schedStopped[k] x.schedStopped[k] fun a _ => a,
    mode := Vector.ofFn fun k : Fin 8 => onReached reach k m.mode[k] x.mode[k] fun a _ => a,
    modePend := Vector.ofFn fun k : Fin 8 => onReached reach k m.modePend[k] x.modePend[k] fun a _ => a,
    cls := Vector.ofFn fun k : Fin 8 => onReached reach k m.cls[k] x.cls[k] mirrorCls,
    sources := mirrorKeys {} (mirrorsSource reach) (fun e _ => e) m.sources x.sources,
    mirrors := m.mirrors,
    accounts := Vector.ofFn fun a : Fin 256 =>
      if grp (Fin.ofNat 4 (a.val / 64)) then mirrorAccount m.accounts[a] x.accounts[a] else x.accounts[a],
    policers := mirrorKeys {} (fun _ => true) mirrorPolicer m.policers x.policers,
    bufs := Vector.ofFn fun k : Fin 8 => onReached reach k m.bufs[k] x.bufs[k] mirrorBuf }

/-- What the management processor sets: HBM_SET, sensors, event delivery, the MSI-X table and the configuration space; the contact
sheet goes on from the mirrored head. -/
def mirrorMgmt (m : Mirror) (s : State) : State :=
  let newer := (s.ev.nextSeq - m.head).toNat
  { s with
    hbm := { s.hbm with srMask := m.srMask, srIdle := m.srIdle },
    fw := { s.fw with sensors := m.sensors },
    ev := { s.ev with
      vecs := m.vecs, classMap := m.classMap, nextSeq := m.head, log := s.ev.log.drop newer,
      evq := { s.ev.evq with base := m.evq.base, entries := m.evq.entries, enabled := m.evq.enabled, minSev := m.evq.minSev } },
    anchor := { s.anchor with cfgSpace := m.cfgSpace } }

/-- Slices reached take the generation that the new anchor's mirror recorded (R42). -/
def mirrorGen (h : Half) (reach : SliceId → Bool) (s : State) : State :=
  let gens := Vector.ofFn fun k : Fin 8 => onReached reach k (capAt s h).genSeen[k] s.bridge.cfgGen[k] fun a _ => a
  { s with bridge := { s.bridge with cfgGen := gens } }

/-- What commands set on the slices that the new anchor reaches, and on the device as a whole, as the mirror holds it (R41). -/
def mirrorSettings (reach : SliceId → Bool) (m : Mirror) (s : State) : State :=
  let grp := mirrorsGroup reach s
  let lanes := Vector.ofFn fun n : Fin 88 =>
    onReached reach (Fin.ofNat 8 (n.val / 11)) m.serdes.lanes[n] s.serdes.lanes[n] mirrorSerial
  let slices := Vector.ofFn fun k : Fin 8 => onReached reach k m.power.slices[k] s.power.slices[k] mirrorPower
  let s1 := { s with trunk := mirrorTrunk grp m.trunk s.trunk }
  let s2 := { s1 with path := mirrorPath reach grp m.path s1.path }
  let s3 := { s2 with crypto := mirrorCrypto m.crypto s2.crypto }
  let s4 := { s3 with time := mirrorTime m.time s3.time }
  let s5 := { s4 with fabric := mirrorFabric m.fabric s4.fabric }
  let s6 := { s5 with serdes := { s5.serdes with lanes := lanes } }
  { s6 with power := { s6.power with slices := slices } }

/-- A slice loads its mirror as it enters ANCHOR: commands that the mirror lacks are not in force on the slices it reaches
(R36, R40, R41).  DESIGN CHOICE (log 137): the settings are rolled back; what a command did beyond a setting is not undone. -/
def loadMirror (h : Half) (s : State) : State :=
  match s.mirror with
  | none => s
  | some m =>
    let s0 := { s with mirror := none }
    let reach := fun k : SliceId => path s h.val k.val
    if m.holder = h then
      foldS ((List.finRange 8).filter reach) refreshPressure (mirrorGen h reach (mirrorMgmt m (mirrorSettings reach m s0)))
    else s0

end Sys2Proof.Machine
end

