-- ==== Sys2Proof/Machine/Bridges.lean ====
section
/-!
DEFINITION. Machine/Bridges.lean: inter-slice bridges, routes and flit sequences (spec/02_package_slices_anchor.md, R23 to
R27).
-/
namespace Sys2Proof.Machine

/-! Routes (R25). -/

/-- Slices one hop from a set over the given links. -/
def spreadBy (s : State) (lk : Nat → Nat → Bool) (l : List Nat) : List Nat :=
  (presentSlices s).filter fun k => l.contains k || [0, 1, 2].any fun p => lk k p && l.contains (bridgePeer k p)

/-- Slices within `n` hops of slice `d`. -/
def withinHops (s : State) (lk : Nat → Nat → Bool) (d : Nat) : Nat → List Nat
  | 0 => (presentSlices s).filter (· == d)
  | n + 1 => spreadBy s lk (withinHops s lk d n)

/-- Hops of a shortest path, if one exists. -/
def hopsTo (s : State) (lk : Nat → Nat → Bool) (a d : Nat) : Option Nat :=
  (List.range 8).find? fun n => (withinHops s lk d n).contains a

/-- The first hop of a shortest path from `k` to `d` over the given links, ties going to the lower-numbered port. -/
def firstHop (s : State) (lk : Nat → Nat → Bool) (k d : Nat) : Option BridgePort :=
  match hopsTo s lk k d with
  | some (n + 1) => (List.finRange 3).find? fun p => lk k p.val && hopsTo s lk (bridgePeer k p.val) d == some n
  | _ => none

/-- The links other than the one at port `p` of slice `k`. -/
def linkBut (s : State) (k p : Nat) (a q : Nat) : Bool :=
  linkUp s a q && !((a == k && q == p) || (a == bridgePeer k p && q == p))

/-- The entry that firmware computes for destination `d` at slice `k` (R25). -/
def computeRoute (s : State) (k d : SliceId) : Route :=
  let pr := if k == d then none else firstHop s (linkUp s) k.val d.val
  { primary := pr,
    alternate := match pr with
      | some p => firstHop s (linkBut s k.val p.val) k.val d.val
      | none => none,
    altActive := false,
    unreachable := present s d.val && !path s k.val d.val }

/-- UNREACHABLE of every entry follows the links (R27). -/
def refreshReach (s : State) : State :=
  { s with bridge := { s.bridge with routes := Vector.ofFn fun k : Fin 8 => Vector.ofFn fun d : Fin 8 =>
      { s.bridge.routes[k][d] with unreachable := present s k.val && present s d.val && !path s k.val d.val } } }

/-! Packets under way (R26, R27). -/

/-- A packet that the bridges carried stands at its destination's slice. -/
def landCarry (c : Carry) (s : State) : State :=
  match c with
  | .frame p kind dest queue => landFrame kind dest queue p s
  | .cell l x => fabQueue l x s

/-- A packet that the bridges carried is lost: its buffer is let go. -/
def loseCarry (c : Carry) (s : State) : State :=
  match c with
  | .frame p _ _ _ => discard p s
  | .cell _ x => (match x.pkt with
    | some p => discard p s
    | none => s)

/-- Packets under way between two slices that no path joins any more are discarded and counted at their source (R27). -/
def dropTransit (s : State) : State :=
  let cut := fun t : Transit => !path s t.src.val t.dst.val
  foldS (s.bridge.transit.filter cut) (fun t st => count1 (aBridgeUnreach t.src) (loseCarry t.carry st))
    { s with bridge := { s.bridge with transit := s.bridge.transit.filter fun t => !cut t } }

/-- A change of links or slices: UNREACHABLE follows and packets cut off are dropped; SPLIT sets when the last path between slices 0
and 1 was lost, and the mirror stays as it is, HEALED when one returned. -/
def linkChange (f : State → State) (s : State) : State :=
  let s1 := dropTransit (refreshReach (f s))
  if peerPath s && !peerPath s1 then setFlag aAnchorFlags 3 (keepMirror s1)
  else if !peerPath s && peerPath s1 then setFlag aAnchorFlags 4 s1
  else s1

/-! Flit sequences (R26). -/

/-- Key of the sequence context of a source at a destination. -/
def seqKey (dst src : SliceId) : Nat := dst.val * 8 + src.val

/-- One flit delivered in order; the rest of a packet that lost flits is discarded, and the last flit of another brings that packet,
whose number is noted. -/
def takeFlit (f : Flit) (r : SeqRx × List Nat) : SeqRx × List Nat :=
  let c1 := { r.1 with expected := f.seq + 1, last := some f }
  if r.1.dropPkt == some f.pkt then ({ c1 with dropPkt := if f.last then none else r.1.dropPkt }, r.2)
  else ({ c1 with delivered := r.1.delivered + 1, dropPkt := none }, if f.last then r.2 ++ [f.pkt] else r.2)

/-- Deliver the held flits that are now in order. -/
def drainHeld : Nat → SeqRx × List Nat → SeqRx × List Nat
  | 0, r => r
  | n + 1, r =>
    match r.1.held.find? fun h => h.2.seq == r.1.expected with
    | some h => drainHeld n (takeFlit h.2 ({ r.1 with held := r.1.held.filter fun x => x.2.seq != h.2.seq }, r.2))
    | none => r

/-- A good flit at its destination: in order it is delivered with the held ones that follow, early it is held, otherwise it
is a repeat.  The packets that are whole with it go with the context. -/
def acceptFlit (now : Nat) (f : Flit) (c : SeqRx) : SeqRx × List Nat :=
  let d := f.seq - c.expected
  if d = 0 then drainHeld c.held.length (takeFlit f (c, []))
  else if d.toNat < 32768 ∧ !(c.held.any fun h => h.2.seq == f.seq) then ({ c with held := (now, f) :: c.held }, [])
  else (c, [])

/-- The oldest arrival among the flits held: the gap before them has been open since then. -/
def gapSince (c : SeqRx) : Option Nat := (c.held.map fun h => h.1).min?

/-- The held flit nearest the gap. -/
def nearestHeld (c : SeqRx) : Option Flit :=
  ((c.held.map fun h => h.2).foldl (fun (b : Option Flit) f => match b with
    | some x => if (f.seq - c.expected).toNat < (x.seq - c.expected).toNat then some f else b
    | none => some f) none)

/-- Numbers of the packets that had flits in the gap before held flit `h`: from the one left open or next after the last flit delivered,
up to but not including the second. -/
def gapPackets (c : SeqRx) (h : Flit) : Nat × Nat :=
  let a := match c.last with
    | some l => if l.last then l.pkt + 1 else l.pkt
    | none => 0
  (a, if h.first then h.pkt else h.pkt + 1)

/-- The gap is lost: delivery resumes with held flit `h`, and what is left of a packet that lost flits is dropped. -/
def skipGap (h : Flit) (c : SeqRx) : SeqRx × List Nat :=
  drainHeld c.held.length ({ c with expected := h.seq, dropPkt := if h.first then none else some h.pkt }, [])

/-- The sequence context of a source at a destination. -/
def seqAt (s : State) (dst src : SliceId) : SeqRx := sparseGet {} s.bridge.rx (seqKey dst src)

/-- A packet of a source at a destination. -/
def isTransit (src dst : SliceId) (n : Nat) (t : Transit) : Bool := t.src == src && t.dst == dst && t.pkt == n

/-- A packet whose last flit has been delivered goes on at its destination. -/
def landPacket (src dst : SliceId) (n : Nat) (s : State) : State :=
  match s.bridge.transit.find? (isTransit src dst n) with
  | some t => landCarry t.carry { s with bridge := { s.bridge with transit := s.bridge.transit.filter fun u => !isTransit src dst n u } }
  | none => s

/-- A context takes its new value, and the packets that are whole go on in order. -/
def seqTake (dst src : SliceId) (r : SeqRx × List Nat) (s : State) : State :=
  foldS r.2 (landPacket src dst) { s with bridge := { s.bridge with rx := sparseSet {} s.bridge.rx (seqKey dst src) r.1 } }

/-! Rows. -/

/-- Hops at which a flit is dropped (R26). -/
def flitLimit (s : State) : Nat := if s.part = .ct4806 then 5 else 4

/-- The sender at the other end of a port. -/
def peerSlice (k : SliceId) (p : BridgePort) : SliceId := Fin.ofNat 8 (bridgePeer k.val p.val)

/-- The flit at the head of the sender's retry buffer: links deliver in order (R24). -/
def linkHead (s : State) (slice : SliceId) (port : BridgePort) : Option OutFlit :=
  (bridgeAt s (peerSlice slice port).val port.val).unacked.head?

/-- The link works and carries the oldest flit that its sender has not had acknowledged: that flit, or one damaged on the way. -/
def flitReceiveGuard (slice : SliceId) (port : BridgePort) (flit : Flit) (s : State) : Bool :=
  linkUp s slice.val port.val && (linkHead s slice port).any fun o => !flitGood flit || o.flit == flit

/-- The sender's oldest flit is acknowledged, and one that waits takes its room. -/
def ackHead (now : Nat) (b : Bridge) : Bridge := fillRetry now { b with unacked := b.unacked.tail, ackAt := now }

/-- The sender's oldest flit has failed its CRC and is sent again. -/
def resendHead (now : Nat) (b : Bridge) : Bridge :=
  match b.unacked with
  | o :: t => { b with unacked := { o with sentAt := now, fails := o.fails + 1 } :: t }
  | [] => b

/-- A flit that checks: acknowledged, then dropped at its hop limit, delivered, or sent on. -/
def goodFlit (slice : SliceId) (port : BridgePort) (f : Flit) (s : State) : State :=
  let s1 := modBridge s (peerSlice slice port) port (ackHead s.now)
  if flitLimit s ≤ f.hops then count1 (aBridgeTtl slice) s1
  else if f.dst = slice then seqTake slice f.src (acceptFlit s.now f (seqAt s1 slice f.src)) s1
  else sendFlits false slice f.dst [{ f with hops := f.hops + 1 }] s1

/-- FLIT_RECEIVE (R24, R26): a flit that fails its CRC is sent again from the sender's retry buffer. -/
def flitReceiveEffect (slice : SliceId) (port : BridgePort) (flit : Flit) (s : State) : State :=
  if flitGood flit then goodFlit slice port flit s
  else modBridge (count1 (aBridgeRetry (peerSlice slice port) port) s) (peerSlice slice port) port (resendHead s.now)

def execFlitReceive (slice : SliceId) (port : BridgePort) (flit : Flit) (s : State) : Host.Outcome State Fault Refusal :=
  .next (whenB (flitReceiveGuard slice port flit s) (flitReceiveEffect slice port flit) s)

/-- An entry whose primary port went down moves to its alternate. -/
def moveRoute (p : BridgePort) (r : Route) : Route :=
  if r.primary == some p && !r.altActive && r.alternate.isSome then { r with altActive := true } else r

/-- Flits go ahead of newer ones towards their destinations, each destination's in their order. -/
def resendFlits (k : SliceId) (l : List Flit) (s : State) : State :=
  foldS (List.finRange 8) (fun d st =>
    let mine := l.filter fun f => f.dst == d
    if mine.isEmpty then st else sendFlits true k d mine st) s

/-- A port is declared down: entries whose primary it is move to their alternate, and its unacknowledged flits go ahead of
newer ones through the alternate port (R24 to R26). -/
def downPort (k : SliceId) (p : BridgePort) (s : State) : State :=
  let b := bridgeAt s k.val p.val
  let s1 := count1 (aBridgeDown k p) (modBridge s k p fun b => { b with
    up := false, goodRun := 0, nextRetrain := s.now + msTicks, unacked := [], sendQ := [] })
  let s2 := { s1 with bridge := { s1.bridge with routes := vmod s1.bridge.routes k fun v => v.map (moveRoute p) } }
  resendFlits k (b.unacked.map (fun o => o.flit) ++ b.sendQ) s2

/-- Why a port is declared down (R24): no acknowledgement for 1 us while a flit awaits one, a flit that has failed 8 retries, or the
loss of lane lock. -/
def downCause (s : State) (b : Bridge) : BridgeDownCause → Bool
  | .ackTimeout => b.unacked.head?.any fun o => since s (max o.sentAt b.ackAt) usTicks
  | .retriesFailed => b.unacked.head?.any fun o => decide (8 < o.fails)
  | .laneLockLost => true

def bridgePortDownGuard (slice : SliceId) (port : BridgePort) (cause : BridgeDownCause) (s : State) : Bool :=
  let b := bridgeAt s slice.val port.val
  b.up && downCause s b cause

def bridgePortDownEffect (slice : SliceId) (port : BridgePort) (s : State) : State := linkChange (downPort slice port) s

/-- BRIDGE_PORT_DOWN (R24): the three causes have one effect. -/
def execBridgePortDown (slice : SliceId) (port : BridgePort) (cause : BridgeDownCause) (s : State) :
    Host.Outcome State Fault Refusal :=
  .next (whenB (bridgePortDownGuard slice port cause s) (bridgePortDownEffect slice port) s)

/-- A port that is down and may train: wired, its slice's bridges run, no bridge loop on it. -/
def canTrain (s : State) (k : SliceId) (p : BridgePort) : Bool :=
  bridgeWired s k.val p.val && bridgesRun s k.val && !(bridgeAt s k.val p.val).up && !(bridgeAt s k.val p.val).loop

def bridgeRetrainGuard (slice : SliceId) (port : BridgePort) (s : State) : Bool :=
  canTrain s slice port && decide ((bridgeAt s slice.val port.val).nextRetrain ≤ s.now)

/-- BRIDGE_RETRAIN (R24): an attempt every 1 ms, which receives `goodFlits` consecutive good flits. -/
def bridgeRetrainEffect (slice : SliceId) (port : BridgePort) (goodFlits : Nat) (s : State) : State :=
  modBridge s slice port fun b => { b with goodRun := goodFlits, nextRetrain := s.now + msTicks }

def execBridgeRetrain (slice : SliceId) (port : BridgePort) (goodFlits : Nat) (s : State) : Host.Outcome State Fault Refusal :=
  .next (whenB (bridgeRetrainGuard slice port s) (bridgeRetrainEffect slice port goodFlits) s)

def bridgePortUpGuard (slice : SliceId) (port : BridgePort) (s : State) : Bool :=
  canTrain s slice port && decide (10000 ≤ (bridgeAt s slice.val port.val).goodRun)

/-- BRIDGE_PORT_UP (R24). -/
def bridgePortUpEffect (slice : SliceId) (port : BridgePort) (s : State) : State :=
  linkChange (fun st => modBridge st slice port fun b => { b with up := true, goodRun := 0 }) s

def execBridgePortUp (slice : SliceId) (port : BridgePort) (s : State) : Host.Outcome State Fault Refusal :=
  .next (whenB (bridgePortUpGuard slice port s) (bridgePortUpEffect slice port) s)

def routeTableInstallGuard (slice : SliceId) (s : State) : Bool := present s slice.val

/-- ROUTE_TABLE_INSTALL (R25): the recomputed table of a slice. -/
def routeTableInstallEffect (slice : SliceId) (s : State) : State :=
  { s with bridge := { s.bridge with routes := s.bridge.routes.set slice (Vector.ofFn fun d => computeRoute s slice d) } }

def execRouteTableInstall (slice : SliceId) (s : State) : Host.Outcome State Fault Refusal :=
  .next (whenB (routeTableInstallGuard slice s) (routeTableInstallEffect slice) s)

def bridgeSeqGapTimeoutGuard (dst src : SliceId) (s : State) : Bool :=
  match gapSince (seqAt s dst src) with
  | some t => since s t (4 * usTicks)
  | none => false

/-- A packet that had flits in a lost gap is discarded whole and counted (R26). -/
def losePacket (src dst : SliceId) (n : Nat) (s : State) : State :=
  match s.bridge.transit.find? (isTransit src dst n) with
  | some t =>
    count1 (aBridgeLost dst) (loseCarry t.carry { s with bridge := { s.bridge with
      transit := s.bridge.transit.filter fun u => !isTransit src dst n u } })
  | none => s

/-- BRIDGE_SEQ_GAP_TIMEOUT (R26). -/
def bridgeSeqGapTimeoutEffect (dst src : SliceId) (s : State) : State :=
  let c := seqAt s dst src
  match nearestHeld c with
  | some h =>
    let g := gapPackets c h
    let lost := (s.bridge.transit.filter fun t => t.src == src && t.dst == dst && decide (g.1 ≤ t.pkt) && decide (t.pkt < g.2)).map fun t => t.pkt
    seqTake dst src (skipGap h c) (foldS lost (losePacket src dst) s)
  | none => s

def execBridgeSeqGapTimeout (dst src : SliceId) (s : State) : Host.Outcome State Fault Refusal :=
  .next (whenB (bridgeSeqGapTimeoutGuard dst src s) (bridgeSeqGapTimeoutEffect dst src) s)

end Sys2Proof.Machine
end

