-- ==== Sys2Proof/Machine/Ecdsa.lean ====
section
/-!
DEFINITION. Machine/Ecdsa.lean: SHA-384 (FIPS 180-4) and the verification of an ECDSA P-384 signature (FIPS 186-5), as R490, R498
and R499 name them.  Coordinates and signature halves are 48-byte strings, most significant byte first (log 7).
-/
namespace Sys2Proof.Machine

/-! SHA-384. -/

/-- The 80 constants, eight a number, the first the most significant. -/
def shaRows : List Nat :=
  [0x428A2F98D728AE227137449123EF65CDB5C0FBCFEC4D3B2FE9B5DBA58189DBBC3956C25BF348B53859F111F1B605D019923F82A4AF194F9BAB1C5ED5DA6D8118,
   0xD807AA98A303024212835B0145706FBE243185BE4EE4B28C550C7DC3D5FFB4E272BE5D74F27B896F80DEB1FE3B1696B19BDC06A725C71235C19BF174CF692694,
   0xE49B69C19EF14AD2EFBE4786384F25E30FC19DC68B8CD5B5240CA1CC77AC9C652DE92C6F592B02754A7484AA6EA6E4835CB0A9DCBD41FBD476F988DA831153B5,
   0x983E5152EE66DFABA831C66D2DB43210B00327C898FB213FBF597FC7BEEF0EE4C6E00BF33DA88FC2D5A79147930AA72506CA6351E003826F142929670A0E6E70,
   0x27B70A8546D22FFC2E1B21385C26C9264D2C6DFC5AC42AED53380D139D95B3DF650A73548BAF63DE766A0ABB3C77B2A881C2C92E47EDAEE692722C851482353B,
   0xA2BFE8A14CF10364A81A664BBC423001C24B8B70D0F89791C76C51A30654BE30D192E819D6EF5218D69906245565A910F40E35855771202A106AA07032BBD1B8,
   0x19A4C116B8D2D0C81E376C085141AB532748774CDF8EEB9934B0BCB5E19B48A8391C0CB3C5C95A634ED8AA4AE3418ACB5B9CCA4F7763E373682E6FF3D6B2B8A3,
   0x748F82EE5DEFB2FC78A5636F43172F6084C87814A1F0AB728CC702081A6439EC90BEFFFA23631E28A4506CEBDE82BDE9BEF9A3F7B2C67915C67178F2E372532B,
   0xCA273ECEEA26619CD186B8C721C0C207EADA7DD6CDE0EB1EF57D4F7FEE6ED17806F067AA72176FBA0A637DC5A2C898A6113F9804BEF90DAE1B710B35131C471B,
   0x28DB77F523047D8432CAAB7B40C724933C9EBE0A15C9BEBC431D67C49C100D4C4CC5D4BECB3E42B6597F299CFC657E2A5FCB6FAB3AD6FAEC6C44198C4A475817]

def shaConst (t : Nat) : BitVec 64 := BitVec.ofNat 64 (shaRows.getD (t / 8) 0 >>> (64 * (7 - t % 8)))

/-- The eight words of a number of 512 bits. -/
def eightWords (v : Nat) : List (BitVec 64) := (List.range 8).map fun i => BitVec.ofNat 64 (v >>> (64 * (7 - i)))

/-- The initial hash value. -/
def shaInit : List (BitVec 64) :=
  eightWords 0xCBBB9D5DC1059ED8629A292A367CD5079159015A3070DD17152FECD8F70E593967332667FFC00B318EB44A8768581511DB0C2E0D64F98FA747B5481DBEFA4FA4

/-- The functions of a round, and those of the message schedule. -/
def shaBig0 (x : BitVec 64) : BitVec 64 := x.rotateRight 28 ^^^ x.rotateRight 34 ^^^ x.rotateRight 39
def shaBig1 (x : BitVec 64) : BitVec 64 := x.rotateRight 14 ^^^ x.rotateRight 18 ^^^ x.rotateRight 41
def shaSmall0 (x : BitVec 64) : BitVec 64 := x.rotateRight 1 ^^^ x.rotateRight 8 ^^^ x >>> 7
def shaSmall1 (x : BitVec 64) : BitVec 64 := x.rotateRight 19 ^^^ x.rotateRight 61 ^^^ x >>> 6

/-- One round on the eight working words with a constant and a message word added. -/
def shaRound (kw : BitVec 64) (v : List (BitVec 64)) : List (BitVec 64) :=
  match v with
  | [a, b, c, d, e, f, g, h] =>
    let t1 := h + shaBig1 e + ((e &&& f) ^^^ (~~~e &&& g)) + kw
    let t2 := shaBig0 a + ((a &&& b) ^^^ (a &&& c) ^^^ (b &&& c))
    [t1 + t2, a, b, c, d + t1, e, f, g]
  | _ => v

/-- `n` rounds from round `t` on: `w` holds the next 16 message words. -/
def shaRounds : Nat → Nat → List (BitVec 64) → List (BitVec 64) → List (BitVec 64)
  | 0, _, _, v => v
  | n + 1, t, w, v =>
    let next := shaSmall1 (w.getD 14 0) + w.getD 9 0 + shaSmall0 (w.getD 1 0) + w.getD 0 0
    shaRounds n (t + 1) (w.drop 1 ++ [next]) (shaRound (shaConst t + w.getD 0 0) v)

/-- The hash value after a 128-byte block. -/
def shaBlock (v : List (BitVec 64)) (block : List Byte) : List (BitVec 64) :=
  let w := (List.range 16).map fun i => BitVec.ofNat 64 (beAt block (8 * i) 8)
  List.zipWith (fun x y => x + y) v (shaRounds 80 0 w v)

/-- `n` blocks. -/
def shaBlocks : Nat → List (BitVec 64) → List Byte → List (BitVec 64)
  | 0, v, _ => v
  | n + 1, v, l => shaBlocks n (shaBlock v (l.take 128)) (l.drop 128)

/-- The message padded to whole blocks: a 1 bit, zeros, and its length in bits. -/
def shaPad (l : List Byte) : List Byte :=
  l ++ 0x80#8 :: (List.replicate ((239 - l.length % 128) % 128) 0#8 ++ toBe 16 (8 * l.length))

/-- SHA-384: the first 48 bytes of the last hash value. -/
def sha384 (l : List Byte) : List Byte :=
  let m := shaPad l
  ((shaBlocks (m.length / 128) shaInit m).take 6).flatMap fun w => toBe 8 w.toNat

/-! P-384. -/

/-- The prime of the field, the order of the group, and the coefficient b of y^2 = x^3 - 3 x + b. -/
def p384 : Nat := 0xFFFFFFFFFFFFFFFFFFFFFFFFFFFFFFFFFFFFFFFFFFFFFFFFFFFFFFFFFFFFFFFEFFFFFFFF0000000000000000FFFFFFFF
def n384 : Nat := 0xFFFFFFFFFFFFFFFFFFFFFFFFFFFFFFFFFFFFFFFFFFFFFFFFC7634D81F4372DDF581A0DB248B0A77AECEC196ACCC52973
def b384 : Nat := 0xB3312FA7E23EE7E4988E056BE3F82D19181D9C6EFE8141120314088F5013875AC656398D8A2ED19D2A85C8EDD3EC2AEF

/-- A point in Jacobian coordinates; z = 0 is the point at infinity. -/
structure JPoint where
  x : Nat
  y : Nat
  z : Nat
  deriving DecidableEq, Repr

/-- The base point. -/
def g384 : JPoint :=
  { x := 0xAA87CA22BE8B05378EB1C71EF320AD746E1D3B628BA79B9859F741E082542A385502F25DBF55296C3A545E3872760AB7,
    y := 0x3617DE4A96262C6F5D9E98BF9292DC29F8F41DBD289A147CE9DA3113B5F0B8C00A60B1CE1D7E819D7A431D7C90EA0E5F, z := 1 }

/-- A difference in the field. -/
def fieldSub (a b : Nat) : Nat := (a + (p384 - b % p384)) % p384

/-- Twice a point of the curve. -/
def pointDouble (a : JPoint) : JPoint :=
  let zz := a.z * a.z % p384
  let yy := a.y * a.y % p384
  let s := 4 * a.x * yy % p384
  let m := 3 * (fieldSub a.x zz * (a.x + zz)) % p384
  let x := fieldSub (m * m) (2 * s)
  { x := x, y := fieldSub (m * fieldSub s x) (8 * yy * yy), z := 2 * a.y * a.z % p384 }

/-- The sum of two points. -/
def pointAdd (a b : JPoint) : JPoint :=
  if a.z = 0 then b else if b.z = 0 then a else
  let za := a.z * a.z % p384
  let zb := b.z * b.z % p384
  let u := a.x * zb % p384
  let s := a.y * zb * b.z % p384
  let h := fieldSub (b.x * za) u
  let r := fieldSub (b.y * za * a.z) s
  if h = 0 then (if r = 0 then pointDouble a else { x := 1, y := 1, z := 0 }) else
  let hh := h * h % p384
  let v := u * hh % p384
  let x := fieldSub (r * r) (hh * h + 2 * v)
  { x := x, y := fieldSub (r * fieldSub v x) (s * (hh * h)), z := h * a.z * b.z % p384 }

/-- The bits of a number of 384 bits, most significant first. -/
def scalarBits (k : Nat) : List Bool := bitsMsb (BitVec.ofNat 384 k)

/-- u a + v b by doubling along the bits of both. -/
def twoProducts (u v : Nat) (a b : JPoint) : JPoint :=
  let ab := pointAdd a b
  ((scalarBits u).zip (scalarBits v)).foldl (fun acc k =>
    let d := pointDouble acc
    match k with
    | (true, true) => pointAdd d ab
    | (true, false) => pointAdd d a
    | (false, true) => pointAdd d b
    | (false, false) => d) { x := 1, y := 1, z := 0 }

/-- a ^ e modulo m, for e of 384 bits. -/
def powMod (a e m : Nat) : Nat :=
  (scalarBits e).foldl (fun acc k => let q := acc * acc % m; if k then q * a % m else q) 1

/-- The inverse modulo a prime. -/
def invMod (a m : Nat) : Nat := powMod (a % m) (m - 2) m

/-- The coordinates are those of a point of the curve. -/
def onCurve (x y : Nat) : Bool :=
  decide (x < p384) && decide (y < p384) && y * y % p384 == (x * x % p384 * x + (3 * (p384 - x) + b384)) % p384

/-- The signature r, s of a digest verifies under the public key X, Y. -/
def ecdsaVerify (key digest sig : List Byte) : Bool :=
  let x := beAt key 0 48
  let y := beAt key 48 48
  let r := beAt sig 0 48
  let s := beAt sig 48 48
  let w := invMod s n384
  let q := twoProducts (beNat digest * w % n384) (r * w % n384) g384 { x := x, y := y, z := 1 }
  let zi := invMod q.z p384
  key.length == 96 && sig.length == 96 && onCurve x y && r != 0 && s != 0 && decide (r < n384) && decide (s < n384) && q.z != 0 &&
    q.x * zi % p384 * zi % p384 % n384 == r

end Sys2Proof.Machine
end

