-- ==== Sys2Proof/Machine/FwOps.lean ====
section
/-!
DEFINITION. Machine/FwOps.lean: the boot directory, images and activations as shared operations
(spec/18_management_firmware_recovery.md, R492 to R506).
-/
namespace Sys2Proof.Machine

/-! Global identity block keys. -/

def aFwFlags : Nat := 0x108

/-- The other of two. -/
def otherOf (h : Half) : Half := if h = 0 then 1 else 0

/-! The boot directory (R493). -/

/-- The copy in force: the valid one with the higher GEN. -/
def dirInForce (s : State) : Option BootDir :=
  let a := s.fw.dirs[(0 : Fin 2)]
  let b := s.fw.dirs[(1 : Fin 2)]
  if a.ok && (!b.ok || decide (b.gen ≤ a.gen)) then some a else if b.ok then some b else none

/-- ACTIVE and VALID in force. -/
def activeBank (s : State) : Half := Fin.ofNat 2 ((dirInForce s).getD {}).active
def validBanks (s : State) : Nat := ((dirInForce s).getD {}).valid
def stagingBank (s : State) : Half := otherOf (activeBank s)
def bankValid (s : State) (b : Half) : Bool := natBit (validBanks s) b.val

/-- The copy that the next write goes to: an invalid one, otherwise the one with the lower GEN. -/
def dirTarget (s : State) : Half :=
  let a := s.fw.dirs[(0 : Fin 2)]
  let b := s.fw.dirs[(1 : Fin 2)]
  if !a.ok then 0 else if !b.ok then 1 else if a.gen ≤ b.gen then 0 else 1

/-- Write the directory, GEN one higher. -/
def writeDir (active valid : Nat) (s : State) : State :=
  let g := ((dirInForce s).getD {}).gen
  { s with fw := { s.fw with dirs := s.fw.dirs.set (dirTarget s) { ok := true, gen := g + 1, active := active, valid := valid } } }

/-- VALID with the bit of a bank set to `v`. -/
def validWith (s : State) (b : Half) (v : Bool) : Nat :=
  let keep := if natBit (validBanks s) (otherOf b).val then 2 ^ (otherOf b).val else 0
  keep + (if v then 2 ^ b.val else 0)

/-! Images (R498, R499). -/

/-- The bytes of an image bank. -/
def bankBytes (s : State) (b : Half) : List Byte := s.fw.banks[b]

def imgCount (b : List Byte) : Nat := leAt b 6 2
def imgLen (b : List Byte) : Nat := leAt b 8 4
def imgSvn (b : List Byte) : Nat := leAt b 12 4
def imgBuild (b : List Byte) : Nat := leAt b 16 4
def imgParts (b : List Byte) : Nat := leAt b 20 2

/-- TYPE, IFACE, VERSION, OFFSET and LENGTH of a component entry. -/
structure ImgEntry where
  kind : Nat
  comp : FwComp
  off : Nat
  len : Nat
  deriving DecidableEq, Repr

/-- ENTRY i. -/
def imgEntry (b : List Byte) (i : Nat) : ImgEntry :=
  let k := 24 + 32 * i
  { kind := leAt b k 1, comp := { version := BitVec.ofNat 32 (leAt b (k + 4) 4), iface := leAt b (k + 2) 2 },
    off := leAt b (k + 8) 4, len := leAt b (k + 12) 4 }

def imgEntries (b : List Byte) : List ImgEntry := (List.range (imgCount b)).map (imgEntry b)

/-- The component of a TYPE. -/
def imgComp (b : List Byte) (kind : Nat) : Option FwComp := ((imgEntries b).find? fun e => e.kind == kind).map fun e => e.comp

/-- Bit of PARTS that names the part. -/
def partBit : Part → Nat
  | .ct1602 => 0
  | .ct3204 => 1
  | .ct4806 => 2
  | .ct6408 => 3

/-- The layout conditions of R498 and R499. -/
def layoutBad (b : List Byte) : Bool :=
  imgCount b == 0 || decide (3 < imgCount b) || !((imgEntries b).map fun e => e.kind).Nodup ||
    (imgEntries b).any fun e => decide (imgLen b < e.off + e.len)

/-- MAGIC and FORMAT do not match. -/
def formatBad (b : List Byte) : Bool := leAt b 0 4 != 0x43465749 || leAt b 4 2 != 1

/-- PUBKEY, and the signature that ends an image (R498). -/
def imgKey (b : List Byte) : List Byte := (b.drop 120).take 96
def imgSig (b : List Byte) : List Byte := (b.drop (imgLen b - 96)).take 96

/-- The signature verifies over every byte before it (R498). -/
def signed384 (b : List Byte) : Bool := ecdsaVerify (imgKey b) (sha384 (b.take (imgLen b - 96))) (imgSig b)

/-- Why an image is not admissible (R499): the reason codes of R501, in their order. -/
def inadmissible (s : State) (b : List Byte) : Option Nat :=
  if formatBad b then some 1
  else if sha384 (imgKey b) != vecBytes s.fw.fuses.keyHash then some 2
  else if !signed384 b then some 3
  else if imgSvn b < s.fw.svnFloor then some 4
  else if !natBit (imgParts b) (partBit s.part) then some 5
  else if layoutBad b then some 6
  else none

/-- The running components once the image's components of TYPE MGT and LMC, or SLC, run. -/
def withMgt (b : List Byte) (r : Running) : Running :=
  match imgComp b 1 with
  | some c => { r with mgt := c, build := BitVec.ofNat 32 (imgBuild b) }
  | none => r

def withLmc (b : List Byte) (r : Running) : Running :=
  match imgComp b 3 with
  | some c => { r with lmc := c }
  | none => r

/-- IFACE major. -/
def FwComp.major (c : FwComp) : Nat := c.iface / 256

/-- The new major equals the running one, or exceeds it by 1 (R502). -/
def majorOk (new : Option FwComp) (old : FwComp) : Bool :=
  match new with
  | some c => c.major == old.major || c.major == old.major + 1
  | none => true

/-- A hitless activation of the image is permitted (R502). -/
def hitlessOk (s : State) (b : List Byte) : Bool :=
  let r := s.fw.running
  r.mgt.major == r.slc.major && r.slc.major == r.lmc.major &&
    majorOk (imgComp b 1) r.mgt && majorOk (imgComp b 2) r.slc && majorOk (imgComp b 3) r.lmc &&
    ((imgComp b 1).isNone || (s.anchor.mirrorSync && match anchorSlice s with
      | some h => (capAt s (otherOf h)).st == .deputy
      | none => false))

/-- The slice that a step of an activation works on, as FW_ROLLBACK names it. -/
def stepSlice (s : State) (a : Activation) : Nat :=
  match a.step, a.todo with
  | 1, k :: _ => k
  | 2, _ => (otherOf a.oldAnchor).val
  | 3, _ => (otherOf a.oldAnchor).val
  | 4, _ => a.oldAnchor.val
  | _, _ => match anchorSlice s with
    | some h => h.val
    | none => 0

/-- A failed activation: every component switched goes back, FW_ROLLBACK (R506). -/
def rollBack (s : State) : State :=
  match s.fw.act with
  | some a =>
    let s1 := { s with fw := { s.fw with act := none, running := a.before } }
    logEvent 0x0904 .error 0xFF [BitVec.ofNat 8 a.step, BitVec.ofNat 8 (stepSlice s a)] (setFlag aFwFlags 3 s1)
  | none => s

/-! History of the contact sheet (R496). -/

/-- The history pages of a channel are lost. -/
def loseHistory (c : ChanId) (s : State) : State :=
  { s with fw := { s.fw with history := s.fw.history.filter fun p => p.chan != c.val } }

/-- The history pages of a channel that freezes are lost, with one LOG_HISTORY_LOST record. -/
def reportHistory (c : ChanId) (s : State) : State :=
  let mine := (s.fw.history.filter fun p => p.chan == c.val).flatMap fun p => p.records
  match mine.getLast? with
  | some r => logEvent 0x0907 .error 0xFF (BitVec.ofNat 8 c.val :: (toLe 4 r.seq.toNat ++ toLe 4 mine.length))
      (setFlag aFwFlags 5 (loseHistory c s))
  | none => s

/-! Start of firmware (R489, R508). -/

/-- The cause for which the ROM stays in darkroom mode at a start: the strap, the directory, or an image that the ROM does
not admit; an empty list is an image whose bytes the model does not hold (log 3). -/
def bootCause (s : State) : Nat :=
  let b := bankBytes s (activeBank s)
  if s.pins.recover then 4
  else if (dirInForce s).isNone || !bankValid s (activeBank s) then 1
  else if !b.isEmpty && (inadmissible s b).isSome then 2
  else 0

end Sys2Proof.Machine
end

