-- ==== Sys2Proof/Machine/Anchor.lean ====
section
/-!
DEFINITION. Machine/Anchor.lean: the anchor, its deputy, the lease, the claim line, takeovers and the SMBus sideband
(spec/02_package_slices_anchor.md, R32 to R43; R466 and R470 of spec/17_mailboxes_and_commands.md).
-/
namespace Sys2Proof.Machine

/-! The claim line and the lease. -/

/-- Slice number of an anchor-capable slice. -/
def halfSlice (h : Half) : SliceId := ⟨h.val, by omega⟩

/-- The slice drives the claim line. -/
def drives (s : State) (h : Half) : Bool := (capAt s h).drives

/-- CLAIM_LEVEL: the line is low. -/
def lineLow (s : State) : Bool := drives s 0 || drives s 1 || s.anchor.stuckLow

/-- The line has read high for 2 us. -/
def lineFree (s : State) : Bool := !lineLow s && since s s.anchor.highSince (2 * usTicks)

/-- A change of what drives the line. -/
def setDrive (h : Half) (v : Bool) (s : State) : State :=
  let s1 := modCap s h fun c => { c with drives := v }
  if lineLow s && !lineLow s1 then { s1 with anchor := { s1.anchor with highSince := s.now } } else s1

def setAnchor (h : Half) (st : AnchorSt) (s : State) : State := modCap s h fun c => { c with st := st, waits := false }

/-- The lease has expired: 100 us without a renewal (R32). -/
def leaseExpired (s : State) : Bool := since s s.anchor.leaseAt (100 * usTicks)

/-- The management complex of a slice runs: its clock goes, its slice is not FAULTED, and not in DORMANT or waking from it unless
it is the anchor's (R520, R525, R529, R532). -/
def mgmtRuns (s : State) (h : Half) : Bool :=
  let k := halfSlice h
  let p := s.power.st[k]
  !s.power.slices[k].domains[(2 : Fin 8)].stopped && p != .down &&
    !((p == .dormant || (p == .waking && s.power.slices[k].deepWake)) && (capAt s h).st != .anchor)

/-! LEASE_SEND, LEASE_EXPIRY and MIRROR_RESYNC_COMPLETE (R32, R33). -/

def leaseSendGuard (s : State) : Bool :=
  match anchorSlice s with
  | some h => (deputyReached s).isSome && mgmtRuns s h && mgmtRuns s (otherOf h) && since s s.anchor.leaseAt (10 * usTicks)
  | none => false

/-- The deputy acknowledges the lease. -/
def leaseSendEffect (s : State) : State := { s with anchor := { s.anchor with leaseAt := s.now } }

def execLeaseSend (s : State) : Host.Outcome State Fault Refusal := .next (whenB (leaseSendGuard s) leaseSendEffect s)

def leaseExpiryGuard (s : State) : Bool := leaseExpired s

def leaseExpiryEffect (s : State) : State := { s with anchor := { s.anchor with mirrorSync := false } }

def execLeaseExpiry (s : State) : Host.Outcome State Fault Refusal := .next (whenB (leaseExpiryGuard s) leaseExpiryEffect s)

def mirrorResyncCompleteGuard (s : State) : Bool :=
  match anchorSlice s with
  | some h => (deputyReached s).isSome && mgmtRuns s h && mgmtRuns s (otherOf h) && !leaseExpired s
  | none => false

/-- The mirror holds the last response of a mailbox. -/
def mirrorBox (b : Mbox) : Mbox :=
  if b.resp = {} then b
  else { b with mirrorSeq := b.resp.seq, mirrorResp := some b.resp, mirrorNo := if b.st == .done then b.takenNo else b.mirrorNo }

/-- A command whose effect stands while its FENCE runs: the mirror holds effect and response. -/
def mirrorFence (c : LongCmd) (s : State) : State :=
  match c.kind with
  | .fence p => mirrorCopy c.mbox (stampResponse s .ok (boxAt s c.mbox).req.seq p) s
  | _ => s

/-- The whole state has been copied: the mirror equals it. -/
def mirrorResyncCompleteEffect (s : State) : State :=
  let s0 := { s with mirror := none }
  let s1 := foldS s.mail.longs mirrorFence { s0 with mail := { s0.mail with boxes := s0.mail.boxes.map mirrorBox } }
  let s2 := { s1 with anchor := { s1.anchor with mirrorSync := true } }
  match anchorSlice s2 with
  | some h => modCap s2 (otherOf h) fun c => { c with genSeen := (capAt s2 h).genSeen }
  | none => s2

def execMirrorResyncComplete (s : State) : Host.Outcome State Fault Refusal :=
  .next (whenB (mirrorResyncCompleteGuard s) mirrorResyncCompleteEffect s)

/-! Takeovers (R36, R40, R41, R466). -/

/-- The partial work of a long command is undone (R466). -/
def undoLong (k : LongKind) (s : State) : State :=
  match k with
  | .hbmRelease c => { s with hbm := { s.hbm with chans := vmod s.hbm.chans c fun x => { x with st := .frozen } } }
  | .fwActivate => rollBack s
  | _ => s

/-- A request in flight at a takeover receives its mirrored response, or ABORTED. -/
def takeBox (m : MboxId) (s : State) : State :=
  let b := boxAt s m
  if b.st == .pending || b.st == .running then
    match b.mirrorResp with
    | some r => if b.mirrorNo = b.takenNo ∧ r.seq = b.req.seq ∧ b.st = .running then modBox s m fun x => { x with st := .done, resp := r } else respond m .aborted [] s
    | none => respond m .aborted [] s
  else s

/-- Every request in flight is completed. -/
def takeBoxes (ms : List MboxId) (s : State) : State :=
  let s1 := foldS (s.mail.longs.filter fun c => ms.contains c.mbox) (fun c st => undoLong c.kind st) s
  let s2 := foldS ms takeBox s1
  { s2 with mail := { s2.mail with
      ringQ := s2.mail.ringQ.filter fun m => !ms.contains m,
      longs := s2.mail.longs.filter fun c => !ms.contains c.mbox,
      cur := s2.mail.cur.filter fun m => !ms.contains m } }

/-- Every mailbox. -/
def allBoxes : List MboxId := List.finRange 9

/-- The anchor stops being anchor: it drives neither line nor pins, and the link goes down. -/
def leaveAnchor (h : Half) (st : AnchorSt) (s : State) : State :=
  let s1 := modCap (setAnchor h st (setDrive h false s)) h fun c => { c with handoverAt := none }
  { s1 with anchor := { s1.anchor with pcieUp := false } }

/-- A slice enters ABSTAIN (R37). -/
def abstain (h : Half) (cause : Nat) (s : State) : State :=
  let s1 := if (capAt s h).st == .anchor then leaveAnchor h .abstain s else setAnchor h .abstain (setDrive h false s)
  logEvent 0x0102 .critical (BitVec.ofNat 8 h.val) [BitVec.ofNat 8 h.val, BitVec.ofNat 8 cause] (setFlag aAnchorFlags 1 s1)

/-- A slice enters ANCHOR.  Outside the election of R35 this is a takeover: it loads its mirror, TAKEOVER sets, the requests in flight
are completed, and the link is down until it has trained (R40); with an expired lease MIRROR_STALE sets (R41). -/
def enterAnchor (h : Half) (s : State) : State :=
  let boot := (capAt s h).bootElect
  let stale := !boot && leaseExpired s
  let s1 := modCap (setAnchor h .anchor (if boot then s else loadMirror h s)) h fun c => { c with bootElect := false }
  let s2 := { s1 with anchor := { s1.anchor with pcieUp := false, mirrorStale := stale, mirrorSync := false } }
  let s3 := if boot then s2 else
    setFlag aAnchorFlags 0 (count1 aTakeovers (takeBoxes (if s2.fw.act.any fun a => a.step == 3 then (List.finRange 9).filter fun m => m.val != 8 else allBoxes) s2))
  let s4 := if s3.fw.ready then s3 else { s3 with fw := { s3.fw with startAt := s.now } }
  logEvent 0x0101 .error (BitVec.ofNat 8 h.val) [BitVec.ofNat 8 h.val, BitVec.ofNat 8 stale.toNat] s4

/-! CLAIM_LINE_FREE (R34 to R36). -/

/-- The slice waits to claim: by its wait, or as the preferred slice within 500 us of a cold start. -/
def claimWanted (s : State) (h : Half) : Bool :=
  (capAt s h).waits || ((capAt s h).st == .reset && (capAt s h).coldStart && s.anchor.pref == h &&
    decide (s.now ≤ (capAt s h).releasedAt + 500 * usTicks))

/-- What a slice reads on the line where neither drives it (log 136). -/
def senseLine (high : Bool) (s : State) : State :=
  if drives s 0 || drives s 1 then s else { s with anchor := { s.anchor with stuckLow := !high } }

/-- `high`: the line has read high throughout the last 2 us. -/
def claimLineFreeGuard (half : Half) (high : Bool) (s : State) : Bool :=
  claimWanted s half && mgmtRuns s half && !drives s 0 && !drives s 1 && (!high || lineFree (senseLine high s))

/-- The slice asserts the free line and is in ELECT; a line that reads low is not asserted. -/
def claimLineFreeEffect (half : Half) (high : Bool) (s : State) : State :=
  let boot := (capAt s half).st == .reset && (capAt s half).coldStart
  let s1 := senseLine high s
  if high then setDrive half true (modCap (setAnchor half .elect s1) half fun c => { c with bootElect := boot }) else s1

def execClaimLineFree (half : Half) (high : Bool) (s : State) : Host.Outcome State Fault Refusal :=
  .next (whenB (claimLineFreeGuard half high s) (claimLineFreeEffect half high) s)

/-! CLAIM_PROBE (R36). -/

def claimProbeGuard (half : Half) (s : State) : Bool :=
  ((capAt s half).st == .elect && !(capAt s half).waits || (capAt s half).st == .anchor) && mgmtRuns s half

/-- The slice sees its own claim: low while driving, high in its probe window. -/
def seesClaim (s : State) (half : Half) (low high : Bool) : Bool := drives s half && low && high

/-- What a probe leads to: ELECT to ANCHOR or ABSTAIN; an anchor that fails stays with a lease, and abstains without one. -/
def claimProbeEffect (half : Half) (low high : Bool) (s : State) : State :=
  let s1 := if drives s (otherOf half) then s else { s with anchor := { s.anchor with stuckLow := !high } }
  if (capAt s half).st == .elect then
    if seesClaim s half low high then enterAnchor half s1 else abstain half 1 s1
  else if seesClaim s half low high then s1
  else if leaseExpired s then abstain half 0 s1
  else setFlag aAnchorFlags 2 s1

def execClaimProbe (half : Half) (lowWhileDriving : Bool) (highInWindow : Bool) (s : State) : Host.Outcome State Fault Refusal :=
  .next (whenB (claimProbeGuard half s) (claimProbeEffect half lowWhileDriving highInWindow) s)

/-! ELECTION_TIMEOUT (R35). -/

def electionTimeoutGuard (half : Half) (s : State) : Bool :=
  (capAt s half).st == .reset && since s (capAt s half).releasedAt msTicks && mgmtRuns s half

/-- The slice claims the free line at its 1 ms; PREF_OVERRIDDEN where it is not the preferred one. -/
def claimLate (half : Half) (s : State) : State :=
  let s1 := setDrive half true (modCap (setAnchor half .elect s) half fun c => { c with bootElect := (capAt s half).coldStart })
  if s.anchor.pref = half then s1 else setFlag aAnchorFlags 5 s1

/-- At 1 ms the free line is claimed, a held one makes a deputy, and a line low that neither asserts is settled by
ANCHOR_PREF and the peer path; after a per-slice reset the second column of R35 holds for either slice. -/
def settleElection (half : Half) (s : State) : State :=
  if drives s (otherOf half) then setAnchor half .deputy s
  else if s.anchor.stuckLow then
    if peerPath s then
      if s.anchor.pref = half ∧ (capAt s half).coldStart then
        setFlag aAnchorFlags 2 (enterAnchor half (modCap s half fun c => { c with bootElect := true }))
      else setAnchor half .deputy s
    else abstain half 1 s
  else if lineFree s ∧ (s.anchor.pref ≠ half ∨ !(capAt s half).coldStart) then claimLate half s
  else s

/-- The slice reads the line and settles its election by it. -/
def electionTimeoutEffect (half : Half) (high : Bool) (s : State) : State := settleElection half (senseLine high s)

def execElectionTimeout (half : Half) (high : Bool) (s : State) : Host.Outcome State Fault Refusal :=
  .next (whenB (electionTimeoutGuard half s) (electionTimeoutEffect half high) s)

/-! Faults of the anchor (R36). -/

def anchorFaultReportGuard (half : Half) (s : State) : Bool :=
  (capAt s half).st == .deputy && (capAt s (otherOf half)).st == .faulted && peerPath s && mgmtRuns s half

/-- The deputy waits for the line to be free. -/
def anchorFaultReportEffect (half : Half) (s : State) : State := modCap s half fun c => { c with waits := true }

def execAnchorFaultReport (half : Half) (s : State) : Host.Outcome State Fault Refusal :=
  .next (whenB (anchorFaultReportGuard half s) (anchorFaultReportEffect half) s)

def anchorOwnFaultGuard (half : Half) (s : State) : Bool := (capAt s half).st == .anchor

/-- The anchor releases the line and the pins. -/
def anchorOwnFaultEffect (half : Half) (s : State) : State := leaveAnchor half .faulted s

def execAnchorOwnFault (half : Half) (s : State) : Host.Outcome State Fault Refusal :=
  .next (whenB (anchorOwnFaultGuard half s) (anchorOwnFaultEffect half) s)

/-! Planned handover (R43). -/

def handoverLineReleaseGuard (half : Half) (s : State) : Bool :=
  (capAt s half).st == .anchor &&
    match (capAt s half).handoverAt with
    | some t => since s t msTicks
    | none => false

/-- Every mailbox idle; at step 3 of an activation the requests on mailboxes 0 to 7 are completed as in R40 instead (R504). -/
def handoverBoxes (s : State) : State :=
  if s.fw.act.any fun a => a.step == 3 then s
  else
    { s with mail := { s.mail with
        boxes := s.mail.boxes.map fun b => { b with st := .idle },
        ringQ := [], longs := [], cur := none } }

/-- The anchor becomes deputy, and the other slice, where it is deputy, waits in ELECT for the line. -/
def handoverLineReleaseEffect (half : Half) (s : State) : State :=
  let s1 := handoverBoxes (leaveAnchor half .deputy s)
  if (capAt s (otherOf half)).st == .deputy then
    modCap (setAnchor (otherOf half) .elect s1) (otherOf half) fun c => { c with waits := true, bootElect := false }
  else s1

def execHandoverLineRelease (half : Half) (s : State) : Host.Outcome State Fault Refusal :=
  .next (whenB (handoverLineReleaseGuard half s) (handoverLineReleaseEffect half) s)

def anchorHandoverChecks (r : Request) (s : State) : List Check :=
  [ckLen r 0, ⟨!s.anchor.mirrorSync, .busy⟩,
   ⟨match anchorSlice s with
    | some h => (capAt s (otherOf h)).st == .faulted
    | none => true, .notPermitted⟩]

def anchorHandoverApply (_ : Request) (s : State) : Done :=
  match anchorSlice s with
  | some h => okDone (modCap s h fun c => { c with handoverAt := some s.now })
  | none => okDone s

def execAnchorHandover (s : State) : Host.Outcome State Fault Refusal :=
  .next (runCommand 0x0021 anchorHandoverChecks anchorHandoverApply s)

/-! PEER_PATH_RETURN (R36, R42) and PCIE_LINK_TRAINED (R40). -/

def peerPathReturnGuard (s : State) : Bool := peerPath s

/-- An abstaining slice resyncs, or is made anchor. -/
def settleAbstain (s : State) : State :=
  if (capAt s 0).st == .abstain && (capAt s 1).st == .abstain then
    let p := s.anchor.pref
    let s1 := if lineFree s then setDrive p true s else setFlag aAnchorFlags 2 s
    setAnchor (otherOf p) .deputy (enterAnchor p (modCap s1 p fun c => { c with bootElect := false }))
  else if (capAt s 0).st == .abstain && (capAt s 1).st == .anchor then setAnchor 0 .deputy s
  else if (capAt s 1).st == .abstain && (capAt s 0).st == .anchor then setAnchor 1 .deputy s
  else s

/-- The slices whose generation is not the one that the anchor recorded. -/
def divergent (s : State) (h : Half) : List Nat :=
  ((List.finRange 8).filter fun k => present s k.val && s.bridge.cfgGen[k] != (capAt s h).genSeen[k]).map fun k => k.val

/-- Divergent slices are marked, with one ANCHOR_DIVERGED record. -/
def markDiverged (s : State) : State :=
  match anchorSlice s with
  | some h =>
    match divergent s h with
    | [] => s
    | d =>
      let s1 := foldS d (fun k st => setFlag aDiverged k st) s
      let s2 := modCap s1 h fun c => { c with genSeen := s.bridge.cfgGen }
      logEvent 0x0103 .error 0xFF [(flagWord s2 aDiverged).setWidth 8] s2
  | none => s

def peerPathReturnEffect (s : State) : State := markDiverged (settleAbstain s)

def execPeerPathReturn (s : State) : Host.Outcome State Fault Refusal := .next (whenB (peerPathReturnGuard s) peerPathReturnEffect s)

def pcieLinkTrainedGuard (s : State) : Bool :=
  match anchorSlice s with
  | some h => mgmtRuns s h && s.power.slices[halfSlice h].meters[(2 : Fin 8)].st != .failed && !s.pins.removed
  | none => false

/-- The link is up, with the mirrored configuration space and MSI-X table. -/
def pcieLinkTrainedEffect (s : State) : State := { s with anchor := { s.anchor with pcieUp := true } }

def execPcieLinkTrained (s : State) : Host.Outcome State Fault Refusal :=
  .next (whenB (pcieLinkTrainedGuard s) pcieLinkTrainedEffect s)

/-- The ring is disabled: descriptors not read and buffers posted are abandoned, and write-backs in flight are dropped. -/
def closeRing (x : MgtRing) : MgtRing :=
  { x with txEnabled := false, rxEnabled := false, txOwed := [], txHead := x.txTail, rxHead := x.rxTail }

/-- The PCIe function is reset, as by PERST_N or where the link goes down other than by a takeover: PENDING requests on mailboxes 0
to 7 end ABORTED, the event queue and the rings are disabled, vectors are masked, the configuration space is at its reset
contents (R553). -/
def pcieDown (s : State) : State :=
  let ms := (List.finRange 9).filter fun m => m.val < 8 && (boxAt s m).st == .pending
  let s1 := foldS ms (fun m st => respond m .aborted [] st) s
  let s2 := { s1 with mail := { s1.mail with ringQ := s1.mail.ringQ.filter fun m => !ms.contains m } }
  let vecs := s2.ev.vecs.map fun v => { v with masked := true, pba := false }
  let s3 := { s2 with ev := { s2.ev with
      evq := { s2.ev.evq with enabled := false },
      rings := s2.ev.rings.map closeRing,
      vecs := vecs } }
  { s3 with anchor := { s3.anchor with pcieUp := false, cfgSpace := [] } }

/-! SMBus (R39, R470). -/

/-- The slice that answers SMBus: the anchor, otherwise the lower-numbered slice in ABSTAIN. -/
def smbusSlice (s : State) : Option Half :=
  match anchorSlice s with
  | some h => some h
  | none => if (capAt s 0).st == .abstain then some 0 else if (capAt s 1).st == .abstain then some 1 else none

/-- Bytes that a block read returns: the byte count and the data. -/
def smbusReply (d : List Byte) (s : State) : State :=
  { s with env := { s.env with smbusOut := BitVec.ofNat 8 d.length :: d } }

/-- Some slice answers. -/
def smbusAnswered (s : State) : Bool := (smbusSlice s).isSome

def takeChargeGuard (half : Half) (s : State) : Bool := mgmtRuns s half && !s.power.standby

/-- Enter ELECT on TAKE_CHARGE: the line is asserted if it is free. -/
def chargeElect (half : Half) (s : State) : State :=
  let s1 := modCap (setAnchor half .elect s) half fun c => { c with bootElect := false }
  if lineFree s then setDrive half true s1 else s1

/-- TAKE_CHARGE names this slice: a deputy needs an expired lease, a slice in ABSTAIN no peer path. -/
def takeChargeEffect (half : Half) (s : State) : State :=
  match (capAt s half).st with
  | .deputy => if leaseExpired s then chargeElect half s else { s with anchor := { s.anchor with refused := s.anchor.refused + 1 } }
  | .abstain => if peerPath s then s else chargeElect half s
  | _ => s

def execTakeCharge (half : Half) (s : State) : Host.Outcome State Fault Refusal :=
  .next (whenB (takeChargeGuard half s) (takeChargeEffect half) s)

/-- MGT_DEV_ID (R2 to R4). -/
def partDevice : Part → Nat
  | .ct1602 => 0x1602
  | .ct3204 => 0x3204
  | .ct4806 => 0x4806
  | .ct6408 => 0x6408

end Sys2Proof.Machine
end

