-- ==== Sys2Proof/Machine/Hbm.lean ====
section
/-!
DEFINITION. Machine/Hbm.lean: the HBM2E controller (spec/14_hbm_controller.md, R392 to R414): requests, refresh, retraining,
self-refresh, errors and freezing, and its commands.
-/
namespace Sys2Proof.Machine

/-! Addresses and accessors. -/

def aHbmFlags (h : Half) : Nat := sliceReg h.val 0xB00004
def aHbmChFlags (c : ChanId) : Nat := sliceReg (c.val / 4) (0xB01004 + 0x100 * (c.val % 4))
def aHbmC (c : ChanId) (off : Nat) : Nat := sliceReg (c.val / 4) (0xB01040 + 0x100 * (c.val % 4) + off)

/-- The slice that owns a channel (R22). -/
def chanOwner (c : ChanId) : Half := if c.val < 4 then 0 else 1

def chanAt (s : State) (c : ChanId) : HbmChan := s.hbm.chans[c]

def modChan (s : State) (c : ChanId) (f : HbmChan → HbmChan) : State :=
  { s with hbm := { s.hbm with chans := vmod s.hbm.chans c f } }

/-- Bytes of a channel (R392). -/
def chanBytes : Nat := 2 ^ 31

/-- Bytes of the reserved area at the bottom of a channel (R299, R393). -/
def reservedBytes : Nat := 512 * 65536

/-- REQUESTER code of the table store (R412). -/
def reqTable : Nat := 2

/-- The owning slice is FAULTED (R29). -/
def ownerFaulted (s : State) (c : ChanId) : Bool := (capAt s (chanOwner c)).st == .faulted

/-- The owning slice is in ABSTAIN (R37, R410). -/
def ownerAbstains (s : State) (c : ChanId) : Bool := (capAt s (chanOwner c)).st == .abstain

/-- The owning slice is in DORMANT or on its way there (R406). -/
def ownerSleeps (s : State) (c : ChanId) : Bool :=
  let k : SliceId := if c.val < 4 then 0 else 1
  s.power.st[k] == .dormant || (s.power.st[k] == .quiescing && s.power.slices[k].target == .dormant)

/-! The stack (R392, R397). -/

/-- Byte `a` of a channel. -/
def memRead (m : Sparse Byte) (a : Nat) : Byte := sparseGet 0 m a

/-- Write bytes from address `a` on. -/
def memWrite : Sparse Byte → Nat → List Byte → Sparse Byte
  | m, _, [] => m
  | m, a, b :: t => memWrite (sparseSet 0 m a b) (a + 1) t

/-- `n` bytes from address `a` on. -/
def memReads (m : Sparse Byte) (a n : Nat) : List Byte := (List.range n).map fun i => memRead m (a + i)

/-- Pseudo-channel, bank group, bank, row and column of an address (R392). -/
def adrPc (a : Nat) : Nat := a / 32 % 2
def adrCol (a : Nat) : Nat := a / 64 % 32
def adrGroup (a : Nat) : Nat := a / 2048 % 4
def adrBank (a : Nat) : Nat := a / 8192 % 4
def adrRow (a : Nat) : Nat := a / 32768 % 65536

/-- Bank group in bits [1:0], bank in bits [3:2]. -/
def adrBankCode (a : Nat) : Nat := adrGroup a + 4 * adrBank a

/-- The key of an open-row entry. -/
def rowKey (a : Nat) : Nat := 16 * adrPc a + adrBankCode a

/-- Note a command in the history of 256 entries. -/
def note (e : HistEntry) (x : HbmChan) : HbmChan := { x with history := (e :: x.history).take 256 }

/-- A controller command without an address. -/
def ctlEntry (now : Nat) (cmd : HbmCmd) (pc : Nat) : HistEntry :=
  { at_ := now, cmd := cmd, pc := pc, bank := 0, requester := 0xFF, row := 0, column := 0, flags := 0, tag := 0 }

/-- A command for an address of a request. -/
def reqEntry (now : Nat) (cmd : HbmCmd) (r : HbmReq) (a : Nat) : HistEntry :=
  { at_ := now, cmd := cmd, pc := adrPc a, bank := adrBankCode a, requester := r.unit, row := adrRow a, column := adrCol a,
    flags := if r.hint = .close then 1 else 0, tag := r.tag }

/-- Close every bank of the channel (PREA on both pseudo-channels). -/
def closeBanks (now : Nat) (x : HbmChan) : HbmChan :=
  note (ctlEntry now .preA 1) (note (ctlEntry now .preA 0) { x with rows := [] })

/-- Whether the access closes its bank: by the hint in DIRECTED, never in SERVICE (R397). -/
def closesBank (st : ChState) (h : PageHint) : Bool := st == .directed && h != .open

/-- One 32-byte burst: its row is found open or is opened, and closed again where the hint says so (R397). -/
def burst (now : Nat) (r : HbmReq) (a : Nat) (x : HbmChan) : HbmChan :=
  let k := rowKey a
  let openRow := sparseGet none x.rows k
  let hit := openRow == some (adrRow a)
  let x1 := if hit then x else
    let y := if openRow.isSome then note (reqEntry now .pre r a) x else x
    note (reqEntry now .act r a) y
  let x2 := note (reqEntry now (if r.write then .wr else .rd) r a) x1
  let closes := closesBank x.st r.hint
  { (if closes then note (reqEntry now .pre r a) x2 else x2) with
    rows := sparseSet none x2.rows k (if closes then none else some (adrRow a)), lastAddr := a, lastReq := r.unit }

/-- The addresses of the bursts that a request touches. -/
def burstAddrs (r : HbmReq) : List Nat :=
  (List.range ((r.addr + r.data.length - 1) / 32 + 1 - r.addr / 32)).map fun i => 32 * (r.addr / 32 + i)

/-- A burst with its counters (R397, R414). -/
def burstCount (c : ChanId) (r : HbmReq) (a : Nat) (s : State) : State :=
  let hit := sparseGet none (chanAt s c).rows (rowKey a) == some (adrRow a)
  let s1 := count1 (aHbmC c (if hit then 0x10 else 0x18)) s
  modChan (count1 (aHbmC c (if r.write then 0x08 else 0x00)) s1) c (burst s.now r a)

/-- The HBM clock of the channel's owner runs; while it is stopped requests wait (R520). -/
def hbmRuns (s : State) (c : ChanId) : Bool := !s.power.slices[(chanOwner c).castLE (by omega : 2 ≤ 8)].domains[(1 : Fin 8)].stopped

/-- Spill pages: of a channel, which meet a test, are lost (R306, R409). -/
def losePages (c : ChanId) (f : SpillPage → Bool) (s : State) : State :=
  { s with path := { s.path with accounts := s.path.accounts.map fun x =>
      { x with pages := x.pages.map fun p => if p.chan == c.val && f p then { p with lost := true } else p } } }

/-- Bytes of a spill page (R299). -/
def pageBytes : Nat := 65536

/-- Channel-local address of a spill page. -/
def pageAddr (page : Nat) : Nat := (512 + page) * pageBytes

/-- The other channel that holds a table copy (R393). -/
def tablePeer (c : ChanId) : ChanId := Fin.ofNat 8 (c.val ^^^ 4)

/-- A request is served: its bursts run, a write is stored and a read's data is fetched (R394). -/
def serveReq (c : ChanId) (r : HbmReq) (s : State) : State :=
  let s1 := foldS (burstAddrs r) (burstCount c r) s
  modChan s1 c fun x =>
    let y := { x with idleFrom := s.now, idleTime := s.hbm.srIdle }
    if r.write then { y with mem := memWrite y.mem r.addr r.data }
    else { y with reads := y.reads ++ [{ r with data := memReads y.mem r.addr r.data.length }] }

/-- Every request that waits is served, oldest first. -/
def serveWaiting (c : ChanId) (s : State) : State :=
  foldS (chanAt s c).waiting (serveReq c) (modChan s c fun x => { x with waiting := [] })

/-- A request is a legal access of the channel: the requester reaches the owning slice, and the bytes lie in the channel. -/
def reqLegal (c : ChanId) (r : HbmReq) (s : State) : Bool :=
  path s r.requester.val (chanOwner c).val && !ownerFaulted s c && decide (0 < r.data.length) &&
    decide (r.addr + r.data.length ≤ chanBytes)

/-- A request reaches a channel controller (R394, R395, R404, R405, R409). -/
def arrive (c : ChanId) (r : HbmReq) (s : State) : State :=
  let x := chanAt s c
  let wait := fun st : State => modChan st c fun y => { y with waiting := y.waiting ++ [r], idleFrom := s.now, idleTime := s.hbm.srIdle }
  match x.st with
  | .reset => s
  | _ =>
  if !hbmRuns s c && x.st != .frozen then wait s else
  match x.st with
  | .reset => s
  | .training => wait s
  | .directed => serveReq c r s
  | .service =>
    if x.srEntering then
      if x.sreAt.isSome then wait (modChan s c fun y => { y with exitWanted := true })
      else serveReq c r (setFlag (aHbmChFlags c) 3 (count1 (aHbmC c 0x48) (modChan s c fun y => { y with srEntering := false })))
    else serveReq c r s
  | .retrain => wait (count1 (aHbmC c 0x30) s)
  | .selfRefresh => wait (modChan s c fun y => { y with exitAt := some (y.exitAt.getD s.now) })
  | .frozen => count1 (aHbmC c 0x58) s

/-- An access of the table store (R393). -/
def tableReq (r : HbmReq) : Bool := r.unit == reqTable && decide (r.addr + r.data.length ≤ reservedBytes)

/-- The channel is frozen, or counts as frozen to the requester: its owner is FAULTED or out of reach (R29, R409). -/
def chanGone (c : ChanId) (r : HbmReq) (s : State) : Bool :=
  (chanAt s c).st == .frozen || ownerFaulted s c || !path s r.requester.val (chanOwner c).val

/-- A table access of a channel that is frozen, or counts as frozen, is served by the copy in channel c XOR 4; another table write
goes to both copies (R29, R393, R409). -/
def requestEffect (c : ChanId) (r : HbmReq) (s : State) : State :=
  let gone := chanGone c r s
  let s1 := if reqLegal c r s then arrive c r s else s
  let p := tablePeer c
  if tableReq r ∧ (gone ∨ r.write) ∧ reqLegal p r s1 then arrive p r s1 else s1

/-! HBM_REQUEST. -/

def hbmRequestGuard (chan : ChanId) (request : HbmReq) (s : State) : Bool :=
  reqLegal chan request s || (tableReq request && reqLegal (tablePeer chan) request s)

def hbmRequestEffect (chan : ChanId) (request : HbmReq) (s : State) : State := requestEffect chan request s

def execHbmRequest (chan : ChanId) (request : HbmReq) (s : State) : Host.Outcome State Fault Refusal :=
  .next (whenB (hbmRequestGuard chan request s) (hbmRequestEffect chan request) s)

/-! Freezing (R408, R409). -/

/-- The history as it stands when the entry of the faulting access is the newest; the whole where it is not found. -/
def historyFrom (h : List HistEntry) (tag : Word) : List HistEntry :=
  match h.dropWhile fun e => e.cmd != .rd || e.tag != tag with
  | [] => h
  | l => l

/-- Set bits in the FLAGS of the newest read of a request. -/
def markRead (bits : Nat) (tag : Word) : List HistEntry → List HistEntry
  | [] => []
  | e :: t => if e.cmd == .rd && e.tag == tag then { e with flags := e.flags ||| bits } :: t else e :: markRead bits tag t

/-- Set bits of the newest entry's FLAGS. -/
def markNewest (bits : Nat) (h : List HistEntry) : List HistEntry :=
  match h with
  | e :: t => { e with flags := e.flags + bits } :: t
  | [] => []

/-- A channel freezes: history and fault latches held, requests queued rejected, history pages of the log lost. -/
def freeze (c : ChanId) (cause addr req : Nat) (hist : List HistEntry) (s : State) : State :=
  let x := chanAt s c
  let s1 := modChan s c fun y => { y with
    st := .frozen, cause := cause, histValid := true, frozenHist := hist, frozenAt := s.now, faultAddr := addr, faultReq := req,
    waiting := [], reads := [], srEntering := false, sreAt := none, exitAt := none, exitWanted := false, retryAt := none }
  let s2 := count (aHbmC c 0x58) (x.waiting.length + x.reads.length) (count1 (aHbmC c 0x28) s1)
  let s3 := losePages c (fun _ => true) (setFlag (aHbmChFlags c) 0 (reportHistory c s2))
  logEvent 0x0601 .error (BitVec.ofNat 8 (chanOwner c).val)
    ([BitVec.ofNat 8 c.val, BitVec.ofNat 8 cause] ++ toLe 4 addr) s3

/-! HBM_READ_COMPLETE (R407, R408). -/

/-- The oldest read whose data can return over a working path (R28). -/
def nextRead (c : ChanId) (s : State) : Option HbmReq :=
  (chanAt s c).reads.find? fun r => path s (chanOwner c).val r.requester.val

def hbmReadCompleteGuard (chan : ChanId) (s : State) : Bool :=
  (nextRead chan s).isSome && (chanAt s chan).st != .frozen && (chanAt s chan).st != .reset

/-- That read returns; a word corrected is counted and marked in the history, an uncorrectable one is poisoned, so that a spill page is lost, and freezes the
channel, but not one of a slice in ABSTAIN (R409, R410). -/
def hbmReadCompleteEffect (chan : ChanId) (ecc : EccOutcome) (s : State) : State :=
  let x := chanAt s chan
  match nextRead chan s with
  | none => s
  | some r =>
    let s1 := { s with hbm := { s.hbm with readOut := r.data, poisoned := ecc == .uncorrectable } }
    let s2 := modChan s1 chan fun y => { y with reads := y.reads.erase r }
    match ecc with
    | .ok => s2
    | .corrected =>
      setFlag (aHbmChFlags chan) 4 (count1 (aHbmC chan 0x20) (modChan s2 chan fun y => { y with history := markRead 2 r.tag y.history }))
    | .uncorrectable =>
      let s3 := if r.unit = 1 then losePages chan (fun p => pageAddr p.page == r.addr) s2 else s2
      if ownerAbstains s chan then s3
      else freeze chan 1 r.addr r.unit (markNewest 4 (historyFrom x.history r.tag)) s3

def execHbmReadComplete (chan : ChanId) (ecc : EccOutcome) (s : State) : Host.Outcome State Fault Refusal :=
  .next (whenB (hbmReadCompleteGuard chan s) (hbmReadCompleteEffect chan ecc) s)

/-! HBM_CA_PARITY (R408). -/

def hbmCaParityGuard (chan : ChanId) (s : State) : Bool :=
  let st := (chanAt s chan).st
  (st == .service || st == .directed || st == .retrain) && !ownerAbstains s chan

def hbmCaParityEffect (chan : ChanId) (s : State) : State :=
  let x := chanAt s chan
  freeze chan 2 x.lastAddr x.lastReq (markNewest 8 x.history) s

def execHbmCaParity (chan : ChanId) (s : State) : Host.Outcome State Fault Refusal :=
  .next (whenB (hbmCaParityGuard chan s) (hbmCaParityEffect chan) s)

/-! HBM_SERVICE_ENTRY (R396, R401). -/

/-- Ticks in the retraining cycle of 100 ms, and the offset between channels. -/
def retrainCycle : Nat := 100 * msTicks
def retrainOffset : Nat := 10000000

/-- The next retraining instant of channel `c` after `t` (R401). -/
def nextRetrain (c : ChanId) (t : Nat) : Nat :=
  let o := retrainOffset * c.val
  if t < o then o else ((t - o) / retrainCycle + 1) * retrainCycle + o

def hbmServiceEntryGuard (chan : ChanId) (s : State) : Bool :=
  let st := (chanAt s chan).st
  (st == .reset || st == .training || st == .directed) && !ownerFaulted s chan &&
    !s.mail.longs.any fun l => l.kind == .hbmRelease chan

/-- The channel, filled with zeros in DIRECTED, is in normal service; what waited is served. -/
def hbmServiceEntryEffect (chan : ChanId) (s : State) : State :=
  serveWaiting chan (modChan s chan fun x => { x with
    st := .service, mem := if x.st = .directed then x.mem else [], rows := [], retrainAt := nextRetrain chan s.now, trainFails := 0, retryAt := none,
    idleFrom := s.now, idleTime := s.hbm.srIdle, refAt := Vector.replicate 2 s.now })

def execHbmServiceEntry (chan : ChanId) (s : State) : Host.Outcome State Fault Refusal :=
  .next (whenB (hbmServiceEntryGuard chan s) (hbmServiceEntryEffect chan) s)

/-! Temperature (R398, R399). -/

/-- 85 degrees or above: the refresh interval is halved, and REF_2X_ON is raised at the first such reading. -/
def refreshDouble (h : Half) (s : State) : State :=
  let s1 := { s with hbm := { s.hbm with ref2x := s.hbm.ref2x.set h true, cool := s.hbm.cool.set h 0 } }
  if s.hbm.ref2x[h] then s1 else setFlag (aHbmFlags h) 0 s1

/-- 80 degrees or below: two readings running return the interval to 3.9 us. -/
def refreshCool (h : Half) (s : State) : State :=
  if s.hbm.cool[h] = 0 then { s with hbm := { s.hbm with cool := s.hbm.cool.set h 1 } }
  else { s with hbm := { s.hbm with ref2x := s.hbm.ref2x.set h false } }

/-- A reading recorded on an owning slice. -/
def recordTemp (h : Half) (temp : Nat) (s : State) : State :=
  let s1 := { s with hbm := { s.hbm with tempC := s.hbm.tempC.set h temp, tempAt := s.hbm.tempAt.set h (some s.now),
                                         stale := s.hbm.stale.set h false } }
  if 85 ≤ temp then refreshDouble h s1
  else if temp ≤ 80 then refreshCool h s1
  else { s1 with hbm := { s1.hbm with cool := s1.hbm.cool.set h 0 } }

/-- Slice 0 reads every 1 ms, unless it sleeps or has failed. -/
def hbmTempReadGuard (s : State) : Bool :=
  (capAt s 0).st != .faulted && s.power.st[(0 : Fin 8)] != .dormant && s.power.st[(0 : Fin 8)] != .down && match s.hbm.tempAt[0] with
    | some t => since s t msTicks
    | none => true

/-- The reading goes to both owning slices that a path joins; 95 degrees or above raises an alarm. -/
def hbmTempReadEffect (temp : Byte) (s : State) : State :=
  let s1 := recordTemp 0 temp.toNat s
  let s2 := whenB (peerPath s) (recordTemp 1 temp.toNat) s1
  whenB (decide (95 ≤ temp.toNat)) (logEvent 0x0602 .critical 0 [temp]) s2

def execHbmTempRead (temp : Byte) (s : State) : Host.Outcome State Fault Refusal :=
  .next (whenB (hbmTempReadGuard s) (hbmTempReadEffect temp) s)

def hbmTempStaleGuard (half : Half) (s : State) : Bool :=
  !s.hbm.stale[half] && since s (s.hbm.tempAt[half].getD 0) (5 * msTicks)

/-- TEMP_STALE sets, and the stack counts as at 85 degrees or above. -/
def hbmTempStaleEffect (half : Half) (s : State) : State :=
  refreshDouble half { s with hbm := { s.hbm with stale := s.hbm.stale.set half true } }

def execHbmTempStale (half : Half) (s : State) : Host.Outcome State Fault Refusal :=
  .next (whenB (hbmTempStaleGuard half s) (hbmTempStaleEffect half) s)

/-! HBM_REFRESH (R399, R400). -/

/-- The refresh interval of a channel: 3.9 us, or 1.95 us. -/
def refInterval (s : State) (c : ChanId) : Nat := if s.hbm.ref2x[chanOwner c] then 1560 else 3120

def hbmRefreshGuard (chan : ChanId) (pc : Half) (s : State) : Bool :=
  let x := chanAt s chan
  (x.st == .directed || x.st == .service || x.st == .retrain || x.st == .frozen) && since s x.refAt[pc] (refInterval s chan)

/-- An all-bank refresh closes the pseudo-channel's rows. -/
def issueRefresh (now : Nat) (pc : Half) (x : HbmChan) : HbmChan :=
  let y := note (ctlEntry now .ref pc.val) (note (ctlEntry now .preA pc.val) x)
  { y with rows := y.rows.filter fun e => e.1 / 16 != pc.val, refAt := y.refAt.set pc now, refDue := y.refDue.set pc false }

/-- The refresh is issued, or waits for the end of a retraining pause. -/
def hbmRefreshEffect (chan : ChanId) (pc : Half) (s : State) : State :=
  modChan s chan fun x =>
    if x.st == .retrain then { x with refDue := x.refDue.set pc true, refAt := x.refAt.set pc s.now } else issueRefresh s.now pc x

def execHbmRefresh (chan : ChanId) (pc : Half) (s : State) : Host.Outcome State Fault Refusal :=
  .next (whenB (hbmRefreshGuard chan pc s) (hbmRefreshEffect chan pc) s)

/-! Retraining (R401, R402). -/

def hbmRetrainGuard (chan : ChanId) (s : State) : Bool :=
  let x := chanAt s chan
  x.st == .service && !x.srEntering && decide (x.retrainAt ≤ s.now)

/-- The banks close and the pause begins. -/
def hbmRetrainEffect (chan : ChanId) (s : State) : State :=
  modChan s chan fun x => { closeBanks s.now x with st := .retrain, retrainAt := nextRetrain chan s.now, retryAt := none }

def execHbmRetrain (chan : ChanId) (s : State) : Host.Outcome State Fault Refusal :=
  .next (whenB (hbmRetrainGuard chan s) (hbmRetrainEffect chan) s)

def hbmRetrainEndGuard (chan : ChanId) (s : State) : Bool := (chanAt s chan).st == .retrain

/-- Refreshes that fell due in the pause are issued before any waiting request (R400). -/
def dueRefreshes (now : Nat) (x : HbmChan) : HbmChan :=
  let y := if x.refDue[0] then issueRefresh now 0 x else x
  if y.refDue[1] then issueRefresh now 1 y else y

/-- The pause ends: converged, or with the old settings; the third failure running freezes the channel. -/
def hbmRetrainEndEffect (chan : ChanId) (converged : Bool) (s : State) : State :=
  let x := chanAt s chan
  let back := fun st : State => serveWaiting chan (modChan st chan fun y => dueRefreshes s.now { y with st := .service })
  if converged then back (modChan s chan fun y => { y with trainFails := 0, retryAt := none })
  else
    let s1 := modChan (count1 (aHbmC chan 0x38) s) chan fun y => { y with trainFails := y.trainFails + 1 }
    if 3 ≤ x.trainFails + 1 ∧ !ownerAbstains s chan then freeze chan 3 x.lastAddr x.lastReq x.history s1
    else back (modChan s1 chan fun y => { y with retryAt := some (s.now + msTicks) })

def execHbmRetrainEnd (chan : ChanId) (converged : Bool) (s : State) : Host.Outcome State Fault Refusal :=
  .next (whenB (hbmRetrainEndGuard chan s) (hbmRetrainEndEffect chan converged) s)

def hbmRetrainRetryGuard (chan : ChanId) (s : State) : Bool :=
  let x := chanAt s chan
  x.st == .service && !x.srEntering && match x.retryAt with
    | some t => decide (t ≤ s.now)
    | none => false

def hbmRetrainRetryEffect (chan : ChanId) (s : State) : State :=
  modChan s chan fun x => { closeBanks s.now x with st := .retrain, retryAt := none }

def execHbmRetrainRetry (chan : ChanId) (s : State) : Host.Outcome State Fault Refusal :=
  .next (whenB (hbmRetrainRetryGuard chan s) (hbmRetrainRetryEffect chan) s)

/-! Self-refresh (R403 to R406). -/

/-- Some account is spilling (R301). -/
def anySpilling (s : State) : Bool := (List.finRange 256).any fun a => (acctAt s a).spilling

/-- The idle condition has held for SR_IDLE. -/
def srIdleMet (c : ChanId) (s : State) : Bool :=
  let x := chanAt s c
  natBit s.hbm.srMask.toNat c.val && since s x.idleFrom (x.idleTime * usTicks) && !anySpilling s &&
    since s s.path.spillEndAt (x.idleTime * usTicks)

/-- The idle condition, or the owning slice on its way to DORMANT (R406). -/
def hbmSrEntryGuard (chan : ChanId) (s : State) : Bool :=
  let x := chanAt s chan
  x.st == .service && x.sreAt.isNone && (srIdleMet chan s || ownerSleeps s chan)

/-- First the banks close and SR_ENTERING sets; then SRE is placed on the command bus. -/
def hbmSrEntryEffect (chan : ChanId) (s : State) : State :=
  modChan s chan fun x =>
    if x.srEntering then note (ctlEntry s.now .sre 0) { x with sreAt := some s.now }
    else { closeBanks s.now x with srEntering := true }

def execHbmSrEntry (chan : ChanId) (s : State) : Host.Outcome State Fault Refusal :=
  .next (whenB (hbmSrEntryGuard chan s) (hbmSrEntryEffect chan) s)

def hbmSrEntryCompleteGuard (chan : ChanId) (s : State) : Bool :=
  (chanAt s chan).st == .service && (chanAt s chan).sreAt.isSome

/-- The channel is in SELF_REFRESH; a request that came in the SRE cycle or later begins the exit at once. -/
def hbmSrEntryCompleteEffect (chan : ChanId) (s : State) : State :=
  count1 (aHbmC chan 0x40) (modChan s chan fun x => { x with
    st := .selfRefresh, srEntering := false, sreAt := none, srSince := s.now, exitWanted := false,
    exitAt := if x.exitWanted then some s.now else none })

def execHbmSrEntryComplete (chan : ChanId) (s : State) : Host.Outcome State Fault Refusal :=
  .next (whenB (hbmSrEntryCompleteGuard chan s) (hbmSrEntryCompleteEffect chan) s)

/-- Exit began, and the owning slice does not sleep (R406). -/
def hbmSrExitCompleteGuard (chan : ChanId) (s : State) : Bool :=
  (chanAt s chan).st == .selfRefresh && (chanAt s chan).exitAt.isSome && !ownerSleeps s chan

/-- Exit retrains; the channel is in SERVICE and serves what waited. -/
def hbmSrExitCompleteEffect (chan : ChanId) (s : State) : State :=
  serveWaiting chan (modChan s chan fun x => note (ctlEntry s.now .srx 0) { x with
    st := .service, exitAt := none, retrainAt := nextRetrain chan s.now, trainFails := 0, retryAt := none,
    idleFrom := s.now, idleTime := s.hbm.srIdle, refAt := Vector.replicate 2 s.now })

def execHbmSrExitComplete (chan : ChanId) (s : State) : Host.Outcome State Fault Refusal :=
  .next (whenB (hbmSrExitCompleteGuard chan s) (hbmSrExitCompleteEffect chan) s)

/-! HBM_CHANNEL_RELEASE (R411). -/

/-- CHANNEL of a request. -/
def hbChan (r : Request) : ChanId := Fin.ofNat 8 (r.u8 0)

/-- The anchor does not reach the channel's owning slice (R31). -/
def ckOwner (r : Request) (s : State) : Check :=
  ⟨(match anchorSlice s with
    | some h => !path s h.val (chanOwner (hbChan r)).val
    | none => true), .timeout⟩

def hbmChannelReleaseChecks (r : Request) (s : State) : List Check :=
  [ckLen r 4, ckRange (decide (7 < r.u8 0) || resv r 1 3), ckOwner r s, ⟨(chanAt s (hbChan r)).st != .frozen, .conflict⟩]

/-- The controller resets the channel and trains it. -/
def hbmChannelReleaseStart (m : MboxId) (r : Request) (s : State) : State :=
  setLong m (.hbmRelease (hbChan r)) (modChan s (hbChan r) fun x => { x with st := .training, rows := [], refDue := Vector.replicate 2 false })

def execHbmChannelRelease (s : State) : Host.Outcome State Fault Refusal :=
  .next (runLong 0x0800 hbmChannelReleaseChecks hbmChannelReleaseStart s)

/-- The channel that the long command of a mailbox releases. -/
def releasing (s : State) (m : MboxId) : Option ChanId :=
  match longOf s m with
  | some (.hbmRelease c) => some c
  | _ => none

def hbmReleaseCompleteGuard (mbox : MboxId) (s : State) : Bool := (releasing s mbox).isSome

/-- The table store recopied from channel c XOR 4 over a channel of zeros (R393, R411). -/
def recopied (s : State) (c : ChanId) : Sparse Byte := (chanAt s (tablePeer c)).mem.filter fun e => decide (e.1 < reservedBytes)

/-- The release ends with the channel in SERVICE, or frozen again. -/
def hbmReleaseCompleteEffect (mbox : MboxId) (trained : Bool) (s : State) : State :=
  match releasing s mbox with
  | some c =>
    if trained then
      let s1 := modChan s c fun x => { x with
        st := .service, mem := recopied s c, retrainAt := nextRetrain c s.now, trainFails := 0, retryAt := none,
        idleFrom := s.now, idleTime := s.hbm.srIdle, refAt := Vector.replicate 2 s.now }
      finish mbox (okDone (setFlag (aHbmChFlags c) 1 (serveWaiting c s1)))
    else
      let s1 := count (aHbmC c 0x58) (chanAt s c).waiting.length
        (modChan s c fun x => { x with st := .frozen, cause := 3, waiting := [] })
      finish mbox { st := setFlag (aHbmChFlags c) 2 s1, status := .timeout }
  | none => s

def execHbmReleaseComplete (mbox : MboxId) (trained : Bool) (s : State) : Host.Outcome State Fault Refusal :=
  .next (whenB (hbmReleaseCompleteGuard mbox s) (hbmReleaseCompleteEffect mbox trained) s)

/-! HBM_HISTORY_READ (R412) and HBM_SET (R413). -/

/-- CMD codes of R412. -/
def HbmCmd.code : HbmCmd → Nat
  | .act => 0
  | .rd => 1
  | .wr => 2
  | .pre => 3
  | .preA => 4
  | .ref => 5
  | .sre => 6
  | .srx => 7
  | .mrs => 8

/-- Controller cycles in trunk ticks: 0.9 GHz against 0.8 GHz. -/
def ctlCycles (t : Nat) : Nat := t * 9 / 8

/-- One entry of 16 bytes; `newest` is the instant of entry 0. -/
def histBytes (newest : Nat) (e : HistEntry) : List Byte :=
  toLe 4 (ctlCycles (newest - e.at_)) ++ [BitVec.ofNat 8 e.cmd.code, BitVec.ofNat 8 e.pc, BitVec.ofNat 8 e.bank, BitVec.ofNat 8 e.requester] ++
    toLe 2 e.row ++ [BitVec.ofNat 8 e.column, BitVec.ofNat 8 e.flags] ++ toLe 4 e.tag.toNat

def hbmHistoryReadChecks (r : Request) (s : State) : List Check :=
  [ckLen r 4, ckRange (decide (7 < r.u8 0) || r.u16 2 == 0 || decide (255 < r.u16 2) || decide (256 < r.u8 1 + r.u16 2)),
   ckOwner r s, ⟨!(chanAt s (hbChan r)).histValid, .conflict⟩]

def hbmHistoryReadApply (r : Request) (s : State) : Done :=
  let h := (chanAt s (hbChan r)).frozenHist
  let newest := match h with | e :: _ => e.at_ | [] => 0
  { st := s, payload := (List.range (r.u16 2)).flatMap fun i =>
      match h[r.u8 1 + i]? with
      | some e => histBytes newest e
      | none => List.replicate 16 0 }

def execHbmHistoryRead (s : State) : Host.Outcome State Fault Refusal :=
  .next (runCommand 0x0801 hbmHistoryReadChecks hbmHistoryReadApply s)

def hbmSetChecks (r : Request) (_ : State) : List Check :=
  [ckLen r 4, ckRange (resv r 1 1 || decide (r.u16 2 < 100) || decide (50000 < r.u16 2))]

/-- A channel whose bit is cleared in self-refresh makes its exit. -/
def hbmSetApply (r : Request) (s : State) : Done :=
  let chans := Vector.ofFn fun c : Fin 8 =>
    let x := s.hbm.chans[c]
    if natBit (r.u8 0) c.val then x
    else if x.st == .selfRefresh then { x with exitAt := some (x.exitAt.getD s.now) }
    else if x.sreAt.isSome then { x with exitWanted := true }
    else { x with srEntering := false }
  okDone { s with hbm := { s.hbm with srMask := BitVec.ofNat 8 (r.u8 0), srIdle := r.u16 2, chans := chans } }

def execHbmSet (s : State) : Host.Outcome State Fault Refusal :=
  .next (runCommand 0x0802 hbmSetChecks hbmSetApply s)

end Sys2Proof.Machine
end

