-- ==== Sys2Proof/Machine/HostPort.lean ====
section
/-!
DEFINITION. Machine/HostPort.lean: host Ethernet ports: reception, filters, checksums, flow control, transmission, low-power
idle and link-fault signalling (spec/08_host_ethernet_ports.md, R218 to R246; service order of spec/11 R313 to R326).
-/
namespace Sys2Proof.Machine

/-! The port (R218 to R222). -/

/-- The core clock of a slice has stopped (R520). -/
def coreStopped (s : State) (k : SliceId) : Bool := s.power.slices[k].domains[(0 : Fin 8)].stopped

/-- A slice in RUN, or in IDLE or DROWSE, which every rule outside its chapter takes as RUN (R526). -/
def sliceAwake (s : State) (k : SliceId) : Bool :=
  present s k.val && (s.power.st[k] == .run || s.power.st[k] == .idle || s.power.st[k] == .drowse)

/-- A slice that runs: awake, with its core clock going. -/
def sliceRuns (s : State) (k : SliceId) : Bool := sliceAwake s k && !coreStopped s k

/-- The port exists, its function has not stopped and its slice is awake (R218, R222). -/
def portAwake (s : State) (p : PortId) : Bool :=
  portExists s p && !s.path.portsStopped[laneSlice p] && sliceAwake s (laneSlice p) && carriesTraffic s

/-- The port runs: it is awake, and its slice's core clock goes. -/
def portRuns (s : State) (p : PortId) : Bool := portAwake s p && !coreStopped s (laneSlice p)

/-- The crossing from a lane to the core: the core has stopped, or the crossing is in quarantine, so that its writer sees it
full (R514, R535). -/
def crossingFull (s : State) (k : SliceId) (lane : Nat) : Bool :=
  coreStopped s k || s.power.slices[k].quarantine.contains (16 + lane)

/-- A frame that its crossing cannot take is discarded whole, and counted in CLK_STALL_DROPS (R514). -/
def stallDrop (k : SliceId) (s : State) : State := count1 (sliceReg k.val 0xA00438) s

/-- The mode in force at a port. -/
def portMode (s : State) (p : PortId) : Nat := s.path.mode[laneSlice p]

/-- A quantum of 512 bit times in 1/1,000 tick (R236). -/
def quantumMilli (mode : Nat) : Nat := if mode = 1 then 512 else if mode = 2 then 1024 else if mode = 3 then 2048 else 4096

/-- Ticks of a number of quanta. -/
def quantaTicks (mode n : Nat) : Nat := ceilDiv (n * quantumMilli mode) 1000

/-- Port rate in Gb/s. -/
def portGbps (mode : Nat) : Nat := if mode = 1 then 800 else if mode = 2 then 400 else if mode = 3 then 200 else 100

/-- FLAGS of PORT_SET (R243). -/
def lfEnable (x : PortSt) : Bool := x.flags.getLsbD 0
def txCsumL3 (x : PortSt) : Bool := x.flags.getLsbD 1
def txCsumL4 (x : PortSt) : Bool := x.flags.getLsbD 2
def rxCsumDrop (x : PortSt) : Bool := x.flags.getLsbD 3
def ucFilter (x : PortSt) : Bool := x.flags.getLsbD 4
def mcFilter (x : PortSt) : Bool := x.flags.getLsbD 5
def bcastAccept (x : PortSt) : Bool := x.flags.getLsbD 6

/-! Address filter (R226, R227). -/

def daMacControl : Nat := 0x0180C2000001
def daBroadcast : Nat := 0xFFFFFFFFFFFF

/-- The hash bin of a group address (R227). -/
def hashBin (da : Nat) : Nat := fld (crc32 0xFFFFFFFF (bitsOfBytes (toBe 6 da))) 20 12

/-- The I/G bit of a destination. -/
def isGroupAddr (da : Nat) : Bool := natBit da 40

/-- The filter accepts a destination (R226). -/
def filterAccepts (x : PortSt) (da : Nat) : Bool :=
  if 0x0180C2000000 ≤ da ∧ da ≤ 0x0180C200000F then true
  else if da = daBroadcast then bcastAccept x
  else if isGroupAddr da then !mcFilter x || sparseGet false x.hash (hashBin da)
  else !ucFilter x || x.exact.any fun e => e.2 == (true, BitVec.ofNat 48 da)

/-! Received pause (R237, R238). -/

/-- A queue's stop by received quanta: it replaces the remaining time. -/
def stopQueue (now t : Nat) (q : EgressQ) : EgressQ :=
  if t = 0 then { q with pauseEnd := now, pausedSince := none }
  else { q with pauseEnd := now + t, pausedSince := if q.pausedSince.isSome && decide (now < q.pauseEnd) then q.pausedSince else some now }

/-- Quanta that a received frame gives a queue; none where it does not name it. -/
def quantaFor (f : PauseRx) (prio : Nat) : Option Nat :=
  if f.pfc then (if f.prios.getLsbD prio then some (f.quanta.getD prio 0) else none) else some (f.quanta.getD 0 0)

/-- What a received frame does to a queue. -/
def pauseOne (f : PauseRx) (now mode : Nat) (q : EgressQ) : EgressQ :=
  match quantaFor f q.prio with
  | some n => stopQueue now (quantaTicks mode n) q
  | none => q

/-- A queue is stopped by received pause. -/
def queuePaused (now : Nat) (q : EgressQ) : Bool := q.pausedSince.isSome && decide (now < q.pauseEnd)

/-- Some quanta named are not zero. -/
def pauseNonZero (f : PauseRx) : Bool := (List.range 8).any fun p => match quantaFor f p with | some n => n != 0 | none => false

/-- A PAUSE or PFC frame is consumed, counted and, where honoured, stops the queues it names (R237). -/
def pauseConsume (port : PortId) (f : PauseRx) (s : State) : State :=
  let x := portAt s port
  let s1 := count1 (aMac port 0x48) s
  let s2 := if f.pfc then foldS (List.range 8) (fun p => whenB (f.prios.getLsbD p) (count1 (aPfcRx port p))) s1 else s1
  let s3 := modPort s2 port fun y => { y with storm := if y.storm.isSome && pauseNonZero f then some s.now else y.storm }
  if x.rxHonour && x.storm.isNone && (x.fcMode == if f.pfc then 2 else 1) then
    modPort s3 port fun y => { y with
      queues := Vector.ofFn fun q : Fin 32 => pauseOne f s.now (portMode s port) y.queues[q] }
  else s3

/-- The pause frame that a received MAC Control frame is, if it is one. -/
def pauseOfFrame (b : FrameBytes) (fcsOk : Bool) : Option PauseRx :=
  if beAt b 12 2 ≠ 0x8808 then none
  else if beAt b 14 2 = 0x0001 then some { pfc := false, prios := 0, quanta := [beAt b 16 2], fcsOk := fcsOk }
  else if beAt b 14 2 = 0x0101 then
    some { pfc := true, prios := byteOf b 17, quanta := (List.range 8).map fun i => beAt b (18 + 2 * i) 2, fcsOk := fcsOk }
  else none

/-! HOST_FRAME_RX (R223 to R226, R234). -/

/-- The first reason of R224 for which a received frame is discarded: its counter, and the flag it sets. -/
def rxDiscard (x : PortSt) (f : FrameRx) : Option (Nat × Option Nat) :=
  let n := f.bytes.length + 4
  if f.codeErr || f.uncorrectable != 0 then some (0x38, none)
  else if x.maxFrame < n then some (0x30, some 3)
  else if n < 64 then some (0x28, none)
  else if !f.fcsOk then some (0x20, none)
  else if !filterAccepts x (beAt f.bytes 0 6) then some (0x40, none)
  else none

/-- Counts of an accepted frame (R247). -/
def rxCounts (port : PortId) (b : FrameBytes) (s : State) : State :=
  let da := beAt b 0 6
  let s1 := count (aMac port 0x08) (b.length + 4) (count1 (aMac port 0x00) s)
  if da = daBroadcast then count1 (aMac port 0x10) s1 else if isGroupAddr da then count1 (aMac port 0x18) s1 else s1

/-- Counts of bad checksums (R234). -/
def csumMarks (port : PortId) (l3 l4 : Bool) (s : State) : State :=
  whenB (l3 || l4) (setFlag (aMacFlags port) 7)
    (whenB l4 (count1 (aMac port 0x58)) (whenB l3 (count1 (aMac port 0x50)) s))

/-- A frame that a loop brings back without DELIVER, or that a far-end loop only counts, goes no further (R424). -/
def loopAbsorbs (s : State) (port : PortId) : Bool :=
  let n := s.serdes.lanes[hostSerial port]
  n.loop == .fes || (n.loop != .none && !n.deliver)

/-- A good frame: checksums, counts, and on to the buffer manager (R223, R234, R282, R235). -/
def acceptFrame (port : PortId) (b : FrameBytes) (s : State) : State :=
  let x := portAt s port
  let src : Source := { kind := 0, id := port.val }
  let q := parseFrame b (sourceOf s src).vxlan
  let l3 := l3Bad q b
  let l4 := l4Bad q b
  let s1 := csumMarks port l3 l4 s
  if rxCsumDrop x && (l3 || l4) then s1
  else
    let s2 := rxCounts port b s1
    if loopAbsorbs s port then s2
    else
      let prio := if isTag (beAt b 12 2) then beAt b 14 1 / 32 else x.defPrio
      receiveFrame (laneSlice port) (port.val % 4)
        { bytes := b, src := src, prio := prio, stamp := deviceStamp s2, l3Bad := l3, l4Bad := l4 } s2

/-- Counts of the FEC; an uncorrectable codeword sets FEC_UNCORR (R220, R247). -/
def fecCounts (port : PortId) (f : FrameRx) (s : State) : State :=
  let s1 := count (aMac port 0xB0) f.symbols (count (aMac port 0xA0) f.corrected s)
  whenB (f.uncorrectable != 0) (fun st => setFlag (aMacFlags port) 2 (count (aMac port 0xA8) f.uncorrectable st)) s1

/-- A port that is awake and aligned. -/
def hostFrameRxGuard (port : PortId) (s : State) : Bool := portAwake s port && (portAt s port).aligned

/-- The crossing of a lane of the port is full. -/
def rxStalled (port : PortId) (s : State) : Bool :=
  (List.range (portLanes (portMode s port))).any fun i => crossingFull s (laneSlice port) (port.val % 4 + i)

/-- A frame past the FEC: discarded under R224, consumed as a pause frame, or accepted. -/
def takeFrame (port : PortId) (frame : FrameRx) (s : State) : State :=
  if rxStalled port s then stallDrop (laneSlice port) s
  else match rxDiscard (portAt s port) frame with
  | some (c, fl) =>
    let s1 := count1 (aMac port c) s
    match fl with
    | some b => setFlag (aMacFlags port) b s1
    | none => s1
  | none =>
    if beAt frame.bytes 0 6 = daMacControl then
      (match pauseOfFrame frame.bytes frame.fcsOk with
       | some p => pauseConsume port p s
       | none => s)
    else acceptFrame port frame.bytes s

def hostFrameRxEffect (port : PortId) (frame : FrameRx) (s : State) : State := takeFrame port frame (fecCounts port frame s)

def execHostFrameRx (port : PortId) (frame : FrameRx) (s : State) : Host.Outcome State Fault Refusal :=
  .next (whenB (hostFrameRxGuard port s) (hostFrameRxEffect port frame) s)

/-! PAUSE_FRAME_RX, PAUSE_EXPIRY, PAUSE_STORM, PAUSE_STORM_END (R237, R238). -/

def pauseFrameRxGuard (port : PortId) (s : State) : Bool := portRuns s port && (portAt s port).aligned

/-- A pause frame with a bad FCS is a frame of R224. -/
def pauseFrameRxEffect (port : PortId) (frame : PauseRx) (s : State) : State :=
  if frame.fcsOk then pauseConsume port frame s else count1 (aMac port 0x20) s

def execPauseFrameRx (port : PortId) (frame : PauseRx) (s : State) : Host.Outcome State Fault Refusal :=
  .next (whenB (pauseFrameRxGuard port s) (pauseFrameRxEffect port frame) s)

def pauseExpiryGuard (port : PortId) (queue : QueueId) (s : State) : Bool :=
  let q := (portAt s port).queues[queue]
  q.pausedSince.isSome && decide (q.pauseEnd ≤ s.now)

def pauseExpiryEffect (port : PortId) (queue : QueueId) (s : State) : State :=
  modQueue s port queue fun q => { q with pausedSince := none }

def execPauseExpiry (port : PortId) (queue : QueueId) (s : State) : Host.Outcome State Fault Refusal :=
  .next (whenB (pauseExpiryGuard port queue s) (pauseExpiryEffect port queue) s)

def pauseStormGuard (port : PortId) (s : State) : Bool :=
  let x := portAt s port
  portExists s port && x.storm.isNone && x.watchdog != 0 &&
    x.queues.toList.any fun q => match q.pausedSince with
      | some t => queuePaused s.now q && since s t (x.watchdog * msTicks)
      | none => false

/-- The port gives up on its partner: received pause is ignored and its stops end (R238). -/
def pauseStormEffect (port : PortId) (s : State) : State :=
  let s1 := setFlag (aMacFlags port) 5 (count1 (aMac port 0xD0) s)
  modPort s1 port fun x => { x with
    storm := some s.now, queues := x.queues.map fun q => { q with pauseEnd := s.now, pausedSince := none } }

def execPauseStorm (port : PortId) (s : State) : Host.Outcome State Fault Refusal :=
  .next (whenB (pauseStormGuard port s) (pauseStormEffect port) s)

def pauseStormEndGuard (port : PortId) (s : State) : Bool :=
  match (portAt s port).storm with
  | some t => since s t (10 * msTicks)
  | none => false

def pauseStormEndEffect (port : PortId) (s : State) : State := modPort s port fun x => { x with storm := none }

def execPauseStormEnd (port : PortId) (s : State) : Host.Outcome State Fault Refusal :=
  .next (whenB (pauseStormEndGuard port s) (pauseStormEndEffect port) s)

/-! PAUSE_SEND, PAUSE_REFRESH (R236). -/

/-- A pause frame is sent: it carries priorities `m`, with QUANTA for those of `on` and 0 for the others. -/
def sendPause (port : PortId) (pfc : Bool) (m on : Byte) (s : State) : State :=
  let x := portAt s port
  let qs := (List.range 8).map fun p => if m.getLsbD p && on.getLsbD p then x.quanta else 0
  let s1 := count1 (aMac port 0x80) s
  let s2 := if pfc then foldS (List.range 8) (fun p => whenB (m.getLsbD p) (count1 (aPfcTx port p))) s1 else s1
  let sent := (x.xoffSent &&& ~~~m) ||| (on &&& m)
  modPort s2 port fun y => { y with
    lastPause := some (pfc, m, qs), xoffSent := sent, xoffAt := if pauseWanted y = sent then none else y.xoffAt,
    pauseSentAt := Vector.ofFn fun p : Fin 8 => if m.getLsbD p.val then s.now else y.pauseSentAt[p], idleSince := s.now }

/-- The port transmits no frame: it sends Local Fault, sends Idle because it receives Remote Fault, or is down (R231). -/
def portFaulting (s : State) (port : PortId) : Bool :=
  let x := portAt s port
  x.lfTx || x.rfRx || !portUp s port

/-- The port may put a frame on the wire: no wake of low-power idle is under way (R240). -/
def wireReady (s : State) (port : PortId) : Bool :=
  (portAt s port).lpiTx.isNone && decide ((portAt s port).wakeUntil ≤ s.now)

/-- Pause frames can leave the port (R231, R236). -/
def pauseOpen (s : State) (port : PortId) : Bool :=
  let x := portAt s port
  portRuns s port && x.txEnable && x.fcMode != 0 && !portFaulting s port && wireReady s port

/-- Priorities announced and still wanted whose refresh falls due: in PAUSE all of them as one (R236). -/
def refreshDue (s : State) (port : PortId) : Byte :=
  let x := portAt s port
  let held := x.xoffSent &&& pauseWanted x
  byteOfBits ((List.finRange 8).map fun p =>
    held.getLsbD p.val && since s x.pauseSentAt[p] (quantaTicks (portMode s port) x.refresh))

def pauseSendGuard (port : PortId) (s : State) : Bool :=
  let x := portAt s port
  pauseOpen s port && pauseWanted x != x.xoffSent && match x.xoffAt with | some t => since s t 160 | none => false

/-- The change of indication is announced: PAUSE, or PFC for every priority whose state changed or whose refresh fell due. -/
def pauseSendEffect (port : PortId) (s : State) : State :=
  let x := portAt s port
  let w := pauseWanted x
  if x.fcMode = 1 then sendPause port false 0xFF w s else sendPause port true ((w ^^^ x.xoffSent) ||| refreshDue s port) w s

def execPauseSend (port : PortId) (s : State) : Host.Outcome State Fault Refusal :=
  .next (whenB (pauseSendGuard port s) (pauseSendEffect port) s)

def pauseRefreshGuard (port : PortId) (s : State) : Bool := pauseOpen s port && refreshDue s port != 0

def pauseRefreshEffect (port : PortId) (s : State) : State :=
  if (portAt s port).fcMode = 1 then sendPause port false 0xFF 0xFF s
  else sendPause port true (refreshDue s port) (refreshDue s port) s

def execPauseRefresh (port : PortId) (s : State) : Host.Outcome State Fault Refusal :=
  .next (whenB (pauseRefreshGuard port s) (pauseRefreshEffect port) s)

/-! Eligibility and service order (R315 to R317, R325, R326). -/

/-- The LAUNCH_TIME that the head of a TIMED queue carries. -/
def headLaunch (q : EgressQ) : Option Nat :=
  if q.timed then (match q.frames.head? with
    | some p => p.launch.map launchNs
    | none => none) else none

/-- The head waits for its launch time until that has come (R325); with the counter stopped every timed head waits (R326). -/
def headWaits (s : State) (q : EgressQ) : Bool :=
  match headLaunch q with
  | some t => s.time.stopped || (!q.due && decide (timeNs s < t))
  | none => false

/-- Bytes of a frame on the wire from destination address to FCS, padded (R229). -/
def wireLen (p : Packet) : Nat := max p.bytes.length 60 + 4

/-- Counted length at host egress (R319). -/
def hostL (x : PortSt) (p : Packet) : Nat := counted (wireLen p) x.overhead

/-- A frame of this queue would end after the LAUNCH_TIME of another strict queue's waiting head (R325). -/
def guardBlocked (s : State) (port : PortId) (q : Nat) (p : Packet) : Bool :=
  let x := portAt s port
  let ends := timeNs s + ceilDiv ((wireLen p + 20) * 8) (portGbps (portMode s port))
  (List.finRange 4).any fun k => k.val != q && headWaits s x.queues[k.val] &&
    match headLaunch x.queues[k.val] with | some t => decide (t < ends) | none => false

/-- The port discards what its queues hold: it sends Local Fault, for its function has stopped or link-fault signalling is in force,
sends Idle because it receives Remote Fault, or is down (R222, R231). -/
def portDiscards (s : State) (port : PortId) : Bool := s.path.portsStopped[laneSlice port] || portFaulting s port

/-- A host egress queue is eligible; while its port discards, shapers, pause and launch times do not count (R315). -/
def queueEligible (s : State) (port : PortId) (q : QueueId) : Bool :=
  let x := portAt s port
  let e := x.queues[q]
  let node := x.nodes[Fin.ofNat 8 e.node]
  (match e.frames with | p :: _ => bufReached s (port.val / 4) p | [] => false) && !s.path.schedStopped[laneSlice port] &&
    (portDiscards s port ||
      (permits s.now e.shaper && permits s.now x.shaper && (decide (q.val < 4) || permits s.now node.shaper) &&
        !queuePaused s.now e && !headWaits s e))

/-- Eligible, and not held by a waiting timed head (R316, R325). -/
def queueReady (s : State) (port : PortId) (q : QueueId) : Bool :=
  queueEligible s port q && match (portAt s port).queues[q].frames.head? with
    | some p => !guardBlocked s port q.val p
    | none => false

/-- The weighted queues of a node as members of its round robin (R317). -/
def nodeMembers (s : State) (port : PortId) (n : Fin 8) : List Member :=
  let x := portAt s port
  ((List.finRange 32).filter fun q => decide (4 ≤ q.val) && x.queues[q].node == n.val).map fun q =>
    { id := q.val, eligible := queueReady s port q, empty := x.queues[q].frames.isEmpty, deficit := x.queues[q].deficit,
      quantum := x.queues[q].weight * 64,
      need := match x.queues[q].frames.head? with | some p => hostL x p | none => 1 }

/-- The queue a node would serve, with the deficits after. -/
def nodePick (s : State) (port : PortId) (n : Fin 8) : Option (Nat × List (Nat × Int)) :=
  drrNext (portAt s port).nodes[n].turn (nodeMembers s port n)

/-- The nodes of a port as members of its round robin. -/
def portMembers (s : State) (port : PortId) : List Member :=
  let x := portAt s port
  (List.finRange 8).map fun n =>
    let pick := nodePick s port n
    let mine := (List.finRange 32).filter fun q => decide (4 ≤ q.val) && x.queues[q].node == n.val
    { id := n.val, eligible := pick.isSome, empty := mine.all fun q => x.queues[q].frames.isEmpty,
      deficit := x.nodes[n].deficit, quantum := x.nodes[n].weight * 64,
      need := match pick with
        | some (q, _) => (match x.queues[Fin.ofNat 32 q].frames.head? with | some p => hostL x p | none => 1)
        | none => 1 }

/-- What the port serves next: a strict queue, or a weighted queue of a node with the deficits after (R316). -/
inductive PortPick where
  | strict (q : QueueId)
  | weighted (q : QueueId) (node : Fin 8) (qd nd : List (Nat × Int))
  deriving DecidableEq, Repr

def portPick (s : State) (port : PortId) : Option PortPick :=
  match (List.finRange 32).find? fun q => decide (q.val < 4) && queueReady s port q with
  | some q => some (.strict q)
  | none =>
    match drrNext (portAt s port).nodeTurn (portMembers s port) with
    | some (n, nd) =>
      (match nodePick s port (Fin.ofNat 8 n) with
       | some (q, qd) => some (.weighted (Fin.ofNat 32 q) (Fin.ofNat 8 n) qd nd)
       | none => none)
    | none => none

def PortPick.queue : PortPick → QueueId
  | .strict q => q
  | .weighted q _ _ _ => q

/-- A deficit by member number. -/
def deficitOf (l : List (Nat × Int)) (n : Nat) (d : Int) : Int :=
  match l.find? fun e => e.1 == n with
  | some e => e.2
  | none => d

/-- A node of a port holds no frame. -/
def nodeEmpty (x : PortSt) (n : Nat) : Bool :=
  (List.finRange 32).all fun q => decide (q.val < 4) || x.queues[q].node != n || x.queues[q].frames.isEmpty

/-- A selection, its frame taken off the queue, charges every shaper above the frame and the deficits of its round robins; a
queue or node that empties has deficit 0 (R317, R321). -/
def chargePick (now L : Nat) (k : PortPick) (x : PortSt) : PortSt :=
  let y := { x with shaper := charge now L x.shaper,
                    queues := vmod x.queues k.queue fun q => { q with shaper := charge now L q.shaper } }
  match k with
  | .strict _ => y
  | .weighted q n qd nd => { y with
      nodeTurn := n.val,
      nodes := Vector.ofFn fun i : Fin 8 =>
        let m := { y.nodes[i] with deficit := if nodeEmpty y i.val then 0 else deficitOf nd i.val y.nodes[i].deficit }
        if i = n then { m with shaper := charge now L m.shaper, turn := q.val } else m,
      queues := Vector.ofFn fun i : Fin 32 => { y.queues[i] with
        deficit := if y.queues[i].frames.isEmpty then 0 else deficitOf qd i.val y.queues[i].deficit } }

/-! HOST_FRAME_TX (R229 to R233, R382). -/

/-- Take the head frame off a queue; a queue or node that empties has deficit 0 (R317). -/
def popQueue (port : PortId) (q : QueueId) (s : State) : State :=
  let s1 := modQueue s port q fun x =>
    { x with frames := x.frames.tail, headMax := none, due := false, deficit := if x.frames.tail.isEmpty then 0 else x.deficit }
  modPort s1 port fun x => { x with
    idleSince := s.now,
    nodes := Vector.ofFn fun i : Fin 8 => { x.nodes[i] with deficit := if nodeEmpty x i.val then 0 else x.nodes[i].deficit } }

/-- A queue without the frames that a test drops; a new head is judged anew, and an empty queue has deficit 0 (R243, R317, R325). -/
def keepQueue (keep : Packet → Bool) (x : EgressQ) : EgressQ :=
  let l := x.frames.filter keep
  let y := { x with frames := l, deficit := if l.isEmpty then 0 else x.deficit }
  if l.head? == x.frames.head? then y else { y with headMax := none, due := false }

/-- A class without the frames that a test drops. -/
def keepClass (keep : Packet → Bool) (c : ClassSt) : ClassSt := { c with frames := c.frames.filter keep }

/-- The frame has a header whose L4 checksum is left alone, or its parse found a limit or a malformation (R232). -/
def csumSkips (q : Parse) (p : Packet) : Bool := p.outcome != outcomeOk || q.outcome != outcomeOk || q.ipFrag || q.l4.any fun h => h.frag

/-- The frame as sent: correction, IPv4 checksums, L4 checksums but those of a fragmented datagram, padding, FCS (R229, R232,
R233). -/
def txBytes (s : State) (port : PortId) (p : Packet) (egress : BitVec 96) : FrameBytes :=
  let x := portAt s port
  let b0 := tcBytes s p egress
  let q := parsePkt s { p with bytes := b0 }
  let b1 := if txCsumL3 x then fixL3 q b0 else b0
  let b2 := if txCsumL4 x && p.outcome == outcomeOk then fixL4 q b1 else b1
  let b3 := b2 ++ List.replicate (60 - b2.length) 0
  b3 ++ fcsBytes b3

/-- Counts of a frame sent (R247, R334). -/
def txCounts (port : PortId) (q : QueueId) (b : FrameBytes) (s : State) : State :=
  let n := b.length
  let da := beAt b 0 6
  let s1 := count (aMac port 0x68) n (count1 (aMac port 0x60) s)
  let s2 := if da = daBroadcast then count1 (aMac port 0x70) s1 else if isGroupAddr da then count1 (aMac port 0x78) s1 else s1
  count (aSchQ port q.val 0x08) n (count1 (aSchQ port q.val 0x00) s2)

/-- A frame goes out: charged, corrected, counted, its buffer freed by HOST_TX and its stamp written back (R229, R291, R381,
R385). -/
def transmit (port : PortId) (k : PortPick) (p : Packet) (s : State) : State :=
  let x := portAt s port
  let e := deviceStamp s
  let b := txBytes s port p e
  let skip := txCsumL4 x && csumSkips (parsePkt s p) p
  let s1 := modPort (popQueue port k.queue s) port (chargePick s.now (hostL x p) k)
  let s2 := whenB skip (count1 (aMac port 0x98)) (tcCount (port.val / 4) p e s1)
  let s3 := txCounts port k.queue b s2
  let s4 := dropBuf p.buf (passBuf p.buf (ownerId (port.val / 4) (4 + port.val % 4)) s3)
  let s5 := modPort s4 port fun y => { y with lastSent := b }
  match p.txRef with
  | some (q, slot) => count1 (aWbStamps (port.val / 4)) (stampOwed q slot 0 e s5)
  | none => s5

/-- The head of a TIMED queue is past its launch time by more than LATE_LIMIT (R326). -/
def headLate (s : State) (q : EgressQ) : Bool :=
  match headLaunch q with
  | some t => !s.time.stopped && decide (t + q.lateLimit < timeNs s)
  | none => false

/-- A late head: dropped without charge with DROP_LATE, released at once otherwise (R326). -/
def lateHead (port : PortId) (q : QueueId) (s : State) : State :=
  let x := (portAt s port).queues[q]
  let k := laneSlice port
  match x.frames.head? with
  | some p =>
    if x.dropLate then setFlag (aSchFlags k) 1 (count1 (aSchQ port q.val 0x18) (discard p (popQueue port q s)))
    else setFlag (aSchFlags k) 0 (count1 (aSchQ port q.val 0x10)
      (modQueue s port q fun y => { y with frames := match y.frames with
        | f :: t => { f with launch := none } :: t
        | [] => [] }))
  | none => s

/-- The lowest-numbered eligible queue of a port that discards. -/
def firstDoomed (s : State) (port : PortId) : Option QueueId := (List.finRange 32).find? (queueEligible s port)

/-- A queue whose head is late. -/
def firstLate (s : State) (port : PortId) : Option QueueId :=
  (List.finRange 32).find? fun q => headLate s (portAt s port).queues[q]

/-- A queue whose head is longer than the MAX_FRAME that applies to it (R230, R243). -/
def firstOversize (s : State) (port : PortId) : Option QueueId :=
  (List.finRange 32).find? fun q =>
    let e := (portAt s port).queues[q]
    match e.frames.head? with
    | some p => decide (e.headMax.getD (portAt s port).maxFrame < wireLen p)
    | none => false

/-- The head of a queue is discarded, counted in the counter at `off` and flagged (R230, R231). -/
def dropHead (port : PortId) (off flag : Nat) (q : QueueId) (s : State) : State :=
  match (portAt s port).queues[q].frames.head? with
  | some p => setFlag (aMacFlags port) flag (count1 (aMac port off) (discard p (popQueue port q s)))
  | none => s

/-- The port stands at a frame boundary with no pause frame to send first (R236); one whose function has stopped still discards
(R222, R231). -/
def hostFrameTxGuard (port : PortId) (s : State) : Bool :=
  wireReady s port && !pauseSendGuard port s && !pauseRefreshGuard port s &&
    (portRuns s port || (portExists s port && s.path.portsStopped[laneSlice port] && sliceRuns s (laneSlice port) && carriesTraffic s))

/-- At a frame boundary the port discards what reaches the head of its queues while it may not transmit, discards an oversize
head, drops or releases a late one, or sends the frame selected. -/
def hostFrameTxEffect (port : PortId) (s : State) : State :=
  if portDiscards s port then
    match firstDoomed s port with
    | some q => dropHead port 0x90 6 q s
    | none => s
  else
    match firstOversize s port with
    | some q => dropHead port 0x88 4 q s
    | none =>
      match firstLate s port with
      | some q => lateHead port q s
      | none =>
        match portPick s port with
        | some k =>
          (match (portAt s port).queues[k.queue].frames.head? with
           | some p => transmit port k p s
           | none => s)
        | none => s

def execHostFrameTx (port : PortId) (s : State) : Host.Outcome State Fault Refusal :=
  .next (whenB (hostFrameTxGuard port s) (hostFrameTxEffect port) s)

/-! TIMED_LAUNCH_DUE (R325, R326). -/

/-- A TIMED head's launch time has come, or with it its LATE_LIMIT. -/
def timedLaunchDueGuard (port : PortId) (queue : QueueId) (s : State) : Bool :=
  let q := (portAt s port).queues[queue]
  portExists s port && (headLate s q || (!q.due && match headLaunch q with
    | some t => !s.time.stopped && decide (t ≤ timeNs s)
    | none => false))

/-- A head past its LATE_LIMIT is dropped or released late; another waits no longer (R325, R326). -/
def timedLaunchDueEffect (port : PortId) (queue : QueueId) (s : State) : State :=
  if headLate s (portAt s port).queues[queue] then lateHead port queue s
  else modQueue s port queue fun y => { y with due := true }

def execTimedLaunchDue (port : PortId) (queue : QueueId) (s : State) : Host.Outcome State Fault Refusal :=
  .next (whenB (timedLaunchDueGuard port queue s) (timedLaunchDueEffect port queue) s)

/-! Link state (R220, R231, R240, R242). -/

def portLinkChangeGuard (port : PortId) (s : State) : Bool := portExists s port && carriesTraffic s

/-- PCS alignment and received Local Fault decide whether the port is up (R220). -/
def portLinkChangeEffect (port : PortId) (aligned localFault : Bool) (s : State) : State :=
  let was := portUp s port
  let s1 := modPort s port fun x => { x with aligned := aligned, lfRx := localFault }
  let is := portUp s1 port
  if was = is then s1 else setFlag (aMacFlags port) (if is then 1 else 0) s1

def execPortLinkChange (port : PortId) (aligned : Bool) (localFault : Bool) (s : State) : Host.Outcome State Fault Refusal :=
  .next (whenB (portLinkChangeGuard port s) (portLinkChangeEffect port aligned localFault) s)

def remoteFaultReceivedGuard (port : PortId) (s : State) : Bool := portExists s port && carriesTraffic s

def remoteFaultReceivedEffect (port : PortId) (on : Bool) (s : State) : State := modPort s port fun x => { x with rfRx := on }

def execRemoteFaultReceived (port : PortId) (on : Bool) (s : State) : Host.Outcome State Fault Refusal :=
  .next (whenB (remoteFaultReceivedGuard port s) (remoteFaultReceivedEffect port on) s)

def receiveLpiGuard (lane : LpiRef) (s : State) : Bool :=
  match lane with
  | .host p => portExists s p
  | .fabric f => present s (f.val / 2)

def receiveLpiEffect (lane : LpiRef) (on : Bool) (s : State) : State :=
  match lane with
  | .host p => modPort s p fun x => { x with lpiRx := on }
  | .fabric f => modFab s f fun x => { x with lpiRx := on, lastCellAt := s.now }

def execReceiveLpi (lane : LpiRef) (on : Bool) (s : State) : Host.Outcome State Fault Refusal :=
  .next (whenB (receiveLpiGuard lane s) (receiveLpiEffect lane on) s)

/-- Link-fault signalling is called for on the port: a group with LINK_FAULT names it (R187, R242). -/
def lfWanted (s : State) (port : PortId) : Bool :=
  lfEnable (portAt s port) && (List.finRange 4).any fun g => (groupAt s g).linkFault && (groupAt s g).lfPorts.getLsbD port.val

def linkFaultSignalChangeGuard (port : PortId) (s : State) : Bool := portExists s port && (portAt s port).lfTx != lfWanted s port

def linkFaultSignalChangeEffect (port : PortId) (s : State) : State := modPort s port fun x => { x with lfTx := lfWanted s port }

def execLinkFaultSignalChange (port : PortId) (s : State) : Host.Outcome State Fault Refusal :=
  .next (whenB (linkFaultSignalChangeGuard port s) (linkFaultSignalChangeEffect port) s)

/-- The host lanes of a port take a transmit power state (R422). -/
def portTxPower (port : PortId) (v : LanePower) (s : State) : State :=
  foldS (List.range (portLanes (portMode s port))) (fun i st =>
    let l : Fin 88 := Fin.ofNat 88 ((hostSerial port).val + i)
    { st with serdes := { st.serdes with lanes := vmod st.serdes.lanes l fun x => { x with tx := v } } }) s

def lpiEnterGuard (port : PortId) (s : State) : Bool :=
  let x := portAt s port
  portRuns s port && x.eee && (portMode s port == 2 || portMode s port == 3) && x.lpiTx.isNone && decide (x.wakeUntil ≤ s.now) &&
    (x.queues.toList.all fun q => q.frames.isEmpty) && x.xoffSent == 0 && pauseWanted x == 0 && !x.lfTx &&
    since s x.idleSince (x.lpiIdle * usTicks)

def lpiEnterEffect (port : PortId) (s : State) : State :=
  portTxPower port .shallow (modPort s port fun x => { x with lpiTx := some s.now, twUsed := x.twTx })

def execLpiEnter (port : PortId) (s : State) : Host.Outcome State Fault Refusal :=
  .next (whenB (lpiEnterGuard port s) (lpiEnterEffect port) s)

/-- A timed head due within TW_TX, another frame, or a pause frame needs the port (R240). -/
def lpiNeeded (s : State) (port : PortId) : Bool :=
  let x := portAt s port
  pauseWanted x != x.xoffSent || x.queues.toList.any fun q => !q.frames.isEmpty &&
    match headLaunch q with
    | some t => decide (t ≤ timeNs s + x.twUsed * 1000)
    | none => true

def lpiExitGuard (port : PortId) (s : State) : Bool := (portAt s port).lpiTx.isSome && lpiNeeded s port

def lpiExitEffect (port : PortId) (s : State) : State :=
  portTxPower port .run (modPort s port fun x => { x with
    lpiTx := none, wakeUntil := s.now + x.twUsed * usTicks, idleSince := s.now })

def execLpiExit (port : PortId) (s : State) : Host.Outcome State Fault Refusal :=
  .next (whenB (lpiExitGuard port s) (lpiExitEffect port) s)

/-! Commands (R221, R243 to R246). -/

def portModeSetChecks (r : Request) (s : State) : List Check :=
  [ckLen r 4, ckRange (maskBad r s || decide (4 < r.u8 0) || resv r 1 3),
   ⟨r.maskSlices.any fun k => !s.path.portsStopped[k], .notStopped⟩]

def portModeSetApply (r : Request) (s : State) : Done :=
  okDone (foldS r.maskSlices (fun k st =>
    { st with path := { st.path with modePend := vmod st.path.modePend k fun _ => some (r.u8 0) } }) s)

def execPortModeSet (s : State) : Host.Outcome State Fault Refusal :=
  .next (runCommand 0x0200 portModeSetChecks portModeSetApply s)

/-- PORT of a request. -/
def reqPort (r : Request) : PortId := Fin.ofNat 32 (r.u8 0)

/-- PORT above 31, or on an absent slice. -/
def portRangeBad (r : Request) (s : State) : Bool := decide (31 < r.u8 0) || !present s (r.u8 0 / 4)

/-- PORT is no first lane of a port in the slice's mode in force. -/
def ckPort (r : Request) (s : State) : Check := ⟨!portExists s (reqPort r), .conflict⟩

def portSetChecks (r : Request) (s : State) : List Check :=
  [ckLen r 8,
   ckRange (portRangeBad r s || natBit (r.u8 1) 7 || decide (r.u16 2 < 1518) || decide (10240 < r.u16 2) ||
     decide (7 < r.u8 4) || resv r 5 3),
   ckPort r s]

/-- A frame already at the head of its queue keeps the MAX_FRAME it met (R243). -/
def portSetApply (r : Request) (s : State) : Done :=
  okDone (modPort s (reqPort r) fun x => { x with
    flags := BitVec.ofNat 7 (r.u8 1), maxFrame := r.u16 2, defPrio := r.u8 4,
    queues := x.queues.map fun q => { q with headMax := if q.frames.isEmpty then none else some (q.headMax.getD x.maxFrame) } })

def execPortSet (s : State) : Host.Outcome State Fault Refusal := .next (runCommand 0x0201 portSetChecks portSetApply s)

/-- QUEUE_PRIO nibble of a queue. -/
def queuePrio (r : Request) (q : Nat) : Nat := r.u8 (12 + q / 2) / (if q % 2 = 0 then 1 else 16) % 16

def flowControlSetChecks (r : Request) (s : State) : List Check :=
  [ckLen r 28,
   ckRange (portRangeBad r s || decide (2 < r.u8 1) || decide (3 < r.u8 2) || r.u16 4 == 0 || decide (1000 < r.u16 8) ||
     resv r 10 2 || (List.range 32).any fun q => decide (8 ≤ queuePrio r q)),
   ⟨!portExists s (reqPort r) || (r.u8 1 != 0 && decide (r.u16 4 ≤ r.u16 6)), .conflict⟩]

/-- A change of FC_MODE or TX_ENABLE while XOFF is held first sends quanta 0 under the old setting (R239). -/
def releaseHeld (port : PortId) (mode : Nat) (tx : Bool) (s : State) : State :=
  let x := portAt s port
  if x.xoffSent ≠ 0 ∧ (x.fcMode ≠ mode ∨ x.txEnable ≠ tx) then
    let s1 := if pauseOpen s port then sendPause port (x.fcMode == 2) x.xoffSent 0 s
      else modPort s port fun y => { y with xoffSent := 0 }
    modPort s1 port fun y => { y with xoffAt := if y.xoff = 0 then none else some s.now }
  else s

def flowControlSetApply (r : Request) (s : State) : Done :=
  let port := reqPort r
  let honour := natBit (r.u8 2) 0
  let s1 := releaseHeld port (r.u8 1) (natBit (r.u8 2) 1) s
  okDone (modPort s1 port fun x => { x with
    fcMode := r.u8 1, rxHonour := honour, txEnable := natBit (r.u8 2) 1, pfcMask := BitVec.ofNat 8 (r.u8 3),
    quanta := r.u16 4, refresh := r.u16 6, watchdog := r.u16 8,
    xoffAt := if x.xoff = 0 then x.xoffAt else some (x.xoffAt.getD s.now),
    queues := Vector.ofFn fun q : Fin 32 =>
      let y := { x.queues[q] with prio := queuePrio r q.val }
      if honour then y else { y with pauseEnd := s.now, pausedSince := none } })

def execFlowControlSet (s : State) : Host.Outcome State Fault Refusal :=
  .next (runCommand 0x0202 flowControlSetChecks flowControlSetApply s)

def eeeSetChecks (r : Request) (s : State) : List Check :=
  [ckLen r 8,
   ckRange (portRangeBad r s || decide (1 < r.u8 1) || decide (r.u16 2 < 5) || r.u16 4 == 0 || resv r 6 2),
   ⟨!portExists s (reqPort r) || (r.u8 1 == 1 && !(portMode s (reqPort r) == 2 || portMode s (reqPort r) == 3)), .conflict⟩]

/-- A raised TW_TX applies at once, to a wake under way too; a lowered one from the next entry (R241).  Clearing ENABLE ends LPI
with a wake. -/
def eeeSetApply (r : Request) (s : State) : Done :=
  let port := reqPort r
  let s1 := modPort s port fun x => { x with
    eee := r.u8 1 == 1, twTx := r.u16 2, lpiIdle := r.u16 4, twUsed := max x.twUsed (r.u16 2),
    wakeUntil := if s.now < x.wakeUntil then x.wakeUntil + (r.u16 2 - x.twUsed) * usTicks else x.wakeUntil }
  okDone (whenB (r.u8 1 == 0 && (portAt s port).lpiTx.isSome) (lpiExitEffect port) s1)

def execEeeSet (s : State) : Host.Outcome State Fault Refusal := .next (runCommand 0x0203 eeeSetChecks eeeSetApply s)

/-- KIND, FIRST and COUNT of a filter request. -/
def mfKind (r : Request) : Nat := r.u8 1
def mfFirst (r : Request) : Nat := r.u16 2
def mfCount (r : Request) : Nat := r.u16 4

def mfRangeBad (r : Request) (s : State) : Bool :=
  let m := if mfKind r = 0 then 128 else 32
  portRangeBad r s || decide (1 < mfKind r) || mfCount r == 0 || decide (m < mfCount r) || decide (m < mfFirst r + mfCount r) ||
    resv r 6 2

/-- Exact item `i`: VALID and its address. -/
def exactItem (r : Request) (i : Nat) : Bool × BitVec 48 :=
  (natBit (r.u8 (14 + 8 * i)) 0, BitVec.ofNat 48 (beAt r.payload (8 + 8 * i) 6))

/-- The exact table after the request. -/
def exactAfter (r : Request) (x : PortSt) : Sparse (Bool × BitVec 48) :=
  (List.range (mfCount r)).foldl (fun t i => sparseSet (false, 0) t (mfFirst r + i) (exactItem r i)) x.exact

/-- The valid addresses of an exact table. -/
def exactValid (t : Sparse (Bool × BitVec 48)) : List (BitVec 48) := (t.filter fun e => e.2.1).map fun e => e.2.2

def macFilterWriteChecks (r : Request) (s : State) : List Check :=
  let t := exactValid (exactAfter r (portAt s (reqPort r)))
  [⟨decide (r.len < 8) || (decide (mfKind r ≤ 1) && r.len != 8 + (if mfKind r = 0 then 4 else 8) * mfCount r), .badLength⟩,
   ckRange (mfRangeBad r s || (mfKind r == 1 && (List.range (mfCount r)).any fun i =>
     decide (1 < r.u8 (14 + 8 * i)) || resv r (15 + 8 * i) 1)),
   ⟨!portExists s (reqPort r) || (mfKind r == 1 &&
      ((t.any fun a => isGroupAddr a.toNat) || !t.Nodup)), .conflict⟩]

/-- The hash bins after the request. -/
def hashAfter (r : Request) (x : PortSt) : Sparse Bool :=
  (List.range (mfCount r)).foldl (fun t i => (List.range 32).foldl (fun t b =>
    sparseSet false t (32 * (mfFirst r + i) + b) (natBit (r.u32 (8 + 4 * i)) b)) t) x.hash

def macFilterWriteApply (r : Request) (s : State) : Done :=
  if mfKind r = 0 then
    okDone (modPort s (reqPort r) fun x => { x with hash := hashAfter r x })
  else okDone (modPort s (reqPort r) fun x => { x with exact := exactAfter r x })

def execMacFilterWrite (s : State) : Host.Outcome State Fault Refusal :=
  .next (runCommand 0x0204 macFilterWriteChecks macFilterWriteApply s)

def macFilterReadChecks (r : Request) (s : State) : List Check := [ckLen r 8, ckRange (mfRangeBad r s), ckPort r s]

def macFilterReadApply (r : Request) (s : State) : Done :=
  let x := portAt s (reqPort r)
  let item := fun i =>
    if mfKind r = 0 then
      toLe 4 ((List.range 32).foldl (fun n b => if sparseGet false x.hash (32 * (mfFirst r + i) + b) then n + 2 ^ b else n) 0)
    else
      let e := sparseGet (false, 0) x.exact (mfFirst r + i)
      toBe 6 e.2.toNat ++ [BitVec.ofNat 8 e.1.toNat, 0]
  { st := s, payload := (List.range (mfCount r)).flatMap item }

def execMacFilterRead (s : State) : Host.Outcome State Fault Refusal :=
  .next (runCommand 0x0205 macFilterReadChecks macFilterReadApply s)

end Sys2Proof.Machine
end

