-- ==== Sys2Proof/Machine/Aes.lean ====
section
/-!
DEFINITION. Machine/Aes.lean: AES-128 and AES-256 (FIPS 197), CTR, CBC and CFB-128 (SP 800-38A), GCM with a 96-bit IV and a
128-bit tag (SP 800-38D), KW and KWP (SP 800-38F), as R335 names them.  A 128-bit key stands in the low bits of its KeyBits.
The dummy rounds and shuffled orders of R359 change no output.
-/
namespace Sys2Proof.Machine

/-! FIPS 197. -/

/-- The substitution table of FIPS 197, 64 entries a number, entry 0 the most significant. -/
def sboxRows : List Nat :=
  [0x637C777BF26B6FC53001672BFED7AB76CA82C97DFA5947F0ADD4A2AF9CA472C0B7FD9326363FF7CC34A5E5F171D8311504C723C31896059A071280E2EB27B275,
   0x09832C1A1B6E5AA0523BD6B329E32F8453D100ED20FCB15B6ACBBE394A4C58CFD0EFAAFB434D338545F9027F503C9FA851A3408F929D38F5BCB6DA2110FFF3D2,
   0xCD0C13EC5F974417C4A77E3D645D197360814FDC222A908846EEB814DE5E0BDBE0323A0A4906245CC2D3AC629195E479E7C8376D8DD54EA96C56F4EA657AAE08,
   0xBA78252E1CA6B4C6E8DD741F4BBD8B8A703EB5664803F60E613557B986C11D9EE1F8981169D98E949B1E87E9CE5528DF8CA1890DBFE6426841992D0FB054BB16]

/-- Its inverse. -/
def invSboxRows : List Nat :=
  [0x52096AD53036A538BF40A39E81F3D7FB7CE339829B2FFF87348E4344C4DEE9CB547B9432A6C2233DEE4C950B42FAC34E082EA16628D924B2765BA2496D8BD125,
   0x72F8F66486689816D4A45CCC5D65B6926C704850FDEDB9DA5E154657A78D9D8490D8AB008CBCD30AF7E45805B8B34506D02C1E8FCA3F0F02C1AFBD0301138A6B,
   0x3A9111414F67DCEA97F2CFCEF0B4E67396AC7422E7AD3585E2F937E81C75DF6E47F11A711D29C5896FB7620EAA18BE1BFC563E4BC6D279209ADBC0FE78CD5AF4,
   0x1FDDA8338807C731B11210592780EC5F60517FA919B54A0D2DE57A9F93C99CEFA0E03B4DAE2AF5B0C8EBBB3C83539961172B047EBA77D626E169146355210C7D]

/-- Entry `b` of a table. -/
def tableByte (rows : List Nat) (b : Byte) : Byte :=
  BitVec.ofNat 8 (rows.getD (b.toNat / 64) 0 >>> (8 * (63 - b.toNat % 64)))

def sbox (b : Byte) : Byte := tableByte sboxRows b
def invSbox (b : Byte) : Byte := tableByte invSboxRows b

/-- Multiplication by x in the field of AES. -/
def xtime (b : Byte) : Byte := if b.msb then (b <<< 1) ^^^ 0x1B#8 else b <<< 1

/-- Multiplication by a constant of at most four bits. -/
def gmul (c : Nat) (b : Byte) : Byte :=
  (if natBit c 0 then b else 0) ^^^ (if natBit c 1 then xtime b else 0) ^^^ (if natBit c 2 then xtime (xtime b) else 0) ^^^
    (if natBit c 3 then xtime (xtime (xtime b)) else 0)

/-- XOR of two byte strings, as long as the shorter. -/
def xorBytes (a b : List Byte) : List Byte := List.zipWith (fun x y => x ^^^ y) a b

/-- A permutation of the 16 bytes of a block. -/
def pick (ix : List Nat) (b : List Byte) : List Byte := ix.map fun i => b.getD i 0

/-- SHIFTROWS and its inverse; byte 4c + r stands in row r and column c. -/
def shiftRows : List Byte → List Byte := pick [0, 5, 10, 15, 4, 9, 14, 3, 8, 13, 2, 7, 12, 1, 6, 11]
def invShiftRows : List Byte → List Byte := pick [0, 13, 10, 7, 4, 1, 14, 11, 8, 5, 2, 15, 12, 9, 6, 3]

/-- A matrix product on each column, with the matrix that a row of constants turns through. -/
def mixWith (c0 c1 c2 c3 : Nat) (b : List Byte) : List Byte :=
  (List.range 16).map fun i =>
    let col := 4 * (i / 4)
    let at_ := fun r => b.getD (col + (i + r) % 4) 0
    gmul c0 (at_ 0) ^^^ gmul c1 (at_ 1) ^^^ gmul c2 (at_ 2) ^^^ gmul c3 (at_ 3)

def mixColumns : List Byte → List Byte := mixWith 2 3 1 1
def invMixColumns : List Byte → List Byte := mixWith 14 11 13 9

/-- The round constants, from the first. -/
def rcons : List Byte := [0x01, 0x02, 0x04, 0x08, 0x10, 0x20, 0x40, 0x80, 0x1B, 0x36]

/-- Key expansion, newest word first: `n` words more, `nk` words to a key. -/
def expandWords (nk : Nat) : Nat → List (List Byte) → List (List Byte)
  | 0, ws => ws
  | n + 1, ws =>
    let i := ws.length
    let prev := ws.headD []
    let t :=
      if i % nk = 0 then xorBytes ((pick [1, 2, 3, 0] prev).map sbox) [rcons.getD (i / nk - 1) 0, 0, 0, 0]
      else if nk = 8 ∧ i % nk = 4 then prev.map sbox
      else prev
    expandWords nk n (xorBytes (ws.getD (nk - 1) []) t :: ws)

/-- Consecutive pieces of `k` bytes. -/
def chunks (k : Nat) : Nat → List Byte → List (List Byte)
  | 0, _ => []
  | n + 1, l => l.take k :: chunks k n (l.drop k)

/-- The round keys of a key: 11 for a 128-bit one, 15 for a 256-bit one. -/
def roundKeys (aes256 : Bool) (key : KeyBits) : List (List Byte) :=
  let nk := if aes256 then 8 else 4
  let bytes := toBe (4 * nk) key.toNat
  let rounds := if aes256 then 15 else 11
  chunks 16 rounds ((expandWords nk (4 * rounds - nk) (chunks 4 nk bytes).reverse).reverse.flatten)

/-- The rounds of the cipher after the first key: the last has no MIXCOLUMNS. -/
def encRounds : List (List Byte) → List Byte → List Byte
  | [], b => b
  | [k], b => xorBytes (shiftRows (b.map sbox)) k
  | k :: ks, b => encRounds ks (xorBytes (mixColumns (shiftRows (b.map sbox))) k)

/-- The rounds of the inverse cipher, keys from the last but one down. -/
def decRounds : List (List Byte) → List Byte → List Byte
  | [], b => b
  | [k], b => xorBytes ((invShiftRows b).map invSbox) k
  | k :: ks, b => decRounds ks (invMixColumns (xorBytes ((invShiftRows b).map invSbox) k))

/-- One block under a key schedule. -/
def aesEnc (rk : List (List Byte)) (b : List Byte) : List Byte :=
  match rk with
  | k :: ks => encRounds ks (xorBytes b k)
  | [] => b

def aesDec (rk : List (List Byte)) (b : List Byte) : List Byte :=
  match rk.reverse with
  | k :: ks => decRounds ks (xorBytes b k)
  | [] => b

/-! Modes over a key schedule (SP 800-38A). -/

def zeroBytes (n : Nat) : List Byte := List.replicate n 0

/-- Blocks that a byte string fills. -/
def blocks16 (l : List Byte) : List (List Byte) := chunks 16 (ceilDiv l.length 16) l

/-- Key stream of counter blocks from `c` on, each the last plus 1 modulo 2^`w` in its low bits. -/
def ctrStream (rk : List (List Byte)) (w : Nat) : Nat → Nat → List Byte
  | 0, _ => []
  | n + 1, c => aesEnc rk (toBe 16 c) ++ ctrStream rk w n (c / 2 ^ w * 2 ^ w + (c + 1) % 2 ^ w)

/-- CTR: the counter block counts through all its 128 bits (DESIGN CHOICE, log 7: the standard leaves the step open). -/
def ctrCrypt (rk : List (List Byte)) (iv data : List Byte) : List Byte :=
  xorBytes data (ctrStream rk 128 (ceilDiv data.length 16) (beNat iv))

/-- CBC over whole blocks. -/
def cbcEnc (rk : List (List Byte)) : List Byte → List (List Byte) → List Byte
  | _, [] => []
  | iv, b :: t =>
    let c := aesEnc rk (xorBytes b iv)
    c ++ cbcEnc rk c t

def cbcDec (rk : List (List Byte)) : List Byte → List (List Byte) → List Byte
  | _, [] => []
  | iv, b :: t => xorBytes (aesDec rk b) iv ++ cbcDec rk b t

/-- CFB-128. -/
def cfbEnc (rk : List (List Byte)) : List Byte → List (List Byte) → List Byte
  | _, [] => []
  | iv, b :: t =>
    let c := xorBytes b (aesEnc rk iv)
    c ++ cfbEnc rk c t

def cfbDec (rk : List (List Byte)) : List Byte → List (List Byte) → List Byte
  | _, [] => []
  | iv, b :: t => xorBytes b (aesEnc rk iv) ++ cfbDec rk b t

/-! GCM (SP 800-38D). -/

/-- One bit of the product in GF(2^128): Z and V after it. -/
def ghashStep (zv : BitVec 128 × BitVec 128) (x : Bool) : BitVec 128 × BitVec 128 :=
  (if x then zv.1 ^^^ zv.2 else zv.1,
   if zv.2.getLsbD 0 then (zv.2 >>> 1) ^^^ (0xE1#128 <<< 120) else zv.2 >>> 1)

/-- Product of two blocks. -/
def ghashMul (x h : BitVec 128) : BitVec 128 := ((bitsMsb x).foldl ghashStep (0#128, h)).1

/-- GHASH over blocks, the last padded with zeros. -/
def ghash (h : BitVec 128) (bs : List (List Byte)) : BitVec 128 :=
  bs.foldl (fun y b => ghashMul (y ^^^ vecOfBytes 128 ((b ++ zeroBytes 16).take 16)) h) 0#128

/-- The tag over AAD and ciphertext (SP 800-38D), with J0 the IV followed by 0x0000_0001 (R346). -/
def gcmTag (rk : List (List Byte)) (iv aad ct : List Byte) : List Byte :=
  let h := vecOfBytes 128 (aesEnc rk (zeroBytes 16))
  let s := ghash h (blocks16 aad ++ blocks16 ct ++ [toBe 8 (8 * aad.length) ++ toBe 8 (8 * ct.length)])
  xorBytes (toBe 16 s.toNat) (aesEnc rk (iv ++ toBe 4 1))

/-- GCM's counter mode, from J0 + 1. -/
def gcmCrypt (rk : List (List Byte)) (iv data : List Byte) : List Byte :=
  xorBytes data (ctrStream rk 32 (ceilDiv data.length 16) (beNat (iv ++ toBe 4 2)))

/-- Ciphertext and tag (R346). -/
def gcmSeal (aes256 : Bool) (key : KeyBits) (iv aad plain : List Byte) : List Byte :=
  let rk := roundKeys aes256 key
  let ct := gcmCrypt rk iv plain
  ct ++ gcmTag rk iv aad ct

/-- Plaintext of a sealed payload, none where the tag fails (R355). -/
def gcmOpen (aes256 : Bool) (key : KeyBits) (iv aad data : List Byte) : Option (List Byte) :=
  let rk := roundKeys aes256 key
  let ct := data.take (data.length - 16)
  if gcmTag rk iv aad ct == data.drop (data.length - 16) then some (gcmCrypt rk iv ct) else none

/-! Key wrapping (SP 800-38F). -/

/-- One step of W: A, the semiblocks and the step number t. -/
def kwStep (rk : List (List Byte)) (t : Nat) (a : List Byte) (r : List Byte) : List Byte × List Byte :=
  let b := aesEnc rk (a ++ r)
  (xorBytes (b.take 8) (toBe 8 t), b.drop 8)

/-- `n` steps of W from step `t`: the semiblock in turn goes to the end. -/
def kwRun (rk : List (List Byte)) : Nat → Nat → List Byte → List (List Byte) → List Byte × List (List Byte)
  | 0, _, a, rs => (a, rs)
  | n + 1, t, a, rs =>
    let p := kwStep rk t a (rs.headD [])
    kwRun rk n (t + 1) p.1 (rs.tail ++ [p.2])

/-- `n` steps of W's inverse, from step `t` down. -/
def kwUnrun (rk : List (List Byte)) : Nat → Nat → List Byte → List (List Byte) → List Byte × List (List Byte)
  | 0, _, a, rs => (a, rs)
  | n + 1, t, a, rs =>
    let b := aesDec rk (xorBytes a (toBe 8 t) ++ rs.getLastD [])
    kwUnrun rk n (t - 1) (b.take 8) (b.drop 8 :: rs.dropLast)

/-- The initial value of KW. -/
def kwIv : List Byte := List.replicate 8 0xA6

/-- W over a string of whole semiblocks, the first of them the initial value. -/
def kwWrapWith (rk : List (List Byte)) (a data : List Byte) : List Byte :=
  let n := data.length / 8
  let r := kwRun rk (6 * n) 1 a (chunks 8 n data)
  r.1 ++ r.2.flatten

/-- W's inverse: the initial value found and the data. -/
def kwUnwrapWith (rk : List (List Byte)) (data : List Byte) : List Byte × List Byte :=
  let n := data.length / 8 - 1
  let r := kwUnrun rk (6 * n) (6 * n) (data.take 8) (chunks 8 n (data.drop 8))
  (r.1, r.2.flatten)

/-- KW. -/
def kwWrap (rk : List (List Byte)) (data : List Byte) : List Byte := kwWrapWith rk kwIv data

/-- KW's unwrapping: none where the integrity check fails. -/
def kwUnwrap (rk : List (List Byte)) (data : List Byte) : Option (List Byte) :=
  let r := kwUnwrapWith rk data
  if r.1 == kwIv then some r.2 else none

/-- KWP: the initial value holds the length, the data are padded with zeros, and 8 bytes or fewer take one block. -/
def kwpWrap (rk : List (List Byte)) (data : List Byte) : List Byte :=
  let a := [0xA6, 0x59, 0x59, 0xA6] ++ toBe 4 data.length
  let padded := data ++ zeroBytes (8 * ceilDiv data.length 8 - data.length)
  if padded.length ≤ 8 then aesEnc rk (a ++ padded) else kwWrapWith rk a padded

/-- KWP's unwrapping: none where the initial value, the length or the padding does not check. -/
def kwpUnwrap (rk : List (List Byte)) (data : List Byte) : Option (List Byte) :=
  let r := if data.length = 16 then ((aesDec rk data).take 8, (aesDec rk data).drop 8) else kwUnwrapWith rk data
  let n := beNat (r.1.drop 4)
  if r.1.take 4 == [0xA6, 0x59, 0x59, 0xA6] && ceilDiv n 8 == r.2.length / 8 && r.2.drop n == zeroBytes (r.2.length - n) then
    some (r.2.take n)
  else none

/-- A wrapped key under a KEK, of 24 bytes for a 128-bit key and 40 bytes for a 256-bit one (R339). -/
def unwrapKey (kek256 : Bool) (kek : KeyBits) (aes256 : Bool) (wrapped : List Byte) : Option KeyBits :=
  (kwUnwrap (roundKeys kek256 kek) (wrapped.take (if aes256 then 40 else 24))).map fun k => vecOfBytes 256 k

end Sys2Proof.Machine
end

