-- ==== Sys2Proof/Machine/Defect.lean ====
section
/-!
DEFINITION. Machine/Defect.lean: what a change of a lane's defects brings about in its group
(spec/07_trunk_oam_performance_protection.md, R182 to R187, R190, and R79's HOLDOVER rows), as shared operations.
-/
namespace Sys2Proof.Machine

/-- LOS, LOF, AIS, SF, SD as declared, in that order. -/
def defectState (x : LaneSt) : List Bool := [x.los, x.lof, x.ais, x.sf, x.sd]

/-- The same as DEFECTS shows them (R184). -/
def defectShown (x : LaneSt) : List Bool := [showLos x, showLof x, showAis x, showSf x, showSd x]

/-- LOS or LOF is declared on the lane. -/
def losOrLof (x : LaneSt) : Bool := x.los || x.lof

/-- The condition of link-fault signalling on a group (R187). -/
def linkFaultCond (s : State) (g : GroupId) : Bool :=
  let x := groupAt s g
  let n := fun f : LaneSt → Bool => ((groupLanes s g).filter fun l => f (laneAt s l)).length
  groupEnabled s g && activeGroup s g &&
    ((x.lfOnAis && decide (x.laneThresh ≤ n showAis)) ||
     (x.lfOnLosLof && decide (x.laneThresh ≤ n fun y => showLos y || showLof y)))

/-- LINK_FAULT follows its condition; LF_RAISED sets when it begins (R187). -/
def refreshLinkFault (g : GroupId) (s : State) : State :=
  let c := linkFaultCond s g
  if (groupAt s g).linkFault = c then s
  else
    let s1 := modGroup s g fun x => { x with linkFault := c }
    if c then setFlag (aPrtFlags g) 4 s1 else s1

/-- LINK_FAULT after a change in the group: on the active group of a pair it begins only once selection under R201 has left the group
active (R187). -/
def followLinkFault (g : GroupId) (s : State) : State :=
  if (groupAt s g).pair.isSome && linkFaultCond s g then s else refreshLinkFault g s

/-- Every lane of the group has LOS or LOF declared (R79). -/
def allDown (s : State) (g : GroupId) : Bool :=
  !(groupLanes s g).isEmpty && (groupLanes s g).all fun l => losOrLof (laneAt s l)

/-- OPERATE to HOLDOVER (R79): latent bursts fogged under LANE, developed ones lost, remainders discarded. -/
def enterHoldover (g : GroupId) (s : State) : State :=
  let s1 := modGroup (setFlag (aRngFlags g) 7 s) g fun x => { x with st := .holdover, holdoverAt := s.now }
  let s2 := foldS (groupLanes s1 g) (fun l st => fogLaneBursts g l (fun _ => true) st) s1
  discardRemainders g (loseDevelopedWhere g (fun _ => true) s2)

/-- HOLDOVER to OPERATE (R79): the tables stay (R118), and no launch comes before the first epoch whose map is received whole after
the return. -/
def leaveHoldover (g : GroupId) (s : State) : State :=
  foldS (groupLanes s g) (fun l st =>
    modLane st l fun x => { x with resume := some (wholeFrom (fnNext x.fn)) }) (modGroup s g fun x => { x with st := .operate })

/-- The R79 rows that a change of LOS or LOF brings about. -/
def holdoverTest (g : GroupId) (s : State) : State :=
  let st := (groupAt s g).st
  if st == .operate && allDown s g then enterHoldover g s
  else if st == .holdover && !allDown s g then leaveHoldover g s
  else s

/-- Flags and counters of one defect `d` (R216, R217). -/
def defectMarks (l : Lane) (d : Nat) (wasSet isSet wasShown isShown : Bool) (s : State) : State :=
  let s1 := whenB (isSet && !wasSet) (count1 (aPrtLane l (8 * d))) s
  let s2 := whenB (isShown && !wasShown) (setFlag (aPrtLaneFlags l) (2 * d)) s1
  whenB (wasSet && wasShown && !isSet) (setFlag (aPrtLaneFlags l) (2 * d + 1)) s2

/-- The active group of a pair is in signal fail from now on, when it was not before (R201). -/
def noteSf (g : GroupId) (s : State) : State :=
  if (groupAt s g).pair.isSome && activeGroup s g && sfG s g then
    modGroup s (pairHome s g) fun x => { x with prot := { x.prot with sfSince := some (x.prot.sfSince.getD s.now) } }
  else s

/-- The second turns: what the last one counted is set apart, and a defect that stands is present in the new one from its start
(R209). -/
def turnSecond (t : Nat) (x : LaneSt) : LaneSt :=
  if x.secNo = t then x
  else
    let next : Bool := x.secNo + 1 == t
    let on := x.los || x.lof || x.ais || x.sf
    { x with secNo := t, prevEframes := if next then x.eframes else 0, prevBip := if next then x.bipSec else 0,
             prevDefect := if next then x.defectSeen else on, eframes := 0, bipSec := 0, defectSeen := on }

/-- Change a lane's defects, with all that follows: flags, counts, RDI, link fault, HOLDOVER; a masked defect keeps its state and
triggers nothing (R184 to R187, R190). -/
def changeDefects (l : Lane) (f : LaneSt → LaneSt) (s : State) : State :=
  let x := turnSecond s.time.sec.toNat (laneAt s l)
  let y := f x
  let s1 := modLane s l fun _ => { y with defectSeen := y.defectSeen || y.los || y.lof || y.ais || y.sf }
  if defectState x = defectState y ∧ defectShown x = defectShown y then s1
  else
    let s2 := foldS [0, 1, 2, 3, 4] (fun d st =>
      defectMarks l d ((defectState x).getD d false) ((defectState y).getD d false)
        ((defectShown x).getD d false) ((defectShown y).getD d false) st) s1
    if defectShown x = defectShown y then s2
    else
      match laneGroup s2 l with
      | some g => noteSf g (holdoverTest g (queueRdi g (followLinkFault g s2)))
      | none => s2

/-! What has left the serialiser (R144, R170, R334). -/

/-- Counts of a launched packet or fragment: fragments, LAUNCHED_INV, class statistics and the stamp a management frame
awaits (R144, R170, R336, R334). -/
def launchPacket (l : Lane) (g : GroupId) (b : Burst) (p : Placed) (s : State) : State :=
  let s1 := whenB (!p.last) (count1 (aGnt l 0x60)) s
  let s2 := match p.inv with
    | some (n, h, i) =>
      modHalf s1 n (Fin.ofNat 2 h) fun x =>
        if x.gen = p.keyGen then { x with launched := some (match x.launched with | some v => max v i | none => i) } else x
    | none => s1
  let s3 := count (aSchC b.account p.pkt.cls 0x08) p.payload.length s2
  if p.last then
    let s4 := count1 (aSchC b.account p.pkt.cls 0x00) s3
    match p.pkt.txRef with
    | some (q, slot) =>
      let at_ := tLaunch b.edge (b.leader + 1 + 3 * b.oam.length + p.word / 4) (p.word % 4)
      stampOwed q slot 1 (stampOut s4 g at_) s4
    | none => s4
  else s3

/-- Blocks of a burst that have left when the counter stands at `ctr`. -/
def sentBlocks (b : Burst) (ctr : Stamp) : Nat := min b.blocks ((stampDiff ctr b.edge).toNat / 64 + (if stampReached b.edge ctr then 1 else 0))

/-- The last block that a placed packet takes has left. -/
def packetSent (b : Burst) (n : Nat) (p : Placed) : Bool :=
  decide (b.leader + 1 + 3 * b.oam.length + (p.word + ceilDiv p.payload.length 8) / 4 < n)

/-- The counts of a burst of which `n` blocks have left: blocks, data and IDLE blocks, OAM messages, reports and packets. -/
def countSent (g : GroupId) (l : Lane) (b : Burst) (n : Nat) (s : State) : State :=
  let oamAt := b.leader + 1
  let dataAt := oamAt + 3 * b.oam.length
  let idleAt := dataAt + b.dataBlocks
  let repAt := idleAt + b.idleBlocks
  let s1 := count (aGnt l 0x58) (min b.idleBlocks (n - idleAt)) (count (aGnt l 0x50) (min b.dataBlocks (n - dataAt)) (count (aGnt l 0x48) n s))
  let s2 := count (aPrt g 0x18) (min b.oam.length ((n - oamAt) / 3)) (count (aRun g 0x88) (min b.reports.length (n - repAt)) s1)
  foldS (b.packets.filter (packetSent b n)) (launchPacket l g b) s2

/-- A burst in progress stops at the next tick and the lane goes DARK: what has left is counted, its packets are lost (R144,
R164, R334). -/
def cutBurst (g : GroupId) (l : Lane) (s : State) : State :=
  let s1 := match (laneAt s l).burst with
    | some b =>
      let lost := { lane := l, epoch := b.epoch, grant := b.grant, account := b.account, edge := b.edge, stamped := true,
                    cutoff := 0, words := 0, leader := b.leader, reports := 0, packets := b.packets, developed := true : Latent }
      let s0 := countSent g l b (sentBlocks b (groupAt s g).ctr) s
      if b.kind = 0 then stallTest (Fin.ofNat 256 b.account) (loseDeveloped g lost s0) else s0
    | none => s
  modLane s1 l fun x => { x with burst := none, out := .dark }

/-- A burst stopped by LOS or DISABLE counts in PRT_BURST_TRUNC (R185, R192). -/
def truncateBurst (g : GroupId) (l : Lane) (s : State) : State :=
  cutBurst g l (whenB (laneAt s l).burst.isSome (count1 (aPrt g 0x30)) s)

end Sys2Proof.Machine
end

