-- ==== Sys2Proof/Machine/BurstBody.lean ====
section
/-!
DEFINITION. Machine/BurstBody.lean: the blocks of an upstream burst (spec/05_grants_and_bursts.md, R128 to R139) and the
bodies of the upstream OAM messages (R83, R91, R95).
-/
namespace Sys2Proof.Machine

/-- A body with its type byte. -/
def typed (t : Nat) : BitVec 256 := put 256 248 t

/-- LEADER (R132). -/
def leaderBody : BitVec 256 := typed 0x4B ||| BitVec.ofNat 256 (natOfBits (scramble 248 (BitVec.ofNat 31 0x4B4B4B4B)))

/-- IDLE, DARK and FILL (R137). -/
def idleBody : BitVec 256 := typed 0xA5
def darkBody : BitVec 256 := typed 0x78
def fillBody : BitVec 256 := typed 0x87

/-- A body closed by its CRC-16 over bits [255:16] (R51, R133, R135, R136). -/
def withCrc16 (b : BitVec 256) : BitVec 256 := b ||| (crc16 ((bitsMsb b).take 240)).setWidth 256

/-- BURST_DELIMITER (R133). -/
def delimiterBody (term acct oam : Nat) (ctr : BitVec 16) (epoch start len : Nat) (cont : Bool) : BitVec 256 :=
  withCrc16 (typed 0x55 ||| put 256 184 0xD1C36A5E0B974F28 ||| put 256 176 term ||| put 256 170 acct ||| put 256 168 oam |||
    put 256 152 ctr.toNat ||| put 256 136 (epoch % 65536) ||| put 256 116 start ||| put 256 100 len ||| put 256 99 cont.toNat)

/-- The 64 bytes of an upstream message with the terminal ID held at its placing and its CRC (R83, R84, R87). -/
def msgBytes (term : Nat) (m : UpMsg) : List Byte :=
  let b := [BitVec.ofNat 8 term, BitVec.ofNat 8 m.msgType] ++ toBe 2 m.seq.toNat ++ vecBytes m.body
  b ++ toBe 4 (crcOam (bitsOfBytes b)).toNat

/-- The three OAM blocks of a message (R134). -/
def oamBodies (term : Nat) (m : UpMsg) : List (BitVec 256) :=
  let b := msgBytes term m
  [0, 1, 2].map fun k => vecOfBytes 256 (([0x2D, BitVec.ofNat 8 k] ++ (b.drop (30 * k)).take 30 ++ List.replicate 30 0).take 32)

/-- REPORT (R135). -/
def reportBody (term count e0 e1 e2 : Nat) : BitVec 256 :=
  withCrc16 (typed 0x99 ||| put 256 240 term ||| put 256 238 count ||| put 256 144 e0 ||| put 256 80 e1 ||| put 256 16 e2)

/-- BURST_END (R136). -/
def endBody (term : Nat) (ctr bip : BitVec 16) : BitVec 256 :=
  withCrc16 (typed 0x66 ||| put 256 240 term ||| put 256 224 ctr.toNat ||| put 256 208 bip.toNat)

/-! The data region (R139). -/

/-- An idle-fill packet of `n` words: TYPE 0b10, LAST 1, LENGTH 8 (n - 1), padding of zeros. -/
def idleFill (n : Nat) : List (BitVec 64) :=
  if n = 0 then []
  else withHec (put 64 30 (8 * (n - 1)) ||| put 64 29 1 ||| put 64 26 2) :: List.replicate (n - 1) 0

/-- Payload bytes as words, padded with zero bytes. -/
def payloadWords : Nat → List Byte → List (BitVec 64)
  | 0, _ => []
  | n + 1, l => vecOfBytes 64 ((l ++ List.replicate 8 0).take 8) :: payloadWords n (l.drop 8)

/-- A placed packet's words. -/
def placedWords (p : Placed) : List (BitVec 64) := p.header :: payloadWords (ceilDiv p.payload.length 8) p.payload

/-- The words of a region from word `at_` on, up to `upTo`: packets at their places, idle fill between and after them. -/
def regionWords (at_ upTo : Nat) : List Placed → List (BitVec 64)
  | [] => idleFill (upTo - at_)
  | p :: t => idleFill (p.word - at_) ++ placedWords p ++ regionWords (p.word + (placedWords p).length) upTo t

/-- Words as data bodies, scrambled as one run (R55, R138). -/
def dataBodies (seed : BitVec 31) (ws : List (BitVec 64)) : List (BitVec 256) :=
  let bits := ws.flatMap fun w => bitsMsb w
  let out := (bits.zip (scramble bits.length seed)).map fun p => p.1 != p.2
  (List.range (bits.length / 256)).map fun k => BitVec.ofNat 256 (natOfBits ((out.drop (256 * k)).take 256))

/-- Whole data blocks that a region of `used` words takes. -/
def dataBlocksOf (used : Nat) : Nat := ceilDiv used 4

/-- The bodies from the BURST_DELIMITER to the block before BURST_END. -/
def innerBodies (b : Burst) : List (BitVec 256) :=
  b.delimiter :: (b.oam.flatMap (oamBodies b.term.toNat) ++
    dataBodies (burstSeed (BitVec.ofNat 16 b.epoch) b.burstCtr) (regionWords 0 (4 * b.dataBlocks) b.packets) ++
    List.replicate b.idleBlocks idleBody ++ b.reports)

/-- The BURST_END of a burst, its BIP computed as the blocks leave (R136). -/
def burstEnd (b : Burst) : BitVec 256 := endBody b.term.toNat b.burstCtr (bipOf (innerBodies b))

/-- Every block of a burst in order, with its header bit (R128). -/
def burstBlocks (b : Burst) : List (Bool × BitVec 256) :=
  List.replicate b.leader (true, leaderBody) ++ [(true, b.delimiter)] ++
    (b.oam.flatMap (oamBodies b.term.toNat)).map (fun x => (true, x)) ++
    (dataBodies (burstSeed (BitVec.ofNat 16 b.epoch) b.burstCtr) (regionWords 0 (4 * b.dataBlocks) b.packets)).map (fun x => (false, x)) ++
    List.replicate b.idleBlocks (true, idleBody) ++ b.reports.map (fun x => (true, x)) ++ [(true, burstEnd b)]

/-! Bursts on a lane (R125, R130). -/

/-- A burst number is taken (R133): the first burst after LISTEN takes 0 (log 9). -/
def takeBurstCtr (g : GroupId) (s : State) : State :=
  modGroup s g fun x => { x with lastDevCtr := x.burstCtr, burstCtr := x.burstCtr + 1 }

/-- A lane begins to send a burst: interpolator at its phase, output BURST (R125, R126). -/
def startBurst (l : Lane) (b : Burst) (s : State) : State :=
  modLane s l fun x => { x with burst := some b, out := .burst, phase := b.phase }

/-- An ANNOUNCE (kind 1) or RANGE_REPLY (kind 2) burst: leader, delimiter, three OAM blocks, BURST_END (R130). -/
def oamBurst (kind : Nat) (x : GroupSt) (e : Nat) (grant : BitVec 64) (edge : Stamp) (term : Nat) (m : UpMsg) : Burst :=
  let leader := match x.disc with | some d => d.leader | none => 0
  { kind := kind, epoch := e, grant := grant, account := 0, edge := edge, launchTick := edge.extractLsb' 6 48,
    phase := edge.extractLsb' 0 6, term := BitVec.ofNat 8 term, burstCtr := x.burstCtr, cont := false, leader := leader,
    oam := [m], blocks := leader + 5,
    delimiter := delimiterBody term 0 1 x.burstCtr e (gStart grant) (gLen grant) false }

/-- BODY of ANNOUNCE (R91). -/
def announceBody (s : State) (g : GroupId) (offset : Nat) (eqd : Word) : BitVec 448 :=
  body56 (toBe 8 s.serial.toNat ++ [BitVec.ofNat 8 g.val, BitVec.ofNat 8 (groupLanes s g).length] ++ toBe 2 offset ++
    toBe 4 eqd.toNat ++ toBe 4 (groupAt s g).coarseRtt.toNat ++ [0x02])

/-- BODY of RANGE_REPLY (R95). -/
def rangeReplyBody (s : State) (g : GroupId) (spec : Nat) (token : BitVec 16) (eqd : Word) : BitVec 448 :=
  body56 (toBe 8 s.serial.toNat ++ [BitVec.ofNat 8 g.val, 0, BitVec.ofNat 8 spec, 0] ++ toBe 2 token.toNat ++ toBe 4 eqd.toNat)

end Sys2Proof.Machine
end

