-- ==== Sys2Proof/Machine/Develop.lean ====
section
/-!
DEFINITION. Machine/Develop.lean: reports, forecast, what an account's scheduler may release, and the development of a latent
burst (spec/06_forecast_and_latent_bursts.md, R145 to R164; spec/11_scheduling_shaping_policing.md, R315), as shared operations.
-/
namespace Sys2Proof.Machine

/-! Quantities (R145, R146, R150). -/

/-- The 16-bit byte quantity (R146). -/
def quantityCode (bytes : Nat) : Nat :=
  let units := ceilDiv bytes 64
  let e := ((List.range 15).find? fun k => decide (ceilDiv units (2 ^ k) ≤ 4095)).getD 15
  let m := ceilDiv units (2 ^ e)
  if 4095 < m then 0xFFFF else 4096 * e + m

/-- A burst of the group is being sent by its lane. -/
def beingSent (s : State) (b : Latent) : Bool :=
  match (laneAt s b.lane).burst with
  | some u => u.kind == 0 && u.epoch == b.epoch && gStart u.grant == gStart b.grant
  | none => false

/-- Latent bursts of a device account not yet launched. -/
def accountLatents (s : State) (a : AccountId) : List Latent :=
  (groupAt s (servingGroup s (acctGroup a))).latents.filter fun b => b.account == a.val && b.held && !beingSent s b

/-- Trunk bytes of a placed packet or fragment: its share of the packet counted whole (R145). -/
def placedBytes (p : Placed) : Nat :=
  let tag := p.payload.length - p.bytes
  trunkUpTo p.pkt.bytes.length tag (max 1 (p.pkt.sent + p.bytes)) - trunkUpTo p.pkt.bytes.length tag p.pkt.sent

/-- LATENT of an account (R150). -/
def latentBytes (s : State) (a : AccountId) : Nat :=
  (accountLatents s a).foldl (fun n b => b.packets.foldl (fun m p => m + placedBytes p) n) 0

/-- Frames an account holds outside latent bursts, SRAM and HBM together. -/
def queuedFrames (x : AccountSt) : List Packet :=
  (match x.remainder with | some r => [r] | none => []) ++
    (List.finRange 8).flatMap (fun c => x.classes[c].frames) ++ x.tail ++ x.pages.flatMap fun p => p.frames

/-- QUEUE of an account (R150). -/
def queueBytes (s : State) (a : AccountId) : Nat :=
  (queuedFrames (acctAt s a)).foldl (fun n p => n + pktTrunkBytes s a p) 0

/-! The forecast (R147 to R149). -/

/-- Horizon k under a policy of HORIZON h (R149). -/
def horizonUnder (x : GroupSt) (h : Nat) : Nat :=
  if h ≠ 0 then h
  else if x.horizon ≠ 0 then x.horizon
  else match x.disc with
    | some d => min 63 (ceilDiv d.logical.toNat (epochTicks * 64) + 2)
    | none => 1

/-- The horizon for bursts of epoch e, under the policy that governs them (R153). -/
def horizonAt (x : GroupSt) (e : Nat) : Nat := horizonUnder x (policyAt x e).2.1

/-- Data capacity of a grant in trunk bytes (R148). -/
def dataCapacity (x : GroupSt) (l : LaneSt) (e : Nat) (r : BitVec 64) : Nat :=
  32 * (gLen r - leaderOf x l e r - 2 - (if gReport r then (policyAt x e).1 else 0) - (if gOam r then 6 else 0))

/-- Capacity of an account's grants from epoch `e` for `k` epochs, those whose slot edge is at or after the counter (R148). -/
def capacityOf (s : State) (g : GroupId) (acct e k : Nat) : Nat :=
  let x := groupAt s g
  (groupLanes s g).foldl (fun n l =>
    (List.range k).foldl (fun m i =>
      let ep := epochAdd e i
      (heldGrants (laneAt s l) ep).foldl (fun q r =>
        let ahead : Bool := match slotEdge s g l ep (gStart r) with
          | some (t, _) => decide (0 ≤ stampDiff t x.ctr)
          | none => decide (i ≠ 0)
        if gAcct r = acct ∧ gTerm r ≠ 254 ∧ ahead then q + dataCapacity x (laneAt s l) ep r else q) m) n) 0

/-- The blended rate in trunk bytes per frame, with 20 fractional bits (R148). -/
def blendedRate (x : GroupSt) (a : AccountSt) : Nat := x.w1 * a.rate1 + x.w8 * a.rate8 + x.w64 * a.rate64

/-- FORECAST in trunk bytes, rounded up (R146, R148). -/
def forecastBytes (s : State) (g : GroupId) (a : AccountId) (e start cutoff : Nat) : Nat :=
  let x := groupAt s g
  let k := horizonAt x e
  let backlog := queueBytes s a + latentBytes s a
  if (policyAt x e).2.2 then backlog
  else
    let n := 100 * k - (start - cutoff) / 8000
    let have_ := backlog * 2 ^ 20 + blendedRate x (acctAt s a) * n
    ceilDiv (have_ - capacityOf s g (a.val % 64) e k * 2 ^ 20) (2 ^ 20)

/-! REPORT blocks (R135, R150, R151). -/

/-- Accounts of a burst's reports after its own: those of the mask in turn (R151). -/
def reportTurn (x : GroupSt) (own : Nat) : List Nat :=
  ((List.range 64).map fun i => (x.reportPtr + 1 + i) % 64).filter fun a => x.reportMask.getLsbD a && a != own

/-- One entry of a report (R135, R150, R198). -/
def reportEntry (s : State) (g : GroupId) (e start cutoff acct : Nat) : Nat :=
  let k := horizonAt (groupAt s g) e
  let a := grantAccountNo s g acct
  if standby s g then acct * 2 ^ 58 + k * 2 ^ 52
  else acct * 2 ^ 58 + k * 2 ^ 52 + quantityCode (queueBytes s a) * 2 ^ 32 +
    quantityCode (forecastBytes s g a e start cutoff) * 2 ^ 16 + quantityCode (latentBytes s a)

/-- Entries three by three as REPORT bodies. -/
def reportBodies (term : Nat) : Nat → List Nat → List (BitVec 256)
  | 0, _ => []
  | n + 1, l => reportBody term (min 3 l.length) (l.getD 0 0) (l.getD 1 0) (l.getD 2 0) :: reportBodies term n (l.drop 3)

/-- FORECAST_UNITS of the accounts reported. -/
def noteForecasts (g : GroupId) (e start cutoff : Nat) (accts : List Nat) (s : State) : State :=
  foldS accts (fun a st =>
    let d := grantAccountNo s g a
    modAcct st d fun x => { x with forecast := min (2 ^ 32 - 1) (ceilDiv (forecastBytes s g d e start cutoff) 64) }) s

/-- The REPORT bodies of a burst at develop, with the turn of the mask moved on. -/
def writeReports (g : GroupId) (b : Latent) (s : State) : List (BitVec 256) × State :=
  if b.reports = 0 then ([], s)
  else
    let x := groupAt s g
    let own := gAcct b.grant
    let turn := (reportTurn x own).take (3 * b.reports - 1)
    let accts := own :: turn
    let es := accts.map (reportEntry s g b.epoch (gStart b.grant) b.cutoff)
    let s1 := if standby s g then s else noteForecasts g b.epoch (gStart b.grant) b.cutoff accts s
    (reportBodies x.termId b.reports es,
     modGroup s1 g fun y => { y with reportPtr := turn.getLastD y.reportPtr })

/-! Eligibility (R315, R318). -/

/-- The account's key is retired. -/
def keyRetired (s : State) (a : AccountId) : Bool :=
  match (acctAt s a).bind with
  | .slot n => (halfAt s n (slotAt s n).current).state == .retired
  | _ => false

/-- Class `c` of an account is eligible for a burst on a slice (R315). -/
def classEligible (s : State) (a : AccountId) (k : SliceId) (c : Fin 8) : Bool :=
  let x := acctAt s a
  let q := x.classes[c]
  (match q.frames with | p :: _ => p.buf.isSome && bufReached s k.val p | [] => false) &&
    permits s.now q.shaper && permits s.now x.shaper && !x.stopped && !keyRetired s a && !s.path.schedStopped[k]

/-- Some class of the account is eligible. -/
def anyEligible (s : State) (a : AccountId) (k : SliceId) : Bool := (List.finRange 8).any fun c => classEligible s a k c

/-! Parts of a burst (R129). -/

/-- Blocks left after leader, delimiter and end. -/
def restBlocks (len leader : Nat) : Nat := len - leader - 2

/-- REPORT blocks a grant carries. -/
def reportsOf (x : GroupSt) (e rest : Nat) (r : BitVec 64) : Nat := if gReport r then min (policyAt x e).1 rest else 0

/-- OAM messages a grant carries: up to 2, three blocks each. -/
def oamCount (x : GroupSt) (rest : Nat) (r : BitVec 64) : Nat := if gOam r then min (min 2 x.oamQ.length) (rest / 3) else 0

/-- Take messages from the head of the queue (R159). -/
def takeOam (g : GroupId) (n : Nat) (s : State) : State := modGroup s g fun x => { x with oamQ := x.oamQ.drop n }

/-! Develop (R161 to R163). -/

/-- The remainder of a packet whose first fragment is in a developed burst is pinned (R162). -/
def pinRemainder (g : GroupId) (a : AccountId) (p : Placed) (s : State) : State :=
  let e := p.pkt.entry
  let s1 := modGroup s g fun x => { x with latents := x.latents.map fun b =>
      { b with packets := b.packets.map fun q => if q.pkt.entry = e ∧ q.pkt.sent ≠ 0 then { q with pinned := true } else q } }
  let s2 := modAcct s1 a fun x => match x.remainder with
    | some r => if r.entry = e then { x with pinned := true } else x
    | none => x
  count1 (aRun g 0x78) s2

/-- One latent burst is developed; packets of its account that wait while its region has room, or that it never got to stage, make
it short (R163): region closed, number taken, reports written, remainder pinned, buffers freed. -/
def developOne (g : GroupId) (b : Latent) (s : State) : State :=
  let a : AccountId := Fin.ofNat 256 b.account
  let short := (b.unstaged || (b.held && decide (b.used < b.words))) && !(queuedFrames (acctAt s a)).isEmpty
  let s1 := whenB short (fun st => setFlag (aRunFlags g) 1 (count1 (aRun g 0x18) st)) s
  let s2 := whenB b.held (count1 (aRun g 0x10)) s1
  let x := groupAt s2 g
  let rest := restBlocks (gLen b.grant) b.leader
  let late := b.oam.isEmpty && !b.held
  let m := if late then min (oamCount x (rest - b.reports) b.grant) ((rest - b.reports) / 3) else 0
  let oam := if late then x.oamQ.take m else b.oam
  let s3 := takeOam g m s2
  let (reps, s4) := writeReports g b s3
  let upd := fun y : Latent => { y with
    closed := true, developed := true, oam := oam, short := short, burstCtr := x.burstCtr, reportBodies := reps,
    held := y.held && !y.packets.isEmpty,
    cont := match y.packets with | p :: _ => decide (p.pkt.sent ≠ 0) | [] => false }
  let s5 := modLatent g b upd (takeBurstCtr g s4)
  let s6 := match b.packets.find? fun p => !p.last with
    | some p => pinRemainder g a p s5
    | none => s5
  foldS (b.packets.filter fun p => p.last) (fun p st => dropBuf p.pkt.buf st) s6

/-- The account's slot is stalled under R348. -/
def invStalled (s : State) (a : AccountId) : Bool :=
  match (acctAt s a).bind with
  | .slot n => (slotAt s n).stall
  | _ => false

/-- Nothing can be placed for the account: stopped without a pinned remainder, without a usable key, stalled under R348, or the
group standby (R131, R168, R177, R198, R348, R364). -/
def onlyLeader (s : State) (g : GroupId) (a : AccountId) : Bool :=
  standby s g || invStalled s a || (!keyUsable s a && !((acctAt s a).remainder.isSome && (acctAt s a).pinned)) ||
    ((acctAt s a).stopped && !((acctAt s a).remainder.isSome && (acctAt s a).pinned))

/-- Words of the data region of a grant as staging begins (R129, R154). -/
def regionOf (s : State) (g : GroupId) (l : Lane) (e : Nat) (r : BitVec 64) : Nat :=
  let x := groupAt s g
  let rest := restBlocks (gLen r) (leaderOf x (laneAt s l) e r)
  let reps := reportsOf x e rest r
  4 * (rest - reps - 3 * oamCount x (rest - reps) r)

/-- A grant that staging could have filled: it has a data region, and its account may place packets (R163). -/
def canFill (s : State) (g : GroupId) (l : Lane) (e : Nat) (r : BitVec 64) : Bool :=
  decide (0 < regionOf s g l e r) && !onlyLeader s g (grantAccountNo s g (gAcct r))

/-- Develop a burst, every earlier undeveloped burst of its account first (R161). -/
def develop (g : GroupId) (b : Latent) (s : State) : State :=
  let earlier := sortEdge (fun q => q.edge) ((groupAt s g).latents.filter fun q =>
    !q.developed && q.held && q.account == b.account && !sameGrant q b && edgeBefore q.edge b.edge)
  developOne g b (foldS earlier (developOne g) s)

/-- A leader-only burst for a grant that has no latent burst, not yet developed (R131, R160). -/
def leaderOnly (s : State) (g : GroupId) (l : Lane) (e : Nat) (r : BitVec 64) (edge : Stamp) (stamped : Bool) : Latent :=
  let x := groupAt s g
  let leader := leaderOf x (laneAt s l) e r
  { lane := l, epoch := e, grant := r, account := (grantAccountNo s g (gAcct r)).val, edge := edge, stamped := stamped,
    cutoff := x.cutoff, words := 0, leader := leader, reports := reportsOf x e (restBlocks (gLen r) leader) r, held := false,
    closed := true }

/-- Add a latent burst to its group. -/
def addLatent (g : GroupId) (b : Latent) (s : State) : State := modGroup s g fun x => { x with latents := x.latents ++ [b] }

/-- A developed burst as the lane sends it (R128, R129, R139). -/
def burstOf (s : State) (g : GroupId) (b : Latent) : Burst :=
  let term := (groupAt s g).termId
  let data := dataBlocksOf b.used
  { kind := 0, epoch := b.epoch, grant := b.grant, account := b.account, edge := b.edge, launchTick := b.edge.extractLsb' 6 48,
    phase := b.edge.extractLsb' 0 6, term := BitVec.ofNat 8 term, burstCtr := b.burstCtr, cont := b.cont, leader := b.leader,
    oam := b.oam, dataBlocks := data,
    idleBlocks := restBlocks (gLen b.grant) b.leader - b.reportBodies.length - 3 * b.oam.length - data,
    reports := b.reportBodies, packets := b.packets, blocks := gLen b.grant,
    delimiter := delimiterBody term (gAcct b.grant) b.oam.length b.burstCtr b.epoch (gStart b.grant) (gLen b.grant) b.cont }

end Sys2Proof.Machine
end

