-- ==== Sys2Proof/Machine/Ranging.lean ====
section
/-!
DEFINITION. Machine/Ranging.lean: registration and ranging (spec/04_registration_ranging_trunk_time.md); TOD stands in
Machine/TimeFamily.lean.
-/
namespace Sys2Proof.Machine

/-! OAM_RX_DISCARD (R86). -/

def oamRxDiscardGuard (lane : Lane) (msg : OamRx) (s : State) : Bool :=
  match oamVerdict s lane msg with
  | .pass _ => false
  | _ => true

def execOamRxDiscard (lane : Lane) (msg : OamRx) (s : State) : Host.Outcome State Fault Refusal :=
  .next (oamDiscard s lane msg)

/-! DISCOVER (R88, R109). -/

/-- DISC_LEADER and RESPONSE_WAIT in range, else discarded as a bad type (R88). -/
def discoverTest (msg : OamRx) (_ : GroupId) (_ : State) : RxTest :=
  let leader := msgAt msg 8 2
  let wait := msgAt msg 10 2
  if leader < 32 ∨ 4096 < leader ∨ wait < 1 ∨ 1000 < wait then .badType else .ok

def discoverFields (msg : OamRx) : Disc :=
  { logical := BitVec.ofNat 32 (msgAt msg 4 4), leader := msgAt msg 8 2, wait := msgAt msg 10 2,
    backoffMax := msgAt msg 12 1, headId := BitVec.ofNat 32 (msgAt msg 16 4) }

/-- The DISCOVER is held; a new logical distance is used at once (R88, R109). -/
def discoverAct (msg : OamRx) (g : GroupId) (s : State) : State :=
  let d := discoverFields msg
  let old := (groupAt s g).disc
  let s1 := modGroup s g fun x => { x with disc := some d, headId := d.headId }
  match old with
  | some o => if o.logical = d.logical then s1 else recomputeEqd0 g (setFlag (aRngFlags g) 12 s1)
  | none => if (groupAt s1 g).st == .listen then listenTest g s1 else recomputeEqd0 g s1

def execDiscover (lane : Lane) (msg : OamRx) (s : State) : Host.Outcome State Fault Refusal :=
  .next (oamReceive 0x01 lane msg (discoverTest msg) (discoverAct msg) s)

/-! RANGE_REQUEST (R79, R93, R94). -/

/-- The request's lane. -/
def rrLane (msg : OamRx) (s : State) (g : GroupId) : Option Lane := specLane s g (msgAt msg 14 1)

/-- EPOCH as the nearest epoch at or after the arrival epoch. -/
def rrEpoch (msg : OamRx) (s : State) (l : Lane) : Nat := epochRead (epochOf (carrierFn s l msg)) (msgAt msg 16 2)

/-- Every condition of R94. -/
def rrOk (l : Lane) (msg : OamRx) (g : GroupId) (s : State) : Bool :=
  let x := groupAt s g
  let id := msgAt msg 13 1
  let dist := epochDist (epochOf (carrierFn s l msg)) (rrEpoch msg s l)
  (x.st == .announce || x.st == .range || x.st == .operate) &&
    msgAt msg 4 8 == s.serial.toNat && msgAt msg 12 1 % 4 == g.val &&
    decide (1 ≤ id) && decide (id ≤ 253) &&
    (msgTerm msg == 254 || (msgTerm msg == x.termId && id == x.termId)) &&
    (match rrLane msg s g with
     | some t => msgAt msg 24 4 != 0xFFFFFFFF || (eqdAt x (laneAt s t) (rrEpoch msg s l)).isSome
     | none => false) &&
    decide (1 ≤ dist) && decide (dist ≤ 256)

/-- The group takes the terminal ID of a request addressed to 254 (R79). -/
def rrAdopt (msg : OamRx) (g : GroupId) (s : State) : State :=
  let x := groupAt s g
  let id := msgAt msg 13 1
  if msgTerm msg = 254 then
    match x.st with
    | .announce =>
      setFlag (aRngFlags g) 0 (modGroup (clearGrants g s) g fun y =>
        { y with st := .range, termId := id, waitFrom := none })
    | .range =>
      if id = x.termId then s
      else setFlag (aRngFlags g) 0 (modGroup (dropEqdPending g s) g fun y => { y with termId := id })
    | .operate =>
      let s1 := unrangeLanes g (dropEqdPending g (clearGrants g (stopBursts g s)))
      setFlag (aRngFlags g) 13 (modGroup s1 g fun y => { y with st := .range, termId := id })
    | _ => s
  else s

/-- A request acted on restarts the 100 ms of RANGE; one ignored under R94 does not (DESIGN CHOICE, log 123): ID adopted, one RANGE_REPLY placed, the 100 ms restarted (R79, R94). -/
def rangeRequestAct (l : Lane) (msg : OamRx) (g : GroupId) (s : State) : State :=
  if rrOk l msg g s then
    match rrLane msg s g with
    | some t =>
      let rq : RangeReq := { epoch := rrEpoch msg s l, start := msgAt msg 18 4 % 2 ^ 20, token := BitVec.ofNat 16 (msgAt msg 22 2),
                             eqd := BitVec.ofNat 32 (msgAt msg 24 4), spec := msgAt msg 14 1 }
      modGroup (modLane (rrAdopt msg g s) t fun y => { y with rangeReq := some rq }) g fun y =>
        { y with rangeAt := s.now, waitFrom := none }
    | none => s
  else setFlag (aRngFlags g) 4 s

def execRangeRequest (lane : Lane) (msg : OamRx) (s : State) : Host.Outcome State Fault Refusal :=
  .next (oamReceive 0x03 lane msg noTest (rangeRequestAct lane msg) s)

/-! EQD_ASSIGN (R97, R98). -/

/-- Lanes that SPEC_SLICE names: every lane of the group for 0xFF (R97, R123). -/
def namedLanes (s : State) (g : GroupId) (spec : Nat) : List Lane :=
  if spec = 0xFF then groupLanes s g
  else match specLane s g spec with
    | some l => [l]
    | none => []

/-- States in which the group takes assignments (R98, R124, R153). -/
def rangedState (x : GroupSt) : Bool := x.st == .range || x.st == .operate || x.st == .holdover

/-- APPLY_EPOCH at byte `k` of the message, as the nearest epoch at or after the arrival epoch. -/
def applyEpoch (s : State) (l : Lane) (msg : OamRx) (k : Nat) : Nat := epochRead (epochOf (carrierFn s l msg)) (msgAt msg k 2)

/-- APPLY_EPOCH lies less than 3 or more than 256 epochs ahead: LATE. -/
def applyLate (s : State) (l : Lane) (msg : OamRx) (k : Nat) : Bool :=
  let d := epochDist (epochOf (carrierFn s l msg)) (applyEpoch s l msg k)
  decide (d < 3) || decide (256 < d)

/-- The EqD a lane takes, exact: the value of MODE 0, or the EqD in force at APPLY_EPOCH plus the delta; none without one. -/
def assignedEqd (s : State) (g : GroupId) (e : Nat) (msg : OamRx) (t : Lane) : Option Int :=
  if msgAt msg 5 1 = 0 then some (msgAt msg 8 4 : Nat)
  else
    match eqdAt (groupAt s g) (laneAt s t) e with
    | some q => some ((q.toNat : Int) + signed 32 (msgAt msg 8 4))
    | none => none

/-- The value is an EqD.  MODE 1 on a lane that has no EqD in force at APPLY_EPOCH has none, and is answered OUT_OF_RANGE (DESIGN
CHOICE, log 122). -/
def eqdInRange (v : Option Int) : Bool :=
  match v with
  | some i => decide (0 ≤ i) && decide (i ≤ 0xFFFFFFFF)
  | none => false

def eqdChecks (l : Lane) (msg : OamRx) (g : GroupId) (s : State) : List (Bool × Nat) :=
  let ls := namedLanes s g (msgAt msg 4 1)
  [(decide (1 < msgAt msg 5 1) || ls.isEmpty, ackBadFormat),
   (!rangedState (groupAt s g), ackWrongState),
   (applyLate s l msg 6, ackLate),
   (ls.any fun t => !eqdInRange (assignedEqd s g (applyEpoch s l msg 6) msg t), ackOutOfRange),
   (ls.any fun t => (laneAt s t).eqdPend.isSome, ackBusy)]

/-- An accepted assignment waits for APPLY_EPOCH on every lane it names. -/
def eqdAccept (l : Lane) (msg : OamRx) (g : GroupId) (s : State) : State :=
  let e := applyEpoch s l msg 6
  let vs := (namedLanes s g (msgAt msg 4 1)).map fun t => (t, BitVec.ofInt 32 ((assignedEqd s g e msg t).getD 0))
  let s1 := foldS vs (fun p st => modLane st p.1 fun y =>
    { y with eqds := (e, p.2) :: y.eqds, eqdPend := some (e, p.2) }) s
  modGroup s1 g fun y => { y with pendApply := y.pendApply ++ [(e, .eqd vs)], rangeAt := s.now }

/-- An EQD_ASSIGN answered: only one answered ACCEPTED restarts the 100 ms of RANGE (DESIGN CHOICE, log 123). -/
def eqdAssignAct (l : Lane) (msg : OamRx) (g : GroupId) (s : State) : State :=
  let st := ackStatus (eqdChecks l msg g s)
  queueAck g 0x05 st (msgSeq msg)
    (if st = ackAccepted then eqdAccept l msg g s else setFlag (aRngFlags g) 3 s)

def execEqdAssign (lane : Lane) (msg : OamRx) (s : State) : Host.Outcome State Fault Refusal :=
  .next (oamReceive 0x05 lane msg noTest (eqdAssignAct lane msg) s)

/-! RANGE_PROVISION (R80, R81). -/

/-- TIME_LANE names no lane of the binding in force or awaiting FUNC_START. -/
def timeLaneBad (s : State) (g : Nat) (t : Nat) : Bool :=
  t != 0xFF &&
    (match (List.finRange 4).find? fun k => k.val == g with
     | some k => !((groupAt s k).binding.any (fun b => b.1.val == t) ||
         (match (groupAt s k).bindPend with | some l => l.any fun b => b.1.val == t | none => false))
     | none => true)

def rangeProvisionChecks (r : Request) (s : State) : List Check :=
  [ckLen r 20,
   ckRange (decide (3 < r.u8 0) || decide (4 ≤ r.u8 1) || timeLaneBad s (r.u8 0) (r.u8 2) || resv r 3 1 ||
     (decide (40000000 < r.u32 4) && r.u32 4 != 0xFFFFFFFF) || decide (1000000 < r.u32 8) || decide (1000000 < r.u32 12) ||
     r.u16 18 == 0 || decide (600 < r.u16 18))]

/-- The fields of the request in the group. -/
def provisioned (r : Request) (x : GroupSt) : GroupSt :=
  { x with
    timeSource := natBit (r.u8 1) 0, announce := natBit (r.u8 1) 1,
    timeLaneCfg := if r.u8 2 = 0xFF then none else some (Fin.ofNat 32 (r.u8 2)),
    coarseRtt := BitVec.ofNat 32 (r.u32 4), modemTx := BitVec.ofNat 32 (r.u32 8), modemRx := BitVec.ofNat 32 (r.u32 12),
    asym := BitVec.ofNat 16 (r.u16 16), holdoverLimit := r.u16 18 }

def rangeProvisionApply (r : Request) (s : State) : Done :=
  let g : GroupId := Fin.ofNat 4 (r.u8 0)
  let old := groupAt s g
  let s1 := if natBit (r.u8 1) 0 then foldS [0, 1, 2, 3] (fun k st => modGroup st k fun x => { x with timeSource := false }) s else s
  let s2 := modGroup s1 g (provisioned r)
  let x := groupAt s2 g
  if x.st == .announce && !x.announce then
    okDone (whenB (x.coarseRtt != old.coarseRtt) (recomputeEqd0 g) (enterListen g s2))
  else if x.coarseRtt = old.coarseRtt ∧ x.announce = old.announce then okDone s2
  else if x.coarseRtt = old.coarseRtt then okDone (listenTest g s2)
  else okDone (recomputeEqd0 g s2)

def execRangeProvision (s : State) : Host.Outcome State Fault Refusal :=
  .next (runCommand 0x0120 rangeProvisionChecks rangeProvisionApply s)

/-! ANNOUNCE, RESPONSE_WAIT, RANGE_REPLY (R89 to R95). -/

/-- The open discovery grants of a lane that start at `start`, with their edges under EqD_0. -/
def discoveryGrants (x : LaneSt) (start : Nat) (eqd0 : Word) : List (Nat × BitVec 64 × Stamp) :=
  x.tables.flatMap fun t => t.2.filterMap fun u =>
    if u.done || gStart u.raw != start || gTerm u.raw != 254 then none
    else match trxAt x t.1 with
      | some (e, _) => some (t.1, u.raw, edgeFrom e eqd0 start)
      | none => none

/-- The discovery grant on the group's lead lane that falls due first. -/
def discoveryGrant (s : State) (g : GroupId) (start : Nat) : Option (Lane × Nat × BitVec 64 × Stamp) :=
  match leadLane s g, (groupAt s g).eqd0 with
  | some l, some q => ((sortEdge (fun p => p.2.2) (discoveryGrants (laneAt s l) start q)).head?).map fun p => (l, p.1, p.2.1, p.2.2)
  | _, _ => none

def announceGuard (group : GroupId) (start : Nat) (s : State) : Bool :=
  (groupAt s group).st == .announce &&
    (match discoveryGrant s group start with
     | some (_, _, _, edge) => stampReached edge (groupAt s group).ctr
     | none => false)

/-- The ANNOUNCE burst at a random offset (R89). -/
def announceSend (g : GroupId) (l : Lane) (e : Nat) (r : BitVec 64) (edge : Stamp) (eqd : Word) (s : State) : State :=
  let leader := match (groupAt s g).disc with | some d => d.leader | none => 0
  let (off, s1) := drawUpTo (min 1023 (gLen r - (leader + 5))) s
  let m := newMsg g 0x02 (announceBody s1 g off eqd) s1
  let b := oamBurst 1 (groupAt s1 g) e r (edge + ticks off) 254 m
  count1 (aRng g 0x00) (startBurst l b (modGroup (takeBurstCtr g s1) g fun x => { x with upSeq := x.upSeq + 1 }))

/-- The discovery grant is answered or skipped (R89, R127, R185, R194).  One too short for the burst that comes while the back-off
count is above 0 lowers that count and is not counted in RNG_UNRANGED_GRANT (DESIGN CHOICE, log 120). -/
def announceEffect (group : GroupId) (start : Nat) (s : State) : State :=
  let x := groupAt s group
  match discoveryGrant s group start, x.eqd0, x.disc with
  | some (l, e, r, edge), some q, some d =>
    let s1 := markDone l e start s
    if !mayLaunch s group l e || losOrLof (laneAt s l) || stampReached (edge + ticks (gLen r)) x.ctr then goDark l (countMissed l s1)
    else if x.disableLatch then s1
    else if 0 < x.backoff then modGroup s1 group fun y => { y with backoff := y.backoff - 1 }
    else if x.waitFrom.isSome then s1
    else if gLen r < d.leader + 5 then count1 (aRng group 0x20) s1
    else announceSend group l e r edge q s1
  | _, _, _ => s

def execAnnounce (group : GroupId) (start : Nat) (s : State) : Host.Outcome State Fault Refusal :=
  .next (whenB (announceGuard group start s) (announceEffect group start) s)

def responseWaitExpiryGuard (group : GroupId) (s : State) : Bool :=
  match (groupAt s group).waitFrom, (groupAt s group).disc with
  | some t, some d => since s t (d.wait * msTicks)
  | _, _ => false

def responseWaitExpiryEffect (group : GroupId) (s : State) : State :=
  match (groupAt s group).disc with
  | some d =>
    let (n, s1) := drawUpTo d.backoffMax s
    modGroup s1 group fun x => { x with backoff := n, waitFrom := none }
  | none => s

def execResponseWaitExpiry (group : GroupId) (s : State) : Host.Outcome State Fault Refusal :=
  .next (whenB (responseWaitExpiryGuard group s) (responseWaitExpiryEffect group) s)

/-- The EqD of a reply: EQD_TRIAL, or the lane's own for 0xFFFF_FFFF (R93). -/
def replyEqd (s : State) (g : GroupId) (l : Lane) (rq : RangeReq) : Option Word :=
  if rq.eqd = 0xFFFFFFFF then eqdAt (groupAt s g) (laneAt s l) rq.epoch else some rq.eqd

/-- The edge of the reply. -/
def replyEdge (s : State) (g : GroupId) (l : Lane) (rq : RangeReq) : Option Stamp :=
  match trxAt (laneAt s l) rq.epoch, replyEqd s g l rq with
  | some (t, _), some q => some (edgeFrom t q rq.start)
  | _, _ => none

/-- The grant of the request in its epoch's table, of the group's terminal ID (R94). -/
def replyGrant (s : State) (g : GroupId) (l : Lane) (rq : RangeReq) : Option (BitVec 64) :=
  match tableAt (laneAt s l) rq.epoch with
  | some t =>
    match t.find? fun u => gStart u.raw == rq.start && gTerm u.raw == (groupAt s g).termId with
    | some u => some u.raw
    | none => none
  | none => none

/-- The epoch has gone by on the lane without a table of its own, its map not received in SYNC. -/
def epochUnmapped (s : State) (g : GroupId) (x : LaneSt) (e : Nat) : Bool :=
  (tableAt x e).isNone &&
    (match trxAt x (epochAdd e 1) with
     | some (t, _) => stampReached t (groupAt s g).ctr
     | none => false)

/-- The epoch's table is complete, and the grant's edge, where it holds the grant, is reached; or the epoch has gone by without
one. -/
def rangeReplyGuard (lane : Lane) (s : State) : Bool :=
  match laneGroup s lane, (laneAt s lane).rangeReq with
  | some g, some rq =>
    epochUnmapped s g (laneAt s lane) rq.epoch || ((tableAt (laneAt s lane) rq.epoch).isSome &&
      (match replyGrant s g lane rq, replyEdge s g lane rq with
       | some _, some e => stampReached e (groupAt s g).ctr
       | some _, none => false
       | none, _ => true))
  | _, _ => false

def rangeReplySend (g : GroupId) (l : Lane) (rq : RangeReq) (r : BitVec 64) (edge : Stamp) (eqd : Word) (s : State) : State :=
  let x := groupAt s g
  let m := newMsg g 0x04 (rangeReplyBody s g rq.spec rq.token eqd) s
  let b := oamBurst 2 x rq.epoch r edge x.termId m
  count1 (aRng g 0x08) (startBurst l b (modGroup (takeBurstCtr g s) g fun y => { y with upSeq := y.upSeq + 1 }))

/-- One RANGE_REPLY in the ranging grant, or none where the map holds no such grant (R94, R127, R130). -/
def rangeReplyEffect (lane : Lane) (s : State) : State :=
  match laneGroup s lane, (laneAt s lane).rangeReq with
  | some g, some rq =>
    let s1 := modLane s lane fun y => { y with rangeReq := none }
    match replyGrant s g lane rq, replyEdge s g lane rq, replyEqd s g lane rq with
    | some r, some edge, some q =>
      let s2 := markDone lane rq.epoch rq.start s1
      if !mayLaunch s g lane rq.epoch || losOrLof (laneAt s lane) then goDark lane (countMissed lane s2)
      else if gLen r < (match (groupAt s g).disc with | some d => d.leader | none => 0) + 5 then count1 (aRng g 0x20) s2
      else rangeReplySend g lane rq r edge q s2
    | _, _, _ => count1 (aRng g 0x20) s1
  | _, _ => s

def execRangeReply (lane : Lane) (s : State) : Host.Outcome State Fault Refusal :=
  .next (whenB (rangeReplyGuard lane s) (rangeReplyEffect lane) s)

/-! Timers of the terminal states (R79, R108). -/

def rangeTimeoutGuard (group : GroupId) (s : State) : Bool :=
  (groupAt s group).st == .range && since s (groupAt s group).rangeAt (100 * msTicks)

def execRangeTimeout (group : GroupId) (s : State) : Host.Outcome State Fault Refusal :=
  .next (whenB (rangeTimeoutGuard group s) (enterListen group) s)

def holdoverExpiryGuard (group : GroupId) (s : State) : Bool :=
  (groupAt s group).st == .holdover && since s (groupAt s group).holdoverAt ((groupAt s group).holdoverLimit * secTicks)

/-- HOLDOVER_LIMIT elapsed: terminal ID and EqDs discarded, LISTEN (R79). -/
def holdoverExpiryEffect (group : GroupId) (s : State) : State :=
  enterListen group (setFlag (aRngFlags group) 8 (modGroup s group fun x => { x with provEqd := none }))

def execHoldoverExpiry (group : GroupId) (s : State) : Host.Outcome State Fault Refusal :=
  .next (whenB (holdoverExpiryGuard group s) (holdoverExpiryEffect group) s)

def todStaleGuard (group : GroupId) (s : State) : Bool :=
  let x := groupAt s group
  (x.timeSt == .coarse || x.timeSt == .locked) && !x.todStale && since s x.lastTodAt (3 * secTicks)

def todStaleEffect (group : GroupId) (s : State) : State :=
  setFlag (aRngFlags group) 9 (modGroup s group fun x => { x with todStale := true })

def execTodStale (group : GroupId) (s : State) : Host.Outcome State Fault Refusal :=
  .next (whenB (todStaleGuard group s) (todStaleEffect group) s)

/-! APPLICATION_INSTANT (R557). -/

/-- The newest stamp of a frame 0 on a lane of the group. -/
def lastEpochStamp (s : State) (g : GroupId) : Option EpochStamp :=
  (groupLanes s g).foldl (fun a l => match (laneAt s l).epochStamps, a with
    | p :: _, some q => if epochLe q.epoch p.epoch && q.epoch != p.epoch then some p else some q
    | p :: _, none => some p
    | [], a => a) none

/-- The application instant of an epoch is reached: its frame 0 is stamped on a lane, or the counter has reached the
predicted stamp (R557). -/
def applyDue (s : State) (g : GroupId) (e : Nat) : Bool :=
  (groupLanes s g).any (fun l => (epochStampAt (laneAt s l) e).isSome) ||
    (match lastEpochStamp s g with
     | some p => epochLe p.epoch e && stampReached (p.stamp + ticks (epochTicks * epochDist p.epoch e)) (groupAt s g).ctr
     | none => false)

/-- The visible effects of one message (R557). -/
def applyMsg (g : GroupId) (m : ApplyMsg) (s : State) : State :=
  match m with
  | .eqd vs =>
    let s1 := foldS vs (fun p st => modLane st p.1 fun y => { y with
      ranged := true, eqdPend := none, eqdOld := if y.ranged then y.eqdOld else provisionalEqd (groupAt s g) }) s
    let s2 := modGroup s1 g fun x => { x with provEqd := match vs with | p :: _ => some p.2 | [] => x.provEqd }
    let s3 := count1 (aRng g 0x10) (setFlag (aRngFlags g) 2 s2)
    if (groupAt s3 g).st == .range then setFlag (aRngFlags g) 1 (modGroup s3 g fun x => { x with st := .operate }) else s3
  | .leader ls sh lo =>
    foldS ls (fun l st => setFlag (aGntFlags l) 7 (modLane st l fun y => { y with short := sh, long := lo, leaderPend := none })) s
  | .policy c h q =>
    setFlag (aRunFlags g) 6 (modGroup s g fun x => { x with reportCount := c, headHorizon := h, queueOnly := q })

def applicationInstantGuard (group : GroupId) (s : State) : Bool :=
  groupEnabled s group && (groupAt s group).pendApply.any fun m => applyDue s group m.1

/-- Every message due takes its visible effects (R557). -/
def applicationInstantEffect (group : GroupId) (s : State) : State :=
  let due := (groupAt s group).pendApply.filter fun m => applyDue s group m.1
  let s1 := modGroup s group fun x => { x with pendApply := x.pendApply.filter fun m => !applyDue s group m.1 }
  foldS due (fun m st => applyMsg group m.2 st) s1

def execApplicationInstant (group : GroupId) (s : State) : Host.Outcome State Fault Refusal :=
  .next (whenB (applicationInstantGuard group s) (applicationInstantEffect group) s)

end Sys2Proof.Machine
end

