-- ==== Sys2Proof/Machine/Grants.lean ====
section
/-!
DEFINITION. Machine/Grants.lean: grant maps and tables, AMEND, leader lengths and the launch of bursts
(spec/05_grants_and_bursts.md).
-/
namespace Sys2Proof.Machine

/-! GRANT_MAP_RX (R111 to R117). -/

/-- An own entry is addressed to the group: its terminal ID, or 254 in ANNOUNCE (R113). -/
def grantOwn (x : GroupSt) (r : BitVec 64) : Bool :=
  (gTerm r == x.termId && x.termId != 0) || (gTerm r == 254 && x.st == .announce)

/-- A standing entry: STANDING is ignored with TERM 254 (R113). -/
def grantStands (r : BitVec 64) : Bool := gStanding r && gTerm r != 254

/-- A plan entry has the key and stands at epoch `e`: no revocation reaches it before (R116, R122). -/
def planHas (e acct start : Nat) (p : PlanEntry) : Bool :=
  gAcct p.raw == acct && gStart p.raw == start && (match p.revokeAt with | some r => !epochLe r e | none => true)

/-- A standing entry enters the plan from epoch `e`: it replaces the entry of its key, and a refresh changes nothing (R116). -/
def planPut (e : Nat) (r : BitVec 64) (x : LaneSt) : LaneSt :=
  let same := planHas e (gAcct r) (gStart r)
  if x.plan.any fun p => same p && p.raw == r then x
  else { x with plan := (x.plan.filter fun p => !same p) ++ [{ raw := r, fromEpoch := e, no := x.accepts }], accepts := x.accepts + 1 }

/-- A non-standing entry joins the map of epoch `e`. -/
def mapPut (e : Nat) (r : BitVec 64) (x : LaneSt) : LaneSt :=
  { x with maps := (e, mapEntries x e ++ [(x.accepts, r)]) :: x.maps.filter fun m => m.1 != e, accepts := x.accepts + 1 }

/-- The relevant table is full: 64 plan entries, or 256 own grants of the epoch (R114). -/
def grantFull (x : LaneSt) (e : Nat) (r : BitVec 64) : Bool :=
  let same := x.plan.any (planHas e (gAcct r) (gStart r))
  (grantStands r && !same && decide (64 ≤ (planNow x e).length)) || (!(grantStands r && same) && decide (256 ≤ (unionAt x e).length))

/-- One entry of a map block (R113, R114). -/
def takeEntry (g : GroupId) (l : Lane) (r : BitVec 64) (s : State) : State :=
  let e := epochAdd (curEpoch s l) 1
  if !gCrcOk r then count1 (aGnt l 0x08) s
  else if !grantOwn (groupAt s g) r then s
  else if !gFieldsOk r then setFlag (aGntFlags l) 0 (count1 (aGnt l 0x10) s)
  else if grantFull (laneAt s l) e r then setFlag (aGntFlags l) 3 (count1 (aGnt l 0x28) s)
  else count1 (aGnt l 0x00) (modLane s l (if grantStands r then planPut e r else mapPut e r))

/-- The frame carries a further GRANT_MAP block: received in SYNC with a valid header (R47, R113). -/
def grantMapRxGuard (lane : Lane) (s : State) : Bool :=
  let x := laneAt s lane
  (laneGroup s lane).isSome && x.align == .sync && x.curValid && decide (x.mapsTaken < x.curG)

def grantMapRxEffect (lane : Lane) (body : BitVec 256) (s : State) : State :=
  match laneGroup s lane with
  | some g =>
    let s1 := modLane s lane fun x => { x with mapsTaken := x.mapsTaken + 1 }
    foldS [192, 128, 64, 0] (fun k st => takeEntry g lane (body.extractLsb' k 64) st) s1
  | none => s

def execGrantMapRx (lane : Lane) (body : BitVec 256) (s : State) : Host.Outcome State Fault Refusal :=
  .next (whenB (grantMapRxGuard lane s) (grantMapRxEffect lane body) s)

/-! GRANT_TABLE_COMPLETE (R113 to R117). -/

/-- The epoch whose table is to be completed: the first after those completed; the one that the lane is receiving, or after
its last frame the next. -/
def nextTable (x : LaneSt) : Nat :=
  if (tableAt x (epochOf x.fn)).isSome || x.fn % 100 == 99 then epochAdd (epochOf x.fn) 1 else epochOf x.fn

/-- A grant with its slot edge. -/
def withEdges (s : State) (g : GroupId) (l : Lane) (e : Nat) (rs : List (BitVec 64)) : List (BitVec 64 × Stamp) :=
  rs.filterMap fun r => match slotEdge s g l e (gStart r) with
    | some (t, _) => some (r, t)
    | none => none

/-- Grants in slot-edge order, dropping those that begin less than 8 ticks after the end of one kept (R115); `last` is the
end of the last grant kept. -/
def dropOverlaps (last : Option Stamp) : List (BitVec 64 × Stamp) → List (BitVec 64) × Nat
  | [] => ([], 0)
  | (r, t) :: u =>
    let ok := match last with | some e => decide (0 ≤ stampDiff t (e + ticks 8)) | none => true
    if ok then
      let q := dropOverlaps (some (t + ticks (gLen r))) u
      (r :: q.1, q.2)
    else
      let q := dropOverlaps last u
      (q.1, q.2 + 1)

/-- End of the last grant of the epoch before, on the lane. -/
def lastGrantEnd (s : State) (g : GroupId) (l : Lane) (e : Nat) : Option Stamp :=
  let p := (e + epochWrap - 1) % epochWrap
  match tableAt (laneAt s l) p with
  | some t =>
    match (sortEdge (fun q => q.2) (withEdges s g l p (t.map fun u => u.raw))).getLast? with
    | some (r, at_) => some (at_ + ticks (gLen r))
    | none => none
  | none => none

/-- A table may be completed: its epoch's map has ended. -/
def grantTableCompleteGuard (lane : Lane) (s : State) : Bool :=
  let x := laneAt s lane
  (laneGroup s lane).isSome && x.stampFn.isSome && (tableAt x (nextTable x)).isNone

/-- Old tables, maps and epoch-keyed values are let go. -/
def trimLane (cur : Nat) (x : LaneSt) : LaneSt :=
  let live := fun e : Nat => !(epochLe e cur && decide (128 < epochDist e cur))
  { x with
    maps := x.maps.filter fun m => live m.1, tables := x.tables.filter fun t => live t.1,
    changes := x.changes.filter fun c => live c.1, eqds := ageEpochs cur x.eqds, leaders := ageEpochs cur x.leaders,
    plan := x.plan.filter fun p => match p.revokeAt with | some r => live r | none => true }

/-- The table of the next epoch: union, overlaps dropped, predicted bursts confirmed or fogged (R115, R117, R158, R165). -/
def grantTableCompleteEffect (lane : Lane) (s : State) : State :=
  match laneGroup s lane with
  | some g =>
    let x := laneAt s lane
    let e := nextTable x
    let all := unionAt x e
    let es := sortEdge (fun q => q.2) (withEdges s g lane e all)
    let (keep, drops) := if es.length = all.length then dropOverlaps (lastGrantEnd s g lane e) es else (all, 0)
    let s1 := whenB (decide (0 < drops)) (fun st => setFlag (aGntFlags lane) 1 (count (aGnt lane 0x18) drops st)) s
    let s2 := modLane s1 lane fun y => trimLane (epochOf x.fn)
      { y with tables := (e, keep.map fun r => { raw := r }) :: y.tables }
    let lost := fun b : Latent => b.lane == lane && b.epoch == e && b.predicted && !(keep.any fun r => sameEntry r b.grant)
    let n := (fogSet (groupAt s2 g).latents (groupAt s2 g).ctr lost).filter lost
    let s3 := whenB (!n.isEmpty) (fun st => setFlag (aRunFlags g) 2 (count (aRun g 0x58) n.length st)) s2
    let s4 := dropUnheld g lost (fog g fogGrant lost .gone false s3)
    modGroup s4 g fun y => { y with
      policies := ageEpochs (epochOf x.fn) y.policies,
      latents := y.latents.map fun b => if b.lane = lane ∧ b.epoch = e then { b with predicted := false } else b }
  | none => s

def execGrantTableComplete (lane : Lane) (s : State) : Host.Outcome State Fault Refusal :=
  .next (whenB (grantTableCompleteGuard lane s) (grantTableCompleteEffect lane) s)

/-! JUMP_HOLD_CLEAR (R119). -/

/-- The first tick of the hold's epoch has come: its frame 0 was stamped in SYNC. -/
def jumpHoldClearGuard (lane : Lane) (s : State) : Bool :=
  match (laneAt s lane).jumpHold with
  | some e => heldAt (laneAt s lane) e
  | none => false

def jumpHoldClearEffect (lane : Lane) (s : State) : State := modLane s lane fun x => { x with jumpHold := none }

def execJumpHoldClear (lane : Lane) (s : State) : Host.Outcome State Fault Refusal :=
  .next (whenB (jumpHoldClearGuard lane s) (jumpHoldClearEffect lane) s)

/-! AMEND (R120 to R122). -/

def amEpoch (s : State) (l : Lane) (m : OamRx) : Nat := epochRead (epochOf (carrierFn s l m)) (msgAt m 4 2)
def amOp (m : OamRx) : Nat := msgAt m 7 1
def amStart (m : OamRx) : Nat := msgAt m 8 4 % 2 ^ 20
def amAccount (m : OamRx) : Nat := msgAt m 12 1 % 64
def amEntry (m : OamRx) : BitVec 64 := BitVec.ofNat 64 (msgAt m 16 8)

/-- The matched grant (R120): of the epoch's grants, or for REVOKE_STANDING of the plan. -/
def amMatched (s : State) (l : Lane) (m : OamRx) (t : Lane) : Option (BitVec 64) :=
  let x := laneAt s t
  let hit := fun r : BitVec 64 => gAcct r == amAccount m && gStart r == amStart m && gTerm r != 254
  if amOp m = 2 then
    match x.plan.find? (planHas (amEpoch s l m) (amAccount m) (amStart m)) with
    | some p => some p.raw
    | none => none
  else (heldGrants x (amEpoch s l m)).find? hit

/-- The header's stamp lies later than 160,000 ticks before the slot edge of a start tick (R121). -/
def amTooLate (s : State) (g : GroupId) (l : Lane) (m : OamRx) (t : Lane) (start : Nat) : Bool :=
  match slotEdge s g t (amEpoch s l m) start with
  | some (e, _) => decide (stampDiff e (carrierStamp s l m) < 64 * 160000)
  | none => true

/-- The new grant breaks R115 against another grant of the epoch. -/
def amOverlap (s : State) (l : Lane) (m : OamRx) (t : Lane) : Bool :=
  let n := amEntry m
  (heldGrants (laneAt s t) (amEpoch s l m)).any fun r =>
    !(gAcct r == amAccount m && gStart r == amStart m) &&
      decide (gStart n < gStart r + gLen r + 8) && decide (gStart r < gStart n + gLen n + 8)

/-- The lane an AMEND names. -/
def amLane (s : State) (g : GroupId) (m : OamRx) : Option Lane := specLane s g (msgAt m 6 1)

def amendChecks (l : Lane) (m : OamRx) (g : GroupId) (s : State) : List (Bool × Nat) :=
  let x := groupAt s g
  let n := amEntry m
  match amLane s g m with
  | none => [(true, ackBadFormat)]
  | some t =>
    let mt := amMatched s l m t
    [(decide (2 < amOp m) || (amOp m == 0 && (!gCrcOk n || !gFieldsOk n || gTerm n != x.termId || gStanding n)), ackBadFormat),
     (x.st != .operate, ackWrongState),
     (mt.isNone, ackNoGrant),
     (decide (amOp m < 2) && (match mt with | some r => !gAmendable r | none => true), ackNotAmendable),
     (amTooLate s g l m t (amStart m) || (amOp m == 0 && amTooLate s g l m t (gStart n)) ||
        (amOp m == 2 && decide (256 < epochDist (epochOf (carrierFn s l m)) (amEpoch s l m))), ackLate),
     (amOp m == 0 && amOverlap s l m t, ackOverlap)]

/-- An AMEND accepted, or refused on its lane (R121). -/
def amendAct (l : Lane) (m : OamRx) (g : GroupId) (s : State) : State :=
  let st := ackStatus (amendChecks l m g s)
  let s1 :=
    match amLane s g m with
    | none => setFlag (aGntFlags l) 6 (count1 (aGnt l 0x70) s)
    | some t =>
      if st = ackAccepted then
        modGroup s g fun x => { x with amends := x.amends ++ [{ lane := t, op := amOp m, epoch := amEpoch s l m, account := amAccount m,
                                                                start := amStart m, entry := amEntry m, acceptedAt := s.now }] }
      else setFlag (aGntFlags t) 6 (count1 (aGnt t 0x70) s)
  queueAck g 0x0A st (msgSeq m) s1

def execAmend (lane : Lane) (msg : OamRx) (s : State) : Host.Outcome State Fault Refusal :=
  .next (oamReceive 0x0A lane msg noTest (amendAct lane msg) s)

/-- A change of one grant of an epoch: of its table where that is complete, and of an earlier change that gave it. -/
def amendTable (e acct start : Nat) (new : Option (BitVec 64)) (x : LaneSt) : LaneSt :=
  let hit := fun u : GrantUse => gAcct u.raw == acct && gStart u.raw == start
  { x with
    changes := (e, acct, start, new) :: x.changes.map fun c =>
      if c.1 = e ∧ (c.2.2.2.any fun r => gAcct r == acct && gStart r == start) then (c.1, c.2.1, c.2.2.1, new) else c,
    tables := x.tables.map fun t =>
      if t.1 = e then (e, t.2.filterMap fun u => if hit u then new.map fun r => { raw := r } else some u) else t }

/-- One accepted AMEND takes effect (R122): the grant changed, withdrawn or revoked, and the burst built for it fogged. -/
def amendOne (g : GroupId) (a : AmendPending) (s : State) : State :=
  let s1 := setFlag (aGntFlags a.lane) 5 (count1 (aGnt a.lane 0x68) s)
  let hit := fun b : Latent => b.lane == a.lane && gAcct b.grant == a.account && gStart b.grant == a.start
  if a.op = 2 then
    let s2 := modLane s1 a.lane fun x =>
      let mark := fun p : PlanEntry =>
        if planHas a.epoch a.account a.start p then { p with revokeAt := some a.epoch } else p
      let falls := fun u : GrantUse => gStanding u.raw && !u.done && gAcct u.raw == a.account && gStart u.raw == a.start
      { x with plan := x.plan.map mark,
               tables := x.tables.map fun t => if epochLe a.epoch t.1 then (t.1, t.2.filter fun u => !falls u) else t }
    let gone := fun b : Latent => hit b && gStanding b.grant && epochLe a.epoch b.epoch
    dropUnheld g gone (fog g fogGrant gone .gone false s2)
  else
    let new := if a.op = 0 then some a.entry else none
    let f := fun b : Latent => hit b && b.epoch == a.epoch
    dropUnheld g f (fog g fogGrant f .gone false (modLane s1 a.lane (amendTable a.epoch a.account a.start new)))

def amendApplyGuard (group : GroupId) (s : State) : Bool := !(groupAt s group).amends.isEmpty

def amendApplyEffect (group : GroupId) (s : State) : State :=
  foldS (groupAt s group).amends (amendOne group) (modGroup s group fun x => { x with amends := [] })

def execAmendApply (group : GroupId) (s : State) : Host.Outcome State Fault Refusal :=
  .next (whenB (amendApplyGuard group s) (amendApplyEffect group) s)

/-! LEADER_SET (R123, R124). -/

def leaderChecks (l : Lane) (m : OamRx) (g : GroupId) (s : State) : List (Bool × Nat) :=
  let sh := msgAt m 8 2
  let lo := msgAt m 10 2
  [(decide (sh < 32) || decide (4096 < sh) || decide (lo < 32) || decide (4096 < lo) || decide (lo < sh) ||
      (namedLanes s g (msgAt m 4 1)).isEmpty, ackBadFormat),
   (!rangedState (groupAt s g), ackWrongState),
   (applyLate s l m 6, ackLate)]

/-- New lengths from APPLY_EPOCH on every lane named; they replace ones not yet applied (R124). -/
def leaderAccept (l : Lane) (m : OamRx) (g : GroupId) (s : State) : State :=
  let e := applyEpoch s l m 6
  let ls := namedLanes s g (msgAt m 4 1)
  let v := (e, msgAt m 8 2, msgAt m 10 2)
  let s1 := foldS ls (fun t st => modLane st t fun y => { y with
    leaders := v :: (match y.leaderPend with
      | some p => y.leaders.filter fun q => q != p
      | none => y.leaders),
    leaderPend := some v }) s
  modGroup s1 g fun x => { x with
    pendApply := (x.pendApply.filterMap fun p => match p.2 with
      | .leader ms a b =>
        let rest := ms.filter fun t => !ls.contains t
        if rest.isEmpty then none else some (p.1, .leader rest a b)
      | _ => some p) ++ [(e, .leader ls v.2.1 v.2.2)] }

def leaderSetAct (l : Lane) (m : OamRx) (g : GroupId) (s : State) : State :=
  let st := ackStatus (leaderChecks l m g s)
  queueAck g 0x07 st (msgSeq m) (if st = ackAccepted then leaderAccept l m g s else s)

def execLeaderSet (lane : Lane) (msg : OamRx) (s : State) : Host.Outcome State Fault Refusal :=
  .next (oamReceive 0x07 lane msg noTest (leaderSetAct lane msg) s)

/-! BURST_LAUNCH (R125 to R131). -/

/-- Open own grants of a lane that BURST_LAUNCH answers, with epoch and edge: discovery and ranging grants are answered by
ANNOUNCE and RANGE_REPLY.  A lane without any EqD, which is not ranged, ignores its grants as from an EqD of 0 (R100; DESIGN
CHOICE, log 142). -/
def launchable (s : State) (g : GroupId) (l : Lane) : List (Nat × BitVec 64 × Stamp) :=
  let x := laneAt s l
  let ranging := fun e r => match x.rangeReq with
    | some q => q.epoch == e && q.start == gStart r
    | none => false
  x.tables.flatMap fun t => t.2.filterMap fun u =>
    if u.done || gTerm u.raw == 254 || ranging t.1 u.raw then none
    else match slotEdge s g l t.1 (gStart u.raw), trxAt x t.1 with
      | some (e, _), _ => some (t.1, u.raw, e)
      | none, some (e, _) => some (t.1, u.raw, edgeFrom e 0 (gStart u.raw))
      | none, none => none

/-- The grant whose slot edge the lane has reached, the earliest first. -/
def dueGrant (s : State) (g : GroupId) (l : Lane) : Option (Nat × BitVec 64 × Stamp) :=
  (sortEdge (fun q => q.2.2) (launchable s g l)).find? fun q => stampReached q.2.2 (groupAt s g).ctr

def burstLaunchGuard (lane : Lane) (s : State) : Bool :=
  match laneGroup s lane with
  | some g => (dueGrant s g lane).isSome && (laneAt s lane).burst.isNone
  | none => false

/-- Launch a developed latent burst. -/
def launchLatent (g : GroupId) (b : Latent) (s : State) : State := startBurst b.lane (burstOf s g b) s

/-- A due grant is launched, missed, ignored or too short (R100, R127, R129, R131); one that is over is missed (R12). -/
def launchGrant (g : GroupId) (l : Lane) (e : Nat) (r : BitVec 64) (edge : Stamp) (s : State) : State :=
  let x := laneAt s l
  let lat := findLatent (groupAt s g) l e (gStart r)
  let s1 := markDone l e (gStart r) s
  let late := stampReached (edge + ticks (gLen r)) (groupAt s g).ctr
  if !x.ranged then goDark l (countMissed l (count1 (aRng g 0x20) s1))
  else if !mayLaunch s g l e || losOrLof x || !carriesTraffic s || late then
    let s2 := goDark l (countMissed l s1)
    match lat with
    | some b => if b.developed then loseDeveloped g b s2 else fogLaneLate g l (fun q => sameGrant q b) s2
    | none => s2
  else if gLen r < leaderOf (groupAt s g) x e r + 2 then goDark l (setFlag (aGntFlags l) 2 (count1 (aGnt l 0x20) s1))
  else
    let s2 := match lat with
      | some _ => s1
      | none => addLatent g { leaderOnly s1 g l e r edge true with unstaged := canFill s1 g l e r } s1
    match findLatent (groupAt s2 g) l e (gStart r) with
    | some b =>
      let s3 := if b.developed then s2 else develop g b s2
      match findLatent (groupAt s3 g) l e (gStart r) with
      | some d => launchLatent g d s3
      | none => s3
    | none => s2

def burstLaunchEffect (lane : Lane) (s : State) : State :=
  match laneGroup s lane with
  | some g =>
    match dueGrant s g lane with
    | some (e, r, edge) => launchGrant g lane e r edge s
    | none => s
  | none => s

def execBurstLaunch (lane : Lane) (s : State) : Host.Outcome State Fault Refusal :=
  .next (whenB (burstLaunchGuard lane s) (burstLaunchEffect lane) s)

/-! BURST_END_LEAVE (R136, R144, R155, R170). -/

/-- The last block of the burst in progress has left. -/
def burstEndLeaveGuard (lane : Lane) (s : State) : Bool :=
  match laneGroup s lane, (laneAt s lane).burst with
  | some g, some b => stampReached (b.edge + ticks (b.blocks - 1)) (groupAt s g).ctr
  | _, _ => false

/-- FILL follows where the grant asks it, until the upstream epoch in which the burst ended is over (R142). -/
def afterBurst (b : Burst) : TxOut :=
  if b.kind = 0 ∧ gFill b.grant then .fill b.epoch else .dark

/-- Slots under which a burst's packets were encrypted: with its launch their last latent packets may be gone (R348). -/
def slotTests (b : Burst) (s : State) : State :=
  foldS (b.packets.filterMap fun p => p.inv.map fun i => i.1) slotStallTest s

/-- The slot and darkslide of a latent burst are released, and the burst's counts advance (R144, R155).  One that carries no data
block is leader-only (R131). -/
def burstEndLeaveEffect (lane : Lane) (s : State) : State :=
  match laneGroup s lane, (laneAt s lane).burst with
  | some g, some b =>
    let s1 := count1 (aGnt lane 0x38) s
    let s2 := whenB (b.kind == 0 && b.dataBlocks == 0) (count1 (aGnt lane 0x40)) s1
    let s4 := slotTests b (countSent g lane b b.blocks s2)
    let s5 := modGroup s4 g fun x => { x with
      latents := x.latents.filter fun q =>
        !(b.kind == 0 && q.lane == lane && q.epoch == b.epoch && gStart q.grant == gStart b.grant),
      waitFrom := if b.kind = 1 then some s.now else x.waitFrom }
    modLane s5 lane fun x => { x with burst := none, out := afterBurst b, lastEnd := some (burstEnd b) }
  | _, _ => s

def execBurstEndLeave (lane : Lane) (s : State) : Host.Outcome State Fault Refusal :=
  .next (whenB (burstEndLeaveGuard lane s) (burstEndLeaveEffect lane) s)

/-! FILL_END (R142). -/

/-- FILL ends as the upstream epoch of its burst does; the next burst of the lane ends it by beginning. -/
def fillEndGuard (lane : Lane) (s : State) : Bool :=
  match (laneAt s lane).out with
  | .fill e => fillOver s lane e
  | _ => false

def fillEndEffect (lane : Lane) (s : State) : State := modLane s lane fun x => { x with out := .dark }

def execFillEnd (lane : Lane) (s : State) : Host.Outcome State Fault Refusal :=
  .next (whenB (fillEndGuard lane s) (fillEndEffect lane) s)

/-! GRANT_TABLE_READ (R143). -/

def grantTableReadChecks (r : Request) (s : State) : List Check :=
  [ckLen r 8,
   ckRange (decide (31 < r.u8 0) || !present s (r.u8 0 / 4) || decide (2 < r.u8 1) || r.u16 4 == 0 || decide (256 < r.u16 4) ||
     decide (256 < r.u16 2 + r.u16 4) || resv r 6 2)]

/-- Grants by start tick, which is slot-edge order within an epoch. -/
def byStart (l : List (BitVec 64)) : List (BitVec 64) := sortEdge (fun r => ticks (gStart r)) l

/-- EPOCH and entries of the table selected; a lane that is not bound has none. -/
def tableView (s : State) (l : Lane) (which : Nat) : Nat × List (BitVec 64) :=
  let x := laneAt s l
  let e := curEpoch s l
  if (laneGroup s l).isNone then (0, [])
  else if which = 0 then (e, byStart (heldGrants x e))
  else if which = 1 then (epochAdd e 1, byStart (heldGrants x (epochAdd e 1)))
  else (0, byStart ((planNow x e).map fun p => p.raw))

def grantTableReadApply (r : Request) (s : State) : Done :=
  let (e, all) := tableView s (Fin.ofNat 32 (r.u8 0)) (r.u8 1)
  let es := (all.drop (r.u16 2)).take (r.u16 4)
  { st := s, payload := toLe 4 e ++ toLe 2 es.length ++ [0, 0] ++ es.flatMap fun g => toLe 8 g.toNat }

def execGrantTableRead (s : State) : Host.Outcome State Fault Refusal :=
  .next (runCommand 0x0130 grantTableReadChecks grantTableReadApply s)

end Sys2Proof.Machine
end

