-- ==== Sys2Proof/Machine/Runahead.lean ====
section
/-!
DEFINITION. Machine/Runahead.lean: arrival averages, staging, placement, development, rebuilds and their commands
(spec/06_forecast_and_latent_bursts.md).
-/
namespace Sys2Proof.Machine

/-! RATE_UPDATE (R147). -/

/-- 8,000 ticks of the group's counter, which wraps at 2^48, have passed since the last update fell due. -/
def rateUpdateGuard (group : GroupId) (s : State) : Bool :=
  decide (8000 ≤ (fld (groupAt s group).ctr 6 48 + 2 ^ 48 - (groupAt s group).rateAt % 2 ^ 48) % 2 ^ 48)

/-- One average: rate + (a - rate) / n with 16 fractional bits, the quotient truncated (log 10). -/
def averageStep (rate a n : Nat) : Nat := ((rate : Int) + (((a * 65536 : Nat) : Int) - rate).tdiv n).toNat

def rateUpdateEffect (group : GroupId) (s : State) : State :=
  let s1 := foldS (List.finRange 64) (fun a st => modAcct st (accountOf group a) fun x =>
    { x with rate1 := averageStep x.rate1 x.arrived 100, rate8 := averageStep x.rate8 x.arrived 800,
             rate64 := averageStep x.rate64 x.arrived 6400, arrived := 0 }) s
  modGroup s1 group fun x => { x with rateAt := (x.rateAt + 8000) % 2 ^ 48 }

def execRateUpdate (group : GroupId) (s : State) : Host.Outcome State Fault Refusal :=
  .next (whenB (rateUpdateGuard group s) (rateUpdateEffect group) s)

/-! STAGING_BEGIN (R154 to R160). -/

/-- The grant to be staged: open in its completed table, or with PREDICT a plan entry of an epoch whose map is not complete;
and whether it is predicted. -/
def stageGrant (s : State) (g : GroupId) (l : Lane) (e start : Nat) : Option (BitVec 64 × Bool) :=
  let x := laneAt s l
  match tableAt x e with
  | some t =>
    match t.find? fun u => gStart u.raw == start && !u.done && gTerm u.raw != 254 with
    | some u => some (u.raw, false)
    | none => none
  | none =>
    if (groupAt s g).predict then
      match ((planAt x e).filterMap (amended x e)).find? fun r => gStart r == start with
      | some r => some (r, true)
      | none => none
    else none

/-- Darkslide bytes in use on a slice: 32 per data block of each burst held (R154, R155). -/
def darkslideUsed (s : State) (k : SliceId) : Nat :=
  (List.finRange 4).foldl (fun n g => (groupAt s g).latents.foldl (fun m b =>
    if b.held ∧ laneSlice b.lane = k then m + 8 * b.words else m) n) 0

/-- Latent slots in use of a group. -/
def slotsUsed (x : GroupSt) : Nat := (x.latents.filter fun b => b.held).length

/-- Staging waits for room (R154, R155). -/
def slotsFull (x : GroupSt) : Bool := decide (64 ≤ slotsUsed x)
def darkslideFull (s : State) (k : SliceId) (words : Nat) : Bool := decide (4194304 < darkslideUsed s k + 8 * words)

/-- An earlier latent burst of the account is still open (R154). -/
def earlierOpen (x : GroupSt) (acct : Nat) (edge : Stamp) : Bool :=
  x.latents.any fun b => b.account == acct && b.held && !b.closed && edgeBefore b.edge edge

/-- A grant that stands unstaged, with its edge still ahead. -/
structure Unstaged where
  lane : Lane
  epoch : Nat
  grant : BitVec 64
  edge : Stamp
  deriving DecidableEq, Repr

/-- Grants of a lane that stand unstaged: open ones of its tables, and with PREDICT plan occurrences of epochs about `e` whose map is
not complete (R154, R158). -/
def unstagedOn (s : State) (g : GroupId) (e : Nat) (l : Lane) : List Unstaged :=
  let x := laneAt s l
  let open_ := x.tables.flatMap fun t => (t.2.filter fun u => !u.done && gTerm u.raw != 254).map fun u => (t.1, u.raw)
  let plan := if (groupAt s g).predict then
      ((List.range 5).map fun i => (e + epochWrap - 2 + i) % epochWrap).flatMap fun q =>
        if (tableAt x q).isSome then [] else (planAt x q).filterMap fun r => (amended x q r).map fun v => (q, v)
    else []
  if !x.ranged then []
  else (open_ ++ plan).filterMap fun p =>
    match slotEdge s g l p.1 (gStart p.2) with
    | some (t, _) =>
      if !edgeBefore t (groupAt s g).ctr && (findLatent (groupAt s g) l p.1 (gStart p.2)).isNone &&
          decide (leaderOf (groupAt s g) x p.1 p.2 + 2 ≤ gLen p.2) then
        some { lane := l, epoch := p.1, grant := p.2, edge := t }
      else none
    | none => none

/-- An earlier grant of the group goes first: one of the same account, or one that lacks nothing that this one could use before it
(R154). -/
def goesFirst (s : State) (g : GroupId) (l : Lane) (acct : Nat) (edge : Stamp) (u : Unstaged) : Bool :=
  let b := (grantAccountNo s g (gAcct u.grant)).val
  edgeBefore u.edge edge &&
    (b == acct || (!earlierOpen (groupAt s g) b u.edge &&
      (laneSlice u.lane == laneSlice l || !darkslideFull s (laneSlice u.lane) (regionOf s g u.lane u.epoch u.grant))))

/-- Staging begins in slot-edge order across the group (R154). -/
def inTurn (s : State) (g : GroupId) (l : Lane) (e : Nat) (r : BitVec 64) (edge : Stamp) : Bool :=
  !(groupLanes s g).any fun t => (unstagedOn s g e t).any (goesFirst s g l (grantAccountNo s g (gAcct r)).val edge)

/-- The slot edge less DEPTH is reached, the lane is ranged, the group in OPERATE, and the grant stands unstaged. -/
def stagingBeginGuard (lane : Lane) (epoch start : Nat) (s : State) : Bool :=
  match laneGroup s lane with
  | some g =>
    let x := groupAt s g
    x.st == .operate && (laneAt s lane).ranged && (findLatent x lane epoch start).isNone &&
      (match stageGrant s g lane epoch start, slotEdge s g lane epoch start with
       | some (r, _), some (e, _) =>
         stampReached (e - ticks x.depth) x.ctr && !edgeBefore e x.ctr &&
           decide (leaderOf x (laneAt s lane) epoch r + 2 ≤ gLen r) && inTurn s g lane epoch r e
       | _, _ => false)
  | none => false

/-- A grant whose account cannot fill it: CIP_NO_KEY where traffic waits for want of a key (R364), and a leader-only burst. -/
def stageLeaderOnly (g : GroupId) (l : Lane) (e : Nat) (r : BitVec 64) (pred : Bool) (edge : Stamp) (stamped : Bool) (s : State) : State :=
  let a := grantAccountNo s g (gAcct r)
  let waiting := anyEligible s a (laneSlice l) && keyMissing s a && !standby s g
  addLatent g { leaderOnly s g l e r edge stamped with predicted := pred } (whenB waiting (count1 (aCip (l.val / 4) 0x28)) s)

/-- A latent burst opens: slot, darkslide and OAM messages taken (R154, R155, R159). -/
def stageBurst (g : GroupId) (l : Lane) (e : Nat) (r : BitVec 64) (pred : Bool) (edge : Stamp) (stamped : Bool) (s : State) : State :=
  let x := groupAt s g
  let leader := leaderOf x (laneAt s l) e r
  let rest := restBlocks (gLen r) leader
  let reps := reportsOf x e rest r
  let m := oamCount x (rest - reps) r
  let words := 4 * (rest - reps - 3 * m)
  let acct := (grantAccountNo s g (gAcct r)).val
  let reb := x.rebuilds.find? fun q => q.1 == l && q.2.1 == e && q.2.2.1 == gStart r
  if slotsFull x || darkslideFull s (laneSlice l) words then
    whenB (slotsFull x) (setFlag (aRunFlags g) 4) (whenB (darkslideFull s (laneSlice l) words) (setFlag (aRunFlags g) 5) s)
  else if earlierOpen x acct edge then s
  else
    let b : Latent := { lane := l, epoch := e, grant := r, account := acct, edge := edge, stamped := stamped, cutoff := x.cutoff,
                        words := words, leader := leader, reports := reps, oam := x.oamQ.take m, predicted := pred,
                        closed := words == 0, notBefore := reb.map fun q => q.2.2.2 }
    let s1 := addLatent g b (takeOam g m s)
    let s2 := modGroup s1 g fun y => { y with
      rebuilds := y.rebuilds.filter fun q => !(q.1 == l && q.2.1 == e && q.2.2.1 == gStart r) }
    whenB pred (count1 (aRun g 0x08)) (count1 (aRun g 0x00) s2)

def stagingBeginEffect (lane : Lane) (epoch start : Nat) (s : State) : State :=
  match laneGroup s lane with
  | some g =>
    match stageGrant s g lane epoch start, slotEdge s g lane epoch start with
    | some (r, pred), some (e, st) =>
      if onlyLeader s g (grantAccountNo s g (gAcct r)) then stageLeaderOnly g lane epoch r pred e st s
      else stageBurst g lane epoch r pred e st s
    | _, _ => s
  | none => s

def execStagingBegin (lane : Lane) (epoch : Nat) (start : Nat) (s : State) : Host.Outcome State Fault Refusal :=
  .next (whenB (stagingBeginGuard lane epoch start s) (stagingBeginEffect lane epoch start) s)

/-! PACKET_PLACE (R139, R140, R156, R157, R171, R318, R347, R348). -/

/-- The open latent burst of an account: the earliest not closed. -/
def openBurst (s : State) (g : GroupId) (a : AccountId) : Option Latent :=
  (sortEdge (fun b => b.edge) ((groupAt s g).latents.filter fun b =>
    b.account == a.val && b.held && !b.closed && !b.developed)).head?

/-- Its rebuild may place packets again (R172). -/
def rebuildOpen (s : State) (g : GroupId) (b : Latent) : Bool :=
  match b.notBefore with
  | some t => stampReached t (groupAt s g).ctr
  | none => true

/-- The burst's slot edge precedes the end of a developed burst of the account on the group that a switch left (R203). -/
def behindLeft (s : State) (g : GroupId) (b : Latent) : Bool :=
  match (groupAt s g).pair with
  | some p => p.peer == 0 && (groupAt s p.partner).latents.any fun d =>
      d.account == b.account && d.developed && !d.packets.isEmpty &&
        decide (stampDiff b.edge (groupAt s g).ctr < stampDiff (d.edge + ticks (gLen d.grant)) (groupAt s p.partner).ctr)
  | none => false

/-- Packets may be placed in the burst now (R172, R203). -/
def mayPlace (s : State) (g : GroupId) (b : Latent) : Bool := rebuildOpen s g b && !behindLeft s g b

/-- What the account's scheduler releases next: its remainder, or the head of a class, with the deficits left (R140, R318). -/
structure Release where
  pkt : Packet
  cls : Option (Fin 8)
  deficits : List (Nat × Int) := []
  deriving Repr

/-- The head frame of a class. -/
def classHead (x : AccountSt) (c : Fin 8) : Option Packet := x.classes[c].frames.head?

/-- Counted length of a packet of an account (R319). -/
def acctCounted (s : State) (a : AccountId) (p : Packet) : Nat :=
  counted (p.bytes.length + tagBytes s a) (acctAt s a).overhead

/-- A class of an account holds no frame, in SRAM or in its spilled tail and pages (R315, R317). -/
def classEmpty (x : AccountSt) (c : Fin 8) : Bool :=
  x.classes[c].frames.isEmpty && (x.tail ++ x.pages.flatMap fun p => p.frames).all fun f => f.cls % 8 != c.val

/-- Classes that are empty have deficit 0 (R317). -/
def restClasses (x : AccountSt) : AccountSt :=
  { x with classes := Vector.ofFn fun c : Fin 8 => if classEmpty x c then { x.classes[c] with deficit := 0 } else x.classes[c] }

/-- Weighted classes 2 to 7 as members of the round robin (R317). -/
def classMembers (s : State) (a : AccountId) (k : SliceId) : List Member :=
  ((List.finRange 8).filter fun c => 2 ≤ c.val).map fun c =>
    let q := (acctAt s a).classes[c]
    { id := c.val, eligible := classEligible s a k c, empty := classEmpty (acctAt s a) c, deficit := q.deficit, quantum := 64 * q.weight,
      need := match q.frames with | p :: _ => acctCounted s a p | [] => 0 }

/-- The next packet of an account for a burst on slice `k` (R318). -/
def nextRelease (s : State) (a : AccountId) (k : SliceId) : Option Release :=
  let x := acctAt s a
  match x.remainder with
  | some r => some { pkt := r, cls := none }
  | none =>
    if classEligible s a k 0 then (classHead x 0).map fun p => { pkt := p, cls := some 0 }
    else if classEligible s a k 1 then (classHead x 1).map fun p => { pkt := p, cls := some 1 }
    else
      match drrNext x.turn (classMembers s a k) with
      | some (i, ds) => (classHead x (Fin.ofNat 8 i)).map fun p => { pkt := p, cls := some (Fin.ofNat 8 i), deficits := ds }
      | none => none

/-- The released packet leaves its queue and charges its shapers; a remainder was charged whole before (R318, R323). -/
def takeRelease (a : AccountId) (r : Release) (L : Nat) (s : State) : State :=
  modAcct s a fun x =>
    match r.cls with
    | none => { x with remainder := none, pinned := false }
    | some c =>
      let y := { x with
        classes := vmod x.classes c fun q => { q with frames := q.frames.drop 1, shaper := charge s.now L q.shaper },
        shaper := charge s.now L x.shaper }
      if r.deficits.isEmpty then y
      else
        let d := Vector.ofFn fun i : Fin 8 => match r.deficits.find? fun p => p.1 == i.val with
          | some p => { y.classes[i] with deficit := if classEmpty y i then 0 else p.2 }
          | none => y.classes[i]
        { y with classes := d, turn := c.val }

/-- Block of the burst at which word `w` of the data region stands. -/
def regionBlock (b : Latent) (w : Nat) : Nat := b.leader + 1 + 3 * b.oam.length + w / 4

/-- The launch instant of a header at word `w` of a burst's region (R171). -/
def launchAt (b : Latent) (w : Nat) : Stamp := tLaunch b.edge (regionBlock b w) (w % 4)

/-- The half that encrypts a packet placed at word `w` (R157, R343); none in cleartext. -/
def placeHalf (s : State) (a : AccountId) (b : Latent) (w : Nat) : Option (Nat × Half) :=
  match (acctAt s a).bind with
  | .slot n => some (n, halfFor s n b.lane (launchAt b w))
  | _ => none

/-- Plaintext bytes of a fragment that fills the words left: 8 x (words - 1) less the tag (R140). -/
def fragmentBytes (left tag : Nat) : Nat := 8 * (left - 1) - tag

/-- Place the packet, whole or as a fragment, at the next word of the burst. -/
def placeAt (g : GroupId) (a : AccountId) (b : Latent) (p : Packet) (bytes : Nat) (last pinned : Bool) (corr : Option Int) (s : State) : State :=
  let plain := (p.bytes.drop p.sent).take bytes
  let key := placeHalf s a b b.used
  let tag := tagBytes s a
  let half := match key with | some (n, h) => halfAt s n h | none => {}
  let inv := half.inv
  let hdr := pktHeaderTop (if key.isSome then inv else 0) (bytes + tag) last (match key with | some (_, h) => h.val | none => 0)
  let aad := (vecBytes hdr).take 6
  let payload := match key with
    | some _ => (gcmSeal half.aes256 half.key (gcmIv half.salt inv) aad plain ++ List.replicate (bytes + tag) 0).take (bytes + tag)
    | none => plain
  let q : Placed := { pkt := p, bytes := bytes, last := last, word := b.used,
                      inv := match key with | some (n, h) => some (n, h.val, inv) | none => none,
                      keyGen := half.gen, header := withHec hdr, payload := payload, correction := corr, pinned := pinned }
  let words := 1 + ceilDiv (bytes + tag) 8
  let s1 := modLatent g b (fun y => { y with
    packets := y.packets ++ [q], used := y.used + words, closed := decide (y.words ≤ y.used + words) }) s
  let s2 := match key with
    | some (n, h) => consume n h bytes (count (aCip (b.lane.val / 4) 0x08) (encBlocks bytes) (count1 (aCip (b.lane.val / 4) 0x00) s1))
    | none => s1
  if last then s2
  else modAcct s2 a fun x => { x with remainder := some { p with sent := p.sent + bytes }, pinned := false }

/-- The region's last words become one idle-fill packet and the staging closes (R140). -/
def closeRegion (g : GroupId) (b : Latent) (s : State) : State := modLatent g b (fun y => { y with used := y.words, closed := true }) s

/-- Why a draw does not go ahead: the half is retired by it, or waits under R348. -/
inductive DrawBlock where
  | clear
  | overrun (n : Nat) (h : Half) (cause : Nat)
  | wait (n : Nat) (h : Half)
  | noKey
  deriving DecidableEq, Repr

/-- The draw of a packet of `bytes` plaintext bytes. -/
def drawBlock (s : State) (a : AccountId) (b : Latent) (bytes : Nat) : DrawBlock :=
  match placeHalf s a b b.used with
  | none => .clear
  | some (n, h) =>
    if (slotAt s n).erasing || (halfAt s n h).state != .loaded then .noKey
    else if !drawAllowed (halfAt s n h) then .wait n h
    else match overrun s n h bytes with
      | some c => .overrun n h c
      | none => .clear

/-- A draw waits (R348): counted, the account's staged bursts close; with no latent packet of the half left, INV_STALL and
REKEY_DUE. -/
def waitDraw (g : GroupId) (a : AccountId) (b : Latent) (n : Nat) (h : Half) (s : State) : State :=
  let s1 := count1 (aCip (b.lane.val / 4) 0x40) s
  let s2 := modGroup s1 g fun x => { x with latents := x.latents.map fun y =>
    if y.account = a.val then { y with closed := true } else y }
  slotStallTest n (modSlot s2 n fun k => { k with waiting := some h })

/-- Words left in the region. -/
def wordsLeft (b : Latent) : Nat := b.words - b.used

/-- Words a packet's rest takes. -/
def pktWords (s : State) (a : AccountId) (p : Packet) : Nat := 1 + ceilDiv (p.bytes.length - p.sent + tagBytes s a) 8

/-- How many plaintext bytes of the packet the region takes: all, a fragment, or none. -/
def placeBytes (s : State) (a : AccountId) (b : Latent) (p : Packet) : Option (Nat × Bool) :=
  if pktWords s a p ≤ wordsLeft b then some (p.bytes.length - p.sent, true)
  else if 10 ≤ wordsLeft b then some (fragmentBytes (wordsLeft b) (tagBytes s a), false)
  else none

/-- The egress stamp of a packet placed at the burst's next word: the launch of its trunk packet header (R171, R382). -/
def placeEgress (s : State) (g : GroupId) (b : Latent) : BitVec 96 := stampOut s g (launchAt b b.used)

/-- The correction written at placement, in 1/65,536 ns: the residence time where the field changes (R171, R382). -/
def placeCorrection (s : State) (p : Packet) (egress : BitVec 96) : Option Int :=
  match tcDecide s p egress with
  | .correct _ => some (stampUnits egress - stampUnits p.stamp)
  | .sat => some (stampUnits egress - stampUnits p.stamp)
  | _ => none

def packetPlaceGuard (account : AccountId) (s : State) : Bool :=
  let g := servingGroup s (acctGroup account)
  match openBurst s g account with
  | some b => mayPlace s g b && (nextRelease s account (laneSlice b.lane)).isSome &&
      (!(slotStalled s account)) && (!(acctAt s account).stopped || (acctAt s account).remainder.isSome)
  | none => false
where
  /-- The account's slot is stalled, or a draw of it waits (R348). -/
  slotStalled (s : State) (a : AccountId) : Bool :=
    match (acctAt s a).bind with
    | .slot n => (slotAt s n).stall || (slotAt s n).waiting.isSome
    | _ => false

/-- One packet is released, placed, encrypted and charged, or fragmented, or ends the staging (R140, R156). -/
def packetPlaceEffect (account : AccountId) (s : State) : State :=
  let g := servingGroup s (acctGroup account)
  match openBurst s g account with
  | some b =>
    match nextRelease s account (laneSlice b.lane) with
    | some r =>
      match placeBytes s account b r.pkt with
      | none => closeRegion g b s
      | some (n, last) =>
        match drawBlock s account b n with
        | .noKey => closeRegionOpen g b s
        | .wait sl h => waitDraw g account b sl h s
        | .overrun sl h c => closeRegionOpen g b (retireHalf sl h c s)
        | .clear =>
          let pinned := (acctAt s account).pinned
          let first := r.pkt.sent == 0
          let e := placeEgress s g b
          let L := acctCounted s account r.pkt
          let q := if r.cls.isSome then { r.pkt with charged := L } else r.pkt
          let s1 := whenB first (tcCount (b.lane.val / 4) q e) (takeRelease account r L s)
          let corr := if first then placeCorrection s q e else none
          let p := if first then { q with bytes := tcBytes s q e } else q
          let s2 := passBuf q.buf (ownerId (b.lane.val / 4) unitTrunkTx) s1
          keepOriginal g b q p (placeAt g account b p n last (pinned && r.cls.isNone) corr s2)
    | none => s
  | none => s
where
  /-- The staging ends with what it holds; whole blocks left become IDLE (R139). -/
  closeRegionOpen (g : GroupId) (b : Latent) (s : State) : State := modLatent g b (fun y => { y with closed := true }) s
  /-- The packet returns by a fog as it entered: the bytes before the correction (R167, R171). -/
  keepOriginal (g : GroupId) (b : Latent) (old new : Packet) (s : State) : State :=
    if old.bytes = new.bytes then s
    else modLatent g b (fun y => { y with packets := y.packets.map fun q =>
      if q.pkt.entry = new.entry ∧ q.pkt.sent = new.sent then { q with pkt := old } else q }) s

def execPacketPlace (account : AccountId) (s : State) : Host.Outcome State Fault Refusal :=
  .next (whenB (packetPlaceGuard account s) (packetPlaceEffect account) s)

/-! INVOCATION_DRAW_RESUME (R348). -/

/-- A packet of the half has launched, so that the draw is allowed again. -/
def invocationDrawResumeGuard (slot : SlotId) (s : State) : Bool :=
  let k := slotAt s slot.val
  match k.waiting with
  | some h => !k.stall && drawAllowed k.halves[h]
  | none => false

def invocationDrawResumeEffect (slot : SlotId) (s : State) : State := modSlot s slot.val fun k => { k with waiting := none }

def execInvocationDrawResume (slot : SlotId) (s : State) : Host.Outcome State Fault Refusal :=
  .next (whenB (invocationDrawResumeGuard slot s) (invocationDrawResumeEffect slot) s)

/-! DEVELOP (R160 to R163). -/

/-- The tick of the cut-off of a grant without a latent burst, slot edge - CUTOFF rounded down to a whole tick, is reached. -/
def cutoffReached (s : State) (g : GroupId) (edge : Stamp) (cutoff : Nat) : Bool :=
  stampReached (((edge - ticks cutoff) >>> 6) <<< 6) (groupAt s g).ctr

/-- A grant's burst is due for development: its latent burst, or for a usable grant without one a leader-only burst. -/
def developGuard (lane : Lane) (epoch start : Nat) (s : State) : Bool :=
  match laneGroup s lane with
  | some g =>
    let x := groupAt s g
    match findLatent x lane epoch start with
    | some b => !b.developed && cutoffReached s g b.edge b.cutoff
    | none =>
      (x.st == .operate || x.st == .range) && (laneAt s lane).ranged &&
        (match stageGrant s g lane epoch start, slotEdge s g lane epoch start with
         | some (r, false), some (e, _) =>
           cutoffReached s g e x.cutoff && decide (leaderOf x (laneAt s lane) epoch r + 2 ≤ gLen r)
         | _, _ => false)
  | none => false

/-- The lane cannot launch the epoch, or launches nothing: its verified position was not held at frame 0, whose stamp has come or
would have, or JUMP_HOLD, the return from HOLDOVER, LOS or LOF bars it (R127, R165, R185). -/
def laneBarred (s : State) (g : GroupId) (l : Lane) (e : Nat) : Bool :=
  let past : Bool := match trxAt (laneAt s l) e with
    | some (t, _) => stampReached t (groupAt s g).ctr
    | none => true
  losOrLof (laneAt s l) || (!mayLaunch s g l e && (past || (laneAt s l).jumpHold.isSome))

/-- A burst that its lane cannot launch is fogged under LANE; any other is developed (R161, R165, R185). -/
def developEffect (lane : Lane) (epoch start : Nat) (s : State) : State :=
  match laneGroup s lane with
  | some g =>
    match findLatent (groupAt s g) lane epoch start with
    | some b => if laneBarred s g lane epoch then fogLaneLate g lane (fun q => sameGrant q b) s else develop g b s
    | none =>
      match stageGrant s g lane epoch start, slotEdge s g lane epoch start with
      | some (r, _), some (e, st) =>
        let b := { leaderOnly s g lane epoch r e st with unstaged := canFill s g lane epoch r }
        develop g b (addLatent g b s)
      | _, _ => s
  | none => s

def execDevelop (lane : Lane) (epoch : Nat) (start : Nat) (s : State) : Host.Outcome State Fault Refusal :=
  .next (whenB (developGuard lane epoch start s) (developEffect lane epoch start) s)

/-! REBUILD_START (R172). -/

/-- The 400th tick after the fog is reached by a burst staged again. -/
def rebuildStartGuard (lane : Lane) (epoch start : Nat) (s : State) : Bool :=
  match laneGroup s lane with
  | some g =>
    match findLatent (groupAt s g) lane epoch start with
    | some b => !b.developed && b.notBefore.isSome && mayPlace s g b
    | none => false
  | none => false

/-- The rebuilt burst may place packets again. -/
def rebuildStartEffect (lane : Lane) (epoch start : Nat) (s : State) : State :=
  match laneGroup s lane with
  | some g =>
    match findLatent (groupAt s g) lane epoch start with
    | some b => modLatent g b (fun y => { y with notBefore := none }) s
    | none => s
  | none => s

def execRebuildStart (lane : Lane) (epoch : Nat) (start : Nat) (s : State) : Host.Outcome State Fault Refusal :=
  .next (whenB (rebuildStartGuard lane epoch start s) (rebuildStartEffect lane epoch start) s)

/-! REPORT_POLICY (R152, R153). -/

def policyChecks (l : Lane) (m : OamRx) (g : GroupId) (s : State) : List (Bool × Nat) :=
  [(decide (msgAt m 6 1 < 1) || decide (22 < msgAt m 6 1) || decide (63 < msgAt m 7 1), ackBadFormat),
   (!rangedState (groupAt s g), ackWrongState),
   (applyLate s l m 4, ackLate)]

/-- A policy from APPLY_EPOCH; it replaces one not yet applied (R153). -/
def policyAccept (l : Lane) (m : OamRx) (g : GroupId) (s : State) : State :=
  let e := applyEpoch s l m 4
  let v := (e, msgAt m 6 1, msgAt m 7 1, natBit (msgAt m 8 1) 0)
  modGroup s g fun x =>
    let old := x.pendApply.filterMap fun p => match p.2 with
      | .policy c h q => some (p.1, c, h, q)
      | _ => none
    { x with
      policies := v :: x.policies.filter fun p => !old.contains p,
      pendApply := (x.pendApply.filter fun p => match p.2 with | .policy _ _ _ => false | _ => true) ++
        [(e, .policy v.2.1 v.2.2.1 v.2.2.2)] }

def reportPolicyAct (l : Lane) (m : OamRx) (g : GroupId) (s : State) : State :=
  let st := ackStatus (policyChecks l m g s)
  queueAck g 0x0E st (msgSeq m) (if st = ackAccepted then policyAccept l m g s else setFlag (aRunFlags g) 7 s)

def execReportPolicy (lane : Lane) (msg : OamRx) (s : State) : Host.Outcome State Fault Refusal :=
  .next (oamReceive 0x0E lane msg noTest (reportPolicyAct lane msg) s)

/-! RUNAHEAD_SET (R178, R179) and ACCOUNT_STOP (R180). -/

def runaheadSetChecks (r : Request) (_ : State) : List Check :=
  [ckLen r 32,
   ckRange (decide (3 < r.u8 0) || decide (4 ≤ r.u8 1) || decide (63 < r.u8 2) || resv r 3 1 ||
     decide (r.u32 8 < 800) || decide (80000 < r.u32 8) || decide (r.u32 4 < r.u32 8 + 800) || decide (1600000 < r.u32 4) ||
     decide (80000 < r.u32 12) || decide (r.u32 16 < 800) || decide (800000 < r.u32 16) ||
     decide (16 < r.u8 20) || decide (16 < r.u8 21) || decide (16 < r.u8 22) || resv r 23 1),
   ⟨r.u8 20 + r.u8 21 + r.u8 22 != 16, .conflict⟩]

def runaheadSetApply (r : Request) (s : State) : Done :=
  okDone (modGroup s (Fin.ofNat 4 (r.u8 0)) fun x => { x with
    predict := natBit (r.u8 1) 0, preempt := natBit (r.u8 1) 1, horizon := r.u8 2, depth := r.u32 4, cutoff := r.u32 8,
    margin := r.u32 12, holdoff := r.u32 16, w1 := r.u8 20, w8 := r.u8 21, w64 := r.u8 22,
    reportMask := BitVec.ofNat 64 (r.u64 24) })

def execRunaheadSet (s : State) : Host.Outcome State Fault Refusal :=
  .next (runCommand 0x0140 runaheadSetChecks runaheadSetApply s)

def accountStopChecks (r : Request) (_ : State) : List Check :=
  [ckLen r 4, ckRange (decide (3 < r.u8 0) || decide (63 < r.u8 1) || decide (1 < r.u8 2) || resv r 3 1)]

/-- A stop fogs the account's latent bursts before its response (R165, R180). -/
def accountStopApply (r : Request) (s : State) : Done :=
  let a := accountNo (r.u8 0) (r.u8 1)
  let stop := r.u8 2 == 1
  if (acctAt s a).stopped = stop then okDone s
  else
    let s1 := modAcct s a fun x => { x with stopped := stop }
    if stop then okDone (fog (servingGroup s (acctGroup a)) fogStop (fun b => b.account == a.val) .stands false s1)
    else okDone s1

def execAccountStop (s : State) : Host.Outcome State Fault Refusal :=
  .next (runCommand 0x0141 accountStopChecks accountStopApply s)

end Sys2Proof.Machine
end

