-- ==== Sys2Proof/Machine/Buffers.lean ====
section
/-!
DEFINITION. Machine/Buffers.lean: the buffer manager's rows, spill to HBM and read-back, and the buffer commands
(spec/10_buffer_pools.md, R281 to R311).
-/
namespace Sys2Proof.Machine

/-! BUFFER_ALLOC, FREE, HAND_OFF, REF_ADD, REF_DROP. -/

/-- A request names an owner that allocates, a frame that a buffer can hold, and a count where the owner is privileged. -/
def bufferAllocGuard (slice : SliceId) (request : AllocReq) (s : State) : Bool := present s slice.val && allocReqOk request

def bufferAllocEffect (slice : SliceId) (request : AllocReq) (s : State) : State := (allocBuf slice (allocArgs request) s).2

def execBufferAlloc (slice : SliceId) (request : AllocReq) (s : State) : Host.Outcome State Fault Refusal :=
  .next (whenB (bufferAllocGuard slice request s) (bufferAllocEffect slice request) s)

def freeGuard (slice : SliceId) (s : State) : Bool := present s slice.val

def freeEffect (slice : SliceId) (ptr : Word) (issuer : Byte) (s : State) : State := bufOp slice .free ptr issuer.toNat s

def execFree (slice : SliceId) (ptr : Word) (issuer : Byte) (s : State) : Host.Outcome State Fault Refusal :=
  .next (whenB (freeGuard slice s) (freeEffect slice ptr issuer) s)

/-- A hand-off to a privileged owner carries a count from 1 to 255 (R287). -/
def handOffGuard (slice : SliceId) (newOwner : Byte) (cnt : Nat) (s : State) : Bool :=
  present s slice.val && decide (newOwner.toNat % 32 ≤ 16) &&
    (if privileged newOwner.toNat then decide (1 ≤ cnt) && decide (cnt ≤ 255) else true)

def handOffEffect (slice : SliceId) (ptr : Word) (issuer newOwner : Byte) (cnt : Nat) (s : State) : State :=
  bufOp slice (.handOff newOwner.toNat cnt) ptr issuer.toNat s

def execHandOff (slice : SliceId) (ptr : Word) (issuer : Byte) (newOwner : Byte) (count : Nat) (s : State) :
    Host.Outcome State Fault Refusal :=
  .next (whenB (handOffGuard slice newOwner count s) (handOffEffect slice ptr issuer newOwner count) s)

def refAddGuard (slice : SliceId) (s : State) : Bool := present s slice.val

/-- A REF_ADD that was applied ahead of a REF_DROP of its cycle has had its effect (R288). -/
def refAddEffect (slice : SliceId) (ptr : Word) (issuer : Byte) (s : State) : State :=
  if (bufAt s slice).refAhead.contains (ptrKey ptr) then modBuf s slice fun b => { b with refAhead := b.refAhead.erase (ptrKey ptr) }
  else bufOp slice .refAdd ptr issuer.toNat s

def execRefAdd (slice : SliceId) (ptr : Word) (issuer : Byte) (s : State) : Host.Outcome State Fault Refusal :=
  .next (whenB (refAddGuard slice s) (refAddEffect slice ptr issuer) s)

def refDropGuard (slice : SliceId) (s : State) : Bool := present s slice.val

def refDropEffect (slice : SliceId) (ptr : Word) (issuer : Byte) (s : State) : State := bufOp slice .refDrop ptr issuer.toNat s

def execRefDrop (slice : SliceId) (ptr : Word) (issuer : Byte) (s : State) : Host.Outcome State Fault Refusal :=
  .next (whenB (refDropGuard slice s) (refDropEffect slice ptr issuer) s)

/-! Where an account's next grant lies (R303). -/

/-- Grants of the account that stand on a lane, with their slot edges. -/
def laneGrants (s : State) (g : GroupId) (a : AccountId) (l : Lane) : List (Stamp × Lane) :=
  (laneAt s l).tables.flatMap fun t => t.2.filterMap fun u =>
    if u.done || accountNo (workingOf s g).val (gAcct u.raw) != a then none
    else (slotEdge s g l t.1 (gStart u.raw)).map fun e => (e.1, l)

/-- The account's grants to come: those of its latent bursts and of the grant tables. -/
def grantsToCome (s : State) (g : GroupId) (a : AccountId) : List (Stamp × Lane) :=
  (((groupAt s g).latents.filter fun b => b.account == a.val).map fun b => (b.edge, b.lane)) ++
    (groupLanes s g).flatMap (laneGrants s g a)

/-- The slice of the lane that holds the account's next grant, that with the earliest slot edge; without one, of the lowest lane of
the group that serves it. -/
def nextGrantSlice (s : State) (a : AccountId) : SliceId :=
  let g := servingGroup s (acctGroup a)
  match sortEdge (fun q => q.1) (grantsToCome s g a), groupLanes s g with
  | q :: _, _ => laneSlice q.2
  | [], l :: _ => laneSlice l
  | [], [] => 0

/-- Note whether an account that has nothing left in HBM or in its tail goes on spilling (R301, R311). -/
def endSpill (a : AccountId) (s : State) : State :=
  let x := acctAt s a
  if x.spilling && x.tail.isEmpty && x.pages.isEmpty then
    let s1 := modAcct s a fun y => { y with
      spilling := false, atCap := false, disableWhenDone := false,
      spillEnable := if y.disableWhenDone then false else y.spillEnable }
    { s1 with path := { s1.path with spillEndAt := s.now } }
  else s

/-! XREF_RECLAIM (R293). -/

/-- A descriptor points into a buffer on a slice that slice k cannot reach. -/
def cutOff (s : State) (k : SliceId) (p : Packet) : Bool := !bufReached s k.val p

/-- Some slice of the part cannot be reached from slice k. -/
def xrefReclaimGuard (slice : SliceId) (s : State) : Bool :=
  present s slice.val && (presentSlices s).any fun m => !path s slice.val m

/-- Discard the descriptors of a list that are cut off, counting each. -/
def dropCut (k : SliceId) (l : List Packet) (s : State) : State :=
  foldS (l.filter (cutOff s k)) (fun p st => count1 (aBuf k 0xA8) (dropOwed p st)) s

/-- Egress queues of a port without the descriptors that are cut off. -/
def xrefPort (k : SliceId) (p : PortId) (s : State) : State :=
  let x := portAt s p
  let s1 := dropCut k ((List.finRange 32).flatMap fun q => x.queues[q].frames) s
  modPort s1 p fun y => { y with queues := y.queues.map (keepQueue fun f => !cutOff s k f) }

/-- Class queues and spill tail of an account without the descriptors that are cut off. -/
def xrefAcct (k : SliceId) (a : AccountId) (s : State) : State :=
  let x := acctAt s a
  let s1 := dropCut k (((List.finRange 8).flatMap fun c => x.classes[c].frames) ++ x.tail) s
  endSpill a (modAcct s1 a fun y => restClasses { y with
    tail := y.tail.filter fun f => !cutOff s k f, classes := y.classes.map (keepClass fun f => !cutOff s k f) })

/-- The fabric queues of a slice without the descriptors that are cut off: frames held for it there, and cells on its lanes. -/
def xrefFabric (k : SliceId) (s : State) : State :=
  let mine := (s.fabric.hold.map fun h => h.1).filter fun p => p.slice == k
  let cells := ((List.finRange 16).filter fun l => fabSlice l == k).flatMap fun l => (List.finRange 3).flatMap fun c =>
    (fabAt s l).queues[c].filterMap fun o => o.pkt
  let s1 := dropCut k (mine ++ cells) s
  let stays := fun o : CellOut => match o.pkt with
    | some p => !cutOff s k p
    | none => true
  foldS ((List.finRange 16).filter fun l => fabSlice l == k)
    (fun l st => modFab st l fun y => { y with queues := y.queues.map fun q => q.filter stays })
    { s1 with fabric := { s1.fabric with hold := s1.fabric.hold.filter fun h => h.1.slice != k || !cutOff s k h.1 } }

/-- The management queues, which the anchor drains, without the descriptors that are cut off from it. -/
def xrefMgmt (k : SliceId) (s : State) : State :=
  let s1 := dropCut k ((List.finRange 8).flatMap fun q => s.ev.mgtWait[q]) s
  { s1 with ev := { s1.ev with mgtWait := s1.ev.mgtWait.map fun l => l.filter fun p => !cutOff s k p } }

/-- A buffer of slice k is owned from a slice that k cannot reach. -/
def ownedFar (s : State) (k : SliceId) (e : Nat × Option BufEntry) : Bool :=
  match e.2 with
  | some x => !path s k.val (x.owner / 32)
  | none => false

/-- Buffers of the slice's own SRAM owned from slices it cannot reach are reclaimed. -/
def reclaim (k : SliceId) (s : State) : State :=
  let n := ((bufAt s k).bitmap.filter (ownedFar s k)).length
  let s1 := modBuf s k fun b => { b with bitmap := b.bitmap.filter fun e => !ownedFar s k e }
  whenB (decide (0 < n)) (fun st => setFlag (aBufFlags k) 5 (count (aBuf k 0xA0) n st)) (refreshPressure k s1)

def xrefReclaimEffect (slice : SliceId) (s : State) : State :=
  let s1 := foldS ((List.finRange 32).filter fun p => laneSlice p == slice) (xrefPort slice) s
  let s2 := xrefFabric slice (foldS ((List.finRange 256).filter fun a => nextGrantSlice s a == slice) (xrefAcct slice) s1)
  reclaim slice (if (anchorSlice s).any fun h => h.val == slice.val then xrefMgmt slice s2 else s2)

def execXrefReclaim (slice : SliceId) (s : State) : Host.Outcome State Fault Refusal :=
  .next (whenB (xrefReclaimGuard slice s) (xrefReclaimEffect slice) s)

/-! Spill pages (R299, R302, R304, R305). -/

/-- Spill pages of a channel. -/
def chanPages : Nat := 32256

/-- Bytes of a record: header, frame and padding (R302). -/
def recordBytes (p : Packet) : Nat := 32 + 32 * ceilDiv p.bytes.length 32

/-- The record of a frame (R302). -/
def spillRecord (p : Packet) : List Byte :=
  let h := toLe 2 p.bytes.length ++ [BitVec.ofNat 8 p.cls, BitVec.ofNat 8 p.ptpEvent.toNat, BitVec.ofNat 8 p.owner, 0] ++
    toLe 2 p.ptpOff ++ toLe 12 p.stamp.toNat ++ toLe 4 p.adm ++ List.replicate 8 0
  let b := h ++ p.bytes
  b ++ List.replicate (recordBytes p - b.length) 0

/-- Pages of a channel in use. -/
def pagesUsed (s : State) (c : Nat) : Nat := (s.path.spillUsed.filter fun n => n / chanPages == c).length

/-- The lowest page of a channel not in use. -/
def freePage (used : List Nat) (c : Nat) : Nat → Nat → Nat
  | 0, i => i
  | fuel + 1, i => if used.contains (c * chanPages + i) then freePage used c fuel (i + 1) else i

/-- A channel accepts new spill: in service, a free page, its owner neither in ABSTAIN nor FAULTED nor asleep (R29, R37, R299). -/
def chanOpen (s : State) (c : Nat) : Bool :=
  let ch : ChanId := Fin.ofNat 8 c
  chanServes s c && decide (pagesUsed s c < chanPages) && !ownerAbstains s ch && !ownerFaulted s ch && !ownerSleeps s ch

/-- A slice has a path to a channel's owner, and that is not FAULTED: to it the channel does not count as frozen (R27, R29). -/
def chanReached (s : State) (k c : Nat) : Bool :=
  let ch : ChanId := Fin.ofNat 8 c
  !ownerFaulted s ch && path s k (chanOwner ch).val

/-- A channel takes new spill of a slice. -/
def chanAccepts (s : State) (k c : Nat) : Bool := chanOpen s c && chanReached s k c

/-- The channel of the next new page, in round-robin order (R299). -/
def nextChan (s : State) (k : Nat) : Option Nat :=
  ((List.range 8).map fun i => (s.path.spillRr + 1 + i) % 8).find? (chanAccepts s k)

/-- Channels in service, and the bytes that each may take in a microsecond (R304). -/
def budget (s : State) : Nat := 25000 * ((List.range 8).filter (chanServes s)).length

/-- The open page of an account, where the record still fits. -/
def openPage (x : AccountSt) (n : Nat) : Option SpillPage :=
  match x.pages.getLast? with
  | some p => if !p.closed && !p.reading && !p.lost && decide (p.used + n ≤ pageBytes) then some p else none
  | none => none

/-- Change the last page of an account. -/
def modLastPage (f : SpillPage → SpillPage) (l : List SpillPage) : List SpillPage :=
  match l.reverse with
  | p :: t => (f p :: t).reverse
  | [] => []

/-- Write bytes of a slice's SPILL into the stack. -/
def spillStore (k : SliceId) (c : ChanId) (addr : Nat) (b : List Byte) (s : State) : State :=
  serveReq c { requester := k, unit := 0, hint := .none, tag := 0, write := true, addr := addr, data := b } s

/-- A slice may access a channel now: it reaches it, the channel is in service with its clock running, and no request waits that an
access would overtake; a channel in self-refresh is woken first (R28, R405, R520). -/
def chanReady (s : State) (k c : Nat) : Bool :=
  let x := chanAt s (Fin.ofNat 8 c)
  chanReached s k c && x.st == .service && !x.srEntering && hbmRuns s (Fin.ofNat 8 c) && x.waiting.isEmpty

/-- Close an open page: a record header with LENGTH 0, which counts against the budget, ends one that has room left (R302, R304). -/
def closePage (k : SliceId) (a : AccountId) (s : State) : State :=
  match (acctAt s a).pages.getLast? with
  | some p =>
    if p.closed then s
    else
      let end_ := fun st : State =>
        let s1 := spillStore k (Fin.ofNat 8 p.chan) (pageAddr p.page + p.used) (List.replicate 32 0) st
        { s1 with path := { s1.path with spillWr := s1.path.spillWr + 32 } }
      let s1 := whenB (decide (p.used < pageBytes) && chanReady s k.val p.chan) end_ s
      count1 (aSpill 0x08) (modAcct s1 a fun x => { x with pages := modLastPage (fun q => { q with closed := true }) x.pages })
  | none => s

/-- Take a new page for an account. -/
def takePage (a : AccountId) (c : Nat) (s : State) : State :=
  let n := freePage s.path.spillUsed c s.path.spillUsed.length 0
  let s1 := { s with path := { s.path with spillRr := c, spillUsed := s.path.spillUsed ++ [c * chanPages + n] } }
  modAcct s1 a fun x => { x with pages := x.pages ++ [{ chan := c, page := n }], atCap := false }

/-- The frame at the head of the tail is stored in the open page, and its SRAM buffer freed by SPILL (R291, R302). -/
def storeFrame (a : AccountId) (p : Packet) (g : SpillPage) (s : State) : State :=
  let s1 := spillStore p.slice (Fin.ofNat 8 g.chan) (pageAddr g.page + g.used) (spillRecord p) s
  let s2 := dropBuf p.buf (passBuf p.buf (ownerId p.slice.val unitSpill) s1)
  let s3 := { s2 with path := { s2.path with spillWr := s2.path.spillWr + recordBytes p } }
  count1 (aSpill 0x00) (modAcct s3 a fun x => { x with
    tail := x.tail.tail,
    pages := modLastPage (fun q => { q with used := q.used + recordBytes p, frames := q.frames ++ [{ p with buf := none }] }) x.pages })

/-- Ask a sleeping channel to wake. -/
def wakeChan (c : Nat) (s : State) : State :=
  modChan s (Fin.ofNat 8 c) fun x =>
    if x.st == .selfRefresh then { x with exitAt := some (x.exitAt.getD s.now) }
    else if x.sreAt.isSome then { x with exitWanted := true }
    else { x with srEntering := false }

/-- The account is at its cap: its tail stays in SRAM (R305). -/
def capped (a : AccountId) (s : State) : State := setFlag aSpillFlags 2 (modAcct s a fun x => { x with atCap := true })

/-- A frame counts towards SPILL. -/
def toSpill (p : Packet) (s : State) : State :=
  let o := ownerId p.slice.val unitSpill
  whenB (decide (∃ w, p.buf = some w ∧ bufOwner s w ≠ o)) (passBuf p.buf o) s

/-- Writes have reached the budget: the frames of the tail count towards SPILL and wait (R304). -/
def throttled (a : AccountId) (s : State) : State :=
  let s1 := foldS (acctAt s a).tail toSpill s
  setFlag aSpillFlags 1 { s1 with path := { s1.path with wrLimited := true } }

/-- No owning slice can be reached from the slice of a frame. -/
def hbmCut (s : State) (k : Nat) : Bool := !path s k 0 && !path s k 1

/-- A frame to be spilled whose slice reaches no half of the stack is discarded and counted (R27). -/
def spillUnreach (a : AccountId) (p : Packet) (s : State) : State :=
  endSpill a (modAcct (discardUnreach p s) a fun x => { x with tail := x.tail.tail })

/-- The oldest frame of the tail goes into a new page of the next channel that accepts it, or waits at the cap. -/
def writeNewPage (a : AccountId) (p : Packet) (s : State) : State :=
  if (acctAt s a).maxPages ≤ (acctAt s a).pages.length then capped a s
  else
    match nextChan s p.slice.val with
    | none => capped a s
    | some c =>
      if chanReady s p.slice.val c then
        let s1 := takePage a c (closePage p.slice a s)
        match openPage (acctAt s1 a) (recordBytes p) with
        | some g => storeFrame a p g s1
        | none => s1
      else wakeChan c s

def spillWriteCompleteGuard (account : AccountId) (s : State) : Bool := !(acctAt s account).tail.isEmpty

/-- The write of the tail's oldest frame: into the open page, into a new page, or held by the budget, the cap or a sleeping
channel; an open page that the frame's slice does not reach takes nothing more (R29). -/
def spillWriteCompleteEffect (account : AccountId) (s : State) : State :=
  match (acctAt s account).tail with
  | [] => s
  | p :: _ =>
    if hbmCut s p.slice.val then spillUnreach account p s
    else if budget s < s.path.spillWr + recordBytes p then throttled account s
    else
      match openPage (acctAt s account) (recordBytes p) with
      | some g =>
        if chanReady s p.slice.val g.chan then storeFrame account p g s
        else if chanReached s p.slice.val g.chan then wakeChan g.chan s
        else writeNewPage account p s
      | none => writeNewPage account p s

def execSpillWriteComplete (account : AccountId) (s : State) : Host.Outcome State Fault Refusal :=
  .next (whenB (spillWriteCompleteGuard account s) (spillWriteCompleteEffect account) s)

/-! Read-back (R303). -/

/-- Cells of the SRAM head: frames in the class queues. -/
def headCells (x : AccountSt) : Nat := ((List.finRange 8).flatMap fun c => x.classes[c].frames).foldl (fun n p => n + pktCells p) 0

/-- The head is below REFILL, a page waits in HBM, none is being read, and its channel can be reached. -/
def spillReadbackGuard (account : AccountId) (s : State) : Bool :=
  let x := acctAt s account
  decide (headCells x < x.refill) && match x.pages with
    | p :: _ => !p.reading && !p.lost && chanServes s p.chan && chanReached s (nextGrantSlice s account).val p.chan
    | [] => false

/-- The read of the account's next page begins; its bytes are taken from the budgets of as many microseconds as it needs, and reads
at the limit wait (R304). -/
def spillReadbackEffect (account : AccountId) (s : State) : State :=
  match (acctAt s account).pages with
  | [] => s
  | p :: t =>
    if budget s ≤ s.path.spillRd then { s with path := { s.path with rdLimited := true } }
    else
      let k := nextGrantSlice s account
      let s0 := if t.isEmpty && !p.closed then (if chanReady s k.val p.chan then closePage k account s else wakeChan p.chan s) else s
      match (acctAt s0 account).pages with
      | q :: u =>
        if q.closed then
          let s1 := modAcct s0 account fun x => { x with pages := { q with reading := true } :: u }
          let s2 := { s1 with path := { s1.path with spillRd := s1.path.spillRd + q.used } }
          arrive (Fin.ofNat 8 q.chan) { requester := k, unit := 1, hint := .none, tag := BitVec.ofNat 32 account.val, write := false,
                                        addr := pageAddr q.page, data := List.replicate q.used 0 } s2
        else s0
      | [] => s0

def execSpillReadback (account : AccountId) (s : State) : Host.Outcome State Fault Refusal :=
  .next (whenB (spillReadbackGuard account s) (spillReadbackEffect account) s)

/-- A page's data has returned: no request for it waits or is outstanding in its channel. -/
def pageArrived (s : State) (p : SpillPage) : Bool :=
  let x := chanAt s (Fin.ofNat 8 p.chan)
  p.reading && !p.lost && !(x.waiting ++ x.reads).any fun r => r.unit == 1 && !r.write && r.addr == pageAddr p.page

/-- A record joins its class queue in the SRAM of the slice of the next grant (R303). -/
def appendClass (k : SliceId) (w : Word) (p : Packet) (now : Nat) (x : AccountSt) : AccountSt :=
  let q := { p with buf := some w, owner := ownerId k.val unitSpill, slice := k }
  { x with classes := vmod x.classes (Fin.ofNat 8 p.cls) fun c => { c with
    frames := c.frames ++ [q],
    shaper := if c.frames.isEmpty && c.shaper.wheel.isNone then enterWheel now (accrue now c.shaper) else c.shaper } }

/-- Records of a page go to SRAM in order until one finds no buffer: what is left. -/
def readRecords (a : AccountId) (k : SliceId) : List Packet → State → List Packet × State
  | [], s => ([], s)
  | p :: t, s =>
    match allocBuf k { owner := ownerId k.val unitSpill, prio := 0, bytes := p.bytes.length, count := 0 } s with
    | (.ok w, s1) => readRecords a k t (modAcct s1 a (appendClass k w p s.now))
    | (.error _, s1) => (p :: t, s1)

/-- The page under way goes on into SRAM; freed when its last record is there, retried after 1 us otherwise. -/
def drainPage (a : AccountId) (s : State) : State :=
  match (acctAt s a).pages with
  | [] => s
  | p :: t =>
    let r := readRecords a (nextGrantSlice s a) p.frames s
    if r.1.isEmpty then
      let s1 := modAcct r.2 a fun x => { x with pages := t, retryAt := none, atCap := false }
      let s2 := { s1 with path := { s1.path with spillUsed := s1.path.spillUsed.erase (p.chan * chanPages + p.page) } }
      endSpill a (count1 (aSpill 0x10) s2)
    else modAcct r.2 a fun x => { x with pages := { p with frames := r.1 } :: t, retryAt := some (s.now + usTicks) }

/-- The first page's data has returned and none of its records waits for a retry. -/
def pageReadCompleteGuard (account : AccountId) (s : State) : Bool :=
  (acctAt s account).retryAt.isNone && match (acctAt s account).pages with
    | p :: _ => pageArrived s p
    | [] => false

def pageReadCompleteEffect (account : AccountId) (s : State) : State := drainPage account s

def execPageReadComplete (account : AccountId) (s : State) : Host.Outcome State Fault Refusal :=
  .next (whenB (pageReadCompleteGuard account s) (pageReadCompleteEffect account) s)

def readbackRetryGuard (account : AccountId) (s : State) : Bool :=
  match (acctAt s account).retryAt with
  | some t => decide (t ≤ s.now)
  | none => false

def readbackRetryEffect (account : AccountId) (s : State) : State := drainPage account s

def execReadbackRetry (account : AccountId) (s : State) : Host.Outcome State Fault Refusal :=
  .next (whenB (readbackRetryGuard account s) (readbackRetryEffect account) s)

/-! SPILL_REMAP (R29, R306). -/

/-- The slices from which an account's pages are read: those of the lanes of the group that serves it. -/
def drainSlices (s : State) (a : AccountId) : List Nat :=
  (nextGrantSlice s a).val :: (groupLanes s (servingGroup s (acctGroup a))).map fun l => l.val / 4

/-- A page is lost to an account: its channel is frozen or was reset, or its owner is FAULTED or out of reach of a slice that drains
the account (R29, R306). -/
def pageLost (s : State) (a : AccountId) (p : SpillPage) : Bool :=
  p.lost || !(drainSlices s a).all fun k => chanReached s k p.chan

def spillRemapGuard (chan : ChanId) (s : State) : Bool :=
  (List.finRange 256).any fun a => (acctAt s a).pages.any fun p => p.chan == chan.val && pageLost s a p

/-- An account's lost pages in the channel are discarded and counted, with what is left of their reads; it goes on from its next
page, or from its tail. -/
def loseSpill (c : ChanId) (a : AccountId) (s : State) : State :=
  let gone := fun p : SpillPage => p.chan == c.val && pageLost s a p
  let lost := (acctAt s a).pages.filter gone
  if lost.isEmpty then s
  else
    let frames := lost.flatMap fun p => p.frames
    let first : Bool := (acctAt s a).pages.head?.any gone
    let s1 := modAcct s a fun x => restClasses { x with
      pages := x.pages.filter fun p => !gone p, retryAt := if first then none else x.retryAt, atCap := false }
    let keep := s1.path.spillUsed.filter fun n => !lost.any fun p => n == p.chan * chanPages + p.page
    let read := fun r : HbmReq => r.unit == 1 && !r.write && lost.any fun p => r.addr == pageAddr p.page
    let s2 := modChan { s1 with path := { s1.path with spillUsed := keep } } c fun x => { x with
      waiting := x.waiting.filter fun r => !read r, reads := x.reads.filter fun r => !read r }
    let s3 := count (aSpill 0x20) frames.length (count (aSpill 0x18) lost.length (foldS frames dropOwed s2))
    endSpill a (setFlag aSpillFlags 0 s3)

def spillRemapEffect (chan : ChanId) (s : State) : State := foldS (List.finRange 256) (loseSpill chan) s

def execSpillRemap (chan : ChanId) (s : State) : Host.Outcome State Fault Refusal :=
  .next (whenB (spillRemapGuard chan s) (spillRemapEffect chan) s)

/-! POOL_CARVE (R307). -/

/-- BUFFERS of a pool. -/
def carveCounts (r : Request) : List Nat := (List.range 5).map fun p => r.u32 (4 * p)

/-- Cells that a carving takes. -/
def carveCells (l : List Nat) : Nat := (List.range 5).foldl (fun n p => n + l.getD p 0 * poolCells p) 0

def poolCarveChecks (r : Request) (s : State) : List Check :=
  [ckLen r 20, ckRange (maskBad r s), ⟨r.maskSlices.any fun k => !(bufAt s k).stopped, .notStopped⟩,
   ckRange ((carveCounts r).any fun n => n == 0 || decide (81920 < n)),
   ⟨decide (81920 < carveCells (carveCounts r)) ||
      r.maskSlices.any fun k => (List.range 5).any fun p => decide (r.u32 (4 * p) < quotaSum (bufAt s k) p), .conflict⟩]

/-- The carving waits for FUNC_START. -/
def poolCarveApply (r : Request) (s : State) : Done :=
  okDone (foldS r.maskSlices (fun k st => modBuf st k fun b => { b with carvePend := some (carveCounts r) }) s)

def execPoolCarve (s : State) : Host.Outcome State Fault Refusal :=
  .next (runCommand 0x0400 poolCarveChecks poolCarveApply s)

/-! BUF_OWNER_SET (R308). -/

/-- The owner's settings after the request. -/
def ownerAfter (r : Request) (o : OwnerSt) : OwnerSt :=
  { o with quota := Vector.ofFn fun p : Fin 5 => r.u16 (4 + 2 * p.val), hyst := r.u16 14, warn := r.u32 16, pause := r.u32 20, drop := r.u32 24 }

/-- A slice's settings after the request. -/
def bufAfterOwner (r : Request) (b : BufSt) : BufSt :=
  if h : r.u8 0 < 17 then { b with owners := b.owners.set (r.u8 0) (ownerAfter r b.owners[r.u8 0]) } else b

def bufOwnerSetChecks (r : Request) (s : State) : List Check :=
  [ckLen r 32, ckRange (maskBad r s),
   ckRange (decide (16 < r.u8 0) || resv r 1 3 || resv r 28 4 || decide (4096 < r.u16 14) || decide (81920 < r.u32 16) ||
     decide (81920 < r.u32 20) || decide (81920 < r.u32 24)),
   ⟨decide (r.u32 20 < r.u32 16) || decide (r.u32 24 < r.u32 20) || r.maskSlices.any fun k => (List.range 5).any fun p =>
      decide ((poolAt (bufAt s k) p).buffers < quotaSum (bufAfterOwner r (bufAt s k)) p), .conflict⟩]

def bufOwnerSetApply (r : Request) (s : State) : Done :=
  okDone (foldS r.maskSlices (fun k st => refreshPressure k (modBuf st k (bufAfterOwner r))) s)

def execBufOwnerSet (s : State) : Host.Outcome State Fault Refusal :=
  .next (runCommand 0x0401 bufOwnerSetChecks bufOwnerSetApply s)

/-! BUF_PRIO_SET (R309). -/

def bpPause (r : Request) (i : Nat) : Nat := r.u32 (4 + 8 * i)
def bpDrop (r : Request) (i : Nat) : Nat := r.u32 (8 + 8 * i)

def bufPrioSetChecks (r : Request) (s : State) : List Check :=
  [ckLen r 68, ckRange (decide (r.u8 0 < 32) && !present s (r.u8 0 / 4)),
   ckRange (decide (31 < r.u8 0) || resv r 1 3 || (List.range 8).any fun i => decide (81920 < bpPause r i) || decide (81920 < bpDrop r i)),
   ⟨!portExists s (reqPort r) || (List.range 8).any fun i => bpPause r i != 0 && bpDrop r i != 0 && decide (bpDrop r i ≤ bpPause r i),
    .conflict⟩]

def bufPrioSetApply (r : Request) (s : State) : Done :=
  let k := laneSlice (reqPort r)
  okDone (refreshPressure k (modBuf s k fun b => { b with
    prios := vmod b.prios (laneIdx (reqPort r)) fun v => Vector.ofFn fun i : Fin 8 =>
      { v[i] with pause := bpPause r i.val, drop := bpDrop r i.val } }))

def execBufPrioSet (s : State) : Host.Outcome State Fault Refusal :=
  .next (runCommand 0x0402 bufPrioSetChecks bufPrioSetApply s)

/-! BUF_POOL_SET (R310). -/

def bufPoolSetChecks (r : Request) (s : State) : List Check :=
  [ckLen r 16, ckRange (maskBad r s),
   ckRange (decide (4 < r.u8 0) || resv r 1 3 || r.maskSlices.any fun k =>
     let n := (poolAt (bufAt s k) (r.u8 0)).buffers
     decide (n < r.u32 4) || decide (n < r.u32 8) || decide (n < r.u32 12)),
   ⟨decide (r.u32 4 < r.u32 8) || decide (r.u32 8 < r.u32 12), .conflict⟩]

def bufPoolSetApply (r : Request) (s : State) : Done :=
  let set := fun b : BufSt =>
    if h : r.u8 0 < 5 then { b with pools := b.pools.set (r.u8 0) { b.pools[r.u8 0] with warn := r.u32 4, pause := r.u32 8, drop := r.u32 12 } } else b
  okDone (foldS r.maskSlices (fun k st => refreshPressure k (modBuf st k set)) s)

def execBufPoolSet (s : State) : Host.Outcome State Fault Refusal :=
  .next (runCommand 0x0403 bufPoolSetChecks bufPoolSetApply s)

/-! SPILL_SET (R300, R311). -/

/-- Accounts that a SPILL_SET names. -/
def spillAccounts (r : Request) : List AccountId := (List.finRange 256).filter fun a => r.u16 0 == 0xFFFF || a.val == r.u16 0

def spillSetChecks (r : Request) (_ : State) : List Check :=
  [ckLen r 24,
   ckRange ((decide (255 < r.u16 0) && r.u16 0 != 0xFFFF) || decide (1 < r.u8 2) || resv r 3 1 || resv r 20 4 ||
     decide (r.u32 4 < 64) || decide (65535 < r.u32 4) || decide (r.u32 8 < 64) || decide (65535 < r.u32 8) ||
     decide (258048 < r.u32 12) || decide (r.u32 16 < 1) || decide (655360 < r.u32 16)),
   ⟨decide (r.u32 4 < r.u32 8), .conflict⟩]

/-- New values; ENABLE = 0 on a spilling account waits until it stops spilling. -/
def spillSettings (r : Request) (x : AccountSt) : AccountSt :=
  { x with
    spillOn := r.u32 4, refill := r.u32 8, maxPages := r.u32 12, acctDrop := r.u32 16,
    disableWhenDone := r.u8 2 == 0 && x.spilling,
    spillEnable := r.u8 2 != 0 || (x.spilling && x.spillEnable) }

def spillSetApply (r : Request) (s : State) : Done := okDone (foldS (spillAccounts r) (fun a st => modAcct st a (spillSettings r)) s)

def execSpillSet (s : State) : Host.Outcome State Fault Refusal :=
  .next (runCommand 0x0404 spillSetChecks spillSetApply s)

end Sys2Proof.Machine
end

