-- ==== Sys2Proof/Machine/Framing.lean ====
section
/-!
DEFINITION. Machine/Framing.lean: block lock, frame alignment, packet delineation, the port-ID filter and reassembly
(spec/03_downstream_framing.md).
-/
namespace Sys2Proof.Machine

/-! The header's fields (R50 to R53). -/

def hdrFn (h : BitVec 256) : Nat := fld h 168 32
def hdrAis (h : BitVec 256) : Bool := bitOf h 167
def hdrOam (h : BitVec 256) : Bool := bitOf h 166
def hdrEpochStart (h : BitVec 256) : Bool := bitOf h 165
def hdrTod (h : BitVec 256) : Bool := bitOf h 164
def hdrGmap (h : BitVec 256) : Nat := fld h 157 7
def hdrBip (h : BitVec 256) : BitVec 16 := h.extractLsb' 141 16
def hdrPtr (h : BitVec 256) : Nat := fld h 126 15
/-- TYPE and FAW as sent, bits [255:200]. -/
def fawWord : BitVec 56 := 0x1E5B3C96E1A47D#56
def hdrFaw (h : BitVec 256) : BitVec 56 := h.extractLsb' 200 56
/-- HCRC checks (R51). -/
def hcrcOk (h : BitVec 256) : Bool := crc16 ((bitsMsb h).take 240) == h.extractLsb' 0 16

/-- Words of the data region at a GMAP_LEN (R47). -/
def dataWords (g : Nat) : Nat := 4 * (7997 - g)

/-- PKT_PTR = none. -/
def noPtr : Nat := 0x7FFF

/-- The conditions of R52 other than HCRC. -/
def hdrContentOk (hb : Bool) (h : BitVec 256) : Bool :=
  hb && hdrFaw h == fawWord && decide (hdrGmap h ≤ 64) && decide (hdrFn h < fnWrap) &&
    (hdrEpochStart h == decide (hdrFn h % 100 = 0)) &&
    (decide (hdrPtr h < dataWords (hdrGmap h)) || hdrPtr h == noPtr)

/-- A valid header (R52). -/
def hdrValid (rx : HeaderRx) : Bool := hcrcOk rx.body && hdrContentOk rx.hdrBit rx.body

/-- A good FAW: at most 2 bits differ (R52). -/
def fawGood (rx : HeaderRx) : Bool := decide (popCount (hdrFaw rx.body ^^^ fawWord) ≤ 2)

/-! The frame under way as received: its data region and what is read from it (R45, R47, R48, R53, R55). -/

/-- The four words of a body. -/
def bodyWords (b : BitVec 256) : List (BitVec 64) := (List.range 4).map fun k => b.extractLsb' (192 - 64 * k) 64

/-- `n` words of the data region from word `w` on, as received; fewer where the frame ends. -/
def lineWords (x : LaneSt) (w n : Nat) : List (BitVec 64) :=
  let blocks := (x.rxBlocks.drop (2 + x.curG + w / 4)).take (n / 4 + 2)
  ((blocks.flatMap fun b => bodyWords b.body).drop (w % 4)).take n

/-- Words of a data region from word `w` on, descrambled with the number of their frame (R55, R59, R60). -/
def descramble (fn w : Nat) (ws : List (BitVec 64)) : List (BitVec 64) :=
  let ks := scramble (64 * ws.length) (scrambleFrom (64 * w) (frameSeed fn))
  (List.range ws.length).map fun i => ws.getD i 0 ^^^ BitVec.ofNat 64 (natOfBits ((ks.drop (64 * i)).take 64))

/-- `n` descrambled words of the frame under way. -/
def rxWords (x : LaneSt) (w n : Nat) : List (BitVec 64) := descramble x.fn w (lineWords x w n)

/-- The bytes of words, most significant first. -/
def wordBytes (ws : List (BitVec 64)) : List Byte := ws.flatMap fun w => vecBytes w

/-- BIP-16 over the data bodies of the frame under way, as received (R53). -/
def frameBip (x : LaneSt) : BitVec 16 := bipOf ((x.rxBlocks.drop (2 + x.curG)).map fun b => b.body)

/-- Blocks of the frame under way, its header apart, whose header bit disagrees with their position (R48). -/
def frameErrBlocks (x : LaneSt) : Nat :=
  ((x.rxBlocks.take (2 + x.curG)).filter fun b => !b.hdr).length + ((x.rxBlocks.drop (2 + x.curG)).filter fun b => b.hdr).length

/-! Packets leave the extractor in the order in which they began (R76). -/

/-- A whole downstream packet leaves the extractor: on its lane's slice it takes a TRUNK_RX buffer and enters the packet path
(R76, R196, R254, R282); the active protection group of a remote pair sends it on to the working device (R205, R446). -/
def deliverDown (g : GroupId) (l : Lane) (port : PortTag) (stamp : BitVec 96) (bytes : FrameBytes) (s : State) : State :=
  let k := laneSlice l
  let p : Packet := { bytes := bytes, src := { kind := 1, id := (workingOf s g).val }, portId := port, stamp := stamp }
  match (groupAt s g).pair with
  | some q =>
    if q.peer ≠ 0 ∧ q.working = false then
      let o := ownerId k.val unitTrunkRx
      match allocBuf k { owner := o, prio := 0, bytes := bytes.length, count := 0 } s with
      | (.ok w, s1) =>
        fabSend { dest := q.peer, deliver := 4, target := q.partner.val, cls := 2, portId := port.toNat }
          (ingressMarks s1 { p with buf := some w, owner := o, slice := k }) s1
      | (.error _, s1) => s1
    else receiveFrame k unitTrunkRx p s
  | none => receiveFrame k unitTrunkRx p s

/-- A packet begins: it takes the next place of its group and port-ID. -/
def openTicket (g : GroupId) (p : PortTag) (s : State) : State :=
  { s with trunk := { s.trunk with
      tickets := s.trunk.tickets + 1, extract := s.trunk.extract ++ [{ ticket := s.trunk.tickets, group := g, port := p }] } }

/-- Another packet of a group and port-ID. -/
def sameFlow (g : GroupId) (p : PortTag) (e : Extract) : Bool := e.group == g && e.port == p

/-- The whole packets at the front of a group and port-ID leave. -/
def releaseFront (g : GroupId) (p : PortTag) (s : State) : State :=
  let out := (s.trunk.extract.filter (sameFlow g p)).takeWhile fun e => e.ready.isSome
  let gone := out.map fun e => e.ticket
  let s1 := { s with trunk := { s.trunk with extract := s.trunk.extract.filter fun e => !gone.contains e.ticket } }
  foldS out (fun e st => match e.ready with
    | some (l, t, bytes) => deliverDown e.group l e.port t bytes st
    | none => st) s1

/-- A packet is whole: it leaves once those before it have left or failed. -/
def readyTicket (n : Nat) (l : Lane) (stamp : BitVec 96) (bytes : FrameBytes) (s : State) : State :=
  match s.trunk.extract.find? fun e => e.ticket == n with
  | some e =>
    releaseFront e.group e.port { s with trunk := { s.trunk with
      extract := s.trunk.extract.map fun x => if x.ticket = n then { x with ready := some (l, stamp, bytes) } else x } }
  | none => s

/-- A packet fails and gives up its place. -/
def dropTicket (n : Nat) (s : State) : State :=
  match s.trunk.extract.find? fun e => e.ticket == n with
  | some e => releaseFront e.group e.port { s with trunk := { s.trunk with extract := s.trunk.extract.filter fun x => x.ticket != n } }
  | none => s

/-! Settle windows and abort (R65, R74, R75). -/

/-- A settle window opens on a lane. -/
def openSettle (l : Lane) (s : State) : State :=
  modLane s l fun x => { x with settleLane := some s.now, settled := [] }

/-- A settle window opens for a port-ID on a lane. -/
def openSettlePort (l : Lane) (p : PortTag) (s : State) : State :=
  modLane s l fun x => { x with settlePorts := (p, s.now) :: x.settlePorts.filter fun q => q.1 != p }

/-- The port-ID is unsettled on the lane (R75). -/
def unsettled (x : LaneSt) (p : PortTag) : Bool :=
  (x.settleLane.isSome && !x.settled.contains p) || x.settlePorts.any fun q => q.1 == p

/-- The port-ID is settled from now on. -/
def settle (p : PortTag) (x : LaneSt) : LaneSt :=
  { x with settled := if x.settleLane.isSome && !x.settled.contains p then p :: x.settled else x.settled,
           settlePorts := x.settlePorts.filter fun q => q.1 != p }

/-- Decrypt pipe of a lane: slice * 2 + half of the local index (R335). -/
def pipeOf (l : Lane) : Fin 16 := ⟨l.val / 4 * 2 + l.val % 4 / 2, by omega⟩

/-- A packet of the lane of which words are still to come. -/
def cutJob (l : Lane) (j : DecJob) : Bool := j.lane == l && j.need != 0

/-- The packet under way on a lane is cut short and discarded (log 115). -/
def dropCutJobs (l : Lane) (s : State) : State :=
  let cut := s.crypto.pipes[pipeOf l].filter (cutJob l)
  let s1 := { s with crypto := { s.crypto with pipes := vmod s.crypto.pipes (pipeOf l) fun q => q.filter fun j => !cutJob l j } }
  foldS (cut.map fun j => j.ticket) dropTicket (modLane s1 l fun x => { x with oamPart := none })

/-- Abort: every context freed and counted, and a settle window for the lane (R74). -/
def abortContexts (l : Lane) (s : State) : State :=
  let cs := (laneAt s l).contexts
  let s1 := modLane (dropCutJobs l (count (aTrk l 0x90) cs.length s)) l fun x => { x with contexts := [], noCtx := [], settleDrop := [] }
  openSettle l (foldS (cs.map fun c => c.ticket) dropTicket s1)

/-- Delineation lost: contexts aborted, PD_LOST, PD_HUNT (R65). -/
def loseDelineation (l : Lane) (s : State) : State :=
  setFlag (aTrkFlags l) 4 (modLane (abortContexts l s) l fun x => { x with pdSync := false, ptrBad := false })

/-! Alignment (R56 to R62). -/

/-- The lane leaves SYNC for another state. -/
def leaveSync (l : Lane) (dest : Align) (s : State) : State :=
  let s1 := if (laneAt s l).pdSync then loseDelineation l s else s
  let s2 := modLane s1 l fun x => { x with
    align := dest, syncSince := none, oofSince := some s1.now, winOk := false, curValid := false, curOam := false, curTod := false,
    bipUsable := false, oofPrev := none, badFaw := 0 }
  match laneGroup s2 l with
  | some g => syncChanged g s2
  | none => s2

/-- Block lock lost: every candidate dropped, HUNT (R56, R57). -/
def loseBlockLock (l : Lane) (s : State) : State :=
  let s1 := if (laneAt s l).align == .sync then leaveSync l .hunt s else s
  setFlag (aTrkFlags l) 0 (modLane s1 l fun x => { x with blockLock := false, cands := [], align := .hunt, oofPrev := none })

/-- The stamp of a header now (R62): whole ticks of the group counter and the 1/64 part received. -/
def headerStamp (s : State) (g : GroupId) (rx : HeaderRx) : Stamp :=
  ((groupAt s g).ctr >>> 6) <<< 6 ||| rx.sub.setWidth 54

/-- Bursts staged on a prediction take the stamped slot edge; those with a PTP event message are fogged (R158, R165). -/
def restamp (g : GroupId) (l : Lane) (e : Nat) (s : State) : State :=
  let hit := fun b : Latent => b.lane == l && b.epoch == e && !b.stamped
  let s1 := fog g fogRestamp (fun b => hit b && b.packets.any fun p => p.correction.isSome) .stands false s
  let upd := fun b : Latent =>
    if hit b then
      match slotEdge s1 g l e (gStart b.grant) with
      | some (t, _) => { b with edge := t, stamped := true }
      | none => b
    else b
  modGroup s1 g fun x => { x with latents := x.latents.map upd }

/-- The stamp of frame FN of a pending switch is recorded, and bursts whose packets change sides are fogged (R343). -/
def stampSwitches (g : GroupId) (l : Lane) (fn : Nat) (st : Stamp) (s : State) : State :=
  foldS (s.crypto.slots.map fun p => p.1) (fun n a => match (slotAt a n).switch with
    | some sw =>
      if sw.group = g ∧ sw.fn = fn then
        fogKeyBursts n (modSlot a n fun k => { k with switch := some { sw with
          stamps := (l, st) :: sw.stamps.filter fun q => q.1 != l } })
      else a
    | none => a) s

/-- A checked header is stamped; frame 0 of an epoch keeps its stamp with whether the verified position was held (R62,
R101). -/
def stampFrame (g : GroupId) (l : Lane) (fn : Nat) (st : Stamp) (held : Bool) (s : State) : State :=
  let s1 := modLane s l fun x => { x with stampCur := st, stampFn := some fn }
  let s2 := stampSwitches g l fn st s1
  if fn % 100 = 0 then
    let s3 := modLane s2 l fun x => { x with
      trxLast := st, epochStamps := ({ epoch := epochOf fn, stamp := st, held := held } :: x.epochStamps).take 130 }
    let s4 := restamp g l (epochOf fn) s3
    if held then s4 else fogLaneBursts g l (fun b => b.epoch == epochOf fn) s4
  else s2

/-- A value in force keeps its force under a new numbering of frames: the last one applied counts as old, one that waits keeps
the epoch it names. -/
def renumberValues {α : Type} (e : Nat) (waits : Nat × α → Bool) (l : List (Nat × α)) : List (Nat × α) :=
  (l.filter waits) ++ (match l.filter fun p => !waits p with
    | (_, v) :: _ => [((e + epochWrap - 128) % epochWrap, v)]
    | [] => [])

/-- Frame numbers go on at epoch `e`: what the old numbering left at or after it is let go, and what is in force stays so. -/
def renumber (e : Nat) (x : LaneSt) : LaneSt :=
  { x with
    maps := x.maps.filter fun m => !epochLe e m.1, tables := x.tables.filter fun t => !epochLe e t.1,
    changes := x.changes.filter fun c => !epochLe e c.1, epochStamps := x.epochStamps.filter fun p => !epochLe e p.epoch,
    plan := x.plan.map fun p => { p with fromEpoch := e },
    eqds := renumberValues e (fun p => some p == x.eqdPend) x.eqds,
    leaders := renumberValues e (fun p => some p == x.leaderPend) x.leaders }

/-- Open grants of begun epochs whose tables a new numbering lets go. -/
def staleGrants (e cur : Nat) (x : LaneSt) : Nat :=
  ((x.tables.filter fun t => epochLe e t.1 && epochLe t.1 cur).flatMap fun t => t.2.filter fun u => !u.done).length

/-- A lane goes on under a new numbering from epoch `e`: the grants of begun epochs that it lets go are missed, and developed
bursts for them are lost (R119, R164).  A jump within the epoch under way renumbers nothing. -/
def renumberLane (g : GroupId) (l : Lane) (e : Nat) (s : State) : State :=
  let cur := curEpoch s l
  if e = cur then s
  else
    let n := staleGrants e cur (laneAt s l)
    let s1 := whenB (decide (0 < n)) (fun st => setFlag (aGntFlags l) 4 (count (aGnt l 0x30) n st)) s
    let s2 := modLane (loseDevelopedWhere g (fun b => b.lane == l && epochLe e b.epoch) s1) l (renumber e)
    let waits := fun (x : GroupSt) (p : Nat × Nat × Nat × Bool) => x.pendApply.any fun m => m.1 == p.1 && (match m.2 with
      | .policy _ _ _ => true
      | _ => false)
    if epochLe cur e then s2
    else modGroup s2 g fun x => { x with policies := renumberValues e (waits x) x.policies }

/-- Only standing grants of the epochs that have not begun stay (R119). -/
def dropUnbegun (cur : Nat) (x : LaneSt) : LaneSt :=
  { x with
    maps := x.maps.filter fun m => epochLe m.1 cur,
    tables := x.tables.map fun t => if epochLe t.1 cur then t else (t.1, t.2.filter fun u => gStanding u.raw && gTerm u.raw != 254),
    changes := x.changes.filter fun c => epochLe c.1 cur }

/-- A break of the FN sequence (R60, R119). -/
def fnJump (g : GroupId) (l : Lane) (fn : Nat) (s : State) : State :=
  let s1 := setFlag (aTrkFlags l) 3 (count1 (aTrk l 0x38) s)
  let s2 := modLane s1 l fun x => { dropUnbegun (curEpoch s l) x with jumpHold := some (wholeFrom fn), winOk := false }
  renumberLane g l (epochOf fn) (fogLaneBursts g l (fun _ => true) s2)

/-- A window ends where a frame of another epoch begins, or frame 0 of the same one again; the next goes by the thresholds in force
(R183, R213). -/
def turnWindow (thresh : Nat × Nat) (fn : Nat) (x : LaneSt) : LaneSt :=
  if fn % 100 = 0 ∨ x.winEpoch ≠ some (epochOf fn) then
    { x with
      winPend := if x.winEpoch.isSome then some (x.winBits, x.winOk) else x.winPend, winEpoch := some (epochOf fn), winBits := 0,
      winOk := fn % 100 == 0 && x.align == .sync, endSf := x.winSf, endSd := x.winSd, winSf := thresh.1, winSd := thresh.2 }
  else x

/-- The thresholds of a group for its next window. -/
def windowThresh (s : State) (g : GroupId) : Nat × Nat := ((groupAt s g).sfThresh, (groupAt s g).sdThresh)

/-- The windows that passed while the lane had no position counted nothing (R183). -/
def skipWindows (fn : Nat) (x : LaneSt) : LaneSt :=
  match x.winEpoch with
  | some e => if epochOf fn = e ∨ epochOf fn = epochAdd e 1 then x else { x with winBits := 0 }
  | none => x

/-- BIP verdict over the frame that ended; it belongs to the second in which the frame's own header was checked (R53, R54,
R209). -/
def bipVerdict (l : Lane) (rx : HeaderRx) (s : State) : State :=
  let x := turnSecond s.time.sec.toNat (laneAt s l)
  if x.bipUsable && x.curValid && hdrValid rx then
    let n := popCount (hdrBip rx.body ^^^ frameBip x)
    if n = 0 then s
    else modLane (count1 (aPrtLane l 0x28) (count (aTrk l 0x30) n (count1 (aTrk l 0x28) s))) l fun _ =>
      if x.frameSec = x.secNo then { x with winBits := x.winBits + n, eframes := x.eframes + 1, bipSec := x.bipSec + n }
      else { x with winBits := x.winBits + n, prevEframes := x.prevEframes + 1, prevBip := x.prevBip + n }
  else s

/-- PKT_PTR against the header chain, with the chain's next word already counted in this frame (R65). -/
def checkPtr (l : Lane) (ptr D : Nat) (s : State) : State :=
  let x := laneAt s l
  if !x.pdSync then
    if ptr < D then openSettle l (modLane s l fun y => { y with pdSync := true, nextWord := ptr, ptrBad := false }) else s
  else
    let agree := if ptr = noPtr then decide (D ≤ x.nextWord) else x.nextWord == ptr
    if agree then modLane s l fun y => { y with ptrBad := false }
    else
      let s1 := setFlag (aTrkFlags l) 5 (count1 (aTrk l 0x50) s)
      if !x.ptrBad then modLane s1 l fun y => { y with ptrBad := true }
      else if ptr = noPtr then loseDelineation l s1
      else modLane (abortContexts l s1) l fun y => { y with nextWord := ptr, ptrBad := false }

/-- AIS declared or cleared after 3 consecutive valid headers (R182). -/
def countAis (l : Lane) (a : Bool) (s : State) : State :=
  let x := laneAt s l
  if x.ais = a then modLane s l fun y => { y with aisRun := 0 }
  else if 3 ≤ x.aisRun + 1 then changeDefects l (fun y => { y with ais := a, aisRun := 0 }) s
  else modLane s l fun y => { y with aisRun := y.aisRun + 1 }

/-- Counts and defects of a checked header, and the blocks of the frame before it that disagree with their positions (R48, R52,
R54, R57).  A frame checked in OOF counts them too (DESIGN CHOICE, log 116). -/
def checkHeader (l : Lane) (rx : HeaderRx) (s : State) : State :=
  let v := hdrValid rx
  let s1 := count (aTrk l 0x08) (frameErrBlocks (laneAt s l) + (!rx.hdrBit).toNat) s
  let s2 := whenB (!fawGood rx) (count1 (aTrk l 0x18)) s1
  let s2a := modLane s2 l fun y => { turnSecond s.time.sec.toNat y with frameSec := s.time.sec.toNat }
  let s3 := if v then s2a
    else modLane (count1 (aPrtLane l 0x28) (count1 (aTrk l 0x20) s2a)) l fun y => { y with eframes := y.eframes + 1 }
  let s4 := whenB (!v && hcrcOk rx.body) (setFlag (aTrkFlags l) 6) s3
  let s5 := modLane s4 l fun y => { y with lastGoodFaw := if fawGood rx then some s4.now else y.lastGoodFaw }
  if v then countAis l (hdrAis rx.body) s5 else s5

/-- The 64-byte units of a payload (R67). -/
def oamSplit (b : List Byte) : List (BitVec 512) :=
  (List.range (b.length / 64)).map fun i => vecOfBytes 512 ((b.drop (64 * i)).take 64)

/-- The words of the packet under way that the new frame brings (R47, R63). -/
def continuePacket (l : Lane) (s : State) : State :=
  let x := laneAt s l
  let fill := fun j : DecJob => if cutJob l j then { j with data := j.data ++ wordBytes (rxWords x 0 j.need), need := 0 } else j
  let s1 := { s with crypto := { s.crypto with pipes := vmod s.crypto.pipes (pipeOf l) fun q => q.map fill } }
  match x.oamPart with
  | some (b, n) => modLane s1 l fun y => { y with oamPart := none, oamUnits := y.oamUnits ++ oamSplit (b ++ wordBytes (rxWords x 0 n)) }
  | none => s1

/-- At a frame boundary of the group that a switch has made active, the downstream selector moves to it, and a settle window opens on
every lane of it (R203). -/
def moveSelector (g : GroupId) (s : State) : State :=
  if activeGroup s g && !selected s g then
    foldS (groupLanes s g) openSettle (modGroup s (pairHome s g) fun x => { x with prot := { x.prot with selWorking := x.prot.activeWorking } })
  else s

/-- A frame begins in SYNC: its number, header length, stamp, window, delineation and what it may carry (R59 to R62, R65). -/
def beginFrame (g : GroupId) (l : Lane) (rx : HeaderRx) (fn : Nat) (s : State) : State :=
  let v := hdrValid rx
  let x := laneAt s l
  let gl := if v then hdrGmap rx.body else x.gmapLen
  let s1 := modLane (moveSelector g s) l fun z => let y := turnWindow (windowThresh s g) fn z; { y with
    fn := fn, curG := gl, curValid := v, curOam := v && hdrOam rx.body, curTod := v && hdrTod rx.body, mapsTaken := 0, rxBlocks := rx.blocks,
    regFn := if v then hdrFn rx.body else y.regFn, gmapLen := gl, bipUsable := true,
    nextWord := y.nextWord - dataWords y.curG }
  let s2 := whenB v (count1 (aTrk l 0x10)) s1
  let s3 := stampFrame g l fn (headerStamp s2 g rx) true s2
  continuePacket l (if v then checkPtr l (hdrPtr rx.body) (dataWords gl) s3 else s3)

/-- A confirming header moves the lane into SYNC (R57). -/
def gainSync (g : GroupId) (l : Lane) (rx : HeaderRx) (s : State) : State :=
  let fn := hdrFn rx.body
  let s0 := whenB (!epochLe (epochOf (laneAt s l).fn) (epochOf fn)) (renumberLane g l (epochOf fn)) s
  let s1 := setFlag (aTrkFlags l) 1 (modLane s0 l fun z => let y := skipWindows fn z; { y with
    align := .sync, verified := rx.pos, cands := [], badFaw := 0, oofPrev := none, syncSince := some s.now, oofSince := none,
    bipUsable := false, winOk := false, pdSync := false, ptrBad := false,
    jumpHold := y.jumpHold.map fun _ => wholeFrom fn })
  syncChanged g (beginFrame g l rx fn s1)

/-- A header at the verified position in SYNC (R57, R59, R60). -/
def syncHeader (g : GroupId) (l : Lane) (rx : HeaderRx) (s : State) : State :=
  let x := laneAt s l
  let next := fnNext x.fn
  let bad := if fawGood rx then 0 else x.badFaw + 1
  let s1 := bipVerdict l rx (modLane s l fun y => { y with verified := rx.pos, badFaw := bad })
  let s2 := checkHeader l rx s1
  if 4 ≤ bad then
    let s3 := leaveSync l .oof (setFlag (aTrkFlags l) 2 (modLane s2 l (turnWindow (windowThresh s g) next)))
    stampFrame g l next (headerStamp s3 g rx) false (modLane s3 l fun y => { y with
      fn := next, rxBlocks := rx.blocks, curG := if hdrValid rx then hdrGmap rx.body else y.gmapLen })
  else if hdrValid rx && hdrFn rx.body != next then
    beginFrame g l rx (hdrFn rx.body) (fnJump g l (hdrFn rx.body) s2)
  else beginFrame g l rx next s2

/-- A header at the verified position in OOF (R57). -/
def oofHeader (g : GroupId) (l : Lane) (rx : HeaderRx) (s : State) : State :=
  let x := laneAt s l
  let v := hdrValid rx
  let fn := if v then hdrFn rx.body else fnNext x.fn
  let s1 := modLane (checkHeader l rx s) l fun y => { y with
    verified := rx.pos, fn := fn, rxBlocks := rx.blocks, curG := if v then hdrGmap rx.body else y.gmapLen }
  if v && x.oofPrev.any (fun n => hdrFn rx.body == fnNext n) then gainSync g l rx s1
  else stampFrame g l fn (headerStamp s1 g rx) false
    (modLane s1 l fun y => { turnWindow (windowThresh s g) fn y with oofPrev := if v then some fn else none })

/-- A valid header found while hunting is recorded, up to four (R58). -/
def recordCand (l : Lane) (rx : HeaderRx) (s : State) : State :=
  if hdrValid rx then
    if (laneAt s l).cands.length < 4 then
      modLane s l fun y => { y with
        cands := y.cands ++ [{ pos := rx.pos, fn := hdrFn rx.body }],
        align := if y.align == .hunt then .presync else y.align }
    else count1 (aTrk l 0xC0) s
  else s

/-- A header position while hunting (R57, R58). -/
def huntHeader (g : GroupId) (l : Lane) (rx : HeaderRx) (s : State) : State :=
  match (laneAt s l).cands.find? fun c => c.pos + 8000 == rx.pos with
  | some c =>
    if hdrValid rx && hdrFn rx.body == fnNext c.fn then gainSync g l rx s
    else
      recordCand l rx (count1 (aTrk l 0xB8) (modLane s l fun y =>
        let rest := y.cands.filter fun d => d != c
        { y with cands := rest, align := if y.align == .presync && rest.isEmpty then .hunt else y.align }))
  | none => recordCand l rx s

/-- Index of the lane's receiver among the serial lanes: 11 per slice, line lanes at 4 to 7. -/
def lineSerial (l : Lane) : Fin 88 := ⟨11 * (l.val / 4) + 4 + l.val % 4, by omega⟩

/-! TRUNK_FRAME loop-back (R426). -/

/-- The lane runs a TRUNK_FRAME loop. -/
def trunkLoop (s : State) (l : Lane) : Bool := s.serdes.lanes[lineSerial l].loop == .trunkFrame

/-- A valid header of an even frame received in SYNC calls for a loop burst LOOP_DELAY ticks later with the frame's data
region, descrambled (R55, R426). -/
def loopFrame (l : Lane) (rx : HeaderRx) (s : State) : State :=
  let fn := hdrFn rx.body
  if hdrValid rx && fn % 2 == 0 then
    { s with serdes := { s.serdes with lanes := vmod s.serdes.lanes (lineSerial l) fun x =>
      { x with loopDue := x.loopDue ++ [{ at_ := s.now + x.loopDelay, fn := fn, len := 34 + (7997 - hdrGmap rx.body),
                                          words := descramble fn 0 ((rx.blocks.drop (2 + hdrGmap rx.body)).flatMap fun b => bodyWords b.body) }] } } }
  else s

/-- The lane is in SYNC at a header. -/
def loopSync (l : Lane) (rx : HeaderRx) (s : State) : State :=
  loopFrame l rx (modLane s l fun y => { y with
    align := .sync, verified := rx.pos, cands := [], badFaw := 0, oofPrev := none, fn := hdrFn rx.body, curValid := hdrValid rx })

/-- Frame alignment of a lane in a TRUNK_FRAME loop (R56 to R58); the counters of R77 do not advance. -/
def loopHeader (l : Lane) (rx : HeaderRx) (s : State) : State :=
  let x := laneAt s l
  if x.align == .sync then
    if rx.pos != x.verified + 8000 then s
    else
      let bad := if fawGood rx then 0 else x.badFaw + 1
      let s1 := modLane s l fun y => { y with
        verified := rx.pos, badFaw := bad, curValid := hdrValid rx, fn := if hdrValid rx then hdrFn rx.body else fnNext y.fn }
      if 4 ≤ bad then modLane s1 l fun y => { y with align := .oof, oofPrev := none, badFaw := 0 } else loopFrame l rx s1
  else if x.align == .oof && rx.pos == x.verified + 8000 then
    if hdrValid rx && x.oofPrev.any (fun n => hdrFn rx.body == fnNext n) then loopSync l rx s
    else modLane s l fun y => { y with verified := rx.pos, oofPrev := if hdrValid rx then some (hdrFn rx.body) else none }
  else
    match x.cands.find? fun c => c.pos + 8000 == rx.pos with
    | some c =>
      if hdrValid rx && hdrFn rx.body == fnNext c.fn then loopSync l rx s
      else modLane s l fun y =>
        let rest := y.cands.filter fun d => d != c
        let more := if hdrValid rx && decide (rest.length < 4) then rest ++ [{ pos := rx.pos, fn := hdrFn rx.body }] else rest
        { y with cands := more, align := if more.isEmpty then .hunt else .presync }
    | none =>
      if hdrValid rx && decide (x.cands.length < 4) then modLane s l fun y => { y with
        cands := y.cands ++ [{ pos := rx.pos, fn := hdrFn rx.body }], align := .presync }
      else s

/-! BLOCK_LOCK_WINDOW, BLOCK_LOCK_LOST, FRAME_HEADER_RX. -/

/-- The CDR is in lock and the lane status input is not asserted. -/
def lineSignal (s : State) (l : Lane) : Bool := s.serdes.cdrLock[lineSerial l] && !s.pins.llos[l]

def blockLockWindowGuard (lane : Lane) (counts : List Nat) (s : State) : Bool :=
  ((laneGroup s lane).isSome || trunkLoop s lane) && lineSignal s lane && counts.length == 257

/-- A window of 1,024 blocks (R56); of several positions that qualify the lowest wins (DESIGN CHOICE, log 118). -/
def blockLockWindowEffect (lane : Lane) (counts : List Nat) (s : State) : State :=
  let x := laneAt s lane
  if x.blockLock then
    if 80 < counts.getD x.lockPos 1024 then loseBlockLock lane s else s
  else
    match (List.range 257).find? fun p => decide (counts.getD p 1024 ≤ 80) with
    | some p => modLane s lane fun y => { y with blockLock := true, lockPos := p, align := .hunt, cands := [] }
    | none => s

def execBlockLockWindow (lane : Lane) (counts : List Nat) (s : State) : Host.Outcome State Fault Refusal :=
  .next (whenB (blockLockWindowGuard lane counts s) (blockLockWindowEffect lane counts) s)

/-- The lane status input takes a new level, or block lock has no signal behind it. -/
def blockLockLostGuard (lane : Lane) (llos : Bool) (s : State) : Bool :=
  s.pins.llos[lane] != llos || ((laneAt s lane).blockLock && !lineSignal s lane)

/-- The level at the lane status input; block lock is lost at once where the CDR has none or the modem asserts loss of signal
(R56; the event brings the input's level, log 131). -/
def blockLockLostEffect (lane : Lane) (llos : Bool) (s : State) : State :=
  let s1 := { s with pins := { s.pins with llos := s.pins.llos.set lane llos } }
  if (laneAt s1 lane).blockLock && !lineSignal s1 lane then loseBlockLock lane s1 else s1

def execBlockLockLost (lane : Lane) (llos : Bool) (s : State) : Host.Outcome State Fault Refusal :=
  .next (whenB (blockLockLostGuard lane llos s) (blockLockLostEffect lane llos) s)

def frameHeaderRxGuard (lane : Lane) (s : State) : Bool :=
  (laneAt s lane).blockLock && ((laneGroup s lane).isSome || trunkLoop s lane)

/-- The frame number of a lane in SYNC or OOF is the one that its group holds, at the instant of its header (R353). -/
def holdFn (g : GroupId) (l : Lane) (s : State) : State :=
  let x := laneAt s l
  if x.align == .sync || x.align == .oof then modGroup s g fun y => { y with lastFn := some (x.fn, s.now) } else s

/-- A header position (R57): the verified one in SYNC or OOF, or one met while hunting. -/
def frameHeaderRxEffect (lane : Lane) (rx : HeaderRx) (s : State) : State :=
  let x := laneAt s lane
  match laneGroup s lane with
  | some g =>
    if x.align == .sync then (if rx.pos = x.verified + 8000 then holdFn g lane (syncHeader g lane rx s) else s)
    else if x.align == .oof && rx.pos == x.verified + 8000 then holdFn g lane (oofHeader g lane rx s)
    else holdFn g lane (huntHeader g lane rx s)
  | none => loopHeader lane rx s

def execFrameHeaderRx (lane : Lane) (rx : HeaderRx) (s : State) : Host.Outcome State Fault Refusal :=
  .next (whenB (frameHeaderRxGuard lane s) (frameHeaderRxEffect lane rx) s)

/-! Trunk packets (R63 to R75). -/

def phPort (h : BitVec 64) : PortTag := h.extractLsb' 44 20
def phLen (h : BitVec 64) : Nat := fld h 30 14
def phLast (h : BitVec 64) : Bool := bitOf h 29
def phKey (h : BitVec 64) : Half := if bitOf h 28 then 1 else 0
def phType (h : BitVec 64) : Nat := fld h 26 2
/-- Words of a packet (R63). -/
def phWords (h : BitVec 64) : Nat := 1 + ceilDiv (phLen h) 8

/-- The filter entry of a port-ID: its index and content (R68). -/
def filterMatch (s : State) (g : GroupId) (p : PortTag) : Option (Nat × FilterEntry) :=
  match s.trunk.filter.find? fun e => e.1 / 4096 == g.val && e.2.valid && e.2.port == p with
  | some e => some (e.1 % 4096, e.2)
  | none => none

/-- The context of a port-ID that is open for further fragments. -/
def openCtx (x : LaneSt) (p : PortTag) : Option ReasmCtx := x.contexts.find? fun c => c.port == p

/-- The context's place in the order of leaving. -/
def ctxTicket (x : LaneSt) (id : Nat) : Option Nat :=
  match (x.contexts ++ x.closed).find? fun c => c.id == id with
  | some c => some c.ticket
  | none => none

def modCtx (l : Lane) (id : Nat) (f : ReasmCtx → ReasmCtx) (s : State) : State :=
  modLane s l fun x => { x with
    contexts := x.contexts.map fun c => if c.id = id then f c else c, closed := x.closed.map fun c => if c.id = id then f c else c }

/-- A context is let go, its packet's place kept. -/
def dropCtx (l : Lane) (id : Nat) (s : State) : State :=
  modLane s l fun x => { x with contexts := x.contexts.filter fun c => c.id != id, closed := x.closed.filter fun c => c.id != id }

/-- LAST = 1 closes a context: its place is free, and its packet waits for decryption (R73). -/
def closeCtx (l : Lane) (id : Nat) (s : State) : State :=
  modLane s l fun x => { x with
    contexts := x.contexts.filter fun c => c.id != id, closed := x.closed ++ x.contexts.filter fun c => c.id == id }

/-- Its packet, if it still has a place, gives it up. -/
def giveUpCtx (l : Lane) (id : Nat) (s : State) : State :=
  match ctxTicket (laneAt s l) id with
  | some n => dropTicket n s
  | none => s

/-- A context is freed and its packet lost. -/
def freeCtx (l : Lane) (id : Nat) (s : State) : State := dropCtx l id (giveUpCtx l id s)

/-- A context enters DISCARD (R74). -/
def discardCtx (l : Lane) (id : Nat) (s : State) : State :=
  modCtx l id (fun c => { c with discard := true, discardAt := s.now, bytes := [] }) (giveUpCtx l id s)

/-- Why a kept header is discarded without decryption: a counter, or nothing (R68, R353, R355). -/
def keyRefusal (s : State) (g : GroupId) (l : Lane) (e : FilterEntry) (h : BitVec 64) : Option Nat :=
  let k := slotAt s e.slot
  let half := phKey h
  let sl := l.val / 4
  if e.clear then (if phLen h = 0 then some (aTrk l 0x88) else none)
  else if phLen h < 17 then some (aTrk l 0x88)
  else if k.erasing || k.halves[half].state == .empty || !k.down then some (aCip sl 0x28)
  else if k.halves[half].state == .retired || (overrun s e.slot half (phLen h - 16)).isSome then some (aCip sl 0x30)
  else if !downUsable k g l (laneAt s l).fn s.now half then some (aCip sl 0x38)
  else none

/-- A half that the packet would overrun is retired (R353). -/
def retireOverrun (s : State) (e : FilterEntry) (h : BitVec 64) : State :=
  if e.clear || decide (phLen h < 17) || (slotAt s e.slot).erasing || !(slotAt s e.slot).down then s
  else if (halfAt s e.slot (phKey h)).state == .loaded then
    match overrun s e.slot (phKey h) (phLen h - 16) with
    | some c => retireHalf e.slot (phKey h) c s
    | none => s
  else s

/-- The ingress stamp of the packet header just taken: the frame header's stamp and 1.25 ns for each block and part of a block
up to the header's first bit, as device time (R381). -/
def packetStamp (s : State) (g : GroupId) (l : Lane) (h : BitVec 64) : BitVec 96 :=
  let x := laneAt s l
  let w := x.nextWord - phWords h
  let k := 3 + x.curG + w / 4
  stampOfUnits ((timeUnits s : Int) + stampDiff x.stampCur (groupAt s g).ctr * 1280 +
    (81920 * k + 81920 * (1 + 64 * (w % 4)) / 257 : Nat)).toNat

/-- A packet or fragment enters its decrypt pipe with the payload that its frame holds; its key is latched and its invocation
counted as decryption starts (R338, R346, R350, R351, R355). -/
def pushJob (g : GroupId) (l : Lane) (h : BitVec 64) (idx : Nat) (e : FilterEntry) (ctx : Option Nat) (ticket : Nat) (s : State) : State :=
  let x := laneAt s l
  let w := x.nextWord - phWords h
  let here := min (phWords h - 1) (dataWords x.curG - (w + 1))
  let k := halfAt s e.slot (phKey h)
  let j : DecJob := { lane := l, port := phPort h, last := phLast h, ctx := ctx, clear := e.clear, slot := e.slot,
                      half := phKey h, group := g, entry := idx, length := phLen h, fn := x.fn, stamp := packetStamp s g l h,
                      header := h, word := w, spec := laneSpec s g l, aes256 := k.aes256, key := k.key, salt := k.salt, gen := k.gen,
                      data := wordBytes (rxWords x (w + 1) here), need := phWords h - 1 - here, ticket := ticket }
  let s1 := { s with crypto := { s.crypto with pipes := vmod s.crypto.pipes (pipeOf l) fun q => q ++ [j] } }
  if e.clear then s1
  else count (aCip (l.val / 4) 0x18) (encBlocks (phLen h - 16)) (consume e.slot (phKey h) (phLen h - 16) s1)

/-- A new context (R73). -/
def newCtx (l : Lane) (p : PortTag) (idx : Nat) (e : FilterEntry) (disc : Bool) (st : BitVec 96) (ticket : Nat) (s : State) : State :=
  modLane s l fun x => { x with
    ctxSeq := x.ctxSeq + 1,
    contexts := x.contexts ++ [{ id := x.ctxSeq, port := p, discard := disc, startAt := s.now, discardAt := s.now,
                                 entry := idx, clear := e.clear, slot := e.slot, stamp := st, ticket := ticket }] }

/-- A first or only fragment, kept (R73, R74, R76). -/
def firstFragment (g : GroupId) (l : Lane) (h : BitVec 64) (idx : Nat) (e : FilterEntry) (s : State) : State :=
  let free := decide ((laneAt s l).contexts.length < 256)
  let s0 := retireOverrun s e h
  let n := s0.trunk.tickets
  match keyRefusal s0 g l e h with
  | some c =>
    let s1 := count1 c s0
    if phLast h then s1
    else if free then newCtx l (phPort h) idx e true (packetStamp s0 g l h) n s1
    else modLane (count1 (aTrk l 0xA8) s1) l fun x => { x with noCtx := phPort h :: x.noCtx }
  | none =>
    if phLast h then pushJob g l h idx e none n (openTicket g (phPort h) s0)
    else if free then
      pushJob g l h idx e (some (laneAt s0 l).ctxSeq) n
        (newCtx l (phPort h) idx e false (packetStamp s0 g l h) n (openTicket g (phPort h) s0))
    else modLane (count1 (aTrk l 0xA8) s0) l fun x => { x with noCtx := phPort h :: x.noCtx }

/-- A further fragment of an open context, under the decision of its first fragment (R69, R73, R74). -/
def nextFragment (g : GroupId) (l : Lane) (h : BitVec 64) (c : ReasmCtx) (s : State) : State :=
  let e : FilterEntry := { valid := true, clear := c.clear, port := c.port, slot := c.slot }
  if c.discard then (if phLast h then freeCtx l c.id s else s)
  else
    let s0 := retireOverrun s e h
    match keyRefusal s0 g l e h with
    | some k =>
      let s1 := count1 k s0
      if phLast h then freeCtx l c.id s1 else discardCtx l c.id s1
    | none => pushJob g l h c.entry e (some c.id) c.ticket (if phLast h then closeCtx l c.id s0 else s0)

/-- A header whose packet is being dropped since its first fragment, by a settle window or for want of a context (R69, R73,
R75). -/
def dropping (x : LaneSt) (p : PortTag) : Bool := x.noCtx.contains p || x.settleDrop.contains p

/-- LAST = 1 of a packet being dropped. -/
def endDropping (p : PortTag) (x : LaneSt) : LaneSt :=
  { x with noCtx := x.noCtx.filter fun q => q != p, settleDrop := x.settleDrop.filter fun q => q != p }

/-- A further header of a packet being dropped: one that a settle window discards is counted, and its LAST = 1 settles the
port-ID (R73, R75). -/
def droppedHeader (l : Lane) (h : BitVec 64) (s : State) : State :=
  let p := phPort h
  let bySettle := (laneAt s l).settleDrop.contains p
  let s1 := whenB bySettle (count1 (aTrk l 0xB0)) s
  if phLast h then modLane s1 l fun y => (if bySettle then settle p else fun z => z) (endDropping p y) else s1

/-- A header of the group that the selector of its pair does not pass: discarded; a LAST = 1 still ends what is being dropped (R197). -/
def standbyHeader (g : GroupId) (l : Lane) (h : BitVec 64) (s : State) : State :=
  modLane (count1 (aPrt g 0x28) s) l (if phLast h then endDropping (phPort h) else fun y => y)

/-- A kept header (R68, R73, R75, R197).  A header that a settle window, a DISCARD context, the want of a context or a standby
drops is not also counted in TRK_PKT_BAD for its LENGTH (DESIGN CHOICE, log 117). -/
def keptHeader (g : GroupId) (l : Lane) (h : BitVec 64) (idx : Nat) (e : FilterEntry) (s : State) : State :=
  let s1 := count (aTrk l 0x68) (phLen h) (count1 (aTrk l 0x60) s)
  let x := laneAt s1 l
  let p := phPort h
  if !selected s1 g then standbyHeader g l h s1
  else
    match openCtx x p with
    | some c => nextFragment g l h c s1
    | none =>
      if dropping x p then droppedHeader l h s1
      else if unsettled x p then
        let s2 := count1 (aTrk l 0xB0) s1
        if phLast h then modLane s2 l (settle p) else modLane s2 l fun y => { y with settleDrop := p :: y.settleDrop }
      else firstFragment g l h idx e s1

/-- A TYPE 0b00 header: kept or dropped by the filter; a packet under way keeps its first fragment's decision (R68, R69). -/
def dataHeader (g : GroupId) (l : Lane) (h : BitVec 64) (s : State) : State :=
  match openCtx (laneAt s l) (phPort h) with
  | some c => keptHeader g l h c.entry { valid := true, clear := c.clear, port := c.port, slot := c.slot } s
  | none =>
    if dropping (laneAt s l) (phPort h) then keptHeader g l h 0 {} s
    else
      match filterMatch s g (phPort h) with
      | some (i, e) => keptHeader g l h i e s
      | none => count (aTrk l 0x78) (phLen h) (count1 (aTrk l 0x70) s)

/-- The payload of an accepted OAM packet: its units wait for the OAM receiver, once all of its words have come (R67). -/
def oamPayload (l : Lane) (h : BitVec 64) (s : State) : State :=
  modLane s l fun x =>
    let w := x.nextWord - phWords h
    let here := min (phWords h - 1) (dataWords x.curG - (w + 1))
    let b := wordBytes (rxWords x (w + 1) here)
    if here = phWords h - 1 then { x with oamUnits := x.oamUnits ++ oamSplit b }
    else { x with oamPart := some (b, phWords h - 1 - here) }

/-- An accepted header by its TYPE (R67). -/
def acceptHeader (g : GroupId) (l : Lane) (h : BitVec 64) (s : State) : State :=
  let s1 := modLane (count1 (aTrk l 0x58) s) l fun x => { x with nextWord := x.nextWord + phWords h }
  if phType h = 0 then dataHeader g l h s1
  else if phType h = 1 then
    (if phPort h = 0 ∧ phLast h ∧ phLen h ≠ 0 ∧ phLen h % 64 = 0 then oamPayload l h s1 else count1 (aTrk l 0x88) s1)
  else if phType h = 2 then
    (if phLast h then count (aTrk l 0x80) (phWords h) s1 else count1 (aTrk l 0x88) s1)
  else count1 (aTrk l 0x88) s1

def trunkPacketHeaderRxGuard (lane : Lane) (word : Nat) (s : State) : Bool :=
  let x := laneAt s lane
  (laneGroup s lane).isSome && x.align == .sync && x.pdSync && word == x.nextWord && decide (word < dataWords x.curG)

/-- The word at the head of the chain as a packet header (R64, R65). -/
def trunkPacketHeaderRxEffect (lane : Lane) (s : State) : State :=
  let header := (rxWords (laneAt s lane) (laneAt s lane).nextWord 1).headD 0
  match laneGroup s lane with
  | some g =>
    if hecOk header then acceptHeader g lane header s
    else
      match hecCorrect header with
      | some h => acceptHeader g lane h (count1 (aTrk lane 0x40) s)
      | none => loseDelineation lane (count1 (aTrk lane 0x48) s)
  | none => s

def execTrunkPacketHeaderRx (lane : Lane) (word : Nat) (s : State) : Host.Outcome State Fault Refusal :=
  .next (whenB (trunkPacketHeaderRxGuard lane word s) (trunkPacketHeaderRxEffect lane) s)

/-! Timers of reassembly and settle windows (R74, R75). -/

def reasmTimeoutGuard (lane : Lane) (portId : BitVec 20) (s : State) : Bool :=
  match openCtx (laneAt s lane) portId with
  | some c => !c.discard && since s c.startAt (50 * usTicks)
  | none => false

def reasmTimeoutEffect (lane : Lane) (portId : BitVec 20) (s : State) : State :=
  match openCtx (laneAt s lane) portId with
  | some c => discardCtx lane c.id (count1 (aTrk lane 0x98) s)
  | none => s

def execReasmTimeout (lane : Lane) (portId : BitVec 20) (s : State) : Host.Outcome State Fault Refusal :=
  .next (whenB (reasmTimeoutGuard lane portId s) (reasmTimeoutEffect lane portId) s)

def reasmDiscardExpiryGuard (lane : Lane) (portId : BitVec 20) (s : State) : Bool :=
  match openCtx (laneAt s lane) portId with
  | some c => c.discard && since s c.discardAt msTicks
  | none => false

def reasmDiscardExpiryEffect (lane : Lane) (portId : BitVec 20) (s : State) : State :=
  match openCtx (laneAt s lane) portId with
  | some c => freeCtx lane c.id s
  | none => s

def execReasmDiscardExpiry (lane : Lane) (portId : BitVec 20) (s : State) : Host.Outcome State Fault Refusal :=
  .next (whenB (reasmDiscardExpiryGuard lane portId s) (reasmDiscardExpiryEffect lane portId) s)

def settleWindowCloseGuard (lane : Lane) (portId : Option PortTag) (s : State) : Bool :=
  match portId with
  | none => (match (laneAt s lane).settleLane with | some t => since s t (50 * usTicks) | none => false)
  | some p => (laneAt s lane).settlePorts.any fun q => q.1 == p && since s q.2 (50 * usTicks)

def settleWindowCloseEffect (lane : Lane) (portId : Option PortTag) (s : State) : State :=
  match portId with
  | none => modLane s lane fun x => { x with settleLane := none, settled := [] }
  | some p => modLane s lane fun x => { x with settlePorts := x.settlePorts.filter fun q => q.1 != p }

def execSettleWindowClose (lane : Lane) (portId : Option PortTag) (s : State) : Host.Outcome State Fault Refusal :=
  .next (whenB (settleWindowCloseGuard lane portId s) (settleWindowCloseEffect lane portId) s)

/-! PORT_FILTER_WRITE and PORT_FILTER_READ (R71, R559). -/

/-- Entry `i` of a PORT_FILTER_WRITE: its index and content. -/
def pfEntry (r : Request) (i : Nat) : Nat × FilterEntry :=
  (r.u16 (4 + 12 * i),
   { valid := natBit (r.u8 (6 + 12 * i)) 0, clear := natBit (r.u8 (6 + 12 * i)) 1,
     port := BitVec.ofNat 20 (r.u32 (8 + 12 * i)), slot := r.u16 (12 + 12 * i) })

def pfEntries (r : Request) : List (Nat × FilterEntry) := (List.range (r.u8 1)).map (pfEntry r)

/-- A reserved field of entry `i` is not zero. -/
def pfResv (r : Request) (i : Nat) : Bool :=
  decide (4 ≤ r.u8 (6 + 12 * i)) || resv r (7 + 12 * i) 1 || decide (2 ^ 20 ≤ r.u32 (8 + 12 * i)) || resv r (14 + 12 * i) 2

/-- The group's filter after the request. -/
def pfAfter (s : State) (g : Nat) (l : List (Nat × FilterEntry)) : Sparse FilterEntry :=
  l.foldl (fun f e => sparseSet {} f (4096 * g + e.1) e.2) s.trunk.filter

/-- Two valid entries of a group share a PORT_ID. -/
def pfClash (g : Nat) (f : Sparse FilterEntry) (e : Nat × FilterEntry) : Bool :=
  let v := sparseGet {} f (4096 * g + e.1)
  v.valid && f.any fun x => x.1 / 4096 == g && x.1 != 4096 * g + e.1 && x.2.valid && x.2.port == v.port

/-- Two entries of one request that are valid, of different PORT_ID history and equal PORT_ID (R71). -/
def pfTwice (l : List (Nat × FilterEntry)) : Bool :=
  (List.range l.length).any fun i => (l.drop (i + 1)).any fun e =>
    match l[i]? with
    | some d => d.1 != e.1 && d.2.valid && e.2.valid && d.2.port == e.2.port
    | none => false

def portFilterWriteChecks (r : Request) (s : State) : List Check :=
  let n := r.u8 1
  [⟨decide (r.len < 4) || r.len != 4 + 12 * n, .badLength⟩,
   ckRange (decide (3 < r.u8 0) || n == 0 || decide (64 < n) || resv r 2 2 ||
     (List.range n).any fun i => pfResv r i || decide (4095 < (pfEntry r i).1) ||
       ((pfEntry r i).2.valid && !(pfEntry r i).2.clear && decide (1023 < (pfEntry r i).2.slot))),
   ⟨pfTwice (pfEntries r) || (pfEntries r).any (pfClash (r.u8 0) (pfAfter s (r.u8 0) (pfEntries r))), .conflict⟩]

/-- One entry written: a new port-ID is unsettled on every lane of the group (R69). -/
def pfWrite (g : GroupId) (e : Nat × FilterEntry) (s : State) : State :=
  let old := sparseGet {} s.trunk.filter (4096 * g.val + e.1)
  let s1 := { s with trunk := { s.trunk with filter := sparseSet {} s.trunk.filter (4096 * g.val + e.1) e.2 } }
  if e.2.valid && (!old.valid || old.port != e.2.port) then
    foldS (groupLanes s1 g) (fun l st => openSettlePort l e.2.port st) s1
  else s1

def portFilterWriteApply (r : Request) (s : State) : Done :=
  okDone (foldS (pfEntries r) (pfWrite (Fin.ofNat 4 (r.u8 0))) s)

def execPortFilterWrite (s : State) : Host.Outcome State Fault Refusal :=
  .next (runCommand 0x0110 portFilterWriteChecks portFilterWriteApply s)

def portFilterReadChecks (r : Request) (_ : State) : List Check :=
  [ckLen r 4,
   ckRange (decide (3 < r.u8 0) || r.u8 1 == 0 || decide (64 < r.u8 1) || decide (4096 < r.u16 2 + r.u8 1))]

/-- 12 bytes of an entry read back, in the layout of PORT_FILTER_WRITE. -/
def pfBytes (i : Nat) (e : FilterEntry) : List Byte :=
  toLe 2 i ++ [BitVec.ofNat 8 (e.valid.toNat + 2 * e.clear.toNat), 0] ++ toLe 4 e.port.toNat ++ toLe 2 e.slot ++ [0, 0]

def portFilterReadApply (r : Request) (s : State) : Done :=
  { st := s, payload := (List.range (r.u8 1)).flatMap fun i =>
      pfBytes (r.u16 2 + i) (sparseGet {} s.trunk.filter (4096 * r.u8 0 + r.u16 2 + i)) }

def execPortFilterRead (s : State) : Host.Outcome State Fault Refusal :=
  .next (runCommand 0x0111 portFilterReadChecks portFilterReadApply s)

end Sys2Proof.Machine
end

