-- ==== Sys2Proof/Machine/Held.lean ====
section
/-!
DEFINITION. Machine/Held.lean: the packets that a slice holds, and what a slice or a function loses when it is reset or goes
to DORMANT (R472, R526, R527, R533, R534).
-/
namespace Sys2Proof.Machine

/-- The slice that holds a packet: that of its buffer, or the one at which it entered. -/
def heldSlice (p : Packet) : Nat :=
  match p.buf with
  | some w => ptrSlice w
  | none => p.slice.val

/-- Packets of an account: classes, spill tail, pages and remainder. -/
def acctPackets (x : AccountSt) : List Packet :=
  ((List.finRange 8).flatMap fun c => x.classes[c].frames) ++ x.tail ++ (x.pages.flatMap fun g => g.frames) ++ x.remainder.toList

/-- Packets in the egress queues of a port. -/
def portPackets (x : PortSt) : List Packet := (List.finRange 32).flatMap fun q => x.queues[q].frames

/-- Packets that wait in the fabric. -/
def fabPackets (s : State) : List Packet :=
  (s.fabric.hold.map fun h => h.1) ++
    ((List.finRange 16).flatMap fun f => (List.finRange 3).flatMap fun c => s.fabric.lanes[f].queues[c].filterMap fun o => o.pkt)

/-- The frame that a packet on the bridges carries. -/
def carried (c : Carry) : Option Packet :=
  match c with
  | .frame p _ _ _ => some p
  | .cell _ x => x.pkt

/-- Packets in latent bursts not launched. -/
def latentPackets (s : State) : List Packet :=
  ([0, 1, 2, 3] : List GroupId).flatMap fun g => ((groupAt s g).latents.filter fun b => !beingSent s b).flatMap fun b =>
    b.packets.map fun p => p.pkt

/-- Every packet that has entered the packet path and not left (R472). -/
def heldPackets (s : State) : List Packet :=
  ((List.finRange 8).flatMap fun k => s.path.ingress[k]) ++
    ((List.finRange 32).flatMap fun p => portPackets (portAt s p)) ++
    ((List.finRange 8).flatMap fun k => (clsAt s k).recirc.map fun r => r.pkt) ++
    ((List.finRange 256).flatMap fun a => acctPackets (acctAt s a)) ++ latentPackets s ++ fabPackets s ++
    (s.bridge.transit.filterMap fun t => carried t.carry) ++
    ((List.finRange 8).flatMap fun q => s.ev.mgtWait[q])

/-- Latent bursts hold the darkslide of a slice. -/
def darkslideHeld (s : State) (k : SliceId) : Bool :=
  ([0, 1, 2, 3] : List GroupId).any fun g => (groupAt s g).latents.any fun b => laneSlice b.lane == k

/-- The packet path of a slice holds no frame and its darkslide is empty (R526). -/
def pathEmpty (s : State) (k : SliceId) : Bool := !((heldPackets s).any fun p => heldSlice p == k.val) && !darkslideHeld s k

/-! What a test drops, by a test on packets. -/

def keepAcct (keep : Packet → Bool) (x : AccountSt) : AccountSt := restClasses
  { x with classes := x.classes.map (keepClass keep),
           tail := x.tail.filter keep, pages := x.pages.map fun g => { g with frames := g.frames.filter keep },
           remainder := x.remainder.filter keep }

def keepPort (keep : Packet → Bool) (x : PortSt) : PortSt := { x with queues := x.queues.map (keepQueue keep) }

/-- A cell of a packet that stays. -/
def keepCell (keep : Packet → Bool) (o : CellOut) : Bool :=
  match o.pkt with
  | some p => keep p
  | none => true

def keepFabLane (keep : Packet → Bool) (y : FabLaneSt) : FabLaneSt :=
  { y with queues := y.queues.map fun q => q.filter (keepCell keep) }

/-- A frame of a buffer operation that does not name the slice. -/
def keepPath (keep : Packet → Bool) (s : State) : State :=
  let cls := s.path.cls.map fun c => { c with recirc := c.recirc.filter fun r => keep r.pkt }
  { s with
    path := { s.path with
      ingress := s.path.ingress.map fun l => l.filter keep,
      ports := s.path.ports.map (keepPort keep),
      cls := cls,
      accounts := s.path.accounts.map (keepAcct keep) },
    ev := { s.ev with mgtWait := s.ev.mgtWait.map fun l => l.filter keep },
    bridge := { s.bridge with transit := s.bridge.transit.filter fun t => (carried t.carry).all keep },
    fabric := { s.fabric with
      hold := s.fabric.hold.filter fun h => keep h.1,
      lanes := s.fabric.lanes.map (keepFabLane keep) } }

/-! Registers of a block. -/

/-- Counters, flags and collision counters whose key meets a test read 0. -/
def clearRegs (p : Nat → Bool) (s : State) : State :=
  { s with regs := { s.regs with
      ctr := s.regs.ctr.filter fun e => !p e.1, hold := s.regs.hold.filter fun e => !p e.1,
      w1c := s.regs.w1c.filter fun e => !p e.1, coll := s.regs.coll.filter fun e => !p e.1 } }

/-- Keys of a slice region. -/
def inSlice (k : SliceId) (a : Nat) : Bool := decide (sliceReg k.val 0 ≤ a) && decide (a < sliceReg (k.val + 1) 0)

/-- Keys of a block of a slice region, or of the device-wide words at those offsets. -/
def inBlock (k : SliceId) (lo hi : Nat) (a : Nat) : Bool := decide (sliceReg k.val lo ≤ a) && decide (a < sliceReg k.val hi)
def inDevice (lo hi : Nat) (a : Nat) : Bool := decide (devReg lo ≤ a) && decide (a < devReg hi)

/-! A slice that loses its content. -/

/-- Latent bursts of a line lane are lost with the darkslide: those not developed are fogged, developed ones discarded. -/
def loseLaneBursts (l : Lane) (s : State) : State :=
  match boundGroup s l with
  | some g => loseDevelopedWhere g (fun b => b.lane == l) (fogLaneBursts g l (fun _ => true) s)
  | none => s

/-- Packets on their way out of the extractor are lost. -/
def dropExtract (f : Extract → Bool) (s : State) : State :=
  { s with trunk := { s.trunk with extract := s.trunk.extract.filter fun e => !f e } }

/-- Reassembly, decryption and alignment of a lane are lost. -/
def clearLane (x : LaneSt) : LaneSt :=
  { x with contexts := [], closed := [], noCtx := [], settleDrop := [], oamPart := none, oamUnits := [], settleLane := none, settlePorts := [], settled := [], burst := none, out := .dark }

/-- The line lanes of a slice. -/
def sliceLanes (k : SliceId) : List Lane := (List.finRange 32).filter fun l => laneSlice l == k

/-- Buffer contents, darkslide, reassembly contexts, counters and flags of a slice region are lost (R527, R534). -/
def clearSlice (k : SliceId) (s : State) : State :=
  let s1 := foldS (sliceLanes k) loseLaneBursts s
  let s2 := foldS ((heldPackets s1).filter fun p => heldSlice p == k.val) dropOwed s1
  let s3 := keepPath (fun p => heldSlice p != k.val) s2
  let s4 := modBuf s3 k fun b => { b with bitmap := [], misuse := {}, poolPaused := Vector.replicate 5 false, rr := 0, rrNext := none, granted := [] }
  let s5 := foldS (sliceLanes k) (fun l st => modLane st l clearLane) s4
  let pipes := Vector.ofFn fun i : Fin 16 => if i.val / 2 = k.val then [] else s5.crypto.pipes[i]
  let jobs := ((List.finRange 16).filter fun i => i.val / 2 == k.val).flatMap fun i => s5.crypto.pipes[i].map fun j => j.ticket
  let ctxs := (sliceLanes k).flatMap fun l => ((laneAt s3 l).contexts ++ (laneAt s3 l).closed).map fun c => c.ticket
  let s6 := dropExtract (fun e => e.ready.any fun r => laneSlice r.1 == k) { s5 with crypto := { s5.crypto with pipes := pipes } }
  clearRegs (inSlice k) (foldS (jobs ++ ctxs) dropTicket s6)

/-! Transfers (R533). -/

/-- A request of a slice. -/
def fromSlice (k : SliceId) (r : HbmReq) : Bool := r.requester == k

/-- Transfers in flight of a slice: flits its bridge ports have not had acknowledged and memory requests not completed. -/
def outstanding (s : State) (k : SliceId) : Nat :=
  ((List.finRange 3).foldl (fun n p => n + (s.bridge.ports[k][p].unacked.length + s.bridge.ports[k][p].sendQ.length)) 0) +
    (List.finRange 8).foldl (fun n c => n + (s.hbm.chans[c].waiting.filter (fromSlice k)).length +
      (s.hbm.chans[c].reads.filter (fromSlice k)).length) 0

/-- A channel without the requests of a slice. -/
def withoutReqs (k : SliceId) (x : HbmChan) : HbmChan :=
  { x with waiting := x.waiting.filter fun r => !fromSlice k r, reads := x.reads.filter fun r => !fromSlice k r }

/-- A spill page whose read is among the requests of a slice: the read ends with them and is made again. -/
def endRead (k : SliceId) (s : State) (p : SpillPage) : SpillPage :=
  let x := s.hbm.chans[(Fin.ofNat 8 p.chan)]
  if (x.waiting ++ x.reads).any fun r => fromSlice k r && r.unit == 1 && !r.write && r.addr == pageAddr p.page then { p with reading := false }
  else p

/-- The transfers in flight of a slice end ABORTED at their requester. -/
def abortTransfers (k : SliceId) (s : State) : State :=
  { s with
    bridge := { s.bridge with ports := vmod s.bridge.ports k fun v => v.map fun b => { b with unacked := [], sendQ := [] } },
    path := { s.path with accounts := s.path.accounts.map fun x => { x with pages := x.pages.map (endRead k s) } },
    hbm := { s.hbm with chans := s.hbm.chans.map (withoutReqs k) } }

end Sys2Proof.Machine
end

