-- ==== Sys2Proof/Machine/LaneOps.lean ====
section
/-!
DEFINITION. Machine/LaneOps.lean: serial lanes as shared operations: numbering, lane starts, low-power conditions, loops and
patterns, equalisation entries (spec/15_serial_lanes_loopbacks.md, R415 to R430).
-/
namespace Sys2Proof.Machine

/-! Numbering: 11 lanes a slice, host j at j, line j at 4 + j, fabric j at 8 + j, service at 10. -/

abbrev LaneNo := Fin 88

def serialNo (l : SerialRef) : LaneNo := ⟨11 * l.slice.val + l.idx.val, by omega⟩
def fabSerial (f : FabLane) : LaneNo := ⟨11 * (f.val / 2) + 8 + f.val % 2, by omega⟩
def serviceSerial (h : Half) : LaneNo := ⟨11 * h.val + 10, by omega⟩

/-- The slice of a serial lane and its index. -/
def noSlice (n : LaneNo) : SliceId := ⟨n.val / 11, by omega⟩
def noIdx (n : LaneNo) : Nat := n.val % 11

/-- The host port, line lane or fabric lane that a serial lane is. -/
def noHost (n : LaneNo) : Option (Fin 32) :=
  if h : n.val % 11 < 4 then some ⟨4 * (n.val / 11) + n.val % 11, by omega⟩ else none
def noLine (n : LaneNo) : Option Lane :=
  if h : 4 ≤ n.val % 11 ∧ n.val % 11 < 8 then some ⟨4 * (n.val / 11) + (n.val % 11 - 4), by omega⟩ else none
def noFab (n : LaneNo) : Option FabLane :=
  if h : 8 ≤ n.val % 11 ∧ n.val % 11 < 10 then some ⟨2 * (n.val / 11) + (n.val % 11 - 8), by omega⟩ else none

/-- The lane exists on the part: its slice is present, and a service lane only on slices 0 and 1. -/
def laneExists (s : State) (n : LaneNo) : Bool := present s (n.val / 11) && (n.val % 11 != 10 || decide (n.val / 11 < 2))

def aLneFlags (n : LaneNo) : Nat := sliceReg (n.val / 11) (0x701004 + 0x100 * (n.val % 11))
def aLne (n : LaneNo) (off : Nat) : Nat := sliceReg (n.val / 11) (0x701040 + 0x100 * (n.val % 11) + off)
def aEqFlags (k : Nat) : Nat := sliceReg k 0x700004

def serialAt (s : State) (n : LaneNo) : SerialLane := s.serdes.lanes[n]

def modSerial (s : State) (n : LaneNo) (f : SerialLane → SerialLane) : State :=
  { s with serdes := { s.serdes with lanes := vmod s.serdes.lanes n f } }

/-- Host lanes of a port. -/
def portSerials (s : State) (p : PortId) : List LaneNo :=
  (List.range (portLanes (portMode s p))).map fun i => Fin.ofNat 88 ((hostSerial p).val + i)

/-- The port that a host lane belongs to in its slice's mode (R218). -/
def lanePort (s : State) (h : Fin 32) : PortId :=
  let w := portLanes s.path.mode[laneSlice h]
  Fin.ofNat 32 (h.val / w * w)

/-! Symbol mapping and precoding (R416, R417): what a lane puts on its pins for the bits it is given. -/

/-- The Gray-mapped level index of a pair of bits, the first of them the more significant. -/
def grayIndex : Bool → Bool → BitVec 2
  | false, false => 0
  | false, true => 1
  | true, true => 2
  | true, false => 3

/-- The level indices of bits taken in pairs; a lone last bit waits for its pair. -/
def graySymbols : List Bool → List (BitVec 2)
  | a :: b :: t => grayIndex a b :: graySymbols t
  | _ => []

/-- Precoded symbols after the symbol p: P(j) = (G(j) - P(j-1)) mod 4. -/
def precode : BitVec 2 → List (BitVec 2) → List (BitVec 2)
  | _, [] => []
  | p, g :: t => (g - p) :: precode (g - p) t

/-- Recovered symbols after the symbol p: G(j) = (P(j) + P(j-1)) mod 4. -/
def unprecode : BitVec 2 → List (BitVec 2) → List (BitVec 2)
  | _, [] => []
  | p, q :: t => (q + p) :: unprecode q t

/-- The symbols of a PAM4 lane from its start, under its TX_PRECODE. -/
def laneSymbols (eq : EqEntry) (bits : List Bool) : List (BitVec 2) :=
  if natBit eq.flags 0 then precode 0 (graySymbols bits) else graySymbols bits

/-- The symbols that a receiver hands on from its start, under its RX_PRECODE. -/
def receivedSymbols (eq : EqEntry) (symbols : List (BitVec 2)) : List (BitVec 2) :=
  if natBit eq.flags 1 then unprecode 0 symbols else symbols

/-! Lane starts (R421). -/

/-- A lane start: the receiver gains lock anew; what uses the lane is down until then. -/
def laneStart (n : LaneNo) (s : State) : State :=
  let s1 := { s with serdes := { s.serdes with cdrLock := s.serdes.cdrLock.set n false } }
  let s2 := modSerial s1 n fun x => { x with startAt := s.now, chkLock := false }
  match noHost n, noLine n, noFab n with
  | some h, _, _ => modPort s2 (lanePort s h) fun x => { x with aligned := false }
  | _, some l, _ => if (laneAt s2 l).blockLock then loseBlockLock l s2 else s2
  | _, _, some f => modFab s2 f fun x => { x with aligned := false, alignLostAt := s.now }
  | _, _, _ => s2

/-! Low-power states (R422, R423). -/

/-- A line lane stands in a binding in force or pending (R20, R425). -/
def laneBoundOrPending (s : State) (l : Lane) : Bool :=
  (boundGroup s l).isSome || (List.finRange 4).any fun g => match (groupAt s g).bindPend with
    | some b => b.any fun e => e.1 == l
    | none => false

/-- A loop or pattern is in force on the lane. -/
def laneTesting (x : SerialLane) : Bool := x.loop != .none || x.gen != 0 || x.chk != 0

/-- The condition for DEEP (R422). -/
def deepWanted (s : State) (n : LaneNo) : Bool :=
  s.power.st[noSlice n] == .drowse ||
    match noHost n, noLine n, noFab n with
    | some _, _, _ => s.path.mode[noSlice n] == 0 && !laneTesting (serialAt s n)
    | _, some l, _ => (boundGroup s l).isNone && !laneTesting (serialAt s n)
    | _, _, some f => !(fabAt s f).enabled && !laneTesting (serialAt s n)
    | _, _, _ => false

/-- Lanes of a slice. -/
def sliceSerials (k : SliceId) : List LaneNo := (List.finRange 88).filter fun n => noSlice n == k

/-- Every lane of a slice takes a power state. -/
def slicePower (k : SliceId) (p : LanePower) (s : State) : State :=
  foldS (sliceSerials k) (fun n st => modSerial { st with serdes := { st.serdes with cdrLock := st.serdes.cdrLock.set n false } } n
    fun x => { x with tx := p, rx := p, deepAt := none, deepExit := false, exitAt := none }) s

/-! Loops and patterns (R424, R425). -/

/-- A lane with neither loop nor pattern. -/
def clearTest (x : SerialLane) : SerialLane :=
  { x with loop := .none, emit := false, deliver := false, quiet := false, loopEnd := none, gen := 0, chk := 0, chkLock := false,
           loopDue := [] }

/-- A loop or pattern is ended by a binding, a mode change or a power-down: LOOP_CANCELLED sets (R425). -/
def cancelTest (n : LaneNo) (s : State) : State :=
  if laneTesting (serialAt s n) then setFlag (aLneFlags n) 3 (laneStart n (modSerial s n clearTest)) else s

/-! Equalisation entries (R418 to R420). -/

/-- An entry as 12 bytes hold it. -/
structure EqRaw where
  kind : Nat
  lane : Nat
  entry : EqEntry
  reserved : Nat
  deriving DecidableEq, Repr

/-- The entry at offset `k` of bytes. -/
def eqRaw (b : List Byte) (k : Nat) : EqRaw :=
  { kind := leAt b k 1, lane := leAt b (k + 1) 1,
    entry := { flags := leAt b (k + 2) 1, ctle := leAt b (k + 3) 1,
               taps := (List.range 5).map fun i => signed 8 (leAt b (k + 4 + i) 1) },
    reserved := leAt b (k + 9) 3 }

/-- Lanes of a kind. -/
def kindLanes (kind : Nat) : Nat := if kind < 2 then 32 else if kind = 2 then 16 else if kind = 3 then 2 else 0

/-- The serial lane that KIND and LANE name. -/
def kindSerial (kind lane : Nat) : LaneNo :=
  match kind with
  | 0 => Fin.ofNat 88 (11 * (lane / 4) + lane % 4)
  | 1 => Fin.ofNat 88 (11 * (lane / 4) + 4 + lane % 4)
  | 2 => Fin.ofNat 88 (11 * (lane / 2) + 8 + lane % 2)
  | _ => Fin.ofNat 88 (11 * lane + 10)

/-- KIND and LANE of a lane (R418). -/
def serialKind (n : LaneNo) : Nat × Nat :=
  let k := n.val / 11
  let i := n.val % 11
  if i < 4 then (0, 4 * k + i) else if i < 8 then (1, 4 * k + (i - 4)) else if i < 10 then (2, 2 * k + (i - 8)) else (3, k)

/-- A valid entry (R418). -/
def eqValid (e : EqRaw) : Bool :=
  let t := e.entry.taps
  decide (e.lane < kindLanes e.kind) && decide (e.entry.ctle ≤ 19) && decide (64 ≤ t.getD 2 0) &&
    decide (t.foldl (fun n x => n + x.natAbs) 0 ≤ 128) && (e.kind != 3 || (t.getD 0 0 == 0 && t.getD 4 0 == 0)) &&
    decide (e.entry.flags < 16) && e.reserved == 0

/-- The bytes of an entry. -/
def eqBytes (n : LaneNo) (e : EqEntry) : List Byte :=
  [BitVec.ofNat 8 (serialKind n).1, BitVec.ofNat 8 (serialKind n).2, BitVec.ofNat 8 e.flags, BitVec.ofNat 8 e.ctle] ++
    ((List.range 5).map fun i => BitVec.ofInt 8 (e.taps.getD i 0)) ++ [0, 0, 0]

/-- The field of a table's header that fails, in the order MAGIC, VERSION, COUNT, CRC (R419, R479). -/
def eqTableBad (b : List Byte) : Option Nat :=
  let n := leAt b 6 2
  if leAt b 0 4 ≠ 0x45515442 then some 0
  else if leAt b 4 2 ≠ 1 then some 1
  else if n = 0 ∨ 82 < n ∨ b.length < 16 + 12 * n then some 2
  else if (crcOam (bitsOfBytes ((b.drop 16).take (12 * n)))).toNat ≠ leAt b 12 4 then some 3
  else none

/-- Take one entry of the table. -/
def eqTake (e : EqRaw) (s : State) : State :=
  let n := kindSerial e.kind e.lane
  let bad := fun st : State => foldS (presentSlices s) (fun k a => setFlag (aEqFlags k) 1 a) st
  if !eqValid e then bad s
  else if !laneExists s n then s
  else if (sparseGet none s.serdes.table n.val).isSome then bad s
  else { s with serdes := { s.serdes with table := sparseSet none s.serdes.table n.val (some e.entry) } }

/-- A lane under its entry of the table, or the defaults. -/
def tableEntry (s : State) (n : LaneNo) : SerialLane :=
  match sparseGet none s.serdes.table n.val with
  | some e => { s.serdes.lanes[n] with eq := e, eqSource := 0 }
  | none => { s.serdes.lanes[n] with eq := {}, eqSource := 1 }

/-- Every lane takes its entry of the table, or the defaults. -/
def applyTable (s : State) : State := { s with serdes := { s.serdes with lanes := Vector.ofFn (tableEntry s) } }

/-- Firmware reads the board table once per power-on or pin reset (R419). -/
def readTable (s : State) : State :=
  if s.serdes.tableRead then s
  else
    let b := s.serdes.flash
    let s0 := { s with serdes := { s.serdes with tableRead := true, table := [] } }
    match eqTableBad b with
    | some f =>
      let s1 := { s0 with serdes := { s0.serdes with srcDefaults := true } }
      logEvent 0x0701 .error 0xFF [BitVec.ofNat 8 f] (applyTable (foldS (presentSlices s) (fun k a => setFlag (aEqFlags k) 0 a) s1))
    | none =>
      let s1 := { s0 with serdes := { s0.serdes with srcDefaults := false } }
      applyTable (foldS (List.range (leAt b 6 2)) (fun i => eqTake (eqRaw b (16 + 12 * i))) s1)

end Sys2Proof.Machine
end

