-- ==== Sys2Proof/Machine/Defects.lean ====
section
/-!
DEFINITION. Machine/Defects.lean: lane defects, RDI, DISABLE and ENABLE, and performance monitoring
(spec/07_trunk_oam_performance_protection.md, R182 to R195, R209 to R213, R216).
-/
namespace Sys2Proof.Machine

/-! LOS and LOF (R182, R185). -/

/-- The lane's slice is FAULTED, in DROWSE or DORMANT, or has no path to the governing slice (R182). -/
def laneUnreach (s : State) (l : Lane) : Bool :=
  let k := laneSlice l
  let p := s.power.st[k]
  p == .drowse || p == .dormant || p == .down || s.power.slices[k].domains[(0 : Fin 8)].stopped ||
    (match governing s with
     | some h => !path s h.val k.val
     | none => true)

/-- The lane start that FUNC_START brings about has ended: the lane is in RUN and its DFE has converged; 2 ms after FUNC_START at the
latest (R182, R421, R422; log 129). -/
def startOver (s : State) (l : Lane) (g : GroupId) : Bool :=
  let x := s.serdes.lanes[lineSerial l]
  (x.rx == .run && since s x.startAt (500 * usTicks)) || since s (groupAt s g).startedAt (2 * msTicks)

/-- The first group of conditions of LOS: the lane status input, or the CDR out of lock (R182). -/
def losSignal (s : State) (l : Lane) (g : GroupId) : Bool :=
  s.pins.llos[l] || (!s.serdes.cdrLock[lineSerial l] && startOver s l g)

/-- The instant from which a condition has held. -/
def heldFrom (c : Bool) (now : Nat) (t : Option Nat) : Option Nat := if c then some (t.getD now) else none

/-- Integration of the two groups of conditions of LOS, each apart, and of its clearing, one tick (R182). -/
def integrateLos (l : Lane) (s : State) : State :=
  match laneGroup s l with
  | some g =>
    let a := losSignal s l g
    let b := laneUnreach s l
    modLane s l fun x => { x with
      losCond := heldFrom a s.now x.losCond, losReach := heldFrom b s.now x.losReach,
      losClearCond := heldFrom (!a && !b) s.now x.losClearCond }
  | none => s

/-- A condition has been integrated for 10 µs. -/
def losHeld (s : State) (t : Option Nat) : Bool :=
  match t with
  | some t => since s t (10 * usTicks)
  | none => false

def losDeclareGuard (lane : Lane) (s : State) : Bool :=
  let x := laneAt s lane
  (laneGroup s lane).isSome && !x.los && (losHeld s x.losCond || losHeld s x.losReach)

/-- LOS declared: a burst in progress stops, latent bursts are fogged, the group's consequences follow (R182, R185). -/
def losDeclareEffect (lane : Lane) (s : State) : State :=
  match laneGroup s lane with
  | some g =>
    let u := losHeld s (laneAt s lane).losReach
    let s1 := fogLaneBursts g lane (fun _ => true) (truncateBurst g lane s)
    let s2 := loseDevelopedWhere g (fun b => b.lane == lane) s1
    changeDefects lane (fun x => { x with los := true, unreach := u }) s2
  | none => s

def execLosDeclare (lane : Lane) (s : State) : Host.Outcome State Fault Refusal :=
  .next (whenB (losDeclareGuard lane s) (losDeclareEffect lane) s)

def losClearGuard (lane : Lane) (s : State) : Bool :=
  (laneGroup s lane).isSome && (laneAt s lane).los &&
    (match (laneAt s lane).losClearCond with | some t => since s t (100 * usTicks) | none => false)

def losClearEffect (lane : Lane) (s : State) : State := changeDefects lane (fun x => { x with los := false, unreach := false }) s

def execLosClear (lane : Lane) (s : State) : Host.Outcome State Fault Refusal :=
  .next (whenB (losClearGuard lane s) (losClearEffect lane) s)

/-- LOF_TIME has elapsed since the last good FAW, or since FUNC_START where there was none (R182). -/
def lofDeclareGuard (lane : Lane) (s : State) : Bool :=
  match laneGroup s lane with
  | some g =>
    oofShown s lane && !(laneAt s lane).lof &&
      since s ((laneAt s lane).lastGoodFaw.getD (groupAt s g).startedAt) ((groupAt s g).lofTime * usTicks)
  | none => false

def lofDeclareEffect (lane : Lane) (s : State) : State :=
  match laneGroup s lane with
  | some g =>
    let s1 := loseDevelopedWhere g (fun b => b.lane == lane) (fogLaneBursts g lane (fun _ => true) s)
    changeDefects lane (fun x => { x with lof := true }) s1
  | none => s

def execLofDeclare (lane : Lane) (s : State) : Host.Outcome State Fault Refusal :=
  .next (whenB (lofDeclareGuard lane s) (lofDeclareEffect lane) s)

def lofClearGuard (lane : Lane) (s : State) : Bool :=
  let x := laneAt s lane
  (laneGroup s lane).isSome && x.lof && x.align == .sync && (match x.syncSince with | some t => since s t msTicks | none => false)

def lofClearEffect (lane : Lane) (s : State) : State := changeDefects lane (fun x => { x with lof := false }) s

def execLofClear (lane : Lane) (s : State) : Host.Outcome State Fault Refusal :=
  .next (whenB (lofClearGuard lane s) (lofClearEffect lane) s)

/-! WINDOW_EVALUATE (R183). -/

/-- A threshold defect and its run of clearing windows after a count (R182). -/
def thresholdStep (on : Bool) (run count thresh : Nat) : Bool × Nat :=
  if thresh ≤ count then (true, 0)
  else if on then (if 10 ≤ run + 1 then (false, 0) else (true, run + 1))
  else (false, 0)

def windowEvaluateGuard (lane : Lane) (s : State) : Bool :=
  (laneGroup s lane).isSome && (laneAt s lane).winPend.isSome

/-- The window that ended: evaluated when the lane stayed in SYNC through it (R183). -/
def windowEvaluateEffect (lane : Lane) (s : State) : State :=
  match (laneGroup s lane).isSome, (laneAt s lane).winPend with
  | true, some (n, ok) =>
    let s1 := modLane s lane fun x => { x with winPend := none, lastWinBits := n, lastWinEval := ok }
    if ok then
      changeDefects lane (fun x =>
        let f := thresholdStep x.sf x.sfClear n x.endSf
        let d := thresholdStep x.sd x.sdClear n x.endSd
        { x with sf := f.1, sfClear := f.2, sd := d.1, sdClear := d.2 }) s1
    else s1
  | _, _ => s

def execWindowEvaluate (lane : Lane) (s : State) : Host.Outcome State Fault Refusal :=
  .next (whenB (windowEvaluateGuard lane s) (windowEvaluateEffect lane) s)

/-! RDI (R189, R190). -/

/-- An accepted RDI: declared after 3 with REMOTE_DEFECT 1, cleared after 3 with 0 (R189). -/
def rdiAct (m : OamRx) (g : GroupId) (s : State) : State :=
  let v := natBit (msgAt m 4 1) 0
  let x := groupAt s g
  let run := if v = x.rdiRunVal then x.rdiRun + 1 else 1
  let s1 := modGroup (count1 (aPrt g 0x10) s) g fun y => { y with rdiRun := run, rdiRunVal := v, lastRdiAt := s.now }
  if 3 ≤ run ∧ x.rdi ≠ v then
    setFlag (aPrtFlags g) (if v then 2 else 3) (modGroup s1 g fun y => { y with rdi := v })
  else s1

def execRdi (lane : Lane) (msg : OamRx) (s : State) : Host.Outcome State Fault Refusal :=
  .next (oamReceive 0x0B lane msg noTest (rdiAct msg) s)

def rdiTimeoutGuard (group : GroupId) (s : State) : Bool :=
  (groupAt s group).rdi && since s (groupAt s group).lastRdiAt (10 * msTicks)

def rdiTimeoutEffect (group : GroupId) (s : State) : State :=
  setFlag (aPrtFlags group) 3 (modGroup s group fun x => { x with rdi := false, rdiRun := 0 })

def execRdiTimeout (group : GroupId) (s : State) : Host.Outcome State Fault Refusal :=
  .next (whenB (rdiTimeoutGuard group s) (rdiTimeoutEffect group) s)

def rdiPeriodicGuard (group : GroupId) (s : State) : Bool :=
  groupEnabled s group && !(lanesInDefect s group).isEmpty && since s (groupAt s group).rdiSentAt msTicks

def execRdiPeriodic (group : GroupId) (s : State) : Host.Outcome State Fault Refusal :=
  .next (whenB (rdiPeriodicGuard group s) (queueRdi group) s)

/-! DISABLE and ENABLE (R191 to R195). -/

/-- SERIAL and GROUP match the group's own (R191). -/
def ownSerial (m : OamRx) (g : GroupId) (s : State) : Bool := msgAt m 4 8 == s.serial.toNat && msgAt m 12 1 % 4 == g.val

def serialTest (m : OamRx) (g : GroupId) (s : State) : RxTest := if ownSerial m g s then .ok else .ignore

/-- A DISABLE acted on: latch, count and flag; the effect of R192 follows within 10 µs of the frame. -/
def disableAct (m : OamRx) (g : GroupId) (s : State) : State :=
  let s1 := modGroup s g fun x => { x with
    disableLatch := x.disableLatch || natBit (msgAt m 13 1) 0,
    disableAt := if rangedState x then some s.now else x.disableAt }
  setFlag (aPrtFlags g) 5 (count1 (aPrt g 0x38) s1)

def execDisable (lane : Lane) (msg : OamRx) (s : State) : Host.Outcome State Fault Refusal :=
  .next (oamReceive 0x0C lane msg (serialTest msg) (disableAct msg) s)

/-- Every lane DARK, bursts stopped, lost or fogged, DISABLED; grant tables, plan and queue go (R192, R193). -/
def enterDisabled (g : GroupId) (s : State) : State :=
  let s1 := foldS (groupLanes s g) (truncateBurst g) s
  let s2 := stopBursts g s1
  let s3 := foldS (groupLanes s2 g) (fun l st => modLane st l fun x => { x with
    maps := [], plan := [], changes := [], tables := [], rangeReq := none, out := .dark }) s2
  modGroup s3 g fun x => { x with st := .disabled, oamQ := [], amends := [], rebuilds := [], waitFrom := none }

def disableApplyGuard (group : GroupId) (s : State) : Bool := (groupAt s group).disableAt.isSome

def disableApplyEffect (group : GroupId) (s : State) : State :=
  let s1 := modGroup s group fun x => { x with disableAt := none }
  if rangedState (groupAt s group) then noteSf group (followLinkFault group (enterDisabled group s1)) else s1

def execDisableApply (group : GroupId) (s : State) : Host.Outcome State Fault Refusal :=
  .next (whenB (disableApplyGuard group s) (disableApplyEffect group) s)

/-- Where a group in DISABLED goes (R195). -/
def leaveDisabled (rereg : Bool) (g : GroupId) (s : State) : State :=
  let ranged := (groupLanes s g).filter fun l => (laneAt s l).ranged
  if rereg then enterListen g (modGroup s g fun x => { x with provEqd := none })
  else if ranged.any fun l => !losOrLof (laneAt s l) then modGroup s g fun x => { x with st := .operate }
  else if !ranged.isEmpty then
    setFlag (aRngFlags g) 7 (modGroup s g fun x => { x with st := .holdover, holdoverAt := s.now })
  else modGroup (clearGrants g s) g fun x => { x with st := .range, rangeAt := s.now }

/-- An ENABLE (R195): latch cleared, flag set, a group in DISABLED moves on; an ACK while it holds a terminal ID. -/
def enableAct (m : OamRx) (g : GroupId) (s : State) : State :=
  let s1 := setFlag (aPrtFlags g) 6 (modGroup s g fun x => { x with disableLatch := false })
  let s2 := if (groupAt s1 g).st == .disabled then leaveDisabled (natBit (msgAt m 13 1) 0) g s1 else s1
  queueAck g 0x0D ackAccepted (msgSeq m) s2

def execEnable (lane : Lane) (msg : OamRx) (s : State) : Host.Outcome State Fault Refusal :=
  .next (oamReceive 0x0D lane msg (serialTest msg) (enableAct msg) s)

/-! DEFECT_SET (R213). -/

def defectSetChecks (r : Request) (s : State) : List Check :=
  [ckLen r 16,
   ckRange (decide (3 < r.u8 0) || decide (4 ≤ r.u8 1) || r.u8 2 == 0 || decide (32 < r.u8 2) || resv r 3 1 ||
     decide (r.u16 4 < 100) || decide (3000 < r.u16 4) || decide (r.u16 6 < 2) || decide (1600 < r.u16 6) ||
     decide (r.u16 8 < 1) || decide (1599 < r.u16 8) || resv r 10 2 ||
     (List.range 32).any fun n => natBit (r.u32 12) n && !present s (n / 4)),
   ⟨decide (r.u16 6 ≤ r.u16 8), .conflict⟩]

def defectSetApply (r : Request) (s : State) : Done :=
  let g : GroupId := Fin.ofNat 4 (r.u8 0)
  okDone (followLinkFault g (modGroup s g fun x => { x with
    lfOnAis := natBit (r.u8 1) 0, lfOnLosLof := natBit (r.u8 1) 1, laneThresh := r.u8 2, lofTime := r.u16 4,
    sfThresh := r.u16 6, sdThresh := r.u16 8, lfPorts := BitVec.ofNat 32 (r.u32 12) }))

def execDefectSet (s : State) : Host.Outcome State Fault Refusal :=
  .next (runCommand 0x0150 defectSetChecks defectSetApply s)

/-! PM_SECOND (R209 to R212). -/

/-- What one second adds to a bin. -/
structure PmAdd where
  es : Int := 0
  ses : Int := 0
  uas : Int := 0
  dormant : Nat := 0
  monitored : Nat := 0
  eframes : Nat := 0
  bipBits : Nat := 0
  estimated : Bool := false

def addTo (n : Nat) (d : Int) : Nat := ((n : Int) + d).toNat

/-- A bin with a second added; a closed one is ADJUSTED. -/
def binAdd (a : PmAdd) (closed : Bool) (b : PmBin) : PmBin :=
  { b with es := addTo b.es a.es, ses := addTo b.ses a.ses, uas := addTo b.uas a.uas, dormant := b.dormant + a.dormant,
           monitored := b.monitored + a.monitored, eframes := b.eframes + a.eframes, bipBits := b.bipBits + a.bipBits,
           estimated := b.estimated || a.estimated, adjusted := b.adjusted || closed }

/-- Bins whose boundaries have passed close (R212). -/
def rollBins (t : Nat) (p : Pm) : Pm :=
  let q := t / 900 * 900
  let d := t / 86400 * 86400
  let p1 := if p.cur.valid && p.cur.start == q then p
    else { p with past := if p.cur.valid then (p.cur :: p.past).take 96 else p.past, cur := { start := q, valid := true } }
  if p1.day.valid && p1.day.start == d then p1
  else { p1 with prevDay := if p1.day.valid then p1.day else p1.prevDay, day := { start := d, valid := true } }

/-- Add to the bins that hold second `t`. -/
def pmAdd (t : Nat) (a : PmAdd) (p : Pm) : Pm :=
  let q := t / 900 * 900
  let d := t / 86400 * 86400
  let p1 : Pm := if p.cur.start = q then { p with cur := binAdd a false p.cur }
    else { p with past := p.past.map fun b => if b.start = q ∧ b.valid then binAdd a true b else b }
  if p1.day.start = d then { p1 with day := binAdd a false p1.day }
  else if p1.prevDay.start = d ∧ p1.prevDay.valid then { p1 with prevDay := binAdd a true p1.prevDay }
  else p1

/-- Seconds `t0` to `t1 - 1` of one 15-minute bin, estimated after a gap, counted as DORMANT (R212). -/
def pmGapBin (t0 t1 : Nat) (p : Pm) : Pm :=
  pmAdd t0 { dormant := t1 - t0, monitored := t1 - t0, estimated := true } (rollBins t0 p)

/-- The seconds from `t0` up to `t1`, whose gap was estimated, bin by bin (R212). -/
def pmGap (t0 t1 : Nat) (p : Pm) : Pm :=
  let q := (List.range (ceilDiv t1 900 - t0 / 900)).foldl
    (fun a i => pmGapBin (max t0 ((t0 / 900 + i) * 900)) (min t1 ((t0 / 900 + i + 1) * 900)) a) p
  { q with lastSec := some t1 }

/-- A second that is not DORMANT under the rule of 10 (R211): `es` and `ses` are its classes. -/
def pmClass (t : Nat) (es ses : Bool) (p : Pm) : Pm :=
  if !p.unavailable then
    if ses then
      let run := (t, es) :: p.run
      if 10 ≤ run.length then
        let q := p.run.foldl (fun a r => pmAdd r.1 { es := -1, ses := -1, uas := 1 } a) p
        pmAdd t { uas := 1 } { q with unavailable := true, run := [] }
      else pmAdd t { es := 1, ses := 1 } { p with run := run }
    else pmAdd t { es := if es then 1 else 0 } { p with run := [] }
  else if ses then pmAdd t { uas := 1 } { p with run := [] }
  else
    let run := (t, es) :: p.run
    if 10 ≤ run.length then
      let q := p.run.foldl (fun a r => pmAdd r.1 { uas := -1, es := if r.2 then 1 else 0 } a) p
      pmAdd t { es := if es then 1 else 0 } { q with unavailable := false, run := [] }
    else pmAdd t { uas := 1 } { p with run := run }

/-- The frame under way on a lane belongs to the second under way, so that the second before is complete; or no frame does. -/
def secondClosed (s : State) (l : Lane) : Bool :=
  let x := laneAt s l
  !x.bipUsable || x.frameSec == s.time.sec.toNat

/-- A whole second has ended since the group's last. -/
def pmSecondGuard (group : GroupId) (s : State) : Bool :=
  (groupAt s group).pm.lastSec != some s.time.sec.toNat && (groupLanes s group).all (secondClosed s)

/-- A second of an enabled group: its lanes latch it, and its bins count it (R209 to R212). -/
def pmCount (group : GroupId) (s : State) : State :=
  let now := s.time.sec.toNat
  let t := now - 1
  let ls := groupLanes s group
  let at_ := fun l : Lane => turnSecond now (laneAt s l)
  let ef := ls.foldl (fun n l => n + (at_ l).prevEframes) 0
  let bb := ls.foldl (fun n l => n + (at_ l).prevBip) 0
  let defect := ls.any fun l => (at_ l).prevDefect
  let ses := defect || ls.any fun l => decide (30000 ≤ (at_ l).prevEframes)
  let es := defect || ls.any fun l => decide (1 ≤ (at_ l).prevEframes)
  let s1 := foldS ls (fun l st => modLane st l fun z =>
    let x := turnSecond now z
    { x with lastEframes := x.prevEframes, lastDefect := x.prevDefect }) s
  modGroup s1 group fun x =>
    let p := rollBins t x.pm
    let a : PmAdd := { monitored := 1, eframes := ef, bipBits := bb,
                       dormant := if x.pm.dormantSeen then 1 else 0 }
    let p1 := pmAdd t a p
    let p2 := if x.pm.dormantSeen then p1 else pmClass t es ses p1
    { x with pm := { p2 with dormantSeen := false } }

/-- The end of a second: an enabled group counts it (log 130), and the bins whose boundary it is close, of a stopped group too
(R211, R212). -/
def pmSecondEffect (group : GroupId) (s : State) : State :=
  let s1 := if groupEnabled s group then pmCount group s else s
  modGroup s1 group fun x =>
    let p := if x.pm.cur.valid then rollBins s.time.sec.toNat x.pm else x.pm
    { x with pm := { p with lastSec := some s.time.sec.toNat } }

def execPmSecond (group : GroupId) (s : State) : Host.Outcome State Fault Refusal :=
  .next (whenB (pmSecondGuard group s) (pmSecondEffect group) s)

/-! PM_READ (R216). -/

def pmReadChecks (r : Request) (_ : State) : List Check :=
  [ckLen r 4,
   ckRange (decide (3 < r.u8 0) || !(decide (r.u8 1 ≤ 96) || r.u8 1 == 128 || r.u8 1 == 129) || resv r 2 2)]

/-- The bin selected, with its length in seconds. -/
def pmBin (p : Pm) (n : Nat) : PmBin × Nat :=
  if n = 0 then (p.cur, 900)
  else if n ≤ 96 then (p.past.getD (n - 1) {}, 900)
  else if n = 128 then (p.day, 86400)
  else (p.prevDay, 86400)

def pmReadApply (r : Request) (s : State) : Done :=
  let (b, n) := pmBin (groupAt s (Fin.ofNat 4 (r.u8 0))).pm (r.u8 1)
  let flags := b.valid.toNat + 2 * (decide (b.monitored < n)).toNat + 4 * b.estimated.toNat + 8 * b.adjusted.toNat
  { st := s, payload := toLe 8 b.start ++ toLe 4 flags ++ toLe 4 b.monitored ++ toLe 4 b.es ++ toLe 4 b.ses ++ toLe 4 b.uas ++
      toLe 4 b.dormant ++ toLe 8 b.eframes ++ toLe 8 b.bipBits }

def execPmRead (s : State) : Host.Outcome State Fault Refusal :=
  .next (runCommand 0x0153 pmReadChecks pmReadApply s)

end Sys2Proof.Machine
end

