-- ==== Sys2Proof/Machine/Time.lean ====
section
/-!
DEFINITION. Machine/Time.lean: trunk time and the device time counter (spec/04_registration_ranging_trunk_time.md, R103 to
R107; spec/13_time_stamping_ptp.md, R369 to R391).
-/
namespace Sys2Proof.Machine

def aTimFlags : Nat := 0x40014
def aTim (off : Nat) : Nat := 0x40100 + off

/-! The time clock (R370, R371, R520). -/

/-- The group with TIME_SOURCE set. -/
def timeGroup (s : State) : Option GroupId := [0, 1, 2, 3].find? fun g => (groupAt s g).timeSource

/-- A light meter of a slice. -/
def meterOf (s : State) (k : SliceId) (i : Fin 8) : Meter := s.power.slices[k].meters[i]

/-- The light meter of TRUNK of a group at a slice has tripped its frequency test (R516). -/
def trunkTripped (s : State) (g : GroupId) (k : SliceId) : Bool :=
  let m := meterOf s k (Fin.ofNat 8 (4 + g.val))
  m.st == .failed && decide (2 ≤ m.bad)

/-- The recovered clock that drives the counter: the time lane of the TIME_SOURCE group while it is in SYNC. -/
def trunkSource (s : State) : Option (GroupId × Lane) :=
  match timeGroup s with
  | some g =>
    if groupEnabled s g then ((timeLane s g).filter fun l => !trunkTripped s g (laneSlice l)).map fun l => (g, l) else none
  | none => none

/-- Output cycles that make an 800 MHz synthesiser stable (R515). -/
def synthStart : Nat := 65536

/-- The XTAL synthesiser can drive a clock: XTAL has not failed, and the synthesiser has been enabled for its start count since
XTAL came back (R515, R518). -/
def xtalReady (s : State) : Bool :=
  let k : SliceId := if s.power.st[(0 : SliceId)] == .dormant || s.power.st[(0 : SliceId)] == .down then 1 else 0
  let m := meterOf s k 0
  match m.st with
  | .starting => true
  | .good => m.at_ == 0 || since s m.at_ synthStart
  | .suspect => true
  | _ => false

/-- The core domain of a slice runs (R371). -/
def coreRuns (s : State) (k : SliceId) : Bool :=
  let p := s.power.st[k]
  (p == .run || p == .idle || p == .drowse || p == .quiescing || (p == .waking && !s.power.slices[k].deepWake)) &&
    !s.power.slices[k].domains[(0 : Fin 8)].stopped

/-- The counter can run: not in STANDBY, the core of slice 0 or 1 runs, and a time clock is present (R371). -/
def timeCanRun (s : State) : Bool :=
  !s.power.standby && (coreRuns s 0 || coreRuns s 1) && ((trunkSource s).isSome || xtalReady s)

/-! Steps of the counter (R375). -/

/-- Nominal increment: 1.25 ns in 2^-32 ns. -/
def incNominal : Nat := 0x140000000

/-- A valid increment: within 1,000 ppm of nominal (R370). -/
def incOk (n : Nat) : Bool := decide (0x13FAE147B ≤ n) && decide (n ≤ 0x14051EB85)

/-- Set the counter to a number of 1/65,536 ns; the hidden residue is kept. -/
def putUnits (u : Int) (t : TimeAll) : TimeAll :=
  let v := (u % ((2 ^ 48 * secUnits : Nat) : Int)).toNat
  { t with sec := BitVec.ofNat 48 (v / secUnits), ns := v % secUnits / 65536, frac := v % 65536 * 65536 + t.frac % 65536 }

/-- A step by `e`: any slew is cancelled, STEP_GEN advances, and the step is flagged and counted (R375). -/
def stepCounter (e : Int) (s : State) : State :=
  let t := putUnits ((timeUnits s : Int) + e) s.time
  let s1 := { s with time := { t with
      incTrunk := if t.slewEnd.isSome then incNominal else t.incTrunk, slewEnd := none, stepGen := (t.stepGen + 1) % 16,
      steppedTo := (t.sec.toNat * secUnits + t.ns * 65536 + t.frac / 65536), isSet := true, unset := false } }
  setFlag aTimFlags 0 (count1 (aTim 0x00) s1)

/-- The estimate ends: ESTIMATED clears and RELOCKED sets (R380). -/
def relock (s : State) : State :=
  let s1 := { s with time := { s.time with estimated := false, estimateFrom := none } }
  if s.time.estimated then setFlag aTimFlags 6 s1 else s1

/-! Steering (R374). -/

/-- Time of day of a group, in 1/65,536 ns (R105). -/
def groupTod (s : State) (g : GroupId) : Int := (groupAt s g).offset + ((groupAt s g).ctr.toNat * 1280 : Nat)

/-- Group time minus counter. -/
def steerError (s : State) (g : GroupId) : Int := groupTod s g - (timeUnits s : Int)

/-- One microsecond in 1/65,536 ns. -/
def usUnits : Nat := 65536000

/-- Change of INC_TRUNK for a slew of |e|: min(50 ppm, |e| / 10 ms) of 1.25 ns, in 2^-32 ns. -/
def slewDelta (e : Nat) : Nat := min 268435 (e * 128 / 15625)

/-- Ticks that the slew lasts: 10 ms, or |e| at 50 ppm. -/
def slewTicks (e : Nat) : Nat := if e * 128 / 15625 ≤ 268435 then 10 * msTicks else ceilDiv (e * 16000) 65536

/-- Step or slew by the difference. -/
def steerBy (e : Int) (s : State) : State :=
  if !s.time.isSet || decide (usUnits < e.natAbs) then stepCounter e s
  else if e = 0 then { s with time := { s.time with incTrunk := incNominal, slewEnd := none } }
  else
    let d := slewDelta e.natAbs
    { s with time := { s.time with
        incTrunk := if 0 < e then incNominal + d else incNominal - d, slewEnd := some (s.now + slewTicks e.natAbs) } }

/-- Firmware compares the counter with a group's time of day in AUTO mode; a group in HOLDOVER brings no correction. -/
def steer (g : GroupId) (s : State) : State :=
  let st := (groupAt s g).timeSt
  if s.time.host || s.time.stopped || !(st == .coarse || st == .locked) then s
  else
    let s1 := steerBy (steerError s g) s
    { s1 with time := { s1.time with lastSteerAt := s.now } }

/-! TOD (R103 to R107, R376). -/

/-- Fields of a TOD. -/
def todSec (m : OamRx) : Nat := msgAt m 4 6
def todNs (m : OamRx) : Nat := msgAt m 10 4
def todFrac (m : OamRx) : Nat := msgAt m 14 2
def todFnOf (m : OamRx) : Nat := msgAt m 16 4
def todHead (m : OamRx) : Word := BitVec.ofNat 32 (msgAt m 20 4)
def todUtcOf (m : OamRx) : BitVec 16 := BitVec.ofNat 16 (msgAt m 25 2)
def todLeapOf (m : OamRx) : BitVec 2 := BitVec.ofNat 2 (msgAt m 27 1)

/-- The group can derive its downstream delay: its time lane is ranged, or COARSE_RTT is provisioned (R104). -/
def delayKnown (s : State) (g : GroupId) (l : Lane) : Bool :=
  ((laneAt s l).ranged && (groupAt s g).disc.isSome && (eqdAt (groupAt s g) (laneAt s l) (curEpoch s l)).isSome) ||
    (groupAt s g).coarseRtt != 0xFFFFFFFF

/-- Receive tests of a TOD (R104). -/
def todTest (l : Lane) (m : OamRx) (g : GroupId) (s : State) : RxTest :=
  if m.viaPkt then .badType
  else if timeLane s g ≠ some l then .ignore
  else if !(laneAt s l).curTod || todFnOf m ≠ (laneAt s l).fn || 1000000000 ≤ todNs m then .badType
  else if !delayKnown s g l then .ignore
  else .ok

/-- Whether the delay is the ranged one, and the downstream delay times 2 x 10^9 in 1/65,536 ps (R105). -/
def downDelay2e9 (s : State) (g : GroupId) (l : Lane) : Bool × Int :=
  let x := groupAt s g
  let coarse : Int := (x.coarseRtt.toNat * 65536000 * 1000000000 : Nat)
  match (laneAt s l).ranged, x.disc, eqdAt x (laneAt s l) (curEpoch s l) with
  | true, some d, some q =>
    let n : Int := (d.logical.toNat : Int) - (tResp * 64 : Nat) - (q.toNat : Int)
    let r : Int := 1280000 * n - 65536 * ((x.modemTx.toNat : Int) + x.modemRx.toNat + 4000)
    (true, r * (1000000000 + x.asym.toInt) + 2000000000 * 65536 * (x.modemRx.toNat : Int))
  | _, _, _ => (false, coarse)

/-- The offset that a TOD brings: head time + down - stamp of the header, rounded once, halves upwards (R105). -/
def todOffset (s : State) (g : GroupId) (l : Lane) (m : OamRx) : Int :=
  let x := groupAt s g
  let head : Int := ((todSec m * 1000000000 + todNs m) * 65536 + todFrac m : Nat)
  let stamp : Int := (x.ctr.toNat : Int) + stampDiff (carrierStamp s l m) x.ctr
  head - 1280 * stamp + ((downDelay2e9 s g l).2 + 1000000000000).fdiv 2000000000000

/-- RNG_DOWN_DELAY: down in 1/64 tick, halves upwards; a negative delay, for which the EqD format has no value, is shown modulo 2^32
(DESIGN CHOICE, log 126). -/
def downTicks (d2 : Int) : Word := BitVec.ofInt 32 ((d2 + 1280000 * 1000000000).fdiv (2 * 1280000 * 1000000000))

/-- What a TOD brings, as a latch of R376 holds it. -/
def todLatch (s : State) (g : GroupId) (l : Lane) (m : OamRx) : JumpLatch :=
  { headId := todHead m, offset := todOffset s g l m, step := todOffset s g l m - (groupAt s g).offset, at_ := s.now,
    locked := (downDelay2e9 s g l).1, fn := BitVec.ofNat 32 (todFnOf m), down := downTicks (downDelay2e9 s g l).2,
    utc := todUtcOf m, leap := todLeapOf m }

/-- A TOD taken as accepted: the group's time of day, state and HEAD_ID follow it, its time state HOLDOVER while its counter runs on
XTAL, and the counter is steered when the group
has TIME_SOURCE (R105, R107, R374). -/
def acceptTod (g : GroupId) (j : JumpLatch) (s : State) : State :=
  let x := groupAt s g
  let moved := x.timeSt != .none && x.lastTodHead == some j.headId && decide (65536 < (j.offset - x.offset).natAbs)
  let s1 := followClock g <| modGroup s g fun y => { y with
    offset := j.offset, timeSt := if j.locked then .locked else .coarse, headId := j.headId, lastTodHead := some j.headId,
    lastTodAt := j.at_, todStale := false, todFn := j.fn, downDelay := j.down, todUtc := j.utc, todLeap := j.leap,
    modemTxUsed := y.modemTx, modemRxUsed := y.modemRx, asymUsed := y.asym }
  let s2 := whenB moved (setFlag (aRngFlags g) 10) s1
  if x.timeSource then
    let s3 := { s2 with time := { s2.time with resume := false } }
    if s3.time.host then s3 else relock (steer g s3)
  else s2

/-- The latches of the device. -/
def putLatch (g : GroupId) (j : Option JumpLatch) (s : State) : State :=
  { s with time := { s.time with latches := s.time.latches.set g j } }

/-- A change of master refused: latched, flagged and reported (R376). -/
def refuseTod (g : GroupId) (j : JumpLatch) (s : State) : State :=
  let s1 := putLatch g (some j) { s with time := { s.time with jumpGroup := g, jumpHead := j.headId, jumpStep := j.step } }
  let s2 := setFlag aTimFlags 2 (setFlag (aRngFlags g) 11 (count1 (aTim 0x10) s1))
  logEvent 0x0501 .warning 0xFF ([BitVec.ofNat 8 g.val] ++ toLe 4 j.headId.toNat ++ toLe 8 (BitVec.ofInt 64 j.step).toNat) s2

/-- The TOD is refused: its head is latched, or it is a change of master beyond JUMP_LIMIT in a group that holds a time. -/
def jumpRefused (s : State) (g : GroupId) (j : JumpLatch) : Bool :=
  let x := groupAt s g
  x.timeSt != .none &&
    ((match s.time.latches[g] with | some k => k.headId == j.headId | none => false) ||
     (x.lastTodHead != some j.headId && (s.time.jumpLimit == 0 || decide (s.time.jumpLimit * 65536 < j.step.natAbs))))

/-- A TOD that passed its tests (R104, R376). -/
def todAct (l : Lane) (m : OamRx) (g : GroupId) (s : State) : State :=
  let j := todLatch s g l m
  if jumpRefused s g j then refuseTod g j s else acceptTod g j (count1 (aRng g 0x18) s)

def execTod (lane : Lane) (msg : OamRx) (s : State) : Host.Outcome State Fault Refusal :=
  .next (oamReceive 0x06 lane msg (todTest lane msg) (todAct lane msg) s)

/-! TIME_STEER and SLEW_END (R374). -/

/-- AUTO mode, the counter running, a TIME_SOURCE group with a time of day, and no TOD awaited after HOST mode or a gap. -/
def timeSteerGuard (s : State) : Bool :=
  !s.time.host && !s.time.stopped && !s.time.resume && !s.time.estimated && s.time.estimateFrom.isNone && !s.time.unset &&
    match timeGroup s with
    | some g => (groupAt s g).timeSt == .coarse || (groupAt s g).timeSt == .locked
    | none => false

def timeSteerEffect (s : State) : State :=
  match timeGroup s with
  | some g => steer g s
  | none => s

def execTimeSteer (s : State) : Host.Outcome State Fault Refusal := .next (whenB (timeSteerGuard s) timeSteerEffect s)

def slewEndGuard (s : State) : Bool :=
  match s.time.slewEnd with
  | some t => decide (t ≤ s.now)
  | none => false

/-- INC_TRUNK returns to nominal. -/
def slewEndEffect (s : State) : State := { s with time := { s.time with incTrunk := incNominal, slewEnd := none } }

def execSlewEnd (s : State) : Host.Outcome State Fault Refusal := .next (whenB (slewEndGuard s) slewEndEffect s)

/-! Stops and gaps (R378 to R380). -/

/-- The gap counter's maximum. -/
def gapMax : Nat := 2 ^ 48 - 1

def timeCounterRestartGuard (s : State) : Bool := s.time.stopped && timeCanRun s

/-- The counter resumes from the value at which it stopped; the gap is latched. -/
def timeCounterRestartEffect (s : State) : State :=
  let sat := s.time.gapSat || decide (gapMax ≤ s.time.gap)
  let s1 := { s with time := { s.time with
      stopped := false, gapCount := s.time.gap, gap := 0, gapFrac := 0, gapSat := sat, isSet := false, unset := sat,
      estimated := false, estimateFrom := if sat then none else some s.now, src := trunkSource s } }
  whenB sat (setFlag aTimFlags 5) (setFlag aTimFlags 3 s1)

def execTimeCounterRestart (s : State) : Host.Outcome State Fault Refusal :=
  .next (whenB (timeCounterRestartGuard s) timeCounterRestartEffect s)

def gapSatGuard (s : State) : Bool := s.time.stopped && decide (gapMax ≤ s.time.gap)

/-- The gap counter stands at its maximum. -/
def gapSatEffect (s : State) : State := setFlag aTimFlags 5 { s with time := { s.time with gap := gapMax, gapSat := true } }

def execGapSat (s : State) : Host.Outcome State Fault Refusal := .next (whenB (gapSatGuard s) gapSatEffect s)

/-- Ring cycles in a second: RING_PER_S, or the nominal value (R379). -/
def ringRate (s : State) : Nat := if s.time.ringPerS = 0 then 25000000 else s.time.ringPerS

/-- The estimated gap in 1/65,536 ns. -/
def gapUnits (s : State) : Nat := s.time.gapCount * 1000000000 * 65536 / ringRate s

def gapEstimateGuard (s : State) : Bool := s.time.estimateFrom.isSome && !s.time.stopped

/-- The counter is stepped by the estimate; the seconds of the gap count as DORMANT in the bins of the enabled groups (R212,
R380). -/
def gapEstimateEffect (s : State) : State :=
  let t0 := s.time.sec.toNat
  let s1 := stepCounter (gapUnits s) s
  let s2 := { s1 with time := { s1.time with estimated := true, estimateFrom := none, isSet := false,
                                             ratioNominal := s.time.ringPerS == 0 } }
  let s3 := setFlag aTimFlags 4 s2
  foldS [0, 1, 2, 3] (fun g st => if groupEnabled st g then modGroup st g fun x => { x with
    pm := if t0 < st.time.sec.toNat then pmGap t0 st.time.sec.toNat x.pm else x.pm } else st) s3

def execGapEstimate (s : State) : Host.Outcome State Fault Refusal := .next (whenB (gapEstimateGuard s) gapEstimateEffect s)

/-- XTAL and the ring both run (R379). -/
def ringMeasureGuard (s : State) : Bool :=
  let x := (meterOf s 0 0).st
  let r := (meterOf s 0 3).st
  x != .failed && x != .off && r != .failed && r != .off

def ringMeasureEffect (cycles : Nat) (s : State) : State :=
  { s with time := { s.time with ringPerS := cycles % 2 ^ 27, ratioNominal := false } }

def execRingMeasure (cycles : Nat) (s : State) : Host.Outcome State Fault Refusal :=
  .next (whenB (ringMeasureGuard s) (ringMeasureEffect cycles) s)

/-! TIME_SET (R387). -/

def tsOp (r : Request) : Nat := r.u8 0

def timeSetChecks (r : Request) (s : State) : List Check :=
  [ckLen r 16,
   ckRange (decide (3 < tsOp r) || resv r 3 1 || (tsOp r == 0 && decide (1 < r.u8 1)) ||
     (tsOp r == 2 && decide (1000000000 ≤ r.u32 10)) || (tsOp r == 3 && (decide (1 < r.u8 2) || !incOk (leAt r.payload 4 5)))),
   ⟨s.time.stopped && (tsOp r == 1 || tsOp r == 2), .busy⟩,
   ⟨!s.time.host && tsOp r != 0, .conflict⟩]

/-- The value of SET in 1/65,536 ns. -/
def tsValue (r : Request) : Nat := leAt r.payload 4 6 * secUnits + r.u32 10 * 65536 + r.u16 14

def timeSetApply (r : Request) (s : State) : Done :=
  match tsOp r with
  | 0 => okDone { s with time := { s.time with
      host := r.u8 1 == 1, resume := s.time.resume || (s.time.host && r.u8 1 == 0) } }
  | 1 => okDone (relock (stepCounter (signed 64 (r.u64 4)) s))
  | 2 => okDone (relock (stepCounter ((tsValue r : Int) - (timeUnits s : Int)) s))
  | _ =>
    if r.u8 2 = 0 then okDone { s with time := { s.time with incTrunk := leAt r.payload 4 5, slewEnd := none } }
    else okDone { s with time := { s.time with incXtal := leAt r.payload 4 5 } }

def execTimeSet (s : State) : Host.Outcome State Fault Refusal := .next (runCommand 0x0700 timeSetChecks timeSetApply s)

/-! TIME_JUMP_ACCEPT (R388). -/

def timeJumpAcceptChecks (r : Request) (s : State) : List Check :=
  [ckLen r 4, ckRange (decide (3 < r.u8 0) || decide (1 < r.u8 1) || resv r 2 2),
   ⟨s.time.latches[(Fin.ofNat 4 (r.u8 0) : GroupId)].isNone, .conflict⟩]

def timeJumpAcceptApply (r : Request) (s : State) : Done :=
  let g : GroupId := Fin.ofNat 4 (r.u8 0)
  match s.time.latches[g] with
  | some j => if r.u8 1 = 0 then okDone (acceptTod g j (putLatch g none s)) else okDone (putLatch g none s)
  | none => okDone s

def execTimeJumpAccept (s : State) : Host.Outcome State Fault Refusal :=
  .next (runCommand 0x0701 timeJumpAcceptChecks timeJumpAcceptApply s)

/-! TIME_OUTPUT_SET (R386, R389) and PTP_SET (R390). -/

def timeOutputSetChecks (r : Request) (_ : State) : List Check :=
  [ckLen r 12,
   ckRange (decide (7 < r.u8 0) || resv r 1 3 || decide (r.u32 4 < 1) || decide (500000 < r.u32 4) ||
     decide (signed 32 (r.u32 8) < -100000) || decide (100000 < signed 32 (r.u32 8)))]

def timeOutputSetApply (r : Request) (s : State) : Done :=
  okDone { s with time := { s.time with
    ppsEn := natBit (r.u8 0) 0, tenMEn := natBit (r.u8 0) 1, squelch := natBit (r.u8 0) 2,
    width := r.u32 4, outDelay := signed 32 (r.u32 8) } }

def execTimeOutputSet (s : State) : Host.Outcome State Fault Refusal :=
  .next (runCommand 0x0702 timeOutputSetChecks timeOutputSetApply s)

def ptpSetChecks (r : Request) (s : State) : List Check :=
  [ckLen r 12,
   ckRange (decide (1000000000 < r.u32 0) || decide (15 < r.u8 8) || decide (1 < r.u8 9) || resv r 10 2 ||
     (List.range 32).any fun n => natBit (r.u32 4) n && !present s (n / 4))]

def ptpSetApply (r : Request) (s : State) : Done :=
  okDone { s with time := { s.time with
    jumpLimit := r.u32 0, tcHost := BitVec.ofNat 32 (r.u32 4), tcFabric := r.u8 9 == 1,
    tcTrunk := Vector.ofFn fun g : Fin 4 => natBit (r.u8 8) g.val } }

def execPtpSet (s : State) : Host.Outcome State Fault Refusal := .next (runCommand 0x0703 ptpSetChecks ptpSetApply s)

/-! What the registers and pins show (R373, R380, R386). -/

/-- TIME_STATE. -/
def timeState (s : State) : Nat :=
  if s.time.estimated then 4
  else if s.time.host then 5
  else if s.time.unset then 0
  else match timeGroup s with
    | some g => (match (groupAt s g).timeSt with
      | .none => 0
      | .coarse => 1
      | .locked => 2
      | .holdover => 3)
    | none => 0

/-- Both outputs are held low while the counter is stopped, and with SQUELCH while TIME_STATE is not LOCKED. -/
def outputsLow (s : State) : Bool := s.time.stopped || (s.time.squelch && timeState s != 2)

/-- The counter less OUT_DELAY, in ps. -/
def outPs (s : State) : Int := ((timeUnits s * 1000 / 65536 : Nat) : Int) - s.time.outDelay

/-- The last whole second of the counter less OUT_DELAY is one of the value that the last step left, or later: after a step the next
pulse falls at the first whole second of the new value (R386). -/
def sincePpsStep (s : State) : Bool :=
  decide ((s.time.steppedTo : Int) ≤ outPs s / 1000000000000 * secUnits)

/-- Level of TIME_PPS: high for WIDTH from each whole second plus OUT_DELAY. -/
def ppsPin (s : State) : Bool :=
  s.time.ppsEn && !outputsLow s && sincePpsStep s && decide (outPs s % 1000000000000 < (s.time.width * 1000000 : Nat))

/-- Level of TIME_10M: high in the first half of each 100 ns. -/
def tenMPin (s : State) : Bool := s.time.tenMEn && !outputsLow s && decide (outPs s % 100000 < 50000)

end Sys2Proof.Machine
end

