-- ==== Sys2Proof/Machine/Clocks.lean ====
section
/-!
DEFINITION. Machine/Clocks.lean: clock sources, light meters, domains, voltage and frequency levels and thermal actions
(spec/19_clocks_power_reset.md, R512 to R525).
-/
namespace Sys2Proof.Machine

def aPwrFlags (k : SliceId) : Nat := sliceReg k.val 0xA00004
/-- Counters of R541. -/
def aPwr (k : SliceId) (off : Nat) : Nat := sliceReg k.val (0xA00400 + off)

def modPw (s : State) (k : SliceId) (f : SlicePw → SlicePw) : State :=
  { s with power := { s.power with slices := vmod s.power.slices k f } }

def pwAt (s : State) (k : SliceId) : SlicePw := s.power.slices[k]

/-! Sources (R512, R515). -/

/-- Index of a source's meter: its code, and 4 + g for TRUNK of group g. -/
def srcMeter : ClockSrc → Fin 8
  | .xtal => 0
  | .refHost => 1
  | .refPcie => 2
  | .ring => 3
  | .trunk g => ⟨4 + g.val, by omega⟩

/-- Source code of R512. -/
def srcCode : ClockSrc → Nat
  | .xtal => 0
  | .refHost => 1
  | .refPcie => 2
  | .ring => 3
  | .trunk _ => 4

/-- Trunk ticks of a source's 65,536 own cycles. -/
def srcStart : ClockSrc → Nat
  | .xtal => 1048576
  | .refHost => 335545
  | .refPcie => 524288
  | .ring => 2097152
  | .trunk _ => 65536

def modMeter (s : State) (k : SliceId) (i : Fin 8) (f : Meter → Meter) : State :=
  modPw s k fun p => { p with meters := vmod p.meters i f }

/-! Domains (R513, R519, R520); numbers in the order of R538. -/

/-- Domain number. -/
def domainNo : Domain → Fin 8
  | .core => 0
  | .hbm => 1
  | .mgmt => 2
  | .host => 3
  | .fabric => 4
  | .service => 5
  | .line => 6

/-- The domain exists on the slice (R22, R513). -/
def domainExists (s : State) (k : SliceId) (d : Fin 8) : Bool :=
  present s k.val && d != 7 && (!(d == 1 || d == 2 || d == 5) || decide (k.val < 2))

/-- Trunk ticks that the PLL or synthesiser of a domain takes from its enable (R515). -/
def pllStart (d : Fin 8) : Nat :=
  if d = 0 then 34953 else if d = 1 then 58255 else if d = 2 then 65536 else 335545

/-- A source by its code is stable and GOOD for a domain: its PLL or synthesiser has run for its start count since the source
came back (R515, R518). -/
def sourceReady (s : State) (k : SliceId) (d : Fin 8) (src : Nat) : Bool :=
  if h : src < 8 then
    let m := meterOf s k ⟨src, h⟩
    src != 7 && m.st == .good && (m.at_ == 0 || since s m.at_ (pllStart d))
  else false

/-- FALLBACK_READY. -/
def fallbackReady (s : State) (k : SliceId) (d : Fin 8) : Bool := sourceReady s k d (pwAt s k).domains[d].fallback

/-- The serial lanes that a lane domain clocks. -/
def domainLanes (s : State) (k : SliceId) (d : Fin 8) : List LaneNo :=
  (sliceSerials k).filter fun n =>
    (d == 3 && (noHost n).isSome) || (d == 4 && (noFab n).isSome) || (d == 5 && noIdx n == 10) ||
      (d == 6 && match noLine n with
        | some l => (boundGroup s l).isNone
        | none => false)

/-- The host, fabric or service lanes of a domain start anew (R519). -/
def restartLanes (k : SliceId) (d : Fin 8) (s : State) : State := if d = 6 then s else foldS (domainLanes s k d) laneStart s

def modDomain (s : State) (k : SliceId) (d : Fin 8) (f : DomainSt → DomainSt) : State :=
  modPw s k fun p => { p with domains := vmod p.domains d f }

/-- A switch is flagged, counted and recorded. -/
def noteSwitch (k : SliceId) (d src dst : Nat) (s : State) : State :=
  logEvent 0x0802 .warning (BitVec.ofNat 8 k.val) [BitVec.ofNat 8 k.val, BitVec.ofNat 8 d, BitVec.ofNat 8 src, BitVec.ofNat 8 dst]
    (setFlag (aPwrFlags k) 5 (count1 (aPwr k 0x28) s))

/-- A stop is flagged, counted and recorded. -/
def noteStop (k : SliceId) (d src : Nat) (s : State) : State :=
  logEvent 0x0803 .error (BitVec.ofNat 8 k.val) [BitVec.ofNat 8 k.val, BitVec.ofNat 8 d, BitVec.ofNat 8 src]
    (setFlag (aPwrFlags k) 6 (count1 (aPwr k 0x30) s))

/-- The domain moves to its other source. -/
def swapSource (x : DomainSt) : DomainSt := { x with source := x.fallback, fallback := x.source, stopped := false }

/-- A domain whose source failed switches to its stable fallback, or stops (R519, R520). -/
def failDomain (k : SliceId) (src : Nat) (d : Fin 8) (s : State) : State :=
  let x := (pwAt s k).domains[d]
  if domainExists s k d && x.source == src && !x.stopped then
    if fallbackReady s k d then restartLanes k d (noteSwitch k d.val src x.fallback (modDomain s k d swapSource))
    else noteStop k d.val src (modDomain s k d fun y => { y with stopped := true })
  else s

/-- What else runs from a source and has no entry in the order of R538: the PCIe PHY stops and takes the link down, as a surprise
link-down (R520, R553), the safelight domain stops, and the time clock leaves TRUNK (R513, R520). -/
def failOther (k : SliceId) (src : ClockSrc) (s : State) : State :=
  match src with
  | .refPcie =>
    if k.val < 2 then
      let s1 := noteStop k 7 2 s
      if s.anchor.pcieUp && anchorSlice s == some (Fin.ofNat 2 k.val) then pcieDown s1 else s1
    else s
  | .ring =>
    let s1 := noteStop k 7 3 s
    if s1.time.stopped && k.val == 0 then { s1 with time := { s1.time with gapSat := true } } else s1
  | .trunk g =>
    if s.time.src.any fun t => t.1 == g then
      if xtalReady s then noteSwitch k 7 4 0 s else noteStop k 7 4 s
    else s
  | _ => s

/-- A source is FAILED by the stop test (0) or the frequency test (1) (R516). -/
def failSource (k : SliceId) (src : ClockSrc) (test : Nat) (s : State) : State :=
  let s1 := modMeter s k (srcMeter src) fun m => { m with st := .failed, at_ := s.now, bad := if test = 1 then 2 else m.bad }
  let s2 := logEvent 0x0801 .warning (BitVec.ofNat 8 k.val) [BitVec.ofNat 8 k.val, BitVec.ofNat 8 (srcCode src), BitVec.ofNat 8 test]
    (setFlag (aPwrFlags k) 8 s1)
  failOther k src (linkChange (foldS (List.finRange 8) (failDomain k (srcCode src))) s2)

/-! CLOCK_STABLE (R515). -/

/-- TRUNK of a group at a slice: its time lane lies there and has been in SYNC for the start count. -/
def trunkStable (s : State) (k : SliceId) (g : GroupId) : Bool :=
  match timeLane s g with
  | some l => groupEnabled s g && laneSlice l == k && (match (laneAt s l).syncSince with
      | some t => since s t (srcStart (.trunk g))
      | none => false)
  | none => false

def clockStableGuard (slice : SliceId) (source : ClockSrc) (s : State) : Bool :=
  let m := meterOf s slice (srcMeter source)
  present s slice.val && match source with
    | .trunk g => (m.st == .off || m.st == .starting) && trunkStable s slice g
    | _ => m.st == .starting && since s m.at_ (srcStart source)

def clockStableEffect (slice : SliceId) (source : ClockSrc) (s : State) : State :=
  modMeter s slice (srcMeter source) fun m => { m with st := .good, at_ := 0, bad := 0 }

def execClockStable (slice : SliceId) (source : ClockSrc) (s : State) : Host.Outcome State Fault Refusal :=
  .next (whenB (clockStableGuard slice source s) (clockStableEffect slice source) s)

/-! CLOCK_STOP_DETECT (R516). -/

/-- A meter that is monitored. -/
def monitored (m : Meter) : Bool := m.st == .good || m.st == .suspect || m.st == .failed

def clockStopDetectGuard (slice : SliceId) (source : ClockSrc) (s : State) : Bool :=
  present s slice.val && monitored (meterOf s slice (srcMeter source)) &&
    (source == .ring || (meterOf s slice 3).st != .failed)

/-- SUSPECT of the other of the pair ends when one of them fails its stop test (R517). -/
def endSuspect (k : SliceId) (i : Fin 8) (s : State) : State :=
  modMeter s k i fun m => if m.st == .suspect then { m with st := .good, at_ := 0, bad := 0 } else m

def clockStopDetectEffect (slice : SliceId) (source : ClockSrc) (s : State) : State :=
  if (meterOf s slice (srcMeter source)).st == .failed then modMeter s slice (srcMeter source) fun m => { m with at_ := s.now }
  else
    let s1 := match source with
      | .xtal => endSuspect slice 1 s
      | .refHost => endSuspect slice 0 s
      | _ => s
    failSource slice source 0 s1

def execClockStopDetect (slice : SliceId) (source : ClockSrc) (s : State) : Host.Outcome State Fault Refusal :=
  .next (whenB (clockStopDetectGuard slice source s) (clockStopDetectEffect slice source) s)

/-! FREQ_WINDOW (R516, R517). -/

/-- The reference of a source's meter. -/
def srcRef : ClockSrc → Fin 8
  | .xtal => 1
  | _ => 0

/-- A window inside the limits. -/
def inLimits (src : ClockSrc) (ppm : Int) : Bool :=
  match src with
  | .xtal | .refHost => decide (-500 ≤ ppm) && decide (ppm ≤ 500)
  | .refPcie => decide (-5600 ≤ ppm) && decide (ppm ≤ 500)
  | .ring => decide (-200000 ≤ ppm) && decide (ppm ≤ 200000)
  | .trunk _ => decide (-200 ≤ ppm) && decide (ppm ≤ 200)

def freqWindowGuard (slice : SliceId) (source : ClockSrc) (s : State) : Bool :=
  let r := (meterOf s slice (srcRef source)).st
  present s slice.val && monitored (meterOf s slice (srcMeter source)) && r != .failed && r != .starting

/-- Both of the pair are SUSPECT (R517). -/
def suspectPair (k : SliceId) (s : State) : State :=
  let sus := fun (i : Fin 8) (st : State) => modMeter st k i fun m => { m with st := .suspect, at_ := s.now, bad := 0 }
  let s1 := setFlag (aPwrFlags k) 7 (sus 1 (sus 0 s))
  let p := fun (i : Fin 8) => toLe 2 ((meterOf s k i).ppm % 65536).toNat
  logEvent 0x0804 .error (BitVec.ofNat 8 k.val) (p 0 ++ p 1) s1

/-- A count over 2^20 ring cycles of a source of `hz` differs by more than 2 % from the count that RING_PER_S lets expect. -/
def offRing (s : State) (hz count : Nat) : Bool :=
  let expect := (hz * 2 ^ 20 : Nat)
  decide ((expect : Int) < 50 * ((count * ringRate s : Nat) - (expect : Int)).natAbs)

/-- The pair after a frequency trip: the one that alone differs from the ring by more than 2 % fails, otherwise both are
SUSPECT; without the counts neither can be told. -/
def tripPair (k : SliceId) (r : Option RingCmp) (s : State) : State :=
  let clear := fun (i : Fin 8) (st : State) => modMeter st k i fun m => { m with bad := 0 }
  match r with
  | some c =>
    let x := offRing s 50000000 c.xtalCount
    let y := offRing s 156250000 c.refCount
    if x && !y then failSource k .xtal 1 (clear 1 s)
    else if y && !x then failSource k .refHost 1 (clear 0 s)
    else suspectPair k s
  | none => suspectPair k s

/-- A second consecutive window outside the limits trips the meter. -/
def tripSource (k : SliceId) (src : ClockSrc) (r : Option RingCmp) (s : State) : State :=
  match src with
  | .xtal | .refHost => tripPair k r s
  | _ => failSource k src 1 s

def freqWindowEffect (slice : SliceId) (source : ClockSrc) (ppm : Int) (ring : Option RingCmp) (s : State) : State :=
  let i := (srcMeter source)
  let s1 := modMeter s slice i fun m => { m with ppm := ppm }
  let m := meterOf s slice i
  if m.st == .good then
    if inLimits source ppm then modMeter s1 slice i fun x => { x with bad := 0 }
    else if 1 ≤ m.bad then tripSource slice source ring (modMeter s1 slice i fun x => { x with bad := 2 })
    else modMeter s1 slice i fun x => { x with bad := 1 }
  else if inLimits source ppm then s1
  else modMeter s1 slice i fun x => { x with at_ := s.now }

def execFreqWindow (slice : SliceId) (source : ClockSrc) (ppm : Int) (ring : Option RingCmp) (s : State) :
    Host.Outcome State Fault Refusal :=
  .next (whenB (freqWindowGuard slice source s) (freqWindowEffect slice source ppm ring) s)

/-! CLOCK_RECOVER (R517, R518) and DOMAIN_RESTART (R520). -/

/-- Both of the pair have passed for 1 s. -/
def pairPassed (s : State) (k : SliceId) : Bool :=
  since s (meterOf s k 0).at_ secTicks && since s (meterOf s k 1).at_ secTicks

def clockRecoverGuard (slice : SliceId) (source : ClockSrc) (s : State) : Bool :=
  let m := meterOf s slice (srcMeter source)
  present s slice.val && ((m.st == .failed && since s m.at_ secTicks) || (m.st == .suspect && pairPassed s slice))

/-- A FAILED source is GOOD again and its PLLs restart from their enable; SUSPECT ends for both of the pair. -/
def clockRecoverEffect (slice : SliceId) (source : ClockSrc) (s : State) : State :=
  if (meterOf s slice (srcMeter source)).st == .suspect then endSuspect slice 1 (endSuspect slice 0 s)
  else modMeter s slice (srcMeter source) fun m => { m with st := .good, at_ := s.now, bad := 0 }

def execClockRecover (slice : SliceId) (source : ClockSrc) (s : State) : Host.Outcome State Fault Refusal :=
  .next (whenB (clockRecoverGuard slice source s) (clockRecoverEffect slice source) s)

def domainRestartGuard (slice : SliceId) (domain : Domain) (s : State) : Bool :=
  let x := (pwAt s slice).domains[(domainNo domain)]
  domainExists s slice (domainNo domain) && x.stopped && (sourceReady s slice (domainNo domain) x.source || sourceReady s slice (domainNo domain) x.fallback)

/-- Requests that waited for the HBM clock are served (R520). -/
def serveSlice (k : SliceId) (s : State) : State :=
  foldS ((List.finRange 8).filter fun c => (chanOwner c).val == k.val && (chanAt s c).st == .service) serveWaiting s

/-- The domain restarts on the source that is stable. -/
def domainRestartEffect (slice : SliceId) (domain : Domain) (s : State) : State :=
  let d := (domainNo domain)
  let own := sourceReady s slice d (pwAt s slice).domains[d].source
  let f := fun st : State => modDomain st slice d fun x => if own then { x with stopped := false } else swapSource x
  let s1 := restartLanes slice d (linkChange f s)
  if d = 1 then serveSlice slice s1 else s1

def execDomainRestart (slice : SliceId) (domain : Domain) (s : State) : Host.Outcome State Fault Refusal :=
  .next (whenB (domainRestartGuard slice domain s) (domainRestartEffect slice domain) s)

/-! Levels (R521 to R524). -/

/-- Core voltage of a level in mV. -/
def levelMv (n : Nat) : Nat := [800, 720, 650, 600].getD n 600

/-- The level a slice goes to: the one requested, within the thermal cap. -/
def wantedLevel (p : SlicePw) : Nat := if p.capped then max 1 p.levelReq else p.levelReq

/-- A slice whose core level follows the requested one. -/
def levelRuns (s : State) (k : SliceId) : Bool := present s k.val && (s.power.st[k] == .run || s.power.st[k] == .idle)

/-- A step up whose acknowledgement came 20 us ago. -/
def stepSettled (s : State) (p : SlicePw) : Bool :=
  match p.avs with
  | some a => a.up && (match a.acked with
      | some t => since s t (20 * usTicks)
      | none => false)
  | none => false

/-- A step can begin. -/
def stepWanted (s : State) (p : SlicePw) : Bool :=
  p.avs.isNone && p.level != wantedLevel p &&
    (if p.level < wantedLevel p then (anchorSlice s).isSome || p.capped else (anchorSlice s).isSome && !p.unconfirmed)

def dvfsStepGuard (slice : SliceId) (s : State) : Bool :=
  levelRuns s slice && (stepSettled s (pwAt s slice) || stepWanted s (pwAt s slice))

/-- A step down: frequency first, then the voltage if a slice drives AVSBus (R522, R524). -/
def stepDown (k : SliceId) (s : State) : State :=
  modPw s k fun p => { p with
    level := p.level + 1,
    avs := if (anchorSlice s).isSome then some { target := p.level + 1, up := false, sentAt := s.now } else none }

/-- A step up sends the voltage and, settled, changes the frequency. -/
def dvfsStepEffect (slice : SliceId) (s : State) : State :=
  let p := pwAt s slice
  match p.avs with
  | some a => modPw s slice fun x => { x with level := a.target, avs := none }
  | none =>
    if p.level < wantedLevel p then stepDown slice s
    else modPw s slice fun x => { x with avs := some { target := x.level - 1, up := true, sentAt := s.now } }

def execDvfsStep (slice : SliceId) (s : State) : Host.Outcome State Fault Refusal :=
  .next (whenB (dvfsStepGuard slice s) (dvfsStepEffect slice) s)

/-- An acknowledgement is awaited. -/
def ackAwaited (s : State) (k : SliceId) : Bool := (pwAt s k).avs.any fun a => a.acked.isNone

def avsAckGuard (slice : SliceId) (s : State) : Bool := ackAwaited s slice

/-- The step down is over; the step up waits for its rail. -/
def avsAckEffect (slice : SliceId) (s : State) : State :=
  modPw s slice fun x => { x with avs := match x.avs with
    | some a => if a.up then some { a with acked := some s.now } else none
    | none => none }

def execAvsAck (slice : SliceId) (s : State) : Host.Outcome State Fault Refusal :=
  .next (whenB (avsAckGuard slice s) (avsAckEffect slice) s)

def avsTimeoutGuard (slice : SliceId) (s : State) : Bool :=
  (pwAt s slice).avs.any fun a => a.acked.isNone && since s a.sentAt (100 * usTicks)

/-- The slice stays at the lower frequency of the step (R523). -/
def avsTimeoutEffect (slice : SliceId) (s : State) : State :=
  let t := match (pwAt s slice).avs with
    | some a => a.target
    | none => 0
  let s1 := modPw s slice fun x => { x with avs := none, unconfirmed := true, lastPoll := s.now }
  logEvent 0x0806 .error (BitVec.ofNat 8 slice.val) [BitVec.ofNat 8 slice.val, BitVec.ofNat 8 t]
    (setFlag (aPwrFlags slice) 1 (count1 (aPwr slice 0x00) s1))

def execAvsTimeout (slice : SliceId) (s : State) : Host.Outcome State Fault Refusal :=
  .next (whenB (avsTimeoutGuard slice s) (avsTimeoutEffect slice) s)

def avsPollGuard (slice : SliceId) (s : State) : Bool :=
  (pwAt s slice).unconfirmed && (anchorSlice s).isSome && since s (pwAt s slice).lastPoll msTicks

/-- A reading of at least the voltage of the level above clears AVS_UNCONFIRMED. -/
def avsPollEffect (slice : SliceId) (millivolt : Nat) (s : State) : State :=
  modPw s slice fun x => { x with lastPoll := s.now, unconfirmed := decide (millivolt < levelMv (x.level - 1)) }

def execAvsPoll (slice : SliceId) (millivolt : Nat) (s : State) : Host.Outcome State Fault Refusal :=
  .next (whenB (avsPollGuard slice s) (avsPollEffect slice millivolt) s)

/-! Thermal actions (R525); readings in 1/16 degree. -/

/-- A reading of a die sensor. -/
def noteTemp (k : SliceId) (sensor : Nat) (reading : Int) (s : State) : State :=
  modPw s k fun p => { p with temps := p.temps.set (Fin.ofNat 4 sensor) reading }

/-- Every sensor of the slice reads 95 degrees or below. -/
def coolEnough (p : SlicePw) : Bool := (List.finRange 4).all fun i => decide (p.temps[i] ≤ 1520)

/-- The comparators of a slice act: its core is powered and it has not shut down. -/
def hotGuard (s : State) (k : SliceId) (sensor : Nat) : Bool :=
  present s k.val && decide (sensor < 4) && s.power.st[k] != .dormant && !(pwAt s k).shutdown

def thermalData (k : SliceId) (sensor : Nat) (reading : Int) : List Byte :=
  [BitVec.ofNat 8 k.val, BitVec.ofNat 8 sensor] ++ toLe 4 (BitVec.ofInt 32 reading).toNat

def thermalThrottleGuard (slice : SliceId) (sensor : Nat) (reading : Int) (s : State) : Bool :=
  hotGuard s slice sensor && decide (1600 ≤ reading)

/-- The slice is capped at P1, and steps down at once if it stands above. -/
def thermalThrottleEffect (slice : SliceId) (sensor : Nat) (reading : Int) (s : State) : State :=
  let s1 := noteTemp slice sensor reading s
  if (pwAt s slice).capped then s1
  else
    let s2 := setFlag (aPwrFlags slice) 0 (modPw s1 slice fun p => { p with capped := true })
    let s3 := logEvent 0x0807 .warning (BitVec.ofNat 8 slice.val) (thermalData slice sensor reading) s2
    if (pwAt s3 slice).level = 0 ∧ (pwAt s3 slice).avs.isNone then stepDown slice s3 else s3

def execThermalThrottle (slice : SliceId) (sensor : Nat) (reading : Int) (s : State) : Host.Outcome State Fault Refusal :=
  .next (whenB (thermalThrottleGuard slice sensor reading s) (thermalThrottleEffect slice sensor reading) s)

def thermalCapReleaseGuard (slice : SliceId) (s : State) : Bool := (pwAt s slice).capped && coolEnough (pwAt s slice)

def thermalCapReleaseEffect (slice : SliceId) (s : State) : State := modPw s slice fun p => { p with capped := false }

def execThermalCapRelease (slice : SliceId) (s : State) : Host.Outcome State Fault Refusal :=
  .next (whenB (thermalCapReleaseGuard slice s) (thermalCapReleaseEffect slice) s)

/-- Every lane of a slice goes dark in a power state. -/
def darken (k : SliceId) (p : LanePower) (s : State) : State :=
  slicePower k p (foldS ((sliceSerials k).filter fun n => laneExists s n) laneStart s)

/-- Bridge ports of a slice go down. -/
def dropBridges (k : SliceId) (s : State) : State :=
  { s with bridge := { s.bridge with ports := vmod s.bridge.ports k fun v => v.map fun b =>
      { b with up := false, goodRun := 0, unacked := [], sendQ := [] } } }

/-- POWER_STATE codes of SLICE_STATES. -/
def SlicePower.code : SlicePower → Nat
  | .run => 0
  | .idle => 1
  | .drowse => 2
  | .dormant => 3
  | .waking => 4
  | .quiescing => 5
  | .down => 6

/-- A slice changes its power state, with a POWER_STATE record for other changes than RUN to IDLE and back. -/
def setPower (k : SliceId) (p : SlicePower) (s : State) : State :=
  let old := s.power.st[k]
  let s1 := modPw { s with power := { s.power with st := s.power.st.set k p } } k fun x => { x with since := s.now }
  let quiet : Bool := old == p || (old == .run && p == .idle) || (old == .idle && p == .run)
  if quiet then s1
  else logEvent 0x0809 .notice (BitVec.ofNat 8 k.val) [BitVec.ofNat 8 k.val, BitVec.ofNat 8 old.code, BitVec.ofNat 8 p.code] s1

def thermalShutdownGuard (slice : SliceId) (sensor : Nat) (reading : Int) (s : State) : Bool :=
  hotGuard s slice sensor && decide (1840 ≤ reading)

/-- An anchor-capable slice that shuts down is FAULTED; the anchor's is its own fault. -/
def faultHalf (k : SliceId) (s : State) : State :=
  if h : k.val < 2 then
    let c : Half := ⟨k.val, h⟩
    if (capAt s c).st == .anchor then anchorOwnFaultEffect c s else setAnchor c .faulted (setDrive c false s)
  else s

/-- The slice stops at once: lanes and bridge ports OFF, rail open, THERMTRIP_N asserted while latched. -/
def thermalShutdownEffect (slice : SliceId) (sensor : Nat) (reading : Int) (s : State) : State :=
  let s1 := abortTransfers slice (modPw (noteTemp slice sensor reading s) slice fun p => { p with shutdown := true, avs := none })
  let s2 := linkChange (fun st => dropBridges slice (setPower slice .down st)) (darken slice .off s1)
  logEvent 0x0808 .critical (BitVec.ofNat 8 slice.val) (thermalData slice sensor reading) (faultHalf slice s2)

def execThermalShutdown (slice : SliceId) (sensor : Nat) (reading : Int) (s : State) : Host.Outcome State Fault Refusal :=
  .next (whenB (thermalShutdownGuard slice sensor reading s) (thermalShutdownEffect slice sensor reading) s)

/-- THERMTRIP_N is asserted: a thermal shutdown is latched (R525, R555). -/
def thermTrip (s : State) : Bool := (List.finRange 8).any fun k => (pwAt s k).shutdown

end Sys2Proof.Machine
end

