-- ==== Sys2Proof/Machine/FabLink.lean ====
section
/-!
DEFINITION. Machine/FabLink.lean: a fabric link goes DOWN: its cause, its routes' alternates, its queued cells
(spec/16_fabric.md, R436, R443, R445, R449), as shared operations.
-/
namespace Sys2Proof.Machine

/-- The device's own links, address or costs have changed: an LSA and a recomputation are due. -/
def ownChanged (s : State) : State :=
  { s with fabric := { s.fabric with ownChangedAt := some (s.fabric.ownChangedAt.getD s.now), dbChanged := true } }

/-! Receive contexts (R449). -/

/-- Contexts of sources that are no longer reachable go, with the cells they hold. -/
def pruneRx (s : State) : State :=
  { s with fabric := { s.fabric with rx := s.fabric.rx.filter fun e => fabReachable s (e.1 / 4) } }

/-! Links DOWN (R436, R445). -/

/-- DOWN_CAUSE codes. -/
def causeAlign : Nat := 1
def causeSilent : Nat := 2
def causeHello : Nat := 3
def causeOneWay : Nat := 4
def causeXoff : Nat := 5
def causeTest : Nat := 6
def causeDisabled : Nat := 7

/-- A lane in DOWN with its cause. -/
def laneDown (cause : Nat) (y : FabLaneSt) : FabLaneSt :=
  { y with adj := .down, cause := cause, neighId := 0, neighAddr := 0, neighLane := 0, neighLpi := false, heldHigh := false,
           heldNormal := false, lsasSent := false, lsaSeen := false, queues := Vector.replicate 3 [] }

/-- An entry whose last FULL primary lane went moves to its alternate set; the slice of that lane counts (R445). -/
def useAlternate (l : FabLane) (a : Fin 64) (s : State) : State :=
  let r := s.fabric.routes[a]
  if r.altActive || !r.primary.getLsbD l.val || r.alternate == 0 || !(fullLanes s r.primary).isEmpty then s
  else
    let s1 := { s with fabric := { s.fabric with routes := s.fabric.routes.set a { r with altActive := true } } }
    setFlag aFabFlags 4 (count1 (aFab (l.val / 2) 0x30) s1)

/-- Cells that waited on a lane go ahead of newer cells on the route in force. -/
def putAhead (k : Nat) (cs : List CellOut) (s : State) : State :=
  let target := fun c : CellOut => routeLane s (chDest c.header) (chHash c.header)
  let moved := (List.finRange 16).foldl (fun st l =>
    let mine := cs.filter fun c => target c == some l && path s k (l.val / 2)
    if mine.isEmpty then st
    else fabDrain l (modFab st l fun y => { y with
      queues := Vector.ofFn fun q : Fin 3 => (mine.filter fun c => chClass c.header % 3 == q.val) ++ y.queues[q] })) s
  foldS (cs.filter fun c => match target c with | some l => !path s k (l.val / 2) | none => true) (fabRoute k) moved

/-- The lane goes DOWN with a cause: flags, count, alternates, and its queued cells on the routes in force (R436, R445). -/
def takeDown (l : FabLane) (cause : Nat) (s : State) : State :=
  let y := fabAt s l
  if y.adj == .down then modFab s l fun z => { z with heldHigh := false, heldNormal := false }
  else
    let cells := (List.finRange 3).flatMap fun q => y.queues[q]
    let s1 := count1 (aFabLane l 0x28) (setFlag (aFabLaneFlags l) 1 (modFab s l (laneDown cause)))
    let s2 := foldS (List.finRange 64) (useAlternate l) s1
    let s3 := putAhead (l.val / 2) (cells.filter fun c => chDest c.header != 0) s2
    pruneRx (if y.adj == .full then ownChanged s3 else s3)

end Sys2Proof.Machine
end

