-- ==== Sys2Proof/Machine/Lanes.lean ====
section
/-!
DEFINITION. Machine/Lanes.lean: serial lanes: clock recovery, DEEP, equalisation, loop-backs and patterns
(spec/15_serial_lanes_loopbacks.md, R415 to R431).
-/
namespace Sys2Proof.Machine

/-! CDR_LOCK_GAINED and CDR_LOST (R421). -/

/-- The service lane of a slice that is not the anchor is held in OFF and drives no signal (R415). -/
def serviceOff (s : State) (n : LaneNo) : Bool :=
  noIdx n == 10 && match anchorSlice s with
    | some h => h.val != (noSlice n).val
    | none => true

/-- The lane's receiver runs: powered, on a slice that runs, and no service lane held in OFF. -/
def receives (s : State) (n : LaneNo) : Bool := laneExists s n && (serialAt s n).rx == .run && !serviceOff s n

def cdrLockGainedGuard (lane : SerialRef) (s : State) : Bool := receives s (serialNo lane) && !s.serdes.cdrLock[serialNo lane]

def cdrLockGainedEffect (lane : SerialRef) (s : State) : State :=
  let n := serialNo lane
  setFlag (aLneFlags n) 1 { s with serdes := { s.serdes with cdrLock := s.serdes.cdrLock.set n true } }

def execCdrLockGained (lane : SerialRef) (s : State) : Host.Outcome State Fault Refusal :=
  .next (whenB (cdrLockGainedGuard lane s) (cdrLockGainedEffect lane) s)

def cdrLostGuard (lane : SerialRef) (s : State) : Bool :=
  laneExists s (serialNo lane) && s.serdes.cdrLock[serialNo lane]

/-- The group whose time lane a line lane is. -/
def timeLaneOf (s : State) (l : Lane) : Option GroupId :=
  match laneGroup s l with
  | some g => if timeLane s g == some l then some g else none
  | none => none

/-- TRUNK of the group fails on the slice of its time lane (R516). -/
def trunkLost (l : Lane) (g : GroupId) (s : State) : State :=
  if (meterOf s (laneSlice l) (srcMeter (.trunk g))).st == .good then failSource (laneSlice l) (.trunk g) 0 s else s

/-- The loss of CDR lock on a line lane ends its block lock at once (R56), and fails TRUNK where it is a time lane. -/
def lineCdrLost (l : Lane) (s : State) : State :=
  let g := timeLaneOf s l
  let s1 := if (laneAt s l).blockLock then loseBlockLock l s else s
  match g with
  | some g => trunkLost l g s1
  | none => s1

/-- A checker that has lock loses it (R429). -/
def loseChk (n : LaneNo) (s : State) : State :=
  if (serialAt s n).chkLock then
    setFlag (aLneFlags n) 5 (count1 (aLne n 0x30) (modSerial s n fun x => { x with chkLock := false }))
  else s

/-- The lane loses CDR lock; a checker on it has no symbols to match any more (log 146). -/
def cdrLostEffect (lane : SerialRef) (s : State) : State :=
  let n := serialNo lane
  let s1 := setFlag (aLneFlags n) 0 (count1 (aLne n 0x00)
    (loseChk n { s with serdes := { s.serdes with cdrLock := s.serdes.cdrLock.set n false } }))
  match noLine n with
  | some l => lineCdrLost l s1
  | none => s1

def execCdrLost (lane : SerialRef) (s : State) : Host.Outcome State Fault Refusal :=
  .next (whenB (cdrLostGuard lane s) (cdrLostEffect lane) s)

/-! DEEP (R422, R423). -/

def deepEntryGuard (lane : SerialRef) (s : State) : Bool :=
  let x := serialAt s (serialNo lane)
  laneExists s (serialNo lane) && x.tx == .run && x.rx == .run && x.deepAt.isNone && deepWanted s (serialNo lane)

def deepEntryEffect (lane : SerialRef) (s : State) : State :=
  modSerial s (serialNo lane) fun x => { x with deepAt := some s.now, deepExit := false }

def execDeepEntry (lane : SerialRef) (s : State) : Host.Outcome State Fault Refusal :=
  .next (whenB (deepEntryGuard lane s) (deepEntryEffect lane) s)

def deepEntryCompleteGuard (lane : SerialRef) (s : State) : Bool :=
  match (serialAt s (serialNo lane)).deepAt with
  | some t => since s t (10 * usTicks)
  | none => false

/-- The lane is in DEEP; where its condition has ended, exit begins at once. -/
def deepEntryCompleteEffect (lane : SerialRef) (s : State) : State :=
  let n := serialNo lane
  let s1 := laneStart n s
  count1 (aLne n 0x08) (modSerial s1 n fun x => { x with
    tx := .deep, rx := .deep, deepAt := none, deepExit := false, exitAt := if x.deepExit then some s.now else none })

def execDeepEntryComplete (lane : SerialRef) (s : State) : Host.Outcome State Fault Refusal :=
  .next (whenB (deepEntryCompleteGuard lane s) (deepEntryCompleteEffect lane) s)

/-- A lane that may leave DEEP: its condition has ended, its slice and the device carry traffic; of the service lanes only
the anchor's is active (R415, R509, R551). -/
def exitAllowed (s : State) (n : LaneNo) : Bool :=
  laneExists s n && !deepWanted s n &&
    (if noIdx n = 10 then (match anchorSlice s with
      | some h => (noSlice n).val == h.val
      | none => false)
    else sliceRuns s (noSlice n) && carriesTraffic s)

def deepExitGuard (lane : SerialRef) (s : State) : Bool :=
  let x := serialAt s (serialNo lane)
  exitAllowed s (serialNo lane) && ((x.deepAt.isSome && !x.deepExit) || (x.tx == .deep && x.exitAt.isNone))

/-- Before the last microsecond of entry the PLL is still on and the entry is aborted; later it completes and exit follows. -/
def deepExitEffect (lane : SerialRef) (s : State) : State :=
  let n := serialNo lane
  match (serialAt s n).deepAt with
  | some t =>
    if s.now < t + 9 * usTicks then setFlag (aLneFlags n) 4 (count1 (aLne n 0x10) (modSerial s n fun x => { x with deepAt := none }))
    else modSerial s n fun x => { x with deepExit := true }
  | none => modSerial s n fun x => { x with exitAt := some s.now }

def execDeepExit (lane : SerialRef) (s : State) : Host.Outcome State Fault Refusal :=
  .next (whenB (deepExitGuard lane s) (deepExitEffect lane) s)

def deepExitCompleteGuard (lane : SerialRef) (s : State) : Bool := (serialAt s (serialNo lane)).exitAt.isSome

/-- The lane is in RUN; its lane start is part of the exit, which takes at most 2 ms. -/
def deepExitCompleteEffect (lane : SerialRef) (s : State) : State :=
  laneStart (serialNo lane) (modSerial s (serialNo lane) fun x => { x with tx := .run, rx := .run, exitAt := none })

def execDeepExitComplete (lane : SerialRef) (s : State) : Host.Outcome State Fault Refusal :=
  .next (whenB (deepExitCompleteGuard lane s) (deepExitCompleteEffect lane) s)

/-! LANE_EQ_SET and LANE_EQ_READ (R420). -/

/-- A line lane, where the serial lane is one, stands in a binding in force or pending. -/
def lineBusy (s : State) (n : LaneNo) : Bool :=
  match noLine n with
  | some l => laneBoundOrPending s l
  | none => false

/-- The lane that an entry's KIND and LANE name. -/
def entryLane (e : EqRaw) : LaneNo := kindSerial e.kind e.lane

def laneEqSetChecks (r : Request) (s : State) : List Check :=
  let e := eqRaw r.payload 0
  [ckLen r 12, ckRange (!eqValid e || !laneExists s (entryLane e)), ⟨lineBusy s (entryLane e), .conflict⟩]

/-- The override stands until the next reset; the lane starts anew. -/
def laneEqSetApply (r : Request) (s : State) : Done :=
  let e := eqRaw r.payload 0
  okDone (laneStart (entryLane e) (modSerial s (entryLane e) fun x => { x with eq := e.entry, eqSource := 2 }))

def execLaneEqSet (s : State) : Host.Outcome State Fault Refusal := .next (runCommand 0x0900 laneEqSetChecks laneEqSetApply s)

def laneEqReadChecks (r : Request) (s : State) : List Check :=
  [ckLen r 4, ckRange (decide (kindLanes (r.u8 0) ≤ r.u8 1) || resv r 2 2 || !laneExists s (kindSerial (r.u8 0) (r.u8 1)))]

def laneEqReadApply (r : Request) (s : State) : Done :=
  let n := kindSerial (r.u8 0) (r.u8 1)
  let x := serialAt s n
  { st := s, payload := eqBytes n x.eq ++ [BitVec.ofNat 8 x.eqSource, 0, 0, 0] }

def execLaneEqRead (s : State) : Host.Outcome State Fault Refusal := .next (runCommand 0x0901 laneEqReadChecks laneEqReadApply s)

/-! LOOP_SET (R424, R425, R427). -/

def lsKind (r : Request) : Nat := r.u8 0
def lsTarget (r : Request) : Nat := r.u8 1
def lsSub (r : Request) : Nat := r.u8 2
def lsEmit (r : Request) : Bool := natBit (r.u8 4) 0
def lsEnd (r : Request) (s : State) : Option Nat := if r.u16 6 = 0 then none else some (s.now + r.u16 6 * secTicks)

/-- LOOP codes valid for a KIND. -/
def loopCodes (kind : Nat) : List Nat :=
  match kind with
  | 0 => [0, 1, 2, 3, 4]
  | 1 => [0, 1, 2, 3, 5]
  | 2 => [0, 1, 2, 3, 6]
  | 3 => [0, 7]
  | 4 => [0, 1, 2, 3]
  | _ => []

/-- The loop of a code. -/
def loopOf : Nat → LoopKind
  | 1 => .nes
  | 2 => .nep
  | 3 => .fes
  | 4 => .mac
  | 5 => .trunkFrame
  | 6 => .fabricCell
  | 7 => .bridge
  | _ => .none

/-- The anchor's slice, on which the service lane in use lies. -/
def anchorOr0 (s : State) : Half := (anchorSlice s).getD 0

/-- Slice of the target. -/
def lsSlice (r : Request) (s : State) : SliceId :=
  match lsKind r with
  | 0 | 1 => Fin.ofNat 8 (lsTarget r / 4)
  | 2 => Fin.ofNat 8 (lsTarget r / 2)
  | 3 => Fin.ofNat 8 (lsTarget r)
  | _ => halfSlice (anchorOr0 s)

/-- The lanes that a loop covers: every lane of the port, or the one lane. -/
def lsLanes (r : Request) (s : State) : List LaneNo :=
  match lsKind r with
  | 0 => portSerials s (Fin.ofNat 32 (lsTarget r))
  | 1 => [kindSerial 1 (lsTarget r)]
  | 2 => [kindSerial 2 (lsTarget r)]
  | 4 => [serviceSerial (anchorOr0 s)]
  | _ => []

/-- A field out of range, an absent slice, or a code not valid for KIND. -/
def lsRange (r : Request) (s : State) : Bool :=
  decide (4 < lsKind r) || (decide (lsKind r < 2) && decide (31 < lsTarget r)) || (lsKind r == 2 && decide (15 < lsTarget r)) ||
    (lsKind r == 3 && (decide (7 < lsTarget r) || decide (2 < lsSub r) ||
      !bridgeWired s (lsTarget r) (lsSub r))) ||
    !(loopCodes (lsKind r)).contains (r.u8 3) || decide (7 < r.u8 4) || resv r 5 1 ||
    (r.u8 3 == 5 && (decide (r.u32 8 < 8000) || decide (800000 < r.u32 8))) || !present s (lsSlice r s).val

/-- The command arrived on the service port. -/
def fromService (s : State) : Bool := s.mail.cur == some 8

/-- Some present slice outside DORMANT has no path to the anchor. -/
def strands (s : State) : Bool :=
  match anchorSlice s with
  | some h => (List.finRange 8).any fun k =>
      present s k.val && s.power.st[k] != .dormant && s.power.st[k] != .down && !path s h.val k.val
  | none => false

/-- Losing the bridge port would leave a present slice without a path to the anchor. -/
def bridgeNeeded (r : Request) (s : State) : Bool :=
  let t := modBridge s (lsSlice r s) (Fin.ofNat 3 (lsSub r)) fun b => { b with up := false }
  !strands s && strands t

def lsConflict (r : Request) (s : State) : Bool :=
  let p := s.power.st[lsSlice r s]
  p == .drowse || p == .dormant ||
    match lsKind r with
    | 0 => !portExists s (Fin.ofNat 32 (lsTarget r))
    | 1 => laneBoundOrPending s (Fin.ofNat 32 (lsTarget r)) || (!lsEmit r && (r.u8 3 == 3 || r.u8 3 == 5))
    | 3 => r.u8 3 == 7 && bridgeNeeded r s
    | _ => false

def loopSetChecks (r : Request) (s : State) : List Check :=
  [ckLen r 12, ckRange (lsRange r s), ⟨lsKind r == 4 && fromService s, .notPermitted⟩, ⟨lsConflict r s, .conflict⟩]

/-- The loop as a lane holds it. -/
def putLoop (r : Request) (s : State) (x : SerialLane) : SerialLane :=
  { x with
    loop := loopOf (r.u8 3), emit := (lsEmit r && (r.u8 3 == 3 || r.u8 3 == 5)) || (x.emit && x.gen != 0), deliver := natBit (r.u8 4) 1,
    quiet := natBit (r.u8 4) 2, loopEnd := if r.u8 3 = 0 then none else lsEnd r s, loopDelay := r.u32 8, loopDue := [] }

/-- A bridge loop takes the port down under R24; without it the port trains again. -/
def putBridgeLoop (r : Request) (s : State) : State :=
  let k := lsSlice r s
  let p : BridgePort := Fin.ofNat 3 (lsSub r)
  let on := r.u8 3 == 7
  let s1 := modBridge s k p fun b => { b with loop := on, loopEnd := if on then lsEnd r s else none }
  if on && (bridgeAt s k.val p.val).up then linkChange (downPort k p) s1 else s1

/-- A fabric link goes DOWN with cause LOOP_OR_PATTERN when a loop or pattern is set on its lane (R436). -/
def testDown (n : LaneNo) (s : State) : State :=
  match noFab n with
  | some f => if laneTesting (serialAt s n) then takeDown f causeTest s else s
  | none => s

def loopSetApply (r : Request) (s : State) : Done :=
  if lsKind r = 3 then okDone (putBridgeLoop r s)
  else okDone (foldS (lsLanes r s) (fun n st => testDown n (laneStart n (modSerial st n (putLoop r s)))) s)

def execLoopSet (s : State) : Host.Outcome State Fault Refusal := .next (runCommand 0x0902 loopSetChecks loopSetApply s)

def loopExpiredGuard (lane : SerialRef) (s : State) : Bool :=
  match (serialAt s (serialNo lane)).loopEnd with
  | some t => decide (t ≤ s.now)
  | none => false

/-- The lanes of the loop that a lane holds: every lane of its port, or the lane. -/
def loopMates (s : State) (n : LaneNo) : List LaneNo :=
  match noHost n with
  | some h => portSerials s (lanePort s h)
  | none => [n]

/-- A lane's loop has run out: it ends, LOOP_EXPIRED sets and the lane restarts. -/
def expireLoop (n : LaneNo) (s : State) : State :=
  setFlag (aLneFlags n) 2 (laneStart n (modSerial s n fun x => { x with
    loop := .none, emit := x.emit && x.gen != 0, deliver := false, quiet := false, loopEnd := none, loopDue := [] }))

/-- The loop ends on the lanes that hold it. -/
def loopExpiredEffect (lane : SerialRef) (s : State) : State :=
  foldS (loopMates s (serialNo lane)) expireLoop s

def execLoopExpired (lane : SerialRef) (s : State) : Host.Outcome State Fault Refusal :=
  .next (whenB (loopExpiredGuard lane s) (loopExpiredEffect lane) s)

/-! LOOP_BURST (R426). -/

def loopBurstGuard (lane : Lane) (s : State) : Bool :=
  trunkLoop s lane && (serialAt s (lineSerial lane)).loopDue.any fun d => decide (d.at_ ≤ s.now)

/-- The blocks of a loop burst (R426): 32 LEADER blocks; a delimiter with TERM 255, ACCOUNT 0, no OAM message, BURST_CTR = FN[15:0],
EPOCH16 of the frame's epoch, START 0 and the burst's length; the frame's data blocks scrambled again under R138; and BURST_END. -/
def loopBlocksOf (d : LoopOut) : List (Bool × BitVec 256) :=
  let ctr := BitVec.ofNat 16 d.fn
  let delim := delimiterBody 255 0 0 ctr (epochOf d.fn) 0 d.len false
  let data := dataBodies (burstSeed (BitVec.ofNat 16 (epochOf d.fn)) ctr) d.words
  List.replicate 32 (true, leaderBody) ++ (true, delim) :: data.map (fun x => (false, x)) ++ [(true, endBody 255 ctr (bipOf (delim :: data)))]

/-- The oldest loop burst due leaves. -/
def loopBurstEffect (lane : Lane) (s : State) : State :=
  modSerial s (lineSerial lane) fun x =>
    match x.loopDue with
    | d :: t => { x with loopDue := t, loopBurst := some d, loopBlocks := loopBlocksOf d }
    | [] => x

def execLoopBurst (lane : Lane) (s : State) : Host.Outcome State Fault Refusal :=
  .next (whenB (loopBurstGuard lane s) (loopBurstEffect lane) s)

/-! PATTERN_SET, CHK_LOCK and CHK_LOCK_LOST (R428 to R430). -/

/-- The lane that KIND and LANE of a PATTERN_SET name. -/
def psLane (r : Request) : LaneNo := kindSerial (r.u8 0) (r.u8 1)

/-- Highest pattern code offered for KIND. -/
def patternMax (kind : Nat) : Nat := if kind = 3 then 2 else 3

def patternSetChecks (r : Request) (s : State) : List Check :=
  [ckLen r 8,
   ckRange (decide (kindLanes (r.u8 0) ≤ r.u8 1) || decide (patternMax (r.u8 0) < r.u8 2) || decide (patternMax (r.u8 0) < r.u8 3) ||
     decide (1 < r.u8 4) || resv r 5 3 || !laneExists s (psLane r)),
   ⟨r.u8 0 == 3 && fromService s, .notPermitted⟩,
   ⟨lineBusy s (psLane r) || (r.u8 0 == 1 && r.u8 2 != 0 && !natBit (r.u8 4) 0) ||
     s.power.st[noSlice (psLane r)] == .drowse || s.power.st[noSlice (psLane r)] == .dormant, .conflict⟩]

/-- Generator and checker; a change is a lane start. -/
def patternSetApply (r : Request) (s : State) : Done :=
  let n := psLane r
  okDone (testDown n <| laneStart n (modSerial s n fun x => { x with
    gen := r.u8 2, chk := r.u8 3, chkLock := false,
    emit := (r.u8 2 != 0 && natBit (r.u8 4) 0) || (x.emit && (x.loop == .fes || x.loop == .trunkFrame)) }))

def execPatternSet (s : State) : Host.Outcome State Fault Refusal := .next (runCommand 0x0903 patternSetChecks patternSetApply s)

def chkLockGuard (lane : SerialRef) (s : State) : Bool :=
  let x := serialAt s (serialNo lane)
  receives s (serialNo lane) && s.serdes.cdrLock[serialNo lane] && x.chk != 0 && !x.chkLock

def chkLockEffect (lane : SerialRef) (s : State) : State := modSerial s (serialNo lane) fun x => { x with chkLock := true }

def execChkLock (lane : SerialRef) (s : State) : Host.Outcome State Fault Refusal :=
  .next (whenB (chkLockGuard lane s) (chkLockEffect lane) s)

def chkLockLostGuard (lane : SerialRef) (s : State) : Bool := (serialAt s (serialNo lane)).chkLock

/-- Mismatched symbols and wrong bits met since the last such event are counted while the checker is locked; with more than 256
mismatches among the last 1,024 symbols it loses lock. -/
def chkLockLostEffect (lane : SerialRef) (symErr bitErr window : Nat) (s : State) : State :=
  let n := serialNo lane
  let s1 := count (aLne n 0x28) bitErr (count (aLne n 0x20) symErr s)
  if 256 < window then loseChk n s1 else s1

def execChkLockLost (lane : SerialRef) (symErr bitErr window : Nat) (s : State) : Host.Outcome State Fault Refusal :=
  .next (whenB (chkLockLostGuard lane s) (chkLockLostEffect lane symErr bitErr window) s)

end Sys2Proof.Machine
end

