-- ==== Sys2Proof/Machine/Power.lean ====
section
/-!
DEFINITION. Machine/Power.lean: slice power states, STANDBY, quiesce and their commands
(spec/19_clocks_power_reset.md, R526 to R533, R536 to R538).
-/
namespace Sys2Proof.Machine

/-! IDLE (R526). -/

def idleEntryGuard (slice : SliceId) (s : State) : Bool :=
  let p := pwAt s slice
  present s slice.val && s.power.st[slice] == .run && decide (0 < p.idleTime) && pathEmpty s slice &&
    since s (max p.busyAt p.since) (p.idleTime * usTicks)

def idleEntryEffect (slice : SliceId) (s : State) : State := count1 (aPwr slice 0x18) (setPower slice .idle s)

def execIdleEntry (slice : SliceId) (s : State) : Host.Outcome State Fault Refusal :=
  .next (whenB (idleEntryGuard slice s) (idleEntryEffect slice) s)

def idleExitGuard (slice : SliceId) (s : State) : Bool := s.power.st[slice] == .idle

def idleExitEffect (slice : SliceId) (s : State) : State := modPw (setPower slice .run s) slice fun p => { p with busyAt := s.now }

def execIdleExit (slice : SliceId) (s : State) : Host.Outcome State Fault Refusal :=
  .next (whenB (idleExitGuard slice s) (idleExitEffect slice) s)

/-! Quiesce (R533). -/

/-- A slice begins to quiesce on its way down. -/
def beginDown (k : SliceId) (target : SlicePower) (s : State) : State :=
  setPower k .quiescing (modPw s k fun p => { p with target := target, aborted := 0 })

/-- A quiescing slice has no transfer in flight. -/
def drained (s : State) (k : SliceId) : Bool := outstanding s k == 0

def quiesceTimeoutGuard (slice : SliceId) (s : State) : Bool :=
  s.power.st[slice] == .quiescing && since s (pwAt s slice).since msTicks && !drained s slice

/-- The transfers still outstanding end ABORTED at their requester. -/
def quiesceTimeoutEffect (slice : SliceId) (s : State) : State :=
  let n := outstanding s slice
  let s1 := modPw (abortTransfers slice s) slice fun p => { p with aborted := p.aborted + n }
  logEvent 0x080A .error (BitVec.ofNat 8 slice.val) (BitVec.ofNat 8 slice.val :: toLe 4 n)
    (setFlag (aPwrFlags slice) 2 (count (aPwr slice 0x10) n s1))

def execQuiesceTimeout (slice : SliceId) (s : State) : Host.Outcome State Fault Refusal :=
  .next (whenB (quiesceTimeoutGuard slice s) (quiesceTimeoutEffect slice) s)

/-! DROWSE (R526). -/

/-- No host port of the slice is up, none of its line lanes is bound to an enabled group, no fabric lane is enabled. -/
def noTraffic (s : State) (k : SliceId) : Bool :=
  !((List.finRange 32).any fun p => laneSlice p == k && portExists s p && portUp s p) &&
    !((sliceLanes k).any fun l => (laneGroup s l).isSome) &&
    !((List.finRange 16).any fun f => f.val / 2 == k.val && (fabAt s f).enabled)

/-- DROWSE_TIME has passed in IDLE. -/
def drowseDue (s : State) (k : SliceId) : Bool :=
  let p := pwAt s k
  s.power.st[k] == .idle && decide (0 < p.drowseTime) && since s p.since (p.drowseTime * msTicks) && noTraffic s k

/-- A quiesce towards a state is over. -/
def quiesced (s : State) (k : SliceId) (target : SlicePower) : Bool :=
  s.power.st[k] == .quiescing && (pwAt s k).target == target && drained s k

def drowseEntryGuard (slice : SliceId) (s : State) : Bool :=
  present s slice.val && (drowseDue s slice || quiesced s slice .drowse)

/-- Loops and patterns of a slice end (R425). -/
def cancelTests (k : SliceId) (s : State) : State := foldS ((sliceSerials k).filter fun n => laneExists s n) cancelTest s

/-- Core at P3; the lanes go DEEP. -/
def enterDrowse (k : SliceId) (s : State) : State :=
  setPower k .drowse (modPw (cancelTests k s) k fun p => { p with level := 3, avs := none })

/-- The slice begins to quiesce, or enters DROWSE once it has. -/
def drowseEntryEffect (slice : SliceId) (s : State) : State :=
  if s.power.st[slice] == .idle then beginDown slice .drowse s else enterDrowse slice s

def execDrowseEntry (slice : SliceId) (s : State) : Host.Outcome State Fault Refusal :=
  .next (whenB (drowseEntryGuard slice s) (drowseEntryEffect slice) s)

/-! DORMANT (R526 to R529). -/

/-- Spill pages lie in the channels of a slice. -/
def spillHere (s : State) (k : SliceId) : Bool :=
  decide (k.val < 2) && s.path.spillUsed.any fun n => n / chanPages / 4 == k.val

/-- BUFFERS of the slice or a trunk group with a lane on it runs (R536). -/
def dormantRunning (s : State) (k : SliceId) : Bool :=
  !(bufAt s k).stopped || (sliceLanes k).any fun l => match boundGroup s l with
    | some g => !(groupAt s g).stopped
    | none => false

/-- The slice is the anchor's. -/
def isAnchorSlice (s : State) (k : SliceId) : Bool := match anchorSlice s with
  | some h => h.val == k.val
  | none => false

/-- With these slices in DORMANT a present slice outside DORMANT would have no path to the anchor. -/
def dormantStrands (s : State) (ks : List SliceId) : Bool :=
  strands (foldS ks (fun k st => { st with power := { st.power with st := st.power.st.set k .dormant } }) s)

/-- DORMANT_TIME has passed in DROWSE, the command's conditions hold and the slice holds no buffer. -/
def dormantDue (s : State) (k : SliceId) : Bool :=
  let p := pwAt s k
  s.power.st[k] == .drowse && decide (0 < p.dormantTime) && since s p.since (p.dormantTime * secTicks) &&
    !dormantRunning s k && !isAnchorSlice s k && !dormantStrands s [k] && (bufAt s k).bitmap.isEmpty

/-- A POWER_STATE_SET that takes the device to STANDBY runs; there the spill is lost with the rest of the slice (R532). -/
def standbyUnderway (s : State) : Bool :=
  s.mail.longs.any fun c => c.kind == .power && (boxAt s c.mbox).req.u8 1 == 3

def dormantEntryGuard (slice : SliceId) (s : State) : Bool :=
  present s slice.val && (dormantDue s slice || (quiesced s slice .dormant && (!spillHere s slice || standbyUnderway s)))

/-- The channels of slice 0 or 1 are in self-refresh (R406). -/
def sleepChan (now : Nat) (x : HbmChan) : HbmChan :=
  if x.st.serving then { x with st := .selfRefresh, srEntering := false, sreAt := none, exitAt := none, srSince := now } else x

def sleepChans (k : SliceId) (s : State) : State :=
  foldS ((List.finRange 8).filter fun c => c.val / 4 == k.val) (fun c st => modChan st c (sleepChan s.now)) s

/-- The core rail is off; lanes and bridge ports are OFF; only the retention banks are kept. -/
def enterDormant (k : SliceId) (s : State) : State :=
  let s1 := darken k .off (cancelTests k s)
  let s2 := sleepChans k (clearSlice k s1)
  let s3 := linkChange (fun st => dropBridges k (setPower k .dormant st)) s2
  if k.val < 2 ∧ !isAnchorSlice s k then { s3 with anchor := { s3.anchor with mirrorSync := false } } else s3

def dormantEntryEffect (slice : SliceId) (s : State) : State :=
  if s.power.st[slice] == .drowse then beginDown slice .dormant s else enterDormant slice s

def execDormantEntry (slice : SliceId) (s : State) : Host.Outcome State Fault Refusal :=
  .next (whenB (dormantEntryGuard slice s) (dormantEntryEffect slice) s)

/-! Waking (R526, R530). -/

/-- The instants of the steps of a wake, in us from the request. -/
def wakeTimes (deep : Bool) : List Nat := if deep then [1000, 3000, 5000, 20000, 25000] else [2000]

/-- A wake begins; `target` is the state it goes on to. -/
def beginWake (k : SliceId) (target : SlicePower) (s : State) : State :=
  let deep := s.power.st[k] == .dormant
  setPower k .waking (modPw s k fun p => { p with deepWake := deep, wakeStep := 0, target := target, aborted := 0 })

def wakeStepGuard (slice : SliceId) (s : State) : Bool :=
  let p := pwAt s slice
  s.power.st[slice] == .waking &&
    match (wakeTimes p.deepWake)[p.wakeStep]? with
    | some t => since s p.since (t * usTicks)
    | none => false

/-- The wired bridge ports of a slice are trained, at both ends (R530). -/
def trainBridges (k : SliceId) (s : State) : State :=
  foldS (List.finRange 3) (fun p st =>
    if bridgeWired st k.val p.val && bridgesRun st k.val && bridgesRun st (bridgePeer k.val p.val) then
      modBridge (modBridge st k p fun b => { b with up := !b.loop, goodRun := 0 }) (peerSlice k p) p fun b => { b with up := !b.loop, goodRun := 0 }
    else st) s

/-- Step 1: PLLs and fallbacks are enabled: the domains start on their primary sources. -/
def wakePlls (k : SliceId) (s : State) : State := modPw s k fun p => { p with domains := resetDomains }

/-- Step 2: bridge ports trained, crossings out of quarantine. -/
def wakeBridges (k : SliceId) (s : State) : State :=
  linkChange (trainBridges k) (modPw s k fun p => { p with quarantine := [] })

/-- A channel with the table store of its peer. -/
def withTables (s : State) (c : ChanId) (x : HbmChan) : HbmChan :=
  { x with mem := recopied s c ++ x.mem.filter fun e => decide (reservedBytes ≤ e.1) }

/-- Step 3: the channels of slice 0 or 1 leave self-refresh; those of the deputy take the tables anew from the anchor's copy
(R393, R529). -/
def wakeChans (k : SliceId) (s : State) : State :=
  foldS ((List.finRange 8).filter fun c => c.val / 4 == k.val) (fun c st =>
    modChan st c fun x =>
      let y := if isAnchorSlice s k then x else withTables s c x
      if y.st == .selfRefresh then { y with exitAt := some s.now } else y) s

/-- Last step: RUN at the requested level, or on towards DROWSE; WOKE after DORMANT. -/
def wakeDone (k : SliceId) (s : State) : State :=
  let p := pwAt s k
  let s1 := modPw (setPower k .run s) k fun x => { x with level := wantedLevel x, busyAt := s.now }
  let s2 := count1 (aPwr k 0x20) (if p.deepWake then setFlag (aPwrFlags k) 3 s1 else s1)
  if p.target == .drowse then beginDown k .drowse s2 else s2

def wakeStepEffect (slice : SliceId) (s : State) : State :=
  let p := pwAt s slice
  let s1 := modPw s slice fun x => { x with wakeStep := x.wakeStep + 1 }
  if !p.deepWake then wakeDone slice s1
  else match p.wakeStep with
    | 0 => wakePlls slice s1
    | 1 => wakeBridges slice s1
    | 2 => wakeChans slice s1
    | 3 => darken slice .run s1
    | _ => wakeDone slice s1

def execWakeStep (slice : SliceId) (s : State) : Host.Outcome State Fault Refusal :=
  .next (whenB (wakeStepGuard slice s) (wakeStepEffect slice) s)

/-! POWER_STATE_SET (R529, R531, R532, R536). -/

def psOp (r : Request) : Nat := r.u8 0
def psState (r : Request) : Nat := r.u8 1

/-- The command acts on the whole device: STANDBY, or RUN in STANDBY. -/
def psDevice (r : Request) (s : State) : Bool := psOp r == 0 && (psState r == 3 || (psState r == 0 && s.power.standby))

/-- The slices that the command names. -/
def psSlices (r : Request) (s : State) : List SliceId :=
  if psDevice r s then (List.finRange 8).filter fun k => present s k.val else r.maskSlices

/-- Some function instance runs. -/
def anyRunning (s : State) : Bool :=
  (([0, 1, 2, 3] : List GroupId).any fun g => !(groupAt s g).stopped) || !s.fabric.stopped ||
    (List.finRange 8).any fun k => present s k.val && (!s.path.portsStopped[k] || !s.path.schedStopped[k] || !(bufAt s k).stopped)

/-- A slice in WAKING or QUIESCING. -/
def inTransition (s : State) (k : SliceId) : Bool := s.power.st[k] == .waking || s.power.st[k] == .quiescing

def psNotStopped (r : Request) (s : State) : Bool :=
  psOp r == 0 && ((psState r == 2 && r.maskSlices.any (dormantRunning s)) || (psState r == 3 && anyRunning s))

/-- The CONFLICT of R536; SET_POLICY on a slice in DORMANT is a command by mask as R528 has it. -/
def psConflict (r : Request) (s : State) : Bool :=
  (psOp r == 1 && r.maskSlices.any fun k => s.power.st[k] == .dormant) || psOp r == 0 &&
    ((psState r == 1 && r.maskSlices.any fun k => (sliceLanes k).any fun l => (laneGroup s l).isSome) ||
     (psState r == 2 && (r.maskSlices.any (isAnchorSlice s) || dormantStrands s r.maskSlices)))

def powerStateSetChecks (r : Request) (s : State) : List Check :=
  [ckLen r 16,
   ckRange (decide (1 < psOp r) || (psOp r == 0 && decide (3 < psState r)) || resv r 2 2 || resv r 10 6 ||
     (psOp r == 1 && decide (1000 < r.u16 4)) || (!psDevice r s && maskBad r s)),
   ⟨(psSlices r s).any (inTransition s), .busy⟩,
   ⟨psNotStopped r s, .notStopped⟩,
   ⟨psConflict r s, .conflict⟩]

/-- SET_POLICY. -/
def psPolicy (r : Request) (s : State) : State :=
  foldS r.maskSlices (fun k st => modPw st k fun p => { p with idleTime := r.u16 4, drowseTime := r.u16 6, dormantTime := r.u16 8 }) s

/-- A slice sets out for a state. -/
def setOut (target : Nat) (k : SliceId) (s : State) : State :=
  let st := s.power.st[k]
  match target with
  | 0 => if st == .idle then setPower k .run s else if st == .drowse || st == .dormant then beginWake k .run s else s
  | 1 => if st == .run || st == .idle then beginDown k .drowse s else if st == .dormant then beginWake k .drowse s else s
  | _ => if st == .run || st == .idle || st == .drowse then beginDown k .dormant s else s

/-- Leaving STANDBY is recorded for the device and wakes every slice. -/
def psLeave (s : State) : State :=
  if s.power.standby then
    logEvent 0x0809 .notice 0xFF [0xFF, 3, 0] { s with power := { s.power with standby := false } }
  else s

def powerStateSetStart (m : MboxId) (r : Request) (s : State) : State :=
  if psOp r = 1 then finish m (okDone (psPolicy r s))
  else
    let ks := psSlices r s
    setLong m .power (foldS ks (setOut (psState r)) (if psState r = 0 then psLeave s else s))

def execPowerStateSet (s : State) : Host.Outcome State Fault Refusal :=
  .next (runLong 0x0C00 powerStateSetChecks powerStateSetStart s)

/-- The slices whose arrival a power command that runs awaits: every present slice for STANDBY, and for RUN the slices that
still wake as well, since leaving STANDBY wakes them all; a FAULTED slice takes no power state and is not awaited. -/
def powerSlices (r : Request) (s : State) : List SliceId :=
  (List.finRange 8).filter fun k => present s k.val && s.power.st[k] != .down &&
    (psState r == 3 || r.inMask k.val || (psState r == 0 && s.power.st[k] == .waking))

/-- A slice is in the state named. -/
def inState (s : State) (target : Nat) (k : SliceId) : Bool :=
  let st := s.power.st[k]
  match target with
  | 0 => st == .run || st == .idle
  | 1 => st == .drowse
  | _ => st == .dormant

/-- The spill pages of a deputy have not drained within 1 s. -/
def deputyStuck (s : State) (k : SliceId) : Bool :=
  s.power.st[k] == .quiescing && (pwAt s k).target == .dormant && spillHere s k && since s (pwAt s k).since secTicks

def powerStateReachedGuard (mbox : MboxId) (s : State) : Bool :=
  let r := (boxAt s mbox).req
  longOf s mbox == some .power &&
    ((powerSlices r s).all (inState s (psState r)) || (psState r == 2 && (powerSlices r s).any (deputyStuck s)))

/-- The response reports the transfers aborted; STANDBY is entered with its last slice; a deputy that has not drained is back
in RUN and the command ends in TIMEOUT. -/
def powerStateReachedEffect (mbox : MboxId) (s : State) : State :=
  let r := (boxAt s mbox).req
  let ks := powerSlices r s
  if ks.all (inState s (psState r)) then
    let n := ks.foldl (fun n k => n + (pwAt s k).aborted) 0
    let s1 := if psState r = 3 then logEvent 0x0809 .notice 0xFF [0xFF, 0, 3] { s with power := { s.power with standby := true } } else s
    finish mbox { st := s1, payload := toLe 4 n ++ toLe 4 0 }
  else finish mbox { st := foldS (ks.filter (deputyStuck s)) (fun k st => setPower k .run st) s, status := .timeout }

def execPowerStateReached (mbox : MboxId) (s : State) : Host.Outcome State Fault Refusal :=
  .next (whenB (powerStateReachedGuard mbox s) (powerStateReachedEffect mbox) s)

/-! DVFS_SET (R537) and CLOCK_STATUS_READ (R538). -/

def dvfsSetChecks (r : Request) (s : State) : List Check :=
  [ckLen r 4, ckRange (decide (3 < r.u8 0) || resv r 1 3 || maskBad r s), ⟨r.maskSlices.any (inTransition s), .busy⟩]

def dvfsSetApply (r : Request) (s : State) : Done :=
  okDone (foldS r.maskSlices (fun k st => modPw st k fun p => { p with levelReq := r.u8 0 }) s)

def execDvfsSet (s : State) : Host.Outcome State Fault Refusal := .next (runCommand 0x0C01 dvfsSetChecks dvfsSetApply s)

/-- Encoding of a meter's state (R538). -/
def MeterSt.code : MeterSt → Nat
  | .starting => 0
  | .good => 1
  | .failed => 2
  | .suspect => 3
  | .off => 4

/-- A source entry of 4 bytes. -/
def sourceBytes (m : Meter) : List Byte := BitVec.ofNat 8 m.st.code :: (toLe 2 (m.ppm % 65536).toNat ++ [0])

/-- The meter that reports a source: the anchor's slice, for TRUNK of a group the first slice that meters it. -/
def reportMeter (s : State) (i : Fin 8) : Meter :=
  if i.val < 4 then meterOf s (halfSlice (anchorOr0 s)) i
  else match (List.finRange 8).find? fun k => present s k.val && (meterOf s k i).st != .off with
    | some k => meterOf s k i
    | none => { st := .off }

/-- The byte of a domain: source, FALLBACK_READY, STOPPED. -/
def domainByte (s : State) (k : SliceId) (d : Fin 8) : Byte :=
  if !present s k.val || d == 7 then 0
  else if !domainExists s k d then 7
  else
    let x := (pwAt s k).domains[d]
    BitVec.ofNat 8 (x.source + 8 * (fallbackReady s k d).toNat + 16 * x.stopped.toNat)

def clockStatusReadChecks (r : Request) (_ : State) : List Check := [ckLen r 0]

/-- Nine source entries, of which the last is empty, and eight bytes for each slice. -/
def clockStatusReadApply (_ : Request) (s : State) : Done :=
  { st := s, payload := ((List.finRange 8).flatMap fun i => sourceBytes (reportMeter s i)) ++ [0, 0, 0, 0] ++
      (List.finRange 8).flatMap fun k => (List.finRange 8).map fun d => domainByte s k d }

def execClockStatusRead (s : State) : Host.Outcome State Fault Refusal :=
  .next (runCommand 0x0C02 clockStatusReadChecks clockStatusReadApply s)

end Sys2Proof.Machine
end

