-- ==== Sys2Proof/Machine/Reset.lean ====
section
/-!
DEFINITION. Machine/Reset.lean: resets, quarantine, removal and the PCIe reset (spec/19_clocks_power_reset.md, R534, R535,
R539; spec/20_pins_hotplug_electrical.md, R544, R547, R551 to R553).
-/
namespace Sys2Proof.Machine

/-- PWR_BOARD. -/
def aBoard : Nat := 0x128

/-! Device resets (R534). -/

/-- Straps as sampled at reset release (R544). -/
def strapPins (t : Straps) (p : PinAll) : PinAll :=
  { p with anchorPref := t.anchorPref, recover := t.recover, smbAddr := t.smbAddr.toNat % 8, removed := false, prsnt := false }

/-- The straps as they stood at the last sampling. -/
def oldStraps (s : State) : Straps :=
  { anchorPref := s.pins.anchorPref, recover := s.pins.recover, smbAddr := BitVec.ofNat 8 s.pins.smbAddr }

/-- An anchor-capable slice at a cold start. -/
def coldCap (now : Nat) : AnchorCap := { releasedAt := now }

/-- BOOT: one more than the highest of any valid slot found at power-on (R496). -/
def bootNumber (s : State) : Nat :=
  (s.fw.slots.foldl (fun n e => match e.2 with
    | some c => max n c.boot
    | none => n) 0) + 1

/-- A slice's clocks and power after a device reset: sources STARTING, the ring kept where the safelight domain is. -/
def resetPw (now : Nat) (cause : Nat) (ring : Meter) : SlicePw :=
  { since := now, busyAt := now, lastReset := cause,
    meters := ⟨#[{ at_ := now }, { at_ := now }, { at_ := now }, ring, { st := .off }, { st := .off }, { st := .off }, { st := .off }], rfl⟩ }

/-- A slice's clocks and power after a device reset of either kind. -/
def resetSlicePw (power : Bool) (s : State) (k : SliceId) : SlicePw :=
  resetPw s.now (if power then 0 else 4) (if power then { at_ := s.now } else (pwAt s k).meters[(3 : Fin 8)])

/-- Where the ROM does not start management firmware the device is in darkroom mode: every lane but the service lanes is OFF
(R508, R509). -/
def bootStart (s : State) : State :=
  let c := bootCause s
  if c = 0 then s
  else
    let off := fun n : LaneNo => if noIdx n = 10 then s.serdes.lanes[n] else { s.serdes.lanes[n] with tx := .off, rx := .off }
    { s with
      fw := { s.fw with darkroom := true, drCause := c },
      serdes := { s.serdes with lanes := Vector.ofFn off } }

/-- The device after a power-on or pin reset: every field at its reset value but the fuses, the flash, the pins and, for a
pin reset, RING_PER_S and RESET_CAUSE with the safelight domains (R534). DESIGN CHOICE (log 141): the 100 us of a lease that has
never been sent (R32) are counted from this reset. -/
def deviceReset (power : Bool) (cause : Nat) (t : Straps) (s : State) : State :=
  bootStart {
    pending := s.pending, now := s.now, part := s.part, serial := s.serial, env := s.env,
    pins := strapPins t s.pins,
    anchor := { caps := Vector.replicate 2 (coldCap s.now), pref := t.anchorPref, highSince := s.now, stuckLow := s.anchor.stuckLow,
                leaseAt := s.now },
    fw := { fuses := s.fw.fuses, dirs := s.fw.dirs, banks := s.fw.banks, svnFloor := s.fw.svnFloor, slots := s.fw.slots, nextSlot := s.fw.nextSlot,
            startAt := s.now, boot := if power then bootNumber s else s.fw.boot, prevCause := s.fw.drCause },
    serdes := { flash := s.serdes.flash },
    time := { ringPerS := if power then 0 else s.time.ringPerS, ratioNominal := power || s.time.ratioNominal },
    power := { resetCause := cause, slices := Vector.ofFn (resetSlicePw power s) } }

def powerOnResetGuard (_ : State) : Bool := true

/-- POWER_ON_RESET (R534, R547). -/
def powerOnResetEffect (straps : Straps) (s : State) : State := deviceReset true 0 straps s

def execPowerOnReset (straps : Straps) (s : State) : Host.Outcome State Fault Refusal :=
  .next (whenB (powerOnResetGuard s) (powerOnResetEffect straps) s)

def pinResetGuard (_ : State) : Bool := true

/-- PIN_RESET (R534). -/
def pinResetEffect (straps : Straps) (s : State) : State := deviceReset false 1 straps s

def execPinReset (straps : Straps) (s : State) : Host.Outcome State Fault Refusal :=
  .next (whenB (pinResetGuard s) (pinResetEffect straps) s)

/-! Quarantine (R535). -/

/-- The crossing exists on a slice. -/
def crossingExists (s : State) (k : SliceId) (c : Nat) : Bool :=
  present s k.val && (c == 0 || c == 4 || ((c == 1 || c == 2 || c == 3 || c == 5) && decide (k.val < 2)) ||
    (decide (16 ≤ c) && decide (c < 26)) || (c == 26 && decide (k.val < 2)))

/-- A crossing enters quarantine; the model holds no entries in crossings, so none is dropped. -/
def quarantine (k : SliceId) (c : Nat) (s : State) : State :=
  let s1 := modPw s k fun p => { p with quarantine := c :: p.quarantine.filter fun x => x != c }
  logEvent 0x0805 .warning (BitVec.ofNat 8 k.val) ([BitVec.ofNat 8 k.val, BitVec.ofNat 8 c] ++ toLe 4 0) (setFlag (aPwrFlags k) 4 s1)

def quarantineExitGuard (slice : SliceId) (crossing : Nat) (s : State) : Bool := (pwAt s slice).quarantine.contains crossing

def quarantineExitEffect (slice : SliceId) (crossing : Nat) (s : State) : State :=
  modPw s slice fun p => { p with quarantine := p.quarantine.filter fun x => x != crossing }

def execQuarantineExit (slice : SliceId) (crossing : Nat) (s : State) : Host.Outcome State Fault Refusal :=
  .next (whenB (quarantineExitGuard slice crossing s) (quarantineExitEffect slice crossing) s)

/-! Per-slice reset (R534). -/

/-- The channels of slice 0 or 1 are reset and retrain; the history pages in them are lost. -/
def resetChans (k : SliceId) (s : State) : State :=
  foldS ((List.finRange 8).filter fun c => c.val / 4 == k.val) (fun c st =>
    losePages c (fun _ => true) (modChan (loseHistory c st) c fun _ => {})) s

/-- The lanes of a slice after its reset: DEEP, and their entry from firmware's copy of the table (R419). -/
def resetLanes (k : SliceId) (s : State) : State :=
  let s1 := darken k .deep s
  foldS (sliceSerials k) (fun n st => modSerial st n fun x =>
    { x with loop := .none, emit := false, deliver := false, quiet := false, loopEnd := none, gen := 0, chk := 0, loopDue := [],
             eq := (tableEntry st n).eq, eqSource := (tableEntry st n).eqSource, startAt := s.now }) s1

/-- An anchor-capable slice starts again from RESET; with the line held by the other it is a deputy (R35). -/
def resetHalf (k : SliceId) (s : State) : State :=
  if h : k.val < 2 then
    let c : Half := ⟨k.val, h⟩
    let s1 := modCap (setDrive c false s) c fun x => { x with
      st := .reset, waits := false, bootElect := false, releasedAt := s.now, coldStart := false, handoverAt := none }
    let s2 := { s1 with anchor := { s1.anchor with mirrorSync := false } }
    if drives s2 (otherOf c) then setAnchor c .deputy s2 else s2
  else s

/-- One slice is reset and rejoins with its configuration: frames, counters and flags are lost; its domains are on their
primary sources; the crossings to the safelight domain, which is not reset, enter quarantine. -/
def resetSlice (k : SliceId) (cause : Nat) (s : State) : State :=
  let s1 := clearSlice k (abortTransfers k (resetLanes k s))
  let s2 := resetHalf k (resetChans k s1)
  let keep := fun p : SlicePw => { p with
    level := 0, capped := false, shutdown := false, unconfirmed := false, avs := none, lastReset := cause,
    deepWake := false, wakeStep := 0, target := .run, domains := resetDomains, quarantine := [], busyAt := s.now }
  let s3 := linkChange (fun st => setPower k .run (dropBridges k (modPw st k keep))) s2
  let s4 := quarantine k 4 s3
  if k.val < 2 then quarantine k 5 s4 else s4

/-- The cause that LAST_RESET records: a command, the recovery of a thermal shutdown, or of another fault. -/
def resetCauseOf (s : State) (k : SliceId) : Nat :=
  if (pwAt s k).shutdown then 2
  else if h : k.val < 2 then (if (capAt s ⟨k.val, h⟩).st = .faulted then 3 else 1)
  else 1

/-- A slice that may be reset now: FAULTED, and after a thermal shutdown cool. -/
def sliceResetGuard (slice : SliceId) (s : State) : Bool :=
  present s slice.val && resetCauseOf s slice != 1 && (!(pwAt s slice).shutdown || coolEnough (pwAt s slice))

/-- SLICE_RESET (R534): recovery of a FAULTED slice. -/
def sliceResetEffect (slice : SliceId) (s : State) : State := resetSlice slice (resetCauseOf s slice) s

def execSliceReset (slice : SliceId) (s : State) : Host.Outcome State Fault Refusal :=
  .next (whenB (sliceResetGuard slice s) (sliceResetEffect slice) s)

/-! Per-function reset (R534). -/

/-- Frames discarded by a function's reset: their buffers are let go, and each counts in BUF_STOPPED_DROP. -/
def dropHeld (ps : List Packet) (s : State) : State :=
  foldS ps (fun p st => count1 (aBuf (Fin.ofNat 8 (heldSlice p)) 0x70) (discard p st)) s

/-- The frames that a stopped function holds, and the test of those that stay. -/
def fnPorts (s : State) (k : SliceId) : List Packet := (s.path.ingress[k].filter fun p => p.src.kind == 0)

/-- Egress queues of the ports of a slice lose their frames. -/
def emptyQueues (k : SliceId) (s : State) : State :=
  let ps := ((List.finRange 32).filter fun p => laneSlice p == k).flatMap fun p => portPackets (portAt s p)
  foldS ((List.finRange 32).filter fun p => laneSlice p == k) (fun p st => modPort st p (keepPort fun _ => false)) (dropHeld ps s)

/-- Frames of a group's accounts. -/
def emptyGroup (g : GroupId) (s : State) : State :=
  let as := (List.finRange 256).filter fun a => acctGroup a == g
  let pages := as.flatMap fun a => (acctAt s a).pages.map fun p => p.chan * chanPages + p.page
  let s1 := foldS as (fun a st => modAcct (dropHeld (acctPackets (acctAt st a)) st) a fun x => { x with
    classes := x.classes.map fun c => { c with frames := [] }, tail := [], pages := [], remainder := none, pinned := false,
    spilling := false, atCap := false, retryAt := none }) s
  { s1 with path := { s1.path with spillUsed := s1.path.spillUsed.filter fun n => !pages.contains n } }

/-- Frames that the fabric function holds. -/
def emptyFabric (s : State) : State :=
  let s1 := dropHeld (fabPackets s) s
  { s1 with fabric := { s1.fabric with hold := [], lanes := s1.fabric.lanes.map fun y => { y with queues := Vector.replicate 3 [] } } }

/-- Counters and flags of a group's lanes and of its device-wide words (trunk block). -/
def groupRegs (s : State) (g : GroupId) (a : Nat) : Bool :=
  ([0x601000, 0x604000, 0x607000].any fun b => inDevice (b + 0x80 * g.val) (b + 0x80 * g.val + 0x80) a) ||
    ([0x603000].any fun b => inDevice (b + 0x80 * g.val) (b + 0x80 * g.val + 0x80) a) ||
    ([0x604800, 0x607400].any fun b => inDevice (b + 0x100 * g.val) (b + 0x100 * g.val + 0x100) a) ||
    (groupLanes s g).any fun l =>
      a == aTrkFlags l || a == aGntFlags l || a == aPrtLaneFlags l ||
        (decide (aTrk l 0 ≤ a) && decide (a < aTrk l 0x100)) || (decide (aGnt l 0 ≤ a) && decide (a < aGnt l 0x100)) ||
        (decide (aPrtLane l 0 ≤ a) && decide (a < aPrtLane l 0x40))

/-- One instance of a function is reset: its held frames, counters and W1C flags; for BUFFERS every buffer of the slice. -/
def resetFunction (fn : Nat) (k : SliceId) (gs : List GroupId) (s : State) : State :=
  match fn with
  | 0 => foldS gs (fun g st => clearRegs (groupRegs st g) (emptyGroup g st)) s
  | 1 =>
    let s1 := dropHeld (fnPorts s k) s
    clearRegs (inBlock k 0x100000 0x200000) { s1 with path := { s1.path with
      ingress := vmod s1.path.ingress k fun l => l.filter fun p => p.src.kind != 0 } }
  | 2 => clearRegs (inBlock k 0x400000 0x500000) (emptyQueues k s)
  | 3 =>
    let ps := (heldPackets s).filter fun p => p.buf.isSome && heldSlice p == k.val
    let s1 := keepPath (fun p => !(p.buf.isSome && heldSlice p == k.val)) (foldS ps dropOwed s)
    let s2 := modBuf s1 k fun b => { b with bitmap := [], misuse := {} }
    count (aBuf k 0x70) ps.length (clearRegs (inBlock k 0x300000 0x400000) s2)
  | _ => clearRegs (fun a => inDevice 0x800000 0x900000 a || (List.finRange 8).any fun j => inBlock j 0x800000 0x900000 a) (emptyFabric s)

/-! RESET_ISSUE and RESET_COMPLETE (R539). -/

def riScope (r : Request) : Nat := r.u8 0
def riSlice (r : Request) : SliceId := Fin.ofNat 8 (r.u8 1)
def riIndex (r : Request) : Nat := r.u8 2
def riGroups (r : Request) : List GroupId := [0, 1, 2, 3].filter fun g => natBit (r.u8 3) g.val

/-- SLICE is outside the part. -/
def riSliceBad (r : Request) (s : State) : Bool := decide (7 < r.u8 1) || !present s (r.u8 1)

/-- The function instance named runs. -/
def riRunning (r : Request) (s : State) : Bool :=
  let k := riSlice r
  match riIndex r with
  | 0 => (riGroups r).any fun g => !(groupAt s g).stopped
  | 1 => !s.path.portsStopped[k]
  | 2 => !s.path.schedStopped[k]
  | 3 => !(bufAt s k).stopped
  | _ => !s.fabric.stopped

def resetIssueChecks (r : Request) (s : State) : List Check :=
  let sc := riScope r
  let onSlice := sc == 1 || sc == 3 || (sc == 2 && decide (1 ≤ riIndex r) && decide (riIndex r ≤ 3))
  [ckLen r 4,
   ckRange (decide (3 < sc) || (onSlice && riSliceBad r s) || (sc == 2 && decide (4 < riIndex r)) ||
     (sc == 2 && riIndex r == 0 && (r.u8 3 == 0 || decide (15 < r.u8 3))) || (sc == 3 && !crossingExists s (riSlice r) (riIndex r))),
   ⟨onSlice && (inTransition s (riSlice r) || (sc == 1 && (pwAt s (riSlice r)).shutdown && !coolEnough (pwAt s (riSlice r)))), .busy⟩,
   ⟨sc == 2 && riRunning r s, .notStopped⟩,
   ⟨sc == 1 && isAnchorSlice s (riSlice r), .conflict⟩]

/-- The RESET record. -/
def noteReset (r : Request) (s : State) : State :=
  logEvent 0x080B .notice 0xFF [BitVec.ofNat 8 (riScope r), BitVec.ofNat 8 (r.u8 1), BitVec.ofNat 8 (riIndex r)] s

/-- DEVICE answers and then performs a pin reset; the others take place and answer when complete. -/
def resetIssueStart (m : MboxId) (r : Request) (s : State) : State :=
  let s1 := noteReset r s
  match riScope r with
  | 0 => deviceReset false 2 (oldStraps s) (finish m (okDone s1))
  | 1 => setLong m .reset (resetSlice (riSlice r) (resetCauseOf s (riSlice r)) s1)
  | 2 => setLong m .reset (resetFunction (riIndex r) (riSlice r) (riGroups r) s1)
  | _ => setLong m .reset (quarantine (riSlice r) (riIndex r) s1)

def execResetIssue (s : State) : Host.Outcome State Fault Refusal := .next (runLong 0x0C03 resetIssueChecks resetIssueStart s)

def resetCompleteGuard (mbox : MboxId) (s : State) : Bool :=
  let r := (boxAt s mbox).req
  longOf s mbox == some .reset &&
    match riScope r with
    | 1 => s.power.st[riSlice r] == .run || s.power.st[riSlice r] == .idle
    | 3 => !(pwAt s (riSlice r)).quarantine.contains (riIndex r)
    | _ => true

def resetCompleteEffect (mbox : MboxId) (s : State) : State := finish mbox (okDone s)

def execResetComplete (mbox : MboxId) (s : State) : Host.Outcome State Fault Refusal :=
  .next (whenB (resetCompleteGuard mbox s) (resetCompleteEffect mbox) s)

/-! Removal (R551). -/

def removalGuard (s : State) : Bool := !s.pins.removed

/-- Every line lane goes DARK: the burst in progress is truncated, developed bursts are lost. -/
def darkLane (l : Lane) (s : State) : State :=
  match boundGroup s l with
  | some g => loseDevelopedWhere g (fun b => b.lane == l) (truncateBurst g l s)
  | none => modLane s l fun x => { x with burst := none, out := .dark }

/-- A flash write in progress is abandoned: the chunks being staged end ABORTED. -/
def abandonFlash (s : State) : State :=
  foldS (s.mail.longs.filter fun c => c.kind == .fwStage)
    (fun c st => finish c.mbox { st := { st with fw := { st.fw with stageSt := 0 } }, status := .aborted }) s

/-- Every transmitter of the device is dark or idle, and nothing is received. -/
def idleLanes (s : State) : State :=
  foldS ((List.finRange 88).filter fun n => laneExists s n) (fun n st => modSerial (laneStart n st) n fun x =>
    { x with tx := .deep, rx := .deep, deepAt := none, deepExit := false, exitAt := none }) s

def removalEffect (s : State) : State :=
  let s1 := foldS (List.finRange 32) darkLane s
  let s2 := abandonFlash (idleLanes s1)
  let s3 := { s2 with pins := { s2.pins with prsnt := true, removed := true } }
  logEvent 0x080C .critical 0xFF [] (setFlag aBoard 6 s3)

def execRemoval (s : State) : Host.Outcome State Fault Refusal := .next (whenB (removalGuard s) removalEffect s)

def presenceReturnGuard (s : State) : Bool := s.pins.removed

/-- The device returns as from a pin reset. -/
def presenceReturnEffect (straps : Straps) (s : State) : State := deviceReset false 1 straps s

def execPresenceReturn (straps : Straps) (s : State) : Host.Outcome State Fault Refusal :=
  .next (whenB (presenceReturnGuard s) (presenceReturnEffect straps) s)

/-! PERST (R553). -/

def perstGuard (s : State) : Bool := (anchorSlice s).isSome

def perstEffect (s : State) : State := setFlag aBoard 7 (pcieDown s)

def execPerst (s : State) : Host.Outcome State Fault Refusal := .next (whenB (perstGuard s) perstEffect s)

end Sys2Proof.Machine
end

