-- ==== Sys2Proof/Machine/Firmware.lean ====
section
/-!
DEFINITION. Machine/Firmware.lean: sensors, checkpoints, log reads, staging, activation, firmware status and the start of
management firmware (spec/18_management_firmware_recovery.md, R489 to R511).
-/
namespace Sys2Proof.Machine

/-! Sensors (R494, R495). -/

/-- The reading 'no reading'. -/
def noReading : Word := 0x80000000

/-- HIGH_SEEN and LOW_SEEN words of a sensor. -/
def aHighSeen (i : Nat) : Nat := 0x50810 + 4 * (i / 32)
def aLowSeen (i : Nat) : Nat := 0x50820 + 4 * (i / 32)

def sensorAt (s : State) (i : Nat) : SensorSet := sparseGet {} s.fw.sensors i
def readingAt (s : State) (i : Nat) : Word := sparseGet noReading s.fw.readings i

/-- The slice on which a sensor lies. -/
def sensorSlice (i : Nat) : Option Nat := if i < 32 then some (i / 4) else if i < 96 then some ((i - 32) / 8) else none

/-- SOURCE of a sensor's record. -/
def sensorSource (i : Nat) : Byte := match sensorSlice i with
  | some k => BitVec.ofNat 8 k
  | none => 0xFF

/-- The sensor exists and its rail is on: it lies on a present slice, rail 6 on slices 0 and 1 only, rail 7 nowhere, and the
core rail is off in DORMANT and after a thermal shutdown (R494, R525, R528). -/
def sensorLive (s : State) (i : Nat) : Bool :=
  match sensorSlice i with
  | some k =>
    let rail := (i - 32) % 8
    let off : Bool := if h : k < 8 then s.power.st[k] == .dormant || s.power.st[k] == .down else true
    present s k && (decide (i < 32) || (rail != 7 && !(rail == 6 && decide (2 ≤ k)) && !(rail == 0 && off)))
  | none => true

/-- Hysteresis: 2 degrees, 10 mV or 1 W. -/
def hysteresis (i : Nat) : Int := if i < 32 then 32 else if i < 96 then 10 else if i = 97 then 1000 else 32

/-- A new state of a sensor's thresholds after a reading. -/
def trackSensor (i : Nat) (v : Int) (x : SensorSet) : SensorSet :=
  { x with
    highOut := if x.highOut then decide (x.high - hysteresis i < v) else decide (x.high < v)
    lowOut := if x.lowOut then decide (v < x.low + hysteresis i) else decide (v < x.low) }

/-- A threshold crossed now raises its event and its flag. -/
def raiseSensor (code : BitVec 16) (flags i : Nat) (r : Word) (s : State) : State :=
  logEvent code .warning (sensorSource i) (BitVec.ofNat 8 i :: toLe 4 r.toNat) (setFlag flags (i % 32) s)

/-- Management firmware runs in charge. -/
def fwRuns (s : State) : Bool := (anchorSlice s).isSome && s.fw.ready && !s.fw.darkroom

def sensorSampleGuard (index : Nat) (s : State) : Bool := decide (index < 99) && fwRuns s

/-- The highest of the readings of the die sensors, indices 0 to 31, that there are (R494). -/
def highestDie (s : State) : Word :=
  match ((List.range 32).map (readingAt s)).filter fun r => r != noReading with
  | [] => noReading
  | r :: t => t.foldl (fun a b => if a.toInt < b.toInt then b else a) r

/-- TEMP_C of the stack in 1/16 degree; none before the first reading, nor where it has grown stale (R398, R494). -/
def stackReading (s : State) : Word :=
  let h := anchorOr0 s
  if s.hbm.tempAt[h].isNone || s.hbm.stale[h] then noReading else BitVec.ofNat 32 (16 * s.hbm.tempC[h])

/-- The reading that a sensor takes; sensor 96 is the stack's TEMP_C, sensor 98 the highest of the die sensors. -/
def sampled (s : State) (index : Nat) (reading : Word) : Word :=
  if index = 96 then stackReading s else if index = 98 then highestDie s else if sensorLive s index then reading else noReading

/-- The last reading of a die sensor, for the conditions of R525. -/
def noteDie (index : Nat) (r : Word) (s : State) : State :=
  if index < 32 ∧ r ≠ noReading then
    modPw s (Fin.ofNat 8 (index / 4)) fun p => { p with temps := p.temps.set (Fin.ofNat 4 index) r.toInt }
  else s

def sensorSampleEffect (index : Nat) (reading : Word) (s : State) : State :=
  let r := sampled s index reading
  let s1 := noteDie index r { s with fw := { s.fw with readings := sparseSet noReading s.fw.readings index r } }
  let x := sensorAt s index
  if x.enabled ∧ r ≠ noReading then
    let y := trackSensor index r.toInt x
    let s2 := { s1 with fw := { s1.fw with sensors := sparseSet {} s1.fw.sensors index y } }
    let s3 := whenB (y.highOut && !x.highOut) (raiseSensor 0x0A01 (aHighSeen index) index r) s2
    whenB (y.lowOut && !x.lowOut) (raiseSensor 0x0A02 (aLowSeen index) index r) s3
  else s1

def execSensorSample (index : Nat) (reading : Word) (s : State) : Host.Outcome State Fault Refusal :=
  .next (whenB (sensorSampleGuard index s) (sensorSampleEffect index reading) s)

def sensorGetChecks (r : Request) (_ : State) : List Check :=
  [ckLen r 4, ckRange (decide (99 < r.u8 0 + r.u8 1) || r.u8 1 == 0 || resv r 2 2)]

def sensorGetApply (r : Request) (s : State) : Done :=
  { st := s, payload := (List.range (r.u8 1)).flatMap fun i => toLe 4 (readingAt s (r.u8 0 + i)).toNat }

def execSensorGet (s : State) : Host.Outcome State Fault Refusal := .next (runCommand 0x0B11 sensorGetChecks sensorGetApply s)

def sensorSetChecks (r : Request) (_ : State) : List Check :=
  [ckLen r 12, ckRange (decide (98 < r.u8 0) || decide (1 < r.u8 1) || resv r 2 2),
   ⟨r.u8 1 == 1 && decide (signed 32 (r.u32 4) ≤ signed 32 (r.u32 8)), .conflict⟩]

def sensorSetApply (r : Request) (s : State) : Done :=
  let x : SensorSet := { enabled := r.u8 1 == 1, high := signed 32 (r.u32 4), low := signed 32 (r.u32 8) }
  okDone { s with fw := { s.fw with sensors := sparseSet {} s.fw.sensors (r.u8 0) x } }

def execSensorSet (s : State) : Host.Outcome State Fault Refusal := .next (runCommand 0x0B12 sensorSetChecks sensorSetApply s)

/-! Checkpoints (R496). -/

/-- An image write is in progress. -/
def imageWriting (s : State) : Bool := s.mail.longs.any fun c => c.kind == .fwStage

def checkpointGuard (s : State) : Bool :=
  fwRuns s && since s (max s.fw.ckAt s.fw.startAt) (900 * secTicks) && !imageWriting s

/-- The records of a checkpoint, rising: those above the last checkpoint's, at most the newest 16,382. -/
def checkpointRecords (s : State) : List Record :=
  ((s.ev.log.filter fun r => !s.fw.ckDone || s.fw.ckSeq.toNat < r.seq.toNat).take 16382).reverse

/-- First SEQ of a checkpoint. -/
def firstSeqOf (s : State) (l : List Record) : Word := match l with
  | r :: _ => r.seq
  | [] => s.ev.nextSeq

/-- The next slot, and the instant. -/
def passSlot (s : State) : State := { s with fw := { s.fw with ckAt := s.now, nextSlot := (s.fw.nextSlot + 1) % 64 } }

/-- The next slot is filled; a write that fails leaves it without a valid checkpoint. -/
def checkpointEffect (written : Bool) (s : State) : State :=
  let l := checkpointRecords s
  let n := s.fw.nextSlot
  if written then
    let slot : CkSlot := { boot := s.fw.boot, firstSeq := firstSeqOf s l, timeSec := s.time.sec.setWidth 32, records := l }
    let s1 := passSlot { s with fw := { s.fw with slots := sparseSet none s.fw.slots n (some slot) } }
    match l.getLast? with
    | some r => { s1 with fw := { s1.fw with ckSeq := r.seq, ckDone := true } }
    | none => s1
  else
    let s1 := passSlot { s with fw := { s.fw with slots := sparseSet none s.fw.slots n none } }
    logEvent 0x0906 .warning 0xFF (BitVec.ofNat 8 n :: toLe 4 (firstSeqOf s l).toNat) (setFlag aFwFlags 4 s1)

def execCheckpoint (written : Bool) (s : State) : Host.Outcome State Fault Refusal :=
  .next (whenB (checkpointGuard s) (checkpointEffect written) s)

/-! LOG_READ (R497). -/

/-- The 32 bytes of a record (R478). -/
def sheetBytes (r : Record) : List Byte :=
  toLe 4 r.seq.toNat ++ toLe 2 r.code.toNat ++ [BitVec.ofNat 8 r.severity.code, r.source] ++ toLe 4 r.timeNs.toNat ++
    toLe 4 r.timeSec.toNat ++ [r.flags, 0] ++ r.data

def lrSource (r : Request) : Nat := r.u8 0
def lrCount (r : Request) : Nat := r.u16 2
def lrBoot (r : Request) : Nat := r.u32 4
def lrFirst (r : Request) : Nat := r.u32 8

def logReadChecks (r : Request) (_ : State) : List Check :=
  [ckLen r 16,
   ckRange (decide (1 < lrSource r) || resv r 1 1 || lrCount r == 0 || decide (127 < lrCount r) || resv r 12 4)]

/-- A record put in its place by SEQ. -/
def insertRecord (r : Record) : List Record → List Record
  | [] => [r]
  | x :: t => if r.seq.toNat ≤ x.seq.toNat then r :: x :: t else x :: insertRecord r t

/-- The records of the checkpoint slots of a BOOT. -/
def slotRecords (s : State) (boot : Nat) : List Record :=
  s.fw.slots.flatMap fun e => match e.2 with
    | some c => if c.boot = boot then c.records else []
    | none => []

/-- The records held by a source, rising. -/
def heldRecords (s : State) (r : Request) : List Record :=
  if lrSource r = 0 then (s.ev.log ++ s.fw.history.flatMap fun p => p.records).reverse
  else (slotRecords s (lrBoot r)).foldr insertRecord []

/-- The records that a LOG_READ returns. -/
def logRecords (s : State) (r : Request) : List Record :=
  ((heldRecords s r).filter fun x => lrFirst r ≤ x.seq.toNat).take (lrCount r)

/-- SEQ values skipped inside the returned span. -/
def logMissing (l : List Record) : Nat :=
  match l.head?, l.getLast? with
  | some a, some b => (b.seq.toNat + 1 - a.seq.toNat) - l.length
  | _, _ => 0

/-- The response of LOG_READ. -/
def logResponse (s : State) (r : Request) : List Byte :=
  let l := logRecords s r
  let boot := if lrSource r = 0 then s.fw.boot else lrBoot r
  let first := match l.head? with
    | some x => x.seq.toNat
    | none => lrFirst r
  toLe 4 boot ++ toLe 4 first ++ toLe 2 l.length ++ toLe 2 (logMissing l) ++ [0, 0, 0, 0] ++ l.flatMap sheetBytes

def execLogRead (s : State) : Host.Outcome State Fault Refusal :=
  .next (runLong 0x0B10 logReadChecks (fun m _ st => setLong m .logRead st) s)

def logReadCompleteGuard (mbox : MboxId) (s : State) : Bool := longOf s mbox == some .logRead

def logReadCompleteEffect (mbox : MboxId) (s : State) : State :=
  finish mbox { st := s, payload := logResponse s (boxAt s mbox).req }

def execLogReadComplete (mbox : MboxId) (s : State) : Host.Outcome State Fault Refusal :=
  .next (whenB (logReadCompleteGuard mbox s) (logReadCompleteEffect mbox) s)

/-! FW_STAGE (R501). -/

def fsOffset (r : Request) : Nat := r.u32 0
def fsTotal (r : Request) : Nat := r.u32 4
def fsFirst (r : Request) : Bool := natBit (r.u8 8) 0
def fsLast (r : Request) : Bool := natBit (r.u8 8) 1
def fsData (r : Request) : List Byte := (r.payload.take r.len).drop 12
def fsEnd (r : Request) : Nat := fsOffset r + (r.len - 12)

/-- The chunk does not fit where staging stands. -/
def fsConflict (r : Request) (s : State) : Bool :=
  (if fsFirst r then fsOffset r != 0
   else s.fw.stageSt != 1 || fsOffset r != s.fw.stageNext || fsTotal r != s.fw.stageTotal) ||
    (if fsLast r then fsEnd r != fsTotal r else decide (fsTotal r < fsEnd r))

def fwStageChecks (r : Request) (s : State) : List Check :=
  [⟨decide (r.len < 13), .badLength⟩,
   ckRange (decide (8388608 < fsTotal r) || decide (3 < r.u8 8) || resv r 9 3),
   ⟨s.fw.act.isSome, .busy⟩,
   ⟨fsConflict r s, .conflict⟩]

/-- FIRST clears VALID of the staging bank and restarts staging; the next chunk begins where this one ends. -/
def fwStageStart (m : MboxId) (r : Request) (s : State) : State :=
  let b := stagingBank s
  let s1 := if fsFirst r then
      let s0 := writeDir (activeBank s).val (validWith s b false) s
      { s0 with fw := { s0.fw with stageSt := 1, stageTotal := fsTotal r, banks := s0.fw.banks.set b [] } }
    else s
  setLong m .fwStage { s1 with fw := { s1.fw with stageNext := fsEnd r } }

def execFwStage (s : State) : Host.Outcome State Fault Refusal := .next (runLong 0x0B00 fwStageChecks fwStageStart s)

/-- The chunks are written in the order in which they were taken. -/
def fwStageCompleteGuard (mbox : MboxId) (s : State) : Bool :=
  longOf s mbox == some .fwStage && (s.mail.longs.find? fun c => c.kind == .fwStage).all fun c => c.mbox == mbox

/-- The chunk lies in the staging bank. -/
def storeChunk (r : Request) (s : State) : State :=
  let b := stagingBank s
  { s with fw := { s.fw with banks := s.fw.banks.set b ((if fsFirst r then [] else s.fw.banks[b]) ++ fsData r) } }

/-- Why the staged image is not admissible; one whose IMAGE_LEN is not TOTAL fails its layout. -/
def stagedReason (s : State) : Option Nat :=
  let b := bankBytes s (stagingBank s)
  match inadmissible s b with
  | some n => some n
  | none => if imgLen b = b.length then none else some 6

/-- After the last chunk VALID sets, or the image is rejected with its reason. -/
def judgeImage (s : State) : Done :=
  let b := stagingBank s
  let img := bankBytes s b
  match stagedReason s with
  | none =>
    let s1 := writeDir (activeBank s).val (validWith s b true) s
    let s2 := setFlag aFwFlags 0 { s1 with fw := { s1.fw with stageSt := 2 } }
    okDone (logEvent 0x0901 .notice 0xFF (BitVec.ofNat 8 b.val :: BitVec.ofNat 8 (imgSvn img) :: toLe 4 (imgBuild img)) s2)
  | some n =>
    let s2 := setFlag aFwFlags 1 { s with fw := { s.fw with stageSt := 3 } }
    { st := logEvent 0x0902 .error 0xFF [BitVec.ofNat 8 n] s2, status := .conflict, payload := [BitVec.ofNat 8 n] }

def fwStageCompleteEffect (mbox : MboxId) (s : State) : State :=
  let r := (boxAt s mbox).req
  let s1 := storeChunk r s
  finish mbox (if fsLast r then judgeImage s1 else okDone s1)

def execFwStageComplete (mbox : MboxId) (s : State) : Host.Outcome State Fault Refusal :=
  .next (whenB (fwStageCompleteGuard mbox s) (fwStageCompleteEffect mbox) s)

/-! FW_ACTIVATE (R503). -/

/-- COLD, as every activation of darkroom mode is (R509). -/
def faCold (r : Request) (s : State) : Bool := natBit (r.u8 0) 1 || s.fw.darkroom

def fwActivateChecks (r : Request) (s : State) : List Check :=
  [ckLen r 4, ckRange (decide (3 < r.u8 0) || resv r 1 3),
   ⟨!bankValid s (stagingBank s) || (!faCold r s && !hitlessOk s (bankBytes s (stagingBank s))), .conflict⟩,
   ⟨s.fw.act.isSome, .busy⟩]

/-- The slices in the order of step 1: the deputy's, the others rising, the anchor's last. -/
def switchOrder (s : State) (h : Half) : List Nat :=
  (otherOf h).val :: ((presentSlices s).filter fun k => decide (2 ≤ k)) ++ [h.val]

/-- A hitless activation begins. -/
def beginActivation (m : MboxId) (r : Request) (h : Half) (s : State) : State :=
  let slc := (imgComp (bankBytes s (stagingBank s)) 2).isSome
  let a : Activation := {
    mbox := m, commitSvn := natBit (r.u8 0) 0, step := 1, todo := if slc then switchOrder s h else [],
    before := s.fw.running, oldAnchor := h, startedAt := s.now }
  let old : Byte := if slc then BitVec.ofNat 8 (2 ^ s.part.slices - 1) else 0
  setLong m .fwActivate { s with fw := { s.fw with act := some a, running := { s.fw.running with oldSlc := old } } }

/-- COLD writes the directory, answers and resets the device; otherwise the steps of R504 begin. -/
def fwActivateStart (m : MboxId) (r : Request) (s : State) : State :=
  if faCold r s then
    let s1 := writeDir (stagingBank s).val (validBanks s) s
    deviceReset false 2 (oldStraps s) (finish m (okDone s1))
  else match anchorSlice s with
    | some h => beginActivation m r h s
    | none => s

def execFwActivate (s : State) : Host.Outcome State Fault Refusal := .next (runLong 0x0B01 fwActivateChecks fwActivateStart s)

/-! SLICE_CONTROLLER_SWITCH (R504, R505). -/

def sliceControllerSwitchGuard (slice : SliceId) (s : State) : Bool :=
  s.fw.act.any fun a => a.step == 1 && a.todo.head? == some slice.val

/-- The image being activated. -/
def newImage (s : State) : List Byte := bankBytes s (stagingBank s)

/-- The slice runs the new slice controller. -/
def sliceControllerSwitchEffect (slice : SliceId) (s : State) : State :=
  let r := s.fw.running
  let slc := (imgComp (newImage s) 2).getD r.slc
  { s with fw := { s.fw with
      act := s.fw.act.map fun a => { a with todo := a.todo.drop 1 },
      running := { r with slc := slc, oldSlc := r.oldSlc &&& ~~~(BitVec.ofNat 8 (2 ^ slice.val)) } } }

def execSliceControllerSwitch (slice : SliceId) (s : State) : Host.Outcome State Fault Refusal :=
  .next (whenB (sliceControllerSwitchGuard slice s) (sliceControllerSwitchEffect slice) s)

/-! ACTIVATION_STEP (R504, R506). -/

/-- Every other long command has finished, or 1 s has passed since the step began. -/
def longsWaited (s : State) (a : Activation) : Bool :=
  (s.mail.longs.all fun c => c.mbox == a.mbox) || since s a.startedAt secTicks

/-- The step under way is complete. -/
def stepDone (s : State) (a : Activation) : Bool :=
  match a.step with
  | 1 => a.todo.isEmpty
  | 2 => longsWaited s a && s.anchor.mirrorSync
  | 3 => anchorSlice s == some (otherOf a.oldAnchor)
  | 4 => s.anchor.mirrorSync
  | _ => true

def activationStepGuard (ok : Bool) (s : State) : Bool := s.fw.act.any fun a => !ok || stepDone s a

/-- The deputy starts the new MGT: its mirror is in step again once it has been made anew (R504). -/
def restartDeputy (s : State) : State := { s with anchor := { s.anchor with mirrorSync := false } }

/-- The activation goes on with a step. -/
def toStep (n : Nat) (s : State) : State :=
  { s with fw := { s.fw with act := s.fw.act.map fun a => { a with step := n, startedAt := s.now } } }

/-- Step 5: the directory names the new bank, the SVN floor rises on COMMIT_SVN, and the command ends. -/
def activated (a : Activation) (s : State) : State :=
  let b := stagingBank s
  let img := newImage s
  let floor := if a.commitSvn then max s.fw.svnFloor (imgSvn img) else s.fw.svnFloor
  let s1 := writeDir b.val (validBanks s) s
  let s2 := { s1 with fw := { s1.fw with act := none, svnFloor := floor, running := withLmc img s1.fw.running, stageSt := 0 } }
  let s3 := logEvent 0x0903 .notice 0xFF [BitVec.ofNat 8 b.val, BitVec.ofNat 8 (imgSvn img), BitVec.ofNat 8 floor] (setFlag aFwFlags 2 s2)
  finish a.mbox (okDone s3)

/-- The next step; an image without MGT goes from the slice controllers to the directory. -/
def advance (a : Activation) (s : State) : State :=
  match a.step with
  | 1 => if (imgComp (newImage s) 1).isSome then toStep 2 (restartDeputy s) else toStep 5 s
  | 2 => toStep 3 (modCap s a.oldAnchor fun c => { c with handoverAt := some s.now })
  | 3 => toStep 4 <| restartDeputy { s with fw := { s.fw with running := withMgt (newImage s) s.fw.running } }
  | 4 => toStep 5 s
  | _ => activated a s

def activationStepEffect (ok : Bool) (s : State) : State :=
  match s.fw.act with
  | some a => if ok then advance a s else finish a.mbox { st := rollBack s, status := .aborted }
  | none => s

def execActivationStep (ok : Bool) (s : State) : Host.Outcome State Fault Refusal :=
  .next (whenB (activationStepGuard ok s) (activationStepEffect ok) s)

/-! FW_STATUS_READ (R507) and FUSE_READ (R510). -/

/-- ACT_STEP. -/
def actStep (s : State) : Nat := match s.fw.act with
  | some a => a.step
  | none => 0

def fwStatusReadChecks (r : Request) (_ : State) : List Check := [ckLen r 0]

/-- VERSION and IFACE of a component. -/
def compBytes (c : FwComp) : List Byte := toLe 4 c.version.toNat ++ toLe 2 c.iface

def fwStatusReadApply (_ : Request) (s : State) : Done :=
  let b := stagingBank s
  let img := bankBytes s b
  let staged := fun n => if bankValid s b then n else 0
  let r := s.fw.running
  { st := s, payload :=
      [BitVec.ofNat 8 (activeBank s).val, BitVec.ofNat 8 (validBanks s), BitVec.ofNat 8 (actStep s), BitVec.ofNat 8 s.fw.svnFloor] ++
      toLe 4 (staged (imgSvn img)) ++ toLe 4 r.build.toNat ++ toLe 4 (staged (imgBuild img)) ++ compBytes r.mgt ++ compBytes r.slc ++
      compBytes r.lmc ++ [r.oldSlc] ++ List.replicate 5 0 }

def execFwStatusRead (s : State) : Host.Outcome State Fault Refusal := .next (runCommand 0x0B02 fwStatusReadChecks fwStatusReadApply s)

def fuseReadChecks (r : Request) (_ : State) : List Check := [ckLen r 0]

def fuseReadApply (_ : Request) (s : State) : Done :=
  let f := s.fw.fuses
  { st := s, payload :=
      toLe 8 s.serial.toNat ++ [BitVec.ofNat 8 s.fw.svnFloor,
        BitVec.ofNat 8 (f.rootKeySet.toNat + 2 * f.imageKeySet.toNat + 4 * f.keyHashSet.toNat)] ++
      List.replicate 6 0 ++ vecBytes f.keyHash }

def execFuseRead (s : State) : Host.Outcome State Fault Refusal := .next (runCommand 0x0B03 fuseReadChecks fuseReadApply s)

/-! Start of management firmware (R489, R508). -/

/-- The ROM has started management firmware, which is not ready. -/
def starting (s : State) : Bool := (anchorSlice s).isSome && !s.fw.ready && !s.fw.darkroom

def fwStartTimeoutGuard (s : State) : Bool := starting s && since s s.fw.startAt (2 * secTicks)

/-- The lanes but the service lanes are OFF, and the KEKs are lost (R491, R509). -/
def fwStartTimeoutEffect (s : State) : State :=
  let off := fun n : LaneNo => if noIdx n = 10 then s.serdes.lanes[n] else { s.serdes.lanes[n] with tx := .off, rx := .off }
  { s with
    fw := { s.fw with darkroom := true, drCause := 3 },
    crypto := { s.crypto with keks := Vector.replicate 8 none },
    serdes := { s.serdes with lanes := Vector.ofFn off } }

def execFwStartTimeout (s : State) : Host.Outcome State Fault Refusal := .next (whenB (fwStartTimeoutGuard s) fwStartTimeoutEffect s)

def firmwareReadyGuard (s : State) : Bool := starting s

/-- The components of an image run. -/
def runImage (b : List Byte) (r : Running) : Running :=
  let r1 := withLmc b (withMgt b r)
  { r1 with slc := (imgComp b 2).getD r1.slc }

/-- Management firmware is in charge: the components of the active bank run, the board table is read, BOOT is recorded. -/
def firmwareReadyEffect (s : State) : State :=
  let img := bankBytes s (activeBank s)
  let s1 := readTable { s with fw := { s.fw with ready := true, running := runImage img s.fw.running } }
  logEvent 0x0905 .notice 0xFF (toLe 4 s.fw.boot ++ [BitVec.ofNat 8 s.fw.prevCause]) s1

def execFirmwareReady (s : State) : Host.Outcome State Fault Refusal := .next (whenB (firmwareReadyGuard s) firmwareReadyEffect s)

end Sys2Proof.Machine
end

