-- ==== Sys2Proof/Machine/Mailbox.lean ====
section
/-!
DEFINITION. Machine/Mailbox.lean: mailboxes, the taking of commands and the barriers
(spec/17_mailboxes_and_commands.md, R460 to R472; R528 and R532 of spec/19_clocks_power_reset.md), and TRUNK_GROUP_SET
(spec/01_trunk_and_terminal.md, R19 to R21).
-/
namespace Sys2Proof.Machine

/-! RING, ABORT and REQUEST_AREA_WRITE (R460, R462). -/

/-- A byte of a request area. -/
def areaByte (b : Mbox) (k : Nat) : Byte := sparseGet 0 b.area k

/-- A header field of a request area. -/
def areaField (b : Mbox) (k n : Nat) : Nat := leNat ((List.range n).map fun i => areaByte b (k + i))

/-- The request that an area holds; of the payload, the bytes that LENGTH covers. -/
def latchArea (b : Mbox) : Request :=
  { opcode := BitVec.ofNat 16 (areaField b 0 2), flags := areaByte b 2, sliceMask := areaByte b 3,
    seq := BitVec.ofNat 32 (areaField b 4 4), length := BitVec.ofNat 32 (areaField b 8 4), reserved := BitVec.ofNat 32 (areaField b 12 4),
    payload := (List.range (min 4080 (areaField b 8 4))).map fun i => areaByte b (16 + i) }

/-- A mailbox of the PCIe endpoint: 0 to 7. -/
def hostBox (m : MboxId) : Bool := decide (m.val < 8)

/-- A doorbell, or a write of the request area, is accepted in this state. -/
def boxFree (b : Mbox) : Bool := b.st == .idle || b.st == .done

/-- A write that finds the mailbox in another state is ignored. -/
def ignoreRing (m : MboxId) (bit : Nat) (s : State) : State := setFlag (aMboxFlags m.val) bit (count1 aRingIgnored s)

/-- A doorbell rung in this cycle by a mailbox of higher number; it is taken later (R463). -/
def rungAbove (s : State) (m x : MboxId) : Bool := decide ((boxAt s x).rungAt = s.now) && decide (m < x)

/-- The doorbells rung with one more: in the order of their cycles, and within a cycle in ascending mailbox number (R463). -/
def joinRing (s : State) (m : MboxId) : List MboxId :=
  s.mail.ringQ.filter (fun x => !rungAbove s m x) ++ m :: s.mail.ringQ.filter (rungAbove s m)

/-- A request joins the doorbells rung. -/
def enqueue (m : MboxId) (r : Request) (s : State) : State :=
  let s1 := modBox s m fun b => { b with st := .pending, req := r, rungAt := s.now }
  { s1 with mail := { s1.mail with ringQ := joinRing s m } }

def ringGuard (mbox : MboxId) (_ : State) : Bool := hostBox mbox

def ringEffect (mbox : MboxId) (s : State) : State :=
  let b := boxAt s mbox
  if boxFree b then enqueue mbox (latchArea b) s else ignoreRing mbox 0 s

def execRing (mbox : MboxId) (s : State) : Host.Outcome State Fault Refusal :=
  .next (whenB (ringGuard mbox s) (ringEffect mbox) s)

def abortGuard (mbox : MboxId) (_ : State) : Bool := hostBox mbox

/-- The request is withdrawn while it is PENDING; a write that also sets RING is ABORT alone. -/
def abortEffect (mbox : MboxId) (s : State) : State :=
  if (boxAt s mbox).st == .pending then
    let s1 := respond mbox .aborted [] s
    { s1 with mail := { s1.mail with ringQ := s1.mail.ringQ.filter fun m => m != mbox } }
  else ignoreRing mbox 0 s

def execAbort (mbox : MboxId) (_ring : Bool) (s : State) : Host.Outcome State Fault Refusal :=
  .next (whenB (abortGuard mbox s) (abortEffect mbox) s)

def requestAreaWriteGuard (mbox : MboxId) (_ : State) : Bool := hostBox mbox

/-- Bytes stored in the area from an offset; it has 4,096. -/
def storeArea (a : Sparse Byte) : Nat → List Byte → Sparse Byte
  | _, [] => a
  | k, b :: t => storeArea (if k < 4096 then sparseSet 0 a k b else a) (k + 1) t

def requestAreaWriteEffect (mbox : MboxId) (offset : Nat) (data : List Byte) (s : State) : State :=
  if boxFree (boxAt s mbox) then modBox s mbox fun b => { b with area := storeArea b.area offset data } else ignoreRing mbox 1 s

def execRequestAreaWrite (mbox : MboxId) (offset : Nat) (data : List Byte) (s : State) : Host.Outcome State Fault Refusal :=
  .next (whenB (requestAreaWriteGuard mbox s) (requestAreaWriteEffect mbox offset data) s)

/-! SERVICE_REQUEST_RX (R469, R500). -/

/-- The anchor's processor takes requests: management firmware is ready, or the ROM is in darkroom mode. -/
def takesRequests (s : State) : Bool :=
  match anchorSlice s with
  | some h => mgmtRuns s h && (s.fw.ready || s.fw.darkroom) && !s.pins.removed
  | none => false

/-- The request that a frame carries behind its 14-byte Ethernet header. -/
def frameRequest (f : List Byte) : Request :=
  let p := f.drop 14
  let len := leAt p 8 4
  { opcode := BitVec.ofNat 16 (leAt p 0 2), flags := byteOf p 2, sliceMask := byteOf p 3,
    seq := BitVec.ofNat 32 (leAt p 4 4), length := BitVec.ofNat 32 len, reserved := BitVec.ofNat 32 (leAt p 12 4),
    payload := (p.drop 16).take (min 4080 len) }

/-- A request frame addressed to the device or to broadcast; all others are ignored. -/
def serviceRequestRxGuard (frame : List Byte) (s : State) : Bool :=
  let d := beAt frame 0 6
  takesRequests s && decide (30 ≤ frame.length) && beAt frame 12 2 == 0x88B5 && (d == (serviceAddr s).toNat || d == 0xFFFFFFFFFFFF)

/-- The request is latched in mailbox 8, or answered BUSY at once. -/
def serviceRequestRxEffect (frame : List Byte) (s : State) : State :=
  let from_ := BitVec.ofNat 48 (beAt frame 6 6)
  let r := frameRequest frame
  if boxFree (boxAt s 8) then enqueue 8 r { s with mail := { s.mail with serviceFrom := from_ } }
  else serviceSend from_ (stampResponse s .busy r.seq []) s

def execServiceRequestRx (frame : List Byte) (s : State) : Host.Outcome State Fault Refusal :=
  .next (whenB (serviceRequestRxGuard frame s) (serviceRequestRxEffect frame) s)

/-! COMMAND_TAKE (R463 to R465, R509, R528, R532). -/

/-- Some request has been taken and is not DONE. -/
def anyTaken (s : State) : Bool := (List.finRange 9).any fun m => (boxAt s m).st == .running

/-- An activation stops the taking of requests on mailboxes 0 to 7 in its steps 2 and 3 (R504). -/
def takingStopped (s : State) : Bool := s.fw.act.any fun a => a.step == 2 || a.step == 3

/-- The request taken next: the first doorbell, whose ORDER waits for every request taken before it. -/
def nextTaken (s : State) : Option MboxId :=
  match (if takingStopped s then s.mail.ringQ.filter fun m => m.val == 8 else s.mail.ringQ) with
  | m :: _ => if (boxAt s m).req.order && anyTaken s then none else some m
  | [] => none

def commandTakeGuard (s : State) : Bool := takesRequests s && s.mail.cur.isNone && (nextTaken s).isSome

/-- The slices that a command must reach beside those of its mask. -/
def mustReach (s : State) (r : Request) : List Nat :=
  if maskScoped r || centralOp r.opcode.toNat then []
  else match targetSlice r with
    | some k => [k]
    | none => presentSlices s

/-- A slice in DORMANT or WAKING counts as reachable (R528). -/
def reachedBy (s : State) (h : Half) (k : Nat) : Bool :=
  path s h.val k || if hk : k < 8 then s.power.st[(⟨k, hk⟩ : Fin 8)] == .dormant || s.power.st[(⟨k, hk⟩ : Fin 8)] == .waking else true

/-- Check 5: a present slice of the mask, or one the command must reach, has no path from the anchor (R31). -/
def unreachedBy (s : State) (r : Request) : Bool :=
  match anchorSlice s with
  | some h => (presentSlices s).any fun k => (r.inMask k || (mustReach s r).contains k) && !reachedBy s h k
  | none => false

/-- Opcodes executed in STANDBY (R532). -/
def standbyOps : List Nat := [0x0C00, 0x0B11, 0x0B02, 0x0C02, 0x0017, 0x0018]

/-- A command by mask that names a slice in DORMANT or WAKING (R528); POWER_STATE_SET and DVFS_SET answer for themselves
(R531). -/
def namesSleeper (s : State) (r : Request) : Bool :=
  maskScoped r && r.opcode.toNat != 0x0C00 && r.maskSlices.any fun k =>
    present s k.val && (s.power.st[k] == .dormant || (s.power.st[k] == .waking && r.opcode.toNat != 0x0C01))

/-- Darkroom mode refuses every request but four on the service port (R509). -/
def darkroomRefuses (s : State) (m : MboxId) (r : Request) : Bool :=
  s.fw.darkroom && !(m.val == 8 && ([0x0B00, 0x0B01, 0x0B02, 0x0B03] : List Nat).contains r.opcode.toNat)

/-- The request is long from its taking (R464). -/
def takenLong (r : Request) : Bool := r.fenceAfter || (opInfo r.opcode.toNat).any fun i => i.long

/-- The checks of R465 in their order, behind darkroom mode's refusal and before STANDBY's and R528's. -/
def commonChecks (s : State) (m : MboxId) (r : Request) : List Check :=
  let i := opInfo r.opcode.toNat
  [⟨darkroomRefuses s m r, .notPermitted⟩,
   ⟨i.isNone, .badOpcode⟩,
   ⟨i.any fun x => !permitted m x, .notPermitted⟩,
   ⟨decide (4080 < r.len), .badLength⟩,
   ⟨decide (8 ≤ r.flags.toNat) || r.reserved != 0, .outOfRange⟩,
   ⟨unreachedBy s r, .timeout⟩,
   ⟨takenLong r && decide (4 ≤ s.mail.longs.length), .busy⟩,
   ⟨s.power.standby && !standbyOps.contains r.opcode.toNat, .conflict⟩,
   ⟨namesSleeper s r, .conflict⟩]

/-- The request leaves the doorbells and is RUNNING. -/
def takeBoxUp (m : MboxId) (s : State) : State :=
  let s1 := modBox s m fun b => { b with st := .running, takenNo := s.mail.taken + 1, takenAt := s.now }
  { s1 with mail := { s1.mail with taken := s1.mail.taken + 1, ringQ := s1.mail.ringQ.erase m } }

/-- A long command writes DEFERRED and joins those that run. -/
def deferBox (m : MboxId) (s : State) : State :=
  let r := stampResponse s .deferred (boxAt s m).req.seq []
  let s1 := serviceAnswer m r (modBox s m fun b => { b with resp := r })
  { s1 with mail := { s1.mail with longs := s1.mail.longs ++ [{ mbox := m, kind := .taken }] } }

/-- The request is taken: the first failing common check is its response, otherwise its execution begins. -/
def takeRequest (m : MboxId) (s : State) : State :=
  let r := (boxAt s m).req
  let s1 := takeBoxUp m s
  match firstFailing (commonChecks s m r) with
  | some st => respond m st [] s1
  | none =>
    let s2 := if takenLong r then deferBox m s1 else s1
    { s2 with mail := { s2.mail with cur := some m } }

def commandTakeEffect (s : State) : State :=
  match nextTaken s with
  | some m => takeRequest m s
  | none => s

def execCommandTake (s : State) : Host.Outcome State Fault Refusal := .next (whenB (commandTakeGuard s) commandTakeEffect s)

/-! FENCE (R471). -/

def fenceChecks (r : Request) (_ : State) : List Check := [ckLen r 0]

def execFence (s : State) : Host.Outcome State Fault Refusal :=
  .next (runLong 0x0010 fenceChecks (fun m _ st => setLong m (.fence []) st) s)

/-- Every request taken before the mailbox's is DONE; effects at a frame boundary or a lookup are in force at once. -/
def fenceReached (s : State) (m : MboxId) : Bool :=
  (List.finRange 9).all fun x => !((boxAt s x).st == .running && decide ((boxAt s x).takenNo < (boxAt s m).takenNo))

def fenceCompleteGuard (mbox : MboxId) (s : State) : Bool :=
  (match longOf s mbox with
   | some (.fence _) => true
   | _ => false) && fenceReached s mbox

/-- The final OK, with the payload of the command that asked for the fence. -/
def fenceCompleteEffect (mbox : MboxId) (s : State) : State :=
  match longOf s mbox with
  | some (.fence p) => respond mbox .ok p s
  | _ => s

def execFenceComplete (mbox : MboxId) (s : State) : Host.Outcome State Fault Refusal :=
  .next (whenB (fenceCompleteGuard mbox s) (fenceCompleteEffect mbox) s)

/-! DRAIN_FENCE (R472). -/

def drainFenceChecks (r : Request) (_ : State) : List Check :=
  [ckLen r 4, ckRange (r.u32 0 == 0 || decide (1000000 < r.u32 0))]

/-- A drain whose FENCE instant comes notes the packets that have entered by then. -/
def noteDrain (m : MboxId) (s : State) : State :=
  match longOf s m with
  | some (.drain t none) => if fenceReached s m then setLong m (.drain t (some s.path.entryNo)) s else s
  | _ => s

def execDrainFence (s : State) : Host.Outcome State Fault Refusal :=
  .next (runLong 0x0011 drainFenceChecks (fun m r st => noteDrain m (setLong m (.drain ((boxAt st m).takenAt + r.u32 0 * usTicks) none) st)) s)

/-- The packets that entered before an instant and have not left. -/
def earlierHeld (s : State) (n : Nat) : List Packet := (heldPackets s).filter fun p => p.entry < n

/-- REMAINING and SLICES of the packets that have not left. -/
def remaining (s : State) (n : Nat) : List Byte :=
  let l := earlierHeld s n
  let count := (l.foldl (fun (a : List Nat) p => if a.contains p.entry then a else p.entry :: a) []).length
  let mask := (List.range 8).foldl (fun a k => a + if l.any fun p => heldSlice p == k then 2 ^ k else 0) 0
  toLe 4 (min count 0xFFFFFFFF) ++ [BitVec.ofNat 8 mask, 0, 0, 0]

/-- The packets that a drain awaits: those noted at its FENCE instant, or every packet so far. -/
def drainFrom (s : State) (inst : Option Nat) : Nat := inst.getD s.path.entryNo

/-- The drain of a mailbox is over: every packet has left, or its limit has passed. -/
def drainOver (s : State) (k : LongKind) : Bool :=
  match k with
  | .drain t inst => (inst.isSome && (earlierHeld s (drainFrom s inst)).isEmpty) || decide (t ≤ s.now)
  | _ => false

def drainFenceCompleteGuard (mbox : MboxId) (s : State) : Bool := (longOf s mbox).any (drainOver s)

def drainFenceCompleteEffect (mbox : MboxId) (s : State) : State :=
  match longOf s mbox with
  | some (.drain _ inst) =>
    if inst.isSome && (earlierHeld s (drainFrom s inst)).isEmpty then finish mbox (okDone s)
    else finish mbox { st := s, status := .timeout, payload := remaining s (drainFrom s inst) }
  | _ => s

def execDrainFenceComplete (mbox : MboxId) (s : State) : Host.Outcome State Fault Refusal :=
  .next (whenB (drainFenceCompleteGuard mbox s) (drainFenceCompleteEffect mbox) s)

/-! TRUNK_GROUP_SET (R19 to R21). -/

def tgGroup (r : Request) : GroupId := Fin.ofNat 4 (r.u8 0)
def tgEnable (r : Request) : Nat := r.u8 1

/-- The lanes of LANE_MASK. -/
def tgLanes (r : Request) : List Lane := (List.finRange 32).filter fun l => natBit (r.u32 4) l.val

/-- The spectral slice that the request gives a lane. -/
def tgSpec (r : Request) (l : Lane) : Nat := r.u8 (8 + l.val)

/-- The lane is claimed by another group: in its binding in force, or in its accepted one. -/
def claimedElsewhere (s : State) (g : GroupId) (l : Lane) : Bool :=
  ([0, 1, 2, 3] : List GroupId).any fun o => o != g &&
    ((groupAt s o).binding.any (fun b => b.1 == l) || match (groupAt s o).bindPend with
      | some b => b.any fun e => e.1 == l
      | none => false)

def trunkGroupSetChecks (r : Request) (s : State) : List Check :=
  [ckLen r 40,
   ckRange (decide (3 < r.u8 0) || (tgEnable r != 0 && (tgLanes r).any fun l => !present s (laneSlice l).val)),
   ⟨!(groupAt s (tgGroup r)).stopped, .notStopped⟩,
   ckRange (decide (1 < tgEnable r) || resv r 2 2 ||
     (tgEnable r == 1 && ((tgLanes r).isEmpty || (tgLanes r).any fun l => decide (63 < tgSpec r l)))),
   ⟨tgEnable r == 1 && ((tgLanes r).any (claimedElsewhere s (tgGroup r)) || !((tgLanes r).map (tgSpec r)).Nodup), .conflict⟩]

/-- The whole binding, pending FUNC_START. -/
def trunkGroupSetApply (r : Request) (s : State) : Done :=
  let b := if tgEnable r = 1 then (tgLanes r).map fun l => (l, tgSpec r l) else []
  okDone (modGroup s (tgGroup r) fun x => { x with bindPend := some b })

def execTrunkGroupSet (s : State) : Host.Outcome State Fault Refusal :=
  .next (runCommand 0x0101 trunkGroupSetChecks trunkGroupSetApply s)

end Sys2Proof.Machine
end

