-- ==== Sys2Proof/Machine/Events.lean ====
section
/-!
DEFINITION. Machine/Events.lean: the host event queue, interrupt vectors and management queues
(spec/17_mailboxes_and_commands.md, R480 to R487).
-/
namespace Sys2Proof.Machine

/-- A power of two between two bounds. -/
def pow2Within (lo hi n : Nat) : Bool := decide (lo ≤ n) && decide (n ≤ hi) && n &&& (n - 1) == 0

/-! EVENT_QUEUE_SET (R480). -/

def eqBase (r : Request) : Nat := r.u64 0
def eqEntries (r : Request) : Nat := r.u32 8

def eventQueueSetChecks (r : Request) (s : State) : List Check :=
  [ckLen r 16,
   ckRange (eqBase r % 64 != 0 || !pow2Within 256 65536 (eqEntries r) || decide (1 < r.u8 12) || decide (4 < r.u8 13) || resv r 14 2),
   ⟨r.u8 12 == 1 && s.ev.evq.enabled && (eqBase r != s.ev.evq.base || eqEntries r != s.ev.evq.entries), .conflict⟩]

/-- The queue as the request sets it; enabling it sets both indices to 0. -/
def eventQueueSetApply (r : Request) (s : State) : Done :=
  let q := s.ev.evq
  let on := r.u8 12 == 1
  let fresh := on && !q.enabled
  let q1 := { q with
    base := eqBase r, entries := eqEntries r, enabled := on, minSev := r.u8 13,
    prod := if fresh then 0 else q.prod, cons := if fresh then 0 else q.cons }
  okDone { s with ev := { s.ev with evq := q1 } }

def execEventQueueSet (s : State) : Host.Outcome State Fault Refusal :=
  .next (runCommand 0x0017 eventQueueSetChecks eventQueueSetApply s)

/-! EVENT_ROUTE_SET (R483). -/

def ersVector (r : Request) : Nat := r.u8 2

def eventRouteSetChecks (r : Request) (_ : State) : List Check :=
  [ckLen r 8,
   ckRange (decide (1 < r.u8 0) || decide (63 < ersVector r) || resv r 5 1 ||
     (r.u8 0 == 0 && (decide (0x3F < r.u8 1) || decide (ersVector r < 16) || decide (1 < r.u8 3))) ||
     (r.u8 0 == 1 && (r.u8 4 == 0 || decide (10000 < r.u16 6))))]

/-- Coalescing of a vector; causes that already meet it make it fire. -/
def setCoalescing (v : VectorId) (count delay : Nat) (s : State) : State :=
  let s1 := modVec s v fun x => { x with count := count, delay := delay }
  let x := s1.ev.vecs[v]
  if 0 < x.causes ∧ (count ≤ x.causes ∨ since s x.firstAt (delay * usTicks)) then fireVec v s1 else s1

def eventRouteSetApply (r : Request) (s : State) : Done :=
  let v : VectorId := Fin.ofNat 64 (ersVector r)
  if r.u8 0 = 0 then
    let to_ : Option VectorId := if r.u8 3 = 1 then some v else none
    okDone { s with ev := { s.ev with classMap := s.ev.classMap.set (Fin.ofNat 64 (r.u8 1)) to_ } }
  else okDone (setCoalescing v (r.u8 4) (r.u16 6) s)

def execEventRouteSet (s : State) : Host.Outcome State Fault Refusal :=
  .next (runCommand 0x0018 eventRouteSetChecks eventRouteSetApply s)

/-! EVQ_CONS_WRITE (R480). -/

def evqConsWriteGuard (_ : Nat) (_ : State) : Bool := true

/-- The EVQ_OVERFLOW record: the first record not queued, and the number. -/
def overflowRecord (s : State) (first : Word) : Record :=
  mkRecord s 0x0001 .notice 0xFF false (toLe 4 first.toNat ++ toLe 4 s.ev.evq.lostCount)

/-- After a loss, the first write that leaves a slot free writes EVQ_OVERFLOW and copies it whatever MIN_SEVERITY says. -/
def evqConsWriteEffect (value : Nat) (s : State) : State :=
  let q := s.ev.evq
  let v := value % 65536
  let s1 := { s with ev := { s.ev with evq := { q with cons := if q.entries = 0 then v else v % q.entries, consSeen := v } } }
  match q.firstLost with
  | some f =>
    if q.enabled && !evqFull s1 then
      let r := overflowRecord s1 f
      let s2 := evqCopy r (pushRecord r s1)
      { s2 with ev := { s2.ev with evq := { s2.ev.evq with firstLost := none, lostCount := 0 } } }
    else s1
  | none => s1

def execEvqConsWrite (value : Nat) (s : State) : Host.Outcome State Fault Refusal :=
  .next (whenB (evqConsWriteGuard value s) (evqConsWriteEffect value) s)

/-! Vectors (R482). -/

def vectorDelayExpiryGuard (vector : VectorId) (s : State) : Bool :=
  let x := s.ev.vecs[vector]
  decide (0 < x.causes) && since s x.firstAt (x.delay * usTicks)

def execVectorDelayExpiry (vector : VectorId) (s : State) : Host.Outcome State Fault Refusal :=
  .next (whenB (vectorDelayExpiryGuard vector s) (fireVec vector) s)

def msixUnmaskGuard (vector : VectorId) (s : State) : Bool := s.ev.vecs[vector].masked

/-- A vector unmasked sends the message that its PBA bit holds. -/
def unmasked (x : Vec) : Vec := { x with masked := false, pba := false, sent := x.sent + x.pba.toNat }

def msixUnmaskEffect (vector : VectorId) (s : State) : State := modVec s vector unmasked

def execMsixUnmask (vector : VectorId) (s : State) : Host.Outcome State Fault Refusal :=
  .next (whenB (msixUnmaskGuard vector s) (msixUnmaskEffect vector) s)

/-! MGT_QUEUE_SET (R484). -/

def ringAt (s : State) (q : MgtQueue) : MgtRing := s.ev.rings[q]
def mqQueue (r : Request) : MgtQueue := Fin.ofNat 8 (r.u8 0)
def mqTx (r : Request) : Bool := r.u8 1 == 0
def mqEnabled (r : Request) (s : State) : Bool := if mqTx r then (ringAt s (mqQueue r)).txEnabled else (ringAt s (mqQueue r)).rxEnabled

def mgtQueueSetChecks (r : Request) (s : State) : List Check :=
  [ckLen r 16,
   ckRange (decide (7 < r.u8 0) || decide (1 < r.u8 1) || decide (1 < r.u8 2) || resv r 3 1 || !pow2Within 64 4096 (r.u32 4) ||
     r.u64 8 % 64 != 0),
   ⟨r.u8 2 == 1 && mqEnabled r s, .conflict⟩]

/-- A write-back DROPPED. -/
def droppedBack (tag : Option Word) (reason : Nat) : TxWriteback :=
  { tag := tag, valid := false, estimated := false, stepped := false, dropped := true, point := 0, reason := BitVec.ofNat 8 reason, stamp := 0 }

/-- Slots of a ring from head up to tail. -/
def ringSlots (head tail entries : Nat) : List Nat :=
  if entries = 0 then [] else (List.range ((tail + entries - head % entries) % entries)).map fun i => (head + i) % entries

/-- Slice on which the management queues lie. -/
def mgtSlice (s : State) : SliceId := halfSlice (anchorOr0 s)

/-- Write-backs of descriptors that a disabled ring has not read. -/
def abandonTx (q : MgtQueue) (s : State) : State :=
  let x := ringAt s q
  let l := ringSlots x.txHead x.txTail x.txEntries
  let done := l.foldl (fun d k => sparseSet none d k (some (droppedBack none 3))) x.txDone
  foldS l (fun _ st => causeVec (Fin.ofNat 64 (8 + q.val)) false (count1 (aWbDropped (mgtSlice st).val) st))
    (modRing s q fun y => { y with txDone := done, txHead := y.txTail })

/-- A ring as MGT_QUEUE_SET leaves it. -/
def setRing (r : Request) (x : MgtRing) : MgtRing :=
  let on := r.u8 2 == 1
  if mqTx r then
    { x with txBase := r.u64 8, txEntries := r.u32 4, txEnabled := on, txHead := if on then 0 else x.txHead, txTail := if on then 0 else x.txTail }
  else
    { x with rxBase := r.u64 8, rxEntries := r.u32 4, rxEnabled := on, rxHead := if on then 0 else x.rxTail, rxTail := if on then 0 else x.rxTail }

def mgtQueueSetApply (r : Request) (s : State) : Done :=
  let q := mqQueue r
  let s1 := if r.u8 2 = 0 ∧ mqEnabled r s ∧ mqTx r then abandonTx q s else s
  okDone (modRing s1 q (setRing r))

def execMgtQueueSet (s : State) : Host.Outcome State Fault Refusal := .next (runCommand 0x0019 mgtQueueSetChecks mgtQueueSetApply s)

/-! Transmit rings (R485, R486). -/

/-- An index of a ring as the host writes it. -/
def ringIndex (entries value : Nat) : Nat := if entries = 0 then value % 4096 else value % 4096 % entries

def txqTailWriteGuard (_ : MgtQueue) (_ : State) : Bool := true

def txqTailWriteEffect (queue : MgtQueue) (value : Nat) (s : State) : State :=
  modRing s queue fun x => { x with txTail := ringIndex x.txEntries value }

def execTxqTailWrite (queue : MgtQueue) (value : Nat) (s : State) : Host.Outcome State Fault Refusal :=
  .next (whenB (txqTailWriteGuard queue s) (txqTailWriteEffect queue value) s)

/-- Fields of a TX descriptor. -/
def tdLen (d : List Byte) : Nat := leAt d 8 2
def tdFlag (d : List Byte) (b : Nat) : Bool := natBit (leAt d 10 1) b
def tdTsReq (d : List Byte) : Bool := tdFlag d 0
def tdTimed (d : List Byte) : Bool := tdFlag d 1
def tdClassify (d : List Byte) : Bool := tdFlag d 2
def tdReplicate (d : List Byte) : Bool := tdFlag d 3 && !tdClassify d
def tdKind (d : List Byte) : Nat := leAt d 11 1
def tdDest (d : List Byte) : Nat := leAt d 12 2
def tdQueue (d : List Byte) : Nat := leAt d 14 1
def tdTag (d : List Byte) : Word := BitVec.ofNat 32 (leAt d 28 4)

/-- The ports of PORT_MASK. -/
def tdPorts (d : List Byte) : List PortId := (List.finRange 32).filter fun p => natBit (leAt d 24 4) p.val

/-- The destination of the descriptor fails R261's step 3. -/
def tdDestBad (s : State) (d : List Byte) : Bool :=
  if tdClassify d then false
  else if tdReplicate d then (tdPorts d).isEmpty || (tdPorts d).any fun p => !portExists s p
  else tdKind d == 0 || decide (3 < tdKind d) || !destValid s 3 (tdKind d) (tdDest d)

/-- An invalid descriptor. -/
def tdInvalid (s : State) (d : List Byte) : Bool :=
  (tdTimed d && tdKind d != 2) || (tdTsReq d && tdFlag d 3) || tdDestBad s d || decide (16 ≤ leAt d 10 1) || leAt d 15 1 != 0 ||
    decide (tdLen d < 14) || decide (10236 < tdLen d)

/-- The number nearest to `cur` with the given low 32 bits. -/
def nearestSec (cur low : Nat) : Nat :=
  let k := (cur + 2 ^ 31 - low % 2 ^ 32) / 2 ^ 32
  k * 2 ^ 32 + low % 2 ^ 32

/-- LAUNCH_TIME of a descriptor. -/
def tdLaunch (s : State) (d : List Byte) : Option (Nat × Nat) :=
  if tdTimed d then some (nearestSec s.time.sec.toNat (leAt d 16 4), leAt d 20 4) else none

def txDescriptorReadGuard (queue : MgtQueue) (s : State) : Bool :=
  let x := ringAt s queue
  s.anchor.pcieUp && x.txEnabled && x.txHead != x.txTail && !coreStopped s (mgtSlice s)

/-- The write-back of a slot becomes ready. -/
def readyOwed (q : MgtQueue) (slot : Nat) (w : TxWriteback) (s : State) : State := modOwed q slot (fun o => { o with ready := some w }) s

/-- A frame enters the packet path beside the parser: it takes the next entry number. -/
def enterDirect (k : SliceId) (p : Packet) (s : State) : Packet × State :=
  ({ p with entry := s.path.entryNo, slice := k }, { s with path := { s.path with entryNo := s.path.entryNo + 1 } })

/-- The frame in its buffer goes where the descriptor says. -/
def injectTo (d : List Byte) (k : SliceId) (p : Packet) (s : State) : State :=
  if tdClassify d then enterPath k p s
  else
    let (f, s1) := enterDirect k p s
    if tdReplicate d then foldS (tdPorts d) (fun t st => toDest 2 t.val (tdQueue d) f st) s1
    else toDest (tdKind d) (tdDest d) (tdQueue d) f s1

/-- The frame of a valid descriptor: a buffer of MANAGEMENT, or of REPLICATION with a count for each port; without one it is
dropped. -/
def inject (q : MgtQueue) (slot : Nat) (d : List Byte) (frame : FrameBytes) (s : State) : State :=
  let k := mgtSlice s
  let bytes := frame.take (tdLen d)
  let unit := if tdReplicate d then unitReplication else unitMgmt
  let o := ownerId k.val unit
  match allocBuf k { owner := o, prio := 0, bytes := bytes.length, count := if tdReplicate d then (tdPorts d).length else 1 } s with
  | (.ok w, s1) =>
    let p : Packet := {
      bytes := bytes, src := { kind := 3, id := q.val }, buf := some w, owner := o, stamp := deviceStamp s1,
      txRef := if tdTsReq d then some (q, slot) else none, launch := tdLaunch s1 d }
    let s2 := if tdTsReq d then s1
      else readyOwed q slot { tag := some (tdTag d), valid := false, estimated := false, stepped := false, dropped := false,
                              point := 0, reason := 0, stamp := 0 } s1
    injectTo d k (ingressMarks s2 p) s2
  | (.error _, s1) => readyOwed q slot (droppedBack (some (tdTag d)) 2) s1

/-- The descriptor at the head is read; an invalid one is written back DROPPED with reason 1. -/
def txDescriptorReadEffect (queue : MgtQueue) (desc : List Byte) (frame : FrameBytes) (s : State) : State :=
  let x := ringAt s queue
  let slot := x.txHead
  let o : TxOwed := { slot := slot, tag := tdTag desc, tsReq := tdTsReq desc, gen := s.time.stepGen }
  let s1 := modRing s queue fun y => { y with txHead := (slot + 1) % y.txEntries, txOwed := y.txOwed ++ [o] }
  if tdInvalid s desc then readyOwed queue slot (droppedBack (some (tdTag desc)) 1) s1 else inject queue slot desc frame s1

def execTxDescriptorRead (queue : MgtQueue) (desc : List Byte) (frame : FrameBytes) (s : State) : Host.Outcome State Fault Refusal :=
  .next (whenB (txDescriptorReadGuard queue s) (txDescriptorReadEffect queue desc frame) s)

/-- The oldest write-back that is ready. -/
def firstReady : List TxOwed → Option (TxOwed × TxWriteback)
  | [] => none
  | o :: t => match o.ready with
    | some w => some (o, w)
    | none => firstReady t

def txDescriptorWritebackGuard (queue : MgtQueue) (s : State) : Bool :=
  s.anchor.pcieUp && (firstReady (ringAt s queue).txOwed).isSome

/-- The descriptor is written in place, and the queue's vector has a cause. -/
def txDescriptorWritebackEffect (queue : MgtQueue) (s : State) : State :=
  match firstReady (ringAt s queue).txOwed with
  | some (o, w) =>
    let s1 := modRing s queue fun y => { y with txOwed := y.txOwed.erase o, txDone := sparseSet none y.txDone o.slot (some w) }
    causeVec (Fin.ofNat 64 (8 + queue.val)) false (whenB w.dropped (count1 (aWbDropped (mgtSlice s).val)) s1)
  | none => s

def execTxDescriptorWriteback (queue : MgtQueue) (s : State) : Host.Outcome State Fault Refusal :=
  .next (whenB (txDescriptorWritebackGuard queue s) (txDescriptorWritebackEffect queue) s)

/-! Receive rings (R487). -/

def rxqTailWriteGuard (_ : MgtQueue) (_ : State) : Bool := true

def rxqTailWriteEffect (queue : MgtQueue) (value : Nat) (s : State) : State :=
  modRing s queue fun x => { x with rxTail := ringIndex x.rxEntries value }

def execRxqTailWrite (queue : MgtQueue) (value : Nat) (s : State) : Host.Outcome State Fault Refusal :=
  .next (whenB (rxqTailWriteGuard queue s) (rxqTailWriteEffect queue value) s)

/-- A buffer is posted, and a frame waits for it. -/
def mgtRxDeliverGuard (queue : MgtQueue) (s : State) : Bool :=
  let x := ringAt s queue
  s.anchor.pcieUp && x.rxEnabled && x.rxHead != x.rxTail && !s.ev.mgtWait[queue].isEmpty

/-- What a delivered frame's descriptor says. -/
def rxBack (p : Packet) : RxWriteback :=
  { frame := p.bytes, stampValid := !p.timeStopped, estimated := p.timeBad && !p.timeStopped, l3Bad := p.l3Bad, l4Bad := p.l4Bad,
    mirror := p.mirror, srcKind := p.src.kind, srcId := p.src.id, outcome := p.outcome, passTag := p.passTag, stamp := p.stamp,
    portId := p.portId }

/-- A stamp asked for a frame that a management queue takes is written back without one. -/
def stamplessOwed (p : Packet) (s : State) : State :=
  match p.txRef with
  | some (q, slot) => modOwed q slot (fun o => { o with
      ready := some { tag := some o.tag, valid := false, estimated := false, stepped := false, dropped := false, point := 0,
                      reason := 0, stamp := 0 } }) s
  | none => s

/-- The oldest frame is delivered into the next buffer; one longer than SIZE is discarded and the buffer stays posted. -/
def mgtRxDeliverEffect (queue : MgtQueue) (size : Nat) (s : State) : State :=
  match s.ev.mgtWait[queue] with
  | p :: t =>
    let s1 := dropBuf p.buf { s with ev := { s.ev with mgtWait := vmod s.ev.mgtWait queue fun _ => t } }
    if size < p.bytes.length then setFlag (aRxqFlags queue.val) 0 (rxqDrop queue (dropOwed p s1))
    else
      let s2 := modRing s1 queue fun x => { x with rxHead := (x.rxHead + 1) % x.rxEntries, rxDone := sparseSet none x.rxDone x.rxHead (some (rxBack p)) }
      causeVec (Fin.ofNat 64 (8 + queue.val)) false (stamplessOwed p s2)
  | [] => s

def execMgtRxDeliver (queue : MgtQueue) (size : Nat) (s : State) : Host.Outcome State Fault Refusal :=
  .next (whenB (mgtRxDeliverGuard queue s) (mgtRxDeliverEffect queue size) s)

end Sys2Proof.Machine
end

