-- ==== Sys2Proof/Machine/Protection.lean ====
section
/-!
DEFINITION. Machine/Protection.lean: protection pairs, local and remote (spec/07_trunk_oam_performance_protection.md, R196 to
R208, R214, R215; spec/16_fabric.md, R450, R451).
-/
namespace Sys2Proof.Machine

def modProt (s : State) (h : GroupId) (f : PairSt → PairSt) : State := modGroup s h fun x => { x with prot := f x.prot }
def protAt (s : State) (h : GroupId) : PairSt := (groupAt s h).prot

/-! What the pair knows of its two sides; `h` is the pair's home and `w` names the working side (R186, R206). -/

/-- The latest status of the remote group is at most 300 µs old. -/
def remoteFresh (s : State) (h : GroupId) : Bool :=
  match (protAt s h).remoteAt with
  | some t => decide (s.now ≤ t + 300 * usTicks)
  | none => false

/-- The local group that is one side of the pair, none for the remote side. -/
def sideGroup (h : GroupId) (p : Pair) (w : Bool) : Option GroupId :=
  if w == p.working then some h else if p.peer = 0 then some p.partner else none

def sideClean (s : State) (h : GroupId) (p : Pair) (w : Bool) : Bool :=
  match sideGroup h p w with
  | some g => clean s g
  | none => remoteFresh s h && (protAt s h).remoteClean && !(protAt s h).remoteStale

/-- Signal fail of a side; a remote group whose status is lost counts as in signal fail. -/
def sideSf (s : State) (h : GroupId) (p : Pair) (w : Bool) : Bool :=
  match sideGroup h p w with
  | some g => sfG s g
  | none => (protAt s h).remoteSf || (protAt s h).remoteStale

/-! Selection (R200, R201). -/

/-- The line of R201 that decides, and the target it gives. -/
structure PairTarget where
  working : Bool
  line : Deciding
  deriving DecidableEq, Repr

/-- The requests held: the host's, then the heads'. -/
def heldRequests (x : PairSt) : List ProtReq := [x.hostReq, x.headReq].filterMap id

/-- A manual request whose side is clean. -/
def manualOpen (s : State) (h : GroupId) (p : Pair) (r : ProtReq) : Bool :=
  (r == .manualWorking && sideClean s h p true) || (r == .manualProtection && sideClean s h p false)

/-- The active side has been in signal fail for HOLD_OFF. -/
def holdOffOver (s : State) (h : GroupId) (p : Pair) : Bool :=
  match (protAt s h).sfSince with
  | some t => since s t (p.holdOff * 100 * usTicks)
  | none => false

/-- A revertive pair on protection by signal fail, whose working group has been clean for WTR. -/
def restoreDue (s : State) (h : GroupId) (p : Pair) : Bool :=
  p.revertive && !(protAt s h).activeWorking && (protAt s h).bySf && sideClean s h p true &&
    match (protAt s h).wtrSince with
    | some t => since s t (p.wtr * secTicks)
    | none => false

/-- The lines of R201 in order. -/
def pairTarget (s : State) (h : GroupId) (p : Pair) : PairTarget :=
  let x := protAt s h
  let act := x.activeWorking
  let rs := heldRequests x
  if rs.contains .lockout then ⟨true, .lockout⟩
  else if rs.contains .force && sideClean s h p false then ⟨false, .force⟩
  else if sideSf s h p act && holdOffOver s h p && sideClean s h p (!act) then ⟨!act, .signalFail⟩
  else if sideSf s h p act then ⟨act, .hold⟩
  else match rs.find? (manualOpen s h p) with
    | some r => ⟨r == .manualWorking, .manual⟩
    | none => if restoreDue s h p then ⟨true, .wtr⟩ else ⟨act, .none⟩

/-- LAST_CAUSE of a signal fail on a side: the gravest of its lanes' defects, DISABLED, or the loss of the remote group. -/
def sfCause (s : State) (h : GroupId) (p : Pair) (w : Bool) : Nat :=
  match sideGroup h p w with
  | some g =>
    let has := fun f : LaneSt → Bool => (groupLanes s g).any fun l => f (laneAt s l)
    if has showLos then 1 else if has showLof then 2 else if has showAis then 3 else if has showSf then 4 else 5
  | none => if (protAt s h).remoteStale then 10 else 4

/-- LAST_CAUSE of a decision. -/
def lineCause (s : State) (h : GroupId) (p : Pair) : Deciding → Nat
  | .signalFail => sfCause s h p (protAt s h).activeWorking
  | .force => 6
  | .manual => 7
  | .lockout => 8
  | .wtr => 9
  | _ => 0

/-! A switch (R199, R203, R205). -/

/-- A local group ceases to be active: latent bursts of the moved accounts fogged, their remainders discarded. -/
def leaveActive (g : GroupId) (s : State) : State := discardRemainders g (fog g fogProtect (fun _ => true) .stands true s)

/-- A local group becomes active: its leader-only bursts not yet developed give way to staging. -/
def enterActive (g : GroupId) (s : State) : State := dropUnheld g (fun _ => true) s

/-- SWITCHED, PRT_SWITCHES and an RDI on a local group of the pair. -/
def markSwitched (g : GroupId) (s : State) : State := setFlag (aPrtFlags g) 0 (count1 (aPrt g 0x00) s)

/-- TIME_SOURCE follows the active group of a local pair; a head that disagrees by more than JUMP_LIMIT is refused as a change
of master (R199, R376, R377). -/
def moveTimeSource (a b : GroupId) (s : State) : State :=
  if !(groupAt s a).timeSource then s
  else
    let s1 := modGroup (modGroup s a fun x => { x with timeSource := false }) b fun x => { x with timeSource := true }
    let x := groupAt s1 a
    let y := groupAt s1 b
    let step := groupTod s1 b - groupTod s1 a
    if x.timeSt == .none || y.timeSt == .none || x.lastTodHead == y.lastTodHead ||
        (s.time.jumpLimit != 0 && decide (step.natAbs ≤ s.time.jumpLimit * 65536)) then s1
    else
      let j : JumpLatch := { headId := y.headId, offset := y.offset, step := step, at_ := s.now, locked := y.timeSt == .locked,
                             fn := y.todFn, down := y.downDelay, utc := y.todUtc, leap := y.todLeap }
      refuseTod b j (modGroup s1 b fun z => { z with offset := z.offset - step, headId := x.headId, lastTodHead := x.lastTodHead })

/-- Every frame of an account in queue order: by class from SRAM, then the spilled ones. -/
def accountFrames (x : AccountSt) : List Packet :=
  ((List.finRange 8).flatMap fun c => x.classes[c].frames) ++ (x.pages.flatMap fun p => p.frames) ++ x.tail

/-- An account with nothing queued. -/
def emptyAccount (x : AccountSt) : AccountSt :=
  { x with classes := x.classes.map fun c => { c with frames := [] }, tail := [], pages := [], spilling := false, atCap := false,
           retryAt := none }

/-- A class of an account of the peer as a fabric destination (R446). -/
def accountDest (peer target cls : Nat) : FabDest :=
  { dest := peer, deliver := 1, target := target, queue := cls, cls := if cls < 2 then 1 else 2 }

/-- The packets queued for an account follow over the fabric to the peer's account (R205). -/
def moveAccount (peer target : Nat) (a : AccountId) (s : State) : State :=
  let x := acctAt s a
  let pages := x.pages.map fun p => p.chan * chanPages + p.page
  let s1 := modAcct s a emptyAccount
  let s2 := { s1 with path := { s1.path with spillUsed := s1.path.spillUsed.filter fun n => !pages.contains n } }
  foldS (accountFrames x) (fun f => fabSend (accountDest peer target f.cls) f) s2

/-- Every account of a group of a remote pair. -/
def moveAccounts (g : GroupId) (p : Pair) (s : State) : State :=
  foldS (List.finRange 64) (fun a => moveAccount p.peer (64 * p.partner.val + a.val) (accountOf g a)) s

/-- The local groups of a pair. -/
def pairGroups (h : GroupId) (p : Pair) : List GroupId := if p.peer = 0 then [h, p.partner] else [h]

/-- The record of a switch.  The downstream selector moves to a local group at its next frame boundary, and leaves one for a remote
group at once. -/
def notePairSwitch (localSide : Bool) (w : Bool) (v : PairTarget) (cause : Nat) (now : Nat) (x : PairSt) : PairSt :=
  { x with activeWorking := w, selWorking := if localSide then x.selWorking else w, bySf := v.line == .signalFail && !w, lastCause := cause, switchAt := some now,
           declaredAt := if v.line == .signalFail then x.sfSince.getD now else now, sfSince := none, blocked := false }

/-- Both directions switch to the target (R203, R205). -/
def switchPair (h : GroupId) (p : Pair) (v : PairTarget) (cause : Nat) (s : State) : State :=
  let w := v.working
  let s1 := match sideGroup h p (!w) with | some g => leaveActive g s | none => s
  let s2 := modProt s1 h (notePairSwitch (sideGroup h p w).isSome w v cause s.now)
  let s3 := match sideGroup h p w with | some g => enterActive g s2 | none => s2
  let s4 := if p.peer = 0 then moveTimeSource (if w then p.partner else h) (if w then h else p.partner) s3
    else if w != p.working then moveAccounts h p s3 else s3
  foldS (pairGroups h p) (fun g st => refreshLinkFault g (queueRdi g (markSwitched g st))) s4

/-! PROTECT_NOTIFY (R451). -/

/-- Payload of a PROTECT_NOTIFY. -/
def notifyBytes (s : State) (h : GroupId) (p : Pair) (seq : Nat) : List Byte :=
  [BitVec.ofNat 8 h.val, BitVec.ofNat 8 p.partner.val, if (protAt s h).activeWorking then 0 else 1,
   BitVec.ofNat 8 (protAt s h).lastCause] ++ toBe 4 seq

/-- A decision of a remote pair is told to the peer. -/
def sendNotify (h : GroupId) (p : Pair) (s : State) : State :=
  let q := ((protAt s h).notifySeq + 1) % 2 ^ 32
  fabControl cellNotify p.peer (notifyBytes s h p q)
    (modProt s h fun x => { x with notifySeq := q, notify := some (q, 1, s.now), notifyFail := false })

/-! PROTECT_EVALUATE (R201, R202). -/

/-- The timers of R201: how long the active side has been in signal fail, and the working side clean. -/
def pairTimers (h : GroupId) (p : Pair) (s : State) : State :=
  let sf := sideSf s h p (protAt s h).activeWorking
  let c := sideClean s h p true
  modProt s h fun x => { x with
    sfSince := if sf then some (x.sfSince.getD s.now) else none,
    wtrSince := if c then some (x.wtrSince.getD s.now) else none }

/-- An episode of signal fail without a switch is flagged and counted once (R201). -/
def markBlocked (h : GroupId) (p : Pair) (v : PairTarget) (s : State) : State :=
  let act := (protAt s h).activeWorking
  let b := sideSf s h p act && v.working == act
  let s1 := modProt s h fun x => { x with blocked := b, deciding := v.line }
  let g := (sideGroup h p act).getD h
  whenB (b && !(protAt s h).blocked) (fun st => setFlag (aPrtFlags g) 1 (count1 (aPrt g 0x08) st)) s1

/-- The group is one of a pair in force whose selection this device makes. -/
def protectEvaluateGuard (group : GroupId) (s : State) : Bool :=
  let h := pairHome s group
  match (groupAt s h).pair with
  | some p => p.working && groupEnabled s group
  | none => false

def protectEvaluateEffect (group : GroupId) (s : State) : State :=
  let h := pairHome s group
  match (groupAt s h).pair with
  | some p =>
    let s1 := pairTimers h p s
    let v := pairTarget s1 h p
    let s2 := markBlocked h p v s1
    if v.working = (protAt s2 h).activeWorking then foldS (pairGroups h p) refreshLinkFault s2
    else
      let s3 := switchPair h p v (lineCause s1 h p v.line) s2
      if p.peer = 0 then s3 else sendNotify h p s3
  | none => s

def execProtectEvaluate (group : GroupId) (s : State) : Host.Outcome State Fault Refusal :=
  .next (whenB (protectEvaluateGuard group s) (protectEvaluateEffect group) s)

/-! RESTEER_COMPLETE (R204). -/

/-- A grant of a moved account that is within DEPTH, whose slot edge lies 50 µs ahead or more, stands unstaged though it could be
filled. -/
def resteerOpen (s : State) (g : GroupId) : Bool :=
  let x := groupAt s g
  let late := fun t : Stamp => decide ((64 * 50 * usTicks : Int) ≤ stampDiff t x.ctr)
  (groupLanes s g).any fun l =>
    ((unstagedOn s g (curEpoch s l) l).any fun u =>
      late u.edge && stampReached (u.edge - ticks x.depth) x.ctr && canFill s g l u.epoch u.grant) ||
    x.latents.any fun b => b.lane == l && !b.held && !b.developed && late b.edge && canFill s g l b.epoch b.grant

/-- The downstream selector stands on the new active group, and its grants from 50 µs on carry the moved accounts' packets. -/
def resteerCompleteGuard (group : GroupId) (s : State) : Bool :=
  let h := pairHome s group
  let x := protAt s h
  x.switchAt.isSome && x.selWorking == x.activeWorking &&
    match (groupAt s h).pair with
    | some p => (match sideGroup h p x.activeWorking with
      | some g => !resteerOpen s g
      | none => true)
    | none => true

def resteerCompleteEffect (group : GroupId) (s : State) : State :=
  modProt s (pairHome s group) fun x => { x with switchAt := none, lastSwitchUs := min 65535 ((s.now - x.declaredAt) / usTicks) }

def execResteerComplete (group : GroupId) (s : State) : Host.Outcome State Fault Refusal :=
  .next (whenB (resteerCompleteGuard group s) (resteerCompleteEffect group) s)

/-! PROTECT_COMMAND (R200, R206, R208). -/

/-- The request of an OP. -/
def opRequest : Nat → Option ProtReq
  | 1 => some .lockout
  | 2 => some .force
  | 3 => some .manualWorking
  | 4 => some .manualProtection
  | _ => none

/-- The line of R201 that a request decides by. -/
def requestLine : ProtReq → Deciding
  | .lockout => .lockout
  | .force => .force
  | _ => .manual

/-- A request that would be held and not decide. -/
def requestHeld (s : State) (h : GroupId) (p : Pair) (r : ProtReq) : Bool :=
  p.working && (pairTarget (modProt s h fun x => { x with headReq := some r }) h p).line != requestLine r

def commandStatus (s : State) (g : GroupId) (op : Nat) : Nat :=
  let h := pairHome s g
  let st := (groupAt s g).st
  if 5 < op then ackBadFormat
  else match (groupAt s h).pair with
    | none => ackWrongState
    | some p =>
      if !(st == .operate || st == .holdover) then ackWrongState
      else match opRequest op with
        | some r => if requestHeld s h p r then ackHeld else ackAccepted
        | none => ackAccepted

/-- An accepted command: the heads' request is replaced or cleared, on the protection side of a remote pair relayed; a
STATUS_REQUEST queues an RDI. -/
def takeCommand (g : GroupId) (op : Nat) (s : State) : State :=
  let h := pairHome s g
  if op = 5 then queueRdi g s
  else match (groupAt s h).pair with
    | some p =>
      if p.working then modProt s h fun x => { x with headReq := opRequest op }
      else modProt s h fun x => { x with relayOp := op, relaySeq := (x.relaySeq + 1) % 2 ^ 32, relayPend := true }
    | none => s

def protectCommandAct (m : OamRx) (g : GroupId) (s : State) : State :=
  let op := msgAt m 4 1
  let st := commandStatus s g op
  queueAck g 0x0F st (msgSeq m) (if st = ackAccepted ∨ st = ackHeld then takeCommand g op s else s)

def execProtectCommand (lane : Lane) (msg : OamRx) (s : State) : Host.Outcome State Fault Refusal :=
  .next (oamReceive 0x0F lane msg noTest (protectCommandAct msg) s)

/-! PROTECT_STATUS (R206, R450). -/

/-- STATE of a group (R110). -/
def TermSt.code : TermSt → Nat
  | .initial => 0
  | .listen => 1
  | .announce => 2
  | .range => 3
  | .operate => 4
  | .holdover => 5
  | .disabled => 6

/-- Bytes 0 to 7 of a PROTECT_STATUS. -/
def statusFields (s : State) (g : GroupId) (p : Pair) : List Byte :=
  let x := groupAt s g
  let flags := (sfG s g).toNat + 2 * (clean s g).toNat + 4 * (activeGroup s g).toNat + 8 * x.disableLatch.toNat +
    16 * x.prot.relayPend.toNat
  [BitVec.ofNat 8 g.val, BitVec.ofNat 8 p.partner.val, BitVec.ofNat 8 x.st.code, BitVec.ofNat 8 flags, BitVec.ofNat 8 x.termId,
   BitVec.ofNat 8 (lanesInDefect s g).length, BitVec.ofNat 8 x.prot.relayOp, 0]

/-- Both ends of a remote pair send every 100 µs, and on a change of the fields.  A peer that hears nothing keeps its last selection,
and link-fault signalling follows under it (R187, R206). -/
def protectStatusSendGuard (group : GroupId) (s : State) : Bool :=
  match (groupAt s group).pair with
  | some p => p.peer != 0 && !s.fabric.stopped &&
      (since s (protAt s group).statusSentAt (100 * usTicks) || statusFields s group p != (protAt s group).lastStatus)
  | none => false

def protectStatusSendEffect (group : GroupId) (s : State) : State :=
  match (groupAt s group).pair with
  | some p =>
    let x := protAt s group
    let b := statusFields s group p
    let s1 := modProt s group fun y => { y with
      statusSentAt := s.now, statusSeq := (y.statusSeq + 1) % 2 ^ 32, relayPend := false,
      lastStatus := statusFields (modProt s group fun z => { z with relayPend := false }) group p }
    let s2 := fabControl cellStatus p.peer (b ++ toBe 4 x.statusSeq ++ toBe 4 x.relaySeq ++ List.replicate 8 0) s1
    if p.working || remoteFresh s group then s2 else refreshLinkFault group s2
  | none => s

def execProtectStatusSend (group : GroupId) (s : State) : Host.Outcome State Fault Refusal :=
  .next (whenB (protectStatusSendGuard group s) (protectStatusSendEffect group) s)

/-- The local group that a message of the pair names, when it is paired with the sender. -/
def namedPair (src : Nat) (b : List Byte) (s : State) : Option (GroupId × Pair) :=
  let g : GroupId := Fin.ofNat 4 (leAt b 1 1)
  match (groupAt s g).pair with
  | some p => if leAt b 1 1 < 4 ∧ p.peer ≠ 0 ∧ p.peer = src ∧ p.partner.val = leAt b 0 1 then some (g, p) else none
  | none => none

/-- The protection side takes the target that the working side's status carries (R451); the status gives no cause, so LAST_CAUSE is a
free value (log 128). -/
def followActive (g : GroupId) (p : Pair) (b : List Byte) (s : State) : State :=
  let w := natBit (leAt b 3 1) 2
  if w = (protAt s g).activeWorking then refreshLinkFault g s else switchPair g p ⟨w, .none⟩ (Config.followCause s.now % 16) s

/-- The working side takes a relayed command once, and sees whether the peer's selection agrees. -/
def takeStatus (g : GroupId) (b : List Byte) (s : State) : State :=
  let f := leAt b 3 1
  let seq := beAt b 12 4
  let op := leAt b 6 1
  let fresh := natBit f 4 && (protAt s g).lastRelayRx != some seq && decide (op ≤ 4)
  modProt s g fun x => { x with
    lastRelayRx := if natBit f 4 then some seq else x.lastRelayRx,
    headReq := if fresh then opRequest op else x.headReq,
    notifyFail := x.notifyFail && natBit f 2 == x.activeWorking }

/-- A PROTECT_STATUS reaches slice `k`. -/
def statusAct (k src : Nat) (b : List Byte) (s : State) : State :=
  match namedPair src b s with
  | some (g, p) =>
    let f := leAt b 3 1
    let s1 := modProt s g fun x => { x with
      remoteSf := natBit f 0, remoteClean := natBit f 1, remoteTerm := leAt b 4 1, remoteAt := some s.now, remoteStale := false }
    if p.working then takeStatus g b s1 else followActive g p b s1
  | none => count1 (aFab k 0x18) s

def execProtectStatus (src : Nat) (payload : List Byte) (s : State) : Host.Outcome State Fault Refusal :=
  .next (statusAct 0 src payload s)

/-! REMOTE_STALE (R206). -/

/-- The working device has had no status from the peer's group for 300 µs. -/
def remoteStaleGuard (group : GroupId) (s : State) : Bool :=
  match (groupAt s group).pair with
  | some p => p.peer != 0 && p.working && !(protAt s group).remoteStale &&
      since s ((protAt s group).remoteAt.getD (groupAt s group).startedAt + 1) (300 * usTicks)
  | none => false

def remoteStaleEffect (group : GroupId) (s : State) : State :=
  let s1 := modProt s group fun x => { x with remoteStale := true }
  if (protAt s group).activeWorking then s1 else setFlag (aPrtFlags group) 7 s1

def execRemoteStale (group : GroupId) (s : State) : Host.Outcome State Fault Refusal :=
  .next (whenB (remoteStaleGuard group s) (remoteStaleEffect group) s)

/-! PROTECT_NOTIFY received, its ACK, resends and failure (R451). -/

/-- The peer acts on each NOTIFY_SEQ once, and answers each copy. -/
def notifyAct (k src : Nat) (b : List Byte) (s : State) : State :=
  match namedPair src b s with
  | some (g, p) =>
    if p.working then count1 (aFab k 0x18) s
    else
      let seq := beAt b 4 4
      let w := leAt b 2 1 == 0
      let s1 := if (protAt s g).lastNotifyRx = some seq then s
        else
          let s2 := modProt s g fun x => { x with lastNotifyRx := some seq }
          if w = (protAt s g).activeWorking then s2 else switchPair g p ⟨w, .none⟩ (leAt b 3 1) s2
      fabControl cellAck p.peer (toBe 4 seq) s1
  | none => count1 (aFab k 0x18) s

def execProtectNotify (src : Nat) (payload : List Byte) (s : State) : Host.Outcome State Fault Refusal :=
  .next (notifyAct 0 src payload s)

def notifyResendGuard (group : GroupId) (s : State) : Bool :=
  match (protAt s group).notify with
  | some (_, n, t) => decide (n < 4) && since s t (20 * n * usTicks)
  | none => false

def notifyResendEffect (group : GroupId) (s : State) : State :=
  match (groupAt s group).pair, (protAt s group).notify with
  | some p, some (q, n, t) =>
    fabControl cellNotify p.peer (notifyBytes s group p q) (modProt s group fun x => { x with notify := some (q, n + 1, t) })
  | _, _ => s

def execNotifyResend (group : GroupId) (s : State) : Host.Outcome State Fault Refusal :=
  .next (whenB (notifyResendGuard group s) (notifyResendEffect group) s)

def notifyFailGuard (group : GroupId) (s : State) : Bool :=
  match (protAt s group).notify with
  | some (_, _, t) => since s t (90 * usTicks)
  | none => false

def notifyFailEffect (group : GroupId) (s : State) : State :=
  setFlag aFabFlags 5 (modProt s group fun x => { x with notify := none, notifyFail := true })

def execNotifyFail (group : GroupId) (s : State) : Host.Outcome State Fault Refusal :=
  .next (whenB (notifyFailGuard group s) (notifyFailEffect group) s)

/-- An ACK from a peer ends the resends of the NOTIFY it echoes. -/
def ackAct (src seq : Nat) (s : State) : State :=
  foldS (List.finRange 4) (fun g st =>
    match (groupAt st g).pair, (protAt st g).notify with
    | some p, some (q, _, _) => if p.peer = src ∧ q = seq then modProt st g fun x => { x with notify := none } else st
    | _, _ => st) s

def execNotifyAck (src : Nat) (seq : Nat) (s : State) : Host.Outcome State Fault Refusal := .next (ackAct src seq s)

/-! PROTECT_SET and PROTECT_REQUEST (R214, R215). -/

/-- The pair that a group will be in: the one that awaits FUNC_START, else the one in force. -/
def pairToBe (s : State) (g : GroupId) : Option Pair := (groupAt s g).pairPend.getD (groupAt s g).pair

def psGroup (r : Request) : GroupId := Fin.ofNat 4 (r.u8 0)
def psPartner (r : Request) : GroupId := Fin.ofNat 4 (r.u8 3)
def psLocal (r : Request) : Bool := r.u8 4 == 0

/-- A group is in a pair other than the one it would form with `m`. -/
def otherPair (s : State) (g m : GroupId) (peer : Nat) : Bool :=
  match pairToBe s g with
  | some p => p.partner != m || p.peer != peer
  | none => false

def protectSetChecks (r : Request) (s : State) : List Check :=
  let g := psGroup r
  let m := psPartner r
  [ckLen r 12,
   ckRange (decide (3 < r.u8 0) || decide (3 < r.u8 3)),
   ⟨!(groupAt s g).stopped || (psLocal r && !(groupAt s m).stopped), .notStopped⟩,
   ckRange (decide (1 < r.u8 1) || decide (1 < r.u8 2) || decide (63 < r.u8 4) || decide (1 < r.u8 5) || r.u16 6 == 0 ||
     decide (720 < r.u16 6) || decide (100 < r.u16 8) || resv r 10 2),
   ⟨if r.u8 1 = 0 then (pairToBe s g).isNone
    else (psLocal r && g == m) || (r.u8 2 == 1 && psLocal r) || otherPair s g m (r.u8 4) || (psLocal r && otherPair s m g 0),
    .conflict⟩]

def setPairPend (g : GroupId) (p : Option Pair) (s : State) : State := modGroup s g fun x => { x with pairPend := some p }

def protectSetApply (r : Request) (s : State) : Done :=
  let g := psGroup r
  let m := psPartner r
  if r.u8 1 = 0 then
    let s1 := setPairPend g none s
    match pairToBe s g with
    | some p => okDone (if p.peer = 0 then setPairPend p.partner none s1 else s1)
    | none => okDone s1
  else
    let p : Pair := { working := r.u8 2 == 0, partner := m, peer := r.u8 4, revertive := natBit (r.u8 5) 0, wtr := r.u16 6,
                      holdOff := r.u16 8 }
    let s1 := setPairPend g (some p) s
    okDone (if psLocal r then setPairPend m (some { p with working := false, partner := g }) s1 else s1)

def execProtectSet (s : State) : Host.Outcome State Fault Refusal := .next (runCommand 0x0151 protectSetChecks protectSetApply s)

def protectRequestChecks (r : Request) (s : State) : List Check :=
  let g := psGroup r
  [ckLen r 4,
   ckRange (decide (3 < r.u8 0) || decide (4 < r.u8 1) || resv r 2 2),
   ⟨match (groupAt s g).pair with
    | some p => p.peer != 0 && !p.working
    | none => true, .conflict⟩]

def protectRequestApply (r : Request) (s : State) : Done :=
  okDone (modProt s (pairHome s (psGroup r)) fun x => { x with hostReq := opRequest (r.u8 1) })

def execProtectRequest (s : State) : Host.Outcome State Fault Refusal :=
  .next (runCommand 0x0152 protectRequestChecks protectRequestApply s)

end Sys2Proof.Machine
end

