-- ==== Sys2Proof/Machine/Fabric.lean ====
section
/-!
DEFINITION. Machine/Fabric.lean: the Xasoash fabric: links and neighbours, addresses and the root, link state and routes,
cells received and delivered, quiet lanes, and its commands (spec/16_fabric.md, R432 to R456).
-/
namespace Sys2Proof.Machine

/-! Lanes (R432, R435). -/

/-- The lane is enabled and can carry cells: its slice is present and powered, no loop or pattern stands on it, its domain
runs, and the device carries traffic. -/
def fabLive (s : State) (l : FabLane) : Bool :=
  let k := fabSlice l
  let p := s.power.st[k]
  (fabAt s l).enabled && present s k.val && carriesTraffic s && !s.power.standby &&
    (p == .run || p == .idle || p == .quiescing) && !s.power.slices[k].domains[(4 : Fin 8)].stopped &&
    !laneTesting (serialAt s (fabSerial l))

/-- A lane that receives. -/
def fabHears (s : State) (l : FabLane) : Bool := fabLive s l && (serialAt s (fabSerial l)).rx != .deep && (serialAt s (fabSerial l)).rx != .off
/-- A lane that sends. -/
def fabSpeaks (s : State) (l : FabLane) : Bool := fabLive s l && (serialAt s (fabSerial l)).tx != .deep && (serialAt s (fabSerial l)).tx != .off

/-- Lanes on which link state is flooded (R443). -/
def floodLanes (s : State) : List FabLane :=
  (List.finRange 16).filter fun l => (fabAt s l).adj == .full || (fabAt s l).adj == .twoWay

/-- A link-local cell of a type leaves on a lane. -/
def sendLocal (type : Nat) (payload : List Byte) (l : FabLane) (s : State) : State :=
  let h := cellHeader { src := s.fabric.address, type := type, ttl := 1, length := payload.length }
  fabQueue l { header := h, payload := payload } s

/-- A link-local cell on every flooding lane but one. -/
def flood (type : Nat) (payload : List Byte) (except : Option FabLane) (s : State) : State :=
  foldS ((floodLanes s).filter fun l => some l != except) (sendLocal type payload) s

/-! The link-state database (R440, R443). -/

/-- DEVICE_IDs known: the device's own and those of the LSAs held. -/
def knownIds (s : State) : List Wide := s.serial :: s.fabric.lsas.map fun x => x.device

/-- The lowest DEVICE_ID known. -/
def lowestId (s : State) : Wide := (knownIds s).foldl (fun a b => if b.toNat < a.toNat then b else a) s.serial

/-- The root follows the database: none while no other device's LSA is held (R440). -/
def refreshRoot (s : State) : State :=
  let r := if s.fabric.lsas.isEmpty then 0 else lowestId s
  if r = s.fabric.root then s
  else setFlag aFabFlags 2 { s with fabric := { s.fabric with root := r, addrChanged := s.fabric.addrChanged || r == s.serial } }

/-- The device is root. -/
def isRoot (s : State) : Bool := s.fabric.root == s.serial && s.fabric.root != 0

/-- The links that the device reports: its FULL lanes. -/
def ownLinks (s : State) : List LsaLink :=
  (fullLanes s 0xFFFF).map fun l =>
    let y := fabAt s l
    { neigh := y.neighId, localLane := l.val, neighLane := y.neighLane, cost := y.cost }

/-- The device's own advertisement. -/
def ownLsa (s : State) (seq : Word) : LsaHeld :=
  { device := s.serial, seq := seq, address := s.fabric.address, auto := s.fabric.setting == 0, stopped := s.fabric.stopped,
    links := ownLinks s, at_ := s.now }

/-- Bytes of an LSA (R443). -/
def lsaBytes (x : LsaHeld) : List Byte :=
  vecBytes x.device ++ vecBytes x.seq ++
    [BitVec.ofNat 8 x.address, BitVec.ofNat 8 (x.auto.toNat + 2 * x.stopped.toNat), BitVec.ofNat 8 x.links.length, 0] ++
    x.links.flatMap fun k => vecBytes k.neigh ++ [BitVec.ofNat 8 k.localLane, BitVec.ofNat 8 k.neighLane] ++ toBe 2 k.cost

/-- The LSA that bytes hold, where their length fits COUNT. -/
def lsaOf (b : List Byte) (now : Nat) : Option LsaHeld :=
  let n := leAt b 14 1
  if b.length = 16 + 12 * n ∧ n ≤ 16 then
    some { device := vecOfBytes 64 (b.take 8), seq := vecOfBytes 32 ((b.drop 8).take 4), address := leAt b 12 1 % 64,
           auto := natBit (leAt b 13 1) 0, stopped := natBit (leAt b 13 1) 1, at_ := now,
           links := (List.range n).map fun i =>
             let k := 16 + 12 * i
             { neigh := vecOfBytes 64 ((b.drop k).take 8), localLane := leAt b (k + 8) 1, neighLane := leAt b (k + 9) 1,
               cost := beAt b (k + 10) 2 } }
  else none

/-! Links DOWN (R436, R437, R439). -/

/-- The cause of a loss as DOWN_CAUSE has it. -/
def downCode : FabDownCause → Nat
  | .alignLost => causeAlign
  | .silence => causeSilent
  | .helloTimeout => causeHello
  | .xoffWatchdog => causeXoff

/-- The link is not DOWN, and the time of the cause has run (R436, R437, R439). -/
def fabricLinkDownGuard (lane : FabLane) (cause : FabDownCause) (s : State) : Bool :=
  let y := fabAt s lane
  y.adj != .down && match cause with
    | .alignLost => y.aligned || since s y.alignLostAt (10 * usTicks)
    | .silence => !y.lpiRx && since s y.lastCellAt (50 * usTicks)
    | .helloTimeout => since s y.lastHelloAt (300 * usTicks)
    | .xoffWatchdog => (y.heldHigh || y.heldNormal) && since s y.heldSince (100 * msTicks)

def fabricLinkDownEffect (lane : FabLane) (cause : FabDownCause) (s : State) : State :=
  let s1 := takeDown lane (downCode cause) s
  match cause with
  | .alignLost => modFab s1 lane fun y => { y with aligned := false }
  | _ => s1

def execFabricLinkDown (lane : FabLane) (cause : FabDownCause) (s : State) : Host.Outcome State Fault Refusal :=
  .next (whenB (fabricLinkDownGuard lane cause s) (fabricLinkDownEffect lane cause) s)

/-! HELLO (R435 to R438). -/

/-- Bytes of a HELLO on a lane: while the function is stopped the address is 0 and STOPPED is 1 (R454). -/
def helloBytes (s : State) (l : FabLane) : List Byte :=
  let f := s.fabric
  let flags := (f.setting == 0).toNat + 2 * f.lpi.toNat + 4 * f.stopped.toNat + 8 * (isRoot s).toNat
  vecBytes s.serial ++ vecBytes (fabAt s l).neighId ++ vecBytes (lowestId s) ++
    [BitVec.ofNat 8 (if f.stopped then 0 else f.address), BitVec.ofNat 8 l.val, BitVec.ofNat 8 flags, 0] ++
    vecBytes f.ownSeq ++ List.replicate 8 0

def helloSendGuard (lane : FabLane) (s : State) : Bool :=
  fabSpeaks s lane && since s (fabAt s lane).helloSentAt (100 * usTicks)

def helloSendEffect (lane : FabLane) (s : State) : State :=
  sendLocal cellHello (helloBytes s lane) lane (modFab s lane fun y => { y with helloSentAt := s.now })

def execHelloSend (lane : FabLane) (s : State) : Host.Outcome State Fault Refusal :=
  .next (whenB (helloSendGuard lane s) (helloSendEffect lane) s)

/-- A link becomes FULL (R436). -/
def raiseFull (l : FabLane) (s : State) : State :=
  ownChanged (setFlag (aFabLaneFlags l) 0 (modFab s l fun y => { y with adj := .full }))

/-- TWO_WAY becomes FULL once the LSAs have been sent and the partner's has come. -/
def testFull (l : FabLane) (s : State) : State :=
  let y := fabAt s l
  if y.adj == .twoWay && y.lsasSent && y.lsaSeen then raiseFull l s else s

/-- INIT becomes TWO_WAY: every held LSA and the device's own are sent on the lane. -/
def raiseTwoWay (l : FabLane) (s : State) : State :=
  let s1 := modFab s l fun y => { y with adj := .twoWay }
  let s2 := foldS (s.fabric.lsas ++ [ownLsa s s.fabric.ownSeq]) (fun x => sendLocal cellLsa (lsaBytes x) l) s1
  testFull l (modFab s2 l fun y => { y with lsasSent := true })

/-- What a HELLO says of the partner is recorded. -/
def recordHello (b : List Byte) (y : FabLaneSt) : FabLaneSt :=
  let f := leAt b 26 1
  { y with neighId := vecOfBytes 64 (b.take 8), neighAddr := leAt b 24 1 % 64, neighLane := leAt b 25 1 % 16,
           neighLpi := natBit f 1, neighStopped := natBit f 2 }

/-- A HELLO on a lane: the adjacency follows the table of R436; a self-loop stays INIT (R438). -/
def helloAct (l : FabLane) (b : List Byte) (s : State) : State :=
  let y := fabAt s l
  let id : Wide := vecOfBytes 64 (b.take 8)
  let names := vecOfBytes 64 ((b.drop 8).take 8) == s.serial
  let stopped := natBit (leAt b 26 1) 2 || s.fabric.stopped
  let s0 := modFab s l fun z => { z with lastHelloAt := s.now, aligned := true, neighStopped := natBit (leAt b 26 1) 2 }
  if b.length ≠ 40 then s
  else if id = s.serial then
    setFlag aFabFlags 6 (modFab (if y.adj == .down || y.adj == .init then s0 else takeDown l causeOneWay s0) l
      fun z => { recordHello b z with adj := .init })
  else if stopped then takeDown l causeDisabled s0
  else match y.adj with
    | .down => modFab s0 l fun z => { recordHello b z with adj := .init }
    | .init =>
      let s1 := modFab s0 l (recordHello b)
      if id ≠ y.neighId then takeDown l causeOneWay s0 else if names then raiseTwoWay l s1 else s1
    | _ =>
      if id ≠ y.neighId ∨ names = false then takeDown l causeOneWay s0
      else testFull l (modFab s0 l (recordHello b))

/-- The counts of a valid cell on a lane, IDLE excluded (R456). -/
def countCell (l : FabLane) (bytes : Nat) (s : State) : State :=
  count (aFabLane l 0x18) bytes (count1 (aFabLane l 0x08) (modFab s l fun y => { y with lastCellAt := s.now, lpiRx := false }))

/-- The partner's XOFF bits as the latest cell states them (R439); what they held goes on once they clear. -/
def takeXoff (l : FabLane) (high normal : Bool) (s : State) : State :=
  fabDrain l (modFab s l fun y => { y with
    heldHigh := high, heldNormal := normal,
    heldSince := if y.heldHigh || y.heldNormal then y.heldSince else if high || normal then s.now else y.heldSince })

def helloGuard (lane : FabLane) (s : State) : Bool := fabHears s lane

def helloEffect (lane : FabLane) (hello : Hello) (s : State) : State :=
  helloAct lane hello.bytes (takeXoff lane hello.xoffHigh hello.xoffNormal (countCell lane hello.bytes.length s))

def execHello (lane : FabLane) (hello : Hello) (s : State) : Host.Outcome State Fault Refusal :=
  .next (whenB (helloGuard lane s) (helloEffect lane hello) s)

/-! IDLE cells and LPI (R437, R453). -/

def idleCellSendGuard (lane : FabLane) (s : State) : Bool :=
  let y := fabAt s lane
  fabSpeaks s lane && !s.fabric.stopped &&
    ((!y.lpiTx && since s y.lastSentAt (10 * usTicks)) || y.xoffSent != fabricXoff s (fabSlice lane))

def idleCellSendEffect (lane : FabLane) (s : State) : State := sendLocal cellIdle [] lane s

def execIdleCellSend (lane : FabLane) (s : State) : Host.Outcome State Fault Refusal :=
  .next (whenB (idleCellSendGuard lane s) (idleCellSendEffect lane) s)

def fabLpiEnterGuard (lane : FabLane) (s : State) : Bool :=
  let y := fabAt s lane
  fabSpeaks s lane && s.fabric.lpi && y.neighLpi && !y.lpiTx && since s y.lastBusyAt (20 * usTicks) &&
    !fabricXoff s (fabSlice lane) && (List.finRange 3).all fun c => y.queues[c].isEmpty

def fabLpiEnterEffect (lane : FabLane) (s : State) : State := modFab s lane fun y => { y with lpiTx := true }

def execFabLpiEnter (lane : FabLane) (s : State) : Host.Outcome State Fault Refusal :=
  .next (whenB (fabLpiEnterGuard lane s) (fabLpiEnterEffect lane) s)

/-! Addresses (R440 to R442). -/

/-- The device takes an address; an LSA is due. -/
def takeAddress (a : Nat) (s : State) : State :=
  if s.fabric.address = a then s else ownChanged { s with fabric := { s.fabric with address := a } }

/-- A clash with a device of lower DEVICE_ID: address 0 and ADDR_CONFLICT (R442). -/
def yieldAddress (id : Wide) (a : Nat) (s : State) : State :=
  if a ≠ 0 ∧ a = s.fabric.address ∧ id.toNat < s.serial.toNat then setFlag aFabFlags 1 (takeAddress 0 s) else s

/-- An AUTO device adopts its entry (R441). -/
def adopt (es : List (Wide × Nat)) (s : State) : State :=
  match es.find? fun e => e.1 == s.serial with
  | some e =>
    if s.fabric.setting = 0 ∧ e.2 ≠ 0 ∧ e.2 ≠ s.fabric.address then setFlag aFabFlags 0 (takeAddress e.2 s) else s
  | none => s

/-- Every device known with its address and whether it is AUTO, by rising DEVICE_ID; the address of an AUTO device that has
not yet adopted its assignment is that assignment. -/
def addressBook (s : State) : List (Wide × Nat × Bool) :=
  let given := fun (id : Wide) (a : Nat) => if a ≠ 0 then a else
    match s.fabric.assigned.find? fun e => e.1 == id with
    | some e => e.2
    | none => 0
  let all := (s.serial, s.fabric.address, s.fabric.setting == 0) :: s.fabric.lsas.map fun x => (x.device, x.address, x.auto)
  (all.mergeSort fun a b => a.1.toNat ≤ b.1.toNat).map fun e => (e.1, if e.2.2 then given e.1 e.2.1 else e.2.1, e.2.2)

/-- The lowest address from 1 to 63 that is not used, 0 where none is free. -/
def freeAddress (used : List Nat) : Nat := (((List.range 64).drop 1).find? fun a => !used.contains a).getD 0

/-- The root's assignments: addresses in use stay with the lowest DEVICE_ID, other AUTO devices take the lowest free address in
rising order of DEVICE_ID; addresses of devices that have left are held (R441). -/
def assignments (s : State) : List (Wide × Nat) :=
  let book := addressBook s
  let owns := fun (id : Wide) (a : Nat) => a ≠ 0 ∧ (book.find? fun e => e.2.1 == a).map (fun e => e.1) = some id
  let held := (book.map fun e => e.2.1) ++ s.fabric.leftAt.map fun e => e.1
  ((book.filter fun e => e.2.2).foldl (fun (r : List Nat × List (Wide × Nat)) e =>
      if owns e.1 e.2.1 then (r.1, r.2 ++ [(e.1, e.2.1)])
      else
        let a := freeAddress r.1
        if a = 0 then r else (a :: r.1, r.2 ++ [(e.1, a)])) (held, [])).2.take 63

/-- Bytes of an ADDR cell (R440). -/
def addrBytes (root : Wide) (seq : Word) (es : List (Wide × Nat)) : List Byte :=
  vecBytes root ++ vecBytes seq ++ [BitVec.ofNat 8 es.length, 0, 0, 0] ++
    es.flatMap fun e => vecBytes e.1 ++ [BitVec.ofNat 8 e.2, 0, 0, 0]

/-- Entries of an ADDR cell. -/
def addrEntries (b : List Byte) : List (Wide × Nat) :=
  (List.range (leAt b 12 1)).map fun i => (vecOfBytes 64 ((b.drop (16 + 12 * i)).take 8), leAt b (24 + 12 * i) 1 % 64)

def addrFloodGuard (s : State) : Bool :=
  isRoot s && !s.fabric.stopped && (s.fabric.addrChanged || since s s.fabric.addrSentAt (10 * msTicks))

def addrFloodEffect (s : State) : State :=
  let es := assignments s
  let q := s.fabric.addrSeq + 1
  let s1 := { s with fabric := { s.fabric with
      addrSeq := q, addrRoot := s.serial, addrSentAt := s.now, addrChanged := false, assigned := es } }
  adopt es (flood cellAddr (addrBytes s.serial q es) none s1)

def execAddrFlood (s : State) : Host.Outcome State Fault Refusal := .next (whenB (addrFloodGuard s) addrFloodEffect s)

/-- An ADDR cell of the lowest DEVICE_ID known, newer than the last, is sent on and taken (R441, R442). -/
def addrAct (l : FabLane) (b : List Byte) (s : State) : State :=
  let root : Wide := vecOfBytes 64 (b.take 8)
  let seq : Word := vecOfBytes 32 ((b.drop 8).take 4)
  let n := leAt b 12 1
  let f := s.fabric
  if b.length ≠ 16 + 12 * n ∨ 63 < n ∨ root ≠ lowestId s ∨ root = s.serial then s
  else if f.addrRoot = root ∧ seq.toNat ≤ f.addrSeq.toNat then s
  else
    let es := addrEntries b
    let s1 := { s with fabric := { s.fabric with addrSeq := seq, addrRoot := root, assigned := es } }
    let s2 := flood cellAddr b (some l) s1
    adopt es (foldS es (fun e => yieldAddress e.1 e.2) s2)

/-- A cell of link state is taken on a link that is not DOWN, while the function runs. -/
def linkStateHeard (lane : FabLane) (s : State) : Bool :=
  fabHears s lane && !s.fabric.stopped && (fabAt s lane).adj != .down && (fabAt s lane).neighId != s.serial

def addrGuard (lane : FabLane) (s : State) : Bool := linkStateHeard lane s

def addrEffect (lane : FabLane) (addr : AddrCell) (s : State) : State :=
  addrAct lane addr.bytes (takeXoff lane addr.xoffHigh addr.xoffNormal (countCell lane addr.bytes.length s))

def execAddr (lane : FabLane) (addr : AddrCell) (s : State) : Host.Outcome State Fault Refusal :=
  .next (whenB (addrGuard lane s) (addrEffect lane addr) s)

def addrHoldExpiryGuard (address : Nat) (s : State) : Bool :=
  s.fabric.leftAt.any fun e => e.1 == address && since s e.2 (60 * secTicks)

def addrHoldExpiryEffect (address : Nat) (s : State) : State :=
  { s with fabric := { s.fabric with leftAt := s.fabric.leftAt.filter fun e => e.1 != address } }

def execAddrHoldExpiry (address : Nat) (s : State) : Host.Outcome State Fault Refusal :=
  .next (whenB (addrHoldExpiryGuard address s) (addrHoldExpiryEffect address) s)

/-! LSAs (R443). -/

/-- Send the device's own LSA with the next sequence. -/
def lsaSendGuard (s : State) : Bool :=
  !s.fabric.stopped && (s.fabric.ownChangedAt.isSome || since s s.fabric.ownSentAt (100 * msTicks))

def lsaSendEffect (s : State) : State :=
  let q := s.fabric.ownSeq + 1
  let s1 := { s with fabric := { s.fabric with ownSeq := q, ownSentAt := s.now, ownChangedAt := none } }
  flood cellLsa (lsaBytes (ownLsa s1 q)) none s1

def execLsaSend (s : State) : Host.Outcome State Fault Refusal := .next (whenB (lsaSendGuard s) lsaSendEffect s)

/-- The LSA held for a device. -/
def lsaAt (s : State) (id : Wide) : Option LsaHeld := s.fabric.lsas.find? fun x => x.device == id

/-- Two LSAs say the same of links and address. -/
def lsaSame (a b : LsaHeld) : Bool :=
  a.address == b.address && a.auto == b.auto && a.stopped == b.stopped && a.links == b.links

/-- A newer LSA is stored. -/
def storeLsa (x : LsaHeld) (s : State) : State :=
  let old := lsaAt s x.device
  let same := match old with | some y => lsaSame x y | none => false
  { s with fabric := { s.fabric with
      lsas := x :: s.fabric.lsas.filter fun y => y.device != x.device,
      dbChanged := s.fabric.dbChanged || !same,
      addrChanged := s.fabric.addrChanged || !same,
      leftAt := if x.auto && x.address != 0 then s.fabric.leftAt.filter fun e => e.1 != x.address else s.fabric.leftAt } }

/-- An LSA on a lane: the partner's own counts for FULL; a newer one is stored and sent on; the device's own from before a
restart moves its sequence on; a clash of addresses is settled (R436, R442, R443). -/
def lsaAct (l : FabLane) (b : List Byte) (s : State) : State :=
  match lsaOf b s.now with
  | none => s
  | some x =>
    let y := fabAt s l
    let s0 := if x.device = y.neighId then modFab s l fun z => { z with lsaSeen := true } else s
    if x.device = s.serial then
      if s.fabric.ownSeq.toNat < x.seq.toNat then
        ownChanged { s0 with fabric := { s0.fabric with ownSeq := x.seq } }
      else s0
    else
      let newer := match lsaAt s x.device with | some h => decide (h.seq.toNat < x.seq.toNat) | none => true
      let s1 := if newer then
          refreshRoot (yieldAddress x.device x.address (flood cellLsa b (some l) (storeLsa x s0)))
        else s0
      testFull l s1

def lsaGuard (lane : FabLane) (s : State) : Bool := linkStateHeard lane s

def lsaEffect (lane : FabLane) (lsa : Lsa) (s : State) : State :=
  lsaAct lane lsa.bytes (takeXoff lane lsa.xoffHigh lsa.xoffNormal (countCell lane lsa.bytes.length s))

def execLsa (lane : FabLane) (lsa : Lsa) (s : State) : Host.Outcome State Fault Refusal :=
  .next (whenB (lsaGuard lane s) (lsaEffect lane lsa) s)

def lsaExpiryGuard (device : BitVec 64) (s : State) : Bool :=
  match lsaAt s device with
  | some x => since s x.at_ (350 * msTicks)
  | none => false

/-- The LSA is removed; the address of an AUTO device that has left is held (R441). -/
def lsaExpiryEffect (device : BitVec 64) (s : State) : State :=
  match lsaAt s device with
  | some x =>
    let left := if x.auto && x.address != 0 then (x.address, s.now) :: s.fabric.leftAt.filter fun e => e.1 != x.address
      else s.fabric.leftAt
    let s1 := { s with fabric := { s.fabric with
        lsas := s.fabric.lsas.filter fun y => y.device != device, leftAt := left, dbChanged := true, addrChanged := true } }
    refreshRoot s1
  | none => s

def execLsaExpiry (device : BitVec 64) (s : State) : Host.Outcome State Fault Refusal :=
  .next (whenB (lsaExpiryGuard device s) (lsaExpiryEffect device) s)

/-! Routes (R444). -/

/-- A link that both ends report: from, to, the lane at the near end, its cost. -/
structure FabEdge where
  src : Wide
  dst : Wide
  lane : Nat
  cost : Nat
  deriving DecidableEq, Repr

/-- Every LSA of the database, the device's own included. -/
def database (s : State) : List LsaHeld := ownLsa s s.fabric.ownSeq :: s.fabric.lsas

/-- The other end reports the same link. -/
def reportedBack (db : List LsaHeld) (d : Wide) (k : LsaLink) : Bool :=
  db.any fun x => x.device == k.neigh && x.links.any fun j =>
    j.neigh == d && j.localLane == k.neighLane && j.neighLane == k.localLane

/-- The links in use. -/
def fabEdges (s : State) : List FabEdge :=
  let db := database s
  db.flatMap fun x => (x.links.filter (reportedBack db x.device)).map fun k => ⟨x.device, k.neigh, k.localLane, k.cost⟩

/-- The least of costs. -/
def leastCost (l : List Nat) : Option Nat :=
  l.foldl (fun a b => match a with | some v => some (min v b) | none => some b) none

/-- Costs of the devices already reached. -/
abbrev FabDist := List (Wide × Nat)

def distAt (d : FabDist) (id : Wide) : Option Nat := (d.find? fun e => e.1 == id).map fun e => e.2

/-- One round: the least cost of each device to the target over links to devices already reached. -/
def relaxDist (edges : List FabEdge) (target : Wide) (ids : List Wide) (d : FabDist) : FabDist :=
  ids.filterMap fun u =>
    if u = target then some (u, 0)
    else (leastCost ((edges.filter fun e => e.src == u).filterMap fun e => (distAt d e.dst).map fun v => e.cost + v)).map fun v => (u, v)

/-- Least costs to the target without passing through the devices of `avoid`. -/
def fabDist (edges : List FabEdge) (ids avoid : List Wide) (target : Wide) : FabDist :=
  let es := edges.filter fun e => !avoid.contains e.src && !avoid.contains e.dst
  let us := ids.filter fun u => !avoid.contains u
  (List.range 64).foldl (fun d _ => relaxDist es target us d) [(target, 0)]

/-- Cost by each of the device's own links that satisfies a test. -/
def laneCosts (own : List FabEdge) (d : FabDist) (f : FabEdge → Bool) : List (Nat × Nat) :=
  (own.filter f).filterMap fun e => (distAt d e.dst).map fun v => (e.lane, e.cost + v)

/-- The lanes of least cost, at most the four lowest, as a mask, with that cost. -/
def bestLanes (l : List (Nat × Nat)) : BitVec 16 × Option Nat :=
  match leastCost (l.map fun e => e.2) with
  | none => (0, none)
  | some c =>
    let lanes := ((List.range 16).filter fun n => l.any fun e => e.1 == n && e.2 == c).take 4
    (lanes.foldl (fun m n => m ||| BitVec.ofNat 16 (2 ^ n)) 0, some c)

/-- The entry of an address that a device holds: the primary set of least-cost lanes, and the alternate set that avoids the
primary neighbours or, failing that, the primary lanes (R444). -/
def routeEntry (s : State) (edges : List FabEdge) (target : Wide) : FabRoute :=
  let ids := knownIds s
  let own := edges.filter fun e => e.src == s.serial
  let p := bestLanes (laneCosts own (fabDist edges ids [s.serial] target) fun _ => true)
  let inPrimary := fun e : FabEdge => p.1.getLsbD e.lane
  let near := ((own.filter inPrimary).map fun e => e.dst).filter fun d => d != target
  let a := bestLanes (laneCosts own (fabDist edges ids (s.serial :: near) target) fun e => !inPrimary e)
  let b := bestLanes (laneCosts own (fabDist edges ids [s.serial] target) fun e => !inPrimary e)
  { primary := p.1, alternate := if a.1 = 0 then b.1 else a.1, altActive := false, device := target,
    cost := match p.2 with | some c => min c 0xFFFE | none => 0xFFFF }

/-- The device that holds an address: the lowest DEVICE_ID that announces it. -/
def addressHolder (s : State) (a : Nat) : Option Wide :=
  (((database s).filter fun x => x.address == a && a != 0).mergeSort fun x y => x.device.toNat ≤ y.device.toNat).head?.map
    fun x => x.device

/-- The route table from the database. -/
def newRoutes (s : State) : Vector FabRoute 64 :=
  let edges := fabEdges s
  Vector.ofFn fun a : Fin 64 => match addressHolder s a.val with
    | some d => if d = s.serial then { device := d, cost := 0 } else routeEntry s edges d
    | none => {}

def routeRecomputeGuard (s : State) : Bool := s.fabric.dbChanged

/-- Contexts of sources whose address has passed to another device go (R449). -/
def dropMoved (old : Vector FabRoute 64) (s : State) : State :=
  { s with fabric := { s.fabric with rx := s.fabric.rx.filter fun e =>
      if h : e.1 / 4 < 64 then old[e.1 / 4].device == 0 || old[e.1 / 4].device == s.fabric.routes[e.1 / 4].device else false } }

def routeRecomputeEffect (s : State) : State :=
  let s1 := { s with fabric := { s.fabric with routes := newRoutes s, dbChanged := false } }
  pruneRx (dropMoved s.fabric.routes (setFlag aFabFlags 3 s1))

def execRouteRecompute (s : State) : Host.Outcome State Fault Refusal :=
  .next (whenB (routeRecomputeGuard s) routeRecomputeEffect s)

/-! Delivery of DATA cells (R448, R449). -/

/-- A cell that cannot be delivered (R448). -/
def deliverBad (k : SliceId) (s : State) : State := count1 (aFab k.val 0x18) s

/-- The frame of a DATA cell takes a FABRIC_RX buffer of its slice and goes on, or is discarded for want of one. -/
def withBuffer (k : SliceId) (p : Packet) (go : Packet → State → State) (s : State) : State :=
  let o := ownerId k.val unitFabricRx
  match allocBuf k { owner := o, prio := 0, bytes := p.bytes.length, count := 0 } s with
  | (.ok w, s1) => go (ingressMarks s1 { p with buf := some w, owner := o, slice := k }) s1
  | (.error _, s1) => s1

/-- TARGET is a working group with a remote partner at SRC. -/
def trunkTarget (s : State) (h : BitVec 128) : Bool :=
  decide (chTarget h < 4) && match (groupAt s (Fin.ofNat 4 (chTarget h))).pair with
    | some p => p.working && p.peer != 0 && p.peer == chSrc h
    | none => false

/-- A DATA cell is delivered by DELIVER (R448). -/
def deliverCell (k : SliceId) (h : BitVec 128) (payload : List Byte) (s : State) : State :=
  let p : Packet := { bytes := payload, src := { kind := 2, id := chSrc h }, slice := k, stamp := deviceStamp s }
  let t := chTarget h
  let q := chQueue h
  match chDeliver h with
  | 0 => receiveFrame k unitFabricRx p s
  | 1 =>
    if groupEnabled s (Fin.ofNat 4 (t / 64)) && decide (q < 8) then
      withBuffer k p (toDest 6 t q) s
    else deliverBad k s
  | 2 =>
    if t < 32 ∧ portExists s (Fin.ofNat 32 t) then withBuffer k p (toDest 2 t q) s
    else deliverBad k s
  | 3 => if t < 8 then withBuffer k p (toDest 4 t 0) s else deliverBad k s
  | 4 =>
    if trunkTarget s h then
      receiveFrame k unitFabricRx { p with src := { kind := 1, id := t }, portId := BitVec.ofNat 20 (chPortId h) } s
    else deliverBad k s
  | _ => deliverBad k s

/-- Key of a context: source and class. -/
def rxKey (src cls : Nat) : Nat := 4 * src + cls

def rxAt (s : State) (key : Nat) : FabRx := sparseGet {} s.fabric.rx key
def modRx (s : State) (key : Nat) (f : FabRx → FabRx) : State :=
  { s with fabric := { s.fabric with rx := sparseMod {} s.fabric.rx key f } }

/-- Deliver held cells as long as the next SEQ is among them. -/
def deliverRun (key : Nat) : Nat → State → State
  | 0, s => s
  | n + 1, s =>
    let x := rxAt s key
    match x.expected with
    | none => s
    | some e =>
      match x.held.find? fun c => chSeq c.header == e with
      | some c =>
        deliverRun key n (deliverCell c.slice c.header c.payload (modRx s key fun y => { y with
          expected := some ((e + 1) % 65536), held := y.held.filter fun d => chSeq d.header != e }))
      | none => s

/-- A DATA cell for the device itself, in the sequence of its source and class (R449). -/
def sequenceCell (k : SliceId) (h : BitVec 128) (payload : List Byte) (s : State) : State :=
  let key := rxKey (chSrc h) (chClass h)
  let x := rxAt s key
  let q := chSeq h
  let e := x.expected.getD q
  let ahead := (q + 65536 - e) % 65536
  if ahead = 0 then
    let s1 := modRx s key fun y => { y with expected := some ((q + 1) % 65536) }
    deliverRun key x.held.length (deliverCell k h payload s1)
  else if ahead < 32768 then
    if x.held.any fun c => chSeq c.header == q then count1 (aFab k.val 0x28) s
    else modRx s key fun y => { y with held := y.held ++ [{ at_ := s.now, slice := k, header := h, payload := payload }] }
  else count1 (aFab k.val 0x28) s

/-- Some early cell has been held for 20 µs. -/
def fabSeqHoldExpiryGuard (src cls : Nat) (s : State) : Bool :=
  (rxAt s (rxKey src cls)).held.any fun c => since s c.at_ (20 * usTicks)

/-- The distance of an early cell from the SEQ expected. -/
def aheadOf (x : FabRx) (c : EarlyCell) : Nat := (chSeq c.header + 65536 - x.expected.getD 0) % 65536

/-- The cells missing before the first held one are lost, counted at the slice it came by, and delivery resumes after the
gap. -/
def fabSeqHoldExpiryEffect (src cls : Nat) (s : State) : State :=
  let key := rxKey src cls
  let x := rxAt s key
  match (x.held.mergeSort fun a b => aheadOf x a ≤ aheadOf x b).head? with
  | some c =>
    let s1 := count (aFab c.slice.val 0x20) (aheadOf x c) (modRx s key fun y => { y with expected := some (chSeq c.header) })
    deliverRun key x.held.length s1
  | none => s

def execFabSeqHoldExpiry (src : Nat) (cls : Nat) (s : State) : Host.Outcome State Fault Refusal :=
  .next (whenB (fabSeqHoldExpiryGuard src cls s) (fabSeqHoldExpiryEffect src cls) s)

/-! FABRIC_CELL_RX (R433, R434, R437, R439, R447). -/

/-- The cell passes the checks of every hop. -/
def cellOk (c : Cell) : Bool :=
  c.crc == crcOam (bitsOfBytes (vecBytes c.header ++ c.payload)) && chClass c.header != 3 &&
    decide (chLength c.header ≤ 10240) && chLength c.header == c.payload.length

/-- A cell for another device: TTL, and on by its class (R447). -/
def transitCell (k : SliceId) (c : Cell) (s : State) : State :=
  let t := chTtl c.header
  if t ≤ 1 then count1 (aFab k.val 0x08) s
  else
    let h := c.header - put 128 107 1
    let clean := h &&& ~~~(put 128 23 3)
    fabRoute k.val { header := clean, payload := c.payload } (whenB (fabReachable s (chDest h)) (count1 (aFab k.val 0x00)) s)

/-- A message of protection for the device itself. -/
def controlCell (k : SliceId) (c : Cell) (s : State) : State :=
  let src := chSrc c.header
  if chType c.header = cellStatus then statusAct k.val src c.payload s
  else if chType c.header = cellNotify then notifyAct k.val src c.payload s
  else ackAct src (beAt c.payload 0 4) s

/-- What a valid cell does by its TYPE. -/
def dispatchCell (l : FabLane) (c : Cell) (s : State) : State :=
  let ty := chType c.header
  let k := fabSlice l
  let own := chDest c.header == s.fabric.address && chDest c.header != 0
  if ty = cellIdle then s
  else if ty = cellHello then helloAct l c.payload s
  else if s.fabric.stopped || (fabAt s l).neighId == s.serial then s
  else if ty = cellLsa then (if (fabAt s l).adj == .down then s else lsaAct l c.payload s)
  else if ty = cellAddr then (if (fabAt s l).adj == .down then s else addrAct l c.payload s)
  else if (fabAt s l).adj != .full || chDest c.header == 0 then s
  else if !own then transitCell k c s
  else if ty = cellData then sequenceCell k c.header c.payload s
  else controlCell k c s

def fabricCellRxGuard (lane : FabLane) (s : State) : Bool := fabHears s lane

def fabricCellRxEffect (lane : FabLane) (cell : Cell) (s : State) : State :=
  if !cellOk cell then count1 (aFabLane lane 0x20) s
  else
    let s1 := if chType cell.header = cellIdle then modFab s lane fun y => { y with lastCellAt := s.now, lpiRx := false }
      else countCell lane cell.payload.length s
    let s2 := takeXoff lane (chXoffHigh cell.header) (chXoffNormal cell.header) s1
    if chType cell.header == cellData && crossingFull s (fabSlice lane) (8 + lane.val % 2) then stallDrop (fabSlice lane) s2
    else dispatchCell lane cell s2

def execFabricCellRx (lane : FabLane) (cell : Cell) (s : State) : Host.Outcome State Fault Refusal :=
  .next (whenB (fabricCellRxGuard lane s) (fabricCellRxEffect lane cell) s)

/-! FABRIC_SET and FABRIC_ROUTE_READ (R454, R455). -/

def fsMask (r : Request) : Nat := r.u16 4

/-- PRIO_CLASS has only classes 1 and 2. -/
def prioClassOk (v : Nat) : Bool := (List.range 8).all fun p => v / 4 ^ p % 4 == 1 || v / 4 ^ p % 4 == 2

/-- The ADDRESS setting that FUNC_START will find. -/
def settingToBe (s : State) : Nat := s.fabric.settingPend.getD s.fabric.setting

def fabricSetChecks (r : Request) (s : State) : List Check :=
  [ckLen r 40,
   ckRange ((List.range 16).any fun n => natBit (fsMask r) n && !present s (n / 2)),
   ⟨r.u8 0 != settingToBe s && !s.fabric.stopped, .notStopped⟩,
   ckRange (decide (63 < r.u8 0) || decide (1 < r.u8 1) || r.u8 2 == 0 || decide (15 < r.u8 2) || resv r 3 1 ||
     !prioClassOk (r.u16 6) || (List.range 16).any fun n => r.u16 (8 + 2 * n) == 0)]

/-- A lane's enable and cost. -/
def setFabLane (r : Request) (l : FabLane) (s : State) : State :=
  let on := natBit (fsMask r) l.val
  let s1 := if (fabAt s l).enabled && !on then takeDown l causeDisabled s else s
  let s2 := if (fabAt s1 l).adj == .full && (fabAt s1 l).cost != r.u16 (8 + 2 * l.val) then ownChanged s1 else s1
  modFab s2 l fun y => { y with
    enabled := on, cost := r.u16 (8 + 2 * l.val), lpiTx := y.lpiTx && on, lpiRx := y.lpiRx && on }

def fabricSetApply (r : Request) (s : State) : Done :=
  let s1 := foldS (List.finRange 16) (setFabLane r) s
  okDone { s1 with fabric := { s1.fabric with
    settingPend := if s.fabric.stopped then some (r.u8 0) else s1.fabric.settingPend, lpi := natBit (r.u8 1) 0, ttl := r.u8 2,
    prioClass := BitVec.ofNat 16 (r.u16 6) } }

def execFabricSet (s : State) : Host.Outcome State Fault Refusal := .next (runCommand 0x0A00 fabricSetChecks fabricSetApply s)

def fabricRouteReadChecks (r : Request) (_ : State) : List Check :=
  [ckLen r 4, ckRange (decide (63 < r.u8 0) || r.u8 1 == 0 || decide (64 < r.u8 1) || resv r 2 2 || decide (64 < r.u8 0 + r.u8 1))]

/-- An entry of the response. -/
def routeBytes (s : State) (a : Nat) : List Byte :=
  let e := s.fabric.routes[Fin.ofNat 64 a]
  let self := a == s.fabric.address && a != 0
  let dev := if self then s.serial else e.device
  let flags := (fabReachable s a).toNat + 2 * e.altActive.toNat + 4 * (dev == s.fabric.root && dev != 0).toNat + 8 * self.toNat
  toLe 8 dev.toNat ++ [BitVec.ofNat 8 a, BitVec.ofNat 8 flags] ++ toLe 2 e.primary.toNat ++ toLe 2 e.alternate.toNat ++
    toLe 2 (if self then 0 else e.cost)

def fabricRouteReadApply (r : Request) (s : State) : Done :=
  { st := s, payload := (List.range (r.u8 1)).flatMap fun i => routeBytes s (r.u8 0 + i) }

def execFabricRouteRead (s : State) : Host.Outcome State Fault Refusal :=
  .next (runCommand 0x0A01 fabricRouteReadChecks fabricRouteReadApply s)

end Sys2Proof.Machine
end

