-- ==== Sys2Proof/Machine/Functions.lean ====
section
/-!
DEFINITION. Machine/Functions.lean: FUNC_STOP and FUNC_START (spec/17_mailboxes_and_commands.md, R473, R474; R18, R20, R79,
R202, R214, R222, R307, R329, R454).
-/
namespace Sys2Proof.Machine

/-! Trunk groups. -/

/-- Downstream packets of the group past the port-ID filter, by the slice that holds them: open contexts, packets in the decrypt
pipes whose last header has been read, packets that wait for an earlier one to leave the extractor, and frames not yet parsed. -/
def groupPipe (g : GroupId) (j : DecJob) : Bool := j.group == g

/-- Frames of the group in a slice's ingress: those of its working group while the selector passes it. -/
def groupIngress (s : State) (g : GroupId) (p : Packet) : Bool :=
  p.src.kind == 1 && p.src.id == (workingOf s g).val && selected s g

/-- What a slice discards of a stopping group's downstream. -/
def dropDownSlice (g : GroupId) (k : SliceId) (s : State) : State :=
  let lanes := (groupLanes s g).filter fun l => laneSlice l == k
  let open_ := lanes.foldl (fun n l => n + ((laneAt s l).contexts.filter fun c => !c.discard).length) 0
  let pipes := (List.finRange 16).filter fun i => i.val / 2 == k.val
  let whole := (s.trunk.extract.filter fun e => e.group == g && e.ready.any fun r => laneSlice r.1 == k).length
  let jobs := pipes.foldl (fun n i => n + (s.crypto.pipes[i].filter fun j => groupPipe g j && j.last).length) 0
  let frames := s.path.ingress[k].filter (groupIngress s g)
  let s1 := foldS frames discard s
  let s2 := { s1 with path := { s1.path with ingress := vmod s1.path.ingress k fun q => q.filter fun p => !groupIngress s g p } }
  let s3 := { s2 with crypto := { s2.crypto with pipes := Vector.ofFn fun i : Fin 16 =>
      if i.val / 2 = k.val then s2.crypto.pipes[i].filter fun j => !groupPipe g j else s2.crypto.pipes[i] } }
  count (aBuf k 0x70) (open_ + whole + jobs + frames.length) s3

/-- A group that has just stopped: INITIAL, without terminal ID, EqDs, time lock and the DISCOVER it held (R79, R88); its record of
accepted messages empties (DESIGN CHOICE, log 125). -/
def stoppedGroup (x : GroupSt) : GroupSt :=
  { x with stopped := true, st := .initial, disc := none, eqd0 := none, backoff := 0, provEqd := none, timeSt := .none, offset := 0,
           todStale := false, headId := 0, lastTodHead := none, todFn := 0, todUtc := 0, todLeap := 0, downDelay := 0, dups := [],
           pendApply := [], rebuilds := [], rdi := false, rdiRun := 0, disableAt := none }

/-- The light meters of a group's recovered clock are off while nothing recovers it. -/
def trunkMetersOff (g : GroupId) (s : State) : State :=
  foldS (List.finRange 8) (fun k st => modMeter st k (Fin.ofNat 8 (4 + g.val)) fun m => { m with st := .off, bad := 0 }) s

/-- FUNC_STOP of a running group: bursts stopped, latent bursts fogged, its downstream discarded, its lanes hold no state
(R18, R79, R165, R473). -/
def stopGroup (g : GroupId) (s : State) : State :=
  if (groupAt s g).stopped then s
  else
    let ls := groupLanes s g
    let s1 := stopBursts g (foldS ls (cutBurst g) s)
    let s2 := dropExtract (fun e => e.group == g) (foldS (List.finRange 8) (dropDownSlice g) s1)
    let s3 := loseIdentity .initial g (clearGrants g s2)
    let s4 := foldS ls (fun l st => modLane st l fun _ => {}) s3
    let s5 := followClock g (putLatch g none (modGroup s4 g stoppedGroup))
    refreshLinkFault g (trunkMetersOff g s5)

/-- A key slot that a group manages loses its keys; direction, manager and limits stay (R20). -/
def dropKeys (k : KeySlot) : KeySlot :=
  { k with halves := k.halves.map emptyHalf, current := 0, switch := none, write := none, stall := false, waiting := none,
           lastSwitch := none }

/-- Key state of a group whose binding changes. -/
def dropGroupKeys (g : GroupId) (s : State) : State :=
  foldS ((s.crypto.slots.filter fun e => e.2.manager == g.val + 1).map fun e => e.1) (fun n => fun st => modSlot st n dropKeys) s

/-- TIME_LANE stays only while the binding holds it (R80). -/
def keepTimeLane (b : List (Lane × Nat)) (l : Option Lane) : Option Lane := l.filter fun x => b.any fun e => e.1 == x

/-- A pending binding takes effect: lanes removed send DARK and hold nothing, key state goes (R20). -/
def applyBinding (g : GroupId) (s : State) : State :=
  match (groupAt s g).bindPend with
  | none => s
  | some b =>
    let s1 := foldS (groupLanes s g) (fun l st => modLane st l fun _ => {}) s
    let s2 := modGroup s1 g fun x => { x with binding := b, bindPend := none, timeLaneCfg := keepTimeLane b x.timeLaneCfg }
    dropGroupKeys g (foldS (groupLanes s2 g) (fun l st => modLane st l fun _ => {}) s2)

/-- The selection of a pair at FUNC_START: the working group is active (R202).  External requests hold (R200). -/
def startSelection (x : PairSt) : PairSt :=
  { x with activeWorking := true, selWorking := true, bySf := false, sfSince := none, wtrSince := none, blocked := false, deciding := .none,
           switchAt := none }

/-- A pending pairing takes effect.  The working group is active at FUNC_START of a pair: of a local pair the start that finds
the partner stopped, of a remote pair the start of the group here (R202, R214). -/
def applyPair (g : GroupId) (s : State) : State :=
  match (groupAt s g).pairPend with
  | none => match (groupAt s g).pair with
    | some p =>
      if p.peer = 0 && !(groupAt s p.partner).stopped then s
      else modGroup s (pairHome s g) fun x => { x with prot := startSelection x.prot }
    | none => s
  | some p => modGroup s g fun x => { x with pair := p, pairPend := none, prot := {} }

/-- FUNC_START of a stopped group: pending changes apply, its lanes start afresh, and it enters LISTEN (R20, R79, R421, R425). -/
def startGroup (g : GroupId) (s : State) : State :=
  if !(groupAt s g).stopped then s
  else
    let s1 := applyPair g (applyBinding g s)
    let s2 := foldS (groupLanes s1 g) (fun l st => laneStart (lineSerial l) (cancelTest (lineSerial l) st)) s1
    let s3 := modGroup s2 g fun x => { x with
      stopped := false, startedAt := s.now, pm := { x.pm with lastSec := some s.time.sec.toNat, dormantSeen := false } }
    if (groupAt s3 g).binding.isEmpty then s3 else enterListen g s3

/-! Slice functions. -/

def stopPorts (k : SliceId) (s : State) : State :=
  { s with path := { s.path with portsStopped := vmod s.path.portsStopped k fun _ => true } }

def stopSched (k : SliceId) (s : State) : State :=
  { s with path := { s.path with schedStopped := vmod s.path.schedStopped k fun _ => true } }

def stopBuffers (k : SliceId) (s : State) : State := modBuf s k fun b => { b with stopped := true }

/-- The ports of a slice. -/
def slicePorts (k : SliceId) : List PortId := (List.finRange 32).filter fun p => laneSlice p == k

/-- A port under a new mode: the reset values of its settings and filters; what the scheduler holds stays (R222). -/
def portAnew (x : PortSt) : PortSt :=
  { queues := x.queues.map fun q => { q with prio := 0, pauseEnd := 0, pausedSince := none }, shaper := x.shaper, overhead := x.overhead, nodes := x.nodes, nodeTurn := x.nodeTurn, treePend := x.treePend,
    xoff := x.xoff, xoffAt := x.xoffAt }

/-- MAC counters of a slice's ports (R247). -/
def macCounter (k : SliceId) (a : Nat) : Bool :=
  (List.range 4).any fun j => decide (sliceReg k.val (0x101100 + 0x1000 * j) ≤ a) && decide (a < sliceReg k.val (0x101300 + 0x1000 * j))

/-- A mode that differs takes effect: ports anew, counters zero, host loops and patterns cancelled (R222, R425). -/
def applyMode (k : SliceId) (m : Nat) (s : State) : State :=
  let s1 := foldS ((sliceSerials k).filter fun n => (noHost n).isSome) cancelTest s
  let s2 := { s1 with path := { s1.path with mode := vmod s1.path.mode k fun _ => m } }
  let s3 := foldS (slicePorts k) (fun p st => modPort st p portAnew) s2
  clearRegs (macCounter k) (foldS ((sliceSerials k).filter fun n => (noHost n).isSome) laneStart s3)

def startPorts (k : SliceId) (s : State) : State :=
  let s1 := match s.path.modePend[k] with
    | some m => if m = s.path.mode[k] then s else applyMode k m s
    | none => s
  { s1 with path := { s1.path with
      portsStopped := vmod s1.path.portsStopped k fun _ => false, modePend := vmod s1.path.modePend k fun _ => none } }

/-- A shaper with tokens equal to BURST; an unshaped one keeps none (R321, R329). -/
def fullShaper (now : Nat) (x : Shaper) : Shaper := { x with tokens := if x.rate = 0 then 0 else (x.burst * byteUnits : Nat), at_ := now, wheel := none }

/-- Queue 4 + i takes node i of a pending hierarchy. -/
def treeNode (t : Option (List Nat)) (q old : Nat) : Nat :=
  match t with
  | some l => if q < 4 then old else l.getD (q - 4) old
  | none => old

/-- A port's host hierarchy at FUNC_START of the scheduler (R329). -/
def startTree (now : Nat) (x : PortSt) : PortSt :=
  { x with
    shaper := fullShaper now x.shaper,
    nodes := x.nodes.map fun n => { n with shaper := fullShaper now n.shaper, deficit := 0 },
    queues := Vector.ofFn fun q : Fin 32 =>
      { x.queues[q] with shaper := fullShaper now x.queues[q].shaper, deficit := 0, node := treeNode x.treePend q.val x.queues[q].node },
    treePend := none }

/-- FUNC_START of a stopped scheduler. -/
def startSched (k : SliceId) (s : State) : State :=
  if !s.path.schedStopped[k] then s
  else
    let s1 := foldS (slicePorts k) (fun p st => modPort st p (startTree s.now)) s
    { s1 with path := { s1.path with schedStopped := vmod s1.path.schedStopped k fun _ => false } }

/-- Frames held in a slice's buffers are discarded (R307). -/
def discardSliceFrames (k : SliceId) (s : State) : State :=
  let ps := (heldPackets s).filter fun p => p.buf.isSome && heldSlice p == k.val
  let s1 := keepPath (fun p => !(p.buf.isSome && heldSlice p == k.val)) (foldS ps dropOwed s)
  count (aBuf k 0x70) ps.length (modBuf s1 k fun b => { b with bitmap := [] })

/-- A pool under new counts: where it begins follows the pools before it (R281). -/
def carvedPool (counts : List Nat) (i : Nat) (p : PoolSt) : PoolSt :=
  let n := counts.getD i p.buffers
  let base := (List.range i).foldl (fun a j => a + counts.getD j 0 * poolCells j) 0
  { p with buffers := n, base := base }

/-- FUNC_START of the buffer manager of a slice. -/
def startBuffers (k : SliceId) (s : State) : State :=
  if !(bufAt s k).stopped then s
  else
    match (bufAt s k).carvePend with
    | none => modBuf s k fun b => { b with stopped := false }
    | some c =>
      refreshPressure k (modBuf (discardSliceFrames k s) k fun b => { b with
        stopped := false, carvePend := none, pools := Vector.ofFn fun i : Fin 5 => carvedPool c i.val b.pools[i] })

/-! The fabric (R454). -/

/-- Its links go DOWN, its address is 0, and its lanes carry nothing but HELLO. -/
def stopFabric (s : State) : State :=
  if s.fabric.stopped then s
  else
    let s1 := { s with fabric := { s.fabric with stopped := true } }
    let s2 := foldS (List.finRange 16) (fun l => takeDown l causeDisabled) s1
    { s2 with fabric := { s2.fabric with address := 0, rx := [] } }

/-- A pending address applies, sequences start at 0, and the frames held go on (R446, R454). -/
def startFabric (s : State) : State :=
  if !s.fabric.stopped then s
  else
    let set := s.fabric.settingPend.getD s.fabric.setting
    let held := s.fabric.hold
    let s1 := { s with fabric := { s.fabric with
        stopped := false, setting := set, settingPend := none, address := set, txSeq := [], rx := [], hold := [] } }
    foldS held (fun h => fabSend h.2 h.1) (ownChanged s1)

/-! The commands (R473, R474). -/

def fnCode (r : Request) : Nat := r.u8 0
def fnGroups (r : Request) : List GroupId := (List.finRange 4).filter fun g => natBit (r.u8 1) g.val

/-- FUNC, GROUPS, the reserved bytes or SLICE_MASK out of range. -/
def funcRange (r : Request) (s : State) : Bool :=
  decide (4 < fnCode r) || (fnCode r == 0 && (r.u8 1 == 0 || decide (15 < r.u8 1))) || resv r 2 2 ||
    (decide (1 ≤ fnCode r) && decide (fnCode r ≤ 3) && maskBad r s)

def funcStopChecks (r : Request) (s : State) : List Check := [ckLen r 4, ckRange (funcRange r s)]

/-- Stop every instance named. -/
def stopFunction (r : Request) (s : State) : State :=
  match fnCode r with
  | 0 => foldS (fnGroups r) stopGroup s
  | 1 => foldS r.maskSlices stopPorts s
  | 2 => foldS r.maskSlices stopSched s
  | 3 => foldS r.maskSlices stopBuffers s
  | _ => stopFabric s

def funcStopApply (r : Request) (s : State) : Done := okDone (stopFunction r s)

def execFuncStop (s : State) : Host.Outcome State Fault Refusal := .next (runCommand 0x0012 funcStopChecks funcStopApply s)

/-- A group of a local pair that awaits formation is named without its partner. -/
def loneStart (r : Request) (s : State) : Bool :=
  (fnGroups r).any fun g => match (groupAt s g).pairPend with
    | some (some p) => p.peer == 0 && !(fnGroups r).contains p.partner
    | _ => false

def funcStartChecks (r : Request) (s : State) : List Check :=
  [ckLen r 4, ckRange (funcRange r s), ⟨fnCode r == 0 && loneStart r s, .conflict⟩]

/-- Start every instance named. -/
def startFunction (r : Request) (s : State) : State :=
  match fnCode r with
  | 0 => foldS (fnGroups r) startGroup s
  | 1 => foldS r.maskSlices startPorts s
  | 2 => foldS r.maskSlices startSched s
  | 3 => foldS r.maskSlices startBuffers s
  | _ => startFabric s

def funcStartApply (r : Request) (s : State) : Done := okDone (startFunction r s)

def execFuncStart (s : State) : Host.Outcome State Fault Refusal := .next (runCommand 0x0013 funcStartChecks funcStartApply s)

end Sys2Proof.Machine
end

