-- ==== Sys2Proof/Machine/Keys.lean ====
section
/-!
DEFINITION. Machine/Keys.lean: key delivery, half switches, decryption, erase, the utility pipe and the key commands
(spec/12_cipher_engine.md).
-/
namespace Sys2Proof.Machine

/-! KEY_DELIVER (R340, R341). -/

/-- The slot is managed by this group, or by the partner of its local pair while this group is active (R337, R341). -/
def manages (s : State) (g : GroupId) (n : Nat) : Bool :=
  match slotManager (slotAt s n) with
  | some m =>
    m == g || (match (groupAt s g).pair with
      | some p => p.peer == 0 && p.partner == m && activeGroup s g
      | none => false)
  | none => false

/-- States in which key messages are taken, and not standby in a pair (R341). -/
def keyWrongState (s : State) (g : GroupId) : Bool := !rangedState (groupAt s g) || standby s g

def kdSlot (m : OamRx) : Nat := msgAt m 4 2
def kdAes256 (m : OamRx) : Bool := natBit (msgAt m 6 1) 0
def kdKek (m : OamRx) : Nat := msgAt m 7 1

/-- A KEK slot holds a key. -/
def kekHeld (s : State) (k : Nat) : Bool := if h : k < 8 then s.crypto.keks[k].isSome else false

/-- The checks of a KEY_DELIVER but the last, which its unwrap makes (R341). -/
def keyDeliverChecks (m : OamRx) (g : GroupId) (s : State) : List (Bool × Nat) :=
  let n := kdSlot m
  let k := slotAt s n
  [(decide (1023 < n) || decide (2 ≤ msgAt m 6 1) || decide (7 < kdKek m) || (!kdAes256 m && msgAt m 36 16 != 0), ackBadFormat),
   (keyWrongState s g, ackWrongState),
   (!manages s g n, ackNotManager),
   (k.erasing || k.switch.isSome || k.write.isSome, ackBusy),
   (!kekHeld s (kdKek m), ackNoKek)]

/-- The utility pipe's state changed. -/
def modUtil (f : Util → Util) (s : State) : State := { s with crypto := { s.crypto with util := f s.crypto.util } }

/-- A counter of the anchor slice's cipher block. -/
def countUtil (off : Nat) (s : State) : State :=
  match anchorSlice s with
  | some h => count1 (aCip h.val off) s
  | none => s

/-- URGENT tasks: unwraps and wraps of keys (R357). -/
def urgentTask : UtilTask → Bool
  | .job j => j.urgent
  | .unwrap _ => true

/-- A task arrives: an URGENT one suspends a running NORMAL one; tasks of one priority keep their order (R358). -/
def giveTask (t : UtilTask) (s : State) : State :=
  match s.crypto.util.running with
  | none => modUtil (fun u => { u with running := some t }) s
  | some r =>
    if urgentTask t && !urgentTask r then
      countUtil 0x50 (modUtil (fun u => { u with running := some t, suspended := some r }) s)
    else if urgentTask t then modUtil (fun u => { u with urgentQ := u.urgentQ ++ [t] }) s
    else modUtil (fun u => { u with normalQ := u.normalQ ++ [t] }) s

/-- The KEK of a slot. -/
def kekAt (s : State) (k : Nat) : Bool × KeyBits := if h : k < 8 then (s.crypto.keks[k]).getD (false, 0) else (false, 0)

/-- The wrapped key of a KEY_DELIVER: 24 bytes, or 40 (R340). -/
def kdWrapped (m : OamRx) : List Byte := (List.range 40).map fun i => BitVec.ofNat 8 (msgAt m (12 + i) 1)

/-- An accepted KEY_DELIVER gives its unwrap to the utility pipe; its ACK waits for the write (R338, R341, R357). -/
def keyDeliverAct (m : OamRx) (g : GroupId) (s : State) : State :=
  let st := ackStatus (keyDeliverChecks m g s)
  let n := kdSlot m
  if st == ackAccepted then
    let kek := kekAt s (kdKek m)
    giveTask (.unwrap { slot := n, group := g, seq := msgSeq m, kek256 := kek.1, kek := kek.2, aes256 := kdAes256 m,
                        wrapped := kdWrapped m })
      (modSlot s n fun k => { k with
        write := some { half := otherHalf k.current, aes256 := kdAes256 m, key := none, salt := BitVec.ofNat 32 (msgAt m 8 4),
                        at_ := s.now, ack := some (g, msgSeq m) } })
  else queueAck g 0x08 st (msgSeq m) s

def execKeyDeliver (lane : Lane) (msg : OamRx) (s : State) : Host.Outcome State Fault Refusal :=
  .next (oamReceive 0x08 lane msg noTest (keyDeliverAct msg) s)

/-! KEY_WRITE_COMPLETE (R338). -/

/-- The key of a write is unwrapped. -/
def keyWriteCompleteGuard (slot : SlotId) (s : State) : Bool :=
  match (slotAt s slot.val).write with
  | some w => w.key.isSome
  | none => false

/-- Every slice holds the new half; the ACK is queued (R338, R341). -/
def keyWriteCompleteEffect (slot : SlotId) (s : State) : State :=
  match (slotAt s slot.val).write with
  | some w =>
    let seq := match w.ack with | some (_, q) => q | none => 0
    let s1 := modSlot (loadHalf slot.val w (w.key.getD 0) seq s) slot.val fun k => { k with write := none }
    match w.ack with
    | some (g, q) => queueAck g 0x08 ackAccepted q s1
    | none => s1
  | none => s

def execKeyWriteComplete (slot : SlotId) (s : State) : Host.Outcome State Fault Refusal :=
  .next (whenB (keyWriteCompleteGuard slot s) (keyWriteCompleteEffect slot) s)

/-! KEY_SWITCH and SWITCH_BOUNDARY (R341 to R345). -/

def ksHalf (m : OamRx) : Half := if msgAt m 6 1 = 0 then 0 else 1

/-- Frames from `cur` on to FN read as the nearest at or after it. -/
def fnAhead (cur fn : Nat) : Nat := (fn + fnWrap - cur % fnWrap) % fnWrap

def keySwitchChecks (l : Lane) (m : OamRx) (g : GroupId) (s : State) : List (Bool × Nat) :=
  let n := kdSlot m
  let k := slotAt s n
  let ahead := fnAhead (carrierFn s l m) (msgAt m 8 4)
  [(decide (1023 < n) || decide (1 < msgAt m 6 1) || decide (fnWrap ≤ msgAt m 8 4), ackBadFormat),
   (keyWrongState s g, ackWrongState),
   (!manages s g n, ackNotManager),
   (k.erasing || k.switch.isSome || (match k.write with | some w => w.half == ksHalf m | none => false), ackBusy),
   (decide (ahead < 2) || decide (25600 < ahead), ackLate),
   (ksHalf m == k.current || k.halves[ksHalf m].state != .loaded, ackNoKey)]

/-- A switch is scheduled; bursts that straddle it are fogged (R342, R343, R165). -/
def scheduleSwitch (n : Nat) (h : Half) (fn : Nat) (g : GroupId) (s : State) : State :=
  fogKeyBursts n (modSlot s n fun k => { k with switch := some { half := h, fn := fn, group := g } })

def keySwitchAct (l : Lane) (m : OamRx) (g : GroupId) (s : State) : State :=
  let st := ackStatus (keySwitchChecks l m g s)
  queueAck g 0x09 st (msgSeq m)
    (if st = ackAccepted then scheduleSwitch (kdSlot m) (ksHalf m) (msgAt m 8 4) g s else s)

def execKeySwitch (lane : Lane) (msg : OamRx) (s : State) : Host.Outcome State Fault Refusal :=
  .next (oamReceive 0x09 lane msg noTest (keySwitchAct lane msg) s)

/-- The boundary of a pending switch is reached on a lane of its group: by the launch-time image of frame FN upstream, by the
header of frame FN downstream (R343, R345). -/
def boundaryReached (s : State) (n : Nat) (sw : KeySwitch) (l : Lane) : Bool :=
  (laneAt s l).stampFn.isSome &&
    (if (slotAt s n).down then decide (0 ≤ fnDiff (laneAt s l).fn sw.fn)
     else match switchBoundary s sw l with
       | some b => stampReached b (groupAt s sw.group).ctr
       | none => false)

def switchBoundaryGuard (slot : SlotId) (lane : Lane) (s : State) : Bool :=
  match (slotAt s slot.val).switch with
  | some sw => (groupLanes s sw.group).contains lane && !sw.done.contains lane && boundaryReached s slot.val sw lane
  | none => false

/-- The new half is current on the lane: for the slot from the first lane on; the switch is over when every lane that holds a
stamp has reached it. -/
def switchBoundaryEffect (slot : SlotId) (lane : Lane) (s : State) : State :=
  match (slotAt s slot.val).switch with
  | some sw =>
    let s0 := fogKeyBursts slot.val s
    let s1 := if sw.done.isEmpty then makeCurrent slot.val sw.half s0 else s0
    let dn := lane :: sw.done
    let ended := (groupLanes s sw.group).all fun l => dn.contains l || (laneAt s l).stampFn.isNone
    modSlot s1 slot.val fun k => { k with
      switch := if ended then none else k.switch.map fun w => { w with done := dn },
      lastSwitch := if sw.done.isEmpty then some (s.now, switchFrames s (some (sw.group, sw.fn))) else k.lastSwitch }
  | none => s

def execSwitchBoundary (slot : SlotId) (lane : Lane) (s : State) : Host.Outcome State Fault Refusal :=
  .next (whenB (switchBoundaryGuard slot lane s) (switchBoundaryEffect slot lane) s)

/-! DECRYPT_COMPLETE (R355, R73, R74, R76). -/

/-- The limit of collected plaintext (R74). -/
def reasmLimit : Nat := 10236

/-- The context that a fragment belongs to: open, or closed and waiting for its fragments. -/
def jobCtx (x : LaneSt) (id : Nat) : Option ReasmCtx :=
  match x.contexts.find? fun c => c.id == id with
  | some c => some c
  | none => x.closed.find? fun c => c.id == id

/-- A packet in fragments fails: an open context discards, a closed one is let go (R74). -/
def failCtx (j : DecJob) (id : Nat) (s : State) : State :=
  if (laneAt s j.lane).contexts.any fun c => c.id == id then discardCtx j.lane id s else freeCtx j.lane id s

/-- Plaintext released into its context, or as a whole packet (R73, R74, R76). -/
def releasePlain (j : DecJob) (plain : FrameBytes) (s : State) : State :=
  match j.ctx with
  | none => readyTicket j.ticket j.lane j.stamp plain s
  | some id =>
    match jobCtx (laneAt s j.lane) id with
    | none => s
    | some c =>
      if c.discard then s
      else if reasmLimit < c.bytes.length + plain.length then failCtx j id (count1 (aTrk j.lane 0xA0) s)
      else if j.last then readyTicket c.ticket j.lane c.stamp (c.bytes ++ plain) (dropCtx j.lane id s)
      else modCtx j.lane id (fun d => { d with bytes := d.bytes ++ plain }) s

/-- A failed tag: the plaintext is erased and the context discards (R74, R355). -/
def tagFailed (j : DecJob) (s : State) : State :=
  let s1 := count1 (aCip (j.lane.val / 4) 0x20) s
  let s2 := { s1 with crypto := { s1.crypto with
    portFail := sparseMod 0 s1.crypto.portFail (4096 * j.group.val + j.entry) fun v => (v + 1) % 2 ^ 64 } }
  match j.ctx with
  | some id => failCtx j id s2
  | none => dropTicket j.ticket s2

/-- The first packet verified under a DOWN half starts its lifetime, while the half holds the key it verified under (R338, R350,
R353). -/
def noteVerified (j : DecJob) (s : State) : State :=
  modHalf s j.slot j.half fun x =>
    if x.firstFn.isSome || x.gen != j.gen then x else { x with firstFn := some (j.group.val, j.fn), firstAt := s.now }

def pipeIndex (slice : SliceId) (pipe : Half) : Fin 16 := ⟨2 * slice.val + pipe.val, by omega⟩

/-- The oldest packet of the pipe has been received whole. -/
def decryptCompleteGuard (slice : SliceId) (pipe : Half) (s : State) : Bool :=
  match s.crypto.pipes[pipeIndex slice pipe] with
  | j :: _ => j.need == 0
  | [] => false

/-- AAD of a downstream packet: header bits [63:16] as corrected (R346). -/
def jobAad (j : DecJob) : List Byte := (vecBytes j.header).take 6

/-- The plaintext of a job under the key it latched and the invocation its position gives, none where its tag fails (R346,
R350). -/
def openJob (j : DecJob) : Option FrameBytes :=
  gcmOpen j.aes256 j.key (gcmIv j.salt (downInvocation j.fn j.spec j.word)) (jobAad j) (j.data.take j.length)

def decryptCompleteEffect (slice : SliceId) (pipe : Half) (s : State) : State :=
  match s.crypto.pipes[pipeIndex slice pipe] with
  | j :: rest =>
    let s1 := { s with crypto := { s.crypto with pipes := vmod s.crypto.pipes (pipeIndex slice pipe) fun _ => rest } }
    if j.clear then releasePlain j (j.data.take j.length) s1
    else
      match openJob j with
      | some plain => releasePlain j plain (noteVerified j (count1 (aCip slice.val 0x10) s1))
      | none => tagFailed j s1
  | [] => s

def execDecryptComplete (slice : SliceId) (pipe : Half) (s : State) : Host.Outcome State Fault Refusal :=
  .next (whenB (decryptCompleteGuard slice pipe s) (decryptCompleteEffect slice pipe) s)

/-! DOWN_HALF_LIFETIME_END (R350, R353). -/

/-- The frame number that a group holds: of its lowest lane in SYNC or OOF. -/
def groupFn (s : State) (g : GroupId) : Option Nat :=
  match (groupLanes s g).find? fun l => (laneAt s l).align == .sync || (laneAt s l).align == .oof with
  | some l => some (laneAt s l).fn
  | none => none

/-- Frames of a DOWN half's lifetime. -/
def downLifetime : Nat := 4000000000

/-- The lifetime has passed in the group's numbering; while the group holds no number its frames count on from the last it held, at
one per 10 µs. -/
def downHalfLifetimeEndGuard (slot : SlotId) (half : Half) (s : State) : Bool :=
  let x := halfAt s slot.val half
  (slotAt s slot.val).down && x.state == .loaded &&
    (match x.firstFn with
     | some (g, f) =>
       match groupFn s (Fin.ofNat 4 g) with
       | some n => decide (downLifetime ≤ fnAhead f n)
       | none =>
         match (groupAt s (Fin.ofNat 4 g)).lastFn with
         | some (n, t) => decide (downLifetime ≤ fnAhead f n + (s.now - t) / frameTicks)
         | none => since s x.firstAt (downLifetime * frameTicks)
     | none => false)

def execDownHalfLifetimeEnd (slot : SlotId) (half : Half) (s : State) : Host.Outcome State Fault Refusal :=
  .next (whenB (downHalfLifetimeEndGuard slot half s) (retireHalf slot.val half 2) s)

/-! KEY_ERASE and KEY_ERASE_COMPLETE (R356, R363). -/

/-- A slot with nothing in it. -/
def slotEmpty (k : KeySlot) : Bool :=
  k.halves[0].state == .empty && k.halves[1].state == .empty && k.write.isNone

def keyEraseChecks (r : Request) (_ : State) : List Check := [ckLen r 4, ckRange (decide (1023 < r.u16 0) || resv r 2 2)]

/-- ERASE_PENDING; a pending switch and an unfinished write are cancelled, the write answered BUSY (R356). -/
def keyEraseApply (r : Request) (s : State) : Done :=
  let n := r.u16 0
  let k := slotAt s n
  if slotEmpty k || k.erasing then okDone s
  else
    let queued := fun t : UtilTask => match t with
      | .unwrap u => u.slot == n
      | .job _ => false
    let s1 := modUtil (fun u => { u with urgentQ := u.urgentQ.filter fun t => !queued t })
      (modSlot s n fun k => { k with erasing := true, switch := none, write := none })
    match k.write with
    | some w =>
      match w.ack with
      | some (g, q) => okDone (queueAck g 0x08 ackBusy q s1)
      | none => okDone s1
    | none => okDone s1

def execKeyErase (s : State) : Host.Outcome State Fault Refusal := .next (runCommand 0x0603 keyEraseChecks keyEraseApply s)

/-- Operations already begun under the slot run to completion first. -/
def keyEraseCompleteGuard (slot : SlotId) (s : State) : Bool :=
  (slotAt s slot.val).erasing && (List.finRange 16).all fun i => s.crypto.pipes[i].all fun j => j.clear || j.slot != slot.val

/-- Both halves zeroed on every slice (R356). -/
def keyEraseCompleteEffect (slot : SlotId) (s : State) : State :=
  let s1 := modSlot s slot.val fun k => { k with
    halves := k.halves.map emptyHalf, current := 0, erasing := false, stall := false, waiting := none, lastSwitch := none }
  logEvent 0x0403 .notice 0xFF (toLe 2 slot.val) (setFlag (aKeyFlags slot.val) 5 s1)

def execKeyEraseComplete (slot : SlotId) (s : State) : Host.Outcome State Fault Refusal :=
  .next (whenB (keyEraseCompleteGuard slot s) (keyEraseCompleteEffect slot) s)

/-! The utility pipe (R357, R358). -/

/-- The utility pipe works on the anchor slice only (R335). -/
def utilityJobArriveGuard (s : State) : Bool := (anchorSlice s).isSome

def execUtilityJobArrive (job : UtilJob) (s : State) : Host.Outcome State Fault Refusal :=
  .next (whenB (utilityJobArriveGuard s) (giveTask (.job job)) s)

def utilityJobCompleteGuard (s : State) : Bool := s.crypto.util.running.isSome

/-- The output of a job in its mode (R335); none where a tag or an integrity check fails. -/
def utilOutput (j : UtilJob) : Option (List Byte) :=
  let rk := roundKeys j.aes256 j.key
  match j.mode, j.encrypt with
  | .ctr, _ => some (ctrCrypt rk j.iv j.data)
  | .cbc, true => some (cbcEnc rk j.iv (blocks16 j.data))
  | .cbc, false => some (cbcDec rk j.iv (blocks16 j.data))
  | .cfb128, true => some (cfbEnc rk j.iv (blocks16 j.data))
  | .cfb128, false => some (cfbDec rk j.iv (blocks16 j.data))
  | .kw, true => some (kwWrap rk j.data)
  | .kw, false => kwUnwrap rk j.data
  | .kwp, true => some (kwpWrap rk j.data)
  | .kwp, false => kwpUnwrap rk j.data
  | .gcm, true => some (gcmSeal j.aes256 j.key j.iv j.aad j.data)
  | .gcm, false => gcmOpen j.aes256 j.key j.iv j.aad j.data

/-- The write that an unwrap serves is still the slot's. -/
def unwrapServes (u : UnwrapJob) (k : KeySlot) : Bool :=
  match k.write with
  | some w => w.ack == some (u.group, u.seq) && w.key.isNone
  | none => false

/-- What a task leaves: the output of a job; the key of a KEY_DELIVER's write, or UNWRAP_FAIL and its ACK (R339, R341). -/
def finishTask (t : UtilTask) (s : State) : State :=
  match t with
  | .job j => modUtil (fun u => { u with output := some (j.id, utilOutput j) }) s
  | .unwrap u =>
    if unwrapServes u (slotAt s u.slot) then
      match unwrapKey u.kek256 u.kek u.aes256 u.wrapped with
      | some key => modSlot s u.slot fun k => { k with write := k.write.map fun w => { w with key := some key } }
      | none =>
        queueAck u.group 0x08 ackUnwrapFail u.seq
          (setFlag (aKeyFlags u.slot) 6 (modSlot s u.slot fun k => { k with write := none }))
    else s

/-- The next task: a waiting URGENT one, else the suspended one, else the next NORMAL one. -/
def nextTask (u : Util) : Util :=
  match u.urgentQ, u.suspended, u.normalQ with
  | j :: t, _, _ => { u with running := some j, urgentQ := t }
  | [], some j, _ => { u with running := some j, suspended := none }
  | [], none, j :: t => { u with running := some j, normalQ := t }
  | [], none, [] => { u with running := none }

def utilityJobCompleteEffect (s : State) : State :=
  match s.crypto.util.running with
  | some t => finishTask t (countUtil 0x48 (modUtil nextTask s))
  | none => s

def execUtilityJobComplete (s : State) : Host.Outcome State Fault Refusal :=
  .next (whenB (utilityJobCompleteGuard s) utilityJobCompleteEffect s)

/-- The unwrap that a command makes before its response: it suspends a running NORMAL job and lets it resume (R357, R358). -/
def commandUnwrap (s : State) : State :=
  match s.crypto.util.running with
  | some t => countUtil 0x48 (whenB (!urgentTask t) (countUtil 0x50) s)
  | none => countUtil 0x48 s

/-! KEY_SLOT_SET (R354, R360). -/

def keySlotSetChecks (r : Request) (s : State) : List Check :=
  let n := r.u16 0
  let k := slotAt s n
  [ckLen r 24,
   ckRange (decide (1023 < n) || decide (1 < r.u8 2) || decide (4 < r.u8 3) || resv r 4 4 || r.u64 8 == 0 ||
     decide (2 ^ 32 < r.u64 8) || r.u64 16 == 0 || decide (2 ^ 36 < r.u64 16)),
   ⟨((r.u8 2 == 1) != k.down || r.u8 3 != k.manager) &&
      (k.halves[0].state != .empty || k.halves[1].state != .empty || (boundAccount s n).isSome), .conflict⟩]

/-- New limits on a half: REKEY_DUE first, then retirement where a count lies above its limit (R354). -/
def applyLimits (n : Nat) (h : Half) (s : State) : State :=
  if (halfAt s n h).state = .loaded then
    let s1 := checkRekey n h s
    let x := halfAt s1 n h
    if (slotAt s1 n).limInv < x.inv then retireHalf n h 0 s1
    else if (slotAt s1 n).limBlocks < x.blocks then retireHalf n h 1 s1
    else s1
  else s

def keySlotSetApply (r : Request) (s : State) : Done :=
  let n := r.u16 0
  let s1 := modSlot s n fun k => { k with
    down := r.u8 2 == 1, manager := r.u8 3, limInv := r.u64 8, limBlocks := r.u64 16 }
  okDone (applyLimits n 1 (applyLimits n 0 s1))

def execKeySlotSet (s : State) : Host.Outcome State Fault Refusal := .next (runCommand 0x0600 keySlotSetChecks keySlotSetApply s)

/-! KEY_LOAD (R361). -/

def keyLoadChecks (r : Request) (s : State) : List Check :=
  let k := slotAt s (r.u16 0)
  [ckLen r 48,
   ckRange (decide (1023 < r.u16 0) || decide (2 ≤ r.u8 2) || decide (7 < r.u8 3) ||
     (!natBit (r.u8 2) 0 && leAt r.payload 32 16 != 0)),
   ⟨k.erasing || k.switch.isSome, .busy⟩,
   ⟨k.manager != 0, .notPermitted⟩,
   ⟨!kekHeld s (r.u8 3), .conflict⟩]

/-- The inactive half is written before the response; a failed unwrap leaves the slot unchanged and sets UNWRAP_FAIL (R338,
R339, R361). -/
def keyLoadApply (r : Request) (s : State) : Done :=
  let n := r.u16 0
  let kek := kekAt s (r.u8 3)
  let s1 := commandUnwrap s
  match unwrapKey kek.1 kek.2 (natBit (r.u8 2) 0) ((r.payload.drop 8).take 40) with
  | some key =>
    let h := otherHalf (slotAt s n).current
    { st := loadHalf n { half := h, aes256 := natBit (r.u8 2) 0, key := some key, salt := BitVec.ofNat 32 (r.u32 4), at_ := s.now,
                         ack := none } key 0 s1,
      payload := [BitVec.ofNat 8 h.val, 0, 0, 0] }
  | none => { st := setFlag (aKeyFlags n) 6 s1, status := .conflict }

def execKeyLoad (s : State) : Host.Outcome State Fault Refusal :=
  .next (runCommand 0x0601 keyLoadChecks keyLoadApply s)

/-! KEY_COMMIT (R342 to R345, R362). -/

def kcHalf (r : Request) : Half := if r.u8 2 = 0 then 0 else 1
def kcNow (r : Request) : Bool := r.u32 4 == 0xFFFFFFFF

def keyCommitChecks (r : Request) (s : State) : List Check :=
  let k := slotAt s (r.u16 0)
  let fn := groupFn s (Fin.ofNat 4 (r.u8 3))
  [ckLen r 8,
   ckRange (decide (1023 < r.u16 0) || decide (1 < r.u8 2) || decide (3 < r.u8 3) ||
     (!kcNow r && (match fn with
       | some n => decide (fnWrap ≤ r.u32 4) || decide (fnAhead n (r.u32 4) < 2) || decide (25600 < fnAhead n (r.u32 4))
       | none => false))),
   ⟨k.erasing || k.switch.isSome, .busy⟩,
   ⟨k.manager != 0, .notPermitted⟩,
   ⟨kcHalf r == k.current || k.halves[kcHalf r].state != .loaded || (!kcNow r && fn.isNone), .conflict⟩]

def keyCommitApply (r : Request) (s : State) : Done :=
  let n := r.u16 0
  let g : GroupId := Fin.ofNat 4 (r.u8 3)
  if kcNow r then
    okDone (modSlot (makeCurrent n (kcHalf r) s) n fun k => { k with lastSwitch := some (s.now, switchFrames s none) })
  else okDone (scheduleSwitch n (kcHalf r) (r.u32 4) g s)

def execKeyCommit (s : State) : Host.Outcome State Fault Refusal := .next (runCommand 0x0602 keyCommitChecks keyCommitApply s)

/-! KEY_BIND (R364). -/

def keyBindChecks (r : Request) (s : State) : List Check :=
  let sl := r.u16 2
  [ckLen r 4,
   ckRange (decide (255 < r.u16 0) || (decide (1023 < sl) && sl != 0xFFFE && sl != 0xFFFF)),
   ⟨decide (sl ≤ 1023) && ((slotAt s sl).down || (match boundAccount s sl with | some a => a.val != r.u16 0 | none => false)), .conflict⟩]

def keyBindApply (r : Request) (s : State) : Done :=
  let sl := r.u16 2
  okDone (modAcct s (Fin.ofNat 256 (r.u16 0)) fun x => { x with
    bind := if sl = 0xFFFE then .clear else if sl = 0xFFFF then .unbound else .slot sl })

def execKeyBind (s : State) : Host.Outcome State Fault Refusal := .next (runCommand 0x0604 keyBindChecks keyBindApply s)

/-! KEY_STATUS_READ, CIP_PORT_FAIL_READ, KEK_SET (R365 to R367). -/

def keyStatusReadChecks (r : Request) (_ : State) : List Check :=
  [ckLen r 4, ckRange (r.u16 2 == 0 || decide (32 < r.u16 2) || decide (1024 < r.u16 0 + r.u16 2))]

/-- The 64 bytes of a slot's usage. -/
def slotStatus (k : KeySlot) : List Byte :=
  let launched := fun h : Half => match k.halves[h].launched with
    | some v => v
    | none => 2 ^ 64 - 1
  toLe 8 k.limInv ++ toLe 8 k.limBlocks ++ toLe 8 k.halves[0].inv ++ toLe 8 k.halves[0].blocks ++ toLe 8 k.halves[1].inv ++
    toLe 8 k.halves[1].blocks ++ toLe 8 (launched 0) ++ toLe 8 (launched 1)

def keyStatusReadApply (r : Request) (s : State) : Done :=
  { st := s, payload := (List.range (r.u16 2)).flatMap fun i => slotStatus (slotAt s (r.u16 0 + i)) }

def execKeyStatusRead (s : State) : Host.Outcome State Fault Refusal :=
  .next (runCommand 0x0605 keyStatusReadChecks keyStatusReadApply s)

def cipPortFailReadChecks (r : Request) (_ : State) : List Check :=
  [ckLen r 8,
   ckRange (decide (3 < r.u8 0) || decide (2 ≤ r.u8 1) || r.u16 4 == 0 || decide (64 < r.u16 4) ||
     decide (4096 < r.u16 2 + r.u16 4) || resv r 6 2)]

def cipPortFailReadApply (r : Request) (s : State) : Done :=
  let keys := (List.range (r.u16 4)).map fun i => 4096 * r.u8 0 + r.u16 2 + i
  let clear := natBit (r.u8 1) 0
  { st := if clear then { s with crypto := { s.crypto with
      portFail := keys.foldl (fun f k => sparseSet 0 f k 0) s.crypto.portFail } } else s,
    payload := keys.flatMap fun k => toLe 8 (sparseGet 0 s.crypto.portFail k) }

def execCipPortFailRead (s : State) : Host.Outcome State Fault Refusal :=
  .next (runCommand 0x0606 cipPortFailReadChecks cipPortFailReadApply s)

def kekSetChecks (r : Request) (_ : State) : List Check :=
  [ckLen r 44, ckRange (decide (7 < r.u8 0) || decide (4 ≤ r.u8 1) || resv r 2 2)]

/-- A KEK written or erased, unwrapped under the device root key; one that does not unwrap under the device root key is refused with CONFLICT (log 11). -/
def kekSetApply (r : Request) (s : State) : Done :=
  let put := fun (st : State) v => { st with crypto := { st.crypto with keks := vmod st.crypto.keks (Fin.ofNat 8 (r.u8 0)) fun _ => v } }
  if natBit (r.u8 1) 1 then okDone (put s none)
  else
    let s1 := commandUnwrap s
    match unwrapKey true s.fw.fuses.rootKey (natBit (r.u8 1) 0) ((r.payload.drop 4).take 40) with
    | some k => okDone (put s1 (some (natBit (r.u8 1) 0, k)))
    | none => { st := s1, status := .conflict }

def execKekSet (s : State) : Host.Outcome State Fault Refusal :=
  .next (runCommand 0x0607 kekSetChecks kekSetApply s)

end Sys2Proof.Machine
end

