-- ==== Sys2Proof/Machine/RegTrunk.lean ====
section
/-!
DEFINITION. Machine/RegTrunk.lean: what the read-only and RW registers of a slice's trunk block return (the register tables of
spec/01_trunk_and_terminal.md and spec/03_downstream_framing.md to spec/07_trunk_oam_performance_protection.md), and the
helpers by which every register table is read.
-/
namespace Sys2Proof.Machine

/-! Register tables. -/

/-- A word of fields: each its lowest bit, its width and its value; every other bit reads 0 (R9). -/
def fields (l : List (Nat × Nat × Nat)) : Word :=
  BitVec.ofNat 32 (l.foldl (fun n f => n + f.2.2 % 2 ^ f.2.1 * 2 ^ f.1) 0)

/-- A whole word. -/
def whole (v : Nat) : Word := BitVec.ofNat 32 v

/-- A table of `n` units at `base`, `stride` bytes each: the unit's number and the offset within it. -/
def tableWord (off base stride n : Nat) (f : Nat → Nat → Word) : Option Word :=
  if base ≤ off ∧ off < base + stride * n then some (f ((off - base) / stride) ((off - base) % stride)) else none

/-- The first table that holds the offset; an offset that none defines reads 0 (R457). -/
def firstWord (l : List (Option Word)) : Word := (l.findSome? id).getD 0

/-- Low bits of a two's-complement value. -/
def low (w : Nat) (v : Int) : Nat := (v % (2 ^ w : Nat)).toNat

/-- The bits of a set of numbers below `n`. -/
def maskOf (n : Nat) (f : Nat → Bool) : Nat := (List.range n).foldl (fun m i => m + (f i).toNat * 2 ^ i) 0

/-- A value that saturates at a field's width. -/
def upTo (max v : Nat) : Nat := min max v

/-- Line lane j of a slice. -/
def lineNo (k : SliceId) (j : Nat) : Lane := Fin.ofNat 32 (4 * k.val + j)

/-- A group by number. -/
def groupNo (g : Nat) : GroupId := Fin.ofNat 4 g

/-! Line lanes. -/

/-- A TRUNK_GROUP_SET that awaits FUNC_START names the lane, or its group (R19, R20). -/
def lanePending (s : State) (l : Lane) : Bool :=
  (List.finRange 4).any fun g => match (groupAt s g).bindPend with
    | some b => b.any (fun e => e.1 == l) || (boundGroup s l == some g)
    | none => false

/-- TRK_LANE_CFG. -/
def laneCfgWord (s : State) (l : Lane) : Word :=
  match boundGroup s l with
  | some g => fields [(0, 6, laneSpec s g l), (8, 2, g.val), (12, 1, 1), (13, 1, (lanePending s l).toNat)]
  | none => fields [(13, 1, (lanePending s l).toNat)]

/-- Encoding of ALIGN. -/
def Align.code : Align → Nat
  | .hunt => 0
  | .presync => 1
  | .sync => 2
  | .oof => 3

/-- The lane's status at 0x60_0010. -/
def laneStatusWord (s : State) (l : Lane) : Word :=
  let x := laneAt s l
  fields [(0, 1, x.blockLock.toNat), (1, 2, x.align.code), (3, 1, (oofShown s l).toNat), (4, 1, x.pdSync.toNat),
    (5, 3, x.cands.length), (8, 7, x.gmapLen), (15, 8, upTo 255 x.contexts.length),
    (23, 1, (x.settleLane.isSome || !x.settlePorts.isEmpty).toNat)]

/-- The last value applied of those keyed by their first epoch: one that waits for its application instant is not yet shown
(R557). -/
def applied {α : Type} [DecidableEq α] (waits : Option (Nat × α)) (l : List (Nat × α)) : Option α :=
  (l.find? fun p => some p != waits).map fun p => p.2

/-- RNG_LANE_EQD: the EqD in force, the provisional one while the lane is not ranged. -/
def laneEqdWord (s : State) (l : Lane) : Word :=
  let x := laneAt s l
  match boundGroup s l with
  | some g => ((if x.ranged then applied x.eqdPend x.eqds else none).getD ((provisionalEqd (groupAt s g)).getD 0))
  | none => 0

/-- The ranging status at 0x60_0050. -/
def laneRangeWord (s : State) (l : Lane) : Word :=
  let x := laneAt s l
  let lead := fun f : State → GroupId → Option Lane => match boundGroup s l with
    | some g => (f s g == some l).toNat
    | none => 0
  fields [(0, 1, x.ranged.toNat), (1, 1, x.eqdPend.isSome.toNat), (2, 1, lead leadLane), (3, 1, lead timeLane)]

/-- The slot edge of the RANGE_REPLY that a lane is to send. -/
def replyEdges (s : State) (g : GroupId) (l : Lane) : List Stamp :=
  match (laneAt s l).rangeReq with
  | some rq => if (replyGrant s g l rq).isSome then (replyEdge s g l rq).toList else []
  | none => []

/-- The grants and leaders of a lane. -/
def laneGrantWord (s : State) (l : Lane) (off : Nat) : Word :=
  let x := laneAt s l
  let e := curEpoch s l
  let may : Bool := match laneGroup s l with
    | some g => mayLaunch s g l e
    | none => false
  let leaders := match applied x.leaderPend x.leaders, boundGroup s l with
    | some v, some _ => v
    | none, some g => ((groupAt s g).disc.map fun (d : Disc) => (d.leader, d.leader)).getD (0, 0)
    | _, none => (0, 0)
  let edge : Word := match laneGroup s l with
    | some g => (match sortEdge id ((launchable s g l).map (fun q => q.2.2) ++ replyEdges s g l) with
      | q :: _ => q.extractLsb' 6 32
      | [] => 0)
    | none => 0
  if off = 0 then fields [(0, 9, (heldGrants x (epochAdd e 1)).length), (9, 7, (planNow x e).length), (16, 6, x.phase.toNat),
    (22, 1, x.jumpHold.isSome.toNat), (23, 1, may.toNat)]
  else if off = 4 then fields [(0, 13, leaders.1), (16, 13, leaders.2)]
  else if off = 0xC then edge
  else 0

/-- The defects of a lane. -/
def laneDefectWord (s : State) (l : Lane) (off : Nat) : Word :=
  let x := laneAt s l
  if off = 0 then fields [(0, 1, (showLos x).toNat), (1, 1, (oofShown s l && !x.los).toNat), (2, 1, (showLof x).toNat),
    (3, 1, (showAis x).toNat), (4, 1, (showSf x).toNat), (5, 1, (showSd x).toNat), (6, 1, x.unreach.toNat)]
  else if off = 8 then fields [(0, 17, x.lastEframes), (17, 1, x.lastDefect.toNat)]
  else if off = 0xC then fields [(0, 11, x.lastWinBits), (11, 1, x.lastWinEval.toNat)]
  else 0

/-! Groups. -/

/-- Encoding of a group's TIME_STATE. -/
def TimeSt.code : TimeSt → Nat
  | .none => 0
  | .coarse => 1
  | .locked => 2
  | .holdover => 3

/-- Registration, ranging and trunk time of a group. -/
def groupRangeWord (s : State) (g : GroupId) (off : Nat) : Word :=
  let x := groupAt s g
  let lane := fun o : Option Lane => (o.map fun l => l.val).getD 0
  if off = 0 then fields [(0, 3, x.st.code), (4, 8, x.termId), (12, 5, lane (leadLane s g)), (17, 5, lane (timeLane s g)),
    (22, 2, x.timeSt.code), (24, 1, x.timeSource.toNat)]
  else if off = 8 then (x.disc.map fun d => d.logical).getD 0
  else if off = 0xC then x.downDelay
  else if off = 0x10 then x.eqd0.getD 0
  else if off = 0x14 then x.headId
  else if off = 0x18 then x.todFn
  else if off = 0x1C then x.coarseRtt
  else if off = 0x20 then fields [(0, 16, x.asym.toNat), (16, 10, x.holdoverLimit)]
  else if off = 0x24 then x.modemTx
  else if off = 0x28 then x.modemRx
  else 0

/-- Forecast and latent bursts of a group. -/
def groupRunWord (s : State) (g : GroupId) (off : Nat) : Word :=
  let x := groupAt s g
  if off = 0 then fields [(0, 21, x.depth)]
  else if off = 4 then fields [(0, 17, x.cutoff)]
  else if off = 8 then fields [(0, 17, x.margin)]
  else if off = 0xC then fields [(0, 20, x.holdoff)]
  else if off = 0x10 then fields [(0, 6, horizonUnder x x.headHorizon), (6, 1, x.predict.toNat), (7, 1, x.preempt.toNat),
    (8, 5, x.w1), (13, 5, x.w8), (18, 5, x.w64), (23, 5, x.reportCount), (28, 1, x.queueOnly.toNat)]
  else if off = 0x14 then fields [(0, 7, slotsUsed x), (7, 6, x.horizon), (13, 6, x.headHorizon)]
  else if off = 0x18 then x.reportMask.extractLsb' 0 32
  else if off = 0x1C then x.reportMask.extractLsb' 32 32
  else 0

/-- The demand of an account; the registers of the protection group of a local pair read 0 (R196). -/
def accountRunWord (s : State) (d : Nat) (off : Nat) : Word :=
  let a : AccountId := Fin.ofNat 256 d
  let x := acctAt s a
  if workingOf s (acctGroup a) != acctGroup a then 0
  else if off = 0 then whole (upTo (2 ^ 32 - 1) (ceilDiv (queueBytes s a) 64))
  else if off = 4 then whole x.forecast
  else if off = 8 then fields [(0, 20, upTo (2 ^ 20 - 1) (ceilDiv (latentBytes s a) 64)), (20, 7, (accountLatents s a).length),
    (27, 1, x.stopped.toNat), (28, 1, (x.remainder.isSome && x.pinned).toNat)]
  else if off = 0xC then whole (upTo (2 ^ 32 - 1) (blendedRate (groupAt s (servingGroup s (acctGroup a))) x / 2 ^ 20))
  else 0

/-- Encoding of REQUEST. -/
def Deciding.code : Deciding → Nat
  | .none => 0
  | .wtr => 1
  | .manual => 2
  | .signalFail => 3
  | .force => 4
  | .lockout => 5
  | .hold => 6

/-- The partner group is clean, as known here (R206). -/
def partnerClean (s : State) (g : GroupId) : Bool :=
  match (groupAt s g).pair with
  | some p => if p.peer = 0 then clean s p.partner else (groupAt s g).prot.remoteClean && !(groupAt s g).prot.remoteStale
  | none => false

/-- Protection and defects of a group. -/
def groupProtWord (s : State) (g : GroupId) (off : Nat) : Word :=
  let x := groupAt s g
  let q := (groupAt s (pairHome s g)).prot
  let active : Bool := if x.pair.isSome then activeGroup s g else x.st == .operate
  if off = 0 then (match x.pair with
    | some p => fields [(0, 1, 1), (1, 1, (!p.working).toNat), (2, 2, p.partner.val), (4, 6, p.peer), (10, 1, p.revertive.toNat)]
    | none => 0)
  else if off = 4 then (match x.pair with
    | some p => fields [(0, 10, p.wtr), (16, 7, p.holdOff)]
    | none => fields [(0, 10, 300)])
  else if off = 8 then fields [(0, 1, active.toNat), (1, 3, q.deciding.code), (4, 1, (sfG s g).toNat), (5, 1, (clean s g).toNat),
    (6, 1, (partnerClean s g).toNat), (7, 1, x.rdi.toNat), (8, 1, x.linkFault.toNat), (9, 1, x.disableLatch.toNat),
    (10, 1, q.remoteStale.toNat), (11, 6, (lanesInDefect s g).length)]
  else if off = 0x10 then fields [(0, 12, x.lofTime), (12, 1, x.lfOnAis.toNat), (13, 1, x.lfOnLosLof.toNat), (14, 6, x.laneThresh)]
  else if off = 0x14 then fields [(0, 11, x.sfThresh), (16, 11, x.sdThresh)]
  else if off = 0x18 then x.lfPorts
  else if off = 0x1C then fields [(0, 16, upTo 65535 q.lastSwitchUs), (16, 4, q.lastCause)]
  else 0

/-! The block. -/

/-- A word of the trunk block of slice k. -/
def trunkWord (s : State) (k : SliceId) (off : Nat) : Word :=
  let lane := fun f : State → Lane → Word => fun j (_ : Nat) => f s (lineNo k j)
  firstWord [
    tableWord off 0x600000 4 4 (lane laneCfgWord),
    tableWord off 0x600010 4 4 (lane laneStatusWord),
    tableWord off 0x600020 4 4 (lane fun st l => whole (laneAt st l).regFn),
    tableWord off 0x600040 4 4 (lane laneEqdWord),
    tableWord off 0x600050 4 4 (lane laneRangeWord),
    tableWord off 0x600060 8 4 (fun j o => if o = 0 then (laneAt s (lineNo k j)).trxLast.extractLsb' 0 32
      else (laneAt s (lineNo k j)).trxLatch.setWidth 32),
    tableWord off 0x601000 0x80 4 (fun g o => groupRangeWord s (groupNo g) o),
    tableWord off 0x602000 0x10 4 (fun j o => laneGrantWord s (lineNo k j) o),
    tableWord off 0x603000 0x80 4 (fun g o => if o = 0 then fields [(0, 16, (groupAt s (groupNo g)).lastDevCtr.toNat)] else 0),
    tableWord off 0x604000 0x80 4 (fun g o => groupRunWord s (groupNo g) o),
    tableWord off 0x604400 4 1 (fun _ _ => fields [(0, 13, ceilDiv (darkslideUsed s k) 1024)]),
    tableWord off 0x605000 0x10 256 (fun d o => accountRunWord s d o),
    tableWord off 0x606000 0x10 4 (fun j o => laneDefectWord s (lineNo k j) o),
    tableWord off 0x607000 0x80 4 (fun g o => groupProtWord s (groupNo g) o)]

end Sys2Proof.Machine
end

