-- ==== Sys2Proof/Machine/Sched.lean ====
section
/-!
DEFINITION. Machine/Sched.lean: shaper wheels, SCHED_SET, SCHED_TREE_SET and policers
(spec/11_scheduling_shaping_policing.md, R320 to R333).
-/
namespace Sys2Proof.Machine

/-! Shapers by reference. -/

/-- The shaper that a reference names. -/
def shaperAt (s : State) : ShaperRef → Shaper
  | .port p => (portAt s p).shaper
  | .node p n => (portAt s p).nodes[n].shaper
  | .queue p q => (portAt s p).queues[q].shaper
  | .cls a c => (acctAt s a).classes[c].shaper
  | .account a => (acctAt s a).shaper

def modNode (s : State) (p : PortId) (n : Fin 8) (f : NodeSt → NodeSt) : State :=
  modPort s p fun x => { x with nodes := vmod x.nodes n f }

def modClass (s : State) (a : AccountId) (c : Fin 8) (f : ClassSt → ClassSt) : State :=
  modAcct s a fun x => { x with classes := vmod x.classes c f }

def modShaper (s : State) (r : ShaperRef) (f : Shaper → Shaper) : State :=
  match r with
  | .port p => modPort s p fun x => { x with shaper := f x.shaper }
  | .node p n => modNode s p n fun x => { x with shaper := f x.shaper }
  | .queue p q => modQueue s p q fun x => { x with shaper := f x.shaper }
  | .cls a c => modClass s a c fun x => { x with shaper := f x.shaper }
  | .account a => modAcct s a fun x => { x with shaper := f x.shaper }

/-! SHAPER_ELIGIBLE and OVERFLOW_WHEEL_MOVE (R322). -/

/-- The shaper's entry stands in the fine wheel and its eligible time has come round. -/
def shaperEligibleGuard (shaper : ShaperRef) (s : State) : Bool := wheelDue s.now (shaperAt s shaper)

/-- It permits again, with the tokens accrued up to now. -/
def shaperEligibleEffect (shaper : ShaperRef) (s : State) : State := modShaper s shaper (wheelOut s.now)

def execShaperEligible (shaper : ShaperRef) (s : State) : Host.Outcome State Fault Refusal :=
  .next (whenB (shaperEligibleGuard shaper s) (shaperEligibleEffect shaper) s)

/-- Every shaper of a port through a change. -/
def portShapers (f : Shaper → Shaper) (x : PortSt) : PortSt :=
  { x with
    shaper := f x.shaper,
    nodes := Vector.ofFn fun i : Fin 8 => { x.nodes[i] with shaper := f x.nodes[i].shaper },
    queues := Vector.ofFn fun i : Fin 32 => { x.queues[i] with shaper := f x.queues[i].shaper } }

/-- Every shaper of an account through a change. -/
def acctShapers (f : Shaper → Shaper) (x : AccountSt) : AccountSt :=
  { x with
    shaper := f x.shaper,
    classes := Vector.ofFn fun i : Fin 8 => { x.classes[i] with shaper := f x.classes[i].shaper } }

def overflowWheelMoveGuard (slice : SliceId) (s : State) : Bool := present s slice.val

/-- The entries whose overflow slot has come round move to the fine wheel: those of the slice's ports and of the accounts,
whose entries every slice holds. -/
def overflowWheelMoveEffect (slice : SliceId) (s : State) : State :=
  { s with path := { s.path with
      ports := Vector.ofFn fun i : Fin 32 =>
        if i.val / 4 = slice.val then portShapers (wheelMove s.now) s.path.ports[i] else s.path.ports[i],
      accounts := Vector.ofFn fun i : Fin 256 => acctShapers (wheelMove s.now) s.path.accounts[i] } }

def execOverflowWheelMove (slice : SliceId) (s : State) : Host.Outcome State Fault Refusal :=
  .next (whenB (overflowWheelMoveGuard slice s) (overflowWheelMoveEffect slice) s)

/-! SCHED_SET (R324, R330). -/

def scKind (r : Request) : Nat := r.u8 0
def scFlag (r : Request) (b : Nat) : Bool := natBit (r.u8 1) b
def scTarget (r : Request) : Nat := r.u16 2
def scSub (r : Request) : Nat := r.u8 4
def scWeight (r : Request) : Nat := r.u16 6
def scRate (r : Request) : Nat := r.u16 8
def scOverhead (r : Request) : Int := signed 16 (r.u16 10)
def scBurst (r : Request) : Nat := r.u32 12
def scLate (r : Request) : Nat := r.u32 16

/-- TARGET names a port on an absent slice. -/
def scAbsent (r : Request) (s : State) : Bool := decide (scKind r < 3) && decide (scTarget r < 32) && !present s (scTarget r / 4)

/-- TARGET or SUB outside its range. -/
def scTargetBad (r : Request) : Bool :=
  match scKind r with
  | 0 => decide (31 < scTarget r)
  | 1 => decide (31 < scTarget r) || decide (7 < scSub r)
  | 2 => decide (31 < scTarget r) || decide (31 < scSub r)
  | 3 => decide (255 < scTarget r) || decide (7 < scSub r)
  | 4 => decide (255 < scTarget r)
  | _ => true

/-- An overhead from -64 to 255. -/
def overheadOk (v : Int) : Bool := decide (-64 ≤ v) && decide (v ≤ 255)

/-- 64 to 16,777,215 bytes. -/
def burstOk (n : Nat) : Bool := decide (64 ≤ n) && decide (n ≤ 16777215)

/-- A rate code: 0, or a valid one (R320). -/
def rateOk (c : Nat) : Bool := c == 0 || rateValid c

/-- A field outside its range whose FLAGS bit is set. -/
def scFieldBad (r : Request) : Bool :=
  (scFlag r 0 && (!rateOk (scRate r) || !burstOk (scBurst r))) ||
  (scFlag r 1 && (scWeight r == 0 || decide (1023 < scWeight r))) ||
  (scFlag r 3 && !overheadOk (scOverhead r)) ||
  (scFlag r 4 && decide (1000000 < scLate r))

/-- A flag that the KIND does not take. -/
def scConflict (r : Request) : Bool :=
  r.u8 1 == 0 ||
  (scFlag r 1 && (scKind r == 0 || scKind r == 4 || (scKind r == 2 && decide (scSub r < 4)) || (scKind r == 3 && decide (scSub r < 2)))) ||
  (scFlag r 3 && scKind r != 0 && scKind r != 4) ||
  (scFlag r 4 && scKind r != 2)

def schedSetChecks (r : Request) (s : State) : List Check :=
  [ckLen r 20, ckRange (scAbsent r s),
   ckRange (scTargetBad r || scFlag r 7 || resv r 5 1 || scFieldBad r),
   ⟨scConflict r || (decide (scKind r < 3) && !portExists s (Fin.ofNat 32 (scTarget r))), .conflict⟩]

/-- The shaper that KIND, TARGET and SUB name. -/
def scRef (r : Request) : ShaperRef :=
  let p : PortId := Fin.ofNat 32 (scTarget r)
  let a : AccountId := Fin.ofNat 256 (scTarget r)
  match scKind r with
  | 0 => .port p
  | 1 => .node p (Fin.ofNat 8 (scSub r))
  | 2 => .queue p (Fin.ofNat 32 (scSub r))
  | 3 => .cls a (Fin.ofNat 8 (scSub r))
  | _ => .account a

/-- SET_WEIGHT. -/
def scSetWeight (r : Request) (s : State) : State :=
  match scRef r with
  | .node p n => modNode s p n fun x => { x with weight := scWeight r }
  | .queue p q => modQueue s p q fun x => { x with weight := scWeight r }
  | .cls a c => modClass s a c fun x => { x with weight := scWeight r }
  | _ => s

/-- SET_OVERHEAD. -/
def scSetOverhead (r : Request) (s : State) : State :=
  match scRef r with
  | .port p => modPort s p fun x => { x with overhead := scOverhead r }
  | .account a => modAcct s a fun x => { x with overhead := scOverhead r }
  | _ => s

/-- SET_TIMED. -/
def scSetTimed (r : Request) (s : State) : State :=
  match scRef r with
  | .queue p q => modQueue s p q fun x => { x with timed := scFlag r 5, dropLate := scFlag r 6, lateLimit := scLate r }
  | _ => s

def schedSetApply (r : Request) (s : State) : Done :=
  let s1 := whenB (scFlag r 0) (fun st => modShaper st (scRef r) fun _ => setShaper s.now (scRate r) (scBurst r) (scFlag r 2)) s
  let s2 := whenB (scFlag r 1) (scSetWeight r) s1
  let s3 := whenB (scFlag r 3) (scSetOverhead r) s2
  okDone (whenB (scFlag r 4) (scSetTimed r) s3)

def execSchedSet (s : State) : Host.Outcome State Fault Refusal :=
  .next (runCommand 0x0501 schedSetChecks schedSetApply s)

/-! SCHED_TREE_SET (R331). -/

/-- NODE of queues 4 to 31. -/
def treeNodes (r : Request) : List Nat := (List.range 28).map fun i => r.u8 (4 + i)

def schedTreeSetChecks (r : Request) (s : State) : List Check :=
  [ckLen r 32, ckRange (decide (r.u8 0 < 32) && !present s (r.u8 0 / 4)),
   ⟨decide (r.u8 0 < 32) && !s.path.schedStopped[laneSlice (reqPort r)], .notStopped⟩,
   ckRange (decide (31 < r.u8 0) || resv r 1 3 || (treeNodes r).any fun n => decide (7 < n)), ckPort r s]

/-- The hierarchy waits for FUNC_START (R329). -/
def schedTreeSetApply (r : Request) (s : State) : Done :=
  okDone (modPort s (reqPort r) fun x => { x with treePend := some (treeNodes r) })

def execSchedTreeSet (s : State) : Host.Outcome State Fault Refusal :=
  .next (runCommand 0x0500 schedTreeSetChecks schedTreeSetApply s)

/-! POLICER_SET and POLICER_READ (R332, R333). -/

def policerSetChecks (r : Request) (_ : State) : List Check :=
  [ckLen r 16,
   ckRange (decide (3 < r.u8 2) || resv r 3 1 || resv r 12 4 || !rateOk (r.u16 4) || (natBit (r.u8 2) 0 && r.u16 4 == 0) ||
     !overheadOk (signed 16 (r.u16 6)) || !burstOk (r.u32 8))]

def policerSetApply (r : Request) (s : State) : Done :=
  let f := fun x : Policer => { x with
    enabled := natBit (r.u8 2) 0, cir := r.u16 4, overhead := signed 16 (r.u16 6), cbs := r.u32 8,
    tokens := if natBit (r.u8 2) 1 then (r.u32 8 * byteUnits : Nat) else 0, at_ := s.now }
  okDone { s with path := { s.path with policers := sparseMod {} s.path.policers (r.u16 0) f } }

def execPolicerSet (s : State) : Host.Outcome State Fault Refusal :=
  .next (runCommand 0x0506 policerSetChecks policerSetApply s)

/-- The policers a POLICER_READ names. -/
def polRange (r : Request) : List Nat := (List.range (r.u16 2)).map fun i => r.u16 0 + i

/-- The anchor reaches slice k. -/
def anchorReaches (s : State) (k : Nat) : Bool :=
  match anchorSlice s with
  | some h => path s h.val k
  | none => false

def policerReadChecks (r : Request) (s : State) : List Check :=
  [ckLen r 8,
   ckRange (r.u16 2 == 0 || decide (64 < r.u16 2) || decide (1 < r.u8 4) || resv r 5 3 || decide (65536 < r.u16 0 + r.u16 2)),
   ⟨(polRange r).any fun p => !anchorReaches s (policerHome s p), .timeout⟩]

/-- The 40 bytes of a policer; TOKENS with what has accrued up to now. -/
def policerBytes (now : Nat) (x : Policer) : List Byte :=
  let tok : Int := if x.cir = 0 then x.tokens else min (x.cbs * byteUnits : Nat) (x.tokens + (rateUnits x.cir * (now - x.at_) : Nat))
  toLe 8 x.conformFrames ++ toLe 8 x.conformBytes ++ toLe 8 x.excessFrames ++ toLe 8 x.excessBytes ++
    toLe 4 (tok / (byteUnits : Int)).toNat ++ toLe 2 x.cir ++ [BitVec.ofNat 8 x.enabled.toNat, 0]

/-- CLEAR: the four counters of the policers read return to 0. -/
def policerClear (p : Nat) (s : State) : State :=
  { s with path := { s.path with policers := sparseMod {} s.path.policers p fun x =>
    { x with conformFrames := 0, conformBytes := 0, excessFrames := 0, excessBytes := 0 } } }

def policerReadApply (r : Request) (s : State) : Done :=
  { st := whenB (natBit (r.u8 4) 0) (foldS (polRange r) policerClear) s,
    payload := (polRange r).flatMap fun p => policerBytes s.now (sparseGet {} s.path.policers p) }

def execPolicerRead (s : State) : Host.Outcome State Fault Refusal :=
  .next (runCommand 0x0507 policerReadChecks policerReadApply s)

end Sys2Proof.Machine
end

