-- ==== Sys2Proof/Machine/RegPath.lean ====
section
/-!
DEFINITION. Machine/RegPath.lean: what the read-only and RW registers of the packet-path blocks of a slice return (the register
tables of spec/08_host_ethernet_ports.md to spec/12_cipher_engine.md).
-/
namespace Sys2Proof.Machine

/-- Host lane, or port by its first lane, j of a slice. -/
def hostNo (k : SliceId) (j : Nat) : PortId := Fin.ofNat 32 (4 * k.val + j)

/-- Whole bytes of a token count, truncated towards zero. -/
def tokenBytes (now : Nat) (sh : Shaper) : Word := whole (low 32 ((accrue now sh).tokens.tdiv byteUnits))

/-! MAC (0x10_0000). -/

/-- The status of a port. -/
def portStatusWord (s : State) (p : PortId) : Word :=
  let x := portAt s p
  let paused := (List.finRange 32).any fun q => queuePaused s.now x.queues[q]
  fields [(0, 1, (portUp s p).toNat), (1, 1, x.aligned.toNat), (2, 1, x.lfRx.toNat), (3, 1, x.rfRx.toNat), (4, 1, x.lfTx.toNat),
    (5, 1, paused.toNat), (6, 1, (x.xoffSent != 0).toNat), (7, 1, x.lpiTx.isSome.toNat), (8, 1, x.lpiRx.toNat),
    (9, 1, x.storm.isSome.toNat)]

/-- Priorities stopped by received PFC. -/
def stoppedPrios (s : State) (x : PortSt) : Nat :=
  if x.fcMode = 2 then maskOf 8 fun p => (List.finRange 32).any fun q => x.queues[q].prio == p && queuePaused s.now x.queues[q]
  else 0

/-- A word of a port. -/
def portWord (s : State) (p : PortId) (off : Nat) : Word :=
  let x := portAt s p
  if portExists s p then
    if off = 0 then portStatusWord s p
    else if off = 8 then fields [(0, 14, x.maxFrame), (14, 7, x.flags.toNat), (21, 3, x.defPrio)]
    else if off = 0xC then fields [(0, 2, x.fcMode), (2, 1, x.rxHonour.toNat), (3, 1, x.txEnable.toNat), (4, 8, x.pfcMask.toNat),
      (12, 10, x.watchdog), (22, 8, stoppedPrios s x)]
    else if off = 0x10 then fields [(0, 16, x.quanta), (16, 16, x.refresh)]
    else if off = 0x14 then fields [(0, 16, x.twUsed), (16, 16, x.lpiIdle)]
    else if off = 0x18 then fields [(0, 1, x.eee.toNat)]
    else 0
  else if off = 8 then fields [(0, 14, 0x2800), (14, 7, 0x46)]
  else if off = 0xC then fields [(12, 10, 100)]
  else if off = 0x10 then fields [(0, 16, 0xFFFF), (16, 16, 0x8000)]
  else 0

/-- A word of the MAC block. -/
def macWord (s : State) (k : SliceId) (off : Nat) : Word :=
  let mode := match s.path.modePend[k] with
    | some m => fields [(0, 3, s.path.mode[k]), (3, 1, 1), (4, 3, m)]
    | none => fields [(0, 3, s.path.mode[k])]
  firstWord [tableWord off 0x100000 4 1 (fun _ _ => mode), tableWord off 0x101000 0x1000 4 (fun j o => portWord s (hostNo k j) o)]

/-! Classifier (0x20_0000). -/

/-- A word of the classifier block. -/
def clsWord (s : State) (k : SliceId) (off : Nat) : Word :=
  let c := clsAt s k
  let old := if c.retirePending then upTo 65535 (oldInFlight c) else 0
  if off = 0x200000 then fields [(0, 1, c.version.toNat), (1, 1, c.retirePending.toNat), (2, 3, maskOf 3 fun i => c.staged.toList.getD i false),
    (5, 3, maskOf 3 fun i => c.versioned.toList.getD i false), (16, 16, old)]
  else if off = 0x200008 then fields [(0, 19, c.cur.em.length)]
  else if off = 0x20000C then fields [(0, 15, c.cur.tern.length)]
  else if off = 0x200010 then fields [(0, 16, c.lastRetire), (16, 10, c.recirc.length)]
  else 0

/-! Buffers (0x30_0000). -/

/-- A word of a pool. -/
def poolWord (k : SliceId) (b : BufSt) (p off : Nat) : Word :=
  let x := poolAt b p
  let v := if off = 0 then x.buffers else if off = 4 then x.base else if off = 8 then freeIn b p
    else if off = 0xC then sharedFree k.val b p else if off = 0x10 then x.warn else if off = 0x14 then x.pause
    else if off = 0x18 then x.drop else 0
  fields [(0, 17, v)]

/-- A word of a unit. -/
def ownerWord (s : State) (k : SliceId) (u off : Nat) : Word :=
  let b := bufAt s k
  let o := ownerSt b u
  if off = 0 then fields [(0, 17, usedAll s (ownerId k.val u)), (17, 1, o.paused.toNat)]
  else if off = 4 then fields [(0, 17, o.warn)]
  else if off = 8 then fields [(0, 17, o.pause)]
  else if off = 0xC then fields [(0, 17, o.drop)]
  else if off = 0x10 then fields [(0, 13, o.hyst)]
  else if 0x14 ≤ off ∧ off < 0x28 then fields [(0, 17, quotaOf b u ((off - 0x14) / 4))]
  else 0

/-- A word of a receive priority. -/
def prioWord (k : SliceId) (b : BufSt) (j p off : Nat) : Word :=
  let t := b.prios[(Fin.ofNat 4 j)][(Fin.ofNat 8 p)]
  if off = 0 then fields [(0, 17, usedPrio b (ownerId k.val j) p)]
  else if off = 4 then fields [(0, 17, t.pause)]
  else if off = 8 then fields [(0, 17, t.drop)]
  else if off = 0xC then fields [(0, 1, (xoffByte b (Fin.ofNat 4 j)).toNat / 2 ^ p % 2)]
  else 0

/-- A word of the spill registers. -/
def spillWord (s : State) (off : Nat) : Word :=
  if off = 0 then fields [(0, 18, 8 * chanPages - s.path.spillUsed.length)]
  else if off = 4 then fields [(0, 8, maskOf 8 fun c => chanOpen s c),
    (8, 1, s.path.wrLimited.toNat), (9, 1, s.path.rdLimited.toNat)]
  else 0

/-- A word of an account's spill registers. -/
def acctSpillWord (s : State) (d off : Nat) : Word :=
  let x := acctAt s (Fin.ofNat 256 d)
  if off = 0 then fields [(0, 20, sramCells x), (20, 1, x.spilling.toNat), (21, 1, x.atCap.toNat)]
  else if off = 4 then fields [(0, 18, x.pages.length)]
  else if off = 8 then fields [(0, 16, x.spillOn), (16, 16, x.refill)]
  else if off = 0xC then fields [(0, 18, x.maxPages)]
  else if off = 0x10 then fields [(0, 20, x.acctDrop), (20, 1, x.spillEnable.toNat)]
  else 0

/-- A pool stands at or below a mark. -/
def poolsAt (k : SliceId) (b : BufSt) (f : PoolSt → Nat) : Nat := maskOf 5 fun p => decide (sharedFree k.val b p ≤ f (poolAt b p))

/-- A word of the buffer block. -/
def bufWord (s : State) (k : SliceId) (off : Nat) : Word :=
  let b := bufAt s k
  let m := b.misuse
  firstWord [
    tableWord off 0x300004 4 1 (fun _ _ => fields [(0, 5, poolsAt k b fun p => p.pause), (5, 5, poolsAt k b fun p => p.drop),
      (10, 1, b.carvePend.isSome.toNat)]),
    tableWord off 0x300010 4 1 (fun _ _ => m.ptr),
    tableWord off 0x300014 4 1 (fun _ _ => fields [(0, 8, m.issuer.toNat), (8, 8, m.holder.toNat), (16, 3, m.kind), (19, 2, m.op),
      (31, 1, m.valid.toNat)]),
    tableWord off 0x300100 0x20 5 (fun p o => poolWord k b p o),
    tableWord off 0x300400 0x40 17 (fun u o => ownerWord s k u o),
    tableWord off 0x300C00 0x10 64 (fun i o => if i % 16 < 8 then prioWord k b (i / 16) (i % 16) o else 0),
    tableWord off 0x302000 0x20 1 (fun _ o => spillWord s o),
    tableWord off 0x303000 0x20 256 (fun d o => acctSpillWord s d o)]

/-! Schedulers (0x40_0000). -/

/-- A word of a node of a port. -/
def nodeWord (s : State) (n : NodeSt) (off : Nat) : Word :=
  if off = 0 then fields [(0, 10, n.weight), (16, 16, n.shaper.rate)]
  else if off = 4 then fields [(0, 24, n.shaper.burst)]
  else if off = 8 then tokenBytes s.now n.shaper
  else 0

/-- A word of a queue of a port. -/
def queueWord (s : State) (q : Nat) (x : EgressQ) (off : Nat) : Word :=
  if off = 0 then fields [(0, 10, if q < 4 then 0 else x.weight), (10, 1, x.timed.toNat), (11, 1, x.dropLate.toNat), (16, 16, x.shaper.rate)]
  else if off = 4 then fields [(0, 24, x.shaper.burst)]
  else if off = 8 then tokenBytes s.now x.shaper
  else fields [(0, 20, x.lateLimit)]

/-- NODE_OF of queues 8k to 8k + 7. -/
def nodeOfWord (x : PortSt) (k : Nat) : Word :=
  fields ((List.range 8).map fun i =>
    let q := 8 * k + i
    (4 * i, 4, if q < 4 then 0xF else x.queues[(Fin.ofNat 32 q)].node))

/-- A word of a port's scheduler. -/
def schPortWord (s : State) (p : PortId) (off : Nat) : Word :=
  let x := portAt s p
  let qs := fun f : QueueId → Bool => whole (maskOf 32 fun q => f (Fin.ofNat 32 q))
  firstWord [
    tableWord off 0 4 1 (fun _ _ => fields [(0, 16, x.shaper.rate), (16, 9, low 9 x.overhead)]),
    tableWord off 4 4 1 (fun _ _ => fields [(0, 24, x.shaper.burst)]),
    tableWord off 8 4 1 (fun _ _ => tokenBytes s.now x.shaper),
    tableWord off 0x10 4 4 (fun k _ => nodeOfWord x k),
    tableWord off 0x20 4 1 (fun _ _ => qs (queueEligible s p)),
    tableWord off 0x24 4 1 (fun _ _ => qs fun q => !x.queues[q].frames.isEmpty),
    tableWord off 0x28 4 1 (fun _ _ => qs fun q => headWaits s x.queues[q]),
    tableWord off 0x80 0x10 8 (fun n o => nodeWord s x.nodes[(Fin.ofNat 8 n)] o),
    tableWord off 0x100 0x10 32 (fun q o => queueWord s q x.queues[(Fin.ofNat 32 q)] o)]

/-- A word of an account's scheduler. -/
def schAcctWord (s : State) (k : SliceId) (d off : Nat) : Word :=
  let a : AccountId := Fin.ofNat 256 d
  let x := acctAt s a
  let cls := fun c => x.classes[(Fin.ofNat 8 c)]
  if workingOf s (acctGroup a) != acctGroup a then 0
  else if off = 0 then fields [(0, 16, x.shaper.rate), (16, 9, low 9 x.overhead)]
  else if off = 4 then fields [(0, 24, x.shaper.burst)]
  else if off = 8 then tokenBytes s.now x.shaper
  else if off = 0xC then fields [(0, 8, maskOf 8 fun c => classEligible s a k (Fin.ofNat 8 c)),
    (8, 8, maskOf 8 fun c => !classEmpty x (Fin.ofNat 8 c))]
  else if off < 0x50 then
    let c := (off - 0x10) / 8
    if off % 8 = 0 then fields [(0, 10, if c < 2 then 0 else (cls c).weight), (16, 16, (cls c).shaper.rate)]
    else fields [(0, 24, (cls c).shaper.burst)]
  else 0

/-- The slice by which a device-wide word judges what is near: the lowest present slice of the group's lanes, or slice 0. -/
def acctSlice (s : State) (d : Nat) : SliceId :=
  match groupLanes s (servingGroup s (acctGroup (Fin.ofNat 256 d))) with
  | l :: _ => laneSlice l
  | [] => 0

/-- A word of the scheduler block. -/
def schWord (s : State) (k : SliceId) (off : Nat) : Word :=
  firstWord [
    tableWord off 0x400000 4 1 (fun _ _ => fields [(0, 4, maskOf 4 fun j => (portAt s (hostNo k j)).treePend.isSome)]),
    tableWord off 0x401000 0x400 4 (fun j o => schPortWord s (hostNo k j) o),
    tableWord off 0x404000 0x80 256 (fun d o => schAcctWord s (acctSlice s d) d o)]

/-! Cipher (0x50_0000). -/

/-- Encoding of a half's state. -/
def HalfState.code : HalfState → Nat
  | .empty => 0
  | .loaded => 1
  | .retired => 2

/-- A word of a key slot. -/
def slotWord (s : State) (n off : Nat) : Word :=
  let k := slotAt s n
  let h := fun i : Half => k.halves[i]
  if off = 0 then fields [(0, 1, k.current.val), (1, 2, (h 0).state.code), (3, 2, (h 1).state.code), (5, 1, (h 0).aes256.toNat),
    (6, 1, (h 1).aes256.toNat), (7, 1, k.down.toNat), (8, 3, k.manager), (11, 1, k.erasing.toNat), (12, 1, k.switch.isSome.toNat),
    (13, 1, k.stall.toNat)]
  else if off = 8 then (match k.switch with
    | some w => whole w.fn
    | none => 0)
  else if off = 0xC then fields [(0, 9, ((boundAccount s n).map fun a => a.val).getD 0x1FF)]
  else 0

/-- UTIL_STATE of the anchor slice. -/
def utilState (s : State) (k : SliceId) : Nat :=
  if anchorSlice s == some 0 && k == 0 || anchorSlice s == some 1 && k == 1 then
    (match s.crypto.util.running with
     | some j => if !urgentTask j then 1 else if s.crypto.util.suspended.isSome then 3 else 2
     | none => 0)
  else 0

/-- Hold buffer of a decrypt pipe in use, in KB. -/
def holdKb (s : State) (k : SliceId) (pipe : Half) : Nat :=
  ceilDiv (s.crypto.pipes[pipeIndex k pipe].foldl (fun n j => n + j.length) 0) 1024

/-- A word of the cipher block. -/
def cipWord (s : State) (k : SliceId) (off : Nat) : Word :=
  firstWord [
    tableWord off 0x500000 4 1 (fun _ _ => fields [(0, 2, utilState s k), (2, 7, upTo 127 (holdKb s k 0)), (9, 7, upTo 127 (holdKb s k 1))]),
    tableWord off 0x501000 0x10 1024 (fun n o => slotWord s n o)]

end Sys2Proof.Machine
end

