-- ==== Sys2Proof/Machine/RegInfra.lean ====
section
/-!
DEFINITION. Machine/RegInfra.lean: what the read-only and RW registers of the other slice blocks and of the global region return
(the register tables of spec/00_scope.md, spec/02_package_slices_anchor.md and spec/13_time_stamping_ptp.md to
spec/20_pins_hotplug_electrical.md).
-/
namespace Sys2Proof.Machine

/-! Bridges (0x00_0000). -/

/-- A word of the identity and bridge block. -/
def bridgeWord (s : State) (k : SliceId) (off : Nat) : Word :=
  let port := fun (p _ : Nat) =>
    let b := bridgeAt s k.val p
    fields [(0, 3, bridgePeer k.val p), (3, 1, (bridgeWired s k.val p).toNat), (4, 1, b.up.toNat), (5, 1, b.loop.toNat)]
  let route := fun (d _ : Nat) =>
    let r := s.bridge.routes[k][(Fin.ofNat 8 d)]
    fields [(0, 2, (r.primary.map fun p => p.val).getD 3), (2, 2, (r.alternate.map fun p => p.val).getD 3), (4, 1, r.altActive.toNat),
      (5, 1, r.unreachable.toNat)]
  firstWord [tableWord off 0x40 4 3 port, tableWord off 0x100 4 8 route]

/-! Serial lanes (0x70_0000). -/

/-- Encoding of a lane's power. -/
def LanePower.code : LanePower → Nat
  | .run => 0
  | .shallow => 1
  | .deep => 2
  | .off => 3

/-- Encoding of a loop (R424). -/
def LoopKind.code : LoopKind → Nat
  | .none => 0
  | .nes => 1
  | .nep => 2
  | .fes => 3
  | .mac => 4
  | .trunkFrame => 5
  | .fabricCell => 6
  | .bridge => 7

/-- A line lane whose modem reports signal. -/
def laneSignal (s : State) (n : LaneNo) : Bool :=
  match noLine n with
  | some l => !s.pins.llos[l]
  | none => false

/-- A direction of a lane that is under LPI is in SHALLOW (R422). -/
def shownPower (p : LanePower) (lpi : Bool) : LanePower := if p == .run && lpi then .shallow else p

/-- LPI received on a lane: by its port, or by its fabric link. -/
def lpiHeard (s : State) (n : LaneNo) : Bool :=
  match noHost n, noFab n with
  | some h, _ => (portAt s (lanePort s h)).lpiRx
  | _, some f => (fabAt s f).lpiRx
  | _, _ => false

/-- LPI sent on a fabric lane; a host lane holds its transmit power itself. -/
def lpiSent (s : State) (n : LaneNo) : Bool :=
  match noFab n with
  | some f => (fabAt s f).lpiTx
  | none => false

/-- A word of a serial lane. -/
def serialWord (s : State) (n : LaneNo) (off : Nat) : Word :=
  let x := serialAt s n
  let tap := fun i => low 8 (x.eq.taps.getD i 0)
  if !laneExists s n then 0
  else if off = 0 then fields [(0, 1, s.serdes.cdrLock[n].toNat), (1, 1, (laneSignal s n).toNat), (2, 2, (if serviceOff s n then LanePower.off else shownPower x.tx (lpiSent s n)).code),
    (4, 2, (if serviceOff s n then LanePower.off else shownPower x.rx (lpiHeard s n)).code),
    (6, 1, (natBit x.eq.flags 0).toNat), (7, 1, (natBit x.eq.flags 1).toNat), (8, 3, x.loop.code),
    (11, 1, ((noLine n).isSome && x.emit).toNat), (12, 2, x.gen), (14, 2, x.chk), (16, 1, x.chkLock.toNat), (17, 1, (x.eqSource == 2).toNat)]
  else if off = 8 then fields [(0, 8, tap 0), (8, 8, tap 1), (16, 8, tap 2), (24, 8, tap 3)]
  else if off = 0xC then fields [(0, 8, tap 4), (8, 5, x.eq.ctle)]
  else if off = 0x10 then fields [(0, 16, (x.loopEnd.map fun t => upTo 65535 (ceilDiv (t - s.now) secTicks)).getD 0)]
  else 0

/-- A word of the lane block. -/
def lneWord (s : State) (k : SliceId) (off : Nat) : Word :=
  firstWord [
    tableWord off 0x700000 4 1 (fun _ _ => fields [(0, 1, s.serdes.srcDefaults.toNat)]),
    tableWord off 0x701000 0x100 11 (fun i o => serialWord s (Fin.ofNat 88 (11 * k.val + i)) o)]

/-! Fabric (0x80_0000). -/

/-- Encoding of ADJ. -/
def Adj.code : Adj → Nat
  | .down => 0
  | .init => 1
  | .twoWay => 2
  | .full => 3

/-- Devices reachable, this one included, while the fabric runs. -/
def fabDevices (s : State) : Nat :=
  if s.fabric.stopped then 0 else 1 + ((List.range 64).filter fun a => a != s.fabric.address && fabReachable s a).length

/-- A word of the device-wide fabric registers. -/
def fabWord (s : State) (off : Nat) : Word :=
  let f := s.fabric
  if off = 0 then fields [(0, 6, f.address), (6, 1, (f.setting == 0).toNat), (7, 1, (isRoot s).toNat), (8, 1, f.stopped.toNat),
    (9, 7, fabDevices s), (16, 16, maskOf 16 fun l => f.lanes[(Fin.ofNat 16 l)].enabled)]
  else if off = 8 then f.root.extractLsb' 0 32
  else if off = 0xC then f.root.extractLsb' 32 32
  else if off = 0x10 then fields [(0, 4, f.ttl), (4, 1, f.lpi.toNat), (5, 16, f.prioClass.toNat)]
  else 0

/-- A word of a fabric lane. -/
def fabLaneWord (s : State) (l : FabLane) (off : Nat) : Word :=
  let y := s.fabric.lanes[l]
  if off = 0 then fields [(0, 2, y.adj.code), (2, 1, y.aligned.toNat), (3, 1, y.heldHigh.toNat), (4, 1, y.heldNormal.toNat),
    (5, 1, y.xoffSent.toNat), (6, 1, y.lpiTx.toNat), (7, 6, y.neighAddr), (13, 4, y.neighLane), (17, 3, y.cause)]
  else if off = 8 then y.neighId.extractLsb' 0 32
  else if off = 0xC then y.neighId.extractLsb' 32 32
  else if off = 0x10 then fields [(0, 16, y.cost)]
  else 0

/-- A word of the fabric block. -/
def fabricWord (s : State) (k : SliceId) (off : Nat) : Word :=
  let route := fun (a o : Nat) =>
    let e := s.fabric.routes[(Fin.ofNat 64 a)]
    if o = 0 then fields [(0, 16, e.primary.toNat), (16, 16, e.alternate.toNat)]
    else fields [(0, 1, (fabReachable s a).toNat), (1, 1, e.altActive.toNat)]
  firstWord [
    tableWord off 0x800000 0x20 1 (fun _ o => fabWord s o),
    tableWord off 0x801000 0x100 2 (fun i o => fabLaneWord s (Fin.ofNat 16 (2 * k.val + i)) o),
    tableWord off 0x802000 8 64 route]

/-! Power and clocks (0xA0_0000). -/

/-- A clock domain's word. -/
def domainWord (s : State) (k : SliceId) (d : Fin 8) : Word :=
  let x := (pwAt s k).domains[d]
  if d == 7 then 0
  else if domainExists s k d then fields [(0, 3, x.source), (3, 3, x.fallback), (6, 1, (fallbackReady s k d).toNat), (7, 1, x.stopped.toNat)]
  else fields [(0, 3, 7), (3, 3, 7)]

/-- A word of the power and clock block. -/
def pwrWord (s : State) (k : SliceId) (off : Nat) : Word :=
  let p := pwAt s k
  let meter := fun (i _ : Nat) =>
    let m := p.meters[(Fin.ofNat 8 i)]
    fields [(0, 3, m.st.code), (16, 16, low 16 m.ppm)]
  firstWord [
    tableWord off 0xA00000 4 1 (fun _ _ => fields [(0, 3, s.power.st[k].code), (3, 2, p.levelReq), (5, 2, p.level), (7, 1, p.capped.toNat),
      (8, 1, p.unconfirmed.toNat), (9, 3, p.lastReset)]),
    tableWord off 0xA00008 4 1 (fun _ _ => fields [(0, 10, p.idleTime)]),
    tableWord off 0xA0000C 4 1 (fun _ _ => fields [(0, 16, p.drowseTime), (16, 16, p.dormantTime)]),
    tableWord off 0xA00100 4 8 (fun d _ => domainWord s k (Fin.ofNat 8 d)),
    tableWord off 0xA00200 4 8 meter]

/-! HBM (0xB0_0000), slices 0 and 1 only. -/

/-- Encoding of CH_STATE. -/
def ChState.code : ChState → Nat
  | .reset => 0
  | .training => 1
  | .directed => 2
  | .service => 3
  | .retrain => 4
  | .selfRefresh => 5
  | .frozen => 6

/-- A word of a channel. -/
def chanWord (x : HbmChan) (off : Nat) : Word :=
  if off = 0 then fields [(0, 3, x.st.code), (3, 1, x.srEntering.toNat), (4, 2, x.cause), (6, 1, x.histValid.toNat)]
  else if off = 8 then fields [(0, 31, x.faultAddr)]
  else if off = 0xC then fields [(0, 8, x.faultReq)]
  else 0

/-- A word of the HBM block. -/
def hbmWord (s : State) (k : SliceId) (off : Nat) : Word :=
  if h : k.val < 2 then
    let i : Half := ⟨k.val, h⟩
    firstWord [
      tableWord off 0xB00000 4 1 (fun _ _ => fields [(0, 8, s.hbm.tempC[i]), (8, 1, s.hbm.ref2x[i].toNat), (9, 1, s.hbm.stale[i].toNat)]),
      tableWord off 0xB00008 4 1 (fun _ _ => fields [(0, 8, s.hbm.srMask.toNat), (16, 16, s.hbm.srIdle)]),
      tableWord off 0xB01000 0x100 4 (fun c o => chanWord (chanAt s (Fin.ofNat 8 (4 * k.val + c))) o)]
  else 0

/-- A word of slice k's region that has no behaviour of its own, by its block (R458). -/
def sliceWord (s : State) (k : SliceId) (off : Nat) : Word :=
  match off / 0x100000 with
  | 0 => bridgeWord s k off
  | 1 => macWord s k off
  | 2 => clsWord s k off
  | 3 => bufWord s k off
  | 4 => schWord s k off
  | 5 => cipWord s k off
  | 6 => trunkWord s k off
  | 7 => lneWord s k off
  | 8 => fabricWord s k off
  | 10 => pwrWord s k off
  | 11 => hbmWord s k off
  | _ => 0

/-! The global region. -/

/-- MGT_DEV_ID: part, slices and revision B0 (R4, R5). -/
def devIdWord (s : State) : Word := fields [(0, 16, partDevice s.part), (16, 4, s.part.slices), (20, 4, 1)]

/-- Encoding of an anchor state. -/
def AnchorSt.code : AnchorSt → Nat
  | .reset => 0
  | .deputy => 1
  | .elect => 2
  | .anchor => 3
  | .abstain => 4
  | .faulted => 5

/-- The anchor register at 0x0003_0000, as slice h answers it. -/
def anchorWord (s : State) (h : Half) : Word :=
  fields [(0, 3, (capAt s 0).st.code), (3, 3, (capAt s 1).st.code), (6, 1, h.val), (7, 1, s.anchor.pref.val),
    (8, 1, (lineLow s).toNat), (9, 1, (peerPath s).toNat), (10, 1, s.anchor.mirrorSync.toNat), (11, 1, s.anchor.mirrorStale.toNat)]

/-- SLICE_STATES and STANDBY. -/
def slicesWord (s : State) : Word :=
  fields (((List.finRange 8).map fun k => (3 * k.val, 3, if present s k.val then s.power.st[k].code else 7)) ++ [(24, 1, s.power.standby.toNat)])

/-- Identity, firmware, reset and board words. -/
def idWord (s : State) (off : Nat) : Word :=
  if off = 0 then devIdWord s
  else if off = 8 then s.serial.extractLsb' 0 32
  else if off = 0xC then s.serial.extractLsb' 32 32
  else if off = 0x20 then s.regs.roWriteAddr
  else if off = 0x100 then fields [(0, 1, (activeBank s).val), (1, 2, s.fw.stageSt), (3, 3, actStep s), (6, 1, s.fw.darkroom.toNat),
    (7, 3, s.fw.drCause), (10, 6, s.fw.svnFloor)]
  else if off = 0x104 then s.fw.running.mgt.version
  else if off = 0x10C then s.fw.ckSeq
  else if off = 0x120 then fields [(0, 2, s.power.resetCause)]
  else if off = 0x124 then slicesWord s
  else if off = 0x128 then fields [(0, 1, s.pins.prsnt.toNat), (1, 1, (thermTrip s).toNat), (2, 3, s.pins.smbAddr), (5, 1, s.pins.recover.toNat)]
  else 0

/-- Encoding of MBOX_STATE. -/
def MboxSt.code : MboxSt → Nat
  | .idle => 0
  | .pending => 1
  | .running => 2
  | .done => 3

/-- A word of the mailbox areas: request areas read 0 (WO), response areas their bytes (R460). -/
def areaWord (s : State) (off : Nat) : Word :=
  let m := (off - 0x10000) / 0x2000
  let o := (off - 0x10000) % 0x2000
  if o < 0x1000 then 0
  else if (boxAt s (Fin.ofNat 9 m)).st == .idle then 0
  else whole (leAt (responseBytes (boxAt s (Fin.ofNat 9 m)).resp) (o - 0x1000) 4)

/-- Function state. -/
def funcWord (s : State) : Word :=
  fields [(0, 4, maskOf 4 fun g => (groupAt s (groupNo g)).stopped), (4, 8, maskOf 8 fun k => present s k && s.path.portsStopped[(Fin.ofNat 8 k)]),
    (12, 8, maskOf 8 fun k => s.path.schedStopped[(Fin.ofNat 8 k)]), (20, 8, maskOf 8 fun k => (bufAt s (Fin.ofNat 8 k)).stopped),
    (28, 1, s.fabric.stopped.toNat)]

/-- A word of a vector's MSI-X entry: address, data and mask bit. -/
def msixWord (x : Vec) (off : Nat) : Word :=
  if off = 0 then x.addr.extractLsb' 0 32
  else if off = 4 then x.addr.extractLsb' 32 32
  else if off = 8 then x.data
  else fields [(0, 1, x.masked.toNat)]

/-- SEQ of the newest contact-sheet record; 0 before the first. -/
def newestSeq (s : State) : Word := if s.ev.nextSeq = 0 then 0 else s.ev.nextSeq - 1

/-- A word of mailbox control, function state, event queue and vectors. -/
def ctlWord (s : State) (off : Nat) : Word :=
  let q := s.ev.evq
  let vec := fun v : Nat => s.ev.vecs[(Fin.ofNat 64 v)]
  firstWord [
    tableWord off 0x20000 0x10 9 (fun m o =>
      let b := boxAt s (Fin.ofNat 9 m)
      if o = 4 then fields [(0, 2, b.st.code)] else if o = 8 then b.req.seq else 0),
    tableWord off 0x200C0 4 1 (fun _ _ => funcWord s),
    tableWord off 0x20100 4 1 (fun _ _ => fields [(0, 16, q.prod), (16, 1, q.enabled.toNat), (17, 3, q.minSev)]),
    tableWord off 0x20108 4 1 (fun _ _ => fields [(0, 16, q.consSeen)]),
    tableWord off 0x20110 4 1 (fun _ _ => newestSeq s),
    tableWord off 0x20400 4 64 (fun v _ => fields [(0, 8, (vec v).count), (8, 14, (vec v).delay)]),
    tableWord off 0x28000 0x10 64 (fun v o => msixWord (vec v) o),
    tableWord off 0x29000 4 2 (fun i _ => whole (maskOf 32 fun b => (vec (32 * i + b)).pba))]

/-- A word of the anchor page. -/
def anchorPageWord (s : State) (off : Nat) : Word :=
  if off = 0x30000 then anchorWord s (anchorOr0 s)
  else if 0x30040 ≤ off ∧ off < 0x30064 then (boxAt s (Fin.ofNat 9 ((off - 0x30040) / 4))).mirrorSeq
  else 0

/-- A word of the time page (offset from 0x0004_0000). -/
def timeWord (s : State) (off : Nat) : Word :=
  let t := s.time
  let jump := t.latches[t.jumpGroup].isSome
  let g := timeGroup s
  if off = 0x04 then fields [(0, 16, fld t.hold 0 16)]
  else if off = 0x08 then t.hold.extractLsb' 48 32
  else if off = 0x0C then fields [(0, 16, fld t.hold 80 16)]
  else if off = 0x10 then fields [(0, 3, timeState s), (3, 1, t.host.toNat), (4, 1, t.src.isNone.toNat), (5, 1, t.stopped.toNat),
    (6, 2, (t.src.map fun p => p.1.val).getD 0), (8, 4, t.stepGen), (12, 1, t.ratioNominal.toNat)]
  else if off = 0x18 then whole t.incTrunk
  else if off = 0x1C then fields [(0, 8, t.incTrunk / 2 ^ 32)]
  else if off = 0x20 then whole t.incXtal
  else if off = 0x24 then fields [(0, 8, t.incXtal / 2 ^ 32)]
  else if off = 0x28 then fields [(0, 27, t.ringPerS)]
  else if off = 0x30 then whole t.gapCount
  else if off = 0x34 then fields [(0, 16, t.gapCount / 2 ^ 32)]
  else if off = 0x38 then fields [(0, 2, t.jumpGroup.val), (2, 1, jump.toNat), (3, 4, maskOf 4 fun i => t.latches[groupNo i].isSome)]
  else if off = 0x3C then t.jumpHead
  else if off = 0x40 then whole (low 32 t.jumpStep)
  else if off = 0x44 then whole (low 64 t.jumpStep / 2 ^ 32)
  else if off = 0x48 then fields [(0, 30, t.jumpLimit)]
  else if off = 0x4C then fields [(0, 1, t.ppsEn.toNat), (1, 1, t.tenMEn.toNat), (2, 1, t.squelch.toNat), (3, 19, t.width)]
  else if off = 0x50 then whole (low 32 t.outDelay)
  else if off = 0x54 then (match g with
    | some i => fields [(0, 16, (groupAt s i).todUtc.toNat), (16, 2, (groupAt s i).todLeap.toNat)]
    | none => 0)
  else if off = 0x58 then t.tcHost
  else if off = 0x5C then fields [(0, 4, maskOf 4 fun i => t.tcTrunk[groupNo i]), (4, 1, t.tcFabric.toNat)]
  else 0

/-- A word of the sensor page. -/
def sensorWord (s : State) (off : Nat) : Word :=
  firstWord [
    tableWord off 0x50000 4 99 (fun i _ => readingAt s i),
    tableWord off 0x50200 8 99 (fun i o => whole (low 32 (if o = 0 then (sensorAt s i).high else (sensorAt s i).low))),
    tableWord off 0x50800 4 4 (fun k _ => whole (maskOf 32 fun b => decide (32 * k + b < 99) && (sensorAt s (32 * k + b)).enabled))]

/-- A word of a management queue. -/
def mgtWord (s : State) (off : Nat) : Word :=
  (tableWord off 0x60000 0x100 8 fun q o =>
    let x := ringAt s (Fin.ofNat 8 q)
    if o = 4 then fields [(0, 12, x.txHead), (12, 1, x.txEnabled.toNat)]
    else if o = 0xC then fields [(0, 12, x.rxHead), (12, 1, x.rxEnabled.toNat)]
    else 0).getD 0

/-- A word of the global region that has no behaviour of its own (R457). -/
def globalWord (s : State) (off : Nat) : Word :=
  match off / 0x10000 with
  | 0 => idWord s off
  | 1 => areaWord s off
  | 2 => ctlWord s off
  | 3 => anchorPageWord s off
  | 4 => timeWord s (off - 0x40000)
  | 5 => sensorWord s off
  | 6 => mgtWord s off
  | _ => 0

end Sys2Proof.Machine
end

