-- ==== Sys2Proof/Machine/Registers.lean ====
section
/-!
DEFINITION. Machine/Registers.lean: accesses to the register window and the reads of the SMBus sideband (R3, R8 to R11, R30 of
spec/00_scope.md and spec/02_package_slices_anchor.md; R372; R457 to R459, R470, R476, R477 and R558 of
spec/17_mailboxes_and_commands.md).
-/
namespace Sys2Proof.Machine

/-! Where an address lies (R457, R458, R558). -/

/-- The slice whose region holds an address, if one does. -/
def addrSlice (addr : Nat) : Option SliceId :=
  if 0x1000000 ≤ addr ∧ addr < 0x9000000 then some (Fin.ofNat 8 (addr / 0x1000000 - 1)) else none

/-- Offset within the region. -/
def addrOff (addr : Nat) : Nat := addr % 0x1000000

/-- The address lies in the region of an absent slice, or beyond the window's regions. -/
def addrAbsent (s : State) (addr : Nat) : Bool :=
  decide (0x9000000 ≤ addr) || (addrSlice addr).any fun k => !present s k.val

/-- A slice whose region cannot be reached: no path from the anchor, or DORMANT or WAKING (R30, R528). -/
def sliceCut (s : State) (k : SliceId) : Bool :=
  !(match anchorSlice s with
    | some h => path s h.val k.val
    | none => false) ||
    s.power.st[k] == .dormant || s.power.st[k] == .waking

/-- The address lies in the region of a present slice that cannot be reached. -/
def addrCut (s : State) (addr : Nat) : Bool := (addrSlice addr).any fun k => present s k.val && sliceCut s k

/-- Runs of words of a slice region that are device-wide: every slice present returns the same (R558). -/
def deviceRuns : List (Nat × Nat) :=
  [(0x601000, 0x601200), (0x603000, 0x603200), (0x604000, 0x604200), (0x604800, 0x604C00), (0x605000, 0x606000),
   (0x607000, 0x607200), (0x607400, 0x607800), (0x302000, 0x302200), (0x303000, 0x305000), (0x404000, 0x41C000),
   (0x501000, 0x505000), (0x800000, 0x800020), (0x802000, 0x802200)]

/-- The word at an offset of a slice region is device-wide. -/
def deviceWide (off : Nat) : Bool := deviceRuns.any fun r => decide (r.1 ≤ off) && decide (off < r.2)

/-- Key of the word at an address of a region. -/
def keyOf (addr : Nat) : Nat :=
  match addrSlice addr with
  | some k => if deviceWide (addrOff addr) then devReg (addrOff addr) else sliceReg k.val (addrOff addr)
  | none => addr

/-! Counters (R10). -/

/-- A table of counters: base, stride, units, counters in a unit. -/
structure CtrTable where
  base : Nat
  stride : Nat
  units : Nat
  count : Nat

/-- The counters of a slice region, but for those of the HBM block. -/
def sliceCounters : List CtrTable :=
  [⟨0x60, 0x20, 2, 3⟩, ⟨0xA0, 0x18, 1, 3⟩, ⟨0x600100, 0x100, 4, 25⟩, ⟨0x601040, 0x80, 4, 8⟩, ⟨0x602100, 0x100, 4, 16⟩,
   ⟨0x603008, 0x80, 4, 1⟩, ⟨0x604800, 0x100, 4, 18⟩, ⟨0x606100, 0x40, 4, 6⟩, ⟨0x607400, 0x100, 4, 8⟩, ⟨0x101100, 0x1000, 4, 27⟩,
   ⟨0x101200, 0x1000, 4, 16⟩, ⟨0x200100, 0x100, 1, 17⟩, ⟨0x301000, 0x100, 1, 22⟩, ⟨0x302100, 0x100, 1, 7⟩, ⟨0x400100, 0x100, 1, 2⟩,
   ⟨0x402000, 0x20, 128, 4⟩, ⟨0x40C000, 0x100, 256, 16⟩, ⟨0x500100, 0x100, 1, 11⟩, ⟨0x701040, 0x100, 11, 7⟩, ⟨0x800100, 0x100, 1, 7⟩,
   ⟨0x801040, 0x100, 2, 7⟩, ⟨0x900100, 0x100, 1, 6⟩, ⟨0xA00400, 0x100, 1, 9⟩]

/-- The counters of the HBM block of slices 0 and 1. -/
def hbmCounters : List CtrTable := [⟨0xB01040, 0x100, 4, 12⟩]

/-- The counters of the global region (R44, R391, R488). -/
def globalCounters : List CtrTable :=
  [⟨0x10, 8, 1, 1⟩, ⟨0x18, 8, 1, 1⟩, ⟨0x28, 8, 1, 1⟩, ⟨0x30, 8, 1, 1⟩, ⟨0x20118, 8, 1, 1⟩, ⟨0x30010, 8, 1, 1⟩, ⟨0x30030, 8, 1, 1⟩,
   ⟨0x40100, 0x100, 1, 3⟩, ⟨0x60080, 0x100, 8, 1⟩]

/-- The offset is a word of a counter of the table. -/
def inTable (off : Nat) (t : CtrTable) : Bool :=
  decide (t.base ≤ off) && decide (off < t.base + t.stride * t.units) && decide ((off - t.base) % t.stride < 8 * t.count)

/-- The tables of the region that holds an address. -/
def regionCounters (addr : Nat) : List CtrTable :=
  match addrSlice addr with
  | some k => if k.val < 2 then hbmCounters ++ sliceCounters else sliceCounters
  | none => if addr < 0x1000000 then globalCounters else []

/-- The address of an aligned word of a counter. -/
def isCounter (addr : Nat) : Bool := (regionCounters addr).any (inTable (addrOff addr))

/-- Low words of counters lie at multiples of 8, high words 4 above. -/
def isCounterLow (addr : Nat) : Bool := isCounter addr && addr % 8 == 0
def isCounterHigh (addr : Nat) : Bool := isCounter addr && addr % 8 == 4

/-- A read of a low word: the counter is captured and cleared; events of the same cycle count after the clear (R10). -/
def captureCounter (key arriving : Nat) (s : State) : State :=
  { s with regs := { s.regs with
      hold := sparseSet 0 s.regs.hold key (counterAt s key),
      ctr := sparseSet 0 s.regs.ctr key (arriving % 2 ^ 64) } }

/-- Bits [63:32] of the last capture. -/
def heldHigh (s : State) (key : Nat) : Word := BitVec.ofNat 32 (sparseGet 0 s.regs.hold key / 2 ^ 32)

/-! Sticky flags and their collisions (R476, R477, R558). -/

/-- A table of flag words: base, stride, units, the bits that are flags. -/
structure FlagTable where
  base : Nat
  stride : Nat
  units : Nat
  mask : Word

/-- The flag words of a slice region, but for those of the HBM block. -/
def sliceFlags : List FlagTable :=
  [⟨0x600030, 4, 4, 0x7F⟩, ⟨0x601004, 0x80, 4, 0x3FFF⟩, ⟨0x602008, 0x10, 4, 0xFF⟩, ⟨0x604020, 0x80, 4, 0xFF⟩, ⟨0x606004, 0x10, 4, 0x3FF⟩,
   ⟨0x60700C, 0x80, 4, 0xFF⟩, ⟨0x101004, 0x1000, 4, 0xFF⟩, ⟨0x200004, 4, 1, 0x1FF⟩, ⟨0x300000, 4, 1, 0x3F⟩, ⟨0x302008, 4, 1, 0xF⟩,
   ⟨0x400004, 4, 1, 0xF⟩, ⟨0x501004, 0x10, 1024, 0x7F⟩, ⟨0x700004, 4, 1, 0x3⟩, ⟨0x701004, 0x100, 11, 0x3F⟩, ⟨0x800004, 4, 1, 0x7F⟩,
   ⟨0x801004, 0x100, 2, 0x3⟩, ⟨0xA00004, 4, 1, 0x1FF⟩]

/-- The flag words of the HBM block of slices 0 and 1. -/
def hbmFlags : List FlagTable := [⟨0xB00004, 4, 1, 0x1⟩, ⟨0xB01004, 0x100, 4, 0x1F⟩]

/-- The flag words of the global region. -/
def globalFlags : List FlagTable :=
  [⟨0x108, 4, 1, 0x3F⟩, ⟨0x128, 4, 1, 0xC0⟩, ⟨0x2000C, 0x10, 8, 0x3⟩, ⟨0x2010C, 4, 1, 0x1⟩, ⟨0x30004, 4, 1, 0x3F⟩, ⟨0x30008, 4, 1, 0xFF⟩,
   ⟨0x40014, 4, 1, 0x7F⟩, ⟨0x50810, 4, 3, 0xFFFFFFFF⟩, ⟨0x5081C, 4, 1, 0x7⟩, ⟨0x50820, 4, 3, 0xFFFFFFFF⟩, ⟨0x5082C, 4, 1, 0x7⟩,
   ⟨0x60010, 0x100, 8, 0x1⟩]

/-- The flags of a word of the table. -/
def flagsIn (off : Nat) (t : FlagTable) : Option Word :=
  if t.base ≤ off ∧ off < t.base + t.stride * t.units ∧ (off - t.base) % t.stride = 0 then some t.mask else none

/-- The tables of the region that holds an address. -/
def regionFlags (addr : Nat) : List FlagTable :=
  match addrSlice addr with
  | some k => if k.val < 2 then hbmFlags ++ sliceFlags else sliceFlags
  | none => if addr < 0x1000000 then globalFlags else []

/-- The W1C bits of the word at an address; 0 where it holds none. -/
def w1cMask (addr : Nat) : Word := ((regionFlags addr).findSome? (flagsIn (addrOff addr))).getD 0

/-- One collision of a flag of the word at a key: the set wins, and it is counted and recorded. -/
def collide (key bit : Nat) (s : State) : State :=
  let s1 := putFlags key (flagWord s key ||| BitVec.ofNat 32 (2 ^ bit)) s
  let s2 := { s1 with regs := { s1.regs with coll := sparseMod 0 s1.regs.coll key fun n => min 255 (n + 1) } }
  let s3 := count1 aCollisions s2
  writeRecord (flagRecord s3 key (2 ^ bit) true) s3

/-- A host write of `value` to a flag word in a cycle in which hardware sets `hwSet`: bit by bit, a set that meets a clear is a
collision, a clear alone clears, a set alone sets (R476, R477). -/
def w1cBit (key : Nat) (value hwSet : Word) (bit : Nat) (s : State) : State :=
  if hwSet.getLsbD bit then (if value.getLsbD bit then collide key bit s else setFlag key bit s)
  else if value.getLsbD bit then putFlags key (flagWord s key &&& ~~~(BitVec.ofNat 32 (2 ^ bit))) s
  else s

/-- The write over every flag of the word. -/
def w1cWrite (addr : Nat) (value hwSet : Word) (s : State) : State :=
  foldS ((List.range 32).filter fun b => (w1cMask addr).getLsbD b) (w1cBit (keyOf addr) value hwSet) s

/-- Collision counters lie from 0xC0_0000 of a region. -/
def isCollision (addr : Nat) : Bool := decide (0xC00000 ≤ addrOff addr) && decide (addr < 0x9000000)

/-- Address of register `i` of the four whose counters a word holds. -/
def collidedAddr (addr i : Nat) : Nat := addr - addrOff addr + ((addrOff addr - 0xC00000) / 4 * 16 + 4 * i)

/-- The collision counter of the register at an address. -/
def collisionAt (s : State) (addr : Nat) : Nat := sparseGet 0 s.regs.coll (keyOf addr)

/-- The four counters of a word. -/
def collisionWord (s : State) (addr : Nat) : Word :=
  BitVec.ofNat 32 ((List.range 4).foldl (fun n i => n + collisionAt s (collidedAddr addr i) * 256 ^ i) 0)

/-- All four are cleared; a collision of the same cycle counts after the clear. -/
def clearCollisions (addr : Nat) (hwSet : Word) (s : State) : State :=
  foldS (List.range 4) (fun i st =>
    { st with regs := { st.regs with coll := sparseSet 0 st.regs.coll (keyOf (collidedAddr addr i)) (if fld hwSet (8 * i) 8 = 0 then 0 else 1) } }) s

/-! Reads (R3, R8, R9, R30, R457, R459). -/

/-- A read of TIME_NS captures the counter (R372). -/
def captureTime (s : State) : State :=
  { s with time := { s.time with hold := s.time.sec ++ BitVec.ofNat 32 s.time.ns ++ BitVec.ofNat 16 (s.time.frac / 2 ^ 16) } }

/-- A read of RNG_LANE_TRX_LO latches the high word of the lane's last stamp (R62). -/
def latchTrx (l : Lane) (s : State) : State := modLane s l fun x => { x with trxLatch := x.trxLast.extractLsb' 32 22 }

/-- The lane whose RNG_LANE_TRX_LO lies at an address. -/
def trxLane (addr : Nat) : Option Lane :=
  match addrSlice addr with
  | some k => ([0, 1, 2, 3].find? fun j => addrOff addr == 0x600060 + 8 * j).map fun j => lineNo k j
  | none => none

/-- The value of a word without read effects: its fields with its sticky flags. -/
def plainWord (s : State) (addr : Nat) : Word :=
  (match addrSlice addr with
   | some k => sliceWord s k (addrOff addr)
   | none => globalWord s addr) ||| (flagWord s (keyOf addr) &&& w1cMask addr)

/-- An aligned read of a 32-bit word: what it returns and its effects.  `arriving` events of a counter and the collisions
`hwSet` fall in the same cycle. -/
def readWord (addr arriving : Nat) (hwSet : Word) (s : State) : Word × State :=
  if addrAbsent s addr then (0, s)
  else if addrCut s addr then (0xFFFFFFFF, count1 aUnreach s)
  else if isCollision addr then (collisionWord s addr, clearCollisions addr hwSet s)
  else if isCounterLow addr then (BitVec.ofNat 32 (counterAt s (keyOf addr)), captureCounter (keyOf addr) arriving s)
  else if isCounterHigh addr then (heldHigh s (keyOf (addr - 4)), s)
  else if addr = 0x40000 then (BitVec.ofNat 32 s.time.ns, captureTime s)
  else match trxLane addr with
    | some l => (plainWord s addr, latchTrx l s)
    | none => (plainWord s addr, s)

/-- What the host has read. -/
def returned (v : Wide) (s : State) : State := { s with env := { s.env with readData := v } }

/-- A read whose word is returned to the host. -/
def hostRead (addr arriving : Nat) (hwSet : Word) (s : State) : State :=
  let r := readWord addr arriving hwSet s
  returned (r.1.setWidth 64) r.2

/-! Writes (R3, R8, R30, R459, R460, R462). -/

/-- A write to read-only space is ignored and counted. -/
def roWrite (addr : Nat) (s : State) : State :=
  let s1 := count1 aRoWrites s
  { s1 with regs := { s1.regs with roWriteAddr := BitVec.ofNat 32 addr } }

/-- The control register of a mailbox at its doorbell: ABORT wins over RING (R462). -/
def writeControl (m : MboxId) (value : Word) (s : State) : State :=
  if value.getLsbD 1 then abortEffect m s else if value.getLsbD 0 then ringEffect m s else s

/-- A write of an MSI-X table entry: address, data, or the mask bit of vector control (R482). -/
def writeMsix (v : VectorId) (off : Nat) (value : Word) (s : State) : State :=
  modVec s v fun x =>
    if off = 0 then { x with addr := x.addr.extractLsb' 32 32 ++ value }
    else if off = 4 then { x with addr := value ++ x.addr.extractLsb' 0 32 }
    else if off = 8 then { x with data := value }
    else if value.getLsbD 0 then { x with masked := true }
    else unmasked x

/-- A write of a word of the mailbox areas. -/
def writeArea (addr : Nat) (value : Word) (s : State) : State :=
  let o := (addr - 0x10000) % 0x2000
  if o < 0x1000 then requestAreaWriteEffect (Fin.ofNat 9 ((addr - 0x10000) / 0x2000)) o (toLe 4 value.toNat) s else roWrite addr s

/-- A write of a word of the global region that is no flag word. -/
def writeGlobal (addr : Nat) (value : Word) (s : State) : State :=
  if 0x10000 ≤ addr ∧ addr < 0x20000 then writeArea addr value s
  else if 0x20000 ≤ addr ∧ addr < 0x20080 ∧ addr % 16 = 0 then writeControl (Fin.ofNat 9 ((addr - 0x20000) / 16)) value s
  else if addr = 0x20104 then evqConsWriteEffect (value.toNat % 65536) s
  else if 0x28000 ≤ addr ∧ addr < 0x28400 then writeMsix (Fin.ofNat 64 ((addr - 0x28000) / 16)) (addr % 16) value s
  else if 0x29000 ≤ addr ∧ addr < 0x29008 then s
  else if 0x60000 ≤ addr ∧ addr < 0x60800 ∧ addr % 256 = 0 then txqTailWriteEffect (Fin.ofNat 8 ((addr - 0x60000) / 256)) (value.toNat % 4096) s
  else if 0x60000 ≤ addr ∧ addr < 0x60800 ∧ addr % 256 = 8 then rxqTailWriteEffect (Fin.ofNat 8 ((addr - 0x60000) / 256)) (value.toNat % 4096) s
  else roWrite addr s

/-- An aligned 32-bit write (R8). DESIGN CHOICE (log 140): a word that holds W1C or WO fields beside RO or reserved bits takes the
W1C or WO effect only, and the write is never counted as one to read-only space, also where it sets RO bits. -/
def writeWord (addr : Nat) (value : Word) (s : State) : State :=
  if addrAbsent s addr then roWrite addr s
  else if addrCut s addr then count1 aUnreach s
  else if w1cMask addr ≠ 0 then w1cWrite addr value 0 s
  else if addr < 0x1000000 then writeGlobal addr value s
  else roWrite addr s

/-! REGISTER_WRITE (R8) and UNALIGNED_ACCESS (R459). -/

def registerWriteGuard (addr : Nat) (_ : Word) (_ : State) : Bool := addr % 4 == 0

def registerWriteEffect (addr : Nat) (value : Word) (s : State) : State := writeWord addr value s

def execRegisterWrite (addr : Nat) (value : Word) (s : State) : Host.Outcome State Fault Refusal :=
  .next (whenB (registerWriteGuard addr value s) (registerWriteEffect addr value) s)

/-- A read within one word that is aligned to its own width, or an aligned 64-bit read (R459). -/
def wellAligned (addr width : Nat) : Bool := (width == 1 || width == 2 || width == 4 || width == 8) && addr % width == 0

/-- A read of 1 to 8 bytes aligned to its width: the bytes of the containing word with its effects, or low word then high. -/
def alignedRead (addr width : Nat) (s : State) : State :=
  let r := readWord (addr - addr % 4) 0 0 s
  if width = 8 then
    let q := readWord (addr + 4) 0 0 r.2
    returned (q.1 ++ r.1) q.2
  else returned (((r.1 >>> (8 * (addr % 4))) &&& BitVec.ofNat 32 (2 ^ (8 * width) - 1)).setWidth 64) r.2

/-- Space whose writes of any width take effect as written, or follow another rule than R8: request areas, MSI-X table, PBA. -/
def anyWidth (addr : Nat) : Bool :=
  (decide (0x10000 ≤ addr) && decide (addr < 0x20000) && decide ((addr - 0x10000) % 0x2000 < 0x1000)) ||
    (decide (0x28000 ≤ addr) && decide (addr < 0x28400)) || (decide (0x29000 ≤ addr) && decide (addr < 0x29008))

/-- The access is not a single aligned 32-bit access, and no write of the areas that take any width. -/
def unalignedAccessGuard (addr width : Nat) (write : Bool) (_ : State) : Bool :=
  !(width == 4 && addr % 4 == 0) && !(write && (anyWidth addr || (width == 8 && addr % 8 == 0)))

/-- A write is ignored and counted; a read that is aligned to its width reads, any other returns zeros with no effects. -/
def unalignedAccessEffect (addr width : Nat) (write : Bool) (s : State) : State :=
  if write then roWrite addr s else if wellAligned addr width then alignedRead addr width s else returned 0 s

def execUnalignedAccess (addr width : Nat) (write : Bool) (s : State) : Host.Outcome State Fault Refusal :=
  .next (whenB (unalignedAccessGuard addr width write s) (unalignedAccessEffect addr width write) s)

/-! W1C_CLEAR (R476) and COLLISION_COUNTER_READ. -/

/-- The address holds flags, and its region can be reached. -/
def w1cClearGuard (addr : Nat) (_ _ : Word) (s : State) : Bool := w1cMask addr != 0 && !addrAbsent s addr && !addrCut s addr

def w1cClearEffect (addr : Nat) (value hwSet : Word) (s : State) : State := w1cWrite addr value hwSet s

def execW1cClear (addr : Nat) (value hwSet : Word) (s : State) : Host.Outcome State Fault Refusal :=
  .next (whenB (w1cClearGuard addr value hwSet s) (w1cClearEffect addr value hwSet) s)

def collisionCounterReadGuard (addr : Nat) (_ : Word) (_ : State) : Bool := isCollision addr && addr % 4 == 0

def collisionCounterReadEffect (addr : Nat) (hwSet : Word) (s : State) : State := hostRead addr 0 hwSet s

def execCollisionCounterRead (addr : Nat) (hwSet : Word) (s : State) : Host.Outcome State Fault Refusal :=
  .next (whenB (collisionCounterReadGuard addr hwSet s) (collisionCounterReadEffect addr hwSet) s)

/-! RC_READ (R8), COUNTER_LOW_READ and COUNTER_HIGH_READ (R10, R11). -/

def rcReadGuard (addr : Nat) (_ : State) : Bool := (isCounter addr || isCollision addr) && addr % 4 == 0

/-- The value is returned and cleared in the same access. -/
def rcReadEffect (addr : Nat) (s : State) : State := hostRead addr 0 0 s

def execRcRead (addr : Nat) (s : State) : Host.Outcome State Fault Refusal := .next (whenB (rcReadGuard addr s) (rcReadEffect addr) s)

def counterLowReadGuard (addr _arriving : Nat) (_ : State) : Bool := isCounterLow addr

def counterLowReadEffect (addr arriving : Nat) (s : State) : State := hostRead addr arriving 0 s

def execCounterLowRead (addr arriving : Nat) (s : State) : Host.Outcome State Fault Refusal :=
  .next (whenB (counterLowReadGuard addr arriving s) (counterLowReadEffect addr arriving) s)

def counterHighReadGuard (addr : Nat) (_ : State) : Bool := isCounterHigh addr

def counterHighReadEffect (addr : Nat) (s : State) : State := hostRead addr 0 0 s

def execCounterHighRead (addr : Nat) (s : State) : Host.Outcome State Fault Refusal :=
  .next (whenB (counterHighReadGuard addr s) (counterHighReadEffect addr) s)

/-! TIME_NS_READ (R372) and RNG_LANE_TRX_LO_READ (R62). -/

def timeNsReadGuard (_ : State) : Bool := true

def timeNsReadEffect (s : State) : State := hostRead 0x40000 0 0 s

def execTimeNsRead (s : State) : Host.Outcome State Fault Refusal := .next (whenB (timeNsReadGuard s) timeNsReadEffect s)

/-- RNG_LANE_TRX_LO of a lane. -/
def trxAddr (l : Lane) : Nat := laneReg l 0x600060 8

def rngLaneTrxLoReadGuard (_ : Lane) (_ : State) : Bool := true

def rngLaneTrxLoReadEffect (lane : Lane) (s : State) : State := hostRead (trxAddr lane) 0 0 s

def execRngLaneTrxLoRead (lane : Lane) (s : State) : Host.Outcome State Fault Refusal :=
  .next (whenB (rngLaneTrxLoReadGuard lane s) (rngLaneTrxLoReadEffect lane) s)

/-! UNREACHABLE_ACCESS (R30). -/

def unreachableAccessGuard (slice : SliceId) (_ : Bool) (s : State) : Bool := present s slice.val && sliceCut s slice

def unreachableAccessEffect (_ : SliceId) (write : Bool) (s : State) : State :=
  let s1 := count1 aUnreach s
  if write then s1 else returned 0xFFFFFFFF s1

def execUnreachableAccess (slice : SliceId) (write : Bool) (s : State) : Host.Outcome State Fault Refusal :=
  .next (whenB (unreachableAccessGuard slice write s) (unreachableAccessEffect slice write) s)

/-! The SMBus codes (R39, R470). -/

def smbusDevIdReadGuard (s : State) : Bool := smbusAnswered s

def smbusDevIdReadEffect (s : State) : State := smbusReply (toLe 4 (devIdWord s).toNat) s

def execSmbusDevIdRead (s : State) : Host.Outcome State Fault Refusal := .next (whenB (smbusDevIdReadGuard s) smbusDevIdReadEffect s)

def smbusAnchorReadGuard (s : State) : Bool := smbusAnswered s

def smbusAnchorReadEffect (s : State) : State := smbusReply (toLe 4 (anchorWord s ((smbusSlice s).getD 0)).toNat) s

def execSmbusAnchorRead (s : State) : Host.Outcome State Fault Refusal := .next (whenB (smbusAnchorReadGuard s) smbusAnchorReadEffect s)

def smbusLogStatusReadGuard (s : State) : Bool := smbusAnswered s

def smbusLogStatusReadEffect (s : State) : State := smbusReply (toLe 4 (newestSeq s).toNat ++ toLe 4 s.ev.errors) s

def execSmbusLogStatusRead (s : State) : Host.Outcome State Fault Refusal :=
  .next (whenB (smbusLogStatusReadGuard s) smbusLogStatusReadEffect s)

def smbusSensorReadGuard (_ : Nat) (s : State) : Bool := smbusAnswered s

/-- The reading of the sensor; an index above 98 names none, and the spec states no result for it (log 13). -/
def smbusReading (s : State) (index : Nat) : Word := if index < 99 then readingAt s index else Config.smbusNoSensor index

def smbusSensorReadEffect (index : Nat) (s : State) : State := smbusReply (toLe 4 (smbusReading s index).toNat) s

def execSmbusSensorRead (index : Nat) (s : State) : Host.Outcome State Fault Refusal :=
  .next (whenB (smbusSensorReadGuard index s) (smbusSensorReadEffect index) s)

/-- The code is none of R470's. -/
def smbusBadCodeGuard (code : Byte) (s : State) : Bool := smbusAnswered s && !([0x01, 0x02, 0x03, 0x10, 0x5A].contains code.toNat)

/-- It is not acknowledged, and counted. -/
def smbusBadCodeEffect (_ : Byte) (s : State) : State := count1 aSmbusBad s

def execSmbusBadCode (code : Byte) (s : State) : Host.Outcome State Fault Refusal :=
  .next (whenB (smbusBadCodeGuard code s) (smbusBadCodeEffect code) s)

end Sys2Proof.Machine
end

