-- ==== Sys2Proof/Machine/Dispatch.lean ====
section
/-!
DEFINITION. Machine/Dispatch.lean: which meaning each command has, one arm per constructor of Instr.
-/
namespace Sys2Proof.Machine

def exec (i : Instr) (s : State) : Host.Outcome State Fault Refusal :=
  match i with
  | .registerWrite addr value => Sys2Proof.Machine.execRegisterWrite addr value s
  | .unalignedAccess addr width write => Sys2Proof.Machine.execUnalignedAccess addr width write s
  | .w1cClear addr value hwSet => Sys2Proof.Machine.execW1cClear addr value hwSet s
  | .rcRead addr => Sys2Proof.Machine.execRcRead addr s
  | .counterLowRead addr arriving => Sys2Proof.Machine.execCounterLowRead addr arriving s
  | .counterHighRead addr => Sys2Proof.Machine.execCounterHighRead addr s
  | .collisionCounterRead addr hwSet => Sys2Proof.Machine.execCollisionCounterRead addr hwSet s
  | .timeNsRead => Sys2Proof.Machine.execTimeNsRead s
  | .rngLaneTrxLoRead lane => Sys2Proof.Machine.execRngLaneTrxLoRead lane s
  | .unreachableAccess slice write => Sys2Proof.Machine.execUnreachableAccess slice write s
  | .trunkGroupSet => Sys2Proof.Machine.execTrunkGroupSet s
  | .flitReceive slice port flit => Sys2Proof.Machine.execFlitReceive slice port flit s
  | .bridgePortDown slice port cause => Sys2Proof.Machine.execBridgePortDown slice port cause s
  | .bridgeRetrain slice port goodFlits => Sys2Proof.Machine.execBridgeRetrain slice port goodFlits s
  | .bridgePortUp slice port => Sys2Proof.Machine.execBridgePortUp slice port s
  | .routeTableInstall slice => Sys2Proof.Machine.execRouteTableInstall slice s
  | .bridgeSeqGapTimeout dst src => Sys2Proof.Machine.execBridgeSeqGapTimeout dst src s
  | .leaseSend => Sys2Proof.Machine.execLeaseSend s
  | .leaseExpiry => Sys2Proof.Machine.execLeaseExpiry s
  | .mirrorResyncComplete => Sys2Proof.Machine.execMirrorResyncComplete s
  | .claimLineFree half high => Sys2Proof.Machine.execClaimLineFree half high s
  | .claimProbe half lowWhileDriving highInWindow => Sys2Proof.Machine.execClaimProbe half lowWhileDriving highInWindow s
  | .electionTimeout half high => Sys2Proof.Machine.execElectionTimeout half high s
  | .anchorFaultReport half => Sys2Proof.Machine.execAnchorFaultReport half s
  | .anchorOwnFault half => Sys2Proof.Machine.execAnchorOwnFault half s
  | .handoverLineRelease half => Sys2Proof.Machine.execHandoverLineRelease half s
  | .peerPathReturn => Sys2Proof.Machine.execPeerPathReturn s
  | .pcieLinkTrained => Sys2Proof.Machine.execPcieLinkTrained s
  | .takeCharge half => Sys2Proof.Machine.execTakeCharge half s
  | .smbusDevIdRead => Sys2Proof.Machine.execSmbusDevIdRead s
  | .smbusAnchorRead => Sys2Proof.Machine.execSmbusAnchorRead s
  | .smbusLogStatusRead => Sys2Proof.Machine.execSmbusLogStatusRead s
  | .smbusSensorRead index => Sys2Proof.Machine.execSmbusSensorRead index s
  | .smbusBadCode code => Sys2Proof.Machine.execSmbusBadCode code s
  | .anchorHandover => Sys2Proof.Machine.execAnchorHandover s
  | .blockLockWindow lane counts => Sys2Proof.Machine.execBlockLockWindow lane counts s
  | .blockLockLost lane llos => Sys2Proof.Machine.execBlockLockLost lane llos s
  | .frameHeaderRx lane rx => Sys2Proof.Machine.execFrameHeaderRx lane rx s
  | .trunkPacketHeaderRx lane word => Sys2Proof.Machine.execTrunkPacketHeaderRx lane word s
  | .reasmTimeout lane portId => Sys2Proof.Machine.execReasmTimeout lane portId s
  | .reasmDiscardExpiry lane portId => Sys2Proof.Machine.execReasmDiscardExpiry lane portId s
  | .settleWindowClose lane portId => Sys2Proof.Machine.execSettleWindowClose lane portId s
  | .portFilterWrite => Sys2Proof.Machine.execPortFilterWrite s
  | .portFilterRead => Sys2Proof.Machine.execPortFilterRead s
  | .oamRxDiscard lane msg => Sys2Proof.Machine.execOamRxDiscard lane msg s
  | .discover lane msg => Sys2Proof.Machine.execDiscover lane msg s
  | .rangeRequest lane msg => Sys2Proof.Machine.execRangeRequest lane msg s
  | .eqdAssign lane msg => Sys2Proof.Machine.execEqdAssign lane msg s
  | .tod lane msg => Sys2Proof.Machine.execTod lane msg s
  | .rangeProvision => Sys2Proof.Machine.execRangeProvision s
  | .announce group start => Sys2Proof.Machine.execAnnounce group start s
  | .responseWaitExpiry group => Sys2Proof.Machine.execResponseWaitExpiry group s
  | .rangeReply lane => Sys2Proof.Machine.execRangeReply lane s
  | .rangeTimeout group => Sys2Proof.Machine.execRangeTimeout group s
  | .applicationInstant group => Sys2Proof.Machine.execApplicationInstant group s
  | .holdoverExpiry group => Sys2Proof.Machine.execHoldoverExpiry group s
  | .todStale group => Sys2Proof.Machine.execTodStale group s
  | .grantMapRx lane body => Sys2Proof.Machine.execGrantMapRx lane body s
  | .grantTableComplete lane => Sys2Proof.Machine.execGrantTableComplete lane s
  | .jumpHoldClear lane => Sys2Proof.Machine.execJumpHoldClear lane s
  | .amend lane msg => Sys2Proof.Machine.execAmend lane msg s
  | .amendApply group => Sys2Proof.Machine.execAmendApply group s
  | .leaderSet lane msg => Sys2Proof.Machine.execLeaderSet lane msg s
  | .burstLaunch lane => Sys2Proof.Machine.execBurstLaunch lane s
  | .burstEndLeave lane => Sys2Proof.Machine.execBurstEndLeave lane s
  | .fillEnd lane => Sys2Proof.Machine.execFillEnd lane s
  | .grantTableRead => Sys2Proof.Machine.execGrantTableRead s
  | .rateUpdate group => Sys2Proof.Machine.execRateUpdate group s
  | .stagingBegin lane epoch start => Sys2Proof.Machine.execStagingBegin lane epoch start s
  | .packetPlace account => Sys2Proof.Machine.execPacketPlace account s
  | .invocationDrawResume slot => Sys2Proof.Machine.execInvocationDrawResume slot s
  | .develop lane epoch start => Sys2Proof.Machine.execDevelop lane epoch start s
  | .rebuildStart lane epoch start => Sys2Proof.Machine.execRebuildStart lane epoch start s
  | .reportPolicy lane msg => Sys2Proof.Machine.execReportPolicy lane msg s
  | .runaheadSet => Sys2Proof.Machine.execRunaheadSet s
  | .accountStop => Sys2Proof.Machine.execAccountStop s
  | .losDeclare lane => Sys2Proof.Machine.execLosDeclare lane s
  | .losClear lane => Sys2Proof.Machine.execLosClear lane s
  | .lofDeclare lane => Sys2Proof.Machine.execLofDeclare lane s
  | .lofClear lane => Sys2Proof.Machine.execLofClear lane s
  | .windowEvaluate lane => Sys2Proof.Machine.execWindowEvaluate lane s
  | .rdi lane msg => Sys2Proof.Machine.execRdi lane msg s
  | .rdiTimeout group => Sys2Proof.Machine.execRdiTimeout group s
  | .rdiPeriodic group => Sys2Proof.Machine.execRdiPeriodic group s
  | .disable lane msg => Sys2Proof.Machine.execDisable lane msg s
  | .disableApply group => Sys2Proof.Machine.execDisableApply group s
  | .enable lane msg => Sys2Proof.Machine.execEnable lane msg s
  | .protectEvaluate group => Sys2Proof.Machine.execProtectEvaluate group s
  | .resteerComplete group => Sys2Proof.Machine.execResteerComplete group s
  | .protectCommand lane msg => Sys2Proof.Machine.execProtectCommand lane msg s
  | .protectStatusSend group => Sys2Proof.Machine.execProtectStatusSend group s
  | .protectStatus src payload => Sys2Proof.Machine.execProtectStatus src payload s
  | .remoteStale group => Sys2Proof.Machine.execRemoteStale group s
  | .protectNotify src payload => Sys2Proof.Machine.execProtectNotify src payload s
  | .notifyResend group => Sys2Proof.Machine.execNotifyResend group s
  | .notifyFail group => Sys2Proof.Machine.execNotifyFail group s
  | .notifyAck src seq => Sys2Proof.Machine.execNotifyAck src seq s
  | .pmSecond group => Sys2Proof.Machine.execPmSecond group s
  | .defectSet => Sys2Proof.Machine.execDefectSet s
  | .protectSet => Sys2Proof.Machine.execProtectSet s
  | .protectRequest => Sys2Proof.Machine.execProtectRequest s
  | .pmRead => Sys2Proof.Machine.execPmRead s
  | .portModeSet => Sys2Proof.Machine.execPortModeSet s
  | .hostFrameRx port frame => Sys2Proof.Machine.execHostFrameRx port frame s
  | .pauseFrameRx port frame => Sys2Proof.Machine.execPauseFrameRx port frame s
  | .pauseExpiry port queue => Sys2Proof.Machine.execPauseExpiry port queue s
  | .pauseStorm port => Sys2Proof.Machine.execPauseStorm port s
  | .pauseStormEnd port => Sys2Proof.Machine.execPauseStormEnd port s
  | .pauseSend port => Sys2Proof.Machine.execPauseSend port s
  | .pauseRefresh port => Sys2Proof.Machine.execPauseRefresh port s
  | .hostFrameTx port => Sys2Proof.Machine.execHostFrameTx port s
  | .portLinkChange port aligned localFault => Sys2Proof.Machine.execPortLinkChange port aligned localFault s
  | .lpiEnter port => Sys2Proof.Machine.execLpiEnter port s
  | .lpiExit port => Sys2Proof.Machine.execLpiExit port s
  | .linkFaultSignalChange port => Sys2Proof.Machine.execLinkFaultSignalChange port s
  | .portSet => Sys2Proof.Machine.execPortSet s
  | .flowControlSet => Sys2Proof.Machine.execFlowControlSet s
  | .eeeSet => Sys2Proof.Machine.execEeeSet s
  | .macFilterWrite => Sys2Proof.Machine.execMacFilterWrite s
  | .macFilterRead => Sys2Proof.Machine.execMacFilterRead s
  | .parseAndClassify slice => Sys2Proof.Machine.execParseAndClassify slice s
  | .recircPass slice => Sys2Proof.Machine.execRecircPass slice s
  | .retirement slice => Sys2Proof.Machine.execRetirement slice s
  | .retireForced slice => Sys2Proof.Machine.execRetireForced slice s
  | .clsSourceSet => Sys2Proof.Machine.execClsSourceSet s
  | .profileSet => Sys2Proof.Machine.execProfileSet s
  | .ruleWrite => Sys2Proof.Machine.execRuleWrite s
  | .ruleRead => Sys2Proof.Machine.execRuleRead s
  | .ruleCommit => Sys2Proof.Machine.execRuleCommit s
  | .tableModeSet => Sys2Proof.Machine.execTableModeSet s
  | .shadowLoadComplete slice => Sys2Proof.Machine.execShadowLoadComplete slice s
  | .spreadSet => Sys2Proof.Machine.execSpreadSet s
  | .mirrorSet => Sys2Proof.Machine.execMirrorSet s
  | .bufferAlloc slice request => Sys2Proof.Machine.execBufferAlloc slice request s
  | .free slice ptr issuer => Sys2Proof.Machine.execFree slice ptr issuer s
  | .handOff slice ptr issuer newOwner count => Sys2Proof.Machine.execHandOff slice ptr issuer newOwner count s
  | .refAdd slice ptr issuer => Sys2Proof.Machine.execRefAdd slice ptr issuer s
  | .refDrop slice ptr issuer => Sys2Proof.Machine.execRefDrop slice ptr issuer s
  | .xrefReclaim slice => Sys2Proof.Machine.execXrefReclaim slice s
  | .spillWriteComplete account => Sys2Proof.Machine.execSpillWriteComplete account s
  | .spillReadback account => Sys2Proof.Machine.execSpillReadback account s
  | .readbackRetry account => Sys2Proof.Machine.execReadbackRetry account s
  | .pageReadComplete account => Sys2Proof.Machine.execPageReadComplete account s
  | .spillRemap chan => Sys2Proof.Machine.execSpillRemap chan s
  | .poolCarve => Sys2Proof.Machine.execPoolCarve s
  | .bufOwnerSet => Sys2Proof.Machine.execBufOwnerSet s
  | .bufPrioSet => Sys2Proof.Machine.execBufPrioSet s
  | .bufPoolSet => Sys2Proof.Machine.execBufPoolSet s
  | .spillSet => Sys2Proof.Machine.execSpillSet s
  | .shaperEligible shaper => Sys2Proof.Machine.execShaperEligible shaper s
  | .overflowWheelMove slice => Sys2Proof.Machine.execOverflowWheelMove slice s
  | .timedLaunchDue port queue => Sys2Proof.Machine.execTimedLaunchDue port queue s
  | .schedSet => Sys2Proof.Machine.execSchedSet s
  | .schedTreeSet => Sys2Proof.Machine.execSchedTreeSet s
  | .policerSet => Sys2Proof.Machine.execPolicerSet s
  | .policerRead => Sys2Proof.Machine.execPolicerRead s
  | .keyDeliver lane msg => Sys2Proof.Machine.execKeyDeliver lane msg s
  | .keyWriteComplete slot => Sys2Proof.Machine.execKeyWriteComplete slot s
  | .keySwitch lane msg => Sys2Proof.Machine.execKeySwitch lane msg s
  | .switchBoundary slot lane => Sys2Proof.Machine.execSwitchBoundary slot lane s
  | .decryptComplete slice pipe => Sys2Proof.Machine.execDecryptComplete slice pipe s
  | .downHalfLifetimeEnd slot half => Sys2Proof.Machine.execDownHalfLifetimeEnd slot half s
  | .keyEraseComplete slot => Sys2Proof.Machine.execKeyEraseComplete slot s
  | .utilityJobArrive job => Sys2Proof.Machine.execUtilityJobArrive job s
  | .utilityJobComplete => Sys2Proof.Machine.execUtilityJobComplete s
  | .keySlotSet => Sys2Proof.Machine.execKeySlotSet s
  | .keyLoad => Sys2Proof.Machine.execKeyLoad s
  | .keyCommit => Sys2Proof.Machine.execKeyCommit s
  | .keyErase => Sys2Proof.Machine.execKeyErase s
  | .keyBind => Sys2Proof.Machine.execKeyBind s
  | .keyStatusRead => Sys2Proof.Machine.execKeyStatusRead s
  | .cipPortFailRead => Sys2Proof.Machine.execCipPortFailRead s
  | .kekSet => Sys2Proof.Machine.execKekSet s
  | .timeSteer => Sys2Proof.Machine.execTimeSteer s
  | .slewEnd => Sys2Proof.Machine.execSlewEnd s
  | .timeCounterRestart => Sys2Proof.Machine.execTimeCounterRestart s
  | .gapEstimate => Sys2Proof.Machine.execGapEstimate s
  | .ringMeasure cycles => Sys2Proof.Machine.execRingMeasure cycles s
  | .timeSet => Sys2Proof.Machine.execTimeSet s
  | .timeJumpAccept => Sys2Proof.Machine.execTimeJumpAccept s
  | .timeOutputSet => Sys2Proof.Machine.execTimeOutputSet s
  | .ptpSet => Sys2Proof.Machine.execPtpSet s
  | .hbmRequest chan request => Sys2Proof.Machine.execHbmRequest chan request s
  | .hbmReadComplete chan ecc => Sys2Proof.Machine.execHbmReadComplete chan ecc s
  | .hbmCaParity chan => Sys2Proof.Machine.execHbmCaParity chan s
  | .hbmServiceEntry chan => Sys2Proof.Machine.execHbmServiceEntry chan s
  | .hbmTempRead temp => Sys2Proof.Machine.execHbmTempRead temp s
  | .hbmTempStale half => Sys2Proof.Machine.execHbmTempStale half s
  | .hbmRefresh chan pc => Sys2Proof.Machine.execHbmRefresh chan pc s
  | .hbmRetrain chan => Sys2Proof.Machine.execHbmRetrain chan s
  | .hbmRetrainEnd chan converged => Sys2Proof.Machine.execHbmRetrainEnd chan converged s
  | .hbmRetrainRetry chan => Sys2Proof.Machine.execHbmRetrainRetry chan s
  | .hbmSrEntry chan => Sys2Proof.Machine.execHbmSrEntry chan s
  | .hbmSrEntryComplete chan => Sys2Proof.Machine.execHbmSrEntryComplete chan s
  | .hbmSrExitComplete chan => Sys2Proof.Machine.execHbmSrExitComplete chan s
  | .hbmChannelRelease => Sys2Proof.Machine.execHbmChannelRelease s
  | .hbmReleaseComplete mbox trained => Sys2Proof.Machine.execHbmReleaseComplete mbox trained s
  | .hbmHistoryRead => Sys2Proof.Machine.execHbmHistoryRead s
  | .hbmSet => Sys2Proof.Machine.execHbmSet s
  | .cdrLockGained lane => Sys2Proof.Machine.execCdrLockGained lane s
  | .cdrLost lane => Sys2Proof.Machine.execCdrLost lane s
  | .deepEntry lane => Sys2Proof.Machine.execDeepEntry lane s
  | .deepEntryComplete lane => Sys2Proof.Machine.execDeepEntryComplete lane s
  | .deepExit lane => Sys2Proof.Machine.execDeepExit lane s
  | .laneEqSet => Sys2Proof.Machine.execLaneEqSet s
  | .laneEqRead => Sys2Proof.Machine.execLaneEqRead s
  | .loopSet => Sys2Proof.Machine.execLoopSet s
  | .loopExpired lane => Sys2Proof.Machine.execLoopExpired lane s
  | .loopBurst lane => Sys2Proof.Machine.execLoopBurst lane s
  | .patternSet => Sys2Proof.Machine.execPatternSet s
  | .chkLock lane => Sys2Proof.Machine.execChkLock lane s
  | .chkLockLost lane symErr bitErr window => Sys2Proof.Machine.execChkLockLost lane symErr bitErr window s
  | .helloSend lane => Sys2Proof.Machine.execHelloSend lane s
  | .hello lane hello => Sys2Proof.Machine.execHello lane hello s
  | .fabricLinkDown lane cause => Sys2Proof.Machine.execFabricLinkDown lane cause s
  | .idleCellSend lane => Sys2Proof.Machine.execIdleCellSend lane s
  | .fabricCellRx lane cell => Sys2Proof.Machine.execFabricCellRx lane cell s
  | .fabSeqHoldExpiry src cls => Sys2Proof.Machine.execFabSeqHoldExpiry src cls s
  | .addrFlood => Sys2Proof.Machine.execAddrFlood s
  | .addr lane addr => Sys2Proof.Machine.execAddr lane addr s
  | .addrHoldExpiry address => Sys2Proof.Machine.execAddrHoldExpiry address s
  | .lsaSend => Sys2Proof.Machine.execLsaSend s
  | .lsa lane lsa => Sys2Proof.Machine.execLsa lane lsa s
  | .lsaExpiry device => Sys2Proof.Machine.execLsaExpiry device s
  | .routeRecompute => Sys2Proof.Machine.execRouteRecompute s
  | .fabLpiEnter lane => Sys2Proof.Machine.execFabLpiEnter lane s
  | .fabricSet => Sys2Proof.Machine.execFabricSet s
  | .fabricRouteRead => Sys2Proof.Machine.execFabricRouteRead s
  | .ring mbox => Sys2Proof.Machine.execRing mbox s
  | .abort mbox ring => Sys2Proof.Machine.execAbort mbox ring s
  | .requestAreaWrite mbox offset data => Sys2Proof.Machine.execRequestAreaWrite mbox offset data s
  | .commandTake => Sys2Proof.Machine.execCommandTake s
  | .serviceRequestRx frame => Sys2Proof.Machine.execServiceRequestRx frame s
  | .fence => Sys2Proof.Machine.execFence s
  | .fenceComplete mbox => Sys2Proof.Machine.execFenceComplete mbox s
  | .drainFence => Sys2Proof.Machine.execDrainFence s
  | .drainFenceComplete mbox => Sys2Proof.Machine.execDrainFenceComplete mbox s
  | .funcStop => Sys2Proof.Machine.execFuncStop s
  | .funcStart => Sys2Proof.Machine.execFuncStart s
  | .eventQueueSet => Sys2Proof.Machine.execEventQueueSet s
  | .eventRouteSet => Sys2Proof.Machine.execEventRouteSet s
  | .mgtQueueSet => Sys2Proof.Machine.execMgtQueueSet s
  | .evqConsWrite value => Sys2Proof.Machine.execEvqConsWrite value s
  | .vectorDelayExpiry vector => Sys2Proof.Machine.execVectorDelayExpiry vector s
  | .msixUnmask vector => Sys2Proof.Machine.execMsixUnmask vector s
  | .txqTailWrite queue value => Sys2Proof.Machine.execTxqTailWrite queue value s
  | .txDescriptorRead queue desc frame => Sys2Proof.Machine.execTxDescriptorRead queue desc frame s
  | .txDescriptorWriteback queue => Sys2Proof.Machine.execTxDescriptorWriteback queue s
  | .rxqTailWrite queue value => Sys2Proof.Machine.execRxqTailWrite queue value s
  | .mgtRxDeliver queue size => Sys2Proof.Machine.execMgtRxDeliver queue size s
  | .sensorSample index reading => Sys2Proof.Machine.execSensorSample index reading s
  | .sensorGet => Sys2Proof.Machine.execSensorGet s
  | .sensorSet => Sys2Proof.Machine.execSensorSet s
  | .checkpoint written => Sys2Proof.Machine.execCheckpoint written s
  | .logRead => Sys2Proof.Machine.execLogRead s
  | .fwStage => Sys2Proof.Machine.execFwStage s
  | .fwActivate => Sys2Proof.Machine.execFwActivate s
  | .activationStep ok => Sys2Proof.Machine.execActivationStep ok s
  | .sliceControllerSwitch slice => Sys2Proof.Machine.execSliceControllerSwitch slice s
  | .fwStatusRead => Sys2Proof.Machine.execFwStatusRead s
  | .fuseRead => Sys2Proof.Machine.execFuseRead s
  | .fwStartTimeout => Sys2Proof.Machine.execFwStartTimeout s
  | .clockStable slice source => Sys2Proof.Machine.execClockStable slice source s
  | .clockStopDetect slice source => Sys2Proof.Machine.execClockStopDetect slice source s
  | .freqWindow slice source ppm ring => Sys2Proof.Machine.execFreqWindow slice source ppm ring s
  | .clockRecover slice source => Sys2Proof.Machine.execClockRecover slice source s
  | .domainRestart slice domain => Sys2Proof.Machine.execDomainRestart slice domain s
  | .dvfsStep slice => Sys2Proof.Machine.execDvfsStep slice s
  | .avsAck slice => Sys2Proof.Machine.execAvsAck slice s
  | .avsTimeout slice => Sys2Proof.Machine.execAvsTimeout slice s
  | .avsPoll slice millivolt => Sys2Proof.Machine.execAvsPoll slice millivolt s
  | .thermalThrottle slice sensor reading => Sys2Proof.Machine.execThermalThrottle slice sensor reading s
  | .thermalCapRelease slice => Sys2Proof.Machine.execThermalCapRelease slice s
  | .thermalShutdown slice sensor reading => Sys2Proof.Machine.execThermalShutdown slice sensor reading s
  | .idleEntry slice => Sys2Proof.Machine.execIdleEntry slice s
  | .idleExit slice => Sys2Proof.Machine.execIdleExit slice s
  | .drowseEntry slice => Sys2Proof.Machine.execDrowseEntry slice s
  | .dormantEntry slice => Sys2Proof.Machine.execDormantEntry slice s
  | .wakeStep slice => Sys2Proof.Machine.execWakeStep slice s
  | .quiesceTimeout slice => Sys2Proof.Machine.execQuiesceTimeout slice s
  | .powerStateSet => Sys2Proof.Machine.execPowerStateSet s
  | .powerStateReached mbox => Sys2Proof.Machine.execPowerStateReached mbox s
  | .dvfsSet => Sys2Proof.Machine.execDvfsSet s
  | .clockStatusRead => Sys2Proof.Machine.execClockStatusRead s
  | .resetIssue => Sys2Proof.Machine.execResetIssue s
  | .resetComplete mbox => Sys2Proof.Machine.execResetComplete mbox s
  | .powerOnReset straps => Sys2Proof.Machine.execPowerOnReset straps s
  | .pinReset straps => Sys2Proof.Machine.execPinReset straps s
  | .sliceReset slice => Sys2Proof.Machine.execSliceReset slice s
  | .quarantineExit slice crossing => Sys2Proof.Machine.execQuarantineExit slice crossing s
  | .removal => Sys2Proof.Machine.execRemoval s
  | .presenceReturn straps => Sys2Proof.Machine.execPresenceReturn straps s
  | .perst => Sys2Proof.Machine.execPerst s
  | .gapSat => Sys2Proof.Machine.execGapSat s
  | .deepExitComplete lane => Sys2Proof.Machine.execDeepExitComplete lane s
  | .fwStageComplete mbox => Sys2Proof.Machine.execFwStageComplete mbox s
  | .logReadComplete mbox => Sys2Proof.Machine.execLogReadComplete mbox s
  | .firmwareReady => Sys2Proof.Machine.execFirmwareReady s
  | .remoteFaultReceived port on => Sys2Proof.Machine.execRemoteFaultReceived port on s
  | .receiveLpi lane on => Sys2Proof.Machine.execReceiveLpi lane on s

end Sys2Proof.Machine
end

