-- ==== Sys2Proof/Machine/Tick.lean ====
section
/-!
DEFINITION. Machine/Tick.lean: what one tick of 1.25 ns does where no command waits (log 1): the counters and integrations that
time alone drives.  Every clock of the device runs at its nominal rate.
-/
namespace Sys2Proof.Machine

/-! Trunk group counters (R102). -/

/-- The counter runs on the recovered clock of a lane in SYNC, or on the XTAL synthesiser. -/
def groupClocked (s : State) (g : GroupId) : Bool := (leadLane s g).isSome || xtalReady s

/-- One tick of a group's counter.  When it wraps, the time of day goes on. -/
def tickGroup (g : GroupId) (s : State) : State :=
  if groupClocked s g then
    modGroup s g fun x => { x with ctr := x.ctr + 64, offset := if x.ctr + 64 < x.ctr then x.offset + (2 ^ 54 * 1280 : Nat) else x.offset }
  else s

/-! The device time counter (R370, R371, R377, R378). -/

/-- Add an increment in 2^-32 ns: FRAC and the residue carry into NS, NS into SEC. -/
def addTime (inc : Nat) (t : TimeAll) : TimeAll :=
  let f := t.frac + inc
  let n := t.ns + f / 2 ^ 32
  { t with frac := f % 2 ^ 32, ns := n % 1000000000, sec := t.sec + BitVec.ofNat 48 (n / 1000000000) }

/-- The ring oscillator of the safelight domain runs: slice 0's meter has not failed it. -/
def ringRuns (s : State) : Bool := (meterOf s 0 3).st != .failed

/-- A new source: the interval between the last edge of the old clock and the first of the new, one tick at nominal rates, is
added in place of an increment. -/
def switchTime (src : Option (GroupId × Lane)) (s : State) : State :=
  setFlag aTimFlags 1 (count1 (aTim 0x08) { s with time := { addTime incNominal s.time with src := src } })

/-- The counter stops: the gap counter starts from 0. -/
def stopTime (s : State) : State :=
  { s with time := { s.time with stopped := true, gap := 0, gapFrac := 0, gapSat := s.time.gapSat || !ringRuns s } }

/-- One ring cycle in 32 ticks at 25 MHz; the gap counter holds at its maximum. -/
def tickGap (s : State) : State :=
  if !ringRuns s then s
  else if s.time.gapFrac + 1 < 32 then { s with time := { s.time with gapFrac := s.time.gapFrac + 1 } }
  else { s with time := { s.time with gapFrac := 0, gap := min gapMax (s.time.gap + 1) } }

/-- One edge of the time clock. -/
def tickTime (s : State) : State :=
  if s.time.stopped then tickGap s
  else if !timeCanRun s then stopTime s
  else if trunkSource s != s.time.src then switchTime (trunkSource s) s
  else { s with time := addTime (if s.time.src.isSome then s.time.incTrunk else s.time.incXtal) s.time }

/-! Line lanes (R77, R144, R182). -/

/-- A block received, a tick of FILL sent, and the integration of LOS. -/
def tickLane (l : Lane) (s : State) : State :=
  let on := (laneGroup s l).isSome
  let s1 := if on && (laneAt s l).blockLock then count1 (aTrk l 0x00) s else s
  let fill : Bool := match (laneAt s l).out with
    | .fill e => !fillOver s l e
    | _ => false
  integrateLos l (if on && fill then count1 (aGnt l 0x78) s1 else s1)

/-! Performance monitoring (R210): a slice of a lane in DROWSE or DORMANT, or the device in STANDBY. -/

def lanesSleep (s : State) (g : GroupId) : Bool :=
  s.power.standby || (groupLanes s g).any fun l => let p := s.power.st[laneSlice l]; p == .drowse || p == .dormant

def tickPm (g : GroupId) (s : State) : State :=
  if groupEnabled s g && lanesSleep s g then modGroup s g fun x => { x with pm := { x.pm with dormantSeen := true } } else s

/-! Slices: the last instant at which the packet path was not empty (R526). -/

def tickSlice (k : SliceId) (s : State) : State :=
  if present s k.val && !pathEmpty s k then modPw s k fun p => { p with busyAt := s.now } else s

/-! Patterns, bridge loops, channels and drains. -/

/-- Symbols of a lane in 64 ticks (R415). -/
def symbolRate (s : State) (n : LaneNo) : Nat :=
  let i := noIdx n
  if i < 4 then (if s.path.mode[noSlice n] = 4 then 4250 else 8500) else if i < 8 then 8224 else if i < 10 then 8500 else 825

/-- The symbols that a locked checker counts in this tick (R429). -/
def tickPattern (n : LaneNo) (s : State) : State :=
  let r := symbolRate s n
  if (serialAt s n).chkLock then count (aLne n 0x18) (s.now * r / 64 - (s.now - 1) * r / 64) s else s

/-- A bridge loop ends when its duration has passed, and the port trains again (R424, R427). -/
def tickBridge (k : SliceId) (p : BridgePort) (s : State) : State :=
  match (bridgeAt s k.val p.val).loopEnd with
  | some t => if t ≤ s.now then modBridge s k p fun b => { b with loop := false, loopEnd := none } else s
  | none => s

/-- A channel leaves RESET for TRAINING once its owner runs, and TRAINING for DIRECTED, where it is filled with zeros and serves
what has waited (R395, R396; each takes one tick, log 145). -/
def tickChan (c : ChanId) (s : State) : State :=
  if ownerFaulted s c || !hbmRuns s c then s
  else match (chanAt s c).st with
    | .reset => modChan s c fun x => { x with st := .training }
    | .training => serveWaiting c (modChan s c fun x => { x with st := .directed, mem := [] })
    | _ => s

/-! Counters of microseconds (R247, R304, R312, R414, R456, R541). -/

def usPort (p : PortId) (s : State) : State :=
  let x := portAt s p
  let paused := (List.finRange 32).any fun q => queuePaused s.now x.queues[q]
  let s1 := if x.lpiTx.isSome then count1 (aMac p 0xB8) s else s
  let s2 := if x.lpiRx then count1 (aMac p 0xC0) s1 else s1
  if paused then count1 (aMac p 0xC8) s2 else s2

def usFab (l : FabLane) (s : State) : State :=
  let y := s.fabric.lanes[l]
  if y.heldHigh || y.heldNormal then count1 (aFabLane l 0x30) s else s

def usSlice (k : SliceId) (s : State) : State := if (pwAt s k).capped then count1 (aPwr k 0x08) s else s

def usChan (c : ChanId) (s : State) : State := if (chanAt s c).st == .selfRefresh then count1 (aHbmC c 0x50) s else s

/-- The spill budgets begin anew; bytes beyond a budget are taken from the next (R304). -/
def usSpill (s : State) : State :=
  let s1 := if s.path.wrLimited then count1 (aSpill 0x28) s else s
  let rd := s.path.spillRd - budget s
  { s1 with path := { s1.path with
      spillWr := s.path.spillWr - budget s, spillRd := rd, wrLimited := false, rdLimited := decide (budget s ≤ rd) } }

/-- The end of a microsecond. -/
def tickUs (s : State) : State :=
  let s1 := foldS ((List.finRange 32).filter (portExists s)) usPort s
  let s2 := foldS (List.finRange 16) usFab s1
  let s3 := foldS ((List.finRange 8).filter fun k => present s k.val) usSlice s2
  usSpill (foldS (List.finRange 8) usChan s3)

/-! Cells for the device's own address (R444). -/

/-- A cell for the device itself, as one that arrives on a lane. -/
def landCell (e : EarlyCell) (s : State) : State :=
  if chType e.header = cellData then sequenceCell e.slice e.header e.payload s
  else controlCell e.slice { header := e.header, payload := e.payload, crc := 0 } s

/-- The cells that the device has sent to itself are delivered. -/
def tickLocal (s : State) : State :=
  foldS s.fabric.localCells landCell { s with fabric := { s.fabric with localCells := [] } }

/-! The tick. -/

/-- One tick. -/
def tick (s : State) : State :=
  let s0 := { s with now := s.now + 1 }
  let s1 := tickTime (foldS (List.finRange 4) tickGroup s0)
  let s2 := foldS (List.finRange 32) tickLane s1
  let s3 := foldS (List.finRange 8) tickSlice (foldS (List.finRange 4) tickPm s2)
  let s4 := foldS (List.finRange 88) tickPattern s3
  let s5 := foldS (List.finRange 8) (fun k st => foldS (List.finRange 3) (tickBridge k) st) s4
  let s6 := foldS (List.finRange 8) tickChan s5
  let s7 := foldS (List.finRange 9) noteDrain s6
  let s8 := if s7.fabric.localCells.isEmpty then s7 else tickLocal s7
  if s8.now % usTicks = 0 then tickUs s8 else s8

end Sys2Proof.Machine
end

