-- ==== Sys2Proof/WellFormed.lean ====
section
/-!
DEFINITION. WellFormed.lean: the operands a command may carry.  A field that the spec bounds and the syntax does not is bounded
here: an address of the window (R457), an instant of an epoch (R47), the length of a cell's payload (R433), and so on.
-/
namespace Sys2Proof

/-- A job of the utility pipe (R335, R357): an initialisation vector and data of the lengths that its mode takes, at most 64 KB. -/
def UtilJob.wf (j : UtilJob) : Bool :=
  decide (j.data.length ≤ 65536 + 16) &&
    (match j.mode with
     | .ctr => j.iv.length == 16
     | .cbc | .cfb128 => j.iv.length == 16 && j.data.length % 16 == 0
     | .kw => decide (16 ≤ j.data.length) && j.data.length % 8 == 0
     | .kwp => !j.data.isEmpty && (j.encrypt || j.data.length % 8 == 0)
     | .gcm => j.iv.length == 12 && (j.encrypt || decide (16 ≤ j.data.length)))

/-- The bytes of the register window (R457). -/
def windowBytes : Nat := 2 ^ 28

/-- The command is one that the outside world can bring. -/
def Instr.wf : Instr → Bool
  | .registerWrite a _ => a % 4 == 0 && decide (a < windowBytes)
  | .unalignedAccess a width _ => (decide (0 < width) && decide (a + width ≤ windowBytes)) && (a % 4 != 0 || width != 4)
  | .w1cClear a _ _ => a % 4 == 0 && decide (a < windowBytes)
  | .rcRead a => a % 4 == 0 && decide (a < windowBytes)
  | .counterLowRead a arriving => a % 8 == 0 && decide (a < windowBytes) && decide (arriving < 2 ^ 64)
  | .counterHighRead a => a % 8 == 4 && decide (a < windowBytes)
  | .collisionCounterRead a _ => a % 4 == 0 && decide (a < windowBytes)
  | .flitReceive _ _ flit => decide (flit.hops ≤ 7) && flit.bytes.length == 64
  | .smbusSensorRead index => decide (index < 256)
  | .blockLockWindow _ counts => counts.length == 257 && counts.all fun n => decide (n ≤ 1024)
  | .frameHeaderRx _ rx => decide (rx.blocks.length ≤ 7999)
  | .trunkPacketHeaderRx _ word => decide (word < 32000)
  | .announce _ start => decide (start < 800000)
  | .stagingBegin _ epoch start => decide (epoch < 42926080) && decide (start < 800000)
  | .develop _ epoch start => decide (epoch < 42926080) && decide (start < 800000)
  | .rebuildStart _ epoch start => decide (epoch < 42926080) && decide (start < 800000)
  | .protectStatus src payload => decide (src < 64) && payload.length == 24
  | .protectNotify src payload => decide (src < 64) && payload.length == 8
  | .notifyAck src seq => decide (src < 64) && decide (seq < 2 ^ 32)
  | .hostFrameRx _ frame => decide (frame.bytes.length < 2 ^ 16)
  | .pauseFrameRx _ frame => frame.quanta.length == (if frame.pfc then 8 else 1) && frame.quanta.all fun q => decide (q < 65536)
  | .bufferAlloc _ request => decide (request.owner < 256) && decide (request.prio < 8) && decide (0 < request.bytes) &&
      decide (request.bytes ≤ 10240) && decide (request.count ≤ 255)
  | .handOff _ _ _ _ count => decide (count ≤ 255)
  | .utilityJobArrive job => job.wf
  | .ringMeasure cycles => decide (cycles < 2 ^ 27)
  | .hbmRequest _ request => decide (request.addr + request.data.length ≤ 2 ^ 31) && !request.data.isEmpty && decide (request.unit < 32)
  | .chkLockLost lane symErr bitErr window => decide (symErr ≤ bitErr) && decide (window ≤ 1024) &&
      decide (bitErr ≤ (if lane.idx.val = 10 then symErr else 2 * symErr))
  | .hello _ h => h.bytes.length == 40
  | .fabricCellRx _ cell => decide (cell.payload.length ≤ 10240)
  | .fabSeqHoldExpiry src cls => decide (src < 64) && decide (cls < 3)
  | .addrHoldExpiry address => decide (address < 64)
  | .ring mbox => decide (mbox.val < 8)
  | .abort mbox _ => decide (mbox.val < 8)
  | .requestAreaWrite mbox offset data => decide (mbox.val < 8) && decide (offset + data.length ≤ 4096)
  | .evqConsWrite value => decide (value < 65536)
  | .txqTailWrite _ value => decide (value < 4096)
  | .txDescriptorRead _ desc frame => desc.length == 32 && decide (frame.length < 65536)
  | .rxqTailWrite _ value => decide (value < 4096)
  | .mgtRxDeliver _ size => decide (size < 65536)
  | .sensorSample index _ => decide (index < 99)
  | .avsPoll _ millivolt => decide (millivolt < 65536)
  | .thermalThrottle _ sensor _ => decide (sensor < 4)
  | .thermalShutdown _ sensor _ => decide (sensor < 4)
  | .quarantineExit _ crossing => decide (crossing < 6) || (decide (16 ≤ crossing) && decide (crossing < 27))
  | .timeNsRead | .rngLaneTrxLoRead _ | .unreachableAccess _ _ | .trunkGroupSet | .bridgePortDown _ _ _
  | .bridgeRetrain _ _ _ | .bridgePortUp _ _ | .routeTableInstall _ | .bridgeSeqGapTimeout _ _ | .leaseSend
  | .leaseExpiry | .mirrorResyncComplete | .claimLineFree _ _ | .claimProbe _ _ _ | .electionTimeout _ _
  | .anchorFaultReport _ | .anchorOwnFault _ | .handoverLineRelease _ | .peerPathReturn | .pcieLinkTrained
  | .takeCharge _ | .smbusDevIdRead | .smbusAnchorRead | .smbusLogStatusRead | .smbusBadCode _ | .anchorHandover
  | .blockLockLost _ _ | .reasmTimeout _ _ | .reasmDiscardExpiry _ _ | .settleWindowClose _ _ | .portFilterWrite
  | .portFilterRead | .oamRxDiscard _ _ | .discover _ _ | .rangeRequest _ _ | .eqdAssign _ _ | .tod _ _
  | .rangeProvision | .responseWaitExpiry _ | .rangeReply _ | .rangeTimeout _ | .applicationInstant _
  | .holdoverExpiry _ | .todStale _ | .grantMapRx _ _ | .grantTableComplete _ | .jumpHoldClear _ | .amend _ _
  | .amendApply _ | .leaderSet _ _ | .burstLaunch _ | .burstEndLeave _ | .fillEnd _ | .grantTableRead | .rateUpdate _
  | .packetPlace _ | .invocationDrawResume _ | .reportPolicy _ _ | .runaheadSet | .accountStop | .losDeclare _
  | .losClear _ | .lofDeclare _ | .lofClear _ | .windowEvaluate _ | .rdi _ _ | .rdiTimeout _ | .rdiPeriodic _
  | .disable _ _ | .disableApply _ | .enable _ _ | .protectEvaluate _ | .resteerComplete _ | .protectCommand _ _
  | .protectStatusSend _ | .remoteStale _ | .notifyResend _ | .notifyFail _ | .pmSecond _ | .defectSet | .protectSet
  | .protectRequest | .pmRead | .portModeSet | .pauseExpiry _ _ | .pauseStorm _ | .pauseStormEnd _ | .pauseSend _
  | .pauseRefresh _ | .hostFrameTx _ | .portLinkChange _ _ _ | .lpiEnter _ | .lpiExit _ | .linkFaultSignalChange _
  | .portSet | .flowControlSet | .eeeSet | .macFilterWrite | .macFilterRead | .parseAndClassify _ | .recircPass _
  | .retirement _ | .retireForced _ | .clsSourceSet | .profileSet | .ruleWrite | .ruleRead | .ruleCommit
  | .tableModeSet | .shadowLoadComplete _ | .spreadSet | .mirrorSet | .free _ _ _ | .refAdd _ _ _ | .refDrop _ _ _
  | .xrefReclaim _ | .spillWriteComplete _ | .spillReadback _ | .readbackRetry _ | .pageReadComplete _ | .spillRemap _
  | .poolCarve | .bufOwnerSet | .bufPrioSet | .bufPoolSet | .spillSet | .shaperEligible _ | .overflowWheelMove _
  | .timedLaunchDue _ _ | .schedSet | .schedTreeSet | .policerSet | .policerRead | .keyDeliver _ _
  | .keyWriteComplete _ | .keySwitch _ _ | .switchBoundary _ _ | .decryptComplete _ _ | .downHalfLifetimeEnd _ _ | .keyEraseComplete _
  | .utilityJobComplete | .keySlotSet | .keyLoad | .keyCommit | .keyErase | .keyBind
  | .keyStatusRead | .cipPortFailRead | .kekSet | .timeSteer | .slewEnd | .timeCounterRestart | .gapEstimate
  | .timeSet | .timeJumpAccept | .timeOutputSet | .ptpSet | .hbmReadComplete _ _ | .hbmCaParity _ | .hbmServiceEntry _
  | .hbmTempRead _ | .hbmTempStale _ | .hbmRefresh _ _ | .hbmRetrain _ | .hbmRetrainEnd _ _ | .hbmRetrainRetry _
  | .hbmSrEntry _ | .hbmSrEntryComplete _ | .hbmSrExitComplete _ | .hbmChannelRelease | .hbmReleaseComplete _ _
  | .hbmHistoryRead | .hbmSet | .cdrLockGained _ | .cdrLost _ | .deepEntry _ | .deepEntryComplete _ | .deepExit _
  | .laneEqSet | .laneEqRead | .loopSet | .loopExpired _ | .loopBurst _ | .patternSet | .chkLock _
  | .helloSend _ | .fabricLinkDown _ _ | .idleCellSend _ | .addrFlood | .addr _ _ | .lsaSend | .lsa _ _ | .lsaExpiry _
  | .routeRecompute | .fabLpiEnter _ | .fabricSet | .fabricRouteRead | .commandTake | .serviceRequestRx _ | .fence
  | .fenceComplete _ | .drainFence | .drainFenceComplete _ | .funcStop | .funcStart | .eventQueueSet | .eventRouteSet
  | .mgtQueueSet | .vectorDelayExpiry _ | .msixUnmask _ | .txDescriptorWriteback _ | .sensorGet | .sensorSet
  | .checkpoint _ | .logRead | .fwStage | .fwActivate | .activationStep _ | .sliceControllerSwitch _ | .fwStatusRead
  | .fuseRead | .fwStartTimeout | .clockStable _ _ | .clockStopDetect _ _ | .freqWindow _ _ _ _ | .clockRecover _ _
  | .domainRestart _ _ | .dvfsStep _ | .avsAck _ | .avsTimeout _ | .thermalCapRelease _ | .idleEntry _ | .idleExit _
  | .drowseEntry _ | .dormantEntry _ | .wakeStep _ | .quiesceTimeout _ | .powerStateSet | .powerStateReached _
  | .dvfsSet | .clockStatusRead | .resetIssue | .resetComplete _ | .powerOnReset _ | .pinReset _ | .sliceReset _
  | .removal | .presenceReturn _ | .perst | .gapSat | .deepExitComplete _ | .fwStageComplete _ | .logReadComplete _
  | .firmwareReady | .remoteFaultReceived _ _ | .receiveLpi _ _ => true

end Sys2Proof
end

