-- ==== Sys2Proof/Safety.lean ====
section
/-!
DEFINITION. Safety.lean: the terms in which statements about the whole device are made: the components of State, the
components that each command may write, the canonical form of memory and registers, and the identity of the device.
-/
namespace Sys2Proof.Machine

/-- The components of State in which frames are stated. -/
inductive Comp where
  /-- The tick count. -/
  | now
  /-- What was last read or sent, and the random source. -/
  | env
  /-- 64-bit and 32-bit counters (R8, R10). -/
  | counters
  /-- Sticky flag words (R476). -/
  | flags
  /-- Counter holding registers, collision counters and MGT_RO_WRITE_ADDR. -/
  | latches
  /-- Inter-slice bridges and routes (chapter 02). -/
  | bridge
  /-- Anchor, deputy, claim line and lease (chapter 02). -/
  | anchor
  /-- The image of the configuration that the deputy holds (R33, R41). -/
  | mirror
  /-- Mailboxes and long commands (chapter 17). -/
  | mail
  /-- Contact sheet, event queue and vectors (R478 to R482). -/
  | log
  /-- Class map and management rings (R481, R484). -/
  | rings
  /-- Line lanes, the data on its way to the decrypt pipes and the order of packets (chapters 03 to 07). -/
  | lanes
  /-- Trunk groups (chapters 04 to 07). -/
  | groups
  /-- Port-ID filters (R68). -/
  | filter
  /-- Host ports and schedulers (chapters 08, 11). -/
  | ports
  /-- Frames that have entered the packet path (R16). -/
  | ingress
  /-- Classifiers, sources and mirrors (chapter 09). -/
  | cls
  /-- Buffer pools (chapter 10). -/
  | bufs
  /-- Upstream accounts and the spill state (chapters 05, 10, 11). -/
  | accounts
  /-- Policers (R332). -/
  | policers
  /-- Cipher key slots (chapter 12). -/
  | slots
  /-- Key-encryption keys (R339, R367). -/
  | keks
  /-- Decrypt pipes, the utility pipe and tag failure counts (chapter 12). -/
  | cipher
  /-- The time counter and its steering (chapter 13). -/
  | time
  /-- HBM channels and stack (chapter 14). -/
  | hbm
  /-- Serial lanes (chapter 15). -/
  | serdes
  /-- The fabric (chapter 16). -/
  | fabric
  /-- Boot flash banks, staging, activation and running versions (chapter 18). -/
  | image
  /-- Flash checkpoint slots (R496). -/
  | checkpoints
  /-- Sensor readings and thresholds (R494, R495). -/
  | sensors
  /-- ROM start and darkroom (R508 to R511). -/
  | boot
  /-- History pages of the contact sheet (R496). -/
  | history
  /-- Clocks, power states and resets (chapter 19). -/
  | power
  /-- Pins, straps and presence (chapter 20). -/
  | pins
  deriving DecidableEq, Repr

/-- Component `c` is the same in `t` as in `s`. -/
def Comp.same (s t : State) : Comp → Prop
  | .now => t.now = s.now
  | .env => t.env = s.env
  | .counters => t.regs.ctr = s.regs.ctr
  | .flags => t.regs.w1c = s.regs.w1c
  | .latches => t.regs.hold = s.regs.hold ∧ t.regs.coll = s.regs.coll ∧ t.regs.roWriteAddr = s.regs.roWriteAddr
  | .bridge => t.bridge = s.bridge
  | .anchor => t.anchor = s.anchor
  | .mirror => t.mirror = s.mirror
  | .mail => t.mail = s.mail
  | .log => t.ev.log = s.ev.log ∧
      t.ev.nextSeq = s.ev.nextSeq ∧
      t.ev.errors = s.ev.errors ∧
      t.ev.evq = s.ev.evq ∧
      t.ev.vecs = s.ev.vecs
  | .rings => t.ev.classMap = s.ev.classMap ∧ t.ev.rings = s.ev.rings ∧ t.ev.mgtWait = s.ev.mgtWait
  | .lanes => t.trunk.lanes = s.trunk.lanes ∧ t.trunk.extract = s.trunk.extract ∧ t.trunk.tickets = s.trunk.tickets
  | .groups => t.trunk.groups = s.trunk.groups
  | .filter => t.trunk.filter = s.trunk.filter
  | .ports => t.path.ports = s.path.ports ∧
      t.path.portsStopped = s.path.portsStopped ∧
      t.path.schedStopped = s.path.schedStopped ∧
      t.path.mode = s.path.mode ∧
      t.path.modePend = s.path.modePend
  | .ingress => t.path.ingress = s.path.ingress ∧ t.path.entryNo = s.path.entryNo
  | .cls => t.path.cls = s.path.cls ∧ t.path.sources = s.path.sources ∧ t.path.mirrors = s.path.mirrors
  | .bufs => t.path.bufs = s.path.bufs
  | .accounts => t.path.accounts = s.path.accounts ∧
      t.path.spillRr = s.path.spillRr ∧
      t.path.spillUsed = s.path.spillUsed ∧
      t.path.spillWr = s.path.spillWr ∧
      t.path.spillRd = s.path.spillRd ∧
      t.path.wrLimited = s.path.wrLimited ∧
      t.path.rdLimited = s.path.rdLimited ∧
      t.path.spillEndAt = s.path.spillEndAt
  | .policers => t.path.policers = s.path.policers
  | .slots => t.crypto.slots = s.crypto.slots
  | .keks => t.crypto.keks = s.crypto.keks
  | .cipher => t.crypto.portFail = s.crypto.portFail ∧ t.crypto.pipes = s.crypto.pipes ∧ t.crypto.util = s.crypto.util
  | .time => t.time = s.time
  | .hbm => t.hbm = s.hbm
  | .serdes => t.serdes = s.serdes
  | .fabric => t.fabric = s.fabric
  | .image => t.fw.dirs = s.fw.dirs ∧
      t.fw.banks = s.fw.banks ∧
      t.fw.svnFloor = s.fw.svnFloor ∧
      t.fw.stageSt = s.fw.stageSt ∧
      t.fw.stageNext = s.fw.stageNext ∧
      t.fw.stageTotal = s.fw.stageTotal ∧
      t.fw.act = s.fw.act ∧
      t.fw.running = s.fw.running
  | .checkpoints => t.fw.slots = s.fw.slots ∧
      t.fw.nextSlot = s.fw.nextSlot ∧
      t.fw.ckSeq = s.fw.ckSeq ∧
      t.fw.ckAt = s.fw.ckAt ∧
      t.fw.ckDone = s.fw.ckDone
  | .sensors => t.fw.readings = s.fw.readings ∧ t.fw.sensors = s.fw.sensors
  | .boot => t.fw.darkroom = s.fw.darkroom ∧
      t.fw.drCause = s.fw.drCause ∧
      t.fw.startAt = s.fw.startAt ∧
      t.fw.ready = s.fw.ready ∧
      t.fw.boot = s.fw.boot ∧
      t.fw.prevCause = s.fw.prevCause
  | .history => t.fw.history = s.fw.history
  | .power => t.power = s.power
  | .pins => t.pins = s.pins

/-- What no command changes: the part and its serial number (R1, R4), the fuses (R510) and the queue of commands. -/
def SameIdentity (s t : State) : Prop :=
  t.part = s.part ∧ t.serial = s.serial ∧ t.fw.fuses = s.fw.fuses ∧ t.pending = s.pending

/-- The memory of every HBM channel is in its canonical form: rising addresses, no byte listed at the value an unlisted
address reads as (R392, R396). -/
def HbmAll.Canonical (h : HbmAll) : Prop := ∀ c : ChanId, sparseWf 0 (h.chans[c]).mem = true

/-- Counters, flag words, collision counters and holding registers are in canonical form, every counter fits 64 bits (R10) and
every collision counter 8 bits (R476). -/
def Regs.Canonical (r : Regs) : Prop :=
  sparseWf 0 r.ctr = true ∧ sparseWf 0 r.w1c = true ∧ sparseWf 0 r.coll = true ∧
    (∀ a, sparseGet 0 r.ctr a < 2 ^ 64) ∧ (∀ a, sparseGet 0 r.coll a ≤ 255) ∧
    sparseWf 0 r.hold = true

/-- The contact sheet holds at most 16,384 records (R478). -/
def EventAll.Bounded (e : EventAll) : Prop := e.log.length ≤ 16384

/-- The invariant of the whole device. -/
def Canonical (s : State) : Prop := s.hbm.Canonical ∧ s.regs.Canonical ∧ s.ev.Bounded

/-- The components that a command may write; it leaves every other component as it was. -/
def Instr.writes : Instr → List Comp
  | .registerWrite _ _ =>
    [.env, .counters, .flags, .latches, .anchor, .mail, .log, .rings, .history]
  | .unalignedAccess _ _ _ | .rcRead _ | .counterLowRead _ _ | .counterHighRead _ | .collisionCounterRead _ _
  | .timeNsRead | .rngLaneTrxLoRead _ =>
    [.env, .counters, .latches, .lanes, .time]
  | .w1cClear _ _ _ =>
    [.counters, .flags, .latches, .log, .history]
  | .unreachableAccess _ _ =>
    [.env, .counters]
  | .trunkGroupSet | .runaheadSet | .protectSet | .protectRequest =>
    [.env, .bridge, .anchor, .mail, .log, .groups]
  | .flitReceive _ _ _ | .bridgeSeqGapTimeout _ _ | .fabSeqHoldExpiry _ _ | .txDescriptorRead _ _ _ =>
    [.counters, .flags, .bridge, .log, .rings, .lanes, .groups, .ports, .ingress, .bufs, .accounts, .slots, .fabric,
     .history]
  | .bridgePortDown _ _ _ | .bridgePortUp _ _ =>
    [.counters, .flags, .bridge, .mirror, .log, .rings, .ports, .bufs, .history]
  | .bridgeRetrain _ _ _ | .routeTableInstall _ =>
    [.bridge]
  | .leaseSend | .leaseExpiry | .claimLineFree _ _ | .anchorFaultReport _ | .anchorOwnFault _ | .pcieLinkTrained
  | .takeCharge _ =>
    [.anchor]
  | .mirrorResyncComplete =>
    [.anchor, .mirror, .mail]
  | .claimProbe _ _ _ | .electionTimeout _ _ | .peerPathReturn =>
    [.env, .counters, .flags, .bridge, .anchor, .mirror, .mail, .log, .rings, .lanes, .groups, .filter, .ports,
     .ingress, .cls, .bufs, .accounts, .policers, .slots, .keks, .cipher, .time, .hbm, .serdes, .fabric, .image,
     .sensors, .boot, .history, .power]
  | .handoverLineRelease _ =>
    [.anchor, .mail]
  | .smbusDevIdRead | .smbusAnchorRead | .smbusLogStatusRead | .smbusSensorRead _ =>
    [.env]
  | .smbusBadCode _ =>
    [.counters]
  | .anchorHandover | .portFilterRead | .grantTableRead | .pmRead | .macFilterRead | .ruleRead | .keyStatusRead
  | .hbmHistoryRead | .laneEqRead | .fabricRouteRead | .fence | .drainFence | .drainFenceComplete _ | .eventQueueSet
  | .sensorGet | .logRead | .fwStatusRead | .fuseRead | .clockStatusRead | .resetComplete _ | .logReadComplete _ =>
    [.env, .bridge, .anchor, .mail, .log]
  | .blockLockWindow _ _ =>
    [.counters, .flags, .bridge, .log, .rings, .lanes, .groups, .ports, .ingress, .bufs, .accounts, .cipher, .fabric,
     .history]
  | .blockLockLost _ _ =>
    [.counters, .flags, .bridge, .log, .rings, .lanes, .groups, .ports, .ingress, .bufs, .accounts, .cipher, .fabric,
     .history, .pins]
  | .frameHeaderRx _ _ =>
    [.counters, .flags, .bridge, .log, .rings, .lanes, .groups, .ports, .ingress, .bufs, .accounts, .slots, .cipher,
     .serdes, .fabric, .history]
  | .trunkPacketHeaderRx _ _ =>
    [.counters, .flags, .bridge, .log, .rings, .lanes, .groups, .ports, .ingress, .bufs, .slots, .cipher, .fabric,
     .history]
  | .reasmTimeout _ _ | .reasmDiscardExpiry _ _ =>
    [.counters, .flags, .bridge, .log, .rings, .lanes, .ports, .ingress, .bufs, .fabric, .history]
  | .settleWindowClose _ _ | .jumpHoldClear _ | .fillEnd _ =>
    [.lanes]
  | .portFilterWrite =>
    [.env, .bridge, .anchor, .mail, .log, .lanes, .filter]
  | .oamRxDiscard _ _ =>
    [.counters, .lanes]
  | .discover _ _ | .rangeTimeout _ | .holdoverExpiry _ | .enable _ _ =>
    [.counters, .flags, .log, .lanes, .groups, .accounts, .history]
  | .rangeRequest _ _ | .grantTableComplete _ | .amendApply _ | .burstLaunch _ | .develop _ _ _ | .losClear _
  | .lofDeclare _ | .lofClear _ | .windowEvaluate _ | .keySwitch _ _ | .switchBoundary _ _ =>
    [.counters, .flags, .log, .lanes, .groups, .ports, .bufs, .accounts, .slots, .history]
  | .eqdAssign _ _ | .rangeReply _ | .applicationInstant _ | .amend _ _ | .reportPolicy _ _ | .rdi _ _ | .disable _ _ =>
    [.counters, .flags, .log, .lanes, .groups, .history]
  | .tod _ _ =>
    [.counters, .flags, .log, .lanes, .groups, .time, .history]
  | .rangeProvision =>
    [.env, .counters, .flags, .bridge, .anchor, .mail, .log, .lanes, .groups, .accounts, .history]
  | .announce _ _ =>
    [.env, .counters, .flags, .log, .lanes, .groups, .history]
  | .responseWaitExpiry _ =>
    [.env, .groups]
  | .todStale _ | .stagingBegin _ _ _ | .rdiTimeout _ | .remoteStale _ | .notifyFail _ =>
    [.counters, .flags, .log, .groups, .history]
  | .grantMapRx _ _ =>
    [.counters, .flags, .log, .lanes, .history]
  | .leaderSet _ _ | .protectCommand _ _ =>
    [.counters, .lanes, .groups]
  | .burstEndLeave _ =>
    [.counters, .flags, .log, .rings, .lanes, .groups, .slots, .history]
  | .rateUpdate _ =>
    [.groups, .accounts]
  | .packetPlace _ =>
    [.counters, .flags, .log, .groups, .ports, .bufs, .accounts, .slots, .history]
  | .invocationDrawResume _ =>
    [.slots]
  | .rebuildStart _ _ _ | .resteerComplete _ | .notifyAck _ _ =>
    [.groups]
  | .accountStop | .keyCommit =>
    [.env, .counters, .flags, .bridge, .anchor, .mail, .log, .lanes, .groups, .ports, .bufs, .accounts, .slots,
     .history]
  | .losDeclare _ | .disableApply _ =>
    [.counters, .flags, .log, .rings, .lanes, .groups, .ports, .bufs, .accounts, .slots, .history]
  | .rdiPeriodic _ =>
    [.counters, .groups]
  | .protectEvaluate _ | .protectStatus _ _ | .protectNotify _ _ =>
    [.counters, .flags, .bridge, .log, .rings, .lanes, .groups, .ports, .bufs, .accounts, .slots, .time, .fabric,
     .history]
  | .protectStatusSend _ | .notifyResend _ =>
    [.counters, .flags, .bridge, .log, .rings, .groups, .ports, .bufs, .fabric, .history]
  | .pmSecond _ =>
    [.lanes, .groups]
  | .defectSet =>
    [.env, .counters, .flags, .bridge, .anchor, .mail, .log, .groups, .history]
  | .portModeSet | .portSet | .macFilterWrite | .schedTreeSet =>
    [.env, .bridge, .anchor, .mail, .log, .ports]
  | .hostFrameRx _ _ =>
    [.counters, .flags, .log, .rings, .ports, .ingress, .bufs, .history]
  | .pauseFrameRx _ _ | .pauseSend _ | .pauseRefresh _ =>
    [.counters, .ports]
  | .pauseExpiry _ _ | .pauseStormEnd _ | .linkFaultSignalChange _ | .remoteFaultReceived _ _ =>
    [.ports]
  | .pauseStorm _ | .portLinkChange _ _ _ =>
    [.counters, .flags, .log, .ports, .history]
  | .hostFrameTx _ | .timedLaunchDue _ _ | .mgtRxDeliver _ _ =>
    [.counters, .flags, .log, .rings, .ports, .bufs, .history]
  | .lpiEnter _ | .lpiExit _ =>
    [.ports, .serdes]
  | .flowControlSet =>
    [.env, .counters, .bridge, .anchor, .mail, .log, .ports]
  | .eeeSet =>
    [.env, .bridge, .anchor, .mail, .log, .ports, .serdes]
  | .parseAndClassify _ | .recircPass _ =>
    [.counters, .flags, .bridge, .log, .rings, .lanes, .groups, .ports, .ingress, .cls, .bufs, .accounts, .policers,
     .slots, .fabric, .history]
  | .retirement _ =>
    [.counters, .flags, .log, .cls, .history]
  | .retireForced _ =>
    [.counters, .flags, .log, .rings, .ports, .cls, .bufs, .history]
  | .clsSourceSet | .profileSet | .tableModeSet | .spreadSet | .mirrorSet =>
    [.env, .bridge, .anchor, .mail, .log, .cls]
  | .ruleWrite | .ruleCommit =>
    [.env, .counters, .flags, .bridge, .anchor, .mail, .log, .cls, .history]
  | .shadowLoadComplete _ =>
    [.cls]
  | .bufferAlloc _ _ | .free _ _ _ | .handOff _ _ _ _ _ | .refAdd _ _ _ | .refDrop _ _ _ =>
    [.counters, .flags, .log, .ports, .bufs, .history]
  | .xrefReclaim _ =>
    [.counters, .flags, .log, .rings, .ports, .bufs, .accounts, .fabric, .history]
  | .spillWriteComplete _ =>
    [.counters, .flags, .log, .rings, .ports, .bufs, .accounts, .hbm, .history]
  | .spillReadback _ | .hbmReadComplete _ _ | .hbmCaParity _ | .hbmRetrainEnd _ _ =>
    [.counters, .flags, .log, .accounts, .hbm, .history]
  | .readbackRetry _ | .pageReadComplete _ =>
    [.counters, .flags, .log, .ports, .bufs, .accounts, .history]
  | .spillRemap _ =>
    [.counters, .flags, .log, .rings, .accounts, .hbm, .history]
  | .poolCarve =>
    [.env, .bridge, .anchor, .mail, .log, .bufs]
  | .bufOwnerSet | .bufPrioSet | .bufPoolSet =>
    [.env, .counters, .flags, .bridge, .anchor, .mail, .log, .ports, .bufs, .history]
  | .spillSet | .keyBind =>
    [.env, .bridge, .anchor, .mail, .log, .accounts]
  | .shaperEligible _ | .overflowWheelMove _ =>
    [.ports, .accounts]
  | .schedSet =>
    [.env, .bridge, .anchor, .mail, .log, .ports, .accounts]
  | .policerSet | .policerRead =>
    [.env, .bridge, .anchor, .mail, .log, .policers]
  | .keyDeliver _ _ =>
    [.counters, .lanes, .groups, .slots, .cipher]
  | .keyWriteComplete _ =>
    [.counters, .groups, .slots]
  | .decryptComplete _ _ =>
    [.counters, .flags, .bridge, .log, .rings, .lanes, .ports, .ingress, .bufs, .slots, .cipher, .fabric, .history]
  | .downHalfLifetimeEnd _ _ | .keyEraseComplete _ =>
    [.counters, .flags, .log, .slots, .history]
  | .utilityJobArrive _ =>
    [.counters, .cipher]
  | .utilityJobComplete =>
    [.counters, .flags, .log, .groups, .slots, .cipher, .history]
  | .keySlotSet =>
    [.env, .counters, .flags, .bridge, .anchor, .mail, .log, .groups, .slots, .history]
  | .keyLoad =>
    [.env, .counters, .flags, .bridge, .anchor, .mail, .log, .slots, .history]
  | .keyErase =>
    [.env, .counters, .bridge, .anchor, .mail, .log, .groups, .slots, .cipher]
  | .cipPortFailRead =>
    [.env, .bridge, .anchor, .mail, .log, .cipher]
  | .kekSet =>
    [.env, .counters, .bridge, .anchor, .mail, .log, .keks]
  | .timeSteer | .timeCounterRestart | .gapSat =>
    [.counters, .flags, .log, .time, .history]
  | .slewEnd | .ringMeasure _ =>
    [.time]
  | .gapEstimate =>
    [.counters, .flags, .log, .groups, .time, .history]
  | .timeSet =>
    [.env, .counters, .flags, .bridge, .anchor, .mail, .log, .time, .history]
  | .timeJumpAccept =>
    [.env, .counters, .flags, .bridge, .anchor, .mail, .log, .groups, .time, .history]
  | .timeOutputSet | .ptpSet =>
    [.env, .bridge, .anchor, .mail, .log, .time]
  | .hbmRequest _ _ | .hbmTempRead _ | .hbmTempStale _ =>
    [.counters, .flags, .log, .hbm, .history]
  | .hbmServiceEntry _ | .hbmSrEntryComplete _ | .hbmSrExitComplete _ =>
    [.counters, .hbm]
  | .hbmRefresh _ _ | .hbmRetrain _ | .hbmRetrainRetry _ | .hbmSrEntry _ =>
    [.hbm]
  | .hbmChannelRelease | .hbmSet =>
    [.env, .bridge, .anchor, .mail, .log, .hbm]
  | .hbmReleaseComplete _ _ =>
    [.env, .counters, .flags, .bridge, .anchor, .mail, .log, .hbm, .history]
  | .cdrLockGained _ | .deepExit _ | .chkLockLost _ _ _ _ =>
    [.counters, .flags, .log, .serdes, .history]
  | .cdrLost _ | .clockStopDetect _ _ | .freqWindow _ _ _ _ =>
    [.env, .counters, .flags, .bridge, .anchor, .mirror, .mail, .log, .rings, .lanes, .groups, .ports, .ingress,
     .bufs, .accounts, .cipher, .time, .serdes, .fabric, .history, .power]
  | .deepEntry _ | .loopBurst _ | .chkLock _ =>
    [.serdes]
  | .deepEntryComplete _ | .loopExpired _ | .deepExitComplete _ =>
    [.counters, .flags, .bridge, .log, .rings, .lanes, .groups, .ports, .ingress, .bufs, .accounts, .cipher, .serdes,
     .fabric, .history]
  | .laneEqSet | .patternSet =>
    [.env, .counters, .flags, .bridge, .anchor, .mail, .log, .rings, .lanes, .groups, .ports, .ingress, .bufs,
     .accounts, .cipher, .serdes, .fabric, .history]
  | .loopSet =>
    [.env, .counters, .flags, .bridge, .anchor, .mirror, .mail, .log, .rings, .lanes, .groups, .ports, .ingress,
     .bufs, .accounts, .cipher, .serdes, .fabric, .history]
  | .helloSend _ | .idleCellSend _ | .addrFlood | .addr _ _ | .lsaSend | .lsa _ _ =>
    [.counters, .flags, .log, .rings, .ports, .bufs, .fabric, .history]
  | .hello _ _ | .fabricLinkDown _ _ =>
    [.counters, .flags, .bridge, .log, .rings, .ports, .bufs, .fabric, .history]
  | .fabricCellRx _ _ =>
    [.counters, .flags, .bridge, .log, .rings, .lanes, .groups, .ports, .ingress, .bufs, .accounts, .slots, .time,
     .fabric, .history]
  | .addrHoldExpiry _ | .fabLpiEnter _ =>
    [.fabric]
  | .lsaExpiry _ | .routeRecompute =>
    [.counters, .flags, .log, .fabric, .history]
  | .fabricSet =>
    [.env, .counters, .flags, .bridge, .anchor, .mail, .log, .rings, .ports, .bufs, .fabric, .history]
  | .ring _ | .requestAreaWrite _ _ _ =>
    [.counters, .flags, .mail, .log, .history]
  | .abort _ _ =>
    [.env, .counters, .flags, .anchor, .mail, .log, .history]
  | .commandTake | .fenceComplete _ =>
    [.env, .anchor, .mail, .log]
  | .serviceRequestRx _ =>
    [.env, .mail]
  | .funcStop =>
    [.env, .counters, .flags, .bridge, .anchor, .mail, .log, .rings, .lanes, .groups, .ports, .ingress, .bufs,
     .accounts, .slots, .cipher, .time, .fabric, .history, .power]
  | .funcStart =>
    [.env, .counters, .flags, .latches, .bridge, .anchor, .mail, .log, .rings, .lanes, .groups, .ports, .ingress,
     .cls, .bufs, .accounts, .slots, .cipher, .serdes, .fabric, .history]
  | .eventRouteSet =>
    [.env, .bridge, .anchor, .mail, .log, .rings]
  | .mgtQueueSet =>
    [.env, .counters, .bridge, .anchor, .mail, .log, .rings]
  | .evqConsWrite _ =>
    [.log, .history]
  | .vectorDelayExpiry _ | .msixUnmask _ =>
    [.log]
  | .txqTailWrite _ _ | .rxqTailWrite _ _ =>
    [.rings]
  | .txDescriptorWriteback _ =>
    [.counters, .log, .rings]
  | .sensorSample _ _ =>
    [.counters, .flags, .log, .sensors, .history, .power]
  | .sensorSet =>
    [.env, .bridge, .anchor, .mail, .log, .sensors]
  | .checkpoint _ =>
    [.counters, .flags, .log, .checkpoints, .history]
  | .fwStage =>
    [.env, .bridge, .anchor, .mail, .log, .image]
  | .fwActivate | .resetIssue =>
    [.env, .counters, .flags, .latches, .bridge, .anchor, .mirror, .mail, .log, .rings, .lanes, .groups, .filter,
     .ports, .ingress, .cls, .bufs, .accounts, .policers, .slots, .keks, .cipher, .time, .hbm, .serdes, .fabric,
     .image, .checkpoints, .sensors, .boot, .history, .power, .pins]
  | .activationStep _ | .fwStageComplete _ =>
    [.env, .counters, .flags, .bridge, .anchor, .mail, .log, .image, .history]
  | .sliceControllerSwitch _ =>
    [.image]
  | .fwStartTimeout =>
    [.keks, .serdes, .boot]
  | .clockStable _ _ | .clockRecover _ _ | .dvfsStep _ | .avsAck _ | .avsPoll _ _ | .thermalCapRelease _
  | .quarantineExit _ _ =>
    [.power]
  | .domainRestart _ _ | .wakeStep _ =>
    [.counters, .flags, .bridge, .mirror, .log, .rings, .lanes, .groups, .ports, .ingress, .bufs, .accounts, .cipher,
     .hbm, .serdes, .fabric, .history, .power]
  | .avsTimeout _ | .thermalThrottle _ _ _ | .idleEntry _ | .idleExit _ =>
    [.counters, .flags, .log, .history, .power]
  | .thermalShutdown _ _ _ =>
    [.counters, .flags, .bridge, .anchor, .mirror, .log, .rings, .lanes, .groups, .ports, .ingress, .bufs, .accounts,
     .cipher, .hbm, .serdes, .fabric, .history, .power]
  | .drowseEntry _ =>
    [.counters, .flags, .bridge, .log, .rings, .lanes, .groups, .ports, .ingress, .bufs, .accounts, .cipher, .serdes,
     .fabric, .history, .power]
  | .dormantEntry _ | .sliceReset _ =>
    [.counters, .flags, .latches, .bridge, .anchor, .mirror, .log, .rings, .lanes, .groups, .ports, .ingress, .cls,
     .bufs, .accounts, .slots, .cipher, .hbm, .serdes, .fabric, .history, .power]
  | .quiesceTimeout _ =>
    [.counters, .flags, .bridge, .log, .accounts, .hbm, .history, .power]
  | .powerStateSet | .powerStateReached _ =>
    [.env, .counters, .flags, .bridge, .anchor, .mail, .log, .history, .power]
  | .dvfsSet =>
    [.env, .bridge, .anchor, .mail, .log, .power]
  | .powerOnReset _ | .pinReset _ | .presenceReturn _ =>
    [.counters, .flags, .latches, .bridge, .anchor, .mirror, .mail, .log, .rings, .lanes, .groups, .filter, .ports,
     .ingress, .cls, .bufs, .accounts, .policers, .slots, .keks, .cipher, .time, .hbm, .serdes, .fabric, .image,
     .checkpoints, .sensors, .boot, .history, .power, .pins]
  | .removal =>
    [.env, .counters, .flags, .bridge, .anchor, .mail, .log, .rings, .lanes, .groups, .ports, .ingress, .bufs,
     .accounts, .slots, .cipher, .serdes, .fabric, .image, .history, .pins]
  | .perst =>
    [.env, .counters, .flags, .anchor, .mail, .log, .rings, .history]
  | .firmwareReady =>
    [.counters, .flags, .log, .serdes, .image, .boot, .history]
  | .receiveLpi _ _ =>
    [.ports, .fabric]

/-- State `t` differs from `s` at most in the components listed. -/
def OnlyChanges (ks : List Comp) (s t : State) : Prop := ∀ c, c ∉ ks → c.same s t

/-- Each grant of a list, with its slot edge, begins at least 8 ticks after the end of the one before it; `last` is the end of
the grant before the first (R115). -/
def Spaced : Option Stamp → List (BitVec 64 × Stamp) → Prop
  | _, [] => True
  | last, (r, t) :: u => (∀ e, last = some e → 0 ≤ stampDiff t (e + ticks 8)) ∧ Spaced (some (t + ticks (gLen r))) u

/-- The opcode of a command row and the checks its request passes (R465, R475); none of every other row. -/
def Instr.command : Instr → Option (Nat × (Request → State → List Check))
  | .trunkGroupSet => some (0x0101, trunkGroupSetChecks)
  | .anchorHandover => some (0x0021, anchorHandoverChecks)
  | .portFilterWrite => some (0x0110, portFilterWriteChecks)
  | .portFilterRead => some (0x0111, portFilterReadChecks)
  | .rangeProvision => some (0x0120, rangeProvisionChecks)
  | .grantTableRead => some (0x0130, grantTableReadChecks)
  | .runaheadSet => some (0x0140, runaheadSetChecks)
  | .accountStop => some (0x0141, accountStopChecks)
  | .defectSet => some (0x0150, defectSetChecks)
  | .protectSet => some (0x0151, protectSetChecks)
  | .protectRequest => some (0x0152, protectRequestChecks)
  | .pmRead => some (0x0153, pmReadChecks)
  | .portModeSet => some (0x0200, portModeSetChecks)
  | .portSet => some (0x0201, portSetChecks)
  | .flowControlSet => some (0x0202, flowControlSetChecks)
  | .eeeSet => some (0x0203, eeeSetChecks)
  | .macFilterWrite => some (0x0204, macFilterWriteChecks)
  | .macFilterRead => some (0x0205, macFilterReadChecks)
  | .clsSourceSet => some (0x0300, clsSourceSetChecks)
  | .profileSet => some (0x0301, profileSetChecks)
  | .ruleWrite => some (0x0302, ruleWriteChecks)
  | .ruleRead => some (0x0303, ruleReadChecks)
  | .ruleCommit => some (0x0304, ruleCommitChecks)
  | .tableModeSet => some (0x0305, tableModeSetChecks)
  | .spreadSet => some (0x0306, spreadSetChecks)
  | .mirrorSet => some (0x0307, mirrorSetChecks)
  | .poolCarve => some (0x0400, poolCarveChecks)
  | .bufOwnerSet => some (0x0401, bufOwnerSetChecks)
  | .bufPrioSet => some (0x0402, bufPrioSetChecks)
  | .bufPoolSet => some (0x0403, bufPoolSetChecks)
  | .spillSet => some (0x0404, spillSetChecks)
  | .schedSet => some (0x0501, schedSetChecks)
  | .schedTreeSet => some (0x0500, schedTreeSetChecks)
  | .policerSet => some (0x0506, policerSetChecks)
  | .policerRead => some (0x0507, policerReadChecks)
  | .keySlotSet => some (0x0600, keySlotSetChecks)
  | .keyLoad => some (0x0601, keyLoadChecks)
  | .keyCommit => some (0x0602, keyCommitChecks)
  | .keyErase => some (0x0603, keyEraseChecks)
  | .keyBind => some (0x0604, keyBindChecks)
  | .keyStatusRead => some (0x0605, keyStatusReadChecks)
  | .cipPortFailRead => some (0x0606, cipPortFailReadChecks)
  | .kekSet => some (0x0607, kekSetChecks)
  | .timeSet => some (0x0700, timeSetChecks)
  | .timeJumpAccept => some (0x0701, timeJumpAcceptChecks)
  | .timeOutputSet => some (0x0702, timeOutputSetChecks)
  | .ptpSet => some (0x0703, ptpSetChecks)
  | .hbmChannelRelease => some (0x0800, hbmChannelReleaseChecks)
  | .hbmHistoryRead => some (0x0801, hbmHistoryReadChecks)
  | .hbmSet => some (0x0802, hbmSetChecks)
  | .laneEqSet => some (0x0900, laneEqSetChecks)
  | .laneEqRead => some (0x0901, laneEqReadChecks)
  | .loopSet => some (0x0902, loopSetChecks)
  | .patternSet => some (0x0903, patternSetChecks)
  | .fabricSet => some (0x0A00, fabricSetChecks)
  | .fabricRouteRead => some (0x0A01, fabricRouteReadChecks)
  | .fence => some (0x0010, fenceChecks)
  | .drainFence => some (0x0011, drainFenceChecks)
  | .funcStop => some (0x0012, funcStopChecks)
  | .funcStart => some (0x0013, funcStartChecks)
  | .eventQueueSet => some (0x0017, eventQueueSetChecks)
  | .eventRouteSet => some (0x0018, eventRouteSetChecks)
  | .mgtQueueSet => some (0x0019, mgtQueueSetChecks)
  | .sensorGet => some (0x0B11, sensorGetChecks)
  | .sensorSet => some (0x0B12, sensorSetChecks)
  | .logRead => some (0x0B10, logReadChecks)
  | .fwStage => some (0x0B00, fwStageChecks)
  | .fwActivate => some (0x0B01, fwActivateChecks)
  | .fwStatusRead => some (0x0B02, fwStatusReadChecks)
  | .fuseRead => some (0x0B03, fuseReadChecks)
  | .powerStateSet => some (0x0C00, powerStateSetChecks)
  | .dvfsSet => some (0x0C01, dvfsSetChecks)
  | .clockStatusRead => some (0x0C02, clockStatusReadChecks)
  | .resetIssue => some (0x0C03, resetIssueChecks)
  | .registerWrite _ _ | .unalignedAccess _ _ _ | .w1cClear _ _ _ | .rcRead _ | .counterLowRead _ _
  | .counterHighRead _ | .collisionCounterRead _ _ | .timeNsRead | .rngLaneTrxLoRead _ | .unreachableAccess _ _
  | .flitReceive _ _ _ | .bridgePortDown _ _ _ | .bridgeRetrain _ _ _ | .bridgePortUp _ _ | .routeTableInstall _
  | .bridgeSeqGapTimeout _ _ | .leaseSend | .leaseExpiry | .mirrorResyncComplete | .claimLineFree _ _
  | .claimProbe _ _ _ | .electionTimeout _ _ | .anchorFaultReport _ | .anchorOwnFault _ | .handoverLineRelease _
  | .peerPathReturn | .pcieLinkTrained | .takeCharge _ | .smbusDevIdRead | .smbusAnchorRead | .smbusLogStatusRead
  | .smbusSensorRead _ | .smbusBadCode _ | .blockLockWindow _ _ | .blockLockLost _ _ | .frameHeaderRx _ _
  | .trunkPacketHeaderRx _ _ | .reasmTimeout _ _ | .reasmDiscardExpiry _ _ | .settleWindowClose _ _
  | .oamRxDiscard _ _ | .discover _ _ | .rangeRequest _ _ | .eqdAssign _ _ | .tod _ _ | .announce _ _
  | .responseWaitExpiry _ | .rangeReply _ | .rangeTimeout _ | .applicationInstant _ | .holdoverExpiry _ | .todStale _
  | .grantMapRx _ _ | .grantTableComplete _ | .jumpHoldClear _ | .amend _ _ | .amendApply _ | .leaderSet _ _
  | .burstLaunch _ | .burstEndLeave _ | .fillEnd _ | .rateUpdate _ | .stagingBegin _ _ _ | .packetPlace _
  | .invocationDrawResume _ | .develop _ _ _ | .rebuildStart _ _ _ | .reportPolicy _ _ | .losDeclare _ | .losClear _
  | .lofDeclare _ | .lofClear _ | .windowEvaluate _ | .rdi _ _ | .rdiTimeout _ | .rdiPeriodic _ | .disable _ _
  | .disableApply _ | .enable _ _ | .protectEvaluate _ | .resteerComplete _ | .protectCommand _ _
  | .protectStatusSend _ | .protectStatus _ _ | .remoteStale _ | .protectNotify _ _ | .notifyResend _ | .notifyFail _
  | .notifyAck _ _ | .pmSecond _ | .hostFrameRx _ _ | .pauseFrameRx _ _ | .pauseExpiry _ _ | .pauseStorm _
  | .pauseStormEnd _ | .pauseSend _ | .pauseRefresh _ | .hostFrameTx _ | .portLinkChange _ _ _ | .lpiEnter _
  | .lpiExit _ | .linkFaultSignalChange _ | .parseAndClassify _ | .recircPass _ | .retirement _ | .retireForced _
  | .shadowLoadComplete _ | .bufferAlloc _ _ | .free _ _ _ | .handOff _ _ _ _ _ | .refAdd _ _ _ | .refDrop _ _ _
  | .xrefReclaim _ | .spillWriteComplete _ | .spillReadback _ | .readbackRetry _ | .pageReadComplete _ | .spillRemap _
  | .shaperEligible _ | .overflowWheelMove _ | .timedLaunchDue _ _ | .keyDeliver _ _ | .keyWriteComplete _
  | .keySwitch _ _ | .switchBoundary _ _ | .decryptComplete _ _ | .downHalfLifetimeEnd _ _ | .keyEraseComplete _
  | .utilityJobArrive _ | .utilityJobComplete | .timeSteer | .slewEnd | .timeCounterRestart | .gapEstimate
  | .ringMeasure _ | .hbmRequest _ _ | .hbmReadComplete _ _ | .hbmCaParity _ | .hbmServiceEntry _ | .hbmTempRead _
  | .hbmTempStale _ | .hbmRefresh _ _ | .hbmRetrain _ | .hbmRetrainEnd _ _ | .hbmRetrainRetry _ | .hbmSrEntry _
  | .hbmSrEntryComplete _ | .hbmSrExitComplete _ | .hbmReleaseComplete _ _ | .cdrLockGained _ | .cdrLost _
  | .deepEntry _ | .deepEntryComplete _ | .deepExit _ | .loopExpired _ | .loopBurst _ | .chkLock _ | .chkLockLost _ _ _ _
  | .helloSend _ | .hello _ _ | .fabricLinkDown _ _ | .idleCellSend _ | .fabricCellRx _ _ | .fabSeqHoldExpiry _ _
  | .addrFlood | .addr _ _ | .addrHoldExpiry _ | .lsaSend | .lsa _ _ | .lsaExpiry _ | .routeRecompute | .fabLpiEnter _
  | .ring _ | .abort _ _ | .requestAreaWrite _ _ _ | .commandTake | .serviceRequestRx _ | .fenceComplete _
  | .drainFenceComplete _ | .evqConsWrite _ | .vectorDelayExpiry _ | .msixUnmask _ | .txqTailWrite _ _
  | .txDescriptorRead _ _ _ | .txDescriptorWriteback _ | .rxqTailWrite _ _ | .mgtRxDeliver _ _ | .sensorSample _ _
  | .checkpoint _ | .activationStep _ | .sliceControllerSwitch _ | .fwStartTimeout | .clockStable _ _
  | .clockStopDetect _ _ | .freqWindow _ _ _ _ | .clockRecover _ _ | .domainRestart _ _ | .dvfsStep _ | .avsAck _
  | .avsTimeout _ | .avsPoll _ _ | .thermalThrottle _ _ _ | .thermalCapRelease _ | .thermalShutdown _ _ _
  | .idleEntry _ | .idleExit _ | .drowseEntry _ | .dormantEntry _ | .wakeStep _ | .quiesceTimeout _
  | .powerStateReached _ | .resetComplete _ | .powerOnReset _ | .pinReset _ | .sliceReset _ | .quarantineExit _ _
  | .removal | .presenceReturn _ | .perst | .gapSat | .deepExitComplete _ | .fwStageComplete _ | .logReadComplete _
  | .firmwareReady | .remoteFaultReceived _ _ | .receiveLpi _ _ => none

end Sys2Proof.Machine
end

