-- ==== Sys2Proof/Certificates/Slice0/Obligations.lean ====
section
/-!
DEFINITION. Certificates/Slice0/Obligations.lean: the statements for the provers.  OBLIGATIONS.json lists them with their titles and
sources.  The first group is about the whole device, the second says family by family that every command has its effect,
and the third states what commands of each family do.
-/
open Sys2Proof Sys2Proof.Machine

/-- With command `c` at the front of the queue, a step is `exec c` on the state with the queue's rest. -/
def Obligations.StepRunsFrontCommand : Prop :=
  ∀ (c : Instr) (q : List Instr) (s : State), step { s with pending := c :: q } = exec c { s with pending := q }

/-- On an empty queue a step lets one tick of 1.25 ns pass: the tick count is one higher and the queue is still empty.  This is
the model's choice (log 1). -/
def Obligations.EmptyQueueLetsATickPass : Prop :=
  ∀ s : State, s.pending = [] → ∃ t, step s = .next t ∧ t.now = s.now + 1 ∧ t.pending = []

/-- The state after reset has an empty queue and meets the invariant `Canonical`. -/
def Obligations.ResetIsCanonical : Prop := State.reset.pending = [] ∧ Canonical State.reset

/-- From every state in which every HBM channel's memory, the counters, the sticky flag words, the collision counters and the
holding registers are in canonical form, every counter fits 64 bits, every collision counter 8 bits, and the contact sheet
holds at most 16,384 records, a step that answers a next state gives such a state again, whichever command it runs and on a
tick. -/
def Obligations.StepKeepsCanonical : Prop :=
  ∀ s t : State, Canonical s → step s = .next t → Canonical t

/-- Whatever command runs, in whatever state, it answers a next state, and in that state the part, the serial number and the
fuses are as before, and so is the queue of commands. -/
def Obligations.CommandsKeepIdentity : Prop :=
  ∀ (c : Instr) (s : State), ∃ t, exec c s = .next t ∧ SameIdentity s t

/-- The frame of every command: it leaves unchanged every component of the state that `Instr.writes` does not list for it.  So
only the commands listed with `hbm` change a byte of HBM, only those listed with `keks` a key-encryption key, only those
listed with `slots` a key slot, and so on for each component. -/
def Obligations.CommandsWriteOnlyTheirComponents : Prop :=
  ∀ (c : Instr) (s t : State), exec c s = .next t → OnlyChanges (Instr.writes c) s t

/-- For each 64-bit clear-on-read counter of a region that can be reached, a read of the low word captures the full value into
the counter's holding register, returns bits [31:0] and clears the counter; `arriving` events of the same cycle count after
the clear; every other counter and holding register, and everything else but what was read, is unchanged.  A read of the
high word then returns bits [63:32] of the holding register and clears nothing. -/
def Obligations.CounterReadsAsAPair : Prop :=
  ∀ (addr arriving : Nat) (s : State), isCounterLow addr = true → addrAbsent s addr = false → addrCut s addr = false →
    Canonical s →
    ∃ t, exec (.counterLowRead addr arriving) s = .next t ∧
      t.env = { s.env with readData := BitVec.ofNat 64 (counterAt s (keyOf addr) % 2 ^ 32) } ∧
      sparseGet 0 t.regs.hold (keyOf addr) = counterAt s (keyOf addr) ∧
      counterAt t (keyOf addr) = arriving % 2 ^ 64 ∧
      (∀ a, a ≠ keyOf addr → counterAt t a = counterAt s a ∧ sparseGet 0 t.regs.hold a = sparseGet 0 s.regs.hold a) ∧
      t.regs.coll = s.regs.coll ∧ t.regs.roWriteAddr = s.regs.roWriteAddr ∧
      OnlyChanges [.env, .counters, .latches] s t ∧
      exec (.counterHighRead (addr + 4)) t =
        .next { t with env := { t.env with readData := BitVec.ofNat 64 (counterAt s (keyOf addr) / 2 ^ 32) } }

/-- In the region of an absent slice a read returns zero and changes nothing else, and an aligned write is ignored and counted as
a write to read-only space.  In the region of a present slice that the anchor cannot reach a read returns 0xFFFF_FFFF, a
write is ignored, and both are counted in MGT_UNREACH_ACCESS and change nothing else.
A read that is not aligned to its own width, or spans two words other than as an aligned 64-bit read, returns all zeros and
changes nothing else; a narrower or unaligned write outside the areas that take any width is ignored and counted as a write
to read-only space; a narrower aligned read of a word without read effects returns its bytes of the containing word. -/
def Obligations.AccessesWithoutEffect : Prop :=
  ((∀ (addr : Nat) (s : State), addrAbsent s addr = true →
    (isCounterLow addr = true → ∀ n, exec (.counterLowRead addr n) s = .next { s with env := { s.env with readData := 0 } }) ∧
    (isCounterHigh addr = true → exec (.counterHighRead addr) s = .next { s with env := { s.env with readData := 0 } }) ∧
    (addr % 4 = 0 → ∀ v, exec (.registerWrite addr v) s = .next (roWrite addr s))) ∧
  (∀ (addr : Nat) (s : State), addrAbsent s addr = false → addrCut s addr = true →
    (isCounterLow addr = true → ∀ n, exec (.counterLowRead addr n) s =
      .next { count1 aUnreach s with env := { s.env with readData := 0xFFFFFFFF } }) ∧
    (isCounterHigh addr = true → exec (.counterHighRead addr) s =
      .next { count1 aUnreach s with env := { s.env with readData := 0xFFFFFFFF } }) ∧
    (addr % 4 = 0 → ∀ v, exec (.registerWrite addr v) s = .next (count1 aUnreach s))) ∧
  (∀ (k : SliceId) (s : State), unreachableAccessGuard k false s = true →
    exec (.unreachableAccess k false) s = .next { count1 aUnreach s with env := { s.env with readData := 0xFFFFFFFF } } ∧
    exec (.unreachableAccess k true) s = .next (count1 aUnreach s))) ∧
  ((∀ (addr width : Nat) (s : State), wellAligned addr width = false →
    exec (.unalignedAccess addr width false) s = .next { s with env := { s.env with readData := 0 } }) ∧
  (∀ (addr width : Nat) (s : State), (width = 4 → addr % 4 ≠ 0) → (width = 8 → addr % 8 ≠ 0) → anyWidth addr = false →
    exec (.unalignedAccess addr width true) s =
      .next { count1 aRoWrites s with regs := { (count1 aRoWrites s).regs with roWriteAddr := BitVec.ofNat 32 addr } }) ∧
  (∀ (addr width : Nat) (s : State), width = 1 ∨ width = 2 → addr % width = 0 →
    (readWord (addr - addr % 4) 0 0 s).2 = s →
    exec (.unalignedAccess addr width false) s =
      .next { s with env := { s.env with readData :=
        (((readWord (addr - addr % 4) 0 0 s).1 >>> (8 * (addr % 4))) &&& BitVec.ofNat 32 (2 ^ (8 * width) - 1)).setWidth 64 } }))

/-- A host write to a W1C word that can be reached, in a cycle in which hardware sets none of its flags, clears exactly the flags
written with 1: every other flag of the word, every other flag word and every other component is unchanged.
Hardware sets flag `b` of a word in a cycle of a host write, with the host event queue disabled.  Where the host does not
clear it: a flag already 1 changes nothing; a flag at 0 becomes 1 and one FLAG_SET record is written.  Where the host
writes 1 to it in that cycle: the flag is 1, the register's collision counter is one higher up to 255, MGT_W1C_COLLISIONS
counts, and one FLAG_SET record with COLLISION is written. -/
def Obligations.StickyFlags : Prop :=
  (∀ (addr : Nat) (value : Word) (s : State), w1cClearGuard addr value 0 s = true → Canonical s →
    ∃ t, exec (.w1cClear addr value 0) s = .next t ∧
      flagWord t (keyOf addr) = flagWord s (keyOf addr) &&& ~~~(value &&& w1cMask addr) ∧
      (∀ a, a ≠ keyOf addr → flagWord t a = flagWord s a) ∧
      OnlyChanges [.flags] s t) ∧
  (∀ (addr b : Nat) (s : State), w1cClearGuard addr 0 0 s = true → b < 32 → (w1cMask addr).getLsbD b = true →
    s.ev.evq.enabled = false → s.ev.log.length < 16384 → Canonical s →
    ((flagWord s (keyOf addr)).getLsbD b = true → exec (.w1cClear addr 0 (BitVec.ofNat 32 (2 ^ b))) s = .next s) ∧
    ((flagWord s (keyOf addr)).getLsbD b = false → ∃ t, exec (.w1cClear addr 0 (BitVec.ofNat 32 (2 ^ b))) s = .next t ∧
      flagWord t (keyOf addr) = flagWord s (keyOf addr) ||| BitVec.ofNat 32 (2 ^ b) ∧
      t.ev.log = flagRecord s (keyOf addr) (2 ^ b) false :: s.ev.log ∧ t.ev.nextSeq = s.ev.nextSeq + 1 ∧
      OnlyChanges [.flags, .log] s t) ∧
    ∃ t, exec (.w1cClear addr (BitVec.ofNat 32 (2 ^ b)) (BitVec.ofNat 32 (2 ^ b))) s = .next t ∧
      flagWord t (keyOf addr) = flagWord s (keyOf addr) ||| BitVec.ofNat 32 (2 ^ b) ∧
      sparseGet 0 t.regs.coll (keyOf addr) = min 255 (sparseGet 0 s.regs.coll (keyOf addr) + 1) ∧
      counterAt t aCollisions = (counterAt s aCollisions + 1) % 2 ^ 64 ∧
      t.ev.log = flagRecord s (keyOf addr) (2 ^ b) true :: s.ev.log ∧ t.ev.nextSeq = s.ev.nextSeq + 1 ∧
      OnlyChanges [.counters, .flags, .latches, .log] s t)

/-- In the state after reset: every group has the provisioning, forecast and defect parameters that R81, R179 and R213 state;
every port has MAX_FRAME 10,240 and OVERHEAD 20 and every shaper is unshaped; every account is unbound with OVERHEAD 8; the
MANAGEMENT quota is 16 buffers in each pool; a key slot is empty with the default limits; every HBM channel is in RESET; the
first record number is 0, and every vector has COUNT 1 and DELAY 0. -/
def Obligations.ResetValuesOfTheSpec : Prop :=
  (∀ g : GroupId, (groupAt State.reset g).coarseRtt = 0xFFFFFFFF ∧ (groupAt State.reset g).announce = false ∧
    (groupAt State.reset g).modemTx = 0 ∧ (groupAt State.reset g).modemRx = 0 ∧ (groupAt State.reset g).asym = 0 ∧
    (groupAt State.reset g).holdoverLimit = 60 ∧ (groupAt State.reset g).timeLaneCfg = none ∧
    (groupAt State.reset g).timeSource = false ∧
    (groupAt State.reset g).predict = true ∧ (groupAt State.reset g).preempt = false ∧ (groupAt State.reset g).horizon = 0 ∧
    (groupAt State.reset g).depth = 32000 ∧ (groupAt State.reset g).cutoff = 1600 ∧ (groupAt State.reset g).margin = 3200 ∧
    (groupAt State.reset g).holdoff = 8000 ∧ (groupAt State.reset g).w1 = 4 ∧ (groupAt State.reset g).w8 = 8 ∧
    (groupAt State.reset g).w64 = 4 ∧ (groupAt State.reset g).reportMask = 0xFFFFFFFFFFFFFFFF ∧
    (groupAt State.reset g).lfOnAis = true ∧ (groupAt State.reset g).lfOnLosLof = false ∧
    (groupAt State.reset g).laneThresh = 1 ∧ (groupAt State.reset g).lofTime = 300 ∧ (groupAt State.reset g).sfThresh = 400 ∧
    (groupAt State.reset g).sdThresh = 40 ∧ (groupAt State.reset g).lfPorts = 0) ∧
  (∀ p : PortId, (portAt State.reset p).maxFrame = 10240 ∧ (portAt State.reset p).overhead = 20) ∧
  (∀ sh, (shaperAt State.reset sh).rate = 0 ∧ (shaperAt State.reset sh).burst = 16384) ∧
  (∀ a : AccountId, (acctAt State.reset a).bind = .unbound ∧ (acctAt State.reset a).overhead = 8) ∧
  (∀ (k : SliceId) (u p : Nat), p < 5 → quotaOf (bufAt State.reset k) u p = if u = 14 then 16 else 0) ∧
  (∀ n, (slotAt State.reset n).halves[(0 : Fin 2)].state = .empty ∧ (slotAt State.reset n).halves[(1 : Fin 2)].state = .empty ∧
    (slotAt State.reset n).limInv = 2 ^ 32 ∧ (slotAt State.reset n).limBlocks = 2 ^ 36) ∧
  (∀ c : ChanId, (chanAt State.reset c).st = .reset) ∧
  State.reset.ev.nextSeq = 0 ∧ (∀ v : VectorId, State.reset.ev.vecs[v].count = 1 ∧ State.reset.ev.vecs[v].delay = 0)

/-- Each command of this family that has an effect under the spec takes it: for every state and operands that meet the
command's conditions, the command answers the next state of its own effect.  For a mailbox command the conditions are
that the request being executed carries its opcode and passes its checks, and the next state is its effect with the
response written, or the long command's start; for a downstream OAM message, that it passes the six tests of R86. -/
def Obligations.RegisterAccessesComplete : Prop :=
  (∀ (addr : Nat) (value : Word) (s : State), registerWriteGuard addr value s = true →
    exec (.registerWrite addr value) s = .next (registerWriteEffect addr value s)) ∧
  (∀ (addr : Nat) (s : State), rcReadGuard addr s = true →
    exec (.rcRead addr) s = .next (rcReadEffect addr s)) ∧
  (∀ (addr : Nat) (arriving : Nat) (s : State), counterLowReadGuard addr arriving s = true →
    exec (.counterLowRead addr arriving) s = .next (counterLowReadEffect addr arriving s)) ∧
  (∀ (addr : Nat) (s : State), counterHighReadGuard addr s = true →
    exec (.counterHighRead addr) s = .next (counterHighReadEffect addr s))

/-- Each command of this family that has an effect under the spec takes it: for every state and operands that meet the
command's conditions, the command answers the next state of its own effect.  For a mailbox command the conditions are
that the request being executed carries its opcode and passes its checks, and the next state is its effect with the
response written, or the long command's start; for a downstream OAM message, that it passes the six tests of R86. -/
def Obligations.BridgeAndAnchorCommandsComplete : Prop :=
  (∀ (slice : SliceId) (write : Bool) (s : State), unreachableAccessGuard slice write s = true →
    exec (.unreachableAccess slice write) s = .next (unreachableAccessEffect slice write s)) ∧
  (∀ (m : MboxId) (r : Request) (s : State), current 0x0101 s = some (m, r) →
    firstFailing (trunkGroupSetChecks r s) = none → exec .trunkGroupSet s = .next (finish m (trunkGroupSetApply r s))) ∧
  (∀ (slice : SliceId) (port : BridgePort) (flit : Flit) (s : State), flitReceiveGuard slice port flit s = true →
    exec (.flitReceive slice port flit) s = .next (flitReceiveEffect slice port flit s)) ∧
  (∀ (slice : SliceId) (port : BridgePort) (cause : BridgeDownCause) (s : State), bridgePortDownGuard slice port cause s = true →
    exec (.bridgePortDown slice port cause) s = .next (bridgePortDownEffect slice port s)) ∧
  (∀ (slice : SliceId) (port : BridgePort) (goodFlits : Nat) (s : State), bridgeRetrainGuard slice port s = true →
    exec (.bridgeRetrain slice port goodFlits) s = .next (bridgeRetrainEffect slice port goodFlits s)) ∧
  (∀ (slice : SliceId) (port : BridgePort) (s : State), bridgePortUpGuard slice port s = true →
    exec (.bridgePortUp slice port) s = .next (bridgePortUpEffect slice port s)) ∧
  (∀ (slice : SliceId) (s : State), routeTableInstallGuard slice s = true →
    exec (.routeTableInstall slice) s = .next (routeTableInstallEffect slice s)) ∧
  (∀ (dst : SliceId) (src : SliceId) (s : State), bridgeSeqGapTimeoutGuard dst src s = true →
    exec (.bridgeSeqGapTimeout dst src) s = .next (bridgeSeqGapTimeoutEffect dst src s)) ∧
  (∀ (s : State), leaseSendGuard s = true →
    exec .leaseSend s = .next (leaseSendEffect s)) ∧
  (∀ (s : State), leaseExpiryGuard s = true →
    exec .leaseExpiry s = .next (leaseExpiryEffect s)) ∧
  (∀ (s : State), mirrorResyncCompleteGuard s = true →
    exec .mirrorResyncComplete s = .next (mirrorResyncCompleteEffect s)) ∧
  (∀ (half : Half) (high : Bool) (s : State), claimLineFreeGuard half high s = true →
    exec (.claimLineFree half high) s = .next (claimLineFreeEffect half high s)) ∧
  (∀ (half : Half) (lowWhileDriving : Bool) (highInWindow : Bool) (s : State), claimProbeGuard half s = true →
    exec (.claimProbe half lowWhileDriving highInWindow) s = .next (claimProbeEffect half lowWhileDriving highInWindow s)) ∧
  (∀ (half : Half) (high : Bool) (s : State), electionTimeoutGuard half s = true →
    exec (.electionTimeout half high) s = .next (electionTimeoutEffect half high s)) ∧
  (∀ (half : Half) (s : State), anchorFaultReportGuard half s = true →
    exec (.anchorFaultReport half) s = .next (anchorFaultReportEffect half s)) ∧
  (∀ (half : Half) (s : State), anchorOwnFaultGuard half s = true →
    exec (.anchorOwnFault half) s = .next (anchorOwnFaultEffect half s)) ∧
  (∀ (half : Half) (s : State), handoverLineReleaseGuard half s = true →
    exec (.handoverLineRelease half) s = .next (handoverLineReleaseEffect half s)) ∧
  (∀ (s : State), peerPathReturnGuard s = true →
    exec .peerPathReturn s = .next (peerPathReturnEffect s)) ∧
  (∀ (s : State), pcieLinkTrainedGuard s = true →
    exec .pcieLinkTrained s = .next (pcieLinkTrainedEffect s)) ∧
  (∀ (half : Half) (s : State), takeChargeGuard half s = true →
    exec (.takeCharge half) s = .next (takeChargeEffect half s)) ∧
  (∀ (m : MboxId) (r : Request) (s : State), current 0x0021 s = some (m, r) →
    firstFailing (anchorHandoverChecks r s) = none → exec .anchorHandover s = .next (finish m (anchorHandoverApply r s)))

/-- Each command of this family that has an effect under the spec takes it: for every state and operands that meet the
command's conditions, the command answers the next state of its own effect.  For a mailbox command the conditions are
that the request being executed carries its opcode and passes its checks, and the next state is its effect with the
response written, or the long command's start; for a downstream OAM message, that it passes the six tests of R86. -/
def Obligations.FramingCommandsComplete : Prop :=
  (∀ (lane : Lane) (s : State), rngLaneTrxLoReadGuard lane s = true →
    exec (.rngLaneTrxLoRead lane) s = .next (rngLaneTrxLoReadEffect lane s)) ∧
  (∀ (lane : Lane) (counts : List Nat) (s : State), blockLockWindowGuard lane counts s = true →
    exec (.blockLockWindow lane counts) s = .next (blockLockWindowEffect lane counts s)) ∧
  (∀ (lane : Lane) (llos : Bool) (s : State), blockLockLostGuard lane llos s = true →
    exec (.blockLockLost lane llos) s = .next (blockLockLostEffect lane llos s)) ∧
  (∀ (lane : Lane) (rx : HeaderRx) (s : State), frameHeaderRxGuard lane s = true →
    exec (.frameHeaderRx lane rx) s = .next (frameHeaderRxEffect lane rx s)) ∧
  (∀ (lane : Lane) (word : Nat) (s : State), trunkPacketHeaderRxGuard lane word s = true →
    exec (.trunkPacketHeaderRx lane word) s = .next (trunkPacketHeaderRxEffect lane s)) ∧
  (∀ (lane : Lane) (portId : BitVec 20) (s : State), reasmTimeoutGuard lane portId s = true →
    exec (.reasmTimeout lane portId) s = .next (reasmTimeoutEffect lane portId s)) ∧
  (∀ (lane : Lane) (portId : BitVec 20) (s : State), reasmDiscardExpiryGuard lane portId s = true →
    exec (.reasmDiscardExpiry lane portId) s = .next (reasmDiscardExpiryEffect lane portId s)) ∧
  (∀ (lane : Lane) (portId : Option PortTag) (s : State), settleWindowCloseGuard lane portId s = true →
    exec (.settleWindowClose lane portId) s = .next (settleWindowCloseEffect lane portId s)) ∧
  (∀ (m : MboxId) (r : Request) (s : State), current 0x0110 s = some (m, r) →
    firstFailing (portFilterWriteChecks r s) = none → exec .portFilterWrite s = .next (finish m (portFilterWriteApply r s))) ∧
  (∀ (m : MboxId) (r : Request) (s : State), current 0x0111 s = some (m, r) →
    firstFailing (portFilterReadChecks r s) = none → exec .portFilterRead s = .next (finish m (portFilterReadApply r s)))

/-- Each command of this family that has an effect under the spec takes it: for every state and operands that meet the
command's conditions, the command answers the next state of its own effect.  For a mailbox command the conditions are
that the request being executed carries its opcode and passes its checks, and the next state is its effect with the
response written, or the long command's start; for a downstream OAM message, that it passes the six tests of R86. -/
def Obligations.RangingCommandsComplete : Prop :=
  (∀ (lane : Lane) (msg : OamRx) (s : State), exec (.oamRxDiscard lane msg) s = .next (oamDiscard s lane msg)) ∧
  (∀ (lane : Lane) (msg : OamRx) (g : GroupId) (s : State), msgCrcOk msg = true → msgType msg = 0x01 → oamVerdict s lane msg = .pass g →
    discoverTest msg g s = .ok → isDup (groupAt s g) msg (carrierStamp s lane msg) = false →
    exec (.discover lane msg) s = .next (discoverAct msg g (recordDup g msg (carrierStamp s lane msg) (takeUnit lane msg s)))) ∧
  (∀ (lane : Lane) (msg : OamRx) (g : GroupId) (s : State), msgCrcOk msg = true → msgType msg = 0x03 → oamVerdict s lane msg = .pass g →
    isDup (groupAt s g) msg (carrierStamp s lane msg) = false →
    exec (.rangeRequest lane msg) s = .next (rangeRequestAct lane msg g (recordDup g msg (carrierStamp s lane msg) (takeUnit lane msg s)))) ∧
  (∀ (lane : Lane) (msg : OamRx) (g : GroupId) (s : State), msgCrcOk msg = true → msgType msg = 0x05 → oamVerdict s lane msg = .pass g →
    isDup (groupAt s g) msg (carrierStamp s lane msg) = false →
    exec (.eqdAssign lane msg) s = .next (eqdAssignAct lane msg g (recordDup g msg (carrierStamp s lane msg) (takeUnit lane msg s)))) ∧
  (∀ (lane : Lane) (msg : OamRx) (g : GroupId) (s : State), msgCrcOk msg = true → msgType msg = 0x06 → oamVerdict s lane msg = .pass g →
    todTest lane msg g s = .ok → isDup (groupAt s g) msg (carrierStamp s lane msg) = false →
    exec (.tod lane msg) s = .next (todAct lane msg g (recordDup g msg (carrierStamp s lane msg) (takeUnit lane msg s)))) ∧
  (∀ (m : MboxId) (r : Request) (s : State), current 0x0120 s = some (m, r) →
    firstFailing (rangeProvisionChecks r s) = none → exec .rangeProvision s = .next (finish m (rangeProvisionApply r s))) ∧
  (∀ (group : GroupId) (start : Nat) (s : State), announceGuard group start s = true →
    exec (.announce group start) s = .next (announceEffect group start s)) ∧
  (∀ (group : GroupId) (s : State), responseWaitExpiryGuard group s = true →
    exec (.responseWaitExpiry group) s = .next (responseWaitExpiryEffect group s)) ∧
  (∀ (lane : Lane) (s : State), rangeReplyGuard lane s = true →
    exec (.rangeReply lane) s = .next (rangeReplyEffect lane s)) ∧
  (∀ (group : GroupId) (s : State), rangeTimeoutGuard group s = true →
    exec (.rangeTimeout group) s = .next (enterListen group s)) ∧
  (∀ (group : GroupId) (s : State), applicationInstantGuard group s = true →
    exec (.applicationInstant group) s = .next (applicationInstantEffect group s)) ∧
  (∀ (group : GroupId) (s : State), holdoverExpiryGuard group s = true →
    exec (.holdoverExpiry group) s = .next (holdoverExpiryEffect group s)) ∧
  (∀ (group : GroupId) (s : State), todStaleGuard group s = true →
    exec (.todStale group) s = .next (todStaleEffect group s))

/-- Each command of this family that has an effect under the spec takes it: for every state and operands that meet the
command's conditions, the command answers the next state of its own effect.  For a mailbox command the conditions are
that the request being executed carries its opcode and passes its checks, and the next state is its effect with the
response written, or the long command's start; for a downstream OAM message, that it passes the six tests of R86. -/
def Obligations.GrantAndBurstCommandsComplete : Prop :=
  (∀ (lane : Lane) (body : BitVec 256) (s : State), grantMapRxGuard lane s = true →
    exec (.grantMapRx lane body) s = .next (grantMapRxEffect lane body s)) ∧
  (∀ (lane : Lane) (s : State), grantTableCompleteGuard lane s = true →
    exec (.grantTableComplete lane) s = .next (grantTableCompleteEffect lane s)) ∧
  (∀ (lane : Lane) (s : State), jumpHoldClearGuard lane s = true →
    exec (.jumpHoldClear lane) s = .next (jumpHoldClearEffect lane s)) ∧
  (∀ (lane : Lane) (msg : OamRx) (g : GroupId) (s : State), msgCrcOk msg = true → msgType msg = 0x0A → oamVerdict s lane msg = .pass g →
    isDup (groupAt s g) msg (carrierStamp s lane msg) = false →
    exec (.amend lane msg) s = .next (amendAct lane msg g (recordDup g msg (carrierStamp s lane msg) (takeUnit lane msg s)))) ∧
  (∀ (group : GroupId) (s : State), amendApplyGuard group s = true →
    exec (.amendApply group) s = .next (amendApplyEffect group s)) ∧
  (∀ (lane : Lane) (msg : OamRx) (g : GroupId) (s : State), msgCrcOk msg = true → msgType msg = 0x07 → oamVerdict s lane msg = .pass g →
    isDup (groupAt s g) msg (carrierStamp s lane msg) = false →
    exec (.leaderSet lane msg) s = .next (leaderSetAct lane msg g (recordDup g msg (carrierStamp s lane msg) (takeUnit lane msg s)))) ∧
  (∀ (lane : Lane) (s : State), burstLaunchGuard lane s = true →
    exec (.burstLaunch lane) s = .next (burstLaunchEffect lane s)) ∧
  (∀ (lane : Lane) (s : State), burstEndLeaveGuard lane s = true →
    exec (.burstEndLeave lane) s = .next (burstEndLeaveEffect lane s)) ∧
  (∀ (lane : Lane) (s : State), fillEndGuard lane s = true →
    exec (.fillEnd lane) s = .next (fillEndEffect lane s)) ∧
  (∀ (m : MboxId) (r : Request) (s : State), current 0x0130 s = some (m, r) →
    firstFailing (grantTableReadChecks r s) = none → exec .grantTableRead s = .next (finish m (grantTableReadApply r s))) ∧
  (∀ (group : GroupId) (s : State), rateUpdateGuard group s = true →
    exec (.rateUpdate group) s = .next (rateUpdateEffect group s)) ∧
  (∀ (lane : Lane) (epoch : Nat) (start : Nat) (s : State), stagingBeginGuard lane epoch start s = true →
    exec (.stagingBegin lane epoch start) s = .next (stagingBeginEffect lane epoch start s)) ∧
  (∀ (account : AccountId) (s : State), packetPlaceGuard account s = true →
    exec (.packetPlace account) s = .next (packetPlaceEffect account s)) ∧
  (∀ (lane : Lane) (epoch : Nat) (start : Nat) (s : State), developGuard lane epoch start s = true →
    exec (.develop lane epoch start) s = .next (developEffect lane epoch start s)) ∧
  (∀ (lane : Lane) (epoch : Nat) (start : Nat) (s : State), rebuildStartGuard lane epoch start s = true →
    exec (.rebuildStart lane epoch start) s = .next (rebuildStartEffect lane epoch start s)) ∧
  (∀ (lane : Lane) (msg : OamRx) (g : GroupId) (s : State), msgCrcOk msg = true → msgType msg = 0x0E → oamVerdict s lane msg = .pass g →
    isDup (groupAt s g) msg (carrierStamp s lane msg) = false →
    exec (.reportPolicy lane msg) s = .next (reportPolicyAct lane msg g (recordDup g msg (carrierStamp s lane msg) (takeUnit lane msg s)))) ∧
  (∀ (m : MboxId) (r : Request) (s : State), current 0x0140 s = some (m, r) →
    firstFailing (runaheadSetChecks r s) = none → exec .runaheadSet s = .next (finish m (runaheadSetApply r s))) ∧
  (∀ (m : MboxId) (r : Request) (s : State), current 0x0141 s = some (m, r) →
    firstFailing (accountStopChecks r s) = none → exec .accountStop s = .next (finish m (accountStopApply r s)))

/-- Each command of this family that has an effect under the spec takes it: for every state and operands that meet the
command's conditions, the command answers the next state of its own effect.  For a mailbox command the conditions are
that the request being executed carries its opcode and passes its checks, and the next state is its effect with the
response written, or the long command's start; for a downstream OAM message, that it passes the six tests of R86. -/
def Obligations.DefectAndProtectionCommandsComplete : Prop :=
  (∀ (lane : Lane) (s : State), losDeclareGuard lane s = true →
    exec (.losDeclare lane) s = .next (losDeclareEffect lane s)) ∧
  (∀ (lane : Lane) (s : State), losClearGuard lane s = true →
    exec (.losClear lane) s = .next (losClearEffect lane s)) ∧
  (∀ (lane : Lane) (s : State), lofDeclareGuard lane s = true →
    exec (.lofDeclare lane) s = .next (lofDeclareEffect lane s)) ∧
  (∀ (lane : Lane) (s : State), lofClearGuard lane s = true →
    exec (.lofClear lane) s = .next (lofClearEffect lane s)) ∧
  (∀ (lane : Lane) (s : State), windowEvaluateGuard lane s = true →
    exec (.windowEvaluate lane) s = .next (windowEvaluateEffect lane s)) ∧
  (∀ (lane : Lane) (msg : OamRx) (g : GroupId) (s : State), msgCrcOk msg = true → msgType msg = 0x0B → oamVerdict s lane msg = .pass g →
    isDup (groupAt s g) msg (carrierStamp s lane msg) = false →
    exec (.rdi lane msg) s = .next (rdiAct msg g (recordDup g msg (carrierStamp s lane msg) (takeUnit lane msg s)))) ∧
  (∀ (group : GroupId) (s : State), rdiTimeoutGuard group s = true →
    exec (.rdiTimeout group) s = .next (rdiTimeoutEffect group s)) ∧
  (∀ (group : GroupId) (s : State), rdiPeriodicGuard group s = true →
    exec (.rdiPeriodic group) s = .next (queueRdi group s)) ∧
  (∀ (lane : Lane) (msg : OamRx) (g : GroupId) (s : State), msgCrcOk msg = true → msgType msg = 0x0C → oamVerdict s lane msg = .pass g →
    serialTest msg g s = .ok → isDup (groupAt s g) msg (carrierStamp s lane msg) = false →
    exec (.disable lane msg) s = .next (disableAct msg g (recordDup g msg (carrierStamp s lane msg) (takeUnit lane msg s)))) ∧
  (∀ (group : GroupId) (s : State), disableApplyGuard group s = true →
    exec (.disableApply group) s = .next (disableApplyEffect group s)) ∧
  (∀ (lane : Lane) (msg : OamRx) (g : GroupId) (s : State), msgCrcOk msg = true → msgType msg = 0x0D → oamVerdict s lane msg = .pass g →
    serialTest msg g s = .ok → isDup (groupAt s g) msg (carrierStamp s lane msg) = false →
    exec (.enable lane msg) s = .next (enableAct msg g (recordDup g msg (carrierStamp s lane msg) (takeUnit lane msg s)))) ∧
  (∀ (group : GroupId) (s : State), protectEvaluateGuard group s = true →
    exec (.protectEvaluate group) s = .next (protectEvaluateEffect group s)) ∧
  (∀ (group : GroupId) (s : State), resteerCompleteGuard group s = true →
    exec (.resteerComplete group) s = .next (resteerCompleteEffect group s)) ∧
  (∀ (lane : Lane) (msg : OamRx) (g : GroupId) (s : State), msgCrcOk msg = true → msgType msg = 0x0F → oamVerdict s lane msg = .pass g →
    isDup (groupAt s g) msg (carrierStamp s lane msg) = false →
    exec (.protectCommand lane msg) s = .next (protectCommandAct msg g (recordDup g msg (carrierStamp s lane msg) (takeUnit lane msg s)))) ∧
  (∀ (src : Nat) (payload : List Byte) (s : State), exec (.protectStatus src payload) s = .next (statusAct 0 src payload s)) ∧
  (∀ (group : GroupId) (s : State), remoteStaleGuard group s = true →
    exec (.remoteStale group) s = .next (remoteStaleEffect group s)) ∧
  (∀ (group : GroupId) (s : State), pmSecondGuard group s = true →
    exec (.pmSecond group) s = .next (pmSecondEffect group s)) ∧
  (∀ (m : MboxId) (r : Request) (s : State), current 0x0150 s = some (m, r) →
    firstFailing (defectSetChecks r s) = none → exec .defectSet s = .next (finish m (defectSetApply r s))) ∧
  (∀ (m : MboxId) (r : Request) (s : State), current 0x0151 s = some (m, r) →
    firstFailing (protectSetChecks r s) = none → exec .protectSet s = .next (finish m (protectSetApply r s))) ∧
  (∀ (m : MboxId) (r : Request) (s : State), current 0x0152 s = some (m, r) →
    firstFailing (protectRequestChecks r s) = none → exec .protectRequest s = .next (finish m (protectRequestApply r s))) ∧
  (∀ (m : MboxId) (r : Request) (s : State), current 0x0153 s = some (m, r) →
    firstFailing (pmReadChecks r s) = none → exec .pmRead s = .next (finish m (pmReadApply r s)))

/-- Each command of this family that has an effect under the spec takes it: for every state and operands that meet the
command's conditions, the command answers the next state of its own effect.  For a mailbox command the conditions are
that the request being executed carries its opcode and passes its checks, and the next state is its effect with the
response written, or the long command's start; for a downstream OAM message, that it passes the six tests of R86. -/
def Obligations.HostPortCommandsComplete : Prop :=
  (∀ (m : MboxId) (r : Request) (s : State), current 0x0200 s = some (m, r) →
    firstFailing (portModeSetChecks r s) = none → exec .portModeSet s = .next (finish m (portModeSetApply r s))) ∧
  (∀ (port : PortId) (frame : FrameRx) (s : State), hostFrameRxGuard port s = true →
    exec (.hostFrameRx port frame) s = .next (hostFrameRxEffect port frame s)) ∧
  (∀ (port : PortId) (frame : PauseRx) (s : State), pauseFrameRxGuard port s = true →
    exec (.pauseFrameRx port frame) s = .next (pauseFrameRxEffect port frame s)) ∧
  (∀ (port : PortId) (queue : QueueId) (s : State), pauseExpiryGuard port queue s = true →
    exec (.pauseExpiry port queue) s = .next (pauseExpiryEffect port queue s)) ∧
  (∀ (port : PortId) (s : State), pauseStormGuard port s = true →
    exec (.pauseStorm port) s = .next (pauseStormEffect port s)) ∧
  (∀ (port : PortId) (s : State), pauseStormEndGuard port s = true →
    exec (.pauseStormEnd port) s = .next (pauseStormEndEffect port s)) ∧
  (∀ (port : PortId) (s : State), pauseSendGuard port s = true →
    exec (.pauseSend port) s = .next (pauseSendEffect port s)) ∧
  (∀ (port : PortId) (s : State), pauseRefreshGuard port s = true →
    exec (.pauseRefresh port) s = .next (pauseRefreshEffect port s)) ∧
  (∀ (port : PortId) (s : State), hostFrameTxGuard port s = true →
    exec (.hostFrameTx port) s = .next (hostFrameTxEffect port s)) ∧
  (∀ (port : PortId) (aligned : Bool) (localFault : Bool) (s : State), portLinkChangeGuard port s = true →
    exec (.portLinkChange port aligned localFault) s = .next (portLinkChangeEffect port aligned localFault s)) ∧
  (∀ (port : PortId) (s : State), lpiEnterGuard port s = true →
    exec (.lpiEnter port) s = .next (lpiEnterEffect port s)) ∧
  (∀ (port : PortId) (s : State), lpiExitGuard port s = true →
    exec (.lpiExit port) s = .next (lpiExitEffect port s)) ∧
  (∀ (port : PortId) (s : State), linkFaultSignalChangeGuard port s = true →
    exec (.linkFaultSignalChange port) s = .next (linkFaultSignalChangeEffect port s)) ∧
  (∀ (m : MboxId) (r : Request) (s : State), current 0x0201 s = some (m, r) →
    firstFailing (portSetChecks r s) = none → exec .portSet s = .next (finish m (portSetApply r s))) ∧
  (∀ (m : MboxId) (r : Request) (s : State), current 0x0202 s = some (m, r) →
    firstFailing (flowControlSetChecks r s) = none → exec .flowControlSet s = .next (finish m (flowControlSetApply r s))) ∧
  (∀ (m : MboxId) (r : Request) (s : State), current 0x0203 s = some (m, r) →
    firstFailing (eeeSetChecks r s) = none → exec .eeeSet s = .next (finish m (eeeSetApply r s))) ∧
  (∀ (m : MboxId) (r : Request) (s : State), current 0x0204 s = some (m, r) →
    firstFailing (macFilterWriteChecks r s) = none → exec .macFilterWrite s = .next (finish m (macFilterWriteApply r s))) ∧
  (∀ (m : MboxId) (r : Request) (s : State), current 0x0205 s = some (m, r) →
    firstFailing (macFilterReadChecks r s) = none → exec .macFilterRead s = .next (finish m (macFilterReadApply r s))) ∧
  (∀ (port : PortId) (on : Bool) (s : State), remoteFaultReceivedGuard port s = true →
    exec (.remoteFaultReceived port on) s = .next (remoteFaultReceivedEffect port on s)) ∧
  (∀ (lane : LpiRef) (on : Bool) (s : State), receiveLpiGuard lane s = true →
    exec (.receiveLpi lane on) s = .next (receiveLpiEffect lane on s))

/-- Each command of this family that has an effect under the spec takes it: for every state and operands that meet the
command's conditions, the command answers the next state of its own effect.  For a mailbox command the conditions are
that the request being executed carries its opcode and passes its checks, and the next state is its effect with the
response written, or the long command's start; for a downstream OAM message, that it passes the six tests of R86. -/
def Obligations.ClassifierCommandsComplete : Prop :=
  (∀ (slice : SliceId) (s : State), parseAndClassifyGuard slice s = true →
    exec (.parseAndClassify slice) s = .next (parseAndClassifyEffect slice s)) ∧
  (∀ (slice : SliceId) (s : State), recircPassGuard slice s = true →
    exec (.recircPass slice) s = .next (recircPassEffect slice s)) ∧
  (∀ (slice : SliceId) (s : State), retirementGuard slice s = true →
    exec (.retirement slice) s = .next (retirementEffect slice s)) ∧
  (∀ (slice : SliceId) (s : State), retireForcedGuard slice s = true →
    exec (.retireForced slice) s = .next (retireForcedEffect slice s)) ∧
  (∀ (m : MboxId) (r : Request) (s : State), current 0x0300 s = some (m, r) →
    firstFailing (clsSourceSetChecks r s) = none → exec .clsSourceSet s = .next (finish m (clsSourceSetApply r s))) ∧
  (∀ (m : MboxId) (r : Request) (s : State), current 0x0301 s = some (m, r) →
    firstFailing (profileSetChecks r s) = none → exec .profileSet s = .next (finish m (profileSetApply r s))) ∧
  (∀ (m : MboxId) (r : Request) (s : State), current 0x0302 s = some (m, r) →
    firstFailing (ruleWriteChecks r s) = none → exec .ruleWrite s = .next (finish m (ruleWriteApply r s))) ∧
  (∀ (m : MboxId) (r : Request) (s : State), current 0x0303 s = some (m, r) →
    firstFailing (ruleReadChecks r s) = none → exec .ruleRead s = .next (finish m (ruleReadApply r s))) ∧
  (∀ (m : MboxId) (r : Request) (s : State), current 0x0304 s = some (m, r) →
    firstFailing (ruleCommitChecks r s) = none → exec .ruleCommit s = .next (finish m (ruleCommitApply r s))) ∧
  (∀ (m : MboxId) (r : Request) (s : State), current 0x0305 s = some (m, r) →
    firstFailing (tableModeSetChecks r s) = none → exec .tableModeSet s = .next (finish m (tableModeSetApply r s))) ∧
  (∀ (slice : SliceId) (s : State), shadowLoadCompleteGuard slice s = true →
    exec (.shadowLoadComplete slice) s = .next (shadowLoadCompleteEffect slice s)) ∧
  (∀ (m : MboxId) (r : Request) (s : State), current 0x0306 s = some (m, r) →
    firstFailing (spreadSetChecks r s) = none → exec .spreadSet s = .next (finish m (spreadSetApply r s))) ∧
  (∀ (m : MboxId) (r : Request) (s : State), current 0x0307 s = some (m, r) →
    firstFailing (mirrorSetChecks r s) = none → exec .mirrorSet s = .next (finish m (mirrorSetApply r s)))

/-- Each command of this family that has an effect under the spec takes it: for every state and operands that meet the
command's conditions, the command answers the next state of its own effect.  For a mailbox command the conditions are
that the request being executed carries its opcode and passes its checks, and the next state is its effect with the
response written, or the long command's start; for a downstream OAM message, that it passes the six tests of R86. -/
def Obligations.BufferCommandsComplete : Prop :=
  (∀ (slice : SliceId) (request : AllocReq) (s : State), bufferAllocGuard slice request s = true →
    exec (.bufferAlloc slice request) s = .next (bufferAllocEffect slice request s)) ∧
  (∀ (slice : SliceId) (ptr : Word) (issuer : Byte) (s : State), freeGuard slice s = true →
    exec (.free slice ptr issuer) s = .next (freeEffect slice ptr issuer s)) ∧
  (∀ (slice : SliceId) (ptr : Word) (issuer : Byte) (newOwner : Byte) (count : Nat) (s : State), handOffGuard slice newOwner count s = true →
    exec (.handOff slice ptr issuer newOwner count) s = .next (handOffEffect slice ptr issuer newOwner count s)) ∧
  (∀ (slice : SliceId) (ptr : Word) (issuer : Byte) (s : State), refAddGuard slice s = true →
    exec (.refAdd slice ptr issuer) s = .next (refAddEffect slice ptr issuer s)) ∧
  (∀ (slice : SliceId) (ptr : Word) (issuer : Byte) (s : State), refDropGuard slice s = true →
    exec (.refDrop slice ptr issuer) s = .next (refDropEffect slice ptr issuer s)) ∧
  (∀ (slice : SliceId) (s : State), xrefReclaimGuard slice s = true →
    exec (.xrefReclaim slice) s = .next (xrefReclaimEffect slice s)) ∧
  (∀ (account : AccountId) (s : State), spillWriteCompleteGuard account s = true →
    exec (.spillWriteComplete account) s = .next (spillWriteCompleteEffect account s)) ∧
  (∀ (account : AccountId) (s : State), spillReadbackGuard account s = true →
    exec (.spillReadback account) s = .next (spillReadbackEffect account s)) ∧
  (∀ (account : AccountId) (s : State), readbackRetryGuard account s = true →
    exec (.readbackRetry account) s = .next (readbackRetryEffect account s)) ∧
  (∀ (account : AccountId) (s : State), pageReadCompleteGuard account s = true →
    exec (.pageReadComplete account) s = .next (pageReadCompleteEffect account s)) ∧
  (∀ (chan : ChanId) (s : State), spillRemapGuard chan s = true →
    exec (.spillRemap chan) s = .next (spillRemapEffect chan s)) ∧
  (∀ (m : MboxId) (r : Request) (s : State), current 0x0400 s = some (m, r) →
    firstFailing (poolCarveChecks r s) = none → exec .poolCarve s = .next (finish m (poolCarveApply r s))) ∧
  (∀ (m : MboxId) (r : Request) (s : State), current 0x0401 s = some (m, r) →
    firstFailing (bufOwnerSetChecks r s) = none → exec .bufOwnerSet s = .next (finish m (bufOwnerSetApply r s))) ∧
  (∀ (m : MboxId) (r : Request) (s : State), current 0x0402 s = some (m, r) →
    firstFailing (bufPrioSetChecks r s) = none → exec .bufPrioSet s = .next (finish m (bufPrioSetApply r s))) ∧
  (∀ (m : MboxId) (r : Request) (s : State), current 0x0403 s = some (m, r) →
    firstFailing (bufPoolSetChecks r s) = none → exec .bufPoolSet s = .next (finish m (bufPoolSetApply r s))) ∧
  (∀ (m : MboxId) (r : Request) (s : State), current 0x0404 s = some (m, r) →
    firstFailing (spillSetChecks r s) = none → exec .spillSet s = .next (finish m (spillSetApply r s)))

/-- Each command of this family that has an effect under the spec takes it: for every state and operands that meet the
command's conditions, the command answers the next state of its own effect.  For a mailbox command the conditions are
that the request being executed carries its opcode and passes its checks, and the next state is its effect with the
response written, or the long command's start; for a downstream OAM message, that it passes the six tests of R86. -/
def Obligations.SchedulingCommandsComplete : Prop :=
  (∀ (shaper : ShaperRef) (s : State), shaperEligibleGuard shaper s = true →
    exec (.shaperEligible shaper) s = .next (shaperEligibleEffect shaper s)) ∧
  (∀ (slice : SliceId) (s : State), overflowWheelMoveGuard slice s = true →
    exec (.overflowWheelMove slice) s = .next (overflowWheelMoveEffect slice s)) ∧
  (∀ (port : PortId) (queue : QueueId) (s : State), timedLaunchDueGuard port queue s = true →
    exec (.timedLaunchDue port queue) s = .next (timedLaunchDueEffect port queue s)) ∧
  (∀ (m : MboxId) (r : Request) (s : State), current 0x0501 s = some (m, r) →
    firstFailing (schedSetChecks r s) = none → exec .schedSet s = .next (finish m (schedSetApply r s))) ∧
  (∀ (m : MboxId) (r : Request) (s : State), current 0x0500 s = some (m, r) →
    firstFailing (schedTreeSetChecks r s) = none → exec .schedTreeSet s = .next (finish m (schedTreeSetApply r s))) ∧
  (∀ (m : MboxId) (r : Request) (s : State), current 0x0506 s = some (m, r) →
    firstFailing (policerSetChecks r s) = none → exec .policerSet s = .next (finish m (policerSetApply r s))) ∧
  (∀ (m : MboxId) (r : Request) (s : State), current 0x0507 s = some (m, r) →
    firstFailing (policerReadChecks r s) = none → exec .policerRead s = .next (finish m (policerReadApply r s)))

/-- Each command of this family that has an effect under the spec takes it: for every state and operands that meet the
command's conditions, the command answers the next state of its own effect.  For a mailbox command the conditions are
that the request being executed carries its opcode and passes its checks, and the next state is its effect with the
response written, or the long command's start; for a downstream OAM message, that it passes the six tests of R86. -/
def Obligations.CipherCommandsComplete : Prop :=
  (∀ (slot : SlotId) (s : State), invocationDrawResumeGuard slot s = true →
    exec (.invocationDrawResume slot) s = .next (invocationDrawResumeEffect slot s)) ∧
  (∀ (lane : Lane) (msg : OamRx) (g : GroupId) (s : State), msgCrcOk msg = true → msgType msg = 0x08 → oamVerdict s lane msg = .pass g →
    isDup (groupAt s g) msg (carrierStamp s lane msg) = false →
    exec (.keyDeliver lane msg) s = .next (keyDeliverAct msg g (recordDup g msg (carrierStamp s lane msg) (takeUnit lane msg s)))) ∧
  (∀ (slot : SlotId) (s : State), keyWriteCompleteGuard slot s = true →
    exec (.keyWriteComplete slot) s = .next (keyWriteCompleteEffect slot s)) ∧
  (∀ (lane : Lane) (msg : OamRx) (g : GroupId) (s : State), msgCrcOk msg = true → msgType msg = 0x09 → oamVerdict s lane msg = .pass g →
    isDup (groupAt s g) msg (carrierStamp s lane msg) = false →
    exec (.keySwitch lane msg) s = .next (keySwitchAct lane msg g (recordDup g msg (carrierStamp s lane msg) (takeUnit lane msg s)))) ∧
  (∀ (slot : SlotId) (lane : Lane) (s : State), switchBoundaryGuard slot lane s = true →
    exec (.switchBoundary slot lane) s = .next (switchBoundaryEffect slot lane s)) ∧
  (∀ (slice : SliceId) (pipe : Half) (s : State), decryptCompleteGuard slice pipe s = true →
    exec (.decryptComplete slice pipe) s = .next (decryptCompleteEffect slice pipe s)) ∧
  (∀ (slot : SlotId) (half : Half) (s : State), downHalfLifetimeEndGuard slot half s = true →
    exec (.downHalfLifetimeEnd slot half) s = .next (retireHalf slot.val half 2 s)) ∧
  (∀ (slot : SlotId) (s : State), keyEraseCompleteGuard slot s = true →
    exec (.keyEraseComplete slot) s = .next (keyEraseCompleteEffect slot s)) ∧
  (∀ (job : UtilJob) (s : State), utilityJobArriveGuard s = true →
    exec (.utilityJobArrive job) s = .next (giveTask (.job job) s)) ∧
  (∀ (s : State), utilityJobCompleteGuard s = true →
    exec .utilityJobComplete s = .next (utilityJobCompleteEffect s)) ∧
  (∀ (m : MboxId) (r : Request) (s : State), current 0x0600 s = some (m, r) →
    firstFailing (keySlotSetChecks r s) = none → exec .keySlotSet s = .next (finish m (keySlotSetApply r s))) ∧
  (∀ (m : MboxId) (r : Request) (s : State), current 0x0601 s = some (m, r) →
    firstFailing (keyLoadChecks r s) = none → exec .keyLoad s = .next (finish m (keyLoadApply r s))) ∧
  (∀ (m : MboxId) (r : Request) (s : State), current 0x0602 s = some (m, r) →
    firstFailing (keyCommitChecks r s) = none → exec .keyCommit s = .next (finish m (keyCommitApply r s))) ∧
  (∀ (m : MboxId) (r : Request) (s : State), current 0x0603 s = some (m, r) →
    firstFailing (keyEraseChecks r s) = none → exec .keyErase s = .next (finish m (keyEraseApply r s))) ∧
  (∀ (m : MboxId) (r : Request) (s : State), current 0x0604 s = some (m, r) →
    firstFailing (keyBindChecks r s) = none → exec .keyBind s = .next (finish m (keyBindApply r s))) ∧
  (∀ (m : MboxId) (r : Request) (s : State), current 0x0605 s = some (m, r) →
    firstFailing (keyStatusReadChecks r s) = none → exec .keyStatusRead s = .next (finish m (keyStatusReadApply r s))) ∧
  (∀ (m : MboxId) (r : Request) (s : State), current 0x0606 s = some (m, r) →
    firstFailing (cipPortFailReadChecks r s) = none → exec .cipPortFailRead s = .next (finish m (cipPortFailReadApply r s))) ∧
  (∀ (m : MboxId) (r : Request) (s : State), current 0x0607 s = some (m, r) →
    firstFailing (kekSetChecks r s) = none → exec .kekSet s = .next (finish m (kekSetApply r s)))

/-- Each command of this family that has an effect under the spec takes it: for every state and operands that meet the
command's conditions, the command answers the next state of its own effect.  For a mailbox command the conditions are
that the request being executed carries its opcode and passes its checks, and the next state is its effect with the
response written, or the long command's start; for a downstream OAM message, that it passes the six tests of R86. -/
def Obligations.TimeCommandsComplete : Prop :=
  (∀ (s : State), timeNsReadGuard s = true →
    exec .timeNsRead s = .next (timeNsReadEffect s)) ∧
  (∀ (s : State), timeSteerGuard s = true →
    exec .timeSteer s = .next (timeSteerEffect s)) ∧
  (∀ (s : State), slewEndGuard s = true →
    exec .slewEnd s = .next (slewEndEffect s)) ∧
  (∀ (s : State), timeCounterRestartGuard s = true →
    exec .timeCounterRestart s = .next (timeCounterRestartEffect s)) ∧
  (∀ (s : State), gapEstimateGuard s = true →
    exec .gapEstimate s = .next (gapEstimateEffect s)) ∧
  (∀ (cycles : Nat) (s : State), ringMeasureGuard s = true →
    exec (.ringMeasure cycles) s = .next (ringMeasureEffect cycles s)) ∧
  (∀ (m : MboxId) (r : Request) (s : State), current 0x0700 s = some (m, r) →
    firstFailing (timeSetChecks r s) = none → exec .timeSet s = .next (finish m (timeSetApply r s))) ∧
  (∀ (m : MboxId) (r : Request) (s : State), current 0x0701 s = some (m, r) →
    firstFailing (timeJumpAcceptChecks r s) = none → exec .timeJumpAccept s = .next (finish m (timeJumpAcceptApply r s))) ∧
  (∀ (m : MboxId) (r : Request) (s : State), current 0x0702 s = some (m, r) →
    firstFailing (timeOutputSetChecks r s) = none → exec .timeOutputSet s = .next (finish m (timeOutputSetApply r s))) ∧
  (∀ (m : MboxId) (r : Request) (s : State), current 0x0703 s = some (m, r) →
    firstFailing (ptpSetChecks r s) = none → exec .ptpSet s = .next (finish m (ptpSetApply r s))) ∧
  (∀ (s : State), gapSatGuard s = true →
    exec .gapSat s = .next (gapSatEffect s))

/-- Each command of this family that has an effect under the spec takes it: for every state and operands that meet the
command's conditions, the command answers the next state of its own effect.  For a mailbox command the conditions are
that the request being executed carries its opcode and passes its checks, and the next state is its effect with the
response written, or the long command's start; for a downstream OAM message, that it passes the six tests of R86. -/
def Obligations.HbmCommandsComplete : Prop :=
  (∀ (chan : ChanId) (request : HbmReq) (s : State), hbmRequestGuard chan request s = true →
    exec (.hbmRequest chan request) s = .next (hbmRequestEffect chan request s)) ∧
  (∀ (chan : ChanId) (ecc : EccOutcome) (s : State), hbmReadCompleteGuard chan s = true →
    exec (.hbmReadComplete chan ecc) s = .next (hbmReadCompleteEffect chan ecc s)) ∧
  (∀ (chan : ChanId) (s : State), hbmCaParityGuard chan s = true →
    exec (.hbmCaParity chan) s = .next (hbmCaParityEffect chan s)) ∧
  (∀ (chan : ChanId) (s : State), hbmServiceEntryGuard chan s = true →
    exec (.hbmServiceEntry chan) s = .next (hbmServiceEntryEffect chan s)) ∧
  (∀ (temp : Byte) (s : State), hbmTempReadGuard s = true →
    exec (.hbmTempRead temp) s = .next (hbmTempReadEffect temp s)) ∧
  (∀ (half : Half) (s : State), hbmTempStaleGuard half s = true →
    exec (.hbmTempStale half) s = .next (hbmTempStaleEffect half s)) ∧
  (∀ (chan : ChanId) (pc : Half) (s : State), hbmRefreshGuard chan pc s = true →
    exec (.hbmRefresh chan pc) s = .next (hbmRefreshEffect chan pc s)) ∧
  (∀ (chan : ChanId) (s : State), hbmRetrainGuard chan s = true →
    exec (.hbmRetrain chan) s = .next (hbmRetrainEffect chan s)) ∧
  (∀ (chan : ChanId) (converged : Bool) (s : State), hbmRetrainEndGuard chan s = true →
    exec (.hbmRetrainEnd chan converged) s = .next (hbmRetrainEndEffect chan converged s)) ∧
  (∀ (chan : ChanId) (s : State), hbmRetrainRetryGuard chan s = true →
    exec (.hbmRetrainRetry chan) s = .next (hbmRetrainRetryEffect chan s)) ∧
  (∀ (chan : ChanId) (s : State), hbmSrEntryGuard chan s = true →
    exec (.hbmSrEntry chan) s = .next (hbmSrEntryEffect chan s)) ∧
  (∀ (chan : ChanId) (s : State), hbmSrEntryCompleteGuard chan s = true →
    exec (.hbmSrEntryComplete chan) s = .next (hbmSrEntryCompleteEffect chan s)) ∧
  (∀ (chan : ChanId) (s : State), hbmSrExitCompleteGuard chan s = true →
    exec (.hbmSrExitComplete chan) s = .next (hbmSrExitCompleteEffect chan s)) ∧
  (∀ (m : MboxId) (r : Request) (s : State), current 0x0800 s = some (m, r) →
    firstFailing (hbmChannelReleaseChecks r s) = none → exec .hbmChannelRelease s = .next (hbmChannelReleaseStart m r s)) ∧
  (∀ (mbox : MboxId) (trained : Bool) (s : State), hbmReleaseCompleteGuard mbox s = true →
    exec (.hbmReleaseComplete mbox trained) s = .next (hbmReleaseCompleteEffect mbox trained s)) ∧
  (∀ (m : MboxId) (r : Request) (s : State), current 0x0801 s = some (m, r) →
    firstFailing (hbmHistoryReadChecks r s) = none → exec .hbmHistoryRead s = .next (finish m (hbmHistoryReadApply r s))) ∧
  (∀ (m : MboxId) (r : Request) (s : State), current 0x0802 s = some (m, r) →
    firstFailing (hbmSetChecks r s) = none → exec .hbmSet s = .next (finish m (hbmSetApply r s)))

/-- Each command of this family that has an effect under the spec takes it: for every state and operands that meet the
command's conditions, the command answers the next state of its own effect.  For a mailbox command the conditions are
that the request being executed carries its opcode and passes its checks, and the next state is its effect with the
response written, or the long command's start; for a downstream OAM message, that it passes the six tests of R86. -/
def Obligations.SerialLaneCommandsComplete : Prop :=
  (∀ (lane : SerialRef) (s : State), cdrLockGainedGuard lane s = true →
    exec (.cdrLockGained lane) s = .next (cdrLockGainedEffect lane s)) ∧
  (∀ (lane : SerialRef) (s : State), cdrLostGuard lane s = true →
    exec (.cdrLost lane) s = .next (cdrLostEffect lane s)) ∧
  (∀ (lane : SerialRef) (s : State), deepEntryGuard lane s = true →
    exec (.deepEntry lane) s = .next (deepEntryEffect lane s)) ∧
  (∀ (lane : SerialRef) (s : State), deepEntryCompleteGuard lane s = true →
    exec (.deepEntryComplete lane) s = .next (deepEntryCompleteEffect lane s)) ∧
  (∀ (lane : SerialRef) (s : State), deepExitGuard lane s = true →
    exec (.deepExit lane) s = .next (deepExitEffect lane s)) ∧
  (∀ (m : MboxId) (r : Request) (s : State), current 0x0900 s = some (m, r) →
    firstFailing (laneEqSetChecks r s) = none → exec .laneEqSet s = .next (finish m (laneEqSetApply r s))) ∧
  (∀ (m : MboxId) (r : Request) (s : State), current 0x0901 s = some (m, r) →
    firstFailing (laneEqReadChecks r s) = none → exec .laneEqRead s = .next (finish m (laneEqReadApply r s))) ∧
  (∀ (m : MboxId) (r : Request) (s : State), current 0x0902 s = some (m, r) →
    firstFailing (loopSetChecks r s) = none → exec .loopSet s = .next (finish m (loopSetApply r s))) ∧
  (∀ (lane : SerialRef) (s : State), loopExpiredGuard lane s = true →
    exec (.loopExpired lane) s = .next (loopExpiredEffect lane s)) ∧
  (∀ (lane : Lane) (s : State), loopBurstGuard lane s = true →
    exec (.loopBurst lane) s = .next (loopBurstEffect lane s)) ∧
  (∀ (m : MboxId) (r : Request) (s : State), current 0x0903 s = some (m, r) →
    firstFailing (patternSetChecks r s) = none → exec .patternSet s = .next (finish m (patternSetApply r s))) ∧
  (∀ (lane : SerialRef) (s : State), chkLockGuard lane s = true →
    exec (.chkLock lane) s = .next (chkLockEffect lane s)) ∧
  (∀ (lane : SerialRef) (symErr : Nat) (bitErr : Nat) (window : Nat) (s : State), chkLockLostGuard lane s = true →
    exec (.chkLockLost lane symErr bitErr window) s = .next (chkLockLostEffect lane symErr bitErr window s)) ∧
  (∀ (lane : SerialRef) (s : State), deepExitCompleteGuard lane s = true →
    exec (.deepExitComplete lane) s = .next (deepExitCompleteEffect lane s))

/-- Each command of this family that has an effect under the spec takes it: for every state and operands that meet the
command's conditions, the command answers the next state of its own effect.  For a mailbox command the conditions are
that the request being executed carries its opcode and passes its checks, and the next state is its effect with the
response written, or the long command's start; for a downstream OAM message, that it passes the six tests of R86. -/
def Obligations.FabricCommandsComplete : Prop :=
  (∀ (group : GroupId) (s : State), protectStatusSendGuard group s = true →
    exec (.protectStatusSend group) s = .next (protectStatusSendEffect group s)) ∧
  (∀ (src : Nat) (payload : List Byte) (s : State), exec (.protectNotify src payload) s = .next (notifyAct 0 src payload s)) ∧
  (∀ (group : GroupId) (s : State), notifyResendGuard group s = true →
    exec (.notifyResend group) s = .next (notifyResendEffect group s)) ∧
  (∀ (group : GroupId) (s : State), notifyFailGuard group s = true →
    exec (.notifyFail group) s = .next (notifyFailEffect group s)) ∧
  (∀ (src : Nat) (seq : Nat) (s : State), exec (.notifyAck src seq) s = .next (ackAct src seq s)) ∧
  (∀ (lane : FabLane) (s : State), helloSendGuard lane s = true →
    exec (.helloSend lane) s = .next (helloSendEffect lane s)) ∧
  (∀ (lane : FabLane) (hello : Hello) (s : State), helloGuard lane s = true →
    exec (.hello lane hello) s = .next (helloEffect lane hello s)) ∧
  (∀ (lane : FabLane) (cause : FabDownCause) (s : State), fabricLinkDownGuard lane cause s = true →
    exec (.fabricLinkDown lane cause) s = .next (fabricLinkDownEffect lane cause s)) ∧
  (∀ (lane : FabLane) (s : State), idleCellSendGuard lane s = true →
    exec (.idleCellSend lane) s = .next (idleCellSendEffect lane s)) ∧
  (∀ (lane : FabLane) (cell : Cell) (s : State), fabricCellRxGuard lane s = true →
    exec (.fabricCellRx lane cell) s = .next (fabricCellRxEffect lane cell s)) ∧
  (∀ (src : Nat) (cls : Nat) (s : State), fabSeqHoldExpiryGuard src cls s = true →
    exec (.fabSeqHoldExpiry src cls) s = .next (fabSeqHoldExpiryEffect src cls s)) ∧
  (∀ (s : State), addrFloodGuard s = true →
    exec .addrFlood s = .next (addrFloodEffect s)) ∧
  (∀ (lane : FabLane) (addr : AddrCell) (s : State), addrGuard lane s = true →
    exec (.addr lane addr) s = .next (addrEffect lane addr s)) ∧
  (∀ (address : Nat) (s : State), addrHoldExpiryGuard address s = true →
    exec (.addrHoldExpiry address) s = .next (addrHoldExpiryEffect address s)) ∧
  (∀ (s : State), lsaSendGuard s = true →
    exec .lsaSend s = .next (lsaSendEffect s)) ∧
  (∀ (lane : FabLane) (lsa : Lsa) (s : State), lsaGuard lane s = true →
    exec (.lsa lane lsa) s = .next (lsaEffect lane lsa s)) ∧
  (∀ (device : BitVec 64) (s : State), lsaExpiryGuard device s = true →
    exec (.lsaExpiry device) s = .next (lsaExpiryEffect device s)) ∧
  (∀ (s : State), routeRecomputeGuard s = true →
    exec .routeRecompute s = .next (routeRecomputeEffect s)) ∧
  (∀ (lane : FabLane) (s : State), fabLpiEnterGuard lane s = true →
    exec (.fabLpiEnter lane) s = .next (fabLpiEnterEffect lane s)) ∧
  (∀ (m : MboxId) (r : Request) (s : State), current 0x0A00 s = some (m, r) →
    firstFailing (fabricSetChecks r s) = none → exec .fabricSet s = .next (finish m (fabricSetApply r s))) ∧
  (∀ (m : MboxId) (r : Request) (s : State), current 0x0A01 s = some (m, r) →
    firstFailing (fabricRouteReadChecks r s) = none → exec .fabricRouteRead s = .next (finish m (fabricRouteReadApply r s)))

/-- Each command of this family that has an effect under the spec takes it: for every state and operands that meet the
command's conditions, the command answers the next state of its own effect.  For a mailbox command the conditions are
that the request being executed carries its opcode and passes its checks, and the next state is its effect with the
response written, or the long command's start; for a downstream OAM message, that it passes the six tests of R86. -/
def Obligations.MailboxAndEventCommandsComplete : Prop :=
  (∀ (addr : Nat) (width : Nat) (write : Bool) (s : State), unalignedAccessGuard addr width write s = true →
    exec (.unalignedAccess addr width write) s = .next (unalignedAccessEffect addr width write s)) ∧
  (∀ (addr : Nat) (value : Word) (hwSet : Word) (s : State), w1cClearGuard addr value hwSet s = true →
    exec (.w1cClear addr value hwSet) s = .next (w1cClearEffect addr value hwSet s)) ∧
  (∀ (addr : Nat) (hwSet : Word) (s : State), collisionCounterReadGuard addr hwSet s = true →
    exec (.collisionCounterRead addr hwSet) s = .next (collisionCounterReadEffect addr hwSet s)) ∧
  (∀ (s : State), smbusDevIdReadGuard s = true →
    exec .smbusDevIdRead s = .next (smbusDevIdReadEffect s)) ∧
  (∀ (s : State), smbusAnchorReadGuard s = true →
    exec .smbusAnchorRead s = .next (smbusAnchorReadEffect s)) ∧
  (∀ (s : State), smbusLogStatusReadGuard s = true →
    exec .smbusLogStatusRead s = .next (smbusLogStatusReadEffect s)) ∧
  (∀ (index : Nat) (s : State), smbusSensorReadGuard index s = true →
    exec (.smbusSensorRead index) s = .next (smbusSensorReadEffect index s)) ∧
  (∀ (code : Byte) (s : State), smbusBadCodeGuard code s = true →
    exec (.smbusBadCode code) s = .next (smbusBadCodeEffect code s)) ∧
  (∀ (mbox : MboxId) (s : State), ringGuard mbox s = true →
    exec (.ring mbox) s = .next (ringEffect mbox s)) ∧
  (∀ (mbox : MboxId) (ring : Bool) (s : State), abortGuard mbox s = true →
    exec (.abort mbox ring) s = .next (abortEffect mbox s)) ∧
  (∀ (mbox : MboxId) (offset : Nat) (data : List Byte) (s : State), requestAreaWriteGuard mbox s = true →
    exec (.requestAreaWrite mbox offset data) s = .next (requestAreaWriteEffect mbox offset data s)) ∧
  (∀ (s : State), commandTakeGuard s = true →
    exec .commandTake s = .next (commandTakeEffect s)) ∧
  (∀ (frame : List Byte) (s : State), serviceRequestRxGuard frame s = true →
    exec (.serviceRequestRx frame) s = .next (serviceRequestRxEffect frame s)) ∧
  (∀ (m : MboxId) (r : Request) (s : State), current 0x0010 s = some (m, r) →
    firstFailing (fenceChecks r s) = none → exec .fence s = .next (setLong m (.fence []) s)) ∧
  (∀ (mbox : MboxId) (s : State), fenceCompleteGuard mbox s = true →
    exec (.fenceComplete mbox) s = .next (fenceCompleteEffect mbox s)) ∧
  (∀ (m : MboxId) (r : Request) (s : State), current 0x0011 s = some (m, r) →
    firstFailing (drainFenceChecks r s) = none → exec .drainFence s = .next (noteDrain m (setLong m (.drain ((boxAt s m).takenAt + r.u32 0 * usTicks) none) s))) ∧
  (∀ (mbox : MboxId) (s : State), drainFenceCompleteGuard mbox s = true →
    exec (.drainFenceComplete mbox) s = .next (drainFenceCompleteEffect mbox s)) ∧
  (∀ (m : MboxId) (r : Request) (s : State), current 0x0012 s = some (m, r) →
    firstFailing (funcStopChecks r s) = none → exec .funcStop s = .next (finish m (funcStopApply r s))) ∧
  (∀ (m : MboxId) (r : Request) (s : State), current 0x0013 s = some (m, r) →
    firstFailing (funcStartChecks r s) = none → exec .funcStart s = .next (finish m (funcStartApply r s))) ∧
  (∀ (m : MboxId) (r : Request) (s : State), current 0x0017 s = some (m, r) →
    firstFailing (eventQueueSetChecks r s) = none → exec .eventQueueSet s = .next (finish m (eventQueueSetApply r s))) ∧
  (∀ (m : MboxId) (r : Request) (s : State), current 0x0018 s = some (m, r) →
    firstFailing (eventRouteSetChecks r s) = none → exec .eventRouteSet s = .next (finish m (eventRouteSetApply r s))) ∧
  (∀ (m : MboxId) (r : Request) (s : State), current 0x0019 s = some (m, r) →
    firstFailing (mgtQueueSetChecks r s) = none → exec .mgtQueueSet s = .next (finish m (mgtQueueSetApply r s))) ∧
  (∀ (value : Nat) (s : State), evqConsWriteGuard value s = true →
    exec (.evqConsWrite value) s = .next (evqConsWriteEffect value s)) ∧
  (∀ (vector : VectorId) (s : State), vectorDelayExpiryGuard vector s = true →
    exec (.vectorDelayExpiry vector) s = .next (fireVec vector s)) ∧
  (∀ (vector : VectorId) (s : State), msixUnmaskGuard vector s = true →
    exec (.msixUnmask vector) s = .next (msixUnmaskEffect vector s)) ∧
  (∀ (queue : MgtQueue) (value : Nat) (s : State), txqTailWriteGuard queue s = true →
    exec (.txqTailWrite queue value) s = .next (txqTailWriteEffect queue value s)) ∧
  (∀ (queue : MgtQueue) (desc : List Byte) (frame : FrameBytes) (s : State), txDescriptorReadGuard queue s = true →
    exec (.txDescriptorRead queue desc frame) s = .next (txDescriptorReadEffect queue desc frame s)) ∧
  (∀ (queue : MgtQueue) (s : State), txDescriptorWritebackGuard queue s = true →
    exec (.txDescriptorWriteback queue) s = .next (txDescriptorWritebackEffect queue s)) ∧
  (∀ (queue : MgtQueue) (value : Nat) (s : State), rxqTailWriteGuard queue s = true →
    exec (.rxqTailWrite queue value) s = .next (rxqTailWriteEffect queue value s)) ∧
  (∀ (queue : MgtQueue) (size : Nat) (s : State), mgtRxDeliverGuard queue s = true →
    exec (.mgtRxDeliver queue size) s = .next (mgtRxDeliverEffect queue size s))

/-- Each command of this family that has an effect under the spec takes it: for every state and operands that meet the
command's conditions, the command answers the next state of its own effect.  For a mailbox command the conditions are
that the request being executed carries its opcode and passes its checks, and the next state is its effect with the
response written, or the long command's start; for a downstream OAM message, that it passes the six tests of R86. -/
def Obligations.FirmwareCommandsComplete : Prop :=
  (∀ (index : Nat) (reading : Word) (s : State), sensorSampleGuard index s = true →
    exec (.sensorSample index reading) s = .next (sensorSampleEffect index reading s)) ∧
  (∀ (m : MboxId) (r : Request) (s : State), current 0x0B11 s = some (m, r) →
    firstFailing (sensorGetChecks r s) = none → exec .sensorGet s = .next (finish m (sensorGetApply r s))) ∧
  (∀ (m : MboxId) (r : Request) (s : State), current 0x0B12 s = some (m, r) →
    firstFailing (sensorSetChecks r s) = none → exec .sensorSet s = .next (finish m (sensorSetApply r s))) ∧
  (∀ (written : Bool) (s : State), checkpointGuard s = true →
    exec (.checkpoint written) s = .next (checkpointEffect written s)) ∧
  (∀ (m : MboxId) (r : Request) (s : State), current 0x0B10 s = some (m, r) →
    firstFailing (logReadChecks r s) = none → exec .logRead s = .next (setLong m .logRead s)) ∧
  (∀ (m : MboxId) (r : Request) (s : State), current 0x0B00 s = some (m, r) →
    firstFailing (fwStageChecks r s) = none → exec .fwStage s = .next (fwStageStart m r s)) ∧
  (∀ (m : MboxId) (r : Request) (s : State), current 0x0B01 s = some (m, r) →
    firstFailing (fwActivateChecks r s) = none → exec .fwActivate s = .next (fwActivateStart m r s)) ∧
  (∀ (ok : Bool) (s : State), activationStepGuard ok s = true →
    exec (.activationStep ok) s = .next (activationStepEffect ok s)) ∧
  (∀ (slice : SliceId) (s : State), sliceControllerSwitchGuard slice s = true →
    exec (.sliceControllerSwitch slice) s = .next (sliceControllerSwitchEffect slice s)) ∧
  (∀ (m : MboxId) (r : Request) (s : State), current 0x0B02 s = some (m, r) →
    firstFailing (fwStatusReadChecks r s) = none → exec .fwStatusRead s = .next (finish m (fwStatusReadApply r s))) ∧
  (∀ (m : MboxId) (r : Request) (s : State), current 0x0B03 s = some (m, r) →
    firstFailing (fuseReadChecks r s) = none → exec .fuseRead s = .next (finish m (fuseReadApply r s))) ∧
  (∀ (s : State), fwStartTimeoutGuard s = true →
    exec .fwStartTimeout s = .next (fwStartTimeoutEffect s)) ∧
  (∀ (mbox : MboxId) (s : State), fwStageCompleteGuard mbox s = true →
    exec (.fwStageComplete mbox) s = .next (fwStageCompleteEffect mbox s)) ∧
  (∀ (mbox : MboxId) (s : State), logReadCompleteGuard mbox s = true →
    exec (.logReadComplete mbox) s = .next (logReadCompleteEffect mbox s)) ∧
  (∀ (s : State), firmwareReadyGuard s = true →
    exec .firmwareReady s = .next (firmwareReadyEffect s))

/-- Each command of this family that has an effect under the spec takes it: for every state and operands that meet the
command's conditions, the command answers the next state of its own effect.  For a mailbox command the conditions are
that the request being executed carries its opcode and passes its checks, and the next state is its effect with the
response written, or the long command's start; for a downstream OAM message, that it passes the six tests of R86. -/
def Obligations.ClockPowerResetCommandsComplete : Prop :=
  (∀ (slice : SliceId) (source : ClockSrc) (s : State), clockStableGuard slice source s = true →
    exec (.clockStable slice source) s = .next (clockStableEffect slice source s)) ∧
  (∀ (slice : SliceId) (source : ClockSrc) (s : State), clockStopDetectGuard slice source s = true →
    exec (.clockStopDetect slice source) s = .next (clockStopDetectEffect slice source s)) ∧
  (∀ (slice : SliceId) (source : ClockSrc) (ppm : Int) (ring : Option RingCmp) (s : State), freqWindowGuard slice source s = true →
    exec (.freqWindow slice source ppm ring) s = .next (freqWindowEffect slice source ppm ring s)) ∧
  (∀ (slice : SliceId) (source : ClockSrc) (s : State), clockRecoverGuard slice source s = true →
    exec (.clockRecover slice source) s = .next (clockRecoverEffect slice source s)) ∧
  (∀ (slice : SliceId) (domain : Domain) (s : State), domainRestartGuard slice domain s = true →
    exec (.domainRestart slice domain) s = .next (domainRestartEffect slice domain s)) ∧
  (∀ (slice : SliceId) (s : State), dvfsStepGuard slice s = true →
    exec (.dvfsStep slice) s = .next (dvfsStepEffect slice s)) ∧
  (∀ (slice : SliceId) (s : State), avsAckGuard slice s = true →
    exec (.avsAck slice) s = .next (avsAckEffect slice s)) ∧
  (∀ (slice : SliceId) (s : State), avsTimeoutGuard slice s = true →
    exec (.avsTimeout slice) s = .next (avsTimeoutEffect slice s)) ∧
  (∀ (slice : SliceId) (millivolt : Nat) (s : State), avsPollGuard slice s = true →
    exec (.avsPoll slice millivolt) s = .next (avsPollEffect slice millivolt s)) ∧
  (∀ (slice : SliceId) (sensor : Nat) (reading : Int) (s : State), thermalThrottleGuard slice sensor reading s = true →
    exec (.thermalThrottle slice sensor reading) s = .next (thermalThrottleEffect slice sensor reading s)) ∧
  (∀ (slice : SliceId) (s : State), thermalCapReleaseGuard slice s = true →
    exec (.thermalCapRelease slice) s = .next (thermalCapReleaseEffect slice s)) ∧
  (∀ (slice : SliceId) (sensor : Nat) (reading : Int) (s : State), thermalShutdownGuard slice sensor reading s = true →
    exec (.thermalShutdown slice sensor reading) s = .next (thermalShutdownEffect slice sensor reading s)) ∧
  (∀ (slice : SliceId) (s : State), idleEntryGuard slice s = true →
    exec (.idleEntry slice) s = .next (idleEntryEffect slice s)) ∧
  (∀ (slice : SliceId) (s : State), idleExitGuard slice s = true →
    exec (.idleExit slice) s = .next (idleExitEffect slice s)) ∧
  (∀ (slice : SliceId) (s : State), drowseEntryGuard slice s = true →
    exec (.drowseEntry slice) s = .next (drowseEntryEffect slice s)) ∧
  (∀ (slice : SliceId) (s : State), dormantEntryGuard slice s = true →
    exec (.dormantEntry slice) s = .next (dormantEntryEffect slice s)) ∧
  (∀ (slice : SliceId) (s : State), wakeStepGuard slice s = true →
    exec (.wakeStep slice) s = .next (wakeStepEffect slice s)) ∧
  (∀ (slice : SliceId) (s : State), quiesceTimeoutGuard slice s = true →
    exec (.quiesceTimeout slice) s = .next (quiesceTimeoutEffect slice s)) ∧
  (∀ (m : MboxId) (r : Request) (s : State), current 0x0C00 s = some (m, r) →
    firstFailing (powerStateSetChecks r s) = none → exec .powerStateSet s = .next (powerStateSetStart m r s)) ∧
  (∀ (mbox : MboxId) (s : State), powerStateReachedGuard mbox s = true →
    exec (.powerStateReached mbox) s = .next (powerStateReachedEffect mbox s)) ∧
  (∀ (m : MboxId) (r : Request) (s : State), current 0x0C01 s = some (m, r) →
    firstFailing (dvfsSetChecks r s) = none → exec .dvfsSet s = .next (finish m (dvfsSetApply r s))) ∧
  (∀ (m : MboxId) (r : Request) (s : State), current 0x0C02 s = some (m, r) →
    firstFailing (clockStatusReadChecks r s) = none → exec .clockStatusRead s = .next (finish m (clockStatusReadApply r s))) ∧
  (∀ (m : MboxId) (r : Request) (s : State), current 0x0C03 s = some (m, r) →
    firstFailing (resetIssueChecks r s) = none → exec .resetIssue s = .next (resetIssueStart m r s)) ∧
  (∀ (mbox : MboxId) (s : State), resetCompleteGuard mbox s = true →
    exec (.resetComplete mbox) s = .next (resetCompleteEffect mbox s)) ∧
  (∀ (straps : Straps) (s : State), powerOnResetGuard s = true →
    exec (.powerOnReset straps) s = .next (powerOnResetEffect straps s)) ∧
  (∀ (straps : Straps) (s : State), pinResetGuard s = true →
    exec (.pinReset straps) s = .next (pinResetEffect straps s)) ∧
  (∀ (slice : SliceId) (s : State), sliceResetGuard slice s = true →
    exec (.sliceReset slice) s = .next (sliceResetEffect slice s)) ∧
  (∀ (slice : SliceId) (crossing : Nat) (s : State), quarantineExitGuard slice crossing s = true →
    exec (.quarantineExit slice crossing) s = .next (quarantineExitEffect slice crossing s)) ∧
  (∀ (s : State), removalGuard s = true →
    exec .removal s = .next (removalEffect s)) ∧
  (∀ (straps : Straps) (s : State), presenceReturnGuard s = true →
    exec (.presenceReturn straps) s = .next (presenceReturnEffect straps s)) ∧
  (∀ (s : State), perstGuard s = true →
    exec .perst s = .next (perstEffect s))

/-- A flit received on a working bridge.  One whose CRC-32 is not that of its 64 bytes is counted as a retry of the sender and sent
again from the head of its retry buffer; every other port, and every sequence context, is as before.  A good one is
acknowledged: it leaves the sender's retry buffer, and flits that wait take its room.  At its hop limit it is then counted
and dropped, and no sequence context changes.  At a slice on its way it is sent on with one more hop towards its
destination.  At its destination, one that comes early is held with its instant, and nothing is delivered; one that is next
in sequence and not the last of its packet is delivered, and the next sequence number is expected; with the last one its
packet goes on from the slice (where no flit is held and none of the packet was lost). -/
def Obligations.BridgeFlits : Prop :=
  ∀ (k : SliceId) (p : BridgePort) (f : Flit) (s : State), flitReceiveGuard k p f s = true →
    (flitGood f = (f.bytes.length == 64 && f.crc == crc32 0xFFFFFFFF#32 (bitsOfBytes f.bytes))) ∧
    (flitGood f = false → ∃ t, exec (.flitReceive k p f) s = .next t ∧
      t.regs.ctr = (count1 (aBridgeRetry (peerSlice k p) p) s).regs.ctr ∧
      bridgeAt t (peerSlice k p).val p.val = resendHead s.now (bridgeAt s (peerSlice k p).val p.val) ∧
      (∀ (j : SliceId) (q : BridgePort), (j, q) ≠ (peerSlice k p, p) → bridgeAt t j.val q.val = bridgeAt s j.val q.val) ∧
      t.bridge.rx = s.bridge.rx ∧ t.bridge.routes = s.bridge.routes ∧ t.bridge.transit = s.bridge.transit ∧
      OnlyChanges [.counters, .bridge] s t) ∧
    (flitGood f = true → flitLimit s ≤ f.hops → ∃ t, exec (.flitReceive k p f) s = .next t ∧
      bridgeAt t (peerSlice k p).val p.val = ackHead s.now (bridgeAt s (peerSlice k p).val p.val) ∧
      (∀ (j : SliceId) (q : BridgePort), (j, q) ≠ (peerSlice k p, p) → bridgeAt t j.val q.val = bridgeAt s j.val q.val) ∧
      t.bridge.rx = s.bridge.rx ∧ t.bridge.txSeq = s.bridge.txSeq ∧ t.bridge.transit = s.bridge.transit ∧
      t.regs.ctr = (count1 (aBridgeTtl k) s).regs.ctr ∧ OnlyChanges [.counters, .bridge] s t) ∧
    (flitGood f = true → f.hops < flitLimit s → f.dst ≠ k → ∃ t, exec (.flitReceive k p f) s = .next t ∧
      t.bridge.rx = s.bridge.rx ∧ t.bridge.transit = s.bridge.transit ∧ OnlyChanges [.bridge] s t ∧
      (∀ q, routePort s k f.dst = some q →
        { f with hops := f.hops + 1 } ∈ (bridgeAt t k.val q.val).unacked.map (fun o => o.flit) ++ (bridgeAt t k.val q.val).sendQ)) ∧
    (flitGood f = true → f.hops < flitLimit s → f.dst = k →
      (f.seq ≠ (seqAt s k f.src).expected → (f.seq - (seqAt s k f.src).expected).toNat < 32768 →
        ((seqAt s k f.src).held.any fun h => h.2.seq == f.seq) = false →
        ∃ t, exec (.flitReceive k p f) s = .next t ∧ OnlyChanges [.bridge] s t ∧ t.bridge.transit = s.bridge.transit ∧
          (seqAt t k f.src).delivered = (seqAt s k f.src).delivered ∧
          (seqAt t k f.src).expected = (seqAt s k f.src).expected ∧
          (seqAt t k f.src).held = (s.now, f) :: (seqAt s k f.src).held) ∧
      (f.seq = (seqAt s k f.src).expected → (seqAt s k f.src).held = [] → (seqAt s k f.src).dropPkt ≠ some f.pkt →
        ∃ u, (seqAt u k f.src).delivered = (seqAt s k f.src).delivered + 1 ∧ (seqAt u k f.src).expected = f.seq + 1 ∧
          (seqAt u k f.src).held = [] ∧ u.bridge.transit = s.bridge.transit ∧ OnlyChanges [.bridge] s u ∧
          exec (.flitReceive k p f) s = .next (if f.last then landPacket f.src k f.pkt u else u)))

/-- A bridge port declared down, for any cause, is down, and attempts to retrain 1 ms later.  An attempt records its run of good
flits and the next attempt is 1 ms later.  After 10,000 consecutive good flits the port is up.  A route table install gives
the slice the recomputed entry of every destination and leaves every other slice's table alone. -/
def Obligations.BridgePortsDownAndUp : Prop :=
  ∀ (k : SliceId) (p : BridgePort) (s : State),
    (∀ c, bridgePortDownGuard k p c s = true → ∃ t, exec (.bridgePortDown k p c) s = .next t ∧
      (bridgeAt t k.val p.val).up = false ∧ (bridgeAt t k.val p.val).nextRetrain = s.now + msTicks ∧
      OnlyChanges [.counters, .flags, .bridge, .mirror, .log, .rings, .ports, .bufs, .history] s t) ∧
    (bridgeRetrainGuard k p s = true → ∀ n, ∃ t, exec (.bridgeRetrain k p n) s = .next t ∧
      (bridgeAt t k.val p.val).goodRun = n ∧ (bridgeAt t k.val p.val).nextRetrain = s.now + msTicks ∧
      (bridgeAt t k.val p.val).up = (bridgeAt s k.val p.val).up ∧ OnlyChanges [.bridge] s t) ∧
    (bridgePortUpGuard k p s = true → ∃ t, exec (.bridgePortUp k p) s = .next t ∧
      10000 ≤ (bridgeAt s k.val p.val).goodRun ∧ (bridgeAt t k.val p.val).up = true ∧
      OnlyChanges [.counters, .flags, .bridge, .mirror, .log, .rings, .ports, .bufs, .history] s t) ∧
    (present s k.val = true → ∃ t, exec (.routeTableInstall k) s = .next t ∧
      (∀ d : SliceId, t.bridge.routes[k][d] = computeRoute s k d) ∧
      (∀ j : SliceId, j ≠ k → t.bridge.routes[j] = s.bridge.routes[j]) ∧
      t.bridge.ports = s.bridge.ports ∧ t.bridge.rx = s.bridge.rx ∧ OnlyChanges [.bridge] s t)

/-- A slice that waits to claim asserts the claim line where it reads high, free for 2 us, and is in ELECT; a line that reads low is
not asserted; the other slice's state is unchanged.  At its probe
window a slice in ELECT that sees its own claim (it drives the line, reads it low while driving and high in its window)
enters ANCHOR with the PCIe link down; one that does not enters ABSTAIN and drives the line no more.  An anchor that detects
its own fault releases the line, lets the link go down and is FAULTED. -/
def Obligations.ClaimingTheAnchor : Prop :=
  ∀ (h : Half) (s : State),
    (claimLineFreeGuard h true s = true → ∃ t, exec (.claimLineFree h true) s = .next t ∧ (capAt t h).st = .elect ∧
      (capAt t h).drives = true ∧ (∀ o, o ≠ h → capAt t o = capAt s o) ∧ OnlyChanges [.anchor] s t) ∧
    (claimLineFreeGuard h false s = true → ∃ t, exec (.claimLineFree h false) s = .next t ∧ (∀ o, capAt t o = capAt s o) ∧
      t.anchor.stuckLow = true ∧ OnlyChanges [.anchor] s t) ∧
    (claimProbeGuard h s = true → (capAt s h).st = .elect → ∀ low high, ∃ t, exec (.claimProbe h low high) s = .next t ∧
      (((capAt s h).drives && low && high) = true → (capAt t h).st = .anchor ∧ t.anchor.pcieUp = false) ∧
      (((capAt s h).drives && low && high) = false → (capAt t h).st = .abstain ∧ (capAt t h).drives = false)) ∧
    (anchorOwnFaultGuard h s = true → ∃ t, exec (.anchorOwnFault h) s = .next t ∧ (capAt t h).st = .faulted ∧
      (capAt t h).drives = false ∧ t.anchor.pcieUp = false ∧ (∀ o, o ≠ h → capAt t o = capAt s o) ∧
      OnlyChanges [.anchor] s t)

/-- A trunk packet header is the word at the head of the chain, read from the frame received and descrambled.  One with a correct
HEC is accepted; one that arrives with any one of its 64 bits inverted is counted in TRK_HEC_CORR and accepted as the
header that was sent; with any two of its bits inverted it is never miscorrected: it is counted in TRK_HEC_BAD and
delineation is lost. -/
def Obligations.HeaderErrorsCorrectedOrDetected : Prop :=
  ∀ (lane : Lane) (word : Nat) (h : BitVec 64) (g : GroupId) (s : State), hecOk h = true →
    trunkPacketHeaderRxGuard lane word s = true → laneGroup s lane = some g →
    (rxWords (laneAt s lane) word 1 = [h] →
      exec (.trunkPacketHeaderRx lane word) s = .next (acceptHeader g lane h s)) ∧
    (∀ i, i < 64 → rxWords (laneAt s lane) word 1 = [h ^^^ (1#64 <<< i)] →
      exec (.trunkPacketHeaderRx lane word) s = .next (acceptHeader g lane h (count1 (aTrk lane 0x40) s))) ∧
    (∀ i j, i < 64 → j < 64 → i ≠ j → rxWords (laneAt s lane) word 1 = [h ^^^ (1#64 <<< i) ^^^ (1#64 <<< j)] →
      exec (.trunkPacketHeaderRx lane word) s = .next (loseDelineation lane (count1 (aTrk lane 0x48) s)))

/-- At the end of a window of 1,024 blocks: a lane without block lock enters it at the first of the 257 positions whose count is
80 or fewer, in HUNT, and stays unlocked where every count is more; a locked lane loses block lock, and is in HUNT, where
the count at its position is more than 80, and is unchanged where it is 80 or fewer.
A change of the lane status input, or the loss of the signal behind block lock, sets the input's level; block lock is lost at once,
and the lane is in HUNT, where the CDR has none or the modem asserts loss of signal, and otherwise nothing else changes.
A reassembly context still open 50 us after its first fragment enters DISCARD now and loses what it collected; one in DISCARD
for 1 ms is freed; whole packets that waited behind it go on.  The closing of a lane's settle window leaves no port-ID covered by it.  No other lane changes. -/
def Obligations.BlockLockAndReassembly : Prop :=
  (∀ (lane : Lane) (counts : List Nat) (s : State), blockLockWindowGuard lane counts s = true →
    ((laneAt s lane).blockLock = false → ∀ p, p < 257 → counts.getD p 1024 ≤ 80 →
      (∀ q, q < p → 80 < counts.getD q 1024) → ∃ t, exec (.blockLockWindow lane counts) s = .next t ∧
      (laneAt t lane).blockLock = true ∧ (laneAt t lane).lockPos = p ∧ (laneAt t lane).align = .hunt ∧
      (∀ l, l ≠ lane → laneAt t l = laneAt s l) ∧ OnlyChanges [.lanes] s t) ∧
    ((laneAt s lane).blockLock = false → (∀ q, q < 257 → 80 < counts.getD q 1024) →
      exec (.blockLockWindow lane counts) s = .next s) ∧
    ((laneAt s lane).blockLock = true → counts.getD (laneAt s lane).lockPos 1024 ≤ 80 →
      exec (.blockLockWindow lane counts) s = .next s) ∧
    ((laneAt s lane).blockLock = true → 80 < counts.getD (laneAt s lane).lockPos 1024 →
      ∃ t, exec (.blockLockWindow lane counts) s = .next t ∧
      (laneAt t lane).blockLock = false ∧ (laneAt t lane).align = .hunt)) ∧
  (∀ (lane : Lane) (llos : Bool) (s : State), blockLockLostGuard lane llos s = true →
    ∃ t, exec (.blockLockLost lane llos) s = .next t ∧ t.pins.llos[lane] = llos ∧
      (∀ l : Lane, l ≠ lane → t.pins.llos[l] = s.pins.llos[l]) ∧
      ((laneAt s lane).blockLock = true → (llos = true ∨ s.serdes.cdrLock[lineSerial lane] = false) →
        (laneAt t lane).blockLock = false ∧ (laneAt t lane).align = .hunt) ∧
      ((laneAt s lane).blockLock = false ∨ llos = false ∧ s.serdes.cdrLock[lineSerial lane] = true → OnlyChanges [.pins] s t)) ∧
  (∀ (lane : Lane) (s : State),
    (∀ (p : PortTag) (c : ReasmCtx), openCtx (laneAt s lane) p = some c → c.discard = false →
      c.startAt + 50 * usTicks ≤ s.now → ∃ t, exec (.reasmTimeout lane p) s = .next t ∧
      (laneAt t lane).contexts = (laneAt s lane).contexts.map (fun x =>
        if x.id = c.id then { x with discard := true, discardAt := s.now, bytes := [] } else x) ∧
      (∀ l, l ≠ lane → laneAt t l = laneAt s l) ∧
      OnlyChanges [.counters, .flags, .bridge, .log, .rings, .lanes, .ports, .ingress, .bufs, .fabric, .history] s t) ∧
    (∀ (p : PortTag) (c : ReasmCtx), openCtx (laneAt s lane) p = some c → c.discard = true →
      c.discardAt + msTicks ≤ s.now → ∃ t, exec (.reasmDiscardExpiry lane p) s = .next t ∧
      (laneAt t lane).contexts = (laneAt s lane).contexts.filter (fun x => x.id != c.id) ∧
      (∀ l, l ≠ lane → laneAt t l = laneAt s l) ∧
      OnlyChanges [.counters, .flags, .bridge, .log, .rings, .lanes, .ports, .ingress, .bufs, .fabric, .history] s t) ∧
    (∀ at_ : Nat, (laneAt s lane).settleLane = some at_ → at_ + 50 * usTicks ≤ s.now →
      ∃ t, exec (.settleWindowClose lane none) s = .next t ∧ (laneAt t lane).settleLane = none ∧
      (laneAt t lane).settlePorts = (laneAt s lane).settlePorts ∧ (∀ l, l ≠ lane → laneAt t l = laneAt s l) ∧
      OnlyChanges [.lanes] s t))

/-- A PORT_FILTER_WRITE that passes its checks leaves the group's filter as writing its entries in request order does, and every
other filter entry unchanged.  A valid entry at an index it wrote then shares its PORT_ID with no other valid entry of the
group.  Beside the filter only settle windows of lanes open. -/
def Obligations.PortFilterWriteKeepsPortIdsDistinct : Prop :=
  ∀ (m : MboxId) (r : Request) (s : State), current 0x0110 s = some (m, r) →
    firstFailing (portFilterWriteChecks r s) = none →
    ∃ t, exec .portFilterWrite s = .next t ∧
      t.trunk.filter = (pfEntries r).foldl (fun f e => sparseSet {} f (4096 * r.u8 0 + e.1) e.2) s.trunk.filter ∧
      (∀ i, i < r.u8 1 → (sparseGet {} t.trunk.filter (4096 * r.u8 0 + (pfEntry r i).1)).valid = true →
        ∀ e, e ∈ t.trunk.filter → e.1 / 4096 = r.u8 0 → e.1 ≠ 4096 * r.u8 0 + (pfEntry r i).1 → e.2.valid = true →
          e.2.port ≠ (sparseGet {} t.trunk.filter (4096 * r.u8 0 + (pfEntry r i).1)).port) ∧
      OnlyChanges [.env, .bridge, .anchor, .mail, .log, .lanes, .filter] s t

/-- Whichever message type a row is for: a message on a lane of an enabled group in SYNC that fails its CRC counts in
OAM_RX_CRC_BAD and nothing else happens; one not carried or not addressed to the group is passed over; one of a reserved type
counts in OAM_RX_BAD_TYPE; and one that passes those tests but repeats a message accepted no more than 10 ms earlier counts
in OAM_RX_DUP and is not acted on.  In each case a unit of an OAM packet has then been taken, and nothing else changes.  The
row of another type leaves a message with a good CRC alone. -/
def Obligations.OamMessagesThatFailATest : Prop :=
  ∀ (lane : Lane) (msg : OamRx) (g : GroupId) (s : State),
    let rows : List (Nat × Instr) := [(0x01, .discover lane msg), (0x03, .rangeRequest lane msg), (0x05, .eqdAssign lane msg),
      (0x06, .tod lane msg), (0x07, .leaderSet lane msg), (0x08, .keyDeliver lane msg), (0x09, .keySwitch lane msg),
      (0x0A, .amend lane msg), (0x0B, .rdi lane msg), (0x0C, .disable lane msg), (0x0D, .enable lane msg),
      (0x0E, .reportPolicy lane msg), (0x0F, .protectCommand lane msg)]
    (oamVerdict s lane msg = .crcBad g → exec (.oamRxDiscard lane msg) s = .next (count1 (aRng g 0x28) (takeUnit lane msg s)) ∧
      ∀ p ∈ rows, exec p.2 s = .next (count1 (aRng g 0x28) (takeUnit lane msg s))) ∧
    (oamVerdict s lane msg = .ignore → exec (.oamRxDiscard lane msg) s = .next (takeUnit lane msg s) ∧
      ∀ p ∈ rows, (msgCrcOk msg = true → msgType msg = p.1) → exec p.2 s = .next (takeUnit lane msg s)) ∧
    (oamVerdict s lane msg = .badType g → exec (.oamRxDiscard lane msg) s = .next (count1 (aRng g 0x30) (takeUnit lane msg s))) ∧
    (∀ p ∈ rows, msgCrcOk msg = true → msgType msg ≠ p.1 → exec p.2 s = .next s) ∧
    (oamVerdict s lane msg = .pass g → isDup (groupAt s g) msg (carrierStamp s lane msg) = true → msgCrcOk msg = true →
      ∀ p ∈ [(0x03, Instr.rangeRequest lane msg), (0x05, .eqdAssign lane msg), (0x07, .leaderSet lane msg), (0x0A, .amend lane msg),
        (0x0B, .rdi lane msg), (0x0E, .reportPolicy lane msg)],
        msgType msg = p.1 → exec p.2 s = .next (count1 (aRng g 0x38) (takeUnit lane msg s)))

/-- A group that is 100 ms in RANGE without an accepted message, or whose HOLDOVER_LIMIT has elapsed, loses its terminal ID, its
upstream queue and its burst counter, and is in LISTEN (or at once in ANNOUNCE where it may announce); no other group changes.
When RESPONSE_WAIT passes, a back-off of at most the DISCOVER's maximum is drawn and the wait ends.  Three seconds without a
TOD set the stale mark.  At an application instant every message due has left the pending list, and a group in RANGE with an
EQD_ASSIGN due is in OPERATE. -/
def Obligations.RegistrationEvents : Prop :=
  ∀ (g : GroupId) (s : State),
    (∀ c ∈ [(Instr.rangeTimeout g, rangeTimeoutGuard g s), (.holdoverExpiry g, holdoverExpiryGuard g s)], c.2 = true →
      ∃ t, exec c.1 s = .next t ∧ ((groupAt t g).st = .listen ∨ (groupAt t g).st = .announce) ∧ (groupAt t g).termId = 0 ∧
        (groupAt t g).oamQ = [] ∧ (groupAt t g).burstCtr = 0 ∧ (∀ k, k ≠ g → groupAt t k = groupAt s k)) ∧
    (∀ d, (groupAt s g).disc = some d → responseWaitExpiryGuard g s = true →
      ∃ t, exec (.responseWaitExpiry g) s = .next t ∧ (groupAt t g).backoff ≤ d.backoffMax ∧ (groupAt t g).waitFrom = none ∧
        (groupAt t g).st = (groupAt s g).st ∧ (∀ k, k ≠ g → groupAt t k = groupAt s k) ∧ OnlyChanges [.env, .groups] s t) ∧
    (todStaleGuard g s = true → ∃ t, exec (.todStale g) s = .next t ∧ (groupAt t g).todStale = true ∧
      (∀ k, k ≠ g → groupAt t k = groupAt s k) ∧ OnlyChanges [.counters, .flags, .log, .groups, .history] s t) ∧
    (applicationInstantGuard g s = true → ∃ t, exec (.applicationInstant g) s = .next t ∧
      (groupAt t g).pendApply = (groupAt s g).pendApply.filter (fun m => !applyDue s g m.1) ∧
      ((groupAt s g).st = .range → (∃ e vs, (e, ApplyMsg.eqd vs) ∈ (groupAt s g).pendApply ∧ applyDue s g e = true) →
        (groupAt t g).st = .operate))

/-- A RANGE_PROVISION that passes its checks leaves its group with the parameters of the request, and where it names the group as
the time source, no other group is one.
A TRUNK_GROUP_SET that passes its checks records the whole binding of its group as pending: the lanes of LANE_MASK with their
spectral slices, or none with ENABLE = 0.  The binding in force and every other field of the group, and every other group,
are unchanged. -/
def Obligations.GroupSettings : Prop :=
  (∀ (m : MboxId) (r : Request) (g : GroupId) (s : State), current 0x0120 s = some (m, r) →
    firstFailing (rangeProvisionChecks r s) = none → g = Fin.ofNat 4 (r.u8 0) →
    ∃ t, exec .rangeProvision s = .next t ∧
      (groupAt t g).timeSource = natBit (r.u8 1) 0 ∧ (groupAt t g).announce = natBit (r.u8 1) 1 ∧
      (groupAt t g).timeLaneCfg = (if r.u8 2 = 0xFF then none else some (Fin.ofNat 32 (r.u8 2))) ∧
      (groupAt t g).coarseRtt = BitVec.ofNat 32 (r.u32 4) ∧ (groupAt t g).modemTx = BitVec.ofNat 32 (r.u32 8) ∧
      (groupAt t g).modemRx = BitVec.ofNat 32 (r.u32 12) ∧ (groupAt t g).asym = BitVec.ofNat 16 (r.u16 16) ∧
      (groupAt t g).holdoverLimit = r.u16 18 ∧
      (natBit (r.u8 1) 0 = true → ∀ k, k ≠ g → (groupAt t k).timeSource = false) ∧
      (∀ k, k ≠ g → { groupAt t k with timeSource := (groupAt s k).timeSource } = groupAt s k)) ∧
  (∀ (m : MboxId) (r : Request) (s : State), current 0x0101 s = some (m, r) →
    firstFailing (trunkGroupSetChecks r s) = none →
    ∃ t, exec .trunkGroupSet s = .next t ∧
      groupAt t (tgGroup r) = { groupAt s (tgGroup r) with
        bindPend := some (if tgEnable r = 1 then (tgLanes r).map (fun l => (l, tgSpec r l)) else []) } ∧
      (∀ g, g ≠ tgGroup r → groupAt t g = groupAt s g) ∧ OnlyChanges [.env, .bridge, .anchor, .mail, .log, .groups] s t)

/-- When the table of an epoch is completed and every grant of its union has a slot edge, the table holds, in slot-edge order, only
grants of that union, each beginning at least 8 ticks after the end of the one before it, the last grant of the epoch before
included. -/
def Obligations.GrantTablesKeepTheirGap : Prop :=
  ∀ (lane : Lane) (g : GroupId) (s : State), grantTableCompleteGuard lane s = true → laneGroup s lane = some g →
    (∀ r ∈ unionAt (laneAt s lane) (nextTable (laneAt s lane)),
      (slotEdge s g lane (nextTable (laneAt s lane)) (gStart r)).isSome = true) →
    ∃ t kept, exec (.grantTableComplete lane) s = .next t ∧
      tableAt (laneAt t lane) (nextTable (laneAt s lane)) = some (kept.map fun q => { raw := q.1 }) ∧
      kept.Sublist (sortEdge (fun q => q.2)
        (withEdges s g lane (nextTable (laneAt s lane)) (unionAt (laneAt s lane) (nextTable (laneAt s lane))))) ∧
      Spaced (lastGrantEnd s g lane (nextTable (laneAt s lane))) kept

/-- A GRANT_MAP block on a lane whose four entries all fail their GCRC counts four in GNT_ENTRY_CRC and leaves every map and plan
as it was.  One whose first entry passes GCRC, is the group's own, has valid fields, is not standing and finds room, and whose
others fail GCRC, adds that entry at the end of the map of the next epoch, and changes no other map and no plan; where it is
standing it enters the plan instead, in place of the entry of its key.  Where it is not the group's own, its fields are not
valid or there is no room, every map and plan is as it was. -/
def Obligations.GrantMapEntries : Prop :=
  ∀ (lane : Lane) (g : GroupId) (body : BitVec 256) (s : State), grantMapRxGuard lane s = true → laneGroup s lane = some g →
    Canonical s → (∀ k ∈ [128, 64, 0], gCrcOk (body.extractLsb' k 64) = false) →
    (gCrcOk (body.extractLsb' 192 64) = false → ∃ t, exec (.grantMapRx lane body) s = .next t ∧
      counterAt t (aGnt lane 0x08) = (counterAt s (aGnt lane 0x08) + 4) % 2 ^ 64 ∧
      (laneAt t lane).maps = (laneAt s lane).maps ∧ (laneAt t lane).plan = (laneAt s lane).plan ∧
      OnlyChanges [.counters, .lanes] s t) ∧
    (gCrcOk (body.extractLsb' 192 64) = true → grantOwn (groupAt s g) (body.extractLsb' 192 64) = true →
      gFieldsOk (body.extractLsb' 192 64) = true → grantStands (body.extractLsb' 192 64) = false →
      grantFull (laneAt s lane) (epochAdd (curEpoch s lane) 1) (body.extractLsb' 192 64) = false →
      ∃ t, exec (.grantMapRx lane body) s = .next t ∧
      mapAt (laneAt t lane) (epochAdd (curEpoch s lane) 1) =
        mapAt (laneAt s lane) (epochAdd (curEpoch s lane) 1) ++ [body.extractLsb' 192 64] ∧
      (∀ e, e ≠ epochAdd (curEpoch s lane) 1 → mapAt (laneAt t lane) e = mapAt (laneAt s lane) e) ∧
      (laneAt t lane).plan = (laneAt s lane).plan ∧ (∀ l, l ≠ lane → laneAt t l = laneAt s l) ∧
      OnlyChanges [.counters, .lanes] s t) ∧
    (gCrcOk (body.extractLsb' 192 64) = true → grantOwn (groupAt s g) (body.extractLsb' 192 64) = true →
      gFieldsOk (body.extractLsb' 192 64) = true → grantStands (body.extractLsb' 192 64) = true →
      grantFull (laneAt s lane) (epochAdd (curEpoch s lane) 1) (body.extractLsb' 192 64) = false →
      ∃ t, exec (.grantMapRx lane body) s = .next t ∧ (laneAt t lane).maps = (laneAt s lane).maps ∧
      (laneAt t lane).plan = (planPut (epochAdd (curEpoch s lane) 1) (body.extractLsb' 192 64) (laneAt s lane)).plan ∧
      (∀ p ∈ (laneAt t lane).plan, p ∈ (laneAt s lane).plan ∨ p.raw = body.extractLsb' 192 64) ∧
      (∃ p ∈ (laneAt t lane).plan, p.raw = body.extractLsb' 192 64) ∧
      (∀ l, l ≠ lane → laneAt t l = laneAt s l) ∧ OnlyChanges [.counters, .lanes] s t) ∧
    (gCrcOk (body.extractLsb' 192 64) = true →
      (grantOwn (groupAt s g) (body.extractLsb' 192 64) = false ∨ gFieldsOk (body.extractLsb' 192 64) = false ∨
        grantFull (laneAt s lane) (epochAdd (curEpoch s lane) 1) (body.extractLsb' 192 64) = true) →
      ∃ t, exec (.grantMapRx lane body) s = .next t ∧ (laneAt t lane).maps = (laneAt s lane).maps ∧
      (laneAt t lane).plan = (laneAt s lane).plan ∧ (∀ l, l ≠ lane → laneAt t l = laneAt s l) ∧
      OnlyChanges [.counters, .flags, .lanes, .log, .history] s t)

/-- When a burst's BURST_END has left, its lane holds no burst, remembers the BURST_END, and sends FILL to the end of the epoch
where its grant asks for it, otherwise DARK.  FILL ends in DARK, and JUMP_HOLD clears, with nothing else changed. -/
def Obligations.BurstsAndFillEnd : Prop :=
  ∀ (lane : Lane) (s : State),
    (∀ g b, laneGroup s lane = some g → (laneAt s lane).burst = some b → burstEndLeaveGuard lane s = true →
      ∃ t, exec (.burstEndLeave lane) s = .next t ∧ (laneAt t lane).burst = none ∧
      (laneAt t lane).lastEnd = some (burstEnd b) ∧
      (laneAt t lane).out = (if b.kind = 0 ∧ gFill b.grant = true then .fill b.epoch else .dark)) ∧
    (fillEndGuard lane s = true → exec (.fillEnd lane) s = .next { s with trunk := { s.trunk with
      lanes := s.trunk.lanes.set lane { laneAt s lane with out := .dark } } }) ∧
    (jumpHoldClearGuard lane s = true → exec (.jumpHoldClear lane) s = .next { s with trunk := { s.trunk with
      lanes := s.trunk.lanes.set lane { laneAt s lane with jumpHold := none } } })

/-- A rate update moves each of the group's 64 accounts' three averages towards the arrivals of the period by 1/100, 1/800 and
1/6,400 of the difference (the quotient truncated, log 10) and starts a new period; no other account changes.  A RUNAHEAD_SET
that passes its checks gives its group the parameters of the request.  An ACCOUNT_STOP of an account already in the state it
asks for changes no account; otherwise the account is in that state afterwards. -/
def Obligations.ForecastCommands : Prop :=
  (∀ (g : GroupId) (s : State), rateUpdateGuard g s = true → ∃ t, exec (.rateUpdate g) s = .next t ∧
    (∀ a : Fin 64, acctAt t (accountOf g a) = { acctAt s (accountOf g a) with
      rate1 := averageStep (acctAt s (accountOf g a)).rate1 (acctAt s (accountOf g a)).arrived 100,
      rate8 := averageStep (acctAt s (accountOf g a)).rate8 (acctAt s (accountOf g a)).arrived 800,
      rate64 := averageStep (acctAt s (accountOf g a)).rate64 (acctAt s (accountOf g a)).arrived 6400, arrived := 0 }) ∧
    (∀ a : AccountId, acctGroup a ≠ g → acctAt t a = acctAt s a) ∧ OnlyChanges [.groups, .accounts] s t) ∧
  (∀ (m : MboxId) (r : Request) (s : State), current 0x0140 s = some (m, r) →
    firstFailing (runaheadSetChecks r s) = none → ∃ t, exec .runaheadSet s = .next t ∧
      groupAt t (Fin.ofNat 4 (r.u8 0)) = { groupAt s (Fin.ofNat 4 (r.u8 0)) with
        predict := natBit (r.u8 1) 0, preempt := natBit (r.u8 1) 1, horizon := r.u8 2, depth := r.u32 4, cutoff := r.u32 8,
        margin := r.u32 12, holdoff := r.u32 16, w1 := r.u8 20, w8 := r.u8 21, w64 := r.u8 22,
        reportMask := BitVec.ofNat 64 (r.u64 24) } ∧
      r.u8 20 + r.u8 21 + r.u8 22 = 16 ∧ (∀ k, k ≠ Fin.ofNat 4 (r.u8 0) → groupAt t k = groupAt s k) ∧
      OnlyChanges [.env, .bridge, .anchor, .mail, .log, .groups] s t) ∧
  (∀ (m : MboxId) (r : Request) (s : State), current 0x0141 s = some (m, r) →
    firstFailing (accountStopChecks r s) = none → ∃ t, exec .accountStop s = .next t ∧
      (acctAt t (accountNo (r.u8 0) (r.u8 1))).stopped = (r.u8 2 == 1) ∧
      ((acctAt s (accountNo (r.u8 0) (r.u8 1))).stopped = (r.u8 2 == 1) → t.path = s.path ∧ t.trunk = s.trunk))

/-- On a lane: LOS declared stops a burst in progress, sends DARK and notes whether its slice had been unreachable for 10 us; LOS and LOF are
declared and cleared on their conditions; a window that was evaluated declares SF or SD at a count of the threshold that it began with or more,
and clears it after 10 consecutive evaluated windows below it, and one that was not evaluated changes neither.  No other
lane's defects change.  A group declares or clears RDI on the third consecutive accepted message that says so, and clears it
after 10 ms without one.  A DISABLE that takes effect in RANGE, OPERATE or HOLDOVER leaves the group in DISABLED with its
terminal ID and an empty queue, and every lane of it dark, with no burst and no grant table. -/
def Obligations.DefectsAndDisable : Prop :=
  (∀ (lane : Lane) (s : State),
    (losDeclareGuard lane s = true → ∃ t, exec (.losDeclare lane) s = .next t ∧ (laneAt t lane).los = true ∧
      (laneAt t lane).unreach = losHeld s (laneAt s lane).losReach ∧ (laneAt t lane).burst = none ∧ (laneAt t lane).out = .dark) ∧
    (losClearGuard lane s = true → ∃ t, exec (.losClear lane) s = .next t ∧ (laneAt t lane).los = false ∧
      (laneAt t lane).lof = (laneAt s lane).lof) ∧
    (lofDeclareGuard lane s = true → ∃ t, exec (.lofDeclare lane) s = .next t ∧ (laneAt t lane).lof = true ∧
      (laneAt t lane).los = (laneAt s lane).los) ∧
    (lofClearGuard lane s = true → ∃ t, exec (.lofClear lane) s = .next t ∧ (laneAt t lane).lof = false ∧
      (laneAt t lane).los = (laneAt s lane).los) ∧
    (∀ g n ok, laneGroup s lane = some g → (laneAt s lane).winPend = some (n, ok) →
      ∃ t, exec (.windowEvaluate lane) s = .next t ∧ (laneAt t lane).winPend = none ∧
        (ok = false → (laneAt t lane).sf = (laneAt s lane).sf ∧ (laneAt t lane).sd = (laneAt s lane).sd) ∧
        (ok = true → (laneAt s lane).endSf ≤ n → (laneAt t lane).sf = true) ∧
        (ok = true → n < (laneAt s lane).endSf →
          (laneAt t lane).sf = ((laneAt s lane).sf && decide ((laneAt s lane).sfClear + 1 < 10))) ∧
        (ok = true → (laneAt s lane).endSd ≤ n → (laneAt t lane).sd = true) ∧
        (ok = true → n < (laneAt s lane).endSd →
          (laneAt t lane).sd = ((laneAt s lane).sd && decide ((laneAt s lane).sdClear + 1 < 10)))) ∧
    (∀ c ∈ [Instr.losDeclare lane, .losClear lane, .lofDeclare lane, .lofClear lane, .windowEvaluate lane], ∀ t,
      exec c s = .next t → ∀ l, l ≠ lane → (laneAt t l).los = (laneAt s l).los ∧ (laneAt t l).lof = (laneAt s l).lof ∧
        (laneAt t l).ais = (laneAt s l).ais ∧ (laneAt t l).sf = (laneAt s l).sf ∧ (laneAt t l).sd = (laneAt s l).sd)) ∧
  (∀ (g : GroupId) (s : State),
    (∀ lane msg, msgCrcOk msg = true → msgType msg = 0x0B → oamVerdict s lane msg = .pass g →
      isDup (groupAt s g) msg (carrierStamp s lane msg) = false → ∃ t, exec (.rdi lane msg) s = .next t ∧
      (groupAt t g).rdi =
        if natBit (msgAt msg 4 1) 0 = (groupAt s g).rdiRunVal ∧ 2 ≤ (groupAt s g).rdiRun then natBit (msgAt msg 4 1) 0
        else (groupAt s g).rdi) ∧
    (rdiTimeoutGuard g s = true → ∃ t, exec (.rdiTimeout g) s = .next t ∧ (groupAt t g).rdi = false ∧
      (∀ k, k ≠ g → groupAt t k = groupAt s k)) ∧
    (disableApplyGuard g s = true → rangedState (groupAt s g) = true → ∃ t, exec (.disableApply g) s = .next t ∧
      (groupAt t g).st = .disabled ∧ (groupAt t g).termId = (groupAt s g).termId ∧ (groupAt t g).oamQ = [] ∧
      ∀ l ∈ groupLanes s g, (laneAt t l).out = .dark ∧ (laneAt t l).burst = none ∧ (laneAt t l).tables = []))

/-- A frame that reaches an aligned port whose crossing to the core is full is discarded and counted in CLK_STALL_DROPS; one that
a running, aligned port discards on receipt is counted under its reason, with its flag where it has one; and nothing else
happens but the FEC's own counts.  A pause storm leaves no queue of the port paused and notes its instant; it ends with nothing else
changed.  A link change gives the port its alignment and fault state, and no other port changes.  PORT_MODE_SET records the
mode of every slice of its mask as pending and changes no mode in force; PORT_SET, FLOW_CONTROL_SET and MAC_FILTER_WRITE give
their port the fields of the request, with no queue paused where received pause is not honoured, valid exact addresses all
different and none a group address, and a frame at the head of its queue keeping the MAX_FRAME it met. -/
def Obligations.HostPortEventsAndCommands : Prop :=
  (∀ (p : PortId) (s : State),
    (∀ f, hostFrameRxGuard p s = true → rxStalled p s = true →
      exec (.hostFrameRx p f) s = .next (count1 (sliceReg (p.val / 4) 0xA00438) (fecCounts p f s))) ∧
    (∀ f c, hostFrameRxGuard p s = true → rxStalled p s = false → rxDiscard (portAt s p) f = some (c, none) →
      exec (.hostFrameRx p f) s = .next (count1 (aMac p c) (fecCounts p f s))) ∧
    (∀ f c b, hostFrameRxGuard p s = true → rxStalled p s = false → rxDiscard (portAt s p) f = some (c, some b) →
      exec (.hostFrameRx p f) s = .next (setFlag (aMacFlags p) b (count1 (aMac p c) (fecCounts p f s)))) ∧
    (pauseStormGuard p s = true → ∃ t, exec (.pauseStorm p) s = .next t ∧ (portAt t p).storm = some s.now ∧
      (∀ q : QueueId, (portAt t p).queues[q].pausedSince = none ∧ (portAt t p).queues[q].frames = (portAt s p).queues[q].frames) ∧
      (∀ o, o ≠ p → portAt t o = portAt s o) ∧ OnlyChanges [.counters, .flags, .log, .ports, .history] s t) ∧
    (pauseStormEndGuard p s = true → exec (.pauseStormEnd p) s = .next { s with path := { s.path with
      ports := s.path.ports.set p { portAt s p with storm := none } } }) ∧
    (∀ up lf, portLinkChangeGuard p s = true → ∃ t, exec (.portLinkChange p up lf) s = .next t ∧
      portAt t p = { portAt s p with aligned := up, lfRx := lf } ∧ (∀ o, o ≠ p → portAt t o = portAt s o) ∧
      OnlyChanges [.counters, .flags, .log, .ports, .history] s t)) ∧
  (∀ (m : MboxId) (r : Request) (s : State),
    (current 0x0200 s = some (m, r) → firstFailing (portModeSetChecks r s) = none → ∃ t, exec .portModeSet s = .next t ∧
      t.path.mode = s.path.mode ∧
      (∀ k : SliceId, t.path.modePend[k] = if r.inMask k.val = true then some (r.u8 0) else s.path.modePend[k]) ∧
      t.path.ports = s.path.ports) ∧
    (current 0x0201 s = some (m, r) → firstFailing (portSetChecks r s) = none → ∃ t, exec .portSet s = .next t ∧
      portAt t (reqPort r) = { portAt s (reqPort r) with
        flags := BitVec.ofNat 7 (r.u8 1), maxFrame := r.u16 2, defPrio := r.u8 4,
        queues := (portAt s (reqPort r)).queues.map fun q => { q with
          headMax := if q.frames.isEmpty then none else some (q.headMax.getD (portAt s (reqPort r)).maxFrame) } } ∧
      1518 ≤ r.u16 2 ∧ r.u16 2 ≤ 10240 ∧ (∀ o, o ≠ reqPort r → portAt t o = portAt s o) ∧
      OnlyChanges [.env, .bridge, .anchor, .mail, .log, .ports] s t) ∧
    (current 0x0202 s = some (m, r) → firstFailing (flowControlSetChecks r s) = none →
      ∃ t, exec .flowControlSet s = .next t ∧ (portAt t (reqPort r)).fcMode = r.u8 1 ∧
      (portAt t (reqPort r)).rxHonour = natBit (r.u8 2) 0 ∧ (portAt t (reqPort r)).txEnable = natBit (r.u8 2) 1 ∧
      (portAt t (reqPort r)).quanta = r.u16 4 ∧ (portAt t (reqPort r)).refresh = r.u16 6 ∧
      (portAt t (reqPort r)).watchdog = r.u16 8 ∧
      (natBit (r.u8 2) 0 = false → ∀ q : QueueId, (portAt t (reqPort r)).queues[q].pausedSince = none)) ∧
    (current 0x0204 s = some (m, r) → firstFailing (macFilterWriteChecks r s) = none →
      ∃ t, exec .macFilterWrite s = .next t ∧ (∀ o, o ≠ reqPort r → portAt t o = portAt s o) ∧
      (mfKind r = 0 → (portAt t (reqPort r)).hash = hashAfter r (portAt s (reqPort r)) ∧
        (portAt t (reqPort r)).exact = (portAt s (reqPort r)).exact) ∧
      (mfKind r = 1 → (portAt t (reqPort r)).exact = exactAfter r (portAt s (reqPort r)) ∧
        (exactValid (portAt t (reqPort r)).exact).Nodup ∧
        ∀ a ∈ exactValid (portAt t (reqPort r)).exact, isGroupAddr a.toNat = false)))

/-- Retirement on a slice copies the current tables into the shadow copy and clears RETIRE_PENDING and STAGED; a loaded shadow
copy of a table changed to VERSIONED holds the current table, and RETIRE_PENDING clears; no other slice changes.  A RULE_COMMIT
that passes its checks flips the version of exactly the slices of its mask and makes the staged copy of each VERSIONED table
current there.  A MIRROR_SET stores its session, and DEST_KIND 0 disables it. -/
def Obligations.VersionedTablesAndSessions : Prop :=
  (∀ (k : SliceId) (s : State),
    (retirementGuard k s = true → ∃ t, exec (.retirement k) s = .next t ∧ (clsAt t k).shadow = (clsAt s k).cur ∧
      (clsAt t k).cur = (clsAt s k).cur ∧ (clsAt t k).retirePending = false ∧
      (∀ i : Fin 3, (clsAt t k).staged[i] = false) ∧ (∀ j, j ≠ k → clsAt t j = clsAt s j) ∧
      OnlyChanges [.counters, .flags, .log, .cls, .history] s t) ∧
    (∀ i : Fin 3, (clsAt s k).loading = some i → ∃ t, exec (.shadowLoadComplete k) s = .next t ∧
      (clsAt t k).loading = none ∧ (clsAt t k).retirePending = false ∧ (clsAt t k).cur = (clsAt s k).cur ∧
      (i = 0 → (clsAt t k).shadow.em = (clsAt s k).cur.em) ∧ (i = 1 → (clsAt t k).shadow.tern = (clsAt s k).cur.tern) ∧
      (i = 2 → (clsAt t k).shadow.spread = (clsAt s k).cur.spread) ∧ (∀ j, j ≠ k → clsAt t j = clsAt s j) ∧
      OnlyChanges [.cls] s t)) ∧
  (∀ (m : MboxId) (r : Request) (s : State),
    (current 0x0304 s = some (m, r) → firstFailing (ruleCommitChecks r s) = none → ∃ t, exec .ruleCommit s = .next t ∧
      ∀ k : SliceId, (r.inMask k.val = true → (clsAt t k).version = !(clsAt s k).version ∧
          ((clsAt s k).versioned[(0 : Fin 3)] = true → (clsAt t k).cur.em = (clsAt s k).shadow.em) ∧
          ((clsAt s k).versioned[(1 : Fin 3)] = true → (clsAt t k).cur.tern = (clsAt s k).shadow.tern) ∧
          ((clsAt s k).versioned[(2 : Fin 3)] = true → (clsAt t k).cur.spread = (clsAt s k).shadow.spread)) ∧
        (r.inMask k.val = false → clsAt t k = clsAt s k)) ∧
    (current 0x0307 s = some (m, r) → firstFailing (mirrorSetChecks r s) = none → ∃ t, exec .mirrorSet s = .next t ∧
      t.path.mirrors = sparseSet {} s.path.mirrors (r.u8 0)
        (if r.u8 1 = 0 then {} else { destKind := r.u8 1, dest := r.u16 2, queue := r.u8 4, truncate := r.u16 6 }) ∧
      1 ≤ r.u8 0 ∧ r.u8 0 ≤ 15 ∧ t.path.sources = s.path.sources ∧ t.path.cls = s.path.cls))

/-- A FREE, HAND_OFF, REF_ADD or REF_DROP that fails a check of R289 changes no allocation on any slice.  One that passes them:
a FREE releases the buffer; a HAND_OFF gives it the new owner, with the count named where that owner is privileged; a REF_ADD
raises its count by 1; a REF_DROP lowers it by 1 and releases it at the last.  No other slice's allocations change.  (A
REF_DROP with REF_ADDs of its cycle still waiting takes those first, and a REF_ADD taken so early has no effect of its own;
log 42.)  A request to stopped buffers is counted and changes no allocation; one that the arbiter gives no pool is answered
EMPTY and changes no allocation; one that it gives a pool from its owner's quota takes the lowest free buffer there.  A
BUF_OWNER_SET that passes its checks leaves the quotas of every pool within the pool. -/
def Obligations.BuffersBelongToTheirOwners : Prop :=
  (∀ (k : SliceId) (ptr : Word) (issuer : Byte) (s : State), present s k.val = true →
    (waitingRefAdds k (ptrKey ptr) s = [] →
      ∀ p ∈ [(BufOp.free, Instr.free k ptr issuer), (.refAdd, .refAdd k ptr issuer), (.refDrop, .refDrop k ptr issuer)],
      ∀ mk, bufCheck k.val (bufAt s k) p.1 ptr issuer.toNat = some mk → ∃ t, exec p.2 s = .next t ∧
        (∀ j, (bufAt t j).bitmap = (bufAt s j).bitmap) ∧ OnlyChanges [.counters, .flags, .log, .bufs, .history] s t) ∧
    (∀ o c mk, handOffGuard k o c s = true → bufCheck k.val (bufAt s k) (.handOff o.toNat c) ptr issuer.toNat = some mk →
      ∃ t, exec (.handOff k ptr issuer o c) s = .next t ∧ (∀ j, (bufAt t j).bitmap = (bufAt s j).bitmap) ∧
        OnlyChanges [.counters, .flags, .log, .bufs, .history] s t) ∧
    (∀ e, sparseGet none (bufAt s k).bitmap (ptrKey ptr) = some e →
      (bufCheck k.val (bufAt s k) .free ptr issuer.toNat = none → ∃ t, exec (.free k ptr issuer) s = .next t ∧
        (bufAt t k).bitmap = sparseSet none (bufAt s k).bitmap (ptrKey ptr) none ∧
        (∀ j, j ≠ k → (bufAt t j).bitmap = (bufAt s j).bitmap) ∧
        OnlyChanges [.counters, .flags, .log, .ports, .bufs, .history] s t) ∧
      (bufCheck k.val (bufAt s k) .refAdd ptr issuer.toNat = none → ∃ t, exec (.refAdd k ptr issuer) s = .next t ∧
        (bufAt t k).bitmap = (if (bufAt s k).refAhead.contains (ptrKey ptr) then (bufAt s k).bitmap
          else sparseSet none (bufAt s k).bitmap (ptrKey ptr) (some { e with count := e.count + 1 })) ∧
        (∀ j, j ≠ k → (bufAt t j).bitmap = (bufAt s j).bitmap) ∧
        OnlyChanges [.counters, .flags, .log, .ports, .bufs, .history] s t) ∧
      (bufCheck k.val (bufAt s k) .refDrop ptr issuer.toNat = none → waitingRefAdds k (ptrKey ptr) s = [] →
        ∃ t, exec (.refDrop k ptr issuer) s = .next t ∧
        (bufAt t k).bitmap = sparseSet none (bufAt s k).bitmap (ptrKey ptr)
          (if e.count ≤ 1 then none else some { e with count := e.count - 1 }) ∧
        (∀ j, j ≠ k → (bufAt t j).bitmap = (bufAt s j).bitmap) ∧
        OnlyChanges [.counters, .flags, .log, .ports, .bufs, .history] s t) ∧
      (∀ o c, handOffGuard k o c s = true → bufCheck k.val (bufAt s k) (.handOff o.toNat c) ptr issuer.toNat = none →
        ∃ t, exec (.handOff k ptr issuer o c) s = .next t ∧
        (∃ x, (bufAt t k).bitmap = sparseSet none (bufAt s k).bitmap (ptrKey ptr) (some x) ∧ x.owner = o.toNat ∧
          (privileged o.toNat = true → x.count = c)) ∧
        (∀ j, j ≠ k → (bufAt t j).bitmap = (bufAt s j).bitmap) ∧
        OnlyChanges [.counters, .flags, .log, .ports, .bufs, .history] s t)) ∧
    (∀ a, bufferAllocGuard k a s = true → (bufAt s k).stopped = true →
      exec (.bufferAlloc k a) s = .next (count1 (aBuf k 0x70) s)) ∧
    (∀ a, bufferAllocGuard k a s = true → (bufAt s k).stopped = false →
      (arbitrate k.val (newCycle s.now (bufAt s k)) (allocArgs a) (waitingAllocs k s) (List.range 5)).1 = none →
      ∃ t, exec (.bufferAlloc k a) s = .next t ∧ (∀ j, (bufAt t j).bitmap = (bufAt s j).bitmap) ∧
        (flagWord t (aBufFlags k)).getLsbD 4 = true ∧ OnlyChanges [.counters, .flags, .log, .bufs, .history] s t) ∧
    (∀ a p, bufferAllocGuard k a s = true → (bufAt s k).stopped = false → isHostRx a.owner = false →
      (arbitrate k.val (newCycle s.now (bufAt s k)) (allocArgs a) (waitingAllocs k s) (List.range 5)).1 = some p →
      heldBy (bufAt s k) a.owner p < quotaOf (bufAt s k) (a.owner % 32) p →
      ∃ t, exec (.bufferAlloc k a) s = .next t ∧ (bufAt t k).bitmap = (withGrant (bufAt s k) p (allocArgs a)).bitmap ∧
        (∀ j, j ≠ k → (bufAt t j).bitmap = (bufAt s j).bitmap) ∧
        OnlyChanges [.counters, .flags, .log, .ports, .bufs, .history] s t)) ∧
  (∀ (m : MboxId) (r : Request) (s : State), current 0x0401 s = some (m, r) →
    firstFailing (bufOwnerSetChecks r s) = none → ∃ t, exec .bufOwnerSet s = .next t ∧
      ∀ k : SliceId, r.inMask k.val = true → ∀ p, p < 5 →
        quotaSum (bufAt t k) p ≤ (poolAt (bufAt t k) p).buffers)

/-- A shaper whose eligible time has come round in the fine wheel leaves the wheel with the tokens accrued up to then, and no other
shaper changes.  On an overflow-wheel move each overflow entry of the slice's ports and of the accounts that falls within the fine wheel's span
moves to it, and no shaper without an overflow entry changes.  A timed head frame on time waits for its launch time no longer, and no frame leaves
its queue.  SCHED_SET with SET_SHAPER gives the shaper named the rate and burst of the request, with its tokens at BURST or at
0 (an unshaped one keeps none), and without it changes no shaper; no other shaper changes.  SCHED_TREE_SET records the nodes as pending and changes no
queue.  POLICER_SET gives its policer the fields and tokens of the request and leaves its counters and every other policer alone.
POLICER_READ answers 40 bytes for each policer, and with CLEAR sets their counters, and no other, to 0. -/
def Obligations.ShapersAndPolicers : Prop :=
  (∀ s : State,
    (∀ sh t0, (shaperAt s sh).wheel = some (t0, false) → t0 ≤ s.now → ∃ t, exec (.shaperEligible sh) s = .next t ∧
      shaperAt t sh = { accrue s.now (shaperAt s sh) with wheel := none } ∧ (∀ o, o ≠ sh → shaperAt t o = shaperAt s o) ∧
      OnlyChanges [.ports, .accounts] s t) ∧
    (∀ k : SliceId, present s k.val = true → ∃ t, exec (.overflowWheelMove k) s = .next t ∧
      OnlyChanges [.ports, .accounts] s t ∧
      ∀ sh, ((∀ t0, (shaperAt s sh).wheel ≠ some (t0, true)) → shaperAt t sh = shaperAt s sh) ∧
        ∀ t0, (shaperAt s sh).wheel = some (t0, true) →
          (match sh with
            | .port p | .node p _ | .queue p _ => p.val / 4 = k.val
            | .cls _ _ | .account _ => True) →
          shaperAt t sh = if t0 ≤ s.now + 16384 then { shaperAt s sh with wheel := some (t0, false) } else shaperAt s sh) ∧
    (∀ p q, timedLaunchDueGuard p q s = true → headLate s (portAt s p).queues[q] = false →
      ∃ t, exec (.timedLaunchDue p q) s = .next t ∧
        (portAt t p).queues[q] = { (portAt s p).queues[q] with due := true } ∧
        (∀ o : QueueId, o ≠ q → (portAt t p).queues[o] = (portAt s p).queues[o]) ∧
        (∀ o, o ≠ p → portAt t o = portAt s o) ∧ OnlyChanges [.ports] s t)) ∧
  (∀ (m : MboxId) (r : Request) (s : State),
    (current 0x0501 s = some (m, r) → firstFailing (schedSetChecks r s) = none → ∃ t, exec .schedSet s = .next t ∧
      (∀ sh, sh ≠ scRef r ∨ scFlag r 0 = false → shaperAt t sh = shaperAt s sh) ∧
      (scFlag r 0 = true → (shaperAt t (scRef r)).rate = r.u16 8 ∧ (shaperAt t (scRef r)).burst = r.u32 12 ∧
        (shaperAt t (scRef r)).tokens = (if scFlag r 2 ∧ r.u16 8 ≠ 0 then (r.u32 12 * byteUnits : Nat) else 0)) ∧
      OnlyChanges [.env, .bridge, .anchor, .mail, .log, .ports, .accounts] s t) ∧
    (current 0x0500 s = some (m, r) → firstFailing (schedTreeSetChecks r s) = none → ∃ t, exec .schedTreeSet s = .next t ∧
      (portAt t (reqPort r)).treePend = some (treeNodes r) ∧ (∀ n ∈ treeNodes r, n ≤ 7) ∧
      (portAt t (reqPort r)).queues = (portAt s (reqPort r)).queues ∧ (∀ o, o ≠ reqPort r → portAt t o = portAt s o)) ∧
    (current 0x0506 s = some (m, r) → firstFailing (policerSetChecks r s) = none → ∃ t, exec .policerSet s = .next t ∧
      t.path.policers = sparseSet {} s.path.policers (r.u16 0) { sparseGet {} s.path.policers (r.u16 0) with
        enabled := natBit (r.u8 2) 0, cir := r.u16 4, overhead := signed 16 (r.u16 6), cbs := r.u32 8,
        tokens := if natBit (r.u8 2) 1 then (r.u32 8 * byteUnits : Nat) else 0, at_ := s.now }) ∧
    (current 0x0507 s = some (m, r) → firstFailing (policerReadChecks r s) = none →
      ∃ t, exec .policerRead s = .next t ∧
      (r.fenceAfter = false → (boxAt t m).resp.payload.length = 40 * r.u16 2 ∧ (boxAt t m).resp.status = .ok) ∧
      t.path.policers = (if natBit (r.u8 4) 0 then
        (List.range (r.u16 2)).foldl (fun ps i => sparseMod {} ps (r.u16 0 + i) fun x =>
          { x with conformFrames := 0, conformBytes := 0, excessFrames := 0, excessBytes := 0 }) s.path.policers
        else s.path.policers)))

/-- An erase that completes leaves the slot with both halves EMPTY, the even half current and no erase pending, and changes no
binding.  A DOWN half whose lifetime ends is RETIRED.  An URGENT job suspends a running NORMAL task and runs.  The oldest packet of a decrypt
pipe, received whole, leaves it, and one whose tag fails under the key it latched, and no other, is counted for its filter entry.  A KEY_LOAD that
passes its checks and whose unwrap succeeds writes the inactive half LOADED with its counts at 0 and no invocation launched,
and leaves the other half and the choice of current half; one whose unwrap fails changes no slot, sets UNWRAP_FAIL and answers
CONFLICT.  A KEY_COMMIT at once makes a LOADED half current.  A KEY_ERASE on an empty slot or one being erased changes no slot;
otherwise it marks ERASE_PENDING and cancels a pending switch and an unfinished write.  A KEY_SLOT_SET that changes DIR or
MANAGER finds both halves EMPTY and no account bound.  A KEY_BIND binds its account as named, to an UP slot where it names one,
and changes no other account; where no two accounts share a slot, none do after it.  A KEK_SET that passes its checks and whose unwrap succeeds, or that erases,
changes the KEK it names and no other, and no slot; one whose unwrap fails changes no KEK and answers CONFLICT.  None of the
others changes any slot but its own. -/
def Obligations.KeySlots : Prop :=
  (∀ (n : SlotId) (s : State),
    (keyEraseCompleteGuard n s = true → ∃ t, exec (.keyEraseComplete n) s = .next t ∧
      t.crypto.slots = sparseMod {} s.crypto.slots n.val (fun k => { k with
        halves := k.halves.map emptyHalf, current := 0, erasing := false, stall := false, waiting := none, lastSwitch := none }) ∧
      OnlyChanges [.counters, .flags, .log, .slots, .history] s t) ∧
    (∀ h, downHalfLifetimeEndGuard n h s = true → ∃ t, exec (.downHalfLifetimeEnd n h) s = .next t ∧
      t.crypto.slots = sparseMod {} s.crypto.slots n.val (fun k => { k with
        halves := k.halves.set h { k.halves[h] with state := .retired } }) ∧
      OnlyChanges [.counters, .flags, .log, .slots, .history] s t)) ∧
  (∀ (job : UtilJob) (r : UtilTask) (s : State), utilityJobArriveGuard s = true → s.crypto.util.running = some r →
    job.urgent = true → urgentTask r = false → ∃ t, exec (.utilityJobArrive job) s = .next t ∧
      t.crypto.util.running = some (.job job) ∧
      t.crypto.util.suspended = some r ∧ t.crypto.util.urgentQ = s.crypto.util.urgentQ ∧
      t.crypto.util.normalQ = s.crypto.util.normalQ ∧ OnlyChanges [.counters, .cipher] s t) ∧
  (∀ (k : SliceId) (pipe : Half) (j : DecJob) (rest : List DecJob) (s : State), s.crypto.pipes[pipeIndex k pipe] = j :: rest →
    j.need = 0 → ∃ t, exec (.decryptComplete k pipe) s = .next t ∧ t.crypto.pipes = s.crypto.pipes.set (pipeIndex k pipe) rest ∧
      t.crypto.portFail = (if j.clear = false ∧ openJob j = none then
        sparseMod 0 s.crypto.portFail (4096 * j.group.val + j.entry) (fun v => (v + 1) % 2 ^ 64) else s.crypto.portFail)) ∧
  (∀ (m : MboxId) (r : Request) (s : State),
    (current 0x0601 s = some (m, r) → firstFailing (keyLoadChecks r s) = none →
      (∀ key, unwrapKey (kekAt s (r.u8 3)).1 (kekAt s (r.u8 3)).2 (natBit (r.u8 2) 0) ((r.payload.drop 8).take 40) = some key →
        ∃ t, exec .keyLoad s = .next t ∧
        t.crypto.slots = sparseMod {} s.crypto.slots (r.u16 0) (fun k => { k with
          halves := k.halves.set (otherHalf (slotAt s (r.u16 0)).current)
            { state := .loaded, aes256 := natBit (r.u8 2) 0, key := key, salt := BitVec.ofNat 32 (r.u32 4),
              gen := k.halves[otherHalf (slotAt s (r.u16 0)).current].gen + 1 } }) ∧
        (slotAt s (r.u16 0)).manager = 0) ∧
      (unwrapKey (kekAt s (r.u8 3)).1 (kekAt s (r.u8 3)).2 (natBit (r.u8 2) 0) ((r.payload.drop 8).take 40) = none →
        ∃ t, exec .keyLoad s = .next t ∧ t.crypto.slots = s.crypto.slots ∧
        (flagWord t (aKeyFlags (r.u16 0))).getLsbD 6 = true ∧ (boxAt t m).resp.status = .conflict)) ∧
    (current 0x0602 s = some (m, r) → firstFailing (keyCommitChecks r s) = none → r.u32 4 = 0xFFFFFFFF →
      ∃ t, exec .keyCommit s = .next t ∧ (slotAt t (r.u16 0)).current = kcHalf r ∧
        (slotAt s (r.u16 0)).halves[kcHalf r].state = .loaded ∧ (slotAt s (r.u16 0)).current ≠ kcHalf r) ∧
    (current 0x0603 s = some (m, r) → firstFailing (keyEraseChecks r s) = none → ∃ t, exec .keyErase s = .next t ∧
      t.crypto.slots = (if slotEmpty (slotAt s (r.u16 0)) || (slotAt s (r.u16 0)).erasing then s.crypto.slots
        else sparseMod {} s.crypto.slots (r.u16 0) fun k => { k with erasing := true, switch := none, write := none })) ∧
    (current 0x0600 s = some (m, r) → firstFailing (keySlotSetChecks r s) = none → ∃ t, exec .keySlotSet s = .next t ∧
      ((slotAt s (r.u16 0)).down ≠ (r.u8 2 == 1) ∨ (slotAt s (r.u16 0)).manager ≠ r.u8 3 →
        (slotAt s (r.u16 0)).halves[(0 : Fin 2)].state = .empty ∧ (slotAt s (r.u16 0)).halves[(1 : Fin 2)].state = .empty ∧
          ∀ a, (acctAt s a).bind ≠ .slot (r.u16 0))) ∧
    (current 0x0604 s = some (m, r) → firstFailing (keyBindChecks r s) = none → ∃ t, exec .keyBind s = .next t ∧
      (acctAt t (Fin.ofNat 256 (r.u16 0))).bind =
        (if r.u16 2 = 0xFFFE then .clear else if r.u16 2 = 0xFFFF then .unbound else .slot (r.u16 2)) ∧
      (∀ a, a ≠ Fin.ofNat 256 (r.u16 0) → acctAt t a = acctAt s a) ∧
      ((∀ a b n, (acctAt s a).bind = .slot n → (acctAt s b).bind = .slot n → a = b) →
        ∀ a b n, (acctAt t a).bind = .slot n → (acctAt t b).bind = .slot n → a = b) ∧
      (r.u16 2 ≤ 1023 → (slotAt s (r.u16 2)).down = false) ∧
      OnlyChanges [.env, .bridge, .anchor, .mail, .log, .accounts] s t) ∧
    (current 0x0607 s = some (m, r) → firstFailing (kekSetChecks r s) = none →
      (∀ v, (natBit (r.u8 1) 1 = true ∧ v = none) ∨ (natBit (r.u8 1) 1 = false ∧
          ∃ k, unwrapKey true s.fw.fuses.rootKey (natBit (r.u8 1) 0) ((r.payload.drop 4).take 40) = some k ∧
            v = some (natBit (r.u8 1) 0, k)) →
        ∃ t, exec .kekSet s = .next t ∧ t.crypto.keks = s.crypto.keks.set (Fin.ofNat 8 (r.u8 0)) v ∧
        OnlyChanges [.env, .counters, .bridge, .anchor, .mail, .log, .keks] s t) ∧
      (natBit (r.u8 1) 1 = false → unwrapKey true s.fw.fuses.rootKey (natBit (r.u8 1) 0) ((r.payload.drop 4).take 40) = none →
        ∃ t, exec .kekSet s = .next t ∧ t.crypto.keks = s.crypto.keks ∧ (boxAt t m).resp.status = .conflict)))

/-- In the global time region at 0x0004_0000, a read of TIME_NS captures the counter's 96 bits, SEC, NS and FRAC, into the holding
register, returns NS and changes nothing else.  After it, for as long as the holding register stands, reads of TIME_FRAC,
TIME_SEC_LO and TIME_SEC_HI return FRAC and SEC of the capture and change nothing, as words and in an aligned read of both
words of SEC. -/
def Obligations.TimeNsCapturesTheCounter : Prop :=
  ∀ s : State, ∃ t, exec .timeNsRead s = .next t ∧
    t.time = { s.time with hold := s.time.sec ++ BitVec.ofNat 32 s.time.ns ++ BitVec.ofNat 16 (s.time.frac / 2 ^ 16) } ∧
    t.env = { s.env with readData := (BitVec.ofNat 32 s.time.ns).setWidth 64 } ∧ OnlyChanges [.env, .time] s t ∧
    ∀ u : State, u.time.hold = t.time.hold →
      readWord 0x40004 0 0 u = ((BitVec.ofNat 16 (s.time.frac / 2 ^ 16)).setWidth 32, u) ∧
      readWord 0x40008 0 0 u = (s.time.sec.setWidth 32, u) ∧
      readWord 0x4000C 0 0 u = ((s.time.sec.extractLsb' 32 16).setWidth 32, u) ∧
      exec (.unalignedAccess 0x40008 8 false) u = .next { u with env := { u.env with readData := s.time.sec.setWidth 64 } }

/-- A counter that restarts resumes from the value at which it stopped, with the gap latched and the gap counter at 0.  A gap
estimate steps the counter by the gap, cancels a slew and advances STEP_GEN.  The end of a slew returns INC_TRUNK to nominal.
The gap counter holds at its maximum.  A ring measurement stores its count.  TIME_SET with SET gives SEC, NS and FRAC their
values, with STEP moves the counter by the value, modulo its range, and both cancel a slew and advance STEP_GEN; with MODE
and INC the counter keeps its value.  TIME_JUMP_ACCEPT ends the latch of its group and leaves the other groups' latches.
TIME_OUTPUT_SET and PTP_SET store their fields. -/
def Obligations.TimeCounterSteps : Prop :=
  (∀ s : State,
    (timeCounterRestartGuard s = true → ∃ t, exec .timeCounterRestart s = .next t ∧ t.time.sec = s.time.sec ∧
      t.time.ns = s.time.ns ∧ t.time.frac = s.time.frac ∧ t.time.stopped = false ∧ t.time.gapCount = s.time.gap ∧
      t.time.gap = 0) ∧
    (gapEstimateGuard s = true → ∃ t, exec .gapEstimate s = .next t ∧
      timeUnits t = (timeUnits s + gapUnits s) % (2 ^ 48 * secUnits) ∧ t.time.stepGen = (s.time.stepGen + 1) % 16 ∧
      t.time.slewEnd = none ∧ t.time.incTrunk = 0x140000000 ∧ t.time.estimated = true) ∧
    (slewEndGuard s = true → exec .slewEnd s =
      .next { s with time := { s.time with incTrunk := 0x140000000, slewEnd := none } }) ∧
    (gapSatGuard s = true → ∃ t, exec .gapSat s = .next t ∧ t.time = { s.time with gap := 2 ^ 48 - 1, gapSat := true }) ∧
    (∀ n, n < 2 ^ 27 → ringMeasureGuard s = true → exec (.ringMeasure n) s =
      .next { s with time := { s.time with ringPerS := n, ratioNominal := false } })) ∧
  (∀ (m : MboxId) (r : Request) (s : State),
    (current 0x0700 s = some (m, r) → firstFailing (timeSetChecks r s) = none → ∃ t, exec .timeSet s = .next t ∧
      (tsOp r = 2 → t.time.sec = BitVec.ofNat 48 (leAt r.payload 4 6) ∧ t.time.ns = r.u32 10 ∧
        t.time.frac = r.u16 14 * 65536 + s.time.frac % 65536 ∧ t.time.stepGen = (s.time.stepGen + 1) % 16 ∧
        t.time.slewEnd = none) ∧
      (tsOp r = 1 → (timeUnits t : Int) = ((timeUnits s : Int) + signed 64 (r.u64 4)) % (2 ^ 48 * secUnits : Nat) ∧
        t.time.stepGen = (s.time.stepGen + 1) % 16 ∧ t.time.slewEnd = none) ∧
      (tsOp r = 0 ∨ tsOp r = 3 → timeUnits t = timeUnits s ∧ t.time.stepGen = s.time.stepGen) ∧
      (tsOp r = 0 → t.time.host = (r.u8 1 == 1)) ∧
      (tsOp r = 3 → (if r.u8 2 = 0 then t.time.incTrunk else t.time.incXtal) = leAt r.payload 4 5)) ∧
    (current 0x0701 s = some (m, r) → firstFailing (timeJumpAcceptChecks r s) = none →
      ∃ t, exec .timeJumpAccept s = .next t ∧ t.time.latches = s.time.latches.set (Fin.ofNat 4 (r.u8 0)) none) ∧
    (current 0x0702 s = some (m, r) → firstFailing (timeOutputSetChecks r s) = none → ∃ t, exec .timeOutputSet s = .next t ∧
      t.time = { s.time with
        ppsEn := natBit (r.u8 0) 0, tenMEn := natBit (r.u8 0) 1, squelch := natBit (r.u8 0) 2,
        width := r.u32 4, outDelay := signed 32 (r.u32 8) }) ∧
    (current 0x0703 s = some (m, r) → firstFailing (ptpSetChecks r s) = none → ∃ t, exec .ptpSet s = .next t ∧
      t.time.jumpLimit = r.u32 0 ∧ r.u32 0 ≤ 1000000000 ∧ t.time.tcHost = BitVec.ofNat 32 (r.u32 4) ∧
      (∀ g : GroupId, t.time.tcTrunk[g] = natBit (r.u8 8) g.val) ∧ t.time.tcFabric = (r.u8 9 == 1)))

/-- When the oldest read of a channel that is neither FROZEN nor in RESET returns, over a working path, with a single-bit error, its data is delivered
and is not poisoned, HBM_ECC_CORR of the channel counts, ECC_CORRECTED is set, the channel's later reads still wait, and the
memory of every channel is as it was. -/
def Obligations.HbmSingleBitErrorCorrected : Prop :=
  ∀ (c : ChanId) (r : HbmReq) (q : List HbmReq) (s : State), (chanAt s c).reads = r :: q → (chanAt s c).st ≠ .frozen →
    (chanAt s c).st ≠ .reset → path s (chanOwner c).val r.requester.val = true → Canonical s →
    ∃ t, exec (.hbmReadComplete c .corrected) s = .next t ∧ t.hbm.readOut = r.data ∧ t.hbm.poisoned = false ∧
      counterAt t (aHbmC c 0x20) = (counterAt s (aHbmC c 0x20) + 1) % 2 ^ 64 ∧
      (flagWord t (aHbmChFlags c)).getLsbD 4 = true ∧ (chanAt t c).reads = q ∧
      (∀ d, (chanAt t d).mem = (chanAt s d).mem) ∧ OnlyChanges [.counters, .flags, .log, .hbm, .history] s t

/-- A legal request to a channel in SERVICE whose clock runs and that is not entering self-refresh is served at once: a write
changes exactly its bytes of the channel, and of the copy in channel c XOR 4 for the table store where that channel serves
too; a read changes no byte and fetches the bytes as they stand.  In TRAINING, RETRAIN and SELF_REFRESH a request other than
the table store's waits behind those that wait and changes no byte; in FROZEN it is rejected and counted and changes nothing.
An uncorrectable read, a command/address parity error and the third failed retraining freeze the channel with the causes 1 to
3: its queued requests and reads are gone, its history is held, FROZE is set and no byte changes.  A channel with no waiting
request that enters SERVICE reads zeros everywhere, or from DIRECTED, where it was filled, as it read there.  HBM_SET stores SR_MASK and SR_IDLE. -/
def Obligations.HbmRequestsAndFreezes : Prop :=
  (∀ (c : ChanId) (r : HbmReq) (s : State), Canonical s → reqLegal c r s = true → hbmRuns s c = true →
    (chanAt s c).st = .service → (chanAt s c).srEntering = false →
    (r.write = true → ∃ t, exec (.hbmRequest c r) s = .next t ∧
      (∀ k, memRead (chanAt t c).mem k =
        if r.addr ≤ k ∧ k < r.addr + r.data.length then r.data.getD (k - r.addr) 0 else memRead (chanAt s c).mem k) ∧
      (r.unit ≠ 2 ∨ reservedBytes < r.addr + r.data.length → (∀ d, d ≠ c → chanAt t d = chanAt s d) ∧
        OnlyChanges [.counters, .hbm] s t) ∧
      (r.unit = 2 → r.addr + r.data.length ≤ reservedBytes → (chanAt s (tablePeer c)).st = .service →
        (chanAt s (tablePeer c)).srEntering = false → hbmRuns s (tablePeer c) = true → reqLegal (tablePeer c) r s = true →
        ∀ k, memRead (chanAt t (tablePeer c)).mem k =
          if r.addr ≤ k ∧ k < r.addr + r.data.length then r.data.getD (k - r.addr) 0
          else memRead (chanAt s (tablePeer c)).mem k)) ∧
    (r.write = false → ∃ t, exec (.hbmRequest c r) s = .next t ∧ (chanAt t c).mem = (chanAt s c).mem ∧
      (chanAt t c).reads = (chanAt s c).reads ++
        [{ r with data := (List.range r.data.length).map fun i => memRead (chanAt s c).mem (r.addr + i) }] ∧
      (∀ d, d ≠ c → chanAt t d = chanAt s d) ∧ OnlyChanges [.counters, .hbm] s t)) ∧
  (∀ (c : ChanId) (r : HbmReq) (s : State), reqLegal c r s = true → r.unit ≠ 2 →
    ((chanAt s c).st = .training ∨ (chanAt s c).st = .retrain ∨ (chanAt s c).st = .selfRefresh →
      ∃ t, exec (.hbmRequest c r) s = .next t ∧ (chanAt t c).waiting = (chanAt s c).waiting ++ [r] ∧
        (chanAt t c).mem = (chanAt s c).mem ∧ (∀ d, d ≠ c → chanAt t d = chanAt s d) ∧ OnlyChanges [.counters, .hbm] s t) ∧
    ((chanAt s c).st = .frozen → exec (.hbmRequest c r) s = .next (count1 (aHbmC c 0x58) s))) ∧
  (∀ (c : ChanId) (s : State), ownerAbstains s c = false →
    ∀ p ∈ [(Instr.hbmReadComplete c .uncorrectable, hbmReadCompleteGuard c s, 1),
        (.hbmCaParity c, hbmCaParityGuard c s, 2),
        (.hbmRetrainEnd c false, hbmRetrainEndGuard c s && decide (2 ≤ (chanAt s c).trainFails), 3)],
      p.2.1 = true → ∃ t, exec p.1 s = .next t ∧ (chanAt t c).st = .frozen ∧ (chanAt t c).cause = p.2.2 ∧
        (chanAt t c).histValid = true ∧ (chanAt t c).waiting = [] ∧ (chanAt t c).reads = [] ∧
        (flagWord t (aHbmChFlags c)).getLsbD 0 = true ∧ (∀ d, (chanAt t d).mem = (chanAt s d).mem)) ∧
  (∀ (c : ChanId) (s : State), hbmServiceEntryGuard c s = true → (chanAt s c).waiting = [] →
    ∃ t, exec (.hbmServiceEntry c) s = .next t ∧ (chanAt t c).st = .service ∧ (∀ k, memRead (chanAt t c).mem k =
        if (chanAt s c).st = .directed then memRead (chanAt s c).mem k else 0) ∧ (∀ d, d ≠ c → chanAt t d = chanAt s d)) ∧
  (∀ (m : MboxId) (r : Request) (s : State), current 0x0802 s = some (m, r) → firstFailing (hbmSetChecks r s) = none →
    ∃ t, exec .hbmSet s = .next t ∧ t.hbm.srMask = BitVec.ofNat 8 (r.u8 0) ∧ t.hbm.srIdle = r.u16 2 ∧
      100 ≤ r.u16 2 ∧ r.u16 2 ≤ 50000 ∧ ∀ c : ChanId, (chanAt t c).mem = (chanAt s c).mem)

/-- For each serial lane, in a canonical state, with no other lane's settings changed but where lock is lost or a port's loop ends.  CDR lock is gained
and lost on the events, with the flag set, and at a loss the checker's lock is gone.  A DEEP entry begins, and completes with both directions in DEEP and no
lock; where its condition ends less than 9 µs after it began it is aborted and counted, later it completes first, and from
DEEP an exit begins; an exit that completes leaves both directions in RUN.  The checker gains lock; while it has lock the mismatched
symbols and wrong bits count, and more than 256 mismatches in the window lose it, the loss counted.  A loop whose DURATION has run out leaves no loop on the lane, nor on any other lane of its port,
and those lanes start anew.  LANE_EQ_SET gives a lane the entry of
the request as an override; PATTERN_SET gives it the generator and checker of the request; both start the lane anew.
The loop burst that has waited longest leaves with 32 LEADER blocks and a delimiter of TERM 255, the frame's number and the burst's
length, as many blocks in all as its length says where the frame held all its data. -/
def Obligations.SerialLanes : Prop :=
  (∀ (l : SerialRef) (s : State), Canonical s →
    (cdrLockGainedGuard l s = true → ∃ t, exec (.cdrLockGained l) s = .next t ∧
      t.serdes = { s.serdes with cdrLock := s.serdes.cdrLock.set (serialNo l) true } ∧
      (flagWord t (aLneFlags (serialNo l))).getLsbD 1 = true ∧ OnlyChanges [.counters, .flags, .log, .serdes, .history] s t) ∧
    (cdrLostGuard l s = true → ∃ t, exec (.cdrLost l) s = .next t ∧ t.serdes.cdrLock[serialNo l] = false ∧
      (serialAt t (serialNo l)).chkLock = false ∧ (flagWord t (aLneFlags (serialNo l))).getLsbD 0 = true) ∧
    (deepEntryGuard l s = true → exec (.deepEntry l) s = .next { s with serdes := { s.serdes with
      lanes := s.serdes.lanes.set (serialNo l) { serialAt s (serialNo l) with deepAt := some s.now, deepExit := false } } }) ∧
    (deepEntryCompleteGuard l s = true → ∃ t, exec (.deepEntryComplete l) s = .next t ∧
      (serialAt t (serialNo l)).tx = .deep ∧ (serialAt t (serialNo l)).rx = .deep ∧ (serialAt t (serialNo l)).deepAt = none ∧
      t.serdes.cdrLock = s.serdes.cdrLock.set (serialNo l) false ∧
      (∀ n, n ≠ serialNo l → serialAt t n = serialAt s n)) ∧
    (deepExitGuard l s = true →
      (∀ t0, (serialAt s (serialNo l)).deepAt = some t0 → s.now < t0 + 9 * usTicks → ∃ t, exec (.deepExit l) s = .next t ∧
        t.serdes = { s.serdes with lanes := s.serdes.lanes.set (serialNo l) { serialAt s (serialNo l) with deepAt := none } } ∧
        (flagWord t (aLneFlags (serialNo l))).getLsbD 4 = true) ∧
      (∀ t0, (serialAt s (serialNo l)).deepAt = some t0 → t0 + 9 * usTicks ≤ s.now →
        exec (.deepExit l) s = .next { s with serdes := { s.serdes with
          lanes := s.serdes.lanes.set (serialNo l) { serialAt s (serialNo l) with deepExit := true } } }) ∧
      ((serialAt s (serialNo l)).deepAt = none → exec (.deepExit l) s = .next { s with serdes := { s.serdes with
          lanes := s.serdes.lanes.set (serialNo l) { serialAt s (serialNo l) with exitAt := some s.now } } })) ∧
    (deepExitCompleteGuard l s = true → ∃ t, exec (.deepExitComplete l) s = .next t ∧
      (serialAt t (serialNo l)).tx = .run ∧ (serialAt t (serialNo l)).rx = .run ∧ (serialAt t (serialNo l)).exitAt = none ∧
      (∀ n, n ≠ serialNo l → serialAt t n = serialAt s n)) ∧
    (chkLockGuard l s = true → exec (.chkLock l) s = .next { s with serdes := { s.serdes with
      lanes := s.serdes.lanes.set (serialNo l) { serialAt s (serialNo l) with chkLock := true } } }) ∧
    (chkLockLostGuard l s = true → ∀ e b n, ∃ t, exec (.chkLockLost l e b n) s = .next t ∧
      serialAt t (serialNo l) = { serialAt s (serialNo l) with chkLock := decide (n ≤ 256) } ∧
      (∀ m, m ≠ serialNo l → serialAt t m = serialAt s m) ∧
      counterAt t (aLne (serialNo l) 0x20) = (counterAt s (aLne (serialNo l) 0x20) + e) % 2 ^ 64 ∧
      counterAt t (aLne (serialNo l) 0x28) = (counterAt s (aLne (serialNo l) 0x28) + b) % 2 ^ 64 ∧
      counterAt t (aLne (serialNo l) 0x30) = (counterAt s (aLne (serialNo l) 0x30) + if 256 < n then 1 else 0) % 2 ^ 64) ∧
    (loopExpiredGuard l s = true → ∃ t, exec (.loopExpired l) s = .next t ∧ serialNo l ∈ loopMates s (serialNo l) ∧
      ∀ n, (n ∈ loopMates s (serialNo l) → (serialAt t n).loop = .none ∧ (serialAt t n).loopEnd = none ∧
          (serialAt t n).startAt = s.now) ∧
        (n ∉ loopMates s (serialNo l) → serialAt t n = serialAt s n))) ∧
  (∀ (m : MboxId) (r : Request) (s : State),
    (current 0x0900 s = some (m, r) → firstFailing (laneEqSetChecks r s) = none → ∃ t, exec .laneEqSet s = .next t ∧
      serialAt t (entryLane (eqRaw r.payload 0)) = { serialAt s (entryLane (eqRaw r.payload 0)) with
        eq := (eqRaw r.payload 0).entry, eqSource := 2, startAt := s.now, chkLock := false } ∧
      eqValid (eqRaw r.payload 0) = true ∧ (∀ n, n ≠ entryLane (eqRaw r.payload 0) → serialAt t n = serialAt s n)) ∧
    (current 0x0903 s = some (m, r) → firstFailing (patternSetChecks r s) = none → ∃ t, exec .patternSet s = .next t ∧
      (serialAt t (psLane r)).gen = r.u8 2 ∧ (serialAt t (psLane r)).chk = r.u8 3 ∧ (serialAt t (psLane r)).chkLock = false ∧
      (serialAt t (psLane r)).startAt = s.now ∧ (∀ n, n ≠ psLane r → serialAt t n = serialAt s n))) ∧
  (∀ (l : Lane) (s : State) (d : LoopOut) (rest : List LoopOut), loopBurstGuard l s = true →
    (serialAt s (lineSerial l)).loopDue = d :: rest → ∃ t, exec (.loopBurst l) s = .next t ∧
      (serialAt t (lineSerial l)).loopBurst = some d ∧ (serialAt t (lineSerial l)).loopDue = rest ∧
      (serialAt t (lineSerial l)).loopBlocks.take 33 = List.replicate 32 (true, leaderBody) ++
        [(true, delimiterBody 255 0 0 (BitVec.ofNat 16 d.fn) (epochOf d.fn) 0 d.len false)] ∧
      (34 ≤ d.len → d.words.length = 4 * (d.len - 34) → (serialAt t (lineSerial l)).loopBlocks.length = d.len) ∧
      (∀ n, n ≠ lineSerial l → serialAt t n = serialAt s n))

/-- A HELLO on a fabric lane.  One of the wrong length leaves the adjacency; the device's own raises the lane to INIT; one of a
stopped partner or to a stopped fabric leaves the lane DOWN as DISABLED.  Any other: in DOWN it raises the lane to INIT with
the partner recorded; in INIT it leaves INIT where it does not name this device and otherwise raises the lane to TWO_WAY or
FULL; in INIT, TWO_WAY or FULL one of a changed DEVICE_ID, and in TWO_WAY or FULL one that no longer names this device, takes
the lane DOWN as ONE_WAY.  No other lane's adjacency changes.  A link-down event leaves its lane DOWN with its cause.  A cell whose check fails is counted and changes
nothing else.  An address held 60 s, an LSA not refreshed and an unanswered NOTIFY go, and nothing else of their kind goes; an
ACK ends the NOTIFY it echoes.  A recomputation installs the route table that the LSAs give, and an entry holds at most four
primary and four alternate lanes.  LPI is entered with nothing else changed.  FABRIC_SET stores its settings and every lane's
enable and cost, and the address setting only while the fabric is stopped. -/
def Obligations.FabricLinksAndRoutes : Prop :=
  (∀ (l : FabLane) (h : Hello) (s : State), helloGuard l s = true →
    ∃ t, exec (.hello l h) s = .next t ∧ (∀ o, o ≠ l → (fabAt t o).adj = (fabAt s o).adj) ∧
      (h.bytes.length ≠ 40 → (fabAt t l).adj = (fabAt s l).adj) ∧
      (h.bytes.length = 40 → vecOfBytes 64 (h.bytes.take 8) = s.serial → (fabAt t l).adj = .init) ∧
      (h.bytes.length = 40 → vecOfBytes 64 (h.bytes.take 8) ≠ s.serial →
        (natBit (leAt h.bytes 26 1) 2 || s.fabric.stopped) = true →
        (fabAt t l).adj = .down ∧ ((fabAt s l).adj ≠ .down → (fabAt t l).cause = 7)) ∧
      (h.bytes.length = 40 → vecOfBytes 64 (h.bytes.take 8) ≠ s.serial →
        (natBit (leAt h.bytes 26 1) 2 || s.fabric.stopped) = false →
        ((fabAt s l).adj = .down → (fabAt t l).adj = .init ∧ (fabAt t l).neighId = vecOfBytes 64 (h.bytes.take 8)) ∧
        ((fabAt s l).adj = .init → vecOfBytes 64 (h.bytes.take 8) = (fabAt s l).neighId →
          if vecOfBytes 64 ((h.bytes.drop 8).take 8) = s.serial then (fabAt t l).adj = .twoWay ∨ (fabAt t l).adj = .full
          else (fabAt t l).adj = .init) ∧
        ((fabAt s l).adj ≠ .down → vecOfBytes 64 (h.bytes.take 8) ≠ (fabAt s l).neighId →
          (fabAt t l).adj = .down ∧ (fabAt t l).cause = 4) ∧
        ((fabAt s l).adj = .twoWay ∨ (fabAt s l).adj = .full → vecOfBytes 64 ((h.bytes.drop 8).take 8) ≠ s.serial →
          (fabAt t l).adj = .down ∧ (fabAt t l).cause = 4))) ∧
  (∀ (l : FabLane) (s : State),
    (∀ c, fabricLinkDownGuard l c s = true → ∃ t, exec (.fabricLinkDown l c) s = .next t ∧ (fabAt t l).adj = .down ∧
      (fabAt t l).cause = downCode c ∧ (∀ o, o ≠ l → (fabAt t o).adj = (fabAt s o).adj)) ∧
    (∀ c, fabricCellRxGuard l s = true → cellOk c = false →
      exec (.fabricCellRx l c) s = .next (count1 (aFabLane l 0x20) s)) ∧
    (fabLpiEnterGuard l s = true → exec (.fabLpiEnter l) s = .next { s with fabric := { s.fabric with
      lanes := s.fabric.lanes.set l { fabAt s l with lpiTx := true } } })) ∧
  (∀ s : State,
    (∀ a, addrHoldExpiryGuard a s = true → exec (.addrHoldExpiry a) s = .next { s with fabric := { s.fabric with
      leftAt := s.fabric.leftAt.filter fun e => e.1 != a } }) ∧
    (∀ d, lsaExpiryGuard d s = true → ∃ t, exec (.lsaExpiry d) s = .next t ∧ lsaAt t d = none ∧
      (∀ e, e ≠ d → lsaAt t e = lsaAt s e) ∧ t.fabric.dbChanged = true) ∧
    (routeRecomputeGuard s = true → ∃ t, exec .routeRecompute s = .next t ∧ t.fabric.routes = newRoutes s ∧
      t.fabric.dbChanged = false ∧ ∀ a : Fin 64,
        ((List.range 16).filter fun i => t.fabric.routes[a].primary.getLsbD i).length ≤ 4 ∧
        ((List.range 16).filter fun i => t.fabric.routes[a].alternate.getLsbD i).length ≤ 4) ∧
    (∀ g, notifyFailGuard g s = true → ∃ t, exec (.notifyFail g) s = .next t ∧ (protAt t g).notify = none ∧
      (protAt t g).notifyFail = true ∧ (flagWord t aFabFlags).getLsbD 5 = true ∧
      (∀ k, k ≠ g → protAt t k = protAt s k)) ∧
    (∀ src seq, ∃ t, exec (.notifyAck src seq) s = .next t ∧ ∀ g p q, (groupAt s g).pair = some p →
      (protAt s g).notify = some q → (protAt t g).notify = if p.peer = src ∧ q.1 = seq then none else some q)) ∧
  (∀ (m : MboxId) (r : Request) (s : State),
    (current 0x0A00 s = some (m, r) → firstFailing (fabricSetChecks r s) = none → ∃ t, exec .fabricSet s = .next t ∧
      (∀ l, (fabAt t l).enabled = natBit (fsMask r) l.val ∧ (fabAt t l).cost = r.u16 (8 + 2 * l.val)) ∧
      t.fabric.setting = s.fabric.setting ∧ (s.fabric.stopped = true → t.fabric.settingPend = some (r.u8 0)) ∧
      t.fabric.lpi = natBit (r.u8 1) 0 ∧ t.fabric.ttl = r.u8 2 ∧ t.fabric.prioClass = BitVec.ofNat 16 (r.u16 6)) ∧
    (current 0x0A01 s = some (m, r) → firstFailing (fabricRouteReadChecks r s) = none → r.fenceAfter = false →
      ∃ t, exec .fabricRouteRead s = .next t ∧ (boxAt t m).resp.payload.length = 16 * r.u8 1 ∧ t.fabric = s.fabric))

/-- On mailboxes 0 to 7: RING in IDLE or DONE latches the request area, makes the mailbox PENDING and joins the doorbells rung,
behind all but those that mailboxes of higher number rang in the same cycle; ABORT in PENDING writes ABORTED with the request's SEQ, makes the mailbox DONE and takes it off the doorbells; RING in
PENDING or RUNNING and ABORT in any other state are ignored, with RING_IGNORED set and MGT_RING_IGNORED counted.  A write
to the request area of an IDLE or DONE mailbox is stored, byte for byte, and in PENDING or RUNNING is ignored, with
WRITE_IGNORED set and MGT_RING_IGNORED counted. -/
def Obligations.MailboxDoorbells : Prop :=
  ∀ (m : MboxId) (s : State), m.val < 8 →
    (boxFree (boxAt s m) = true →
      exec (.ring m) s = .next { s with mail := { s.mail with
        boxes := s.mail.boxes.set m { boxAt s m with st := .pending, req := latchArea (boxAt s m), rungAt := s.now },
        ringQ := s.mail.ringQ.filter (fun x => !(decide ((boxAt s x).rungAt = s.now) && decide (m < x))) ++
          m :: s.mail.ringQ.filter (fun x => decide ((boxAt s x).rungAt = s.now) && decide (m < x)) } }) ∧
    ((boxAt s m).st = .pending → ∀ b, ∃ t, exec (.abort m b) s = .next t ∧
      (boxAt t m).st = .done ∧ (boxAt t m).resp.status = .aborted ∧ (boxAt t m).resp.seq = (boxAt s m).req.seq ∧
      (boxAt t m).resp.payload = [] ∧ t.mail.ringQ = s.mail.ringQ.filter (fun x => x != m) ∧
      OnlyChanges [.anchor, .mail, .log] s t) ∧
    (boxFree (boxAt s m) = false → exec (.ring m) s = .next (setFlag (aMboxFlags m.val) 0 (count1 aRingIgnored s))) ∧
    ((boxAt s m).st ≠ .pending → ∀ b, exec (.abort m b) s = .next (setFlag (aMboxFlags m.val) 0 (count1 aRingIgnored s))) ∧
    (∀ offset data, boxFree (boxAt s m) = true → sparseWf 0 (boxAt s m).area = true → offset + data.length ≤ 4096 →
      ∃ t, exec (.requestAreaWrite m offset data) s = .next t ∧ OnlyChanges [.mail] s t ∧
        (boxAt t m).st = (boxAt s m).st ∧ (boxAt t m).req = (boxAt s m).req ∧ (boxAt t m).resp = (boxAt s m).resp ∧
        ∀ k, areaByte (boxAt t m) k =
          if offset ≤ k ∧ k < offset + data.length then data.getD (k - offset) 0 else areaByte (boxAt s m) k) ∧
    (∀ offset data, boxFree (boxAt s m) = false →
      exec (.requestAreaWrite m offset data) s = .next (setFlag (aMboxFlags m.val) 1 (count1 aRingIgnored s)))

/-- While the anchor takes requests and executes none, COMMAND_TAKE takes the first doorbell rung, but not one with ORDER
while an earlier request is not DONE.  The mailbox is RUNNING and leaves the doorbells.  A request that passes the common
checks is the one being executed; one that is long has written DEFERRED and runs; for any other no response is written yet.
A failing check writes its status, with the request's SEQ, and the mailbox is DONE. -/
def Obligations.RequestsTakenInOrder : Prop :=
  ∀ (m : MboxId) (q : List MboxId) (s : State), takesRequests s = true → s.mail.cur = none → takingStopped s = false →
    s.mail.ringQ = m :: q → ((boxAt s m).req.order && anyTaken s) = false →
    (firstFailing (commonChecks s m (boxAt s m).req) = none → ∃ t, exec .commandTake s = .next t ∧
      t.mail.cur = some m ∧ t.mail.ringQ = q ∧ (boxAt t m).st = .running ∧ (boxAt t m).req = (boxAt s m).req ∧
      OnlyChanges [.mail, .env] s t ∧
      (takenLong (boxAt s m).req = true → (boxAt t m).resp.status = .deferred ∧ (boxAt t m).resp.seq = (boxAt s m).req.seq ∧
        t.mail.longs = s.mail.longs ++ [{ mbox := m, kind := .taken }]) ∧
      (takenLong (boxAt s m).req = false → (boxAt t m).resp = (boxAt s m).resp ∧ t.mail.longs = s.mail.longs)) ∧
    (∀ st, firstFailing (commonChecks s m (boxAt s m).req) = some st → ∃ t, exec .commandTake s = .next t ∧
      t.mail.cur = none ∧ t.mail.ringQ = q ∧ (boxAt t m).st = .done ∧ (boxAt t m).resp.status = st ∧
      (boxAt t m).resp.seq = (boxAt s m).req.seq ∧ (boxAt t m).resp.payload = [] ∧ OnlyChanges [.env, .anchor, .mail, .log] s t)

/-- For every command row: where the request being executed has the row's opcode and a check of the command fails, the first that
fails is the status of the response, which carries the request's SEQ and no payload; the mailbox is DONE, no request is
being executed, and nothing changes but the mailbox, the mirror's copy of it, what the service port sends and the vector
that announces the response. -/
def Obligations.FirstFailingCheckIsTheAnswer : Prop :=
  ∀ (c : Instr) (op : Nat) (checks : Request → State → List Check) (m : MboxId) (r : Request) (st : Status) (s : State),
    Instr.command c = some (op, checks) → current op s = some (m, r) → firstFailing (checks r s) = some st → st ≠ .ok →
    ∃ t, exec c s = .next t ∧ (boxAt t m).st = .done ∧ (boxAt t m).resp.status = st ∧ (boxAt t m).resp.seq = r.seq ∧
      (boxAt t m).resp.payload = [] ∧ t.mail.cur = none ∧ OnlyChanges [.env, .anchor, .mail, .log] s t

/-- For every command row that the opcode index does not mark long: where the request being executed has the row's opcode and no
FENCE_AFTER, the row leaves its mailbox DONE, with a response that carries the request's SEQ, and no request being
executed. -/
def Obligations.ShortCommandsAnswer : Prop :=
  ∀ (c : Instr) (op : Nat) (checks : Request → State → List Check) (m : MboxId) (r : Request) (s : State),
    Instr.command c = some (op, checks) → (opInfo op).any (fun i => i.long) = false → current op s = some (m, r) →
    r.fenceAfter = false →
    ∃ t, exec c s = .next t ∧ (boxAt t m).st = .done ∧ (boxAt t m).resp.seq = r.seq ∧ t.mail.cur = none

/-- Whatever command runs, in whatever state, the SVN floor after it is no lower than before, and only an activation step that
succeeds can change it. -/
def Obligations.SvnFloorNeverFalls : Prop :=
  ∀ (c : Instr) (s t : State), exec c s = .next t → s.fw.svnFloor ≤ t.fw.svnFloor ∧
    (t.fw.svnFloor ≠ s.fw.svnFloor → c = .activationStep true)

/-- SENSOR_SET stores its sensor's thresholds, the lower below the upper where enabled, and a sample stores the sensor's reading;
no other sensor changes.  A checkpoint written fills the next slot with the running BOOT and one that fails leaves it empty;
either passes to the slot after it, and no other slot changes.  FW_STAGE with FIRST leaves the staging bank empty and not
VALID; a chunk that completes lies at the end of the staging bank, or begins it; a last chunk whose image is not admissible is
answered CONFLICT with its reason in one byte and changes no directory copy, and one whose image is admissible leaves its bank
VALID and the active bank as it was.  A failed activation restores the components that ran
before, is answered ABORTED, and changes no directory copy.  Firmware that is not ready 2 s after its start leaves the device
in darkroom mode with cause 3, no KEK, and every lane but the service lanes OFF.  FUSE_READ answers 64 bytes. -/
def Obligations.FirmwareCommands : Prop :=
  (∀ (m : MboxId) (r : Request) (s : State),
    (current 0x0B12 s = some (m, r) → firstFailing (sensorSetChecks r s) = none → ∃ t, exec .sensorSet s = .next t ∧
      t.fw.sensors = sparseSet {} s.fw.sensors (r.u8 0)
        { enabled := r.u8 1 == 1, high := signed 32 (r.u32 4), low := signed 32 (r.u32 8) } ∧
      (r.u8 1 = 1 → signed 32 (r.u32 8) < signed 32 (r.u32 4))) ∧
    (current 0x0B00 s = some (m, r) → firstFailing (fwStageChecks r s) = none → fsFirst r = true →
      ∃ t, exec .fwStage s = .next t ∧ bankBytes t (stagingBank s) = [] ∧ bankValid t (stagingBank s) = false ∧
        t.fw.stageNext = fsEnd r ∧ t.fw.stageTotal = r.u32 4 ∧ r.u32 4 ≤ 8388608) ∧
    (current 0x0B03 s = some (m, r) → firstFailing (fuseReadChecks r s) = none → r.fenceAfter = false →
      ∃ t, exec .fuseRead s = .next t ∧ (boxAt t m).resp.payload.length = 64)) ∧
  (∀ s : State,
    (∀ i v, sensorSampleGuard i s = true → ∃ t, exec (.sensorSample i v) s = .next t ∧
      t.fw.readings = sparseSet noReading s.fw.readings i
        (if i = 96 then stackReading s else if i = 98 then highestDie s else if sensorLive s i then v else noReading) ∧
      OnlyChanges [.counters, .flags, .log, .sensors, .history, .power] s t) ∧
    (∀ ok, checkpointGuard s = true → ∃ t, exec (.checkpoint ok) s = .next t ∧
      t.fw.nextSlot = (s.fw.nextSlot + 1) % 64 ∧ ∃ x, t.fw.slots = sparseSet none s.fw.slots s.fw.nextSlot x ∧
        (ok = true → ∃ y, x = some y ∧ y.boot = s.fw.boot ∧ y.records.length ≤ 16382) ∧ (ok = false → x = none)) ∧
    (∀ m, fwStageCompleteGuard m s = true → ∃ t, exec (.fwStageComplete m) s = .next t ∧
      bankBytes t (stagingBank s) = (if fsFirst (boxAt s m).req then [] else bankBytes s (stagingBank s)) ++ fsData (boxAt s m).req ∧
      (fsLast (boxAt s m).req = true →
        (∀ n, stagedReason (storeChunk (boxAt s m).req s) = some n → (boxAt t m).resp.status = .conflict ∧
          (boxAt t m).resp.payload = [BitVec.ofNat 8 n] ∧ t.fw.dirs = s.fw.dirs) ∧
        (stagedReason (storeChunk (boxAt s m).req s) = none →
          bankValid t (stagingBank s) = true ∧ activeBank t = activeBank s ∧ t.fw.stageSt = 2))) ∧
    (∀ a, s.fw.act = some a → ∃ t, exec (.activationStep false) s = .next t ∧ t.fw.act = none ∧ t.fw.running = a.before ∧
      t.fw.dirs = s.fw.dirs ∧ (boxAt t a.mbox).resp.status = .aborted) ∧
    (fwStartTimeoutGuard s = true → ∃ t, exec .fwStartTimeout s = .next t ∧ t.fw.darkroom = true ∧ t.fw.drCause = 3 ∧
      (∀ i : Fin 8, t.crypto.keks[i] = none) ∧
      (∀ n : Fin 88, n.val % 11 ≠ 10 → (serialAt t n).tx = .off ∧ (serialAt t n).rx = .off) ∧
      OnlyChanges [.keks, .serdes, .boot] s t))

/-- On one slice, with no other slice's clocks, level or caps changed: a source that becomes stable is GOOD; a regulator that does
not answer leaves the level, unconfirmed; a sensor at 100 degrees caps the slice, and with every sensor cool the cap is
lifted; a sensor at 115 degrees brings the slice DOWN; IDLE is entered and left; a crossing leaves quarantine alone.
DVFS_SET records the level asked for on the slices of its mask.  Removal darkens every line lane and ends every burst;
PERST_N disables the host's event queue and leaves no request PENDING on mailboxes 0 to 7.  After a power-on or pin
reset the registers, trunk, packet path, keys, HBM, fabric and mailboxes are as in the reset state, no KEK is held, and the
serial number, fuses, flash banks, directory and SVN floor are kept. -/
def Obligations.ClocksPowerAndResets : Prop :=
  (∀ (k : SliceId) (s : State),
    (∀ src, clockStableGuard k src s = true → ∃ t, exec (.clockStable k src) s = .next t ∧
      (meterOf t k (srcMeter src)).st = .good ∧ (∀ j, j ≠ k → pwAt t j = pwAt s j) ∧ OnlyChanges [.power] s t) ∧
    (avsTimeoutGuard k s = true → ∃ t, exec (.avsTimeout k) s = .next t ∧ (pwAt t k).level = (pwAt s k).level ∧
      (pwAt t k).unconfirmed = true ∧ (pwAt t k).avs = none ∧ (∀ j, j ≠ k → pwAt t j = pwAt s j)) ∧
    (∀ i v, thermalThrottleGuard k i v s = true → ∃ t, exec (.thermalThrottle k i v) s = .next t ∧ (pwAt t k).capped = true ∧
      (∀ j, j ≠ k → pwAt t j = pwAt s j)) ∧
    (thermalCapReleaseGuard k s = true → ∃ t, exec (.thermalCapRelease k) s = .next t ∧
      pwAt t k = { pwAt s k with capped := false } ∧ (∀ j, j ≠ k → pwAt t j = pwAt s j) ∧ OnlyChanges [.power] s t) ∧
    (∀ i v, thermalShutdownGuard k i v s = true → ∃ t, exec (.thermalShutdown k i v) s = .next t ∧
      t.power.st[k] = .down ∧ (pwAt t k).shutdown = true) ∧
    (idleEntryGuard k s = true → ∃ t, exec (.idleEntry k) s = .next t ∧ t.power.st[k] = .idle ∧
      (∀ j : SliceId, j ≠ k → t.power.st[j] = s.power.st[j])) ∧
    (idleExitGuard k s = true → ∃ t, exec (.idleExit k) s = .next t ∧ t.power.st[k] = .run ∧
      (∀ j : SliceId, j ≠ k → t.power.st[j] = s.power.st[j])) ∧
    (∀ c, quarantineExitGuard k c s = true → ∃ t, exec (.quarantineExit k c) s = .next t ∧
      pwAt t k = { pwAt s k with quarantine := (pwAt s k).quarantine.filter fun x => x != c } ∧
      (∀ j, j ≠ k → pwAt t j = pwAt s j) ∧ OnlyChanges [.power] s t)) ∧
  (∀ (m : MboxId) (r : Request) (s : State), current 0x0C01 s = some (m, r) → firstFailing (dvfsSetChecks r s) = none →
    ∃ t, exec .dvfsSet s = .next t ∧ ∀ k : SliceId,
      pwAt t k = if r.inMask k.val then { pwAt s k with levelReq := r.u8 0 } else pwAt s k) ∧
  (∀ s : State,
    (removalGuard s = true → ∃ t, exec .removal s = .next t ∧ t.pins.removed = true ∧
      (∀ l : Lane, (laneAt t l).out = .dark ∧ (laneAt t l).burst = none)) ∧
    (perstGuard s = true → ∃ t, exec .perst s = .next t ∧ t.ev.evq.enabled = false ∧ t.anchor.pcieUp = false ∧
      ∀ m : MboxId, m.val < 8 → (boxAt t m).st ≠ .pending) ∧
    (∀ straps, ∀ c ∈ [Instr.powerOnReset straps, .pinReset straps], ∃ t, exec c s = .next t ∧ t.regs = State.reset.regs ∧
      t.trunk = State.reset.trunk ∧ t.path = State.reset.path ∧ t.crypto = State.reset.crypto ∧ t.hbm = State.reset.hbm ∧
      t.fabric = State.reset.fabric ∧ t.mail = State.reset.mail ∧ t.ev = State.reset.ev ∧
      (∀ i : Fin 8, t.crypto.keks[i] = none) ∧ SameIdentity s t ∧ t.fw.svnFloor = s.fw.svnFloor ∧
      t.fw.dirs = s.fw.dirs ∧ t.fw.banks = s.fw.banks))
end

