-- ==== Sys2Proof/Laws/Sparse.lean ====
section
/-!
SUPPORT. Laws/Sparse.lean: what sparse tables do: a read after a write, and that a write keeps the canonical form.
-/
namespace Sys2Proof.Machine

variable {α : Type} [DecidableEq α] {d : α}

/-- A table whose keys lie above `lo` is canonical. -/
theorem sparseWf_of_above {lo : Nat} {t : Sparse α} (h : sparseAbove d lo t = true) : sparseWf d t = true := by
  cases t with
  | nil => rfl
  | cons e t =>
    obtain ⟨k, v⟩ := e
    simp only [sparseAbove, Bool.and_eq_true] at h
    simp [sparseWf, h.1.2, h.2]

/-- The tail of a canonical table lies above its first key. -/
theorem sparseAbove_tail {k : Nat} {v : α} {t : Sparse α} (h : sparseWf d ((k, v) :: t) = true) : sparseAbove d k t = true := by
  simp only [sparseWf, Bool.and_eq_true] at h
  exact h.2

/-- A lower bound may be lowered. -/
theorem sparseAbove_mono {lo lo' : Nat} {t : Sparse α} (hl : lo' ≤ lo) (h : sparseAbove d lo t = true) :
    sparseAbove d lo' t = true := by
  cases t with
  | nil => rfl
  | cons e t =>
    obtain ⟨k, v⟩ := e
    simp only [sparseAbove, Bool.and_eq_true, decide_eq_true_eq] at h ⊢
    exact ⟨⟨by omega, h.1.2⟩, h.2⟩

/-- Keys at or below the bound of a table read as the default. -/
theorem sparseGet_above {lo n : Nat} {t : Sparse α} (h : sparseAbove d lo t = true) (hn : n ≤ lo) : sparseGet d t n = d := by
  cases t with
  | nil => rfl
  | cons e t =>
    obtain ⟨k, v⟩ := e
    simp only [sparseAbove, Bool.and_eq_true, decide_eq_true_eq] at h
    have h1 : ¬ n = k := by omega
    have h2 : n < k := by omega
    simp [sparseGet, h1, h2]

/-- A write above the bound keeps the bound. -/
theorem sparseAbove_set {lo n : Nat} {x : α} {t : Sparse α} (h : sparseAbove d lo t = true) (hn : lo < n) :
    sparseAbove d lo (sparseSet d t n x) = true := by
  induction t generalizing lo with
  | nil =>
    by_cases hx : x = d
    · simp [sparseSet, hx, sparseAbove]
    · simp [sparseSet, hx, sparseAbove, hn]
  | cons e t ih =>
    obtain ⟨k, v⟩ := e
    simp only [sparseAbove, Bool.and_eq_true, decide_eq_true_eq] at h
    obtain ⟨⟨hk, hv⟩, ht⟩ := h
    unfold sparseSet
    by_cases h1 : n = k
    · subst h1
      by_cases hx : x = d
      · simpa [hx] using sparseAbove_mono (by omega) ht
      · simp [hx, sparseAbove, hk, ht]
    · by_cases h2 : n < k
      · by_cases hx : x = d
        · simp [h1, h2, hx, sparseAbove, hk, ht, hv]
        · simp [h1, h2, hx, sparseAbove, hn, ht, hv]
      · have h3 : k < n := by omega
        simp [h1, h2, sparseAbove, hk, hv, ih ht h3]

/-- A write keeps the canonical form. -/
theorem sparseWf_set {n : Nat} {x : α} {t : Sparse α} (h : sparseWf d t = true) : sparseWf d (sparseSet d t n x) = true := by
  cases t with
  | nil =>
    by_cases hx : x = d <;> simp [sparseSet, hx, sparseWf, sparseAbove]
  | cons e t =>
    obtain ⟨k, v⟩ := e
    have ht := sparseAbove_tail h
    simp only [sparseWf, Bool.and_eq_true] at h
    unfold sparseSet
    by_cases h1 : n = k
    · subst h1
      by_cases hx : x = d
      · simpa [hx] using sparseWf_of_above ht
      · simp [hx, sparseWf, ht]
    · by_cases h2 : n < k
      · by_cases hx : x = d
        · simp [h1, h2, hx, sparseWf, ht, h.1]
        · simp [h1, h2, hx, sparseWf, sparseAbove, ht, h.1]
      · have h3 : k < n := by omega
        simp [h1, h2, sparseWf, h.1, sparseAbove_set ht h3]

/-- A change at a key keeps the canonical form. -/
theorem sparseWf_mod {n : Nat} {f : α → α} {t : Sparse α} (h : sparseWf d t = true) : sparseWf d (sparseMod d t n f) = true :=
  sparseWf_set h

/-- A read of the key written gives the value written. -/
theorem sparseGet_set_same {n : Nat} {x : α} {t : Sparse α} (h : sparseWf d t = true) : sparseGet d (sparseSet d t n x) n = x := by
  induction t with
  | nil =>
    by_cases hx : x = d <;> simp [sparseSet, hx, sparseGet]
  | cons e t ih =>
    obtain ⟨k, v⟩ := e
    have ht := sparseAbove_tail h
    unfold sparseSet
    by_cases h1 : n = k
    · subst h1
      by_cases hx : x = d
      · simp [hx, sparseGet_above ht (Nat.le_refl n)]
      · simp [hx, sparseGet]
    · by_cases h2 : n < k
      · by_cases hx : x = d <;> simp [h1, h2, hx, sparseGet]
      · simp [h1, h2, sparseGet, ih (sparseWf_of_above ht)]

/-- A read of another key gives what it gave before. -/
theorem sparseGet_set_other {n m : Nat} {x : α} {t : Sparse α} (h : sparseWf d t = true) (hm : m ≠ n) :
    sparseGet d (sparseSet d t n x) m = sparseGet d t m := by
  induction t with
  | nil =>
    by_cases hx : x = d <;> simp [sparseSet, hx, sparseGet, hm]
  | cons e t ih =>
    obtain ⟨k, v⟩ := e
    have ht := sparseAbove_tail h
    unfold sparseSet
    by_cases h1 : n = k
    · subst h1
      by_cases hx : x = d
      · by_cases h3 : m < n
        · simp [hx, sparseGet, hm, h3, sparseGet_above ht (by omega : m ≤ n)]
        · simp [hx, sparseGet, hm, h3]
      · simp [hx, sparseGet, hm]
    · by_cases h2 : n < k
      · by_cases hx : x = d
        · simp [h1, h2, hx]
        · by_cases h3 : m < n
          · have h4 : ¬ m = k := by omega
            have h5 : m < k := by omega
            simp only [h1, h2, hx, sparseGet, hm, h3, h4, h5, ite_true, ite_false]
          · simp [h1, h2, hx, sparseGet, hm, h3]
      · simp [h1, h2, sparseGet, ih (sparseWf_of_above ht)]

/-- A read of the key changed gives the changed value. -/
theorem sparseGet_mod_same {n : Nat} {f : α → α} {t : Sparse α} (h : sparseWf d t = true) :
    sparseGet d (sparseMod d t n f) n = f (sparseGet d t n) := sparseGet_set_same h

/-- A read of another key gives what it gave before. -/
theorem sparseGet_mod_other {n m : Nat} {f : α → α} {t : Sparse α} (h : sparseWf d t = true) (hm : m ≠ n) :
    sparseGet d (sparseMod d t n f) m = sparseGet d t m := sparseGet_set_other h hm

/-- A part of a table above a bound lies above it. -/
theorem sparseAbove_filter {p : Nat × α → Bool} {lo : Nat} {t : Sparse α} (h : sparseAbove d lo t = true) :
    sparseAbove d lo (t.filter p) = true := by
  induction t generalizing lo with
  | nil => rfl
  | cons e t ih =>
    obtain ⟨k, v⟩ := e
    simp only [sparseAbove, Bool.and_eq_true, decide_eq_true_eq] at h
    by_cases hp : p (k, v) = true
    · simp [hp, sparseAbove, h.1.1, h.1.2, ih h.2]
    · simpa [List.filter_cons, hp] using ih (sparseAbove_mono (by omega) h.2)

/-- A part of a canonical table is canonical. -/
theorem sparseWf_filter {p : Nat × α → Bool} {t : Sparse α} (h : sparseWf d t = true) : sparseWf d (t.filter p) = true := by
  cases t with
  | nil => rfl
  | cons e t =>
    obtain ⟨k, v⟩ := e
    have ht := sparseAbove_tail h
    simp only [sparseWf, Bool.and_eq_true] at h
    by_cases hp : p (k, v) = true
    · simp [hp, sparseWf, h.1, sparseAbove_filter (p := p) ht]
    · simpa [List.filter_cons, hp] using sparseWf_of_above (sparseAbove_filter (p := p) ht)

/-- Two tables parted at a key join to a table above the bound of both. -/
theorem sparseAbove_join {lo n : Nat} {t u : Sparse α} (ht : sparseAbove d lo t = true) (htn : ∀ e ∈ t, e.1 < n)
    (hu : sparseAbove d lo u = true) (hun : ∀ e ∈ u, n ≤ e.1) : sparseAbove d lo (t ++ u) = true := by
  induction t generalizing lo with
  | nil => exact hu
  | cons e t ih =>
    obtain ⟨k, v⟩ := e
    have hk : k < n := htn (k, v) (List.mem_cons_self ..)
    have hku : sparseAbove d k u = true := by
      cases u with
      | nil => rfl
      | cons x u =>
        obtain ⟨m, y⟩ := x
        have hm : n ≤ m := hun (m, y) (List.mem_cons_self ..)
        simp only [sparseAbove, Bool.and_eq_true, decide_eq_true_eq] at hu ⊢
        exact ⟨⟨by omega, hu.1.2⟩, hu.2⟩
    simp only [List.cons_append, sparseAbove, Bool.and_eq_true, decide_eq_true_eq] at ht ⊢
    exact ⟨ht.1, ih ht.2 (fun e he => htn e (List.mem_cons_of_mem _ he)) hku⟩

/-- The entries of one canonical table below a key and those of another from it join to a canonical table. -/
theorem sparseWf_join {n : Nat} {t u : Sparse α} (ht : sparseWf d t = true) (hu : sparseWf d u = true) :
    sparseWf d (t.filter (fun e => decide (e.1 < n)) ++ u.filter fun e => decide (n ≤ e.1)) = true := by
  have hun : ∀ e ∈ u.filter (fun e => decide (n ≤ e.1)), n ≤ e.1 := fun e he => by simpa using (List.mem_filter.mp he).2
  have hu' := sparseWf_filter (p := fun e => decide (n ≤ e.1)) hu
  have htn : ∀ e ∈ t.filter (fun e => decide (e.1 < n)), e.1 < n := fun e he => by simpa using (List.mem_filter.mp he).2
  have ht' := sparseWf_filter (p := fun e => decide (e.1 < n)) ht
  generalize u.filter (fun e => decide (n ≤ e.1)) = u' at *
  generalize t.filter (fun e => decide (e.1 < n)) = t' at *
  cases t' with
  | nil => exact hu'
  | cons e t' =>
    obtain ⟨k, v⟩ := e
    have hk : k < n := htn (k, v) (List.mem_cons_self ..)
    have hku : sparseAbove d k u' = true := by
      cases u' with
      | nil => rfl
      | cons x u' =>
        obtain ⟨m, y⟩ := x
        have hm : n ≤ m := hun (m, y) (List.mem_cons_self ..)
        simp only [sparseWf, Bool.and_eq_true] at hu'
        simp only [sparseAbove, Bool.and_eq_true, decide_eq_true_eq]
        exact ⟨⟨by omega, hu'.1⟩, hu'.2⟩
    simp only [sparseWf, Bool.and_eq_true] at ht'
    simp only [List.cons_append, sparseWf, Bool.and_eq_true]
    exact ⟨ht'.1, sparseAbove_join ht'.2 (fun e he => htn e (List.mem_cons_of_mem _ he)) hku hun⟩

/-- Every entry of a table above a bound has its key above it. -/
theorem sparse_lt_of_above {lo : Nat} {t : Sparse α} {e : Nat × α} (h : sparseAbove d lo t = true) (he : e ∈ t) : lo < e.1 := by
  induction t generalizing lo with
  | nil => cases he
  | cons x t ih =>
    obtain ⟨k, v⟩ := x
    simp only [sparseAbove, Bool.and_eq_true, decide_eq_true_eq] at h
    cases he with
    | head => exact h.1.1
    | tail _ he => exact Nat.lt_trans h.1.1 (ih h.2 he)

/-- A table reads each of its entries. -/
theorem sparseGet_entry {t : Sparse α} {e : Nat × α} (h : sparseWf d t = true) (he : e ∈ t) : sparseGet d t e.1 = e.2 := by
  induction t with
  | nil => cases he
  | cons x t ih =>
    obtain ⟨k, v⟩ := x
    have ht := sparseAbove_tail h
    cases he with
    | head => simp [sparseGet]
    | tail _ he =>
      have hk := sparse_lt_of_above ht he
      have h1 : ¬ e.1 = k := by omega
      have h2 : ¬ e.1 < k := by omega
      simp only [sparseGet, h1, h2, ite_false]
      exact ih (sparseWf_of_above ht) he

/-- What holds of every reading of a canonical table holds of its entries. -/
theorem sparse_all {P : α → Prop} {t : Sparse α} (h : sparseWf d t = true) (hp : ∀ n, P (sparseGet d t n)) (e : Nat × α)
    (he : e ∈ t) : P e.2 := sparseGet_entry h he ▸ hp e.1

omit [DecidableEq α] in
/-- What holds of the default and of every entry holds of every reading. -/
theorem sparseGet_of_entries {P : α → Prop} {t : Sparse α} (hd : P d) (hp : ∀ e ∈ t, P e.2) (n : Nat) : P (sparseGet d t n) := by
  induction t with
  | nil => exact hd
  | cons x t ih =>
    obtain ⟨k, v⟩ := x
    have hv := hp (k, v) (List.mem_cons_self ..)
    unfold sparseGet
    split
    · exact hv
    · split
      · exact hd
      · exact ih fun e he => hp e (List.mem_cons_of_mem _ he)

omit [DecidableEq α] in
/-- What holds of every reading of a canonical table holds of every reading of a part of it. -/
theorem sparseGet_filter_bound {P : α → Prop} {p : Nat × α → Bool} {t : Sparse α} (hd : P d) (hp : ∀ e ∈ t, P e.2) (n : Nat) :
    P (sparseGet d (t.filter p) n) :=
  sparseGet_of_entries hd (fun e he => hp e (List.mem_filter.mp he).1) n

/-- An element of a fixed table after a change of it. -/
theorem vmod_same {β : Type} {n : Nat} (v : Vector β n) (i : Fin n) (f : β → β) : (vmod v i f)[i] = f v[i] := by
  simp [vmod]

/-- Every other element of the table stays. -/
theorem vmod_other {β : Type} {n : Nat} (v : Vector β n) (i j : Fin n) (f : β → β) (h : j ≠ i) : (vmod v i f)[j] = v[j] := by
  have hv : i.val ≠ j.val := fun e => h (Fin.ext e.symm)
  simp [vmod, Vector.getElem_set_ne _ _ hv]

end Sys2Proof.Machine
end

