-- ==== Sys2Proof/Laws/Keeps.lean ====
section
/-!
SUPPORT. Laws/Keeps.lean: what an operation leaves unchanged, as one predicate carried through every operation.
`Keeps w k i s` says that state s has the identity of state i, agrees with i on every component that the footprint w does
not name, and, where k holds, is canonical.  Each operation of the model has one lemma `<operation>_keeps`, which the
statements about all commands cite.
-/
namespace Sys2Proof.Machine

/-- State `s` differs from `i` at most in the components that `w` names, and is canonical where `k` holds. -/
structure Keeps (w : Comp → Bool) (k : Prop) (i s : State) : Prop where
  ident : SameIdentity i s
  same : ∀ c, w c = false → Comp.same i s c
  hbm : k → s.hbm.Canonical
  regs : k → s.regs.Canonical
  log : k → s.ev.Bounded

/-- The same of what a command's execution leaves. -/
def KeepsDone (w : Comp → Bool) (k : Prop) (i : State) (d : Done) : Prop := Keeps w k i d.st

variable {w : Comp → Bool} {k : Prop} {i s : State}

/-- A state is kept by itself. -/
theorem Keeps.refl (w : Comp → Bool) (s : State) (h : k → Canonical s) : Keeps w k s s where
  ident := ⟨rfl, rfl, rfl, rfl⟩
  same c _ := by cases c <;> first | exact rfl | (refine ⟨?_, ?_⟩ <;> first | rfl | (refine ⟨?_, ?_⟩ <;> first | rfl | simp))
  hbm hk := (h hk).1
  regs hk := (h hk).2.1
  log hk := (h hk).2.2

theorem Keeps.ite {c : Prop} [Decidable c] {x y : State} (hx : Keeps w k i x) (hy : Keeps w k i y) :
    Keeps w k i (if c then x else y) := by split <;> assumption

theorem Keeps.dite {c : Prop} [Decidable c] {x : c → State} {y : ¬c → State} (hx : ∀ h, Keeps w k i (x h))
    (hy : ∀ h, Keeps w k i (y h)) : Keeps w k i (if h : c then x h else y h) := by split <;> simp_all

theorem KeepsDone.ite {c : Prop} [Decidable c] {x y : Done} (hx : KeepsDone w k i x) (hy : KeepsDone w k i y) :
    KeepsDone w k i (if c then x else y) := by split <;> assumption

theorem KeepsDone.mk {x : State} {st : Status} {p : List Byte} (hx : Keeps w k i x) : KeepsDone w k i (Done.mk x st p) := hx

theorem KeepsDone.st {d : Done} (h : KeepsDone w k i d) : Keeps w k i d.st := h

theorem whenB_keeps {c : Bool} {f : State → State} (hf : ∀ s, Keeps w k i s → Keeps w k i (f s)) (h : Keeps w k i s) :
    Keeps w k i (whenB c f s) := by
  unfold whenB
  split
  · exact hf s h
  · exact h

theorem foldl_keeps {α : Type} {f : State → α → State} {l : List α} (hf : ∀ x s, Keeps w k i s → Keeps w k i (f s x))
    (h : Keeps w k i s) : Keeps w k i (l.foldl f s) := by
  induction l generalizing s with
  | nil => exact h
  | cons x t ih => exact ih (hf x s h)

theorem foldS_keeps {α : Type} {l : List α} {f : α → State → State} (hf : ∀ x s, Keeps w k i s → Keeps w k i (f x s))
    (h : Keeps w k i s) : Keeps w k i (foldS l f s) := foldl_keeps hf h

theorem Keeps.set_now {x : Nat} (h_now : w .now = true)
    (h : Keeps w k i s) : Keeps w k i { s with now := x } where
  ident := h.ident
  same c hc := by
    cases c with
    | now => exact absurd hc (by simp [h_now])
    | env => exact h.same .env hc
    | counters => exact h.same .counters hc
    | flags => exact h.same .flags hc
    | latches => exact h.same .latches hc
    | bridge => exact h.same .bridge hc
    | anchor => exact h.same .anchor hc
    | mirror => exact h.same .mirror hc
    | mail => exact h.same .mail hc
    | log => exact h.same .log hc
    | rings => exact h.same .rings hc
    | lanes => exact h.same .lanes hc
    | groups => exact h.same .groups hc
    | filter => exact h.same .filter hc
    | ports => exact h.same .ports hc
    | ingress => exact h.same .ingress hc
    | cls => exact h.same .cls hc
    | bufs => exact h.same .bufs hc
    | accounts => exact h.same .accounts hc
    | policers => exact h.same .policers hc
    | slots => exact h.same .slots hc
    | keks => exact h.same .keks hc
    | cipher => exact h.same .cipher hc
    | time => exact h.same .time hc
    | hbm => exact h.same .hbm hc
    | serdes => exact h.same .serdes hc
    | fabric => exact h.same .fabric hc
    | image => exact h.same .image hc
    | checkpoints => exact h.same .checkpoints hc
    | sensors => exact h.same .sensors hc
    | boot => exact h.same .boot hc
    | history => exact h.same .history hc
    | power => exact h.same .power hc
    | pins => exact h.same .pins hc
  hbm hk := h.hbm hk
  regs hk := h.regs hk
  log hk := h.log hk

theorem Keeps.set_env {x : Env} (h_env : w .env = true)
    (h : Keeps w k i s) : Keeps w k i { s with env := x } where
  ident := h.ident
  same c hc := by
    cases c with
    | env => exact absurd hc (by simp [h_env])
    | now => exact h.same .now hc
    | counters => exact h.same .counters hc
    | flags => exact h.same .flags hc
    | latches => exact h.same .latches hc
    | bridge => exact h.same .bridge hc
    | anchor => exact h.same .anchor hc
    | mirror => exact h.same .mirror hc
    | mail => exact h.same .mail hc
    | log => exact h.same .log hc
    | rings => exact h.same .rings hc
    | lanes => exact h.same .lanes hc
    | groups => exact h.same .groups hc
    | filter => exact h.same .filter hc
    | ports => exact h.same .ports hc
    | ingress => exact h.same .ingress hc
    | cls => exact h.same .cls hc
    | bufs => exact h.same .bufs hc
    | accounts => exact h.same .accounts hc
    | policers => exact h.same .policers hc
    | slots => exact h.same .slots hc
    | keks => exact h.same .keks hc
    | cipher => exact h.same .cipher hc
    | time => exact h.same .time hc
    | hbm => exact h.same .hbm hc
    | serdes => exact h.same .serdes hc
    | fabric => exact h.same .fabric hc
    | image => exact h.same .image hc
    | checkpoints => exact h.same .checkpoints hc
    | sensors => exact h.same .sensors hc
    | boot => exact h.same .boot hc
    | history => exact h.same .history hc
    | power => exact h.same .power hc
    | pins => exact h.same .pins hc
  hbm hk := h.hbm hk
  regs hk := h.regs hk
  log hk := h.log hk

theorem Keeps.set_regs {x : Regs} (h_counters : w .counters = true ∨ x.ctr = s.regs.ctr)
    (h_flags : w .flags = true ∨ x.w1c = s.regs.w1c)
    (h_latches : w .latches = true ∨ x.hold = s.regs.hold ∧ x.coll = s.regs.coll ∧ x.roWriteAddr = s.regs.roWriteAddr)
    (hc : k → s.regs.Canonical → x.Canonical)
    (h : Keeps w k i s) : Keeps w k i { s with regs := x } where
  ident := h.ident
  same c hc := by
    cases c with
    | counters => exact h_counters.elim (fun e => absurd hc (by simp [e])) fun e => e.trans (h.same .counters hc)
    | flags => exact h_flags.elim (fun e => absurd hc (by simp [e])) fun e => e.trans (h.same .flags hc)
    | latches =>
      have ⟨g0, g1, g2⟩ := h.same .latches hc
      exact h_latches.elim (fun e => absurd hc (by simp [e])) fun ⟨e0, e1, e2⟩ => ⟨e0.trans g0, e1.trans g1, e2.trans g2⟩
    | now => exact h.same .now hc
    | env => exact h.same .env hc
    | bridge => exact h.same .bridge hc
    | anchor => exact h.same .anchor hc
    | mirror => exact h.same .mirror hc
    | mail => exact h.same .mail hc
    | log => exact h.same .log hc
    | rings => exact h.same .rings hc
    | lanes => exact h.same .lanes hc
    | groups => exact h.same .groups hc
    | filter => exact h.same .filter hc
    | ports => exact h.same .ports hc
    | ingress => exact h.same .ingress hc
    | cls => exact h.same .cls hc
    | bufs => exact h.same .bufs hc
    | accounts => exact h.same .accounts hc
    | policers => exact h.same .policers hc
    | slots => exact h.same .slots hc
    | keks => exact h.same .keks hc
    | cipher => exact h.same .cipher hc
    | time => exact h.same .time hc
    | hbm => exact h.same .hbm hc
    | serdes => exact h.same .serdes hc
    | fabric => exact h.same .fabric hc
    | image => exact h.same .image hc
    | checkpoints => exact h.same .checkpoints hc
    | sensors => exact h.same .sensors hc
    | boot => exact h.same .boot hc
    | history => exact h.same .history hc
    | power => exact h.same .power hc
    | pins => exact h.same .pins hc
  hbm hk := h.hbm hk
  regs hk := hc hk (h.regs hk)
  log hk := h.log hk

theorem Keeps.set_bridge {x : BridgeAll} (h_bridge : w .bridge = true)
    (h : Keeps w k i s) : Keeps w k i { s with bridge := x } where
  ident := h.ident
  same c hc := by
    cases c with
    | bridge => exact absurd hc (by simp [h_bridge])
    | now => exact h.same .now hc
    | env => exact h.same .env hc
    | counters => exact h.same .counters hc
    | flags => exact h.same .flags hc
    | latches => exact h.same .latches hc
    | anchor => exact h.same .anchor hc
    | mirror => exact h.same .mirror hc
    | mail => exact h.same .mail hc
    | log => exact h.same .log hc
    | rings => exact h.same .rings hc
    | lanes => exact h.same .lanes hc
    | groups => exact h.same .groups hc
    | filter => exact h.same .filter hc
    | ports => exact h.same .ports hc
    | ingress => exact h.same .ingress hc
    | cls => exact h.same .cls hc
    | bufs => exact h.same .bufs hc
    | accounts => exact h.same .accounts hc
    | policers => exact h.same .policers hc
    | slots => exact h.same .slots hc
    | keks => exact h.same .keks hc
    | cipher => exact h.same .cipher hc
    | time => exact h.same .time hc
    | hbm => exact h.same .hbm hc
    | serdes => exact h.same .serdes hc
    | fabric => exact h.same .fabric hc
    | image => exact h.same .image hc
    | checkpoints => exact h.same .checkpoints hc
    | sensors => exact h.same .sensors hc
    | boot => exact h.same .boot hc
    | history => exact h.same .history hc
    | power => exact h.same .power hc
    | pins => exact h.same .pins hc
  hbm hk := h.hbm hk
  regs hk := h.regs hk
  log hk := h.log hk

theorem Keeps.set_anchor {x : AnchorAll} (h_anchor : w .anchor = true)
    (h : Keeps w k i s) : Keeps w k i { s with anchor := x } where
  ident := h.ident
  same c hc := by
    cases c with
    | anchor => exact absurd hc (by simp [h_anchor])
    | now => exact h.same .now hc
    | env => exact h.same .env hc
    | counters => exact h.same .counters hc
    | flags => exact h.same .flags hc
    | latches => exact h.same .latches hc
    | bridge => exact h.same .bridge hc
    | mirror => exact h.same .mirror hc
    | mail => exact h.same .mail hc
    | log => exact h.same .log hc
    | rings => exact h.same .rings hc
    | lanes => exact h.same .lanes hc
    | groups => exact h.same .groups hc
    | filter => exact h.same .filter hc
    | ports => exact h.same .ports hc
    | ingress => exact h.same .ingress hc
    | cls => exact h.same .cls hc
    | bufs => exact h.same .bufs hc
    | accounts => exact h.same .accounts hc
    | policers => exact h.same .policers hc
    | slots => exact h.same .slots hc
    | keks => exact h.same .keks hc
    | cipher => exact h.same .cipher hc
    | time => exact h.same .time hc
    | hbm => exact h.same .hbm hc
    | serdes => exact h.same .serdes hc
    | fabric => exact h.same .fabric hc
    | image => exact h.same .image hc
    | checkpoints => exact h.same .checkpoints hc
    | sensors => exact h.same .sensors hc
    | boot => exact h.same .boot hc
    | history => exact h.same .history hc
    | power => exact h.same .power hc
    | pins => exact h.same .pins hc
  hbm hk := h.hbm hk
  regs hk := h.regs hk
  log hk := h.log hk

theorem Keeps.set_mirror {x : Option Mirror} (h_mirror : w .mirror = true)
    (h : Keeps w k i s) : Keeps w k i { s with mirror := x } where
  ident := h.ident
  same c hc := by
    cases c with
    | mirror => exact absurd hc (by simp [h_mirror])
    | now => exact h.same .now hc
    | env => exact h.same .env hc
    | counters => exact h.same .counters hc
    | flags => exact h.same .flags hc
    | latches => exact h.same .latches hc
    | bridge => exact h.same .bridge hc
    | anchor => exact h.same .anchor hc
    | mail => exact h.same .mail hc
    | log => exact h.same .log hc
    | rings => exact h.same .rings hc
    | lanes => exact h.same .lanes hc
    | groups => exact h.same .groups hc
    | filter => exact h.same .filter hc
    | ports => exact h.same .ports hc
    | ingress => exact h.same .ingress hc
    | cls => exact h.same .cls hc
    | bufs => exact h.same .bufs hc
    | accounts => exact h.same .accounts hc
    | policers => exact h.same .policers hc
    | slots => exact h.same .slots hc
    | keks => exact h.same .keks hc
    | cipher => exact h.same .cipher hc
    | time => exact h.same .time hc
    | hbm => exact h.same .hbm hc
    | serdes => exact h.same .serdes hc
    | fabric => exact h.same .fabric hc
    | image => exact h.same .image hc
    | checkpoints => exact h.same .checkpoints hc
    | sensors => exact h.same .sensors hc
    | boot => exact h.same .boot hc
    | history => exact h.same .history hc
    | power => exact h.same .power hc
    | pins => exact h.same .pins hc
  hbm hk := h.hbm hk
  regs hk := h.regs hk
  log hk := h.log hk

theorem Keeps.set_mail {x : MailAll} (h_mail : w .mail = true)
    (h : Keeps w k i s) : Keeps w k i { s with mail := x } where
  ident := h.ident
  same c hc := by
    cases c with
    | mail => exact absurd hc (by simp [h_mail])
    | now => exact h.same .now hc
    | env => exact h.same .env hc
    | counters => exact h.same .counters hc
    | flags => exact h.same .flags hc
    | latches => exact h.same .latches hc
    | bridge => exact h.same .bridge hc
    | anchor => exact h.same .anchor hc
    | mirror => exact h.same .mirror hc
    | log => exact h.same .log hc
    | rings => exact h.same .rings hc
    | lanes => exact h.same .lanes hc
    | groups => exact h.same .groups hc
    | filter => exact h.same .filter hc
    | ports => exact h.same .ports hc
    | ingress => exact h.same .ingress hc
    | cls => exact h.same .cls hc
    | bufs => exact h.same .bufs hc
    | accounts => exact h.same .accounts hc
    | policers => exact h.same .policers hc
    | slots => exact h.same .slots hc
    | keks => exact h.same .keks hc
    | cipher => exact h.same .cipher hc
    | time => exact h.same .time hc
    | hbm => exact h.same .hbm hc
    | serdes => exact h.same .serdes hc
    | fabric => exact h.same .fabric hc
    | image => exact h.same .image hc
    | checkpoints => exact h.same .checkpoints hc
    | sensors => exact h.same .sensors hc
    | boot => exact h.same .boot hc
    | history => exact h.same .history hc
    | power => exact h.same .power hc
    | pins => exact h.same .pins hc
  hbm hk := h.hbm hk
  regs hk := h.regs hk
  log hk := h.log hk

theorem Keeps.set_ev {x : EventAll} (h_log : w .log = true ∨ x.log = s.ev.log ∧ x.nextSeq = s.ev.nextSeq ∧ x.errors = s.ev.errors ∧ x.evq = s.ev.evq ∧ x.vecs = s.ev.vecs)
    (h_rings : w .rings = true ∨ x.classMap = s.ev.classMap ∧ x.rings = s.ev.rings ∧ x.mgtWait = s.ev.mgtWait)
    (hc : k → s.ev.Bounded → x.Bounded)
    (h : Keeps w k i s) : Keeps w k i { s with ev := x } where
  ident := h.ident
  same c hc := by
    cases c with
    | log =>
      have ⟨g0, g1, g2, g3, g4⟩ := h.same .log hc
      exact h_log.elim (fun e => absurd hc (by simp [e])) fun ⟨e0, e1, e2, e3, e4⟩ => ⟨e0.trans g0, e1.trans g1, e2.trans g2, e3.trans g3, e4.trans g4⟩
    | rings =>
      have ⟨g0, g1, g2⟩ := h.same .rings hc
      exact h_rings.elim (fun e => absurd hc (by simp [e])) fun ⟨e0, e1, e2⟩ => ⟨e0.trans g0, e1.trans g1, e2.trans g2⟩
    | now => exact h.same .now hc
    | env => exact h.same .env hc
    | counters => exact h.same .counters hc
    | flags => exact h.same .flags hc
    | latches => exact h.same .latches hc
    | bridge => exact h.same .bridge hc
    | anchor => exact h.same .anchor hc
    | mirror => exact h.same .mirror hc
    | mail => exact h.same .mail hc
    | lanes => exact h.same .lanes hc
    | groups => exact h.same .groups hc
    | filter => exact h.same .filter hc
    | ports => exact h.same .ports hc
    | ingress => exact h.same .ingress hc
    | cls => exact h.same .cls hc
    | bufs => exact h.same .bufs hc
    | accounts => exact h.same .accounts hc
    | policers => exact h.same .policers hc
    | slots => exact h.same .slots hc
    | keks => exact h.same .keks hc
    | cipher => exact h.same .cipher hc
    | time => exact h.same .time hc
    | hbm => exact h.same .hbm hc
    | serdes => exact h.same .serdes hc
    | fabric => exact h.same .fabric hc
    | image => exact h.same .image hc
    | checkpoints => exact h.same .checkpoints hc
    | sensors => exact h.same .sensors hc
    | boot => exact h.same .boot hc
    | history => exact h.same .history hc
    | power => exact h.same .power hc
    | pins => exact h.same .pins hc
  hbm hk := h.hbm hk
  regs hk := h.regs hk
  log hk := hc hk (h.log hk)

theorem Keeps.set_trunk {x : TrunkAll} (h_lanes : w .lanes = true ∨ x.lanes = s.trunk.lanes ∧ x.extract = s.trunk.extract ∧ x.tickets = s.trunk.tickets)
    (h_groups : w .groups = true ∨ x.groups = s.trunk.groups)
    (h_filter : w .filter = true ∨ x.filter = s.trunk.filter)
    (h : Keeps w k i s) : Keeps w k i { s with trunk := x } where
  ident := h.ident
  same c hc := by
    cases c with
    | lanes =>
      have ⟨g0, g1, g2⟩ := h.same .lanes hc
      exact h_lanes.elim (fun e => absurd hc (by simp [e])) fun ⟨e0, e1, e2⟩ => ⟨e0.trans g0, e1.trans g1, e2.trans g2⟩
    | groups => exact h_groups.elim (fun e => absurd hc (by simp [e])) fun e => e.trans (h.same .groups hc)
    | filter => exact h_filter.elim (fun e => absurd hc (by simp [e])) fun e => e.trans (h.same .filter hc)
    | now => exact h.same .now hc
    | env => exact h.same .env hc
    | counters => exact h.same .counters hc
    | flags => exact h.same .flags hc
    | latches => exact h.same .latches hc
    | bridge => exact h.same .bridge hc
    | anchor => exact h.same .anchor hc
    | mirror => exact h.same .mirror hc
    | mail => exact h.same .mail hc
    | log => exact h.same .log hc
    | rings => exact h.same .rings hc
    | ports => exact h.same .ports hc
    | ingress => exact h.same .ingress hc
    | cls => exact h.same .cls hc
    | bufs => exact h.same .bufs hc
    | accounts => exact h.same .accounts hc
    | policers => exact h.same .policers hc
    | slots => exact h.same .slots hc
    | keks => exact h.same .keks hc
    | cipher => exact h.same .cipher hc
    | time => exact h.same .time hc
    | hbm => exact h.same .hbm hc
    | serdes => exact h.same .serdes hc
    | fabric => exact h.same .fabric hc
    | image => exact h.same .image hc
    | checkpoints => exact h.same .checkpoints hc
    | sensors => exact h.same .sensors hc
    | boot => exact h.same .boot hc
    | history => exact h.same .history hc
    | power => exact h.same .power hc
    | pins => exact h.same .pins hc
  hbm hk := h.hbm hk
  regs hk := h.regs hk
  log hk := h.log hk

theorem Keeps.set_path {x : PathAll} (h_ports : w .ports = true ∨ x.ports = s.path.ports ∧ x.portsStopped = s.path.portsStopped ∧ x.schedStopped = s.path.schedStopped ∧ x.mode = s.path.mode ∧ x.modePend = s.path.modePend)
    (h_ingress : w .ingress = true ∨ x.ingress = s.path.ingress ∧ x.entryNo = s.path.entryNo)
    (h_cls : w .cls = true ∨ x.cls = s.path.cls ∧ x.sources = s.path.sources ∧ x.mirrors = s.path.mirrors)
    (h_bufs : w .bufs = true ∨ x.bufs = s.path.bufs)
    (h_accounts : w .accounts = true ∨ x.accounts = s.path.accounts ∧ x.spillRr = s.path.spillRr ∧ x.spillUsed = s.path.spillUsed ∧ x.spillWr = s.path.spillWr ∧ x.spillRd = s.path.spillRd ∧ x.wrLimited = s.path.wrLimited ∧ x.rdLimited = s.path.rdLimited ∧ x.spillEndAt = s.path.spillEndAt)
    (h_policers : w .policers = true ∨ x.policers = s.path.policers)
    (h : Keeps w k i s) : Keeps w k i { s with path := x } where
  ident := h.ident
  same c hc := by
    cases c with
    | ports =>
      have ⟨g0, g1, g2, g3, g4⟩ := h.same .ports hc
      exact h_ports.elim (fun e => absurd hc (by simp [e])) fun ⟨e0, e1, e2, e3, e4⟩ => ⟨e0.trans g0, e1.trans g1, e2.trans g2, e3.trans g3, e4.trans g4⟩
    | ingress =>
      have ⟨g0, g1⟩ := h.same .ingress hc
      exact h_ingress.elim (fun e => absurd hc (by simp [e])) fun ⟨e0, e1⟩ => ⟨e0.trans g0, e1.trans g1⟩
    | cls =>
      have ⟨g0, g1, g2⟩ := h.same .cls hc
      exact h_cls.elim (fun e => absurd hc (by simp [e])) fun ⟨e0, e1, e2⟩ => ⟨e0.trans g0, e1.trans g1, e2.trans g2⟩
    | bufs => exact h_bufs.elim (fun e => absurd hc (by simp [e])) fun e => e.trans (h.same .bufs hc)
    | accounts =>
      have ⟨g0, g1, g2, g3, g4, g5, g6, g7⟩ := h.same .accounts hc
      exact h_accounts.elim (fun e => absurd hc (by simp [e])) fun ⟨e0, e1, e2, e3, e4, e5, e6, e7⟩ => ⟨e0.trans g0, e1.trans g1, e2.trans g2, e3.trans g3, e4.trans g4, e5.trans g5, e6.trans g6, e7.trans g7⟩
    | policers => exact h_policers.elim (fun e => absurd hc (by simp [e])) fun e => e.trans (h.same .policers hc)
    | now => exact h.same .now hc
    | env => exact h.same .env hc
    | counters => exact h.same .counters hc
    | flags => exact h.same .flags hc
    | latches => exact h.same .latches hc
    | bridge => exact h.same .bridge hc
    | anchor => exact h.same .anchor hc
    | mirror => exact h.same .mirror hc
    | mail => exact h.same .mail hc
    | log => exact h.same .log hc
    | rings => exact h.same .rings hc
    | lanes => exact h.same .lanes hc
    | groups => exact h.same .groups hc
    | filter => exact h.same .filter hc
    | slots => exact h.same .slots hc
    | keks => exact h.same .keks hc
    | cipher => exact h.same .cipher hc
    | time => exact h.same .time hc
    | hbm => exact h.same .hbm hc
    | serdes => exact h.same .serdes hc
    | fabric => exact h.same .fabric hc
    | image => exact h.same .image hc
    | checkpoints => exact h.same .checkpoints hc
    | sensors => exact h.same .sensors hc
    | boot => exact h.same .boot hc
    | history => exact h.same .history hc
    | power => exact h.same .power hc
    | pins => exact h.same .pins hc
  hbm hk := h.hbm hk
  regs hk := h.regs hk
  log hk := h.log hk

theorem Keeps.set_crypto {x : CryptoAll} (h_slots : w .slots = true ∨ x.slots = s.crypto.slots)
    (h_keks : w .keks = true ∨ x.keks = s.crypto.keks)
    (h_cipher : w .cipher = true ∨ x.portFail = s.crypto.portFail ∧ x.pipes = s.crypto.pipes ∧ x.util = s.crypto.util)
    (h : Keeps w k i s) : Keeps w k i { s with crypto := x } where
  ident := h.ident
  same c hc := by
    cases c with
    | slots => exact h_slots.elim (fun e => absurd hc (by simp [e])) fun e => e.trans (h.same .slots hc)
    | keks => exact h_keks.elim (fun e => absurd hc (by simp [e])) fun e => e.trans (h.same .keks hc)
    | cipher =>
      have ⟨g0, g1, g2⟩ := h.same .cipher hc
      exact h_cipher.elim (fun e => absurd hc (by simp [e])) fun ⟨e0, e1, e2⟩ => ⟨e0.trans g0, e1.trans g1, e2.trans g2⟩
    | now => exact h.same .now hc
    | env => exact h.same .env hc
    | counters => exact h.same .counters hc
    | flags => exact h.same .flags hc
    | latches => exact h.same .latches hc
    | bridge => exact h.same .bridge hc
    | anchor => exact h.same .anchor hc
    | mirror => exact h.same .mirror hc
    | mail => exact h.same .mail hc
    | log => exact h.same .log hc
    | rings => exact h.same .rings hc
    | lanes => exact h.same .lanes hc
    | groups => exact h.same .groups hc
    | filter => exact h.same .filter hc
    | ports => exact h.same .ports hc
    | ingress => exact h.same .ingress hc
    | cls => exact h.same .cls hc
    | bufs => exact h.same .bufs hc
    | accounts => exact h.same .accounts hc
    | policers => exact h.same .policers hc
    | time => exact h.same .time hc
    | hbm => exact h.same .hbm hc
    | serdes => exact h.same .serdes hc
    | fabric => exact h.same .fabric hc
    | image => exact h.same .image hc
    | checkpoints => exact h.same .checkpoints hc
    | sensors => exact h.same .sensors hc
    | boot => exact h.same .boot hc
    | history => exact h.same .history hc
    | power => exact h.same .power hc
    | pins => exact h.same .pins hc
  hbm hk := h.hbm hk
  regs hk := h.regs hk
  log hk := h.log hk

theorem Keeps.set_time {x : TimeAll} (h_time : w .time = true)
    (h : Keeps w k i s) : Keeps w k i { s with time := x } where
  ident := h.ident
  same c hc := by
    cases c with
    | time => exact absurd hc (by simp [h_time])
    | now => exact h.same .now hc
    | env => exact h.same .env hc
    | counters => exact h.same .counters hc
    | flags => exact h.same .flags hc
    | latches => exact h.same .latches hc
    | bridge => exact h.same .bridge hc
    | anchor => exact h.same .anchor hc
    | mirror => exact h.same .mirror hc
    | mail => exact h.same .mail hc
    | log => exact h.same .log hc
    | rings => exact h.same .rings hc
    | lanes => exact h.same .lanes hc
    | groups => exact h.same .groups hc
    | filter => exact h.same .filter hc
    | ports => exact h.same .ports hc
    | ingress => exact h.same .ingress hc
    | cls => exact h.same .cls hc
    | bufs => exact h.same .bufs hc
    | accounts => exact h.same .accounts hc
    | policers => exact h.same .policers hc
    | slots => exact h.same .slots hc
    | keks => exact h.same .keks hc
    | cipher => exact h.same .cipher hc
    | hbm => exact h.same .hbm hc
    | serdes => exact h.same .serdes hc
    | fabric => exact h.same .fabric hc
    | image => exact h.same .image hc
    | checkpoints => exact h.same .checkpoints hc
    | sensors => exact h.same .sensors hc
    | boot => exact h.same .boot hc
    | history => exact h.same .history hc
    | power => exact h.same .power hc
    | pins => exact h.same .pins hc
  hbm hk := h.hbm hk
  regs hk := h.regs hk
  log hk := h.log hk

theorem Keeps.set_hbm {x : HbmAll} (h_hbm : w .hbm = true)
    (hc : k → s.hbm.Canonical → x.Canonical)
    (h : Keeps w k i s) : Keeps w k i { s with hbm := x } where
  ident := h.ident
  same c hc := by
    cases c with
    | hbm => exact absurd hc (by simp [h_hbm])
    | now => exact h.same .now hc
    | env => exact h.same .env hc
    | counters => exact h.same .counters hc
    | flags => exact h.same .flags hc
    | latches => exact h.same .latches hc
    | bridge => exact h.same .bridge hc
    | anchor => exact h.same .anchor hc
    | mirror => exact h.same .mirror hc
    | mail => exact h.same .mail hc
    | log => exact h.same .log hc
    | rings => exact h.same .rings hc
    | lanes => exact h.same .lanes hc
    | groups => exact h.same .groups hc
    | filter => exact h.same .filter hc
    | ports => exact h.same .ports hc
    | ingress => exact h.same .ingress hc
    | cls => exact h.same .cls hc
    | bufs => exact h.same .bufs hc
    | accounts => exact h.same .accounts hc
    | policers => exact h.same .policers hc
    | slots => exact h.same .slots hc
    | keks => exact h.same .keks hc
    | cipher => exact h.same .cipher hc
    | time => exact h.same .time hc
    | serdes => exact h.same .serdes hc
    | fabric => exact h.same .fabric hc
    | image => exact h.same .image hc
    | checkpoints => exact h.same .checkpoints hc
    | sensors => exact h.same .sensors hc
    | boot => exact h.same .boot hc
    | history => exact h.same .history hc
    | power => exact h.same .power hc
    | pins => exact h.same .pins hc
  hbm hk := hc hk (h.hbm hk)
  regs hk := h.regs hk
  log hk := h.log hk

theorem Keeps.set_serdes {x : SerialAll} (h_serdes : w .serdes = true)
    (h : Keeps w k i s) : Keeps w k i { s with serdes := x } where
  ident := h.ident
  same c hc := by
    cases c with
    | serdes => exact absurd hc (by simp [h_serdes])
    | now => exact h.same .now hc
    | env => exact h.same .env hc
    | counters => exact h.same .counters hc
    | flags => exact h.same .flags hc
    | latches => exact h.same .latches hc
    | bridge => exact h.same .bridge hc
    | anchor => exact h.same .anchor hc
    | mirror => exact h.same .mirror hc
    | mail => exact h.same .mail hc
    | log => exact h.same .log hc
    | rings => exact h.same .rings hc
    | lanes => exact h.same .lanes hc
    | groups => exact h.same .groups hc
    | filter => exact h.same .filter hc
    | ports => exact h.same .ports hc
    | ingress => exact h.same .ingress hc
    | cls => exact h.same .cls hc
    | bufs => exact h.same .bufs hc
    | accounts => exact h.same .accounts hc
    | policers => exact h.same .policers hc
    | slots => exact h.same .slots hc
    | keks => exact h.same .keks hc
    | cipher => exact h.same .cipher hc
    | time => exact h.same .time hc
    | hbm => exact h.same .hbm hc
    | fabric => exact h.same .fabric hc
    | image => exact h.same .image hc
    | checkpoints => exact h.same .checkpoints hc
    | sensors => exact h.same .sensors hc
    | boot => exact h.same .boot hc
    | history => exact h.same .history hc
    | power => exact h.same .power hc
    | pins => exact h.same .pins hc
  hbm hk := h.hbm hk
  regs hk := h.regs hk
  log hk := h.log hk

theorem Keeps.set_fabric {x : FabricAll} (h_fabric : w .fabric = true)
    (h : Keeps w k i s) : Keeps w k i { s with fabric := x } where
  ident := h.ident
  same c hc := by
    cases c with
    | fabric => exact absurd hc (by simp [h_fabric])
    | now => exact h.same .now hc
    | env => exact h.same .env hc
    | counters => exact h.same .counters hc
    | flags => exact h.same .flags hc
    | latches => exact h.same .latches hc
    | bridge => exact h.same .bridge hc
    | anchor => exact h.same .anchor hc
    | mirror => exact h.same .mirror hc
    | mail => exact h.same .mail hc
    | log => exact h.same .log hc
    | rings => exact h.same .rings hc
    | lanes => exact h.same .lanes hc
    | groups => exact h.same .groups hc
    | filter => exact h.same .filter hc
    | ports => exact h.same .ports hc
    | ingress => exact h.same .ingress hc
    | cls => exact h.same .cls hc
    | bufs => exact h.same .bufs hc
    | accounts => exact h.same .accounts hc
    | policers => exact h.same .policers hc
    | slots => exact h.same .slots hc
    | keks => exact h.same .keks hc
    | cipher => exact h.same .cipher hc
    | time => exact h.same .time hc
    | hbm => exact h.same .hbm hc
    | serdes => exact h.same .serdes hc
    | image => exact h.same .image hc
    | checkpoints => exact h.same .checkpoints hc
    | sensors => exact h.same .sensors hc
    | boot => exact h.same .boot hc
    | history => exact h.same .history hc
    | power => exact h.same .power hc
    | pins => exact h.same .pins hc
  hbm hk := h.hbm hk
  regs hk := h.regs hk
  log hk := h.log hk

theorem Keeps.set_fw {x : FwAll} (h_image : w .image = true ∨ x.dirs = s.fw.dirs ∧ x.banks = s.fw.banks ∧ x.svnFloor = s.fw.svnFloor ∧ x.stageSt = s.fw.stageSt ∧ x.stageNext = s.fw.stageNext ∧ x.stageTotal = s.fw.stageTotal ∧ x.act = s.fw.act ∧ x.running = s.fw.running)
    (h_checkpoints : w .checkpoints = true ∨ x.slots = s.fw.slots ∧ x.nextSlot = s.fw.nextSlot ∧ x.ckSeq = s.fw.ckSeq ∧ x.ckAt = s.fw.ckAt ∧ x.ckDone = s.fw.ckDone)
    (h_sensors : w .sensors = true ∨ x.readings = s.fw.readings ∧ x.sensors = s.fw.sensors)
    (h_boot : w .boot = true ∨ x.darkroom = s.fw.darkroom ∧ x.drCause = s.fw.drCause ∧ x.startAt = s.fw.startAt ∧ x.ready = s.fw.ready ∧ x.boot = s.fw.boot ∧ x.prevCause = s.fw.prevCause)
    (h_history : w .history = true ∨ x.history = s.fw.history)
    (hf : x.fuses = s.fw.fuses)
    (h : Keeps w k i s) : Keeps w k i { s with fw := x } where
  ident := ⟨h.ident.1, h.ident.2.1, hf.trans h.ident.2.2.1, h.ident.2.2.2⟩
  same c hc := by
    cases c with
    | image =>
      have ⟨g0, g1, g2, g3, g4, g5, g6, g7⟩ := h.same .image hc
      exact h_image.elim (fun e => absurd hc (by simp [e])) fun ⟨e0, e1, e2, e3, e4, e5, e6, e7⟩ => ⟨e0.trans g0, e1.trans g1, e2.trans g2, e3.trans g3, e4.trans g4, e5.trans g5, e6.trans g6, e7.trans g7⟩
    | checkpoints =>
      have ⟨g0, g1, g2, g3, g4⟩ := h.same .checkpoints hc
      exact h_checkpoints.elim (fun e => absurd hc (by simp [e])) fun ⟨e0, e1, e2, e3, e4⟩ => ⟨e0.trans g0, e1.trans g1, e2.trans g2, e3.trans g3, e4.trans g4⟩
    | sensors =>
      have ⟨g0, g1⟩ := h.same .sensors hc
      exact h_sensors.elim (fun e => absurd hc (by simp [e])) fun ⟨e0, e1⟩ => ⟨e0.trans g0, e1.trans g1⟩
    | boot =>
      have ⟨g0, g1, g2, g3, g4, g5⟩ := h.same .boot hc
      exact h_boot.elim (fun e => absurd hc (by simp [e])) fun ⟨e0, e1, e2, e3, e4, e5⟩ => ⟨e0.trans g0, e1.trans g1, e2.trans g2, e3.trans g3, e4.trans g4, e5.trans g5⟩
    | history => exact h_history.elim (fun e => absurd hc (by simp [e])) fun e => e.trans (h.same .history hc)
    | now => exact h.same .now hc
    | env => exact h.same .env hc
    | counters => exact h.same .counters hc
    | flags => exact h.same .flags hc
    | latches => exact h.same .latches hc
    | bridge => exact h.same .bridge hc
    | anchor => exact h.same .anchor hc
    | mirror => exact h.same .mirror hc
    | mail => exact h.same .mail hc
    | log => exact h.same .log hc
    | rings => exact h.same .rings hc
    | lanes => exact h.same .lanes hc
    | groups => exact h.same .groups hc
    | filter => exact h.same .filter hc
    | ports => exact h.same .ports hc
    | ingress => exact h.same .ingress hc
    | cls => exact h.same .cls hc
    | bufs => exact h.same .bufs hc
    | accounts => exact h.same .accounts hc
    | policers => exact h.same .policers hc
    | slots => exact h.same .slots hc
    | keks => exact h.same .keks hc
    | cipher => exact h.same .cipher hc
    | time => exact h.same .time hc
    | hbm => exact h.same .hbm hc
    | serdes => exact h.same .serdes hc
    | fabric => exact h.same .fabric hc
    | power => exact h.same .power hc
    | pins => exact h.same .pins hc
  hbm hk := h.hbm hk
  regs hk := h.regs hk
  log hk := h.log hk

theorem Keeps.set_power {x : PowerAll} (h_power : w .power = true)
    (h : Keeps w k i s) : Keeps w k i { s with power := x } where
  ident := h.ident
  same c hc := by
    cases c with
    | power => exact absurd hc (by simp [h_power])
    | now => exact h.same .now hc
    | env => exact h.same .env hc
    | counters => exact h.same .counters hc
    | flags => exact h.same .flags hc
    | latches => exact h.same .latches hc
    | bridge => exact h.same .bridge hc
    | anchor => exact h.same .anchor hc
    | mirror => exact h.same .mirror hc
    | mail => exact h.same .mail hc
    | log => exact h.same .log hc
    | rings => exact h.same .rings hc
    | lanes => exact h.same .lanes hc
    | groups => exact h.same .groups hc
    | filter => exact h.same .filter hc
    | ports => exact h.same .ports hc
    | ingress => exact h.same .ingress hc
    | cls => exact h.same .cls hc
    | bufs => exact h.same .bufs hc
    | accounts => exact h.same .accounts hc
    | policers => exact h.same .policers hc
    | slots => exact h.same .slots hc
    | keks => exact h.same .keks hc
    | cipher => exact h.same .cipher hc
    | time => exact h.same .time hc
    | hbm => exact h.same .hbm hc
    | serdes => exact h.same .serdes hc
    | fabric => exact h.same .fabric hc
    | image => exact h.same .image hc
    | checkpoints => exact h.same .checkpoints hc
    | sensors => exact h.same .sensors hc
    | boot => exact h.same .boot hc
    | history => exact h.same .history hc
    | pins => exact h.same .pins hc
  hbm hk := h.hbm hk
  regs hk := h.regs hk
  log hk := h.log hk

theorem Keeps.set_pins {x : PinAll} (h_pins : w .pins = true)
    (h : Keeps w k i s) : Keeps w k i { s with pins := x } where
  ident := h.ident
  same c hc := by
    cases c with
    | pins => exact absurd hc (by simp [h_pins])
    | now => exact h.same .now hc
    | env => exact h.same .env hc
    | counters => exact h.same .counters hc
    | flags => exact h.same .flags hc
    | latches => exact h.same .latches hc
    | bridge => exact h.same .bridge hc
    | anchor => exact h.same .anchor hc
    | mirror => exact h.same .mirror hc
    | mail => exact h.same .mail hc
    | log => exact h.same .log hc
    | rings => exact h.same .rings hc
    | lanes => exact h.same .lanes hc
    | groups => exact h.same .groups hc
    | filter => exact h.same .filter hc
    | ports => exact h.same .ports hc
    | ingress => exact h.same .ingress hc
    | cls => exact h.same .cls hc
    | bufs => exact h.same .bufs hc
    | accounts => exact h.same .accounts hc
    | policers => exact h.same .policers hc
    | slots => exact h.same .slots hc
    | keks => exact h.same .keks hc
    | cipher => exact h.same .cipher hc
    | time => exact h.same .time hc
    | hbm => exact h.same .hbm hc
    | serdes => exact h.same .serdes hc
    | fabric => exact h.same .fabric hc
    | image => exact h.same .image hc
    | checkpoints => exact h.same .checkpoints hc
    | sensors => exact h.same .sensors hc
    | boot => exact h.same .boot hc
    | history => exact h.same .history hc
    | power => exact h.same .power hc
  hbm hk := h.hbm hk
  regs hk := h.regs hk
  log hk := h.log hk

end Sys2Proof.Machine
end

