-- ==== Sys2Proof/Laws/KeepsOps.lean ====
section
/-!
SUPPORT. Laws/KeepsOps.lean: one lemma for each operation of Machine/Ops, BridgeSend, Command, Shaper, Buffer, Mirror, Oam, Timing, Cipher, Stamp, Parser, Ptp, FabSend, FabLink, Entry, Trunk, Defect:
what it leaves unchanged (see Laws/Keeps.lean).
-/
namespace Sys2Proof.Machine

variable {w : Comp → Bool} {k : Prop} {i s : State}

theorem modVec_keeps {v : VectorId} {f : Vec → Vec} (h_log : w .log = true) (h : Keeps w k i s) : Keeps w k i (modVec s v f) :=
  Keeps.set_ev (.inl h_log) (.inr ⟨rfl, rfl, rfl⟩) (fun _ hb => hb) h

theorem fireVec_keeps {x0} (h_log : w .log = true)
    (h : Keeps w k i s) : Keeps w k i (fireVec x0 s) := by
  unfold fireVec
  repeat' first
    | with_reducible assumption
    | with_reducible refine modVec_keeps h_log ?_

theorem causeVec_keeps {x0 x1} (h_log : w .log = true)
    (h : Keeps w k i s) : Keeps w k i (causeVec x0 x1 s) := by
  unfold causeVec
  repeat' first
    | with_reducible assumption
    | (extract_lets +onlyGivenNames y0
       first
       | (refine_lift have hy0 : Keeps w k i y0 := ?_; ?_
          clear_value y0
          revert y0
          intro _ _
          rotate_left
          unfold y0
          clear y0)
       | (try clear_value y0
          revert y0
          intro _))
    | with_reducible refine fireVec_keeps h_log ?_
    | with_reducible refine modVec_keeps h_log ?_
    | with_reducible refine Keeps.ite ?_ ?_

theorem count_keeps {a n : Nat} (h_counters : w .counters = true) (h : Keeps w k i s) : Keeps w k i (count a n s) := by
  refine Keeps.set_regs (.inl h_counters) (.inr rfl) (.inr ⟨rfl, rfl, rfl⟩) (fun _ hc => ?_) h
  refine ⟨sparseWf_mod (f := fun v => (v + n) % 2 ^ 64) (n := a) hc.1, hc.2.1, hc.2.2.1, fun b => ?_, hc.2.2.2.2⟩
  show sparseGet 0 (sparseMod 0 s.regs.ctr a fun v => (v + n) % 2 ^ 64) b < 2 ^ 64
  by_cases hb : b = a
  · subst hb
    rw [sparseGet_mod_same hc.1]
    exact Nat.mod_lt _ (by decide)
  · rw [sparseGet_mod_other hc.1 hb]
    exact hc.2.2.2.1 b

theorem count1_keeps {x0} (h_counters : w .counters = true)
    (h : Keeps w k i s) : Keeps w k i (count1 x0 s) := by
  unfold count1
  repeat' first
    | with_reducible assumption
    | with_reducible refine count_keeps h_counters ?_

theorem drawUpTo_keeps {x0} (h_env : w .env = true)
    (h : Keeps w k i s) : Keeps w k i (drawUpTo x0 s).2 := by
  unfold drawUpTo
  repeat' first
    | with_reducible assumption
    | with_reducible refine Keeps.set_env h_env ?_

theorem drawUpTo_keepsE {x0} (h_env : w .env = true) {p t} (e : drawUpTo x0 s = (p, t))
    (h : Keeps w k i s) : Keeps w k i t := by
  have g := drawUpTo_keeps (x0 := x0) h_env h
  rw [e] at g
  exact g

theorem evqCopy_keeps {r : Record} (h_log : w .log = true) (h : Keeps w k i s) : Keeps w k i (evqCopy r s) := by
  unfold evqCopy
  have h1 : Keeps w k i { s with ev := { s.ev with evq := { s.ev.evq with
      slots := sparseSet none s.ev.evq.slots s.ev.evq.prod (some r),
      prod := (s.ev.evq.prod + 1) % s.ev.evq.entries } } } :=
    Keeps.set_ev (.inl h_log) (.inr ⟨rfl, rfl, rfl⟩) (fun _ hb => hb) h
  split
  · exact causeVec_keeps h_log h1
  · exact h1

theorem evqLose_keeps {r : Record} (h_counters : w .counters = true) (h_log : w .log = true) (h : Keeps w k i s) :
    Keeps w k i (evqLose r s) :=
  count_keeps h_counters (Keeps.set_ev (.inl h_log) (.inr ⟨rfl, rfl, rfl⟩) (fun _ hb => hb) h)

theorem pushHistory_keeps {r : Record} (h_history : w .history = true) (h : Keeps w k i s) : Keeps w k i (pushHistory r s) := by
  have put : ∀ l, Keeps w k i { s with fw := { s.fw with history := l } } := fun l =>
    Keeps.set_fw (.inr ⟨rfl, rfl, rfl, rfl, rfl, rfl, rfl, rfl⟩) (.inr ⟨rfl, rfl, rfl, rfl, rfl⟩) (.inr ⟨rfl, rfl⟩)
      (.inr ⟨rfl, rfl, rfl, rfl, rfl, rfl⟩) (.inl h_history) rfl h
  unfold pushHistory
  split
  · split
    · exact put _
    · split
      · exact put _
      · exact h
  · split
    · exact put _
    · exact h

theorem pushRecord_keeps {r : Record} (h_log : w .log = true) (h_history : w .history = true) (h : Keeps w k i s) :
    Keeps w k i (pushRecord r s) := by
  unfold pushRecord
  refine Keeps.set_ev (.inl h_log) (.inr ⟨rfl, rfl, rfl⟩) (fun _ _ => Nat.le_trans (Nat.le_of_eq List.length_take) (Nat.min_le_left _ _)) ?_
  refine Keeps.ite ?_ h
  split
  · exact pushHistory_keeps h_history h
  · exact h

theorem putFlags_keeps {a : Nat} {v : Word} (h_flags : w .flags = true) (h : Keeps w k i s) : Keeps w k i (putFlags a v s) :=
  Keeps.set_regs (.inr rfl) (.inl h_flags) (.inr ⟨rfl, rfl, rfl⟩)
    (fun _ hc => ⟨hc.1, sparseWf_set hc.2.1, hc.2.2⟩) h

theorem writeRecord_keeps {x0} (h_counters : w .counters = true) (h_flags : w .flags = true) (h_log : w .log = true) (h_history : w .history = true)
    (h : Keeps w k i s) : Keeps w k i (writeRecord x0 s) := by
  unfold writeRecord
  repeat' first
    | with_reducible assumption
    | (extract_lets +onlyGivenNames y0
       first
       | (refine_lift have hy0 : Keeps w k i y0 := ?_; ?_
          clear_value y0
          revert y0
          intro _ _
          rotate_left
          unfold y0
          clear y0)
       | (try clear_value y0
          revert y0
          intro _))
    | with_reducible refine evqCopy_keeps h_log ?_
    | with_reducible refine evqLose_keeps h_counters h_log ?_
    | with_reducible refine pushRecord_keeps h_log h_history ?_
    | with_reducible refine putFlags_keeps h_flags ?_
    | with_reducible refine Keeps.ite ?_ ?_

theorem logEvent_keeps {x0 x1 x2 x3} (h_counters : w .counters = true) (h_flags : w .flags = true) (h_log : w .log = true) (h_history : w .history = true)
    (h : Keeps w k i s) : Keeps w k i (logEvent x0 x1 x2 x3 s) := by
  unfold logEvent
  repeat' first
    | with_reducible assumption
    | with_reducible refine writeRecord_keeps h_counters h_flags h_log h_history ?_

theorem modAcct_keeps {x1 x2} (h_accounts : w .accounts = true)
    (h : Keeps w k i s) : Keeps w k i (modAcct s x1 x2) := by
  unfold modAcct
  repeat' first
    | with_reducible assumption
    | with_reducible refine Keeps.set_path (.inr ⟨rfl, rfl, rfl, rfl, rfl⟩) (.inr ⟨rfl, rfl⟩) (.inr ⟨rfl, rfl, rfl⟩) (.inr rfl) (.inl h_accounts) (.inr rfl) ?_

theorem modBox_keeps {x1 x2} (h_mail : w .mail = true)
    (h : Keeps w k i s) : Keeps w k i (modBox s x1 x2) := by
  unfold modBox
  repeat' first
    | with_reducible assumption
    | with_reducible refine Keeps.set_mail h_mail ?_

theorem modBridge_keeps {x1 x2 x3} (h_bridge : w .bridge = true)
    (h : Keeps w k i s) : Keeps w k i (modBridge s x1 x2 x3) := by
  unfold modBridge
  repeat' first
    | with_reducible assumption
    | with_reducible refine Keeps.set_bridge h_bridge ?_

theorem modBuf_keeps {x1 x2} (h_bufs : w .bufs = true)
    (h : Keeps w k i s) : Keeps w k i (modBuf s x1 x2) := by
  unfold modBuf
  repeat' first
    | with_reducible assumption
    | with_reducible refine Keeps.set_path (.inr ⟨rfl, rfl, rfl, rfl, rfl⟩) (.inr ⟨rfl, rfl⟩) (.inr ⟨rfl, rfl, rfl⟩) (.inl h_bufs) (.inr ⟨rfl, rfl, rfl, rfl, rfl, rfl, rfl, rfl⟩) (.inr rfl) ?_

theorem modCap_keeps {x1 x2} (h_anchor : w .anchor = true)
    (h : Keeps w k i s) : Keeps w k i (modCap s x1 x2) := by
  unfold modCap
  repeat' first
    | with_reducible assumption
    | with_reducible refine Keeps.set_anchor h_anchor ?_

theorem modCls_keeps {x1 x2} (h_cls : w .cls = true)
    (h : Keeps w k i s) : Keeps w k i (modCls s x1 x2) := by
  unfold modCls
  repeat' first
    | with_reducible assumption
    | with_reducible refine Keeps.set_path (.inr ⟨rfl, rfl, rfl, rfl, rfl⟩) (.inr ⟨rfl, rfl⟩) (.inl h_cls) (.inr rfl) (.inr ⟨rfl, rfl, rfl, rfl, rfl, rfl, rfl, rfl⟩) (.inr rfl) ?_

theorem modGroup_keeps {x1 x2} (h_groups : w .groups = true)
    (h : Keeps w k i s) : Keeps w k i (modGroup s x1 x2) := by
  unfold modGroup
  repeat' first
    | with_reducible assumption
    | with_reducible refine Keeps.set_trunk (.inr ⟨rfl, rfl, rfl⟩) (.inl h_groups) (.inr rfl) ?_

theorem modSlot_keeps {x1 x2} (h_slots : w .slots = true)
    (h : Keeps w k i s) : Keeps w k i (modSlot s x1 x2) := by
  unfold modSlot
  repeat' first
    | with_reducible assumption
    | with_reducible refine Keeps.set_crypto (.inl h_slots) (.inr rfl) (.inr ⟨rfl, rfl, rfl⟩) ?_

theorem modHalf_keeps {x1 x2 x3} (h_slots : w .slots = true)
    (h : Keeps w k i s) : Keeps w k i (modHalf s x1 x2 x3) := by
  unfold modHalf
  repeat' first
    | with_reducible assumption
    | with_reducible refine modSlot_keeps h_slots ?_

theorem modLane_keeps {x1 x2} (h_lanes : w .lanes = true)
    (h : Keeps w k i s) : Keeps w k i (modLane s x1 x2) := by
  unfold modLane
  repeat' first
    | with_reducible assumption
    | with_reducible refine Keeps.set_trunk (.inl h_lanes) (.inr rfl) (.inr rfl) ?_

theorem modPort_keeps {x1 x2} (h_ports : w .ports = true)
    (h : Keeps w k i s) : Keeps w k i (modPort s x1 x2) := by
  unfold modPort
  repeat' first
    | with_reducible assumption
    | with_reducible refine Keeps.set_path (.inl h_ports) (.inr ⟨rfl, rfl⟩) (.inr ⟨rfl, rfl, rfl⟩) (.inr rfl) (.inr ⟨rfl, rfl, rfl, rfl, rfl, rfl, rfl, rfl⟩) (.inr rfl) ?_

theorem modRing_keeps {q : MgtQueue} {f : MgtRing → MgtRing} (h_rings : w .rings = true) (h : Keeps w k i s) :
    Keeps w k i (modRing s q f) :=
  Keeps.set_ev (.inr ⟨rfl, rfl, rfl, rfl, rfl⟩) (.inl h_rings) (fun _ hb => hb) h

theorem modRoute_keeps {x1 x2 x3} (h_bridge : w .bridge = true)
    (h : Keeps w k i s) : Keeps w k i (modRoute s x1 x2 x3) := by
  unfold modRoute
  repeat' first
    | with_reducible assumption
    | with_reducible refine Keeps.set_bridge h_bridge ?_

theorem setFlag_keeps {x0 x1} (h_counters : w .counters = true) (h_flags : w .flags = true) (h_log : w .log = true) (h_history : w .history = true)
    (h : Keeps w k i s) : Keeps w k i (setFlag x0 x1 s) := by
  unfold setFlag
  repeat' first
    | with_reducible assumption
    | (extract_lets +onlyGivenNames y0
       first
       | (refine_lift have hy0 : Keeps w k i y0 := ?_; ?_
          clear_value y0
          revert y0
          intro _ _
          rotate_left
          unfold y0
          clear y0)
       | (try clear_value y0
          revert y0
          intro _))
    | with_reducible refine putFlags_keeps h_flags ?_
    | with_reducible refine writeRecord_keeps h_counters h_flags h_log h_history ?_
    | with_reducible refine Keeps.ite ?_ ?_

theorem sendFlits_keeps {x0 x1 x2 x3} (h_bridge : w .bridge = true)
    (h : Keeps w k i s) : Keeps w k i (sendFlits x0 x1 x2 x3 s) := by
  unfold sendFlits
  repeat' first
    | with_reducible assumption
    | with_reducible refine modBridge_keeps h_bridge ?_
    | with_reducible refine Keeps.ite ?_ ?_
    | split

theorem bridgeSend_keeps {x0 x1 x2 x3} (h_bridge : w .bridge = true)
    (h : Keeps w k i s) : Keeps w k i (bridgeSend x0 x1 x2 x3 s) := by
  unfold bridgeSend
  repeat' first
    | with_reducible assumption
    | (extract_lets +onlyGivenNames y0
       first
       | (refine_lift have hy0 : Keeps w k i y0 := ?_; ?_
          clear_value y0
          revert y0
          intro _ _
          rotate_left
          unfold y0
          clear y0)
       | (try clear_value y0
          revert y0
          intro _))
    | with_reducible refine sendFlits_keeps h_bridge ?_
    | with_reducible refine Keeps.set_bridge h_bridge ?_

theorem bumpGen_keeps {x0} (h_bridge : w .bridge = true) (h_anchor : w .anchor = true)
    (h : Keeps w k i s) : Keeps w k i (bumpGen x0 s) := by
  unfold bumpGen
  repeat' first
    | with_reducible assumption
    | (extract_lets +onlyGivenNames y0
       first
       | (refine_lift have hy0 : Keeps w k i y0 := ?_; ?_
          clear_value y0
          revert y0
          intro _ _
          rotate_left
          unfold y0
          clear y0)
       | (try clear_value y0
          revert y0
          intro _))
    | with_reducible refine modCap_keeps h_anchor ?_
    | with_reducible refine Keeps.ite ?_ ?_
    | split
    | with_reducible refine Keeps.set_bridge h_bridge ?_

theorem mirrorCopy_keeps {x0 x1} (h_anchor : w .anchor = true) (h_mail : w .mail = true)
    (h : Keeps w k i s) : Keeps w k i (mirrorCopy x0 x1 s) := by
  unfold mirrorCopy
  repeat' first
    | with_reducible assumption
    | with_reducible refine modBox_keeps h_mail ?_
    | with_reducible refine modCap_keeps h_anchor ?_
    | split

theorem serviceSend_keeps {x0 x1} (h_env : w .env = true)
    (h : Keeps w k i s) : Keeps w k i (serviceSend x0 x1 s) := by
  unfold serviceSend
  repeat' first
    | with_reducible assumption
    | with_reducible refine Keeps.set_env h_env ?_

theorem serviceAnswer_keeps {x0 x1} (h_env : w .env = true)
    (h : Keeps w k i s) : Keeps w k i (serviceAnswer x0 x1 s) := by
  unfold serviceAnswer
  repeat' first
    | with_reducible assumption
    | with_reducible refine serviceSend_keeps h_env ?_
    | with_reducible refine Keeps.ite ?_ ?_

theorem respond_keeps {x0 x1 x2} (h_env : w .env = true) (h_anchor : w .anchor = true) (h_mail : w .mail = true) (h_log : w .log = true)
    (h : Keeps w k i s) : Keeps w k i (respond x0 x1 x2 s) := by
  unfold respond
  repeat' first
    | with_reducible assumption
    | (extract_lets +onlyGivenNames y0
       first
       | (refine_lift have hy0 : Keeps w k i y0 := ?_; ?_
          clear_value y0
          revert y0
          intro _ _
          rotate_left
          unfold y0
          clear y0)
       | (try clear_value y0
          revert y0
          intro _))
    | with_reducible refine causeVec_keeps h_log ?_
    | with_reducible refine mirrorCopy_keeps h_anchor h_mail ?_
    | with_reducible refine modBox_keeps h_mail ?_
    | with_reducible refine serviceAnswer_keeps h_env ?_
    | with_reducible refine Keeps.ite ?_ ?_
    | split
    | with_reducible refine Keeps.set_mail h_mail ?_

theorem setLong_keeps {x0 x1} (h_mail : w .mail = true)
    (h : Keeps w k i s) : Keeps w k i (setLong x0 x1 s) := by
  unfold setLong
  repeat' first
    | with_reducible assumption
    | with_reducible refine Keeps.ite ?_ ?_
    | split
    | with_reducible refine Keeps.set_mail h_mail ?_

theorem finish_keeps {m : MboxId} {d : Done} (h_env : w .env = true) (h_bridge : w .bridge = true) (h_anchor : w .anchor = true) (h_mail : w .mail = true) (h_log : w .log = true)
    (h : KeepsDone w k i d) : Keeps w k i (finish m d) := by
  have h1 : ∀ q, Keeps w k i (if d.status = .ok then bumpGen q d.st else d.st) := fun q =>
    Keeps.ite (bumpGen_keeps (h := h.st) h_bridge h_anchor) h.st
  unfold finish
  extract_lets q
  refine Keeps.ite ?_ ?_
  · exact setLong_keeps h_mail (mirrorCopy_keeps h_anchor h_mail (h1 q))
  · exact respond_keeps h_env h_anchor h_mail h_log (h1 q)

theorem okDone_keeps 
    (h : Keeps w k i s) : KeepsDone w k i (okDone s) := by
  unfold okDone
  repeat' first
    | with_reducible assumption
    | with_reducible refine KeepsDone.mk ?_

theorem runCommand_keeps {op : Nat} {checks : Request → State → List Check} {apply : Request → State → Done}
    (h_env : w .env = true) (h_bridge : w .bridge = true) (h_anchor : w .anchor = true) (h_mail : w .mail = true) (h_log : w .log = true)
    (ha : ∀ r s, Keeps w k i s → KeepsDone w k i (apply r s)) (h : Keeps w k i s) :
    Keeps w k i (runCommand op checks apply s) := by
  unfold runCommand
  split
  · split
    · exact finish_keeps h_env h_bridge h_anchor h_mail h_log h
    · exact finish_keeps h_env h_bridge h_anchor h_mail h_log (ha _ _ h)
  · exact h

theorem runLong_keeps {op : Nat} {checks : Request → State → List Check} {start : MboxId → Request → State → State}
    (h_env : w .env = true) (h_bridge : w .bridge = true) (h_anchor : w .anchor = true) (h_mail : w .mail = true) (h_log : w .log = true)
    (ha : ∀ m r s, Keeps w k i s → Keeps w k i (start m r s)) (h : Keeps w k i s) :
    Keeps w k i (runLong op checks start s) := by
  unfold runLong
  split
  · split
    · exact finish_keeps h_env h_bridge h_anchor h_mail h_log h
    · exact ha _ _ _ h
  · exact h

theorem refreshPressure_keeps {x0} (h_counters : w .counters = true) (h_flags : w .flags = true) (h_log : w .log = true) (h_ports : w .ports = true) (h_bufs : w .bufs = true) (h_history : w .history = true)
    (h : Keeps w k i s) : Keeps w k i (refreshPressure x0 s) := by
  unfold refreshPressure
  repeat' first
    | with_reducible assumption
    | (extract_lets +onlyGivenNames y0
       first
       | (refine_lift have hy0 : Keeps w k i y0 := ?_; ?_
          clear_value y0
          revert y0
          intro _ _
          rotate_left
          unfold y0
          clear y0)
       | (try clear_value y0
          revert y0
          intro _))
    | with_reducible refine modBuf_keeps h_bufs ?_
    | with_reducible refine modPort_keeps h_ports ?_
    | with_reducible refine setFlag_keeps h_counters h_flags h_log h_history ?_
    | with_reducible refine whenB_keeps (fun _ _ => ?_) ?_
    | with_reducible refine foldS_keeps (fun _ _ _ => ?_) ?_
    | with_reducible refine Keeps.ite ?_ ?_
    | split

theorem warnFlags_keeps {x0 x1} (h_counters : w .counters = true) (h_flags : w .flags = true) (h_log : w .log = true) (h_history : w .history = true)
    (h : Keeps w k i s) : Keeps w k i (warnFlags x0 x1 s) := by
  unfold warnFlags
  repeat' first
    | with_reducible assumption
    | (extract_lets +onlyGivenNames y0
       first
       | (refine_lift have hy0 : Keeps w k i y0 := ?_; ?_
          clear_value y0
          revert y0
          intro _ _
          rotate_left
          unfold y0
          clear y0)
       | (try clear_value y0
          revert y0
          intro _))
    | with_reducible refine logEvent_keeps h_counters h_flags h_log h_history ?_
    | with_reducible refine setFlag_keeps h_counters h_flags h_log h_history ?_
    | with_reducible refine whenB_keeps (fun _ _ => ?_) ?_

theorem grantBuf_keeps {x0 x1 x2} (h_counters : w .counters = true) (h_flags : w .flags = true) (h_log : w .log = true) (h_ports : w .ports = true) (h_bufs : w .bufs = true) (h_history : w .history = true)
    (h : Keeps w k i s) : Keeps w k i (grantBuf x0 x1 x2 s) := by
  unfold grantBuf
  repeat' first
    | with_reducible assumption
    | (extract_lets +onlyGivenNames y0
       first
       | (refine_lift have hy0 : Keeps w k i y0 := ?_; ?_
          clear_value y0
          revert y0
          intro _ _
          rotate_left
          unfold y0
          clear y0)
       | (try clear_value y0
          revert y0
          intro _))
    | with_reducible refine count1_keeps h_counters ?_
    | with_reducible refine modBuf_keeps h_bufs ?_
    | with_reducible refine refreshPressure_keeps h_counters h_flags h_log h_ports h_bufs h_history ?_
    | with_reducible refine warnFlags_keeps h_counters h_flags h_log h_history ?_
    | with_reducible refine whenB_keeps (fun _ _ => ?_) ?_
    | split

theorem noteLosses_keeps {x0 x1 x2 x3} (h_counters : w .counters = true) (h_bufs : w .bufs = true)
    (h : Keeps w k i s) : Keeps w k i (noteLosses x0 x1 x2 x3 s) := by
  unfold noteLosses
  repeat' first
    | with_reducible assumption
    | with_reducible refine count1_keeps h_counters ?_
    | with_reducible refine modBuf_keeps h_bufs ?_
    | with_reducible refine foldS_keeps (fun _ _ _ => ?_) ?_

theorem allocBuf_keeps {x0 x1} (h_counters : w .counters = true) (h_flags : w .flags = true) (h_log : w .log = true) (h_ports : w .ports = true) (h_bufs : w .bufs = true) (h_history : w .history = true)
    (h : Keeps w k i s) : Keeps w k i (allocBuf x0 x1 s).2 := by
  unfold allocBuf
  repeat' first
    | with_reducible assumption
    | (extract_lets +onlyGivenNames y0
       first
       | (refine_lift have hy0 : Keeps w k i y0 := ?_; ?_
          clear_value y0
          revert y0
          intro _ _
          rotate_left
          unfold y0
          clear y0)
       | (try clear_value y0
          revert y0
          intro _))
    | with_reducible refine count1_keeps h_counters ?_
    | with_reducible refine grantBuf_keeps h_counters h_flags h_log h_ports h_bufs h_history ?_
    | with_reducible refine modBuf_keeps h_bufs ?_
    | with_reducible refine noteLosses_keeps h_counters h_bufs ?_
    | with_reducible refine setFlag_keeps h_counters h_flags h_log h_history ?_
    | with_reducible refine Keeps.ite ?_ ?_
    | with_reducible refine Keeps.dite (fun _ => ?_) (fun _ => ?_)
    | split

theorem allocBuf_keepsE {x0 x1} (h_counters : w .counters = true) (h_flags : w .flags = true) (h_log : w .log = true) (h_ports : w .ports = true) (h_bufs : w .bufs = true) (h_history : w .history = true) {p t} (e : allocBuf x0 x1 s = (p, t))
    (h : Keeps w k i s) : Keeps w k i t := by
  have g := allocBuf_keeps (x0 := x0) (x1 := x1) h_counters h_flags h_log h_ports h_bufs h_history h
  rw [e] at g
  exact g

theorem putBuf_keeps {x0 x1 x2} (h_bufs : w .bufs = true)
    (h : Keeps w k i s) : Keeps w k i (putBuf x0 x1 x2 s) := by
  unfold putBuf
  repeat' first
    | with_reducible assumption
    | with_reducible refine modBuf_keeps h_bufs ?_

theorem bufApply_keeps {x0 x1 x2 x3} (h_bufs : w .bufs = true)
    (h : Keeps w k i s) : Keeps w k i (bufApply x0 x1 x2 x3 s) := by
  unfold bufApply
  repeat' first
    | with_reducible assumption
    | with_reducible refine putBuf_keeps h_bufs ?_
    | with_reducible refine Keeps.ite ?_ ?_
    | split

theorem bufMisuse_keeps {x0 x1 x2 x3 x4} (h_counters : w .counters = true) (h_flags : w .flags = true) (h_log : w .log = true) (h_bufs : w .bufs = true) (h_history : w .history = true)
    (h : Keeps w k i s) : Keeps w k i (bufMisuse x0 x1 x2 x3 x4 s) := by
  unfold bufMisuse
  repeat' first
    | with_reducible assumption
    | (extract_lets +onlyGivenNames y0
       first
       | (refine_lift have hy0 : Keeps w k i y0 := ?_; ?_
          clear_value y0
          revert y0
          intro _ _
          rotate_left
          unfold y0
          clear y0)
       | (try clear_value y0
          revert y0
          intro _))
    | with_reducible refine count1_keeps h_counters ?_
    | with_reducible refine logEvent_keeps h_counters h_flags h_log h_history ?_
    | with_reducible refine modBuf_keeps h_bufs ?_
    | with_reducible refine setFlag_keeps h_counters h_flags h_log h_history ?_
    | with_reducible refine whenB_keeps (fun _ _ => ?_) ?_

theorem bufOpNow_keeps {x0 x1 x2 x3} (h_counters : w .counters = true) (h_flags : w .flags = true) (h_log : w .log = true) (h_ports : w .ports = true) (h_bufs : w .bufs = true) (h_history : w .history = true)
    (h : Keeps w k i s) : Keeps w k i (bufOpNow x0 x1 x2 x3 s) := by
  unfold bufOpNow
  repeat' first
    | with_reducible assumption
    | (extract_lets +onlyGivenNames y0
       first
       | (refine_lift have hy0 : Keeps w k i y0 := ?_; ?_
          clear_value y0
          revert y0
          intro _ _
          rotate_left
          unfold y0
          clear y0)
       | (refine_lift have hy0 : KeepsDone w k i y0 := ?_; ?_
          clear_value y0
          revert y0
          intro _ _
          rotate_left
          unfold y0
          clear y0)
       | (try clear_value y0
          revert y0
          intro _))
    | with_reducible refine bufApply_keeps h_bufs ?_
    | with_reducible refine bufMisuse_keeps h_counters h_flags h_log h_bufs h_history ?_
    | with_reducible refine refreshPressure_keeps h_counters h_flags h_log h_ports h_bufs h_history ?_
    | with_reducible refine foldS_keeps (fun _ _ _ => ?_) ?_
    | split

theorem refAddAhead_keeps {x0 x1} (h_counters : w .counters = true) (h_flags : w .flags = true) (h_log : w .log = true) (h_ports : w .ports = true) (h_bufs : w .bufs = true) (h_history : w .history = true)
    (h : Keeps w k i s) : Keeps w k i (refAddAhead x0 x1 s) := by
  unfold refAddAhead
  repeat' first
    | with_reducible assumption
    | with_reducible refine bufOpNow_keeps h_counters h_flags h_log h_ports h_bufs h_history ?_
    | with_reducible refine modBuf_keeps h_bufs ?_

theorem bufOp_keeps {x0 x1 x2 x3} (h_counters : w .counters = true) (h_flags : w .flags = true) (h_log : w .log = true) (h_ports : w .ports = true) (h_bufs : w .bufs = true) (h_history : w .history = true)
    (h : Keeps w k i s) : Keeps w k i (bufOp x0 x1 x2 x3 s) := by
  unfold bufOp
  repeat' first
    | with_reducible assumption
    | with_reducible refine bufOpNow_keeps h_counters h_flags h_log h_ports h_bufs h_history ?_
    | with_reducible refine refAddAhead_keeps h_counters h_flags h_log h_ports h_bufs h_history ?_
    | with_reducible refine foldS_keeps (fun _ _ _ => ?_) ?_
    | with_reducible refine Keeps.ite ?_ ?_
    | split

theorem dropBuf_keeps {x0} (h_counters : w .counters = true) (h_flags : w .flags = true) (h_log : w .log = true) (h_ports : w .ports = true) (h_bufs : w .bufs = true) (h_history : w .history = true)
    (h : Keeps w k i s) : Keeps w k i (dropBuf x0 s) := by
  unfold dropBuf
  repeat' first
    | with_reducible assumption
    | (extract_lets +onlyGivenNames y0
       first
       | (try clear_value y0
          revert y0
          intro _))
    | with_reducible refine bufOp_keeps h_counters h_flags h_log h_ports h_bufs h_history ?_
    | with_reducible refine Keeps.ite ?_ ?_
    | split

theorem passBuf_keeps {x0 x1} (h_counters : w .counters = true) (h_flags : w .flags = true) (h_log : w .log = true) (h_ports : w .ports = true) (h_bufs : w .bufs = true) (h_history : w .history = true)
    (h : Keeps w k i s) : Keeps w k i (passBuf x0 x1 s) := by
  unfold passBuf
  repeat' first
    | with_reducible assumption
    | (extract_lets +onlyGivenNames y0
       first
       | (try clear_value y0
          revert y0
          intro _))
    | with_reducible refine bufOp_keeps h_counters h_flags h_log h_ports h_bufs h_history ?_
    | with_reducible refine Keeps.ite ?_ ?_
    | split

theorem keepMirror_keeps (h_mirror : w .mirror = true)
    (h : Keeps w k i s) : Keeps w k i (keepMirror s) := by
  unfold keepMirror
  repeat' first
    | with_reducible assumption
    | with_reducible refine Keeps.ite ?_ ?_
    | split
    | with_reducible refine Keeps.set_mirror h_mirror ?_

theorem mirrorGen_keeps {x0 x1} (h_bridge : w .bridge = true)
    (h : Keeps w k i s) : Keeps w k i (mirrorGen x0 x1 s) := by
  unfold mirrorGen
  repeat' first
    | with_reducible assumption
    | (extract_lets +onlyGivenNames y0
       first
       | (refine_lift have hy0 : Keeps w k i y0 := ?_; ?_
          clear_value y0
          revert y0
          intro _ _
          rotate_left
          unfold y0
          clear y0)
       | (try clear_value y0
          revert y0
          intro _))
    | with_reducible refine Keeps.set_bridge h_bridge ?_

theorem mirrorMgmt_keeps {m : Mirror} (h_anchor : w .anchor = true) (h_log : w .log = true) (h_rings : w .rings = true) (h_hbm : w .hbm = true) (h_sensors : w .sensors = true)
    (h : Keeps w k i s) : Keeps w k i (mirrorMgmt m s) :=
  { ident := h.ident
    same := fun c hc => by
      cases c
      case anchor => exact absurd hc (by simp [h_anchor])
      case log => exact absurd hc (by simp [h_log])
      case rings => exact absurd hc (by simp [h_rings])
      case hbm => exact absurd hc (by simp [h_hbm])
      case sensors => exact absurd hc (by simp [h_sensors])
      all_goals exact h.same _ hc
    hbm := h.hbm
    regs := h.regs
    log := fun hk => Nat.le_trans (Nat.le_trans (Nat.le_of_eq List.length_drop) (Nat.sub_le _ _)) (h.log hk) }

theorem mirrorSettings_keeps {x0 x1} (h_lanes : w .lanes = true) (h_groups : w .groups = true) (h_filter : w .filter = true) (h_ports : w .ports = true) (h_ingress : w .ingress = true) (h_cls : w .cls = true) (h_bufs : w .bufs = true) (h_accounts : w .accounts = true) (h_policers : w .policers = true) (h_slots : w .slots = true) (h_keks : w .keks = true) (h_cipher : w .cipher = true) (h_time : w .time = true) (h_serdes : w .serdes = true) (h_fabric : w .fabric = true) (h_power : w .power = true)
    (h : Keeps w k i s) : Keeps w k i (mirrorSettings x0 x1 s) := by
  unfold mirrorSettings
  repeat' first
    | with_reducible assumption
    | (extract_lets +onlyGivenNames y0
       first
       | (refine_lift have hy0 : Keeps w k i y0 := ?_; ?_
          clear_value y0
          revert y0
          intro _ _
          rotate_left
          unfold y0
          clear y0)
       | (first
          | have hy1 : TrunkAll := y0
          | have hy1 : PathAll := y0
          | have hy1 : CryptoAll := y0
          clear hy1
          revert y0
          intro _)
       | (try clear_value y0
          revert y0
          intro _))
    | with_reducible refine Keeps.set_trunk (.inl h_lanes) (.inl h_groups) (.inl h_filter) ?_
    | with_reducible refine Keeps.set_path (.inl h_ports) (.inl h_ingress) (.inl h_cls) (.inl h_bufs) (.inl h_accounts) (.inl h_policers) ?_
    | with_reducible refine Keeps.set_crypto (.inl h_slots) (.inl h_keks) (.inl h_cipher) ?_
    | with_reducible refine Keeps.set_time h_time ?_
    | with_reducible refine Keeps.set_serdes h_serdes ?_
    | with_reducible refine Keeps.set_fabric h_fabric ?_
    | with_reducible refine Keeps.set_power h_power ?_

theorem loadMirror_keeps {h0 : Half} (h_counters : w .counters = true) (h_flags : w .flags = true) (h_bridge : w .bridge = true) (h_anchor : w .anchor = true) (h_mirror : w .mirror = true) (h_log : w .log = true) (h_rings : w .rings = true) (h_lanes : w .lanes = true) (h_groups : w .groups = true) (h_filter : w .filter = true) (h_ports : w .ports = true) (h_ingress : w .ingress = true) (h_cls : w .cls = true) (h_bufs : w .bufs = true) (h_accounts : w .accounts = true) (h_policers : w .policers = true) (h_slots : w .slots = true) (h_keks : w .keks = true) (h_cipher : w .cipher = true) (h_time : w .time = true) (h_hbm : w .hbm = true) (h_serdes : w .serdes = true) (h_fabric : w .fabric = true) (h_sensors : w .sensors = true) (h_history : w .history = true) (h_power : w .power = true)
    (h : Keeps w k i s) : Keeps w k i (loadMirror h0 s) := by
  unfold loadMirror
  split
  · exact h
  · extract_lets s0 reach
    have e0 : Keeps w k i s0 := Keeps.set_mirror h_mirror h
    refine Keeps.ite ?_ e0
    exact foldS_keeps (fun _ _ hs => refreshPressure_keeps h_counters h_flags h_log h_ports h_bufs h_history hs) (mirrorGen_keeps h_bridge (mirrorMgmt_keeps h_anchor h_log h_rings h_hbm h_sensors (mirrorSettings_keeps h_lanes h_groups h_filter h_ports h_ingress h_cls h_bufs h_accounts h_policers h_slots h_keks h_cipher h_time h_serdes h_fabric h_power e0)))

theorem takeUnit_keeps {x0 x1} (h_lanes : w .lanes = true)
    (h : Keeps w k i s) : Keeps w k i (takeUnit x0 x1 s) := by
  unfold takeUnit
  repeat' first
    | with_reducible assumption
    | with_reducible refine modLane_keeps h_lanes ?_
    | with_reducible refine Keeps.ite ?_ ?_
    | split

theorem oamDiscard_keeps {x1 x2} (h_counters : w .counters = true) (h_lanes : w .lanes = true)
    (h : Keeps w k i s) : Keeps w k i (oamDiscard s x1 x2) := by
  unfold oamDiscard
  repeat' first
    | with_reducible assumption
    | with_reducible refine count1_keeps h_counters ?_
    | with_reducible refine takeUnit_keeps h_lanes ?_
    | with_reducible refine Keeps.ite ?_ ?_
    | split

theorem recordDup_keeps {x0 x1 x2} (h_groups : w .groups = true)
    (h : Keeps w k i s) : Keeps w k i (recordDup x0 x1 x2 s) := by
  unfold recordDup
  repeat' first
    | with_reducible assumption
    | with_reducible refine modGroup_keeps h_groups ?_

theorem oamReceive_keeps {ty : Nat} {l : Lane} {m : OamRx} {test : GroupId → State → RxTest} {act : GroupId → State → State}
    (h_counters : w .counters = true) (h_lanes : w .lanes = true) (h_groups : w .groups = true)
    (ha : ∀ g s, Keeps w k i s → Keeps w k i (act g s)) (h : Keeps w k i s) :
    Keeps w k i (oamReceive ty l m test act s) := by
  have ht : Keeps w k i (takeUnit l m s) := takeUnit_keeps h_lanes h
  have hc : ∀ a, Keeps w k i (count1 a (takeUnit l m s)) := fun a => count1_keeps h_counters ht
  unfold oamReceive
  refine Keeps.ite h ?_
  split
  · exact ht
  · exact hc _
  · exact hc _
  · split
    · exact hc _
    · exact ht
    · refine Keeps.ite (hc _) (ha _ _ ?_)
      exact recordDup_keeps h_groups ht

theorem queueMsg_keeps {x0 x1 x2} (h_counters : w .counters = true) (h_groups : w .groups = true)
    (h : Keeps w k i s) : Keeps w k i (queueMsg x0 x1 x2 s) := by
  unfold queueMsg
  repeat' first
    | with_reducible assumption
    | with_reducible refine count1_keeps h_counters ?_
    | with_reducible refine modGroup_keeps h_groups ?_
    | with_reducible refine Keeps.ite ?_ ?_

theorem queueAck_keeps {x0 x1 x2 x3} (h_counters : w .counters = true) (h_groups : w .groups = true)
    (h : Keeps w k i s) : Keeps w k i (queueAck x0 x1 x2 x3 s) := by
  unfold queueAck
  repeat' first
    | with_reducible assumption
    | with_reducible refine queueMsg_keeps h_counters h_groups ?_

theorem queueRdi_keeps {x0} (h_counters : w .counters = true) (h_groups : w .groups = true)
    (h : Keeps w k i s) : Keeps w k i (queueRdi x0 s) := by
  unfold queueRdi
  repeat' first
    | with_reducible assumption
    | with_reducible refine modGroup_keeps h_groups ?_
    | with_reducible refine queueMsg_keeps h_counters h_groups ?_
    | with_reducible refine Keeps.ite ?_ ?_

theorem raiseRekey_keeps {x0 x1 x2} (h_counters : w .counters = true) (h_flags : w .flags = true) (h_log : w .log = true) (h_groups : w .groups = true) (h_slots : w .slots = true) (h_history : w .history = true)
    (h : Keeps w k i s) : Keeps w k i (raiseRekey x0 x1 x2 s) := by
  unfold raiseRekey
  repeat' first
    | with_reducible assumption
    | (extract_lets +onlyGivenNames y0
       first
       | (refine_lift have hy0 : Keeps w k i y0 := ?_; ?_
          clear_value y0
          revert y0
          intro _ _
          rotate_left
          unfold y0
          clear y0)
       | (try clear_value y0
          revert y0
          intro _))
    | with_reducible refine logEvent_keeps h_counters h_flags h_log h_history ?_
    | with_reducible refine modHalf_keeps h_slots ?_
    | with_reducible refine queueAck_keeps h_counters h_groups ?_
    | with_reducible refine setFlag_keeps h_counters h_flags h_log h_history ?_
    | with_reducible refine Keeps.ite ?_ ?_
    | split

theorem checkRekey_keeps {x0 x1} (h_counters : w .counters = true) (h_flags : w .flags = true) (h_log : w .log = true) (h_groups : w .groups = true) (h_slots : w .slots = true) (h_history : w .history = true)
    (h : Keeps w k i s) : Keeps w k i (checkRekey x0 x1 s) := by
  unfold checkRekey
  repeat' first
    | with_reducible assumption
    | (extract_lets +onlyGivenNames y0
       first
       | (try clear_value y0
          revert y0
          intro _))
    | with_reducible refine raiseRekey_keeps h_counters h_flags h_log h_groups h_slots h_history ?_
    | with_reducible refine Keeps.ite ?_ ?_

theorem consume_keeps {x0 x1 x2} (h_counters : w .counters = true) (h_flags : w .flags = true) (h_log : w .log = true) (h_groups : w .groups = true) (h_slots : w .slots = true) (h_history : w .history = true)
    (h : Keeps w k i s) : Keeps w k i (consume x0 x1 x2 s) := by
  unfold consume
  repeat' first
    | with_reducible assumption
    | with_reducible refine checkRekey_keeps h_counters h_flags h_log h_groups h_slots h_history ?_
    | with_reducible refine modHalf_keeps h_slots ?_

theorem loadHalf_keeps {x0 x1 x2 x3} (h_slots : w .slots = true)
    (h : Keeps w k i s) : Keeps w k i (loadHalf x0 x1 x2 x3 s) := by
  unfold loadHalf
  repeat' first
    | with_reducible assumption
    | with_reducible refine modHalf_keeps h_slots ?_

theorem makeCurrent_keeps {x0 x1} (h_counters : w .counters = true) (h_flags : w .flags = true) (h_log : w .log = true) (h_slots : w .slots = true) (h_history : w .history = true)
    (h : Keeps w k i s) : Keeps w k i (makeCurrent x0 x1 s) := by
  unfold makeCurrent
  repeat' first
    | with_reducible assumption
    | with_reducible refine modSlot_keeps h_slots ?_
    | with_reducible refine setFlag_keeps h_counters h_flags h_log h_history ?_

theorem retireHalf_keeps {x0 x1 x2} (h_counters : w .counters = true) (h_flags : w .flags = true) (h_log : w .log = true) (h_slots : w .slots = true) (h_history : w .history = true)
    (h : Keeps w k i s) : Keeps w k i (retireHalf x0 x1 x2 s) := by
  unfold retireHalf
  repeat' first
    | with_reducible assumption
    | (extract_lets +onlyGivenNames y0
       first
       | (refine_lift have hy0 : Keeps w k i y0 := ?_; ?_
          clear_value y0
          revert y0
          intro _ _
          rotate_left
          unfold y0
          clear y0)
       | (try clear_value y0
          revert y0
          intro _))
    | with_reducible refine logEvent_keeps h_counters h_flags h_log h_history ?_
    | with_reducible refine modHalf_keeps h_slots ?_
    | with_reducible refine setFlag_keeps h_counters h_flags h_log h_history ?_
    | with_reducible refine Keeps.ite ?_ ?_

theorem modOwed_keeps {x0 x1 x2} (h_rings : w .rings = true)
    (h : Keeps w k i s) : Keeps w k i (modOwed x0 x1 x2 s) := by
  unfold modOwed
  repeat' first
    | with_reducible assumption
    | with_reducible refine modRing_keeps h_rings ?_

theorem dropOwed_keeps {x0} (h_rings : w .rings = true)
    (h : Keeps w k i s) : Keeps w k i (dropOwed x0 s) := by
  unfold dropOwed
  repeat' first
    | with_reducible assumption
    | with_reducible refine modOwed_keeps h_rings ?_
    | split

theorem stampOwed_keeps {x0 x1 x2 x3} (h_rings : w .rings = true)
    (h : Keeps w k i s) : Keeps w k i (stampOwed x0 x1 x2 x3 s) := by
  unfold stampOwed
  repeat' first
    | with_reducible assumption
    | with_reducible refine modOwed_keeps h_rings ?_

theorem tcCount_keeps {x0 x1 x2} (h_counters : w .counters = true)
    (h : Keeps w k i s) : Keeps w k i (tcCount x0 x1 x2 s) := by
  unfold tcCount
  repeat' first
    | with_reducible assumption
    | with_reducible refine count1_keeps h_counters ?_
    | split

theorem cellLeft_keeps {x0 x1} (h_counters : w .counters = true) (h_flags : w .flags = true) (h_log : w .log = true) (h_rings : w .rings = true) (h_ports : w .ports = true) (h_bufs : w .bufs = true) (h_history : w .history = true)
    (h : Keeps w k i s) : Keeps w k i (cellLeft x0 x1 s) := by
  unfold cellLeft
  repeat' first
    | with_reducible assumption
    | (extract_lets +onlyGivenNames y0
       first
       | (refine_lift have hy0 : Keeps w k i y0 := ?_; ?_
          clear_value y0
          revert y0
          intro _ _
          rotate_left
          unfold y0
          clear y0)
       | (try clear_value y0
          revert y0
          intro _))
    | with_reducible refine count1_keeps h_counters ?_
    | with_reducible refine dropBuf_keeps h_counters h_flags h_log h_ports h_bufs h_history ?_
    | with_reducible refine passBuf_keeps h_counters h_flags h_log h_ports h_bufs h_history ?_
    | with_reducible refine stampOwed_keeps h_rings ?_
    | split

theorem discard_keeps {x0} (h_counters : w .counters = true) (h_flags : w .flags = true) (h_log : w .log = true) (h_rings : w .rings = true) (h_ports : w .ports = true) (h_bufs : w .bufs = true) (h_history : w .history = true)
    (h : Keeps w k i s) : Keeps w k i (discard x0 s) := by
  unfold discard
  repeat' first
    | with_reducible assumption
    | with_reducible refine dropBuf_keeps h_counters h_flags h_log h_ports h_bufs h_history ?_
    | with_reducible refine dropOwed_keeps h_rings ?_

theorem discardStopped_keeps {x0} (h_counters : w .counters = true) (h_flags : w .flags = true) (h_log : w .log = true) (h_rings : w .rings = true) (h_ports : w .ports = true) (h_bufs : w .bufs = true) (h_history : w .history = true)
    (h : Keeps w k i s) : Keeps w k i (discardStopped x0 s) := by
  unfold discardStopped
  repeat' first
    | with_reducible assumption
    | with_reducible refine count1_keeps h_counters ?_
    | with_reducible refine discard_keeps h_counters h_flags h_log h_rings h_ports h_bufs h_history ?_

theorem fabLocal_keeps {x0 x1} (h_counters : w .counters = true) (h_flags : w .flags = true) (h_log : w .log = true) (h_rings : w .rings = true) (h_ports : w .ports = true) (h_bufs : w .bufs = true) (h_fabric : w .fabric = true) (h_history : w .history = true)
    (h : Keeps w k i s) : Keeps w k i (fabLocal x0 x1 s) := by
  unfold fabLocal
  repeat' first
    | with_reducible assumption
    | (extract_lets +onlyGivenNames y0
       first
       | (refine_lift have hy0 : Keeps w k i y0 := ?_; ?_
          clear_value y0
          revert y0
          intro _ _
          rotate_left
          unfold y0
          clear y0)
       | (try clear_value y0
          revert y0
          intro _))
    | with_reducible refine cellLeft_keeps h_counters h_flags h_log h_rings h_ports h_bufs h_history ?_
    | with_reducible refine Keeps.set_fabric h_fabric ?_

theorem modFab_keeps {x1 x2} (h_fabric : w .fabric = true)
    (h : Keeps w k i s) : Keeps w k i (modFab s x1 x2) := by
  unfold modFab
  repeat' first
    | with_reducible assumption
    | with_reducible refine Keeps.set_fabric h_fabric ?_

theorem fabTransmit_keeps {x0 x1} (h_counters : w .counters = true) (h_flags : w .flags = true) (h_log : w .log = true) (h_rings : w .rings = true) (h_ports : w .ports = true) (h_bufs : w .bufs = true) (h_fabric : w .fabric = true) (h_history : w .history = true)
    (h : Keeps w k i s) : Keeps w k i (fabTransmit x0 x1 s) := by
  unfold fabTransmit
  repeat' first
    | with_reducible assumption
    | (extract_lets +onlyGivenNames y0
       first
       | (refine_lift have hy0 : Keeps w k i y0 := ?_; ?_
          clear_value y0
          revert y0
          intro _ _
          rotate_left
          unfold y0
          clear y0)
       | (try clear_value y0
          revert y0
          intro _))
    | with_reducible refine cellLeft_keeps h_counters h_flags h_log h_rings h_ports h_bufs h_history ?_
    | with_reducible refine count_keeps h_counters ?_
    | with_reducible refine count1_keeps h_counters ?_
    | with_reducible refine dropBuf_keeps h_counters h_flags h_log h_ports h_bufs h_history ?_
    | with_reducible refine modFab_keeps h_fabric ?_
    | with_reducible refine passBuf_keeps h_counters h_flags h_log h_ports h_bufs h_history ?_
    | with_reducible refine stampOwed_keeps h_rings ?_
    | with_reducible refine Keeps.ite ?_ ?_
    | split

theorem fabDrain_keeps {x0} (h_counters : w .counters = true) (h_flags : w .flags = true) (h_log : w .log = true) (h_rings : w .rings = true) (h_ports : w .ports = true) (h_bufs : w .bufs = true) (h_fabric : w .fabric = true) (h_history : w .history = true)
    (h : Keeps w k i s) : Keeps w k i (fabDrain x0 s) := by
  unfold fabDrain
  repeat' first
    | with_reducible assumption
    | (extract_lets +onlyGivenNames y0
       first
       | (try clear_value y0
          revert y0
          intro _))
    | with_reducible refine fabTransmit_keeps h_counters h_flags h_log h_rings h_ports h_bufs h_fabric h_history ?_
    | with_reducible refine modFab_keeps h_fabric ?_
    | with_reducible refine foldS_keeps (fun _ _ _ => ?_) ?_
    | with_reducible refine Keeps.ite ?_ ?_

theorem fabQueue_keeps {x0 x1} (h_counters : w .counters = true) (h_flags : w .flags = true) (h_log : w .log = true) (h_rings : w .rings = true) (h_ports : w .ports = true) (h_bufs : w .bufs = true) (h_fabric : w .fabric = true) (h_history : w .history = true)
    (h : Keeps w k i s) : Keeps w k i (fabQueue x0 x1 s) := by
  unfold fabQueue
  repeat' first
    | with_reducible assumption
    | (extract_lets +onlyGivenNames y0
       first
       | (try clear_value y0
          revert y0
          intro _))
    | with_reducible refine fabDrain_keeps h_counters h_flags h_log h_rings h_ports h_bufs h_fabric h_history ?_
    | with_reducible refine modFab_keeps h_fabric ?_

theorem fabRoute_keeps {x0 x1} (h_counters : w .counters = true) (h_flags : w .flags = true) (h_bridge : w .bridge = true) (h_log : w .log = true) (h_rings : w .rings = true) (h_ports : w .ports = true) (h_bufs : w .bufs = true) (h_fabric : w .fabric = true) (h_history : w .history = true)
    (h : Keeps w k i s) : Keeps w k i (fabRoute x0 x1 s) := by
  unfold fabRoute
  repeat' first
    | with_reducible assumption
    | (extract_lets +onlyGivenNames y0
       first
       | (refine_lift have hy0 : Keeps w k i y0 := ?_; ?_
          clear_value y0
          revert y0
          intro _ _
          rotate_left
          unfold y0
          clear y0)
       | (try clear_value y0
          revert y0
          intro _))
    | with_reducible refine bridgeSend_keeps h_bridge ?_
    | with_reducible refine count1_keeps h_counters ?_
    | with_reducible refine dropBuf_keeps h_counters h_flags h_log h_ports h_bufs h_history ?_
    | with_reducible refine dropOwed_keeps h_rings ?_
    | with_reducible refine fabLocal_keeps h_counters h_flags h_log h_rings h_ports h_bufs h_fabric h_history ?_
    | with_reducible refine fabQueue_keeps h_counters h_flags h_log h_rings h_ports h_bufs h_fabric h_history ?_
    | with_reducible refine Keeps.ite ?_ ?_
    | split

theorem fabControl_keeps {x0 x1 x2} (h_counters : w .counters = true) (h_flags : w .flags = true) (h_bridge : w .bridge = true) (h_log : w .log = true) (h_rings : w .rings = true) (h_ports : w .ports = true) (h_bufs : w .bufs = true) (h_fabric : w .fabric = true) (h_history : w .history = true)
    (h : Keeps w k i s) : Keeps w k i (fabControl x0 x1 x2 s) := by
  unfold fabControl
  repeat' first
    | with_reducible assumption
    | (extract_lets +onlyGivenNames y0
       first
       | (try clear_value y0
          revert y0
          intro _))
    | with_reducible refine fabRoute_keeps h_counters h_flags h_bridge h_log h_rings h_ports h_bufs h_fabric h_history ?_
    | with_reducible refine Keeps.ite ?_ ?_

theorem holdStopped_keeps {x0} (h_counters : w .counters = true) (h_flags : w .flags = true) (h_log : w .log = true) (h_rings : w .rings = true) (h_ports : w .ports = true) (h_bufs : w .bufs = true) (h_history : w .history = true)
    (h : Keeps w k i s) : Keeps w k i (holdStopped x0 s).2 := by
  unfold holdStopped
  repeat' first
    | with_reducible assumption
    | (extract_lets +onlyGivenNames y0
       first
       | (refine_lift have hy0 : Keeps w k i y0 := ?_; ?_
          clear_value y0
          revert y0
          intro _ _
          rotate_left
          unfold y0
          clear y0)
       | (refine_lift have hy0 : Keeps w k i y0.2 := ?_; ?_
          clear_value y0
          revert y0
          intro _ _
          rotate_left
          unfold y0
          clear y0)
       | (try clear_value y0
          revert y0
          intro _))
    | (refine allocBuf_keepsE h_counters h_flags h_log h_ports h_bufs h_history (by assumption) ?_)
    | with_reducible refine allocBuf_keeps h_counters h_flags h_log h_ports h_bufs h_history ?_
    | with_reducible refine count1_keeps h_counters ?_
    | with_reducible refine discardStopped_keeps h_counters h_flags h_log h_rings h_ports h_bufs h_history ?_
    | with_reducible refine dropBuf_keeps h_counters h_flags h_log h_ports h_bufs h_history ?_
    | with_reducible refine dropOwed_keeps h_rings ?_
    | with_reducible refine Keeps.ite ?_ ?_
    | split

theorem holdStopped_keepsE {x0} (h_counters : w .counters = true) (h_flags : w .flags = true) (h_log : w .log = true) (h_rings : w .rings = true) (h_ports : w .ports = true) (h_bufs : w .bufs = true) (h_history : w .history = true) {p t} (e : holdStopped x0 s = (p, t))
    (h : Keeps w k i s) : Keeps w k i t := by
  have g := holdStopped_keeps (x0 := x0) h_counters h_flags h_log h_rings h_ports h_bufs h_history h
  rw [e] at g
  exact g

theorem fabSend_keeps {x0 x1} (h_counters : w .counters = true) (h_flags : w .flags = true) (h_bridge : w .bridge = true) (h_log : w .log = true) (h_rings : w .rings = true) (h_ports : w .ports = true) (h_bufs : w .bufs = true) (h_fabric : w .fabric = true) (h_history : w .history = true)
    (h : Keeps w k i s) : Keeps w k i (fabSend x0 x1 s) := by
  unfold fabSend
  repeat' first
    | with_reducible assumption
    | (extract_lets +onlyGivenNames y0
       first
       | (refine_lift have hy0 : Keeps w k i y0 := ?_; ?_
          clear_value y0
          revert y0
          intro _ _
          rotate_left
          unfold y0
          clear y0)
       | (refine_lift have hy0 : Keeps w k i y0.2 := ?_; ?_
          clear_value y0
          revert y0
          intro _ _
          rotate_left
          unfold y0
          clear y0)
       | (try clear_value y0
          revert y0
          intro _))
    | with_reducible refine count1_keeps h_counters ?_
    | with_reducible refine dropBuf_keeps h_counters h_flags h_log h_ports h_bufs h_history ?_
    | with_reducible refine dropOwed_keeps h_rings ?_
    | with_reducible refine fabRoute_keeps h_counters h_flags h_bridge h_log h_rings h_ports h_bufs h_fabric h_history ?_
    | (refine holdStopped_keepsE h_counters h_flags h_log h_rings h_ports h_bufs h_history (by assumption) ?_)
    | with_reducible refine holdStopped_keeps h_counters h_flags h_log h_rings h_ports h_bufs h_history ?_
    | with_reducible refine tcCount_keeps h_counters ?_
    | with_reducible refine Keeps.ite ?_ ?_
    | split
    | with_reducible refine Keeps.set_fabric h_fabric ?_

theorem ownChanged_keeps (h_fabric : w .fabric = true)
    (h : Keeps w k i s) : Keeps w k i (ownChanged s) := by
  unfold ownChanged
  repeat' first
    | with_reducible assumption
    | with_reducible refine Keeps.set_fabric h_fabric ?_

theorem pruneRx_keeps (h_fabric : w .fabric = true)
    (h : Keeps w k i s) : Keeps w k i (pruneRx s) := by
  unfold pruneRx
  repeat' first
    | with_reducible assumption
    | with_reducible refine Keeps.set_fabric h_fabric ?_

theorem putAhead_keeps {x0 x1} (h_counters : w .counters = true) (h_flags : w .flags = true) (h_bridge : w .bridge = true) (h_log : w .log = true) (h_rings : w .rings = true) (h_ports : w .ports = true) (h_bufs : w .bufs = true) (h_fabric : w .fabric = true) (h_history : w .history = true)
    (h : Keeps w k i s) : Keeps w k i (putAhead x0 x1 s) := by
  unfold putAhead
  repeat' first
    | with_reducible assumption
    | (extract_lets +onlyGivenNames y0
       first
       | (refine_lift have hy0 : Keeps w k i y0 := ?_; ?_
          clear_value y0
          revert y0
          intro _ _
          rotate_left
          unfold y0
          clear y0)
       | (try clear_value y0
          revert y0
          intro _))
    | with_reducible refine fabDrain_keeps h_counters h_flags h_log h_rings h_ports h_bufs h_fabric h_history ?_
    | with_reducible refine fabRoute_keeps h_counters h_flags h_bridge h_log h_rings h_ports h_bufs h_fabric h_history ?_
    | with_reducible refine modFab_keeps h_fabric ?_
    | with_reducible refine foldS_keeps (fun _ _ _ => ?_) ?_
    | with_reducible refine foldl_keeps (fun _ _ _ => ?_) ?_
    | with_reducible refine Keeps.ite ?_ ?_

theorem useAlternate_keeps {x0 x1} (h_counters : w .counters = true) (h_flags : w .flags = true) (h_log : w .log = true) (h_fabric : w .fabric = true) (h_history : w .history = true)
    (h : Keeps w k i s) : Keeps w k i (useAlternate x0 x1 s) := by
  unfold useAlternate
  repeat' first
    | with_reducible assumption
    | (extract_lets +onlyGivenNames y0
       first
       | (refine_lift have hy0 : Keeps w k i y0 := ?_; ?_
          clear_value y0
          revert y0
          intro _ _
          rotate_left
          unfold y0
          clear y0)
       | (try clear_value y0
          revert y0
          intro _))
    | with_reducible refine count1_keeps h_counters ?_
    | with_reducible refine setFlag_keeps h_counters h_flags h_log h_history ?_
    | with_reducible refine Keeps.ite ?_ ?_
    | split
    | with_reducible refine Keeps.set_fabric h_fabric ?_

theorem takeDown_keeps {x0 x1} (h_counters : w .counters = true) (h_flags : w .flags = true) (h_bridge : w .bridge = true) (h_log : w .log = true) (h_rings : w .rings = true) (h_ports : w .ports = true) (h_bufs : w .bufs = true) (h_fabric : w .fabric = true) (h_history : w .history = true)
    (h : Keeps w k i s) : Keeps w k i (takeDown x0 x1 s) := by
  unfold takeDown
  repeat' first
    | with_reducible assumption
    | (extract_lets +onlyGivenNames y0
       first
       | (refine_lift have hy0 : Keeps w k i y0 := ?_; ?_
          clear_value y0
          revert y0
          intro _ _
          rotate_left
          unfold y0
          clear y0)
       | (try clear_value y0
          revert y0
          intro _))
    | with_reducible refine count1_keeps h_counters ?_
    | with_reducible refine modFab_keeps h_fabric ?_
    | with_reducible refine ownChanged_keeps h_fabric ?_
    | with_reducible refine pruneRx_keeps h_fabric ?_
    | with_reducible refine putAhead_keeps h_counters h_flags h_bridge h_log h_rings h_ports h_bufs h_fabric h_history ?_
    | with_reducible refine setFlag_keeps h_counters h_flags h_log h_history ?_
    | with_reducible refine useAlternate_keeps h_counters h_flags h_log h_fabric h_history ?_
    | with_reducible refine foldS_keeps (fun _ _ _ => ?_) ?_
    | with_reducible refine Keeps.ite ?_ ?_

theorem enterPath_keeps {x0 x1} (h_ingress : w .ingress = true)
    (h : Keeps w k i s) : Keeps w k i (enterPath x0 x1 s) := by
  unfold enterPath
  repeat' first
    | with_reducible assumption
    | with_reducible refine Keeps.set_path (.inr ⟨rfl, rfl, rfl, rfl, rfl⟩) (.inl h_ingress) (.inr ⟨rfl, rfl, rfl⟩) (.inr rfl) (.inr ⟨rfl, rfl, rfl, rfl, rfl, rfl, rfl, rfl⟩) (.inr rfl) ?_

theorem receiveFrame_keeps {x0 x1 x2} (h_counters : w .counters = true) (h_flags : w .flags = true) (h_log : w .log = true) (h_rings : w .rings = true) (h_ports : w .ports = true) (h_ingress : w .ingress = true) (h_bufs : w .bufs = true) (h_history : w .history = true)
    (h : Keeps w k i s) : Keeps w k i (receiveFrame x0 x1 x2 s) := by
  unfold receiveFrame
  repeat' first
    | with_reducible assumption
    | (extract_lets +onlyGivenNames y0
       first
       | (try clear_value y0
          revert y0
          intro _))
    | (refine allocBuf_keepsE h_counters h_flags h_log h_ports h_bufs h_history (by assumption) ?_)
    | with_reducible refine allocBuf_keeps h_counters h_flags h_log h_ports h_bufs h_history ?_
    | with_reducible refine dropOwed_keeps h_rings ?_
    | with_reducible refine enterPath_keeps h_ingress ?_
    | split

theorem clearGrants_keeps {x0} (h_lanes : w .lanes = true) (h_groups : w .groups = true)
    (h : Keeps w k i s) : Keeps w k i (clearGrants x0 s) := by
  unfold clearGrants
  repeat' first
    | with_reducible assumption
    | (extract_lets +onlyGivenNames y0
       first
       | (refine_lift have hy0 : Keeps w k i y0 := ?_; ?_
          clear_value y0
          revert y0
          intro _ _
          rotate_left
          unfold y0
          clear y0)
       | (refine_lift have hy0 : KeepsDone w k i y0 := ?_; ?_
          clear_value y0
          revert y0
          intro _ _
          rotate_left
          unfold y0
          clear y0)
       | (try clear_value y0
          revert y0
          intro _))
    | with_reducible refine modGroup_keeps h_groups ?_
    | with_reducible refine modLane_keeps h_lanes ?_
    | with_reducible refine foldS_keeps (fun _ _ _ => ?_) ?_
    | split

theorem countMissed_keeps {x0} (h_counters : w .counters = true) (h_flags : w .flags = true) (h_log : w .log = true) (h_history : w .history = true)
    (h : Keeps w k i s) : Keeps w k i (countMissed x0 s) := by
  unfold countMissed
  repeat' first
    | with_reducible assumption
    | with_reducible refine count1_keeps h_counters ?_
    | with_reducible refine setFlag_keeps h_counters h_flags h_log h_history ?_

theorem loseRemainder_keeps {x0 x1 x2} (h_counters : w .counters = true) (h_flags : w .flags = true) (h_log : w .log = true) (h_ports : w .ports = true) (h_bufs : w .bufs = true) (h_accounts : w .accounts = true) (h_history : w .history = true)
    (h : Keeps w k i s) : Keeps w k i (loseRemainder x0 x1 x2 s) := by
  unfold loseRemainder
  repeat' first
    | with_reducible assumption
    | with_reducible refine count1_keeps h_counters ?_
    | with_reducible refine dropBuf_keeps h_counters h_flags h_log h_ports h_bufs h_history ?_
    | with_reducible refine modAcct_keeps h_accounts ?_

theorem discardRemainders_keeps {x0} (h_counters : w .counters = true) (h_flags : w .flags = true) (h_log : w .log = true) (h_ports : w .ports = true) (h_bufs : w .bufs = true) (h_accounts : w .accounts = true) (h_history : w .history = true)
    (h : Keeps w k i s) : Keeps w k i (discardRemainders x0 s) := by
  unfold discardRemainders
  repeat' first
    | with_reducible assumption
    | with_reducible refine loseRemainder_keeps h_counters h_flags h_log h_ports h_bufs h_accounts h_history ?_
    | with_reducible refine foldS_keeps (fun _ _ _ => ?_) ?_
    | split

theorem dropEqdPending_keeps {x0} (h_lanes : w .lanes = true) (h_groups : w .groups = true)
    (h : Keeps w k i s) : Keeps w k i (dropEqdPending x0 s) := by
  unfold dropEqdPending
  repeat' first
    | with_reducible assumption
    | (extract_lets +onlyGivenNames y0
       first
       | (refine_lift have hy0 : Keeps w k i y0 := ?_; ?_
          clear_value y0
          revert y0
          intro _ _
          rotate_left
          unfold y0
          clear y0)
       | (try clear_value y0
          revert y0
          intro _))
    | with_reducible refine modGroup_keeps h_groups ?_
    | with_reducible refine modLane_keeps h_lanes ?_
    | with_reducible refine foldS_keeps (fun _ _ _ => ?_) ?_

theorem dropLatent_keeps {x0 x1} (h_groups : w .groups = true)
    (h : Keeps w k i s) : Keeps w k i (dropLatent x0 x1 s) := by
  unfold dropLatent
  repeat' first
    | with_reducible assumption
    | with_reducible refine modGroup_keeps h_groups ?_

theorem dropUnheld_keeps {x0 x1} (h_groups : w .groups = true)
    (h : Keeps w k i s) : Keeps w k i (dropUnheld x0 x1 s) := by
  unfold dropUnheld
  repeat' first
    | with_reducible assumption
    | with_reducible refine modGroup_keeps h_groups ?_

theorem listenTest_keeps {x0} (h_counters : w .counters = true) (h_flags : w .flags = true) (h_log : w .log = true) (h_groups : w .groups = true) (h_history : w .history = true)
    (h : Keeps w k i s) : Keeps w k i (listenTest x0 s) := by
  unfold listenTest
  repeat' first
    | with_reducible assumption
    | (extract_lets +onlyGivenNames y0
       first
       | (refine_lift have hy0 : Keeps w k i y0 := ?_; ?_
          clear_value y0
          revert y0
          intro _ _
          rotate_left
          unfold y0
          clear y0)
       | (try clear_value y0
          revert y0
          intro _))
    | with_reducible refine modGroup_keeps h_groups ?_
    | with_reducible refine setFlag_keeps h_counters h_flags h_log h_history ?_
    | with_reducible refine Keeps.ite ?_ ?_
    | split

theorem unrangeLanes_keeps {x0} (h_lanes : w .lanes = true)
    (h : Keeps w k i s) : Keeps w k i (unrangeLanes x0 s) := by
  unfold unrangeLanes
  repeat' first
    | with_reducible assumption
    | with_reducible refine modLane_keeps h_lanes ?_
    | with_reducible refine foldS_keeps (fun _ _ _ => ?_) ?_

theorem loseIdentity_keeps {x0 x1} (h_lanes : w .lanes = true) (h_groups : w .groups = true)
    (h : Keeps w k i s) : Keeps w k i (loseIdentity x0 x1 s) := by
  unfold loseIdentity
  repeat' first
    | with_reducible assumption
    | (extract_lets +onlyGivenNames y0
       first
       | (refine_lift have hy0 : Keeps w k i y0 := ?_; ?_
          clear_value y0
          revert y0
          intro _ _
          rotate_left
          unfold y0
          clear y0)
       | (try clear_value y0
          revert y0
          intro _))
    | with_reducible refine dropEqdPending_keeps h_lanes h_groups ?_
    | with_reducible refine modGroup_keeps h_groups ?_
    | with_reducible refine modLane_keeps h_lanes ?_
    | with_reducible refine unrangeLanes_keeps h_lanes ?_
    | with_reducible refine foldS_keeps (fun _ _ _ => ?_) ?_
    | with_reducible refine Keeps.ite ?_ ?_
    | split

theorem enterListen_keeps {x0} (h_counters : w .counters = true) (h_flags : w .flags = true) (h_log : w .log = true) (h_lanes : w .lanes = true) (h_groups : w .groups = true) (h_accounts : w .accounts = true) (h_history : w .history = true)
    (h : Keeps w k i s) : Keeps w k i (enterListen x0 s) := by
  unfold enterListen
  repeat' first
    | with_reducible assumption
    | (extract_lets +onlyGivenNames y0
       first
       | (refine_lift have hy0 : Keeps w k i y0 := ?_; ?_
          clear_value y0
          revert y0
          intro _ _
          rotate_left
          unfold y0
          clear y0)
       | (try clear_value y0
          revert y0
          intro _))
    | with_reducible refine clearGrants_keeps h_lanes h_groups ?_
    | with_reducible refine listenTest_keeps h_counters h_flags h_log h_groups h_history ?_
    | with_reducible refine loseIdentity_keeps h_lanes h_groups ?_
    | with_reducible refine modAcct_keeps h_accounts ?_
    | with_reducible refine modGroup_keeps h_groups ?_
    | with_reducible refine foldS_keeps (fun _ _ _ => ?_) ?_

theorem fogAccount_keeps {x0 x1 x2 x3} (h_counters : w .counters = true) (h_flags : w .flags = true) (h_log : w .log = true) (h_ports : w .ports = true) (h_bufs : w .bufs = true) (h_accounts : w .accounts = true) (h_history : w .history = true)
    (h : Keeps w k i s) : Keeps w k i (fogAccount x0 x1 x2 x3 s) := by
  unfold fogAccount
  repeat' first
    | with_reducible assumption
    | (extract_lets +onlyGivenNames y0
       first
       | (refine_lift have hy0 : Keeps w k i y0 := ?_; ?_
          clear_value y0
          revert y0
          intro _ _
          rotate_left
          unfold y0
          clear y0)
       | (try clear_value y0
          revert y0
          intro _))
    | with_reducible refine count_keeps h_counters ?_
    | with_reducible refine loseRemainder_keeps h_counters h_flags h_log h_ports h_bufs h_accounts h_history ?_
    | with_reducible refine modAcct_keeps h_accounts ?_
    | with_reducible refine passBuf_keeps h_counters h_flags h_log h_ports h_bufs h_history ?_
    | with_reducible refine foldS_keeps (fun _ _ _ => ?_) ?_
    | with_reducible refine Keeps.ite ?_ ?_
    | split

theorem markDone_keeps {x0 x1 x2} (h_lanes : w .lanes = true)
    (h : Keeps w k i s) : Keeps w k i (markDone x0 x1 x2 s) := by
  unfold markDone
  repeat' first
    | with_reducible assumption
    | with_reducible refine modLane_keeps h_lanes ?_

theorem missGrant_keeps {x0 x1 x2} (h_counters : w .counters = true) (h_flags : w .flags = true) (h_log : w .log = true) (h_lanes : w .lanes = true) (h_history : w .history = true)
    (h : Keeps w k i s) : Keeps w k i (missGrant x0 x1 x2 s) := by
  unfold missGrant
  repeat' first
    | with_reducible assumption
    | with_reducible refine countMissed_keeps h_counters h_flags h_log h_history ?_
    | with_reducible refine markDone_keeps h_lanes ?_
    | with_reducible refine Keeps.ite ?_ ?_

theorem returnOam_keeps {x0 x1} (h_counters : w .counters = true) (h_groups : w .groups = true)
    (h : Keeps w k i s) : Keeps w k i (returnOam x0 x1 s) := by
  unfold returnOam
  repeat' first
    | with_reducible assumption
    | (extract_lets +onlyGivenNames y0
       first
       | (try clear_value y0
          revert y0
          intro _))
    | with_reducible refine count_keeps h_counters ?_
    | with_reducible refine modGroup_keeps h_groups ?_

theorem slotStallTest_keeps {x0} (h_counters : w .counters = true) (h_flags : w .flags = true) (h_log : w .log = true) (h_groups : w .groups = true) (h_slots : w .slots = true) (h_history : w .history = true)
    (h : Keeps w k i s) : Keeps w k i (slotStallTest x0 s) := by
  unfold slotStallTest
  repeat' first
    | with_reducible assumption
    | with_reducible refine modSlot_keeps h_slots ?_
    | with_reducible refine raiseRekey_keeps h_counters h_flags h_log h_groups h_slots h_history ?_
    | with_reducible refine Keeps.ite ?_ ?_
    | split

theorem stallTest_keeps {x0} (h_counters : w .counters = true) (h_flags : w .flags = true) (h_log : w .log = true) (h_groups : w .groups = true) (h_slots : w .slots = true) (h_history : w .history = true)
    (h : Keeps w k i s) : Keeps w k i (stallTest x0 s) := by
  unfold stallTest
  repeat' first
    | with_reducible assumption
    | with_reducible refine slotStallTest_keeps h_counters h_flags h_log h_groups h_slots h_history ?_
    | split

theorem fogThese_keeps {x0 x1 x2 x3 x4 x5} (h_counters : w .counters = true) (h_flags : w .flags = true) (h_log : w .log = true) (h_lanes : w .lanes = true) (h_groups : w .groups = true) (h_ports : w .ports = true) (h_bufs : w .bufs = true) (h_accounts : w .accounts = true) (h_slots : w .slots = true) (h_history : w .history = true)
    (h : Keeps w k i s) : Keeps w k i (fogThese x0 x1 x2 x3 x4 x5 s) := by
  unfold fogThese
  repeat' first
    | with_reducible assumption
    | (extract_lets +onlyGivenNames y0
       first
       | (refine_lift have hy0 : Keeps w k i y0 := ?_; ?_
          clear_value y0
          revert y0
          intro _ _
          rotate_left
          unfold y0
          clear y0)
       | (try clear_value y0
          revert y0
          intro _))
    | with_reducible refine count_keeps h_counters ?_
    | with_reducible refine dropLatent_keeps h_groups ?_
    | with_reducible refine fogAccount_keeps h_counters h_flags h_log h_ports h_bufs h_accounts h_history ?_
    | with_reducible refine missGrant_keeps h_counters h_flags h_log h_lanes h_history ?_
    | with_reducible refine modGroup_keeps h_groups ?_
    | with_reducible refine returnOam_keeps h_counters h_groups ?_
    | with_reducible refine setFlag_keeps h_counters h_flags h_log h_history ?_
    | with_reducible refine stallTest_keeps h_counters h_flags h_log h_groups h_slots h_history ?_
    | with_reducible refine foldS_keeps (fun _ _ _ => ?_) ?_
    | with_reducible refine Keeps.ite ?_ ?_
    | split

theorem fog_keeps {x0 x1 x2 x3 x4} (h_counters : w .counters = true) (h_flags : w .flags = true) (h_log : w .log = true) (h_lanes : w .lanes = true) (h_groups : w .groups = true) (h_ports : w .ports = true) (h_bufs : w .bufs = true) (h_accounts : w .accounts = true) (h_slots : w .slots = true) (h_history : w .history = true)
    (h : Keeps w k i s) : Keeps w k i (fog x0 x1 x2 x3 x4 s) := by
  unfold fog
  repeat' first
    | with_reducible assumption
    | with_reducible refine fogThese_keeps h_counters h_flags h_log h_lanes h_groups h_ports h_bufs h_accounts h_slots h_history ?_

theorem fogKeyBursts_keeps {x0} (h_counters : w .counters = true) (h_flags : w .flags = true) (h_log : w .log = true) (h_lanes : w .lanes = true) (h_groups : w .groups = true) (h_ports : w .ports = true) (h_bufs : w .bufs = true) (h_accounts : w .accounts = true) (h_slots : w .slots = true) (h_history : w .history = true)
    (h : Keeps w k i s) : Keeps w k i (fogKeyBursts x0 s) := by
  unfold fogKeyBursts
  repeat' first
    | with_reducible assumption
    | with_reducible refine fog_keeps h_counters h_flags h_log h_lanes h_groups h_ports h_bufs h_accounts h_slots h_history ?_
    | with_reducible refine foldS_keeps (fun _ _ _ => ?_) ?_
    | with_reducible refine Keeps.ite ?_ ?_
    | split

theorem fogLaneBursts_keeps {x0 x1 x2} (h_counters : w .counters = true) (h_flags : w .flags = true) (h_log : w .log = true) (h_lanes : w .lanes = true) (h_groups : w .groups = true) (h_ports : w .ports = true) (h_bufs : w .bufs = true) (h_accounts : w .accounts = true) (h_slots : w .slots = true) (h_history : w .history = true)
    (h : Keeps w k i s) : Keeps w k i (fogLaneBursts x0 x1 x2 s) := by
  unfold fogLaneBursts
  repeat' first
    | with_reducible assumption
    | with_reducible refine dropUnheld_keeps h_groups ?_
    | with_reducible refine fog_keeps h_counters h_flags h_log h_lanes h_groups h_ports h_bufs h_accounts h_slots h_history ?_

theorem fogLaneLate_keeps {x0 x1 x2} (h_counters : w .counters = true) (h_flags : w .flags = true) (h_log : w .log = true) (h_lanes : w .lanes = true) (h_groups : w .groups = true) (h_ports : w .ports = true) (h_bufs : w .bufs = true) (h_accounts : w .accounts = true) (h_slots : w .slots = true) (h_history : w .history = true)
    (h : Keeps w k i s) : Keeps w k i (fogLaneLate x0 x1 x2 s) := by
  unfold fogLaneLate
  repeat' first
    | with_reducible assumption
    | (extract_lets +onlyGivenNames y0
       first
       | (refine_lift have hy0 : Keeps w k i y0 := ?_; ?_
          clear_value y0
          revert y0
          intro _ _
          rotate_left
          unfold y0
          clear y0)
       | (try clear_value y0
          revert y0
          intro _))
    | with_reducible refine dropUnheld_keeps h_groups ?_
    | with_reducible refine fogThese_keeps h_counters h_flags h_log h_lanes h_groups h_ports h_bufs h_accounts h_slots h_history ?_

theorem fogStopAll_keeps {x0} (h_counters : w .counters = true) (h_flags : w .flags = true) (h_log : w .log = true) (h_lanes : w .lanes = true) (h_groups : w .groups = true) (h_ports : w .ports = true) (h_bufs : w .bufs = true) (h_accounts : w .accounts = true) (h_slots : w .slots = true) (h_history : w .history = true)
    (h : Keeps w k i s) : Keeps w k i (fogStopAll x0 s) := by
  unfold fogStopAll
  repeat' first
    | with_reducible assumption
    | with_reducible refine dropUnheld_keeps h_groups ?_
    | with_reducible refine fog_keeps h_counters h_flags h_log h_lanes h_groups h_ports h_bufs h_accounts h_slots h_history ?_

theorem followClock_keeps {x0} (h_groups : w .groups = true)
    (h : Keeps w k i s) : Keeps w k i (followClock x0 s) := by
  unfold followClock
  repeat' first
    | with_reducible assumption
    | (extract_lets +onlyGivenNames y0
       first
       | (try clear_value y0
          revert y0
          intro _))
    | with_reducible refine modGroup_keeps h_groups ?_

theorem goDark_keeps {x0} (h_lanes : w .lanes = true)
    (h : Keeps w k i s) : Keeps w k i (goDark x0 s) := by
  unfold goDark
  repeat' first
    | with_reducible assumption
    | with_reducible refine modLane_keeps h_lanes ?_
    | with_reducible refine Keeps.ite ?_ ?_
    | split

theorem loseDeveloped_keeps {x0 x1} (h_counters : w .counters = true) (h_flags : w .flags = true) (h_log : w .log = true) (h_groups : w .groups = true) (h_ports : w .ports = true) (h_bufs : w .bufs = true) (h_accounts : w .accounts = true) (h_history : w .history = true)
    (h : Keeps w k i s) : Keeps w k i (loseDeveloped x0 x1 s) := by
  unfold loseDeveloped
  repeat' first
    | with_reducible assumption
    | (extract_lets +onlyGivenNames y0
       first
       | (refine_lift have hy0 : Keeps w k i y0 := ?_; ?_
          clear_value y0
          revert y0
          intro _ _
          rotate_left
          unfold y0
          clear y0)
       | (try clear_value y0
          revert y0
          intro _))
    | with_reducible refine count_keeps h_counters ?_
    | with_reducible refine count1_keeps h_counters ?_
    | with_reducible refine dropBuf_keeps h_counters h_flags h_log h_ports h_bufs h_history ?_
    | with_reducible refine dropLatent_keeps h_groups ?_
    | with_reducible refine loseRemainder_keeps h_counters h_flags h_log h_ports h_bufs h_accounts h_history ?_
    | with_reducible refine modGroup_keeps h_groups ?_
    | with_reducible refine setFlag_keeps h_counters h_flags h_log h_history ?_
    | with_reducible refine Keeps.ite ?_ ?_
    | split

theorem loseDevelopedWhere_keeps {x0 x1} (h_counters : w .counters = true) (h_flags : w .flags = true) (h_log : w .log = true) (h_groups : w .groups = true) (h_ports : w .ports = true) (h_bufs : w .bufs = true) (h_accounts : w .accounts = true) (h_slots : w .slots = true) (h_history : w .history = true)
    (h : Keeps w k i s) : Keeps w k i (loseDevelopedWhere x0 x1 s) := by
  unfold loseDevelopedWhere
  repeat' first
    | with_reducible assumption
    | (extract_lets +onlyGivenNames y0
       first
       | (refine_lift have hy0 : Keeps w k i y0 := ?_; ?_
          clear_value y0
          revert y0
          intro _ _
          rotate_left
          unfold y0
          clear y0)
       | (try clear_value y0
          revert y0
          intro _))
    | with_reducible refine loseDeveloped_keeps h_counters h_flags h_log h_groups h_ports h_bufs h_accounts h_history ?_
    | with_reducible refine stallTest_keeps h_counters h_flags h_log h_groups h_slots h_history ?_
    | with_reducible refine foldS_keeps (fun _ _ _ => ?_) ?_
    | split

theorem modLatent_keeps {x0 x1 x2} (h_groups : w .groups = true)
    (h : Keeps w k i s) : Keeps w k i (modLatent x0 x1 x2 s) := by
  unfold modLatent
  repeat' first
    | with_reducible assumption
    | with_reducible refine modGroup_keeps h_groups ?_

theorem recomputeEqd0_keeps {x0} (h_counters : w .counters = true) (h_flags : w .flags = true) (h_log : w .log = true) (h_lanes : w .lanes = true) (h_groups : w .groups = true) (h_accounts : w .accounts = true) (h_history : w .history = true)
    (h : Keeps w k i s) : Keeps w k i (recomputeEqd0 x0 s) := by
  unfold recomputeEqd0
  repeat' first
    | with_reducible assumption
    | (extract_lets +onlyGivenNames y0
       first
       | (refine_lift have hy0 : Keeps w k i y0 := ?_; ?_
          clear_value y0
          revert y0
          intro _ _
          rotate_left
          unfold y0
          clear y0)
       | (try clear_value y0
          revert y0
          intro _))
    | with_reducible refine enterListen_keeps h_counters h_flags h_log h_lanes h_groups h_accounts h_history ?_
    | with_reducible refine listenTest_keeps h_counters h_flags h_log h_groups h_history ?_
    | with_reducible refine modGroup_keeps h_groups ?_
    | with_reducible refine setFlag_keeps h_counters h_flags h_log h_history ?_
    | with_reducible refine Keeps.ite ?_ ?_
    | split

theorem stopBursts_keeps {x0} (h_counters : w .counters = true) (h_flags : w .flags = true) (h_log : w .log = true) (h_lanes : w .lanes = true) (h_groups : w .groups = true) (h_ports : w .ports = true) (h_bufs : w .bufs = true) (h_accounts : w .accounts = true) (h_slots : w .slots = true) (h_history : w .history = true)
    (h : Keeps w k i s) : Keeps w k i (stopBursts x0 s) := by
  unfold stopBursts
  repeat' first
    | with_reducible assumption
    | with_reducible refine discardRemainders_keeps h_counters h_flags h_log h_ports h_bufs h_accounts h_history ?_
    | with_reducible refine fogStopAll_keeps h_counters h_flags h_log h_lanes h_groups h_ports h_bufs h_accounts h_slots h_history ?_
    | with_reducible refine loseDevelopedWhere_keeps h_counters h_flags h_log h_groups h_ports h_bufs h_accounts h_slots h_history ?_

theorem syncChanged_keeps {x0} (h_counters : w .counters = true) (h_flags : w .flags = true) (h_log : w .log = true) (h_lanes : w .lanes = true) (h_groups : w .groups = true) (h_accounts : w .accounts = true) (h_history : w .history = true)
    (h : Keeps w k i s) : Keeps w k i (syncChanged x0 s) := by
  unfold syncChanged
  repeat' first
    | with_reducible assumption
    | (extract_lets +onlyGivenNames y0
       first
       | (refine_lift have hy0 : Keeps w k i y0 := ?_; ?_
          clear_value y0
          revert y0
          intro _ _
          rotate_left
          unfold y0
          clear y0)
       | (try clear_value y0
          revert y0
          intro _))
    | with_reducible refine enterListen_keeps h_counters h_flags h_log h_lanes h_groups h_accounts h_history ?_
    | with_reducible refine followClock_keeps h_groups ?_
    | with_reducible refine listenTest_keeps h_counters h_flags h_log h_groups h_history ?_
    | with_reducible refine Keeps.ite ?_ ?_

theorem defectMarks_keeps {x0 x1 x2 x3 x4 x5} (h_counters : w .counters = true) (h_flags : w .flags = true) (h_log : w .log = true) (h_history : w .history = true)
    (h : Keeps w k i s) : Keeps w k i (defectMarks x0 x1 x2 x3 x4 x5 s) := by
  unfold defectMarks
  repeat' first
    | with_reducible assumption
    | (extract_lets +onlyGivenNames y0
       first
       | (refine_lift have hy0 : Keeps w k i y0 := ?_; ?_
          clear_value y0
          revert y0
          intro _ _
          rotate_left
          unfold y0
          clear y0)
       | (try clear_value y0
          revert y0
          intro _))
    | with_reducible refine count1_keeps h_counters ?_
    | with_reducible refine setFlag_keeps h_counters h_flags h_log h_history ?_
    | with_reducible refine whenB_keeps (fun _ _ => ?_) ?_

theorem refreshLinkFault_keeps {x0} (h_counters : w .counters = true) (h_flags : w .flags = true) (h_log : w .log = true) (h_groups : w .groups = true) (h_history : w .history = true)
    (h : Keeps w k i s) : Keeps w k i (refreshLinkFault x0 s) := by
  unfold refreshLinkFault
  repeat' first
    | with_reducible assumption
    | (extract_lets +onlyGivenNames y0
       first
       | (refine_lift have hy0 : Keeps w k i y0 := ?_; ?_
          clear_value y0
          revert y0
          intro _ _
          rotate_left
          unfold y0
          clear y0)
       | (try clear_value y0
          revert y0
          intro _))
    | with_reducible refine modGroup_keeps h_groups ?_
    | with_reducible refine setFlag_keeps h_counters h_flags h_log h_history ?_
    | with_reducible refine Keeps.ite ?_ ?_

theorem followLinkFault_keeps {x0} (h_counters : w .counters = true) (h_flags : w .flags = true) (h_log : w .log = true) (h_groups : w .groups = true) (h_history : w .history = true)
    (h : Keeps w k i s) : Keeps w k i (followLinkFault x0 s) := by
  unfold followLinkFault
  repeat' first
    | with_reducible assumption
    | with_reducible refine refreshLinkFault_keeps h_counters h_flags h_log h_groups h_history ?_
    | with_reducible refine Keeps.ite ?_ ?_
    | split

theorem enterHoldover_keeps {x0} (h_counters : w .counters = true) (h_flags : w .flags = true) (h_log : w .log = true) (h_lanes : w .lanes = true) (h_groups : w .groups = true) (h_ports : w .ports = true) (h_bufs : w .bufs = true) (h_accounts : w .accounts = true) (h_slots : w .slots = true) (h_history : w .history = true)
    (h : Keeps w k i s) : Keeps w k i (enterHoldover x0 s) := by
  unfold enterHoldover
  repeat' first
    | with_reducible assumption
    | (extract_lets +onlyGivenNames y0
       first
       | (refine_lift have hy0 : Keeps w k i y0 := ?_; ?_
          clear_value y0
          revert y0
          intro _ _
          rotate_left
          unfold y0
          clear y0)
       | (try clear_value y0
          revert y0
          intro _))
    | with_reducible refine discardRemainders_keeps h_counters h_flags h_log h_ports h_bufs h_accounts h_history ?_
    | with_reducible refine fogLaneBursts_keeps h_counters h_flags h_log h_lanes h_groups h_ports h_bufs h_accounts h_slots h_history ?_
    | with_reducible refine loseDevelopedWhere_keeps h_counters h_flags h_log h_groups h_ports h_bufs h_accounts h_slots h_history ?_
    | with_reducible refine modGroup_keeps h_groups ?_
    | with_reducible refine setFlag_keeps h_counters h_flags h_log h_history ?_
    | with_reducible refine foldS_keeps (fun _ _ _ => ?_) ?_

theorem leaveHoldover_keeps {x0} (h_lanes : w .lanes = true) (h_groups : w .groups = true)
    (h : Keeps w k i s) : Keeps w k i (leaveHoldover x0 s) := by
  unfold leaveHoldover
  repeat' first
    | with_reducible assumption
    | with_reducible refine modGroup_keeps h_groups ?_
    | with_reducible refine modLane_keeps h_lanes ?_
    | with_reducible refine foldS_keeps (fun _ _ _ => ?_) ?_

theorem holdoverTest_keeps {x0} (h_counters : w .counters = true) (h_flags : w .flags = true) (h_log : w .log = true) (h_lanes : w .lanes = true) (h_groups : w .groups = true) (h_ports : w .ports = true) (h_bufs : w .bufs = true) (h_accounts : w .accounts = true) (h_slots : w .slots = true) (h_history : w .history = true)
    (h : Keeps w k i s) : Keeps w k i (holdoverTest x0 s) := by
  unfold holdoverTest
  repeat' first
    | with_reducible assumption
    | (extract_lets +onlyGivenNames y0
       first
       | (try clear_value y0
          revert y0
          intro _))
    | with_reducible refine enterHoldover_keeps h_counters h_flags h_log h_lanes h_groups h_ports h_bufs h_accounts h_slots h_history ?_
    | with_reducible refine leaveHoldover_keeps h_lanes h_groups ?_
    | with_reducible refine Keeps.ite ?_ ?_

theorem noteSf_keeps {x0} (h_groups : w .groups = true)
    (h : Keeps w k i s) : Keeps w k i (noteSf x0 s) := by
  unfold noteSf
  repeat' first
    | with_reducible assumption
    | with_reducible refine modGroup_keeps h_groups ?_
    | with_reducible refine Keeps.ite ?_ ?_

theorem changeDefects_keeps {x0 x1} (h_counters : w .counters = true) (h_flags : w .flags = true) (h_log : w .log = true) (h_lanes : w .lanes = true) (h_groups : w .groups = true) (h_ports : w .ports = true) (h_bufs : w .bufs = true) (h_accounts : w .accounts = true) (h_slots : w .slots = true) (h_history : w .history = true)
    (h : Keeps w k i s) : Keeps w k i (changeDefects x0 x1 s) := by
  unfold changeDefects
  repeat' first
    | with_reducible assumption
    | (extract_lets +onlyGivenNames y0
       first
       | (refine_lift have hy0 : Keeps w k i y0 := ?_; ?_
          clear_value y0
          revert y0
          intro _ _
          rotate_left
          unfold y0
          clear y0)
       | (try clear_value y0
          revert y0
          intro _))
    | with_reducible refine defectMarks_keeps h_counters h_flags h_log h_history ?_
    | with_reducible refine followLinkFault_keeps h_counters h_flags h_log h_groups h_history ?_
    | with_reducible refine holdoverTest_keeps h_counters h_flags h_log h_lanes h_groups h_ports h_bufs h_accounts h_slots h_history ?_
    | with_reducible refine modLane_keeps h_lanes ?_
    | with_reducible refine noteSf_keeps h_groups ?_
    | with_reducible refine queueRdi_keeps h_counters h_groups ?_
    | with_reducible refine foldS_keeps (fun _ _ _ => ?_) ?_
    | with_reducible refine Keeps.ite ?_ ?_
    | split

theorem launchPacket_keeps {x0 x1 x2 x3} (h_counters : w .counters = true) (h_rings : w .rings = true) (h_slots : w .slots = true)
    (h : Keeps w k i s) : Keeps w k i (launchPacket x0 x1 x2 x3 s) := by
  unfold launchPacket
  repeat' first
    | with_reducible assumption
    | (extract_lets +onlyGivenNames y0
       first
       | (refine_lift have hy0 : Keeps w k i y0 := ?_; ?_
          clear_value y0
          revert y0
          intro _ _
          rotate_left
          unfold y0
          clear y0)
       | (try clear_value y0
          revert y0
          intro _))
    | with_reducible refine count_keeps h_counters ?_
    | with_reducible refine count1_keeps h_counters ?_
    | with_reducible refine modHalf_keeps h_slots ?_
    | with_reducible refine stampOwed_keeps h_rings ?_
    | with_reducible refine whenB_keeps (fun _ _ => ?_) ?_
    | with_reducible refine Keeps.ite ?_ ?_
    | split

theorem countSent_keeps {x0 x1 x2 x3} (h_counters : w .counters = true) (h_rings : w .rings = true) (h_slots : w .slots = true)
    (h : Keeps w k i s) : Keeps w k i (countSent x0 x1 x2 x3 s) := by
  unfold countSent
  repeat' first
    | with_reducible assumption
    | (extract_lets +onlyGivenNames y0
       first
       | (refine_lift have hy0 : Keeps w k i y0 := ?_; ?_
          clear_value y0
          revert y0
          intro _ _
          rotate_left
          unfold y0
          clear y0)
       | (try clear_value y0
          revert y0
          intro _))
    | with_reducible refine count_keeps h_counters ?_
    | with_reducible refine launchPacket_keeps h_counters h_rings h_slots ?_
    | with_reducible refine foldS_keeps (fun _ _ _ => ?_) ?_

theorem cutBurst_keeps {x0 x1} (h_counters : w .counters = true) (h_flags : w .flags = true) (h_log : w .log = true) (h_rings : w .rings = true) (h_lanes : w .lanes = true) (h_groups : w .groups = true) (h_ports : w .ports = true) (h_bufs : w .bufs = true) (h_accounts : w .accounts = true) (h_slots : w .slots = true) (h_history : w .history = true)
    (h : Keeps w k i s) : Keeps w k i (cutBurst x0 x1 s) := by
  unfold cutBurst
  repeat' first
    | with_reducible assumption
    | (extract_lets +onlyGivenNames y0
       first
       | (refine_lift have hy0 : Keeps w k i y0 := ?_; ?_
          clear_value y0
          revert y0
          intro _ _
          rotate_left
          unfold y0
          clear y0)
       | (try clear_value y0
          revert y0
          intro _))
    | with_reducible refine countSent_keeps h_counters h_rings h_slots ?_
    | with_reducible refine loseDeveloped_keeps h_counters h_flags h_log h_groups h_ports h_bufs h_accounts h_history ?_
    | with_reducible refine modLane_keeps h_lanes ?_
    | with_reducible refine stallTest_keeps h_counters h_flags h_log h_groups h_slots h_history ?_
    | with_reducible refine Keeps.ite ?_ ?_
    | split

theorem truncateBurst_keeps {x0 x1} (h_counters : w .counters = true) (h_flags : w .flags = true) (h_log : w .log = true) (h_rings : w .rings = true) (h_lanes : w .lanes = true) (h_groups : w .groups = true) (h_ports : w .ports = true) (h_bufs : w .bufs = true) (h_accounts : w .accounts = true) (h_slots : w .slots = true) (h_history : w .history = true)
    (h : Keeps w k i s) : Keeps w k i (truncateBurst x0 x1 s) := by
  unfold truncateBurst
  repeat' first
    | with_reducible assumption
    | with_reducible refine count1_keeps h_counters ?_
    | with_reducible refine cutBurst_keeps h_counters h_flags h_log h_rings h_lanes h_groups h_ports h_bufs h_accounts h_slots h_history ?_
    | with_reducible refine whenB_keeps (fun _ _ => ?_) ?_

end Sys2Proof.Machine
end

