-- ==== Sys2Proof/Laws/KeepsTrunk.lean ====
section
/-!
SUPPORT. Laws/KeepsTrunk.lean: one lemma for each operation of Machine/Framing, BurstBody, Ranging, Develop, Grants, Runahead, Defects, Keys:
what it leaves unchanged (see Laws/Keeps.lean).
-/
namespace Sys2Proof.Machine

variable {w : Comp → Bool} {k : Prop} {i s : State}

theorem deliverDown_keeps {x0 x1 x2 x3 x4} (h_counters : w .counters = true) (h_flags : w .flags = true) (h_bridge : w .bridge = true) (h_log : w .log = true) (h_rings : w .rings = true) (h_ports : w .ports = true) (h_ingress : w .ingress = true) (h_bufs : w .bufs = true) (h_fabric : w .fabric = true) (h_history : w .history = true)
    (h : Keeps w k i s) : Keeps w k i (deliverDown x0 x1 x2 x3 x4 s) := by
  unfold deliverDown
  repeat' first
    | with_reducible assumption
    | (extract_lets +onlyGivenNames y0
       first
       | (try clear_value y0
          revert y0
          intro _))
    | (refine allocBuf_keepsE h_counters h_flags h_log h_ports h_bufs h_history (by assumption) ?_)
    | with_reducible refine allocBuf_keeps h_counters h_flags h_log h_ports h_bufs h_history ?_
    | with_reducible refine fabSend_keeps h_counters h_flags h_bridge h_log h_rings h_ports h_bufs h_fabric h_history ?_
    | with_reducible refine receiveFrame_keeps h_counters h_flags h_log h_rings h_ports h_ingress h_bufs h_history ?_
    | with_reducible refine Keeps.ite ?_ ?_
    | split

theorem releaseFront_keeps {x0 x1} (h_counters : w .counters = true) (h_flags : w .flags = true) (h_bridge : w .bridge = true) (h_log : w .log = true) (h_rings : w .rings = true) (h_lanes : w .lanes = true) (h_ports : w .ports = true) (h_ingress : w .ingress = true) (h_bufs : w .bufs = true) (h_fabric : w .fabric = true) (h_history : w .history = true)
    (h : Keeps w k i s) : Keeps w k i (releaseFront x0 x1 s) := by
  unfold releaseFront
  repeat' first
    | with_reducible assumption
    | (extract_lets +onlyGivenNames y0
       first
       | (refine_lift have hy0 : Keeps w k i y0 := ?_; ?_
          clear_value y0
          revert y0
          intro _ _
          rotate_left
          unfold y0
          clear y0)
       | (have hy1 : TrunkAll := y0
          clear hy1
          revert y0
          intro _)
       | (try clear_value y0
          revert y0
          intro _))
    | with_reducible refine deliverDown_keeps h_counters h_flags h_bridge h_log h_rings h_ports h_ingress h_bufs h_fabric h_history ?_
    | with_reducible refine foldS_keeps (fun _ _ _ => ?_) ?_
    | split
    | with_reducible refine Keeps.set_trunk (.inl h_lanes) (.inr rfl) (.inr rfl) ?_

theorem dropTicket_keeps {x0} (h_counters : w .counters = true) (h_flags : w .flags = true) (h_bridge : w .bridge = true) (h_log : w .log = true) (h_rings : w .rings = true) (h_lanes : w .lanes = true) (h_ports : w .ports = true) (h_ingress : w .ingress = true) (h_bufs : w .bufs = true) (h_fabric : w .fabric = true) (h_history : w .history = true)
    (h : Keeps w k i s) : Keeps w k i (dropTicket x0 s) := by
  unfold dropTicket
  repeat' first
    | with_reducible assumption
    | with_reducible refine releaseFront_keeps h_counters h_flags h_bridge h_log h_rings h_lanes h_ports h_ingress h_bufs h_fabric h_history ?_
    | split
    | with_reducible refine Keeps.set_trunk (.inl h_lanes) (.inr rfl) (.inr rfl) ?_

theorem dropCutJobs_keeps {x0} (h_counters : w .counters = true) (h_flags : w .flags = true) (h_bridge : w .bridge = true) (h_log : w .log = true) (h_rings : w .rings = true) (h_lanes : w .lanes = true) (h_ports : w .ports = true) (h_ingress : w .ingress = true) (h_bufs : w .bufs = true) (h_cipher : w .cipher = true) (h_fabric : w .fabric = true) (h_history : w .history = true)
    (h : Keeps w k i s) : Keeps w k i (dropCutJobs x0 s) := by
  unfold dropCutJobs
  repeat' first
    | with_reducible assumption
    | (extract_lets +onlyGivenNames y0
       first
       | (refine_lift have hy0 : Keeps w k i y0 := ?_; ?_
          clear_value y0
          revert y0
          intro _ _
          rotate_left
          unfold y0
          clear y0)
       | (have hy1 : CryptoAll := y0
          clear hy1
          revert y0
          intro _)
       | (try clear_value y0
          revert y0
          intro _))
    | with_reducible refine dropTicket_keeps h_counters h_flags h_bridge h_log h_rings h_lanes h_ports h_ingress h_bufs h_fabric h_history ?_
    | with_reducible refine modLane_keeps h_lanes ?_
    | with_reducible refine foldS_keeps (fun _ _ _ => ?_) ?_
    | with_reducible refine Keeps.set_crypto (.inr rfl) (.inr rfl) (.inl h_cipher) ?_

theorem openSettle_keeps {x0} (h_lanes : w .lanes = true)
    (h : Keeps w k i s) : Keeps w k i (openSettle x0 s) := by
  unfold openSettle
  repeat' first
    | with_reducible assumption
    | with_reducible refine modLane_keeps h_lanes ?_

theorem abortContexts_keeps {x0} (h_counters : w .counters = true) (h_flags : w .flags = true) (h_bridge : w .bridge = true) (h_log : w .log = true) (h_rings : w .rings = true) (h_lanes : w .lanes = true) (h_ports : w .ports = true) (h_ingress : w .ingress = true) (h_bufs : w .bufs = true) (h_cipher : w .cipher = true) (h_fabric : w .fabric = true) (h_history : w .history = true)
    (h : Keeps w k i s) : Keeps w k i (abortContexts x0 s) := by
  unfold abortContexts
  repeat' first
    | with_reducible assumption
    | (extract_lets +onlyGivenNames y0
       first
       | (refine_lift have hy0 : Keeps w k i y0 := ?_; ?_
          clear_value y0
          revert y0
          intro _ _
          rotate_left
          unfold y0
          clear y0)
       | (try clear_value y0
          revert y0
          intro _))
    | with_reducible refine count_keeps h_counters ?_
    | with_reducible refine dropCutJobs_keeps h_counters h_flags h_bridge h_log h_rings h_lanes h_ports h_ingress h_bufs h_cipher h_fabric h_history ?_
    | with_reducible refine dropTicket_keeps h_counters h_flags h_bridge h_log h_rings h_lanes h_ports h_ingress h_bufs h_fabric h_history ?_
    | with_reducible refine modLane_keeps h_lanes ?_
    | with_reducible refine openSettle_keeps h_lanes ?_
    | with_reducible refine foldS_keeps (fun _ _ _ => ?_) ?_

theorem droppedHeader_keeps {x0 x1} (h_counters : w .counters = true) (h_lanes : w .lanes = true)
    (h : Keeps w k i s) : Keeps w k i (droppedHeader x0 x1 s) := by
  unfold droppedHeader
  repeat' first
    | with_reducible assumption
    | (extract_lets +onlyGivenNames y0
       first
       | (refine_lift have hy0 : Keeps w k i y0 := ?_; ?_
          clear_value y0
          revert y0
          intro _ _
          rotate_left
          unfold y0
          clear y0)
       | (try clear_value y0
          revert y0
          intro _))
    | with_reducible refine count1_keeps h_counters ?_
    | with_reducible refine modLane_keeps h_lanes ?_
    | with_reducible refine whenB_keeps (fun _ _ => ?_) ?_
    | with_reducible refine Keeps.ite ?_ ?_
    | split

theorem newCtx_keeps {x0 x1 x2 x3 x4 x5 x6} (h_lanes : w .lanes = true)
    (h : Keeps w k i s) : Keeps w k i (newCtx x0 x1 x2 x3 x4 x5 x6 s) := by
  unfold newCtx
  repeat' first
    | with_reducible assumption
    | with_reducible refine modLane_keeps h_lanes ?_

theorem openTicket_keeps {x0 x1} (h_lanes : w .lanes = true)
    (h : Keeps w k i s) : Keeps w k i (openTicket x0 x1 s) := by
  unfold openTicket
  repeat' first
    | with_reducible assumption
    | with_reducible refine Keeps.set_trunk (.inl h_lanes) (.inr rfl) (.inr rfl) ?_

theorem pushJob_keeps {x0 x1 x2 x3 x4 x5 x6} (h_counters : w .counters = true) (h_flags : w .flags = true) (h_log : w .log = true) (h_groups : w .groups = true) (h_slots : w .slots = true) (h_cipher : w .cipher = true) (h_history : w .history = true)
    (h : Keeps w k i s) : Keeps w k i (pushJob x0 x1 x2 x3 x4 x5 x6 s) := by
  unfold pushJob
  repeat' first
    | with_reducible assumption
    | (extract_lets +onlyGivenNames y0
       first
       | (refine_lift have hy0 : Keeps w k i y0 := ?_; ?_
          clear_value y0
          revert y0
          intro _ _
          rotate_left
          unfold y0
          clear y0)
       | (have hy1 : CryptoAll := y0
          clear hy1
          revert y0
          intro _)
       | (try clear_value y0
          revert y0
          intro _))
    | with_reducible refine consume_keeps h_counters h_flags h_log h_groups h_slots h_history ?_
    | with_reducible refine count_keeps h_counters ?_
    | with_reducible refine Keeps.ite ?_ ?_
    | split
    | with_reducible refine Keeps.set_crypto (.inr rfl) (.inr rfl) (.inl h_cipher) ?_

theorem retireOverrun_keeps {x1 x2} (h_counters : w .counters = true) (h_flags : w .flags = true) (h_log : w .log = true) (h_slots : w .slots = true) (h_history : w .history = true)
    (h : Keeps w k i s) : Keeps w k i (retireOverrun s x1 x2) := by
  unfold retireOverrun
  repeat' first
    | with_reducible assumption
    | with_reducible refine retireHalf_keeps h_counters h_flags h_log h_slots h_history ?_
    | with_reducible refine Keeps.ite ?_ ?_
    | split

theorem firstFragment_keeps {x0 x1 x2 x3 x4} (h_counters : w .counters = true) (h_flags : w .flags = true) (h_log : w .log = true) (h_lanes : w .lanes = true) (h_groups : w .groups = true) (h_slots : w .slots = true) (h_cipher : w .cipher = true) (h_history : w .history = true)
    (h : Keeps w k i s) : Keeps w k i (firstFragment x0 x1 x2 x3 x4 s) := by
  unfold firstFragment
  repeat' first
    | with_reducible assumption
    | (extract_lets +onlyGivenNames y0
       first
       | (refine_lift have hy0 : Keeps w k i y0 := ?_; ?_
          clear_value y0
          revert y0
          intro _ _
          rotate_left
          unfold y0
          clear y0)
       | (try clear_value y0
          revert y0
          intro _))
    | with_reducible refine count1_keeps h_counters ?_
    | with_reducible refine modLane_keeps h_lanes ?_
    | with_reducible refine newCtx_keeps h_lanes ?_
    | with_reducible refine openTicket_keeps h_lanes ?_
    | with_reducible refine pushJob_keeps h_counters h_flags h_log h_groups h_slots h_cipher h_history ?_
    | with_reducible refine retireOverrun_keeps h_counters h_flags h_log h_slots h_history ?_
    | with_reducible refine Keeps.ite ?_ ?_
    | split

theorem closeCtx_keeps {x0 x1} (h_lanes : w .lanes = true)
    (h : Keeps w k i s) : Keeps w k i (closeCtx x0 x1 s) := by
  unfold closeCtx
  repeat' first
    | with_reducible assumption
    | with_reducible refine modLane_keeps h_lanes ?_

theorem giveUpCtx_keeps {x0 x1} (h_counters : w .counters = true) (h_flags : w .flags = true) (h_bridge : w .bridge = true) (h_log : w .log = true) (h_rings : w .rings = true) (h_lanes : w .lanes = true) (h_ports : w .ports = true) (h_ingress : w .ingress = true) (h_bufs : w .bufs = true) (h_fabric : w .fabric = true) (h_history : w .history = true)
    (h : Keeps w k i s) : Keeps w k i (giveUpCtx x0 x1 s) := by
  unfold giveUpCtx
  repeat' first
    | with_reducible assumption
    | with_reducible refine dropTicket_keeps h_counters h_flags h_bridge h_log h_rings h_lanes h_ports h_ingress h_bufs h_fabric h_history ?_
    | split

theorem modCtx_keeps {x0 x1 x2} (h_lanes : w .lanes = true)
    (h : Keeps w k i s) : Keeps w k i (modCtx x0 x1 x2 s) := by
  unfold modCtx
  repeat' first
    | with_reducible assumption
    | with_reducible refine modLane_keeps h_lanes ?_
    | with_reducible refine Keeps.ite ?_ ?_
    | split

theorem discardCtx_keeps {x0 x1} (h_counters : w .counters = true) (h_flags : w .flags = true) (h_bridge : w .bridge = true) (h_log : w .log = true) (h_rings : w .rings = true) (h_lanes : w .lanes = true) (h_ports : w .ports = true) (h_ingress : w .ingress = true) (h_bufs : w .bufs = true) (h_fabric : w .fabric = true) (h_history : w .history = true)
    (h : Keeps w k i s) : Keeps w k i (discardCtx x0 x1 s) := by
  unfold discardCtx
  repeat' first
    | with_reducible assumption
    | with_reducible refine giveUpCtx_keeps h_counters h_flags h_bridge h_log h_rings h_lanes h_ports h_ingress h_bufs h_fabric h_history ?_
    | with_reducible refine modCtx_keeps h_lanes ?_

theorem dropCtx_keeps {x0 x1} (h_lanes : w .lanes = true)
    (h : Keeps w k i s) : Keeps w k i (dropCtx x0 x1 s) := by
  unfold dropCtx
  repeat' first
    | with_reducible assumption
    | with_reducible refine modLane_keeps h_lanes ?_

theorem freeCtx_keeps {x0 x1} (h_counters : w .counters = true) (h_flags : w .flags = true) (h_bridge : w .bridge = true) (h_log : w .log = true) (h_rings : w .rings = true) (h_lanes : w .lanes = true) (h_ports : w .ports = true) (h_ingress : w .ingress = true) (h_bufs : w .bufs = true) (h_fabric : w .fabric = true) (h_history : w .history = true)
    (h : Keeps w k i s) : Keeps w k i (freeCtx x0 x1 s) := by
  unfold freeCtx
  repeat' first
    | with_reducible assumption
    | with_reducible refine dropCtx_keeps h_lanes ?_
    | with_reducible refine giveUpCtx_keeps h_counters h_flags h_bridge h_log h_rings h_lanes h_ports h_ingress h_bufs h_fabric h_history ?_

theorem nextFragment_keeps {x0 x1 x2 x3} (h_counters : w .counters = true) (h_flags : w .flags = true) (h_bridge : w .bridge = true) (h_log : w .log = true) (h_rings : w .rings = true) (h_lanes : w .lanes = true) (h_groups : w .groups = true) (h_ports : w .ports = true) (h_ingress : w .ingress = true) (h_bufs : w .bufs = true) (h_slots : w .slots = true) (h_cipher : w .cipher = true) (h_fabric : w .fabric = true) (h_history : w .history = true)
    (h : Keeps w k i s) : Keeps w k i (nextFragment x0 x1 x2 x3 s) := by
  unfold nextFragment
  repeat' first
    | with_reducible assumption
    | (extract_lets +onlyGivenNames y0
       first
       | (refine_lift have hy0 : Keeps w k i y0 := ?_; ?_
          clear_value y0
          revert y0
          intro _ _
          rotate_left
          unfold y0
          clear y0)
       | (try clear_value y0
          revert y0
          intro _))
    | with_reducible refine closeCtx_keeps h_lanes ?_
    | with_reducible refine count1_keeps h_counters ?_
    | with_reducible refine discardCtx_keeps h_counters h_flags h_bridge h_log h_rings h_lanes h_ports h_ingress h_bufs h_fabric h_history ?_
    | with_reducible refine freeCtx_keeps h_counters h_flags h_bridge h_log h_rings h_lanes h_ports h_ingress h_bufs h_fabric h_history ?_
    | with_reducible refine pushJob_keeps h_counters h_flags h_log h_groups h_slots h_cipher h_history ?_
    | with_reducible refine retireOverrun_keeps h_counters h_flags h_log h_slots h_history ?_
    | with_reducible refine Keeps.ite ?_ ?_
    | split

theorem standbyHeader_keeps {x0 x1 x2} (h_counters : w .counters = true) (h_lanes : w .lanes = true)
    (h : Keeps w k i s) : Keeps w k i (standbyHeader x0 x1 x2 s) := by
  unfold standbyHeader
  repeat' first
    | with_reducible assumption
    | with_reducible refine count1_keeps h_counters ?_
    | with_reducible refine modLane_keeps h_lanes ?_
    | with_reducible refine Keeps.ite ?_ ?_
    | split

theorem keptHeader_keeps {x0 x1 x2 x3 x4} (h_counters : w .counters = true) (h_flags : w .flags = true) (h_bridge : w .bridge = true) (h_log : w .log = true) (h_rings : w .rings = true) (h_lanes : w .lanes = true) (h_groups : w .groups = true) (h_ports : w .ports = true) (h_ingress : w .ingress = true) (h_bufs : w .bufs = true) (h_slots : w .slots = true) (h_cipher : w .cipher = true) (h_fabric : w .fabric = true) (h_history : w .history = true)
    (h : Keeps w k i s) : Keeps w k i (keptHeader x0 x1 x2 x3 x4 s) := by
  unfold keptHeader
  repeat' first
    | with_reducible assumption
    | (extract_lets +onlyGivenNames y0
       first
       | (refine_lift have hy0 : Keeps w k i y0 := ?_; ?_
          clear_value y0
          revert y0
          intro _ _
          rotate_left
          unfold y0
          clear y0)
       | (try clear_value y0
          revert y0
          intro _))
    | with_reducible refine count_keeps h_counters ?_
    | with_reducible refine count1_keeps h_counters ?_
    | with_reducible refine droppedHeader_keeps h_counters h_lanes ?_
    | with_reducible refine firstFragment_keeps h_counters h_flags h_log h_lanes h_groups h_slots h_cipher h_history ?_
    | with_reducible refine modLane_keeps h_lanes ?_
    | with_reducible refine nextFragment_keeps h_counters h_flags h_bridge h_log h_rings h_lanes h_groups h_ports h_ingress h_bufs h_slots h_cipher h_fabric h_history ?_
    | with_reducible refine standbyHeader_keeps h_counters h_lanes ?_
    | with_reducible refine Keeps.ite ?_ ?_
    | split

theorem dataHeader_keeps {x0 x1 x2} (h_counters : w .counters = true) (h_flags : w .flags = true) (h_bridge : w .bridge = true) (h_log : w .log = true) (h_rings : w .rings = true) (h_lanes : w .lanes = true) (h_groups : w .groups = true) (h_ports : w .ports = true) (h_ingress : w .ingress = true) (h_bufs : w .bufs = true) (h_slots : w .slots = true) (h_cipher : w .cipher = true) (h_fabric : w .fabric = true) (h_history : w .history = true)
    (h : Keeps w k i s) : Keeps w k i (dataHeader x0 x1 x2 s) := by
  unfold dataHeader
  repeat' first
    | with_reducible assumption
    | with_reducible refine count_keeps h_counters ?_
    | with_reducible refine count1_keeps h_counters ?_
    | with_reducible refine keptHeader_keeps h_counters h_flags h_bridge h_log h_rings h_lanes h_groups h_ports h_ingress h_bufs h_slots h_cipher h_fabric h_history ?_
    | with_reducible refine Keeps.ite ?_ ?_
    | split

theorem oamPayload_keeps {x0 x1} (h_lanes : w .lanes = true)
    (h : Keeps w k i s) : Keeps w k i (oamPayload x0 x1 s) := by
  unfold oamPayload
  repeat' first
    | with_reducible assumption
    | (extract_lets +onlyGivenNames y0
       first
       | (refine_lift have hy0 : Keeps w k i y0 := ?_; ?_
          clear_value y0
          revert y0
          intro _ _
          rotate_left
          unfold y0
          clear y0)
       | (try clear_value y0
          revert y0
          intro _))
    | with_reducible refine modLane_keeps h_lanes ?_
    | with_reducible refine Keeps.ite ?_ ?_
    | split

theorem acceptHeader_keeps {x0 x1 x2} (h_counters : w .counters = true) (h_flags : w .flags = true) (h_bridge : w .bridge = true) (h_log : w .log = true) (h_rings : w .rings = true) (h_lanes : w .lanes = true) (h_groups : w .groups = true) (h_ports : w .ports = true) (h_ingress : w .ingress = true) (h_bufs : w .bufs = true) (h_slots : w .slots = true) (h_cipher : w .cipher = true) (h_fabric : w .fabric = true) (h_history : w .history = true)
    (h : Keeps w k i s) : Keeps w k i (acceptHeader x0 x1 x2 s) := by
  unfold acceptHeader
  repeat' first
    | with_reducible assumption
    | (extract_lets +onlyGivenNames y0
       first
       | (refine_lift have hy0 : Keeps w k i y0 := ?_; ?_
          clear_value y0
          revert y0
          intro _ _
          rotate_left
          unfold y0
          clear y0)
       | (try clear_value y0
          revert y0
          intro _))
    | with_reducible refine count_keeps h_counters ?_
    | with_reducible refine count1_keeps h_counters ?_
    | with_reducible refine dataHeader_keeps h_counters h_flags h_bridge h_log h_rings h_lanes h_groups h_ports h_ingress h_bufs h_slots h_cipher h_fabric h_history ?_
    | with_reducible refine modLane_keeps h_lanes ?_
    | with_reducible refine oamPayload_keeps h_lanes ?_
    | with_reducible refine Keeps.ite ?_ ?_
    | split

theorem loseDelineation_keeps {x0} (h_counters : w .counters = true) (h_flags : w .flags = true) (h_bridge : w .bridge = true) (h_log : w .log = true) (h_rings : w .rings = true) (h_lanes : w .lanes = true) (h_ports : w .ports = true) (h_ingress : w .ingress = true) (h_bufs : w .bufs = true) (h_cipher : w .cipher = true) (h_fabric : w .fabric = true) (h_history : w .history = true)
    (h : Keeps w k i s) : Keeps w k i (loseDelineation x0 s) := by
  unfold loseDelineation
  repeat' first
    | with_reducible assumption
    | with_reducible refine abortContexts_keeps h_counters h_flags h_bridge h_log h_rings h_lanes h_ports h_ingress h_bufs h_cipher h_fabric h_history ?_
    | with_reducible refine modLane_keeps h_lanes ?_
    | with_reducible refine setFlag_keeps h_counters h_flags h_log h_history ?_

theorem checkPtr_keeps {x0 x1 x2} (h_counters : w .counters = true) (h_flags : w .flags = true) (h_bridge : w .bridge = true) (h_log : w .log = true) (h_rings : w .rings = true) (h_lanes : w .lanes = true) (h_ports : w .ports = true) (h_ingress : w .ingress = true) (h_bufs : w .bufs = true) (h_cipher : w .cipher = true) (h_fabric : w .fabric = true) (h_history : w .history = true)
    (h : Keeps w k i s) : Keeps w k i (checkPtr x0 x1 x2 s) := by
  unfold checkPtr
  repeat' first
    | with_reducible assumption
    | (extract_lets +onlyGivenNames y0
       first
       | (refine_lift have hy0 : Keeps w k i y0 := ?_; ?_
          clear_value y0
          revert y0
          intro _ _
          rotate_left
          unfold y0
          clear y0)
       | (try clear_value y0
          revert y0
          intro _))
    | with_reducible refine abortContexts_keeps h_counters h_flags h_bridge h_log h_rings h_lanes h_ports h_ingress h_bufs h_cipher h_fabric h_history ?_
    | with_reducible refine count1_keeps h_counters ?_
    | with_reducible refine loseDelineation_keeps h_counters h_flags h_bridge h_log h_rings h_lanes h_ports h_ingress h_bufs h_cipher h_fabric h_history ?_
    | with_reducible refine modLane_keeps h_lanes ?_
    | with_reducible refine openSettle_keeps h_lanes ?_
    | with_reducible refine setFlag_keeps h_counters h_flags h_log h_history ?_
    | with_reducible refine Keeps.ite ?_ ?_

theorem continuePacket_keeps {x0} (h_lanes : w .lanes = true) (h_cipher : w .cipher = true)
    (h : Keeps w k i s) : Keeps w k i (continuePacket x0 s) := by
  unfold continuePacket
  repeat' first
    | with_reducible assumption
    | (extract_lets +onlyGivenNames y0
       first
       | (refine_lift have hy0 : Keeps w k i y0 := ?_; ?_
          clear_value y0
          revert y0
          intro _ _
          rotate_left
          unfold y0
          clear y0)
       | (have hy1 : CryptoAll := y0
          clear hy1
          revert y0
          intro _)
       | (try clear_value y0
          revert y0
          intro _))
    | with_reducible refine modLane_keeps h_lanes ?_
    | with_reducible refine Keeps.ite ?_ ?_
    | split
    | with_reducible refine Keeps.set_crypto (.inr rfl) (.inr rfl) (.inl h_cipher) ?_

theorem moveSelector_keeps {x0} (h_lanes : w .lanes = true) (h_groups : w .groups = true)
    (h : Keeps w k i s) : Keeps w k i (moveSelector x0 s) := by
  unfold moveSelector
  repeat' first
    | with_reducible assumption
    | with_reducible refine modGroup_keeps h_groups ?_
    | with_reducible refine openSettle_keeps h_lanes ?_
    | with_reducible refine foldS_keeps (fun _ _ _ => ?_) ?_
    | with_reducible refine Keeps.ite ?_ ?_
    | split

theorem restamp_keeps {x0 x1 x2} (h_counters : w .counters = true) (h_flags : w .flags = true) (h_log : w .log = true) (h_lanes : w .lanes = true) (h_groups : w .groups = true) (h_ports : w .ports = true) (h_bufs : w .bufs = true) (h_accounts : w .accounts = true) (h_slots : w .slots = true) (h_history : w .history = true)
    (h : Keeps w k i s) : Keeps w k i (restamp x0 x1 x2 s) := by
  unfold restamp
  repeat' first
    | with_reducible assumption
    | (extract_lets +onlyGivenNames y0
       first
       | (refine_lift have hy0 : Keeps w k i y0 := ?_; ?_
          clear_value y0
          revert y0
          intro _ _
          rotate_left
          unfold y0
          clear y0)
       | (try clear_value y0
          revert y0
          intro _))
    | with_reducible refine fog_keeps h_counters h_flags h_log h_lanes h_groups h_ports h_bufs h_accounts h_slots h_history ?_
    | with_reducible refine modGroup_keeps h_groups ?_

theorem stampSwitches_keeps {x0 x1 x2 x3} (h_counters : w .counters = true) (h_flags : w .flags = true) (h_log : w .log = true) (h_lanes : w .lanes = true) (h_groups : w .groups = true) (h_ports : w .ports = true) (h_bufs : w .bufs = true) (h_accounts : w .accounts = true) (h_slots : w .slots = true) (h_history : w .history = true)
    (h : Keeps w k i s) : Keeps w k i (stampSwitches x0 x1 x2 x3 s) := by
  unfold stampSwitches
  repeat' first
    | with_reducible assumption
    | with_reducible refine fogKeyBursts_keeps h_counters h_flags h_log h_lanes h_groups h_ports h_bufs h_accounts h_slots h_history ?_
    | with_reducible refine modSlot_keeps h_slots ?_
    | with_reducible refine foldS_keeps (fun _ _ _ => ?_) ?_
    | with_reducible refine Keeps.ite ?_ ?_
    | split

theorem stampFrame_keeps {x0 x1 x2 x3 x4} (h_counters : w .counters = true) (h_flags : w .flags = true) (h_log : w .log = true) (h_lanes : w .lanes = true) (h_groups : w .groups = true) (h_ports : w .ports = true) (h_bufs : w .bufs = true) (h_accounts : w .accounts = true) (h_slots : w .slots = true) (h_history : w .history = true)
    (h : Keeps w k i s) : Keeps w k i (stampFrame x0 x1 x2 x3 x4 s) := by
  unfold stampFrame
  repeat' first
    | with_reducible assumption
    | (extract_lets +onlyGivenNames y0
       first
       | (refine_lift have hy0 : Keeps w k i y0 := ?_; ?_
          clear_value y0
          revert y0
          intro _ _
          rotate_left
          unfold y0
          clear y0)
       | (try clear_value y0
          revert y0
          intro _))
    | with_reducible refine fogLaneBursts_keeps h_counters h_flags h_log h_lanes h_groups h_ports h_bufs h_accounts h_slots h_history ?_
    | with_reducible refine modLane_keeps h_lanes ?_
    | with_reducible refine restamp_keeps h_counters h_flags h_log h_lanes h_groups h_ports h_bufs h_accounts h_slots h_history ?_
    | with_reducible refine stampSwitches_keeps h_counters h_flags h_log h_lanes h_groups h_ports h_bufs h_accounts h_slots h_history ?_
    | with_reducible refine Keeps.ite ?_ ?_

theorem beginFrame_keeps {x0 x1 x2 x3} (h_counters : w .counters = true) (h_flags : w .flags = true) (h_bridge : w .bridge = true) (h_log : w .log = true) (h_rings : w .rings = true) (h_lanes : w .lanes = true) (h_groups : w .groups = true) (h_ports : w .ports = true) (h_ingress : w .ingress = true) (h_bufs : w .bufs = true) (h_accounts : w .accounts = true) (h_slots : w .slots = true) (h_cipher : w .cipher = true) (h_fabric : w .fabric = true) (h_history : w .history = true)
    (h : Keeps w k i s) : Keeps w k i (beginFrame x0 x1 x2 x3 s) := by
  unfold beginFrame
  repeat' first
    | with_reducible assumption
    | (extract_lets +onlyGivenNames y0
       first
       | (refine_lift have hy0 : Keeps w k i y0 := ?_; ?_
          clear_value y0
          revert y0
          intro _ _
          rotate_left
          unfold y0
          clear y0)
       | (try clear_value y0
          revert y0
          intro _))
    | with_reducible refine checkPtr_keeps h_counters h_flags h_bridge h_log h_rings h_lanes h_ports h_ingress h_bufs h_cipher h_fabric h_history ?_
    | with_reducible refine continuePacket_keeps h_lanes h_cipher ?_
    | with_reducible refine count1_keeps h_counters ?_
    | with_reducible refine modLane_keeps h_lanes ?_
    | with_reducible refine moveSelector_keeps h_lanes h_groups ?_
    | with_reducible refine stampFrame_keeps h_counters h_flags h_log h_lanes h_groups h_ports h_bufs h_accounts h_slots h_history ?_
    | with_reducible refine whenB_keeps (fun _ _ => ?_) ?_
    | with_reducible refine Keeps.ite ?_ ?_
    | split

theorem bipVerdict_keeps {x0 x1} (h_counters : w .counters = true) (h_lanes : w .lanes = true)
    (h : Keeps w k i s) : Keeps w k i (bipVerdict x0 x1 s) := by
  unfold bipVerdict
  repeat' first
    | with_reducible assumption
    | (extract_lets +onlyGivenNames y0
       first
       | (refine_lift have hy0 : Keeps w k i y0 := ?_; ?_
          clear_value y0
          revert y0
          intro _ _
          rotate_left
          unfold y0
          clear y0)
       | (try clear_value y0
          revert y0
          intro _))
    | with_reducible refine count_keeps h_counters ?_
    | with_reducible refine count1_keeps h_counters ?_
    | with_reducible refine modLane_keeps h_lanes ?_
    | with_reducible refine Keeps.ite ?_ ?_
    | split

theorem leaveSync_keeps {x0 x1} (h_counters : w .counters = true) (h_flags : w .flags = true) (h_bridge : w .bridge = true) (h_log : w .log = true) (h_rings : w .rings = true) (h_lanes : w .lanes = true) (h_groups : w .groups = true) (h_ports : w .ports = true) (h_ingress : w .ingress = true) (h_bufs : w .bufs = true) (h_accounts : w .accounts = true) (h_cipher : w .cipher = true) (h_fabric : w .fabric = true) (h_history : w .history = true)
    (h : Keeps w k i s) : Keeps w k i (leaveSync x0 x1 s) := by
  unfold leaveSync
  repeat' first
    | with_reducible assumption
    | (extract_lets +onlyGivenNames y0
       first
       | (refine_lift have hy0 : Keeps w k i y0 := ?_; ?_
          clear_value y0
          revert y0
          intro _ _
          rotate_left
          unfold y0
          clear y0)
       | (try clear_value y0
          revert y0
          intro _))
    | with_reducible refine loseDelineation_keeps h_counters h_flags h_bridge h_log h_rings h_lanes h_ports h_ingress h_bufs h_cipher h_fabric h_history ?_
    | with_reducible refine modLane_keeps h_lanes ?_
    | with_reducible refine syncChanged_keeps h_counters h_flags h_log h_lanes h_groups h_accounts h_history ?_
    | with_reducible refine Keeps.ite ?_ ?_
    | split

theorem loseBlockLock_keeps {x0} (h_counters : w .counters = true) (h_flags : w .flags = true) (h_bridge : w .bridge = true) (h_log : w .log = true) (h_rings : w .rings = true) (h_lanes : w .lanes = true) (h_groups : w .groups = true) (h_ports : w .ports = true) (h_ingress : w .ingress = true) (h_bufs : w .bufs = true) (h_accounts : w .accounts = true) (h_cipher : w .cipher = true) (h_fabric : w .fabric = true) (h_history : w .history = true)
    (h : Keeps w k i s) : Keeps w k i (loseBlockLock x0 s) := by
  unfold loseBlockLock
  repeat' first
    | with_reducible assumption
    | (extract_lets +onlyGivenNames y0
       first
       | (refine_lift have hy0 : Keeps w k i y0 := ?_; ?_
          clear_value y0
          revert y0
          intro _ _
          rotate_left
          unfold y0
          clear y0)
       | (try clear_value y0
          revert y0
          intro _))
    | with_reducible refine leaveSync_keeps h_counters h_flags h_bridge h_log h_rings h_lanes h_groups h_ports h_ingress h_bufs h_accounts h_cipher h_fabric h_history ?_
    | with_reducible refine modLane_keeps h_lanes ?_
    | with_reducible refine setFlag_keeps h_counters h_flags h_log h_history ?_
    | with_reducible refine Keeps.ite ?_ ?_

theorem blockLockLostEffect_keeps {x0 x1} (h_counters : w .counters = true) (h_flags : w .flags = true) (h_bridge : w .bridge = true) (h_log : w .log = true) (h_rings : w .rings = true) (h_lanes : w .lanes = true) (h_groups : w .groups = true) (h_ports : w .ports = true) (h_ingress : w .ingress = true) (h_bufs : w .bufs = true) (h_accounts : w .accounts = true) (h_cipher : w .cipher = true) (h_fabric : w .fabric = true) (h_history : w .history = true) (h_pins : w .pins = true)
    (h : Keeps w k i s) : Keeps w k i (blockLockLostEffect x0 x1 s) := by
  unfold blockLockLostEffect
  repeat' first
    | with_reducible assumption
    | (extract_lets +onlyGivenNames y0
       first
       | (refine_lift have hy0 : Keeps w k i y0 := ?_; ?_
          clear_value y0
          revert y0
          intro _ _
          rotate_left
          unfold y0
          clear y0)
       | (try clear_value y0
          revert y0
          intro _))
    | with_reducible refine loseBlockLock_keeps h_counters h_flags h_bridge h_log h_rings h_lanes h_groups h_ports h_ingress h_bufs h_accounts h_cipher h_fabric h_history ?_
    | with_reducible refine Keeps.ite ?_ ?_
    | split
    | with_reducible refine Keeps.set_pins h_pins ?_

theorem blockLockWindowEffect_keeps {x0 x1} (h_counters : w .counters = true) (h_flags : w .flags = true) (h_bridge : w .bridge = true) (h_log : w .log = true) (h_rings : w .rings = true) (h_lanes : w .lanes = true) (h_groups : w .groups = true) (h_ports : w .ports = true) (h_ingress : w .ingress = true) (h_bufs : w .bufs = true) (h_accounts : w .accounts = true) (h_cipher : w .cipher = true) (h_fabric : w .fabric = true) (h_history : w .history = true)
    (h : Keeps w k i s) : Keeps w k i (blockLockWindowEffect x0 x1 s) := by
  unfold blockLockWindowEffect
  repeat' first
    | with_reducible assumption
    | (extract_lets +onlyGivenNames y0
       first
       | (try clear_value y0
          revert y0
          intro _))
    | with_reducible refine loseBlockLock_keeps h_counters h_flags h_bridge h_log h_rings h_lanes h_groups h_ports h_ingress h_bufs h_accounts h_cipher h_fabric h_history ?_
    | with_reducible refine modLane_keeps h_lanes ?_
    | with_reducible refine Keeps.ite ?_ ?_
    | split

theorem countAis_keeps {x0 x1} (h_counters : w .counters = true) (h_flags : w .flags = true) (h_log : w .log = true) (h_lanes : w .lanes = true) (h_groups : w .groups = true) (h_ports : w .ports = true) (h_bufs : w .bufs = true) (h_accounts : w .accounts = true) (h_slots : w .slots = true) (h_history : w .history = true)
    (h : Keeps w k i s) : Keeps w k i (countAis x0 x1 s) := by
  unfold countAis
  repeat' first
    | with_reducible assumption
    | (extract_lets +onlyGivenNames y0
       first
       | (try clear_value y0
          revert y0
          intro _))
    | with_reducible refine changeDefects_keeps h_counters h_flags h_log h_lanes h_groups h_ports h_bufs h_accounts h_slots h_history ?_
    | with_reducible refine modLane_keeps h_lanes ?_
    | with_reducible refine Keeps.ite ?_ ?_

theorem checkHeader_keeps {x0 x1} (h_counters : w .counters = true) (h_flags : w .flags = true) (h_log : w .log = true) (h_lanes : w .lanes = true) (h_groups : w .groups = true) (h_ports : w .ports = true) (h_bufs : w .bufs = true) (h_accounts : w .accounts = true) (h_slots : w .slots = true) (h_history : w .history = true)
    (h : Keeps w k i s) : Keeps w k i (checkHeader x0 x1 s) := by
  unfold checkHeader
  repeat' first
    | with_reducible assumption
    | (extract_lets +onlyGivenNames y0
       first
       | (refine_lift have hy0 : Keeps w k i y0 := ?_; ?_
          clear_value y0
          revert y0
          intro _ _
          rotate_left
          unfold y0
          clear y0)
       | (try clear_value y0
          revert y0
          intro _))
    | with_reducible refine count_keeps h_counters ?_
    | with_reducible refine count1_keeps h_counters ?_
    | with_reducible refine countAis_keeps h_counters h_flags h_log h_lanes h_groups h_ports h_bufs h_accounts h_slots h_history ?_
    | with_reducible refine modLane_keeps h_lanes ?_
    | with_reducible refine setFlag_keeps h_counters h_flags h_log h_history ?_
    | with_reducible refine whenB_keeps (fun _ _ => ?_) ?_
    | with_reducible refine Keeps.ite ?_ ?_
    | split

theorem renumberLane_keeps {x0 x1 x2} (h_counters : w .counters = true) (h_flags : w .flags = true) (h_log : w .log = true) (h_lanes : w .lanes = true) (h_groups : w .groups = true) (h_ports : w .ports = true) (h_bufs : w .bufs = true) (h_accounts : w .accounts = true) (h_slots : w .slots = true) (h_history : w .history = true)
    (h : Keeps w k i s) : Keeps w k i (renumberLane x0 x1 x2 s) := by
  unfold renumberLane
  repeat' first
    | with_reducible assumption
    | (extract_lets +onlyGivenNames y0
       first
       | (refine_lift have hy0 : Keeps w k i y0 := ?_; ?_
          clear_value y0
          revert y0
          intro _ _
          rotate_left
          unfold y0
          clear y0)
       | (refine_lift have hy0 : KeepsDone w k i y0 := ?_; ?_
          clear_value y0
          revert y0
          intro _ _
          rotate_left
          unfold y0
          clear y0)
       | (try clear_value y0
          revert y0
          intro _))
    | with_reducible refine count_keeps h_counters ?_
    | with_reducible refine loseDevelopedWhere_keeps h_counters h_flags h_log h_groups h_ports h_bufs h_accounts h_slots h_history ?_
    | with_reducible refine modGroup_keeps h_groups ?_
    | with_reducible refine modLane_keeps h_lanes ?_
    | with_reducible refine setFlag_keeps h_counters h_flags h_log h_history ?_
    | with_reducible refine whenB_keeps (fun _ _ => ?_) ?_
    | with_reducible refine Keeps.ite ?_ ?_
    | split

theorem fnJump_keeps {x0 x1 x2} (h_counters : w .counters = true) (h_flags : w .flags = true) (h_log : w .log = true) (h_lanes : w .lanes = true) (h_groups : w .groups = true) (h_ports : w .ports = true) (h_bufs : w .bufs = true) (h_accounts : w .accounts = true) (h_slots : w .slots = true) (h_history : w .history = true)
    (h : Keeps w k i s) : Keeps w k i (fnJump x0 x1 x2 s) := by
  unfold fnJump
  repeat' first
    | with_reducible assumption
    | (extract_lets +onlyGivenNames y0
       first
       | (refine_lift have hy0 : Keeps w k i y0 := ?_; ?_
          clear_value y0
          revert y0
          intro _ _
          rotate_left
          unfold y0
          clear y0)
       | (try clear_value y0
          revert y0
          intro _))
    | with_reducible refine count1_keeps h_counters ?_
    | with_reducible refine fogLaneBursts_keeps h_counters h_flags h_log h_lanes h_groups h_ports h_bufs h_accounts h_slots h_history ?_
    | with_reducible refine modLane_keeps h_lanes ?_
    | with_reducible refine renumberLane_keeps h_counters h_flags h_log h_lanes h_groups h_ports h_bufs h_accounts h_slots h_history ?_
    | with_reducible refine setFlag_keeps h_counters h_flags h_log h_history ?_

theorem holdFn_keeps {x0 x1} (h_groups : w .groups = true)
    (h : Keeps w k i s) : Keeps w k i (holdFn x0 x1 s) := by
  unfold holdFn
  repeat' first
    | with_reducible assumption
    | (extract_lets +onlyGivenNames y0
       first
       | (refine_lift have hy0 : Keeps w k i y0 := ?_; ?_
          clear_value y0
          revert y0
          intro _ _
          rotate_left
          unfold y0
          clear y0)
       | (try clear_value y0
          revert y0
          intro _))
    | with_reducible refine modGroup_keeps h_groups ?_
    | with_reducible refine Keeps.ite ?_ ?_
    | split

theorem gainSync_keeps {x0 x1 x2} (h_counters : w .counters = true) (h_flags : w .flags = true) (h_bridge : w .bridge = true) (h_log : w .log = true) (h_rings : w .rings = true) (h_lanes : w .lanes = true) (h_groups : w .groups = true) (h_ports : w .ports = true) (h_ingress : w .ingress = true) (h_bufs : w .bufs = true) (h_accounts : w .accounts = true) (h_slots : w .slots = true) (h_cipher : w .cipher = true) (h_fabric : w .fabric = true) (h_history : w .history = true)
    (h : Keeps w k i s) : Keeps w k i (gainSync x0 x1 x2 s) := by
  unfold gainSync
  repeat' first
    | with_reducible assumption
    | (extract_lets +onlyGivenNames y0
       first
       | (refine_lift have hy0 : Keeps w k i y0 := ?_; ?_
          clear_value y0
          revert y0
          intro _ _
          rotate_left
          unfold y0
          clear y0)
       | (try clear_value y0
          revert y0
          intro _))
    | with_reducible refine beginFrame_keeps h_counters h_flags h_bridge h_log h_rings h_lanes h_groups h_ports h_ingress h_bufs h_accounts h_slots h_cipher h_fabric h_history ?_
    | with_reducible refine modLane_keeps h_lanes ?_
    | with_reducible refine renumberLane_keeps h_counters h_flags h_log h_lanes h_groups h_ports h_bufs h_accounts h_slots h_history ?_
    | with_reducible refine setFlag_keeps h_counters h_flags h_log h_history ?_
    | with_reducible refine syncChanged_keeps h_counters h_flags h_log h_lanes h_groups h_accounts h_history ?_
    | with_reducible refine whenB_keeps (fun _ _ => ?_) ?_

theorem recordCand_keeps {x0 x1} (h_counters : w .counters = true) (h_lanes : w .lanes = true)
    (h : Keeps w k i s) : Keeps w k i (recordCand x0 x1 s) := by
  unfold recordCand
  repeat' first
    | with_reducible assumption
    | with_reducible refine count1_keeps h_counters ?_
    | with_reducible refine modLane_keeps h_lanes ?_
    | with_reducible refine Keeps.ite ?_ ?_

theorem huntHeader_keeps {x0 x1 x2} (h_counters : w .counters = true) (h_flags : w .flags = true) (h_bridge : w .bridge = true) (h_log : w .log = true) (h_rings : w .rings = true) (h_lanes : w .lanes = true) (h_groups : w .groups = true) (h_ports : w .ports = true) (h_ingress : w .ingress = true) (h_bufs : w .bufs = true) (h_accounts : w .accounts = true) (h_slots : w .slots = true) (h_cipher : w .cipher = true) (h_fabric : w .fabric = true) (h_history : w .history = true)
    (h : Keeps w k i s) : Keeps w k i (huntHeader x0 x1 x2 s) := by
  unfold huntHeader
  repeat' first
    | with_reducible assumption
    | (extract_lets +onlyGivenNames y0
       first
       | (refine_lift have hy0 : Keeps w k i y0 := ?_; ?_
          clear_value y0
          revert y0
          intro _ _
          rotate_left
          unfold y0
          clear y0)
       | (try clear_value y0
          revert y0
          intro _))
    | with_reducible refine count1_keeps h_counters ?_
    | with_reducible refine gainSync_keeps h_counters h_flags h_bridge h_log h_rings h_lanes h_groups h_ports h_ingress h_bufs h_accounts h_slots h_cipher h_fabric h_history ?_
    | with_reducible refine modLane_keeps h_lanes ?_
    | with_reducible refine recordCand_keeps h_counters h_lanes ?_
    | with_reducible refine Keeps.ite ?_ ?_
    | split

theorem loopFrame_keeps {x0 x1} (h_serdes : w .serdes = true)
    (h : Keeps w k i s) : Keeps w k i (loopFrame x0 x1 s) := by
  unfold loopFrame
  repeat' first
    | with_reducible assumption
    | (extract_lets +onlyGivenNames y0
       first
       | (refine_lift have hy0 : Keeps w k i y0 := ?_; ?_
          clear_value y0
          revert y0
          intro _ _
          rotate_left
          unfold y0
          clear y0)
       | (try clear_value y0
          revert y0
          intro _))
    | with_reducible refine Keeps.ite ?_ ?_
    | split
    | with_reducible refine Keeps.set_serdes h_serdes ?_

theorem loopSync_keeps {x0 x1} (h_lanes : w .lanes = true) (h_serdes : w .serdes = true)
    (h : Keeps w k i s) : Keeps w k i (loopSync x0 x1 s) := by
  unfold loopSync
  repeat' first
    | with_reducible assumption
    | with_reducible refine loopFrame_keeps h_serdes ?_
    | with_reducible refine modLane_keeps h_lanes ?_

theorem loopHeader_keeps {x0 x1} (h_lanes : w .lanes = true) (h_serdes : w .serdes = true)
    (h : Keeps w k i s) : Keeps w k i (loopHeader x0 x1 s) := by
  unfold loopHeader
  repeat' first
    | with_reducible assumption
    | (extract_lets +onlyGivenNames y0
       first
       | (refine_lift have hy0 : Keeps w k i y0 := ?_; ?_
          clear_value y0
          revert y0
          intro _ _
          rotate_left
          unfold y0
          clear y0)
       | (try clear_value y0
          revert y0
          intro _))
    | with_reducible refine loopFrame_keeps h_serdes ?_
    | with_reducible refine loopSync_keeps h_lanes h_serdes ?_
    | with_reducible refine modLane_keeps h_lanes ?_
    | with_reducible refine Keeps.ite ?_ ?_
    | split

theorem oofHeader_keeps {x0 x1 x2} (h_counters : w .counters = true) (h_flags : w .flags = true) (h_bridge : w .bridge = true) (h_log : w .log = true) (h_rings : w .rings = true) (h_lanes : w .lanes = true) (h_groups : w .groups = true) (h_ports : w .ports = true) (h_ingress : w .ingress = true) (h_bufs : w .bufs = true) (h_accounts : w .accounts = true) (h_slots : w .slots = true) (h_cipher : w .cipher = true) (h_fabric : w .fabric = true) (h_history : w .history = true)
    (h : Keeps w k i s) : Keeps w k i (oofHeader x0 x1 x2 s) := by
  unfold oofHeader
  repeat' first
    | with_reducible assumption
    | (extract_lets +onlyGivenNames y0
       first
       | (refine_lift have hy0 : Keeps w k i y0 := ?_; ?_
          clear_value y0
          revert y0
          intro _ _
          rotate_left
          unfold y0
          clear y0)
       | (try clear_value y0
          revert y0
          intro _))
    | with_reducible refine checkHeader_keeps h_counters h_flags h_log h_lanes h_groups h_ports h_bufs h_accounts h_slots h_history ?_
    | with_reducible refine gainSync_keeps h_counters h_flags h_bridge h_log h_rings h_lanes h_groups h_ports h_ingress h_bufs h_accounts h_slots h_cipher h_fabric h_history ?_
    | with_reducible refine modLane_keeps h_lanes ?_
    | with_reducible refine stampFrame_keeps h_counters h_flags h_log h_lanes h_groups h_ports h_bufs h_accounts h_slots h_history ?_
    | with_reducible refine Keeps.ite ?_ ?_
    | split

theorem syncHeader_keeps {x0 x1 x2} (h_counters : w .counters = true) (h_flags : w .flags = true) (h_bridge : w .bridge = true) (h_log : w .log = true) (h_rings : w .rings = true) (h_lanes : w .lanes = true) (h_groups : w .groups = true) (h_ports : w .ports = true) (h_ingress : w .ingress = true) (h_bufs : w .bufs = true) (h_accounts : w .accounts = true) (h_slots : w .slots = true) (h_cipher : w .cipher = true) (h_fabric : w .fabric = true) (h_history : w .history = true)
    (h : Keeps w k i s) : Keeps w k i (syncHeader x0 x1 x2 s) := by
  unfold syncHeader
  repeat' first
    | with_reducible assumption
    | (extract_lets +onlyGivenNames y0
       first
       | (refine_lift have hy0 : Keeps w k i y0 := ?_; ?_
          clear_value y0
          revert y0
          intro _ _
          rotate_left
          unfold y0
          clear y0)
       | (try clear_value y0
          revert y0
          intro _))
    | with_reducible refine beginFrame_keeps h_counters h_flags h_bridge h_log h_rings h_lanes h_groups h_ports h_ingress h_bufs h_accounts h_slots h_cipher h_fabric h_history ?_
    | with_reducible refine bipVerdict_keeps h_counters h_lanes ?_
    | with_reducible refine checkHeader_keeps h_counters h_flags h_log h_lanes h_groups h_ports h_bufs h_accounts h_slots h_history ?_
    | with_reducible refine fnJump_keeps h_counters h_flags h_log h_lanes h_groups h_ports h_bufs h_accounts h_slots h_history ?_
    | with_reducible refine leaveSync_keeps h_counters h_flags h_bridge h_log h_rings h_lanes h_groups h_ports h_ingress h_bufs h_accounts h_cipher h_fabric h_history ?_
    | with_reducible refine modLane_keeps h_lanes ?_
    | with_reducible refine setFlag_keeps h_counters h_flags h_log h_history ?_
    | with_reducible refine stampFrame_keeps h_counters h_flags h_log h_lanes h_groups h_ports h_bufs h_accounts h_slots h_history ?_
    | with_reducible refine Keeps.ite ?_ ?_
    | split

theorem frameHeaderRxEffect_keeps {x0 x1} (h_counters : w .counters = true) (h_flags : w .flags = true) (h_bridge : w .bridge = true) (h_log : w .log = true) (h_rings : w .rings = true) (h_lanes : w .lanes = true) (h_groups : w .groups = true) (h_ports : w .ports = true) (h_ingress : w .ingress = true) (h_bufs : w .bufs = true) (h_accounts : w .accounts = true) (h_slots : w .slots = true) (h_cipher : w .cipher = true) (h_serdes : w .serdes = true) (h_fabric : w .fabric = true) (h_history : w .history = true)
    (h : Keeps w k i s) : Keeps w k i (frameHeaderRxEffect x0 x1 s) := by
  unfold frameHeaderRxEffect
  repeat' first
    | with_reducible assumption
    | (extract_lets +onlyGivenNames y0
       first
       | (refine_lift have hy0 : Keeps w k i y0 := ?_; ?_
          clear_value y0
          revert y0
          intro _ _
          rotate_left
          unfold y0
          clear y0)
       | (try clear_value y0
          revert y0
          intro _))
    | with_reducible refine holdFn_keeps h_groups ?_
    | with_reducible refine huntHeader_keeps h_counters h_flags h_bridge h_log h_rings h_lanes h_groups h_ports h_ingress h_bufs h_accounts h_slots h_cipher h_fabric h_history ?_
    | with_reducible refine loopHeader_keeps h_lanes h_serdes ?_
    | with_reducible refine oofHeader_keeps h_counters h_flags h_bridge h_log h_rings h_lanes h_groups h_ports h_ingress h_bufs h_accounts h_slots h_cipher h_fabric h_history ?_
    | with_reducible refine syncHeader_keeps h_counters h_flags h_bridge h_log h_rings h_lanes h_groups h_ports h_ingress h_bufs h_accounts h_slots h_cipher h_fabric h_history ?_
    | with_reducible refine Keeps.ite ?_ ?_
    | split

theorem openSettlePort_keeps {x0 x1} (h_lanes : w .lanes = true)
    (h : Keeps w k i s) : Keeps w k i (openSettlePort x0 x1 s) := by
  unfold openSettlePort
  repeat' first
    | with_reducible assumption
    | with_reducible refine modLane_keeps h_lanes ?_

theorem pfWrite_keeps {x0 x1} (h_lanes : w .lanes = true) (h_filter : w .filter = true)
    (h : Keeps w k i s) : Keeps w k i (pfWrite x0 x1 s) := by
  unfold pfWrite
  repeat' first
    | with_reducible assumption
    | (extract_lets +onlyGivenNames y0
       first
       | (refine_lift have hy0 : Keeps w k i y0 := ?_; ?_
          clear_value y0
          revert y0
          intro _ _
          rotate_left
          unfold y0
          clear y0)
       | (have hy1 : TrunkAll := y0
          clear hy1
          revert y0
          intro _)
       | (try clear_value y0
          revert y0
          intro _))
    | with_reducible refine openSettlePort_keeps h_lanes ?_
    | with_reducible refine foldS_keeps (fun _ _ _ => ?_) ?_
    | with_reducible refine Keeps.ite ?_ ?_
    | split
    | with_reducible refine Keeps.set_trunk (.inr ⟨rfl, rfl, rfl⟩) (.inr rfl) (.inl h_filter) ?_

theorem portFilterReadApply_keeps {x0} 
    (h : Keeps w k i s) : KeepsDone w k i (portFilterReadApply x0 s) := by
  unfold portFilterReadApply
  repeat' first
    | with_reducible assumption
    | with_reducible refine KeepsDone.mk ?_

theorem portFilterWriteApply_keeps {x0} (h_lanes : w .lanes = true) (h_filter : w .filter = true)
    (h : Keeps w k i s) : KeepsDone w k i (portFilterWriteApply x0 s) := by
  unfold portFilterWriteApply
  repeat' first
    | with_reducible assumption
    | with_reducible refine okDone_keeps ?_
    | with_reducible refine pfWrite_keeps h_lanes h_filter ?_
    | with_reducible refine foldS_keeps (fun _ _ _ => ?_) ?_
    | with_reducible refine KeepsDone.mk ?_

theorem readyTicket_keeps {x0 x1 x2 x3} (h_counters : w .counters = true) (h_flags : w .flags = true) (h_bridge : w .bridge = true) (h_log : w .log = true) (h_rings : w .rings = true) (h_lanes : w .lanes = true) (h_ports : w .ports = true) (h_ingress : w .ingress = true) (h_bufs : w .bufs = true) (h_fabric : w .fabric = true) (h_history : w .history = true)
    (h : Keeps w k i s) : Keeps w k i (readyTicket x0 x1 x2 x3 s) := by
  unfold readyTicket
  repeat' first
    | with_reducible assumption
    | with_reducible refine releaseFront_keeps h_counters h_flags h_bridge h_log h_rings h_lanes h_ports h_ingress h_bufs h_fabric h_history ?_
    | with_reducible refine Keeps.ite ?_ ?_
    | split
    | with_reducible refine Keeps.set_trunk (.inl h_lanes) (.inr rfl) (.inr rfl) ?_

theorem reasmDiscardExpiryEffect_keeps {x0 x1} (h_counters : w .counters = true) (h_flags : w .flags = true) (h_bridge : w .bridge = true) (h_log : w .log = true) (h_rings : w .rings = true) (h_lanes : w .lanes = true) (h_ports : w .ports = true) (h_ingress : w .ingress = true) (h_bufs : w .bufs = true) (h_fabric : w .fabric = true) (h_history : w .history = true)
    (h : Keeps w k i s) : Keeps w k i (reasmDiscardExpiryEffect x0 x1 s) := by
  unfold reasmDiscardExpiryEffect
  repeat' first
    | with_reducible assumption
    | with_reducible refine freeCtx_keeps h_counters h_flags h_bridge h_log h_rings h_lanes h_ports h_ingress h_bufs h_fabric h_history ?_
    | split

theorem reasmTimeoutEffect_keeps {x0 x1} (h_counters : w .counters = true) (h_flags : w .flags = true) (h_bridge : w .bridge = true) (h_log : w .log = true) (h_rings : w .rings = true) (h_lanes : w .lanes = true) (h_ports : w .ports = true) (h_ingress : w .ingress = true) (h_bufs : w .bufs = true) (h_fabric : w .fabric = true) (h_history : w .history = true)
    (h : Keeps w k i s) : Keeps w k i (reasmTimeoutEffect x0 x1 s) := by
  unfold reasmTimeoutEffect
  repeat' first
    | with_reducible assumption
    | with_reducible refine count1_keeps h_counters ?_
    | with_reducible refine discardCtx_keeps h_counters h_flags h_bridge h_log h_rings h_lanes h_ports h_ingress h_bufs h_fabric h_history ?_
    | split

theorem settleWindowCloseEffect_keeps {x0 x1} (h_lanes : w .lanes = true)
    (h : Keeps w k i s) : Keeps w k i (settleWindowCloseEffect x0 x1 s) := by
  unfold settleWindowCloseEffect
  repeat' first
    | with_reducible assumption
    | with_reducible refine modLane_keeps h_lanes ?_
    | split

theorem trunkPacketHeaderRxEffect_keeps {x0} (h_counters : w .counters = true) (h_flags : w .flags = true) (h_bridge : w .bridge = true) (h_log : w .log = true) (h_rings : w .rings = true) (h_lanes : w .lanes = true) (h_groups : w .groups = true) (h_ports : w .ports = true) (h_ingress : w .ingress = true) (h_bufs : w .bufs = true) (h_slots : w .slots = true) (h_cipher : w .cipher = true) (h_fabric : w .fabric = true) (h_history : w .history = true)
    (h : Keeps w k i s) : Keeps w k i (trunkPacketHeaderRxEffect x0 s) := by
  unfold trunkPacketHeaderRxEffect
  repeat' first
    | with_reducible assumption
    | (extract_lets +onlyGivenNames y0
       first
       | (refine_lift have hy0 : Keeps w k i y0 := ?_; ?_
          clear_value y0
          revert y0
          intro _ _
          rotate_left
          unfold y0
          clear y0)
       | (try clear_value y0
          revert y0
          intro _))
    | with_reducible refine acceptHeader_keeps h_counters h_flags h_bridge h_log h_rings h_lanes h_groups h_ports h_ingress h_bufs h_slots h_cipher h_fabric h_history ?_
    | with_reducible refine count1_keeps h_counters ?_
    | with_reducible refine loseDelineation_keeps h_counters h_flags h_bridge h_log h_rings h_lanes h_ports h_ingress h_bufs h_cipher h_fabric h_history ?_
    | with_reducible refine Keeps.ite ?_ ?_
    | split

theorem startBurst_keeps {x0 x1} (h_lanes : w .lanes = true)
    (h : Keeps w k i s) : Keeps w k i (startBurst x0 x1 s) := by
  unfold startBurst
  repeat' first
    | with_reducible assumption
    | with_reducible refine modLane_keeps h_lanes ?_

theorem takeBurstCtr_keeps {x0} (h_groups : w .groups = true)
    (h : Keeps w k i s) : Keeps w k i (takeBurstCtr x0 s) := by
  unfold takeBurstCtr
  repeat' first
    | with_reducible assumption
    | with_reducible refine modGroup_keeps h_groups ?_

theorem announceSend_keeps {x0 x1 x2 x3 x4 x5} (h_env : w .env = true) (h_counters : w .counters = true) (h_lanes : w .lanes = true) (h_groups : w .groups = true)
    (h : Keeps w k i s) : Keeps w k i (announceSend x0 x1 x2 x3 x4 x5 s) := by
  unfold announceSend
  repeat' first
    | with_reducible assumption
    | (extract_lets +onlyGivenNames y0
       first
       | (try clear_value y0
          revert y0
          intro _))
    | with_reducible refine count1_keeps h_counters ?_
    | (refine drawUpTo_keepsE h_env (by assumption) ?_)
    | with_reducible refine drawUpTo_keeps h_env ?_
    | with_reducible refine modGroup_keeps h_groups ?_
    | with_reducible refine startBurst_keeps h_lanes ?_
    | with_reducible refine takeBurstCtr_keeps h_groups ?_

theorem announceEffect_keeps {x0 x1} (h_env : w .env = true) (h_counters : w .counters = true) (h_flags : w .flags = true) (h_log : w .log = true) (h_lanes : w .lanes = true) (h_groups : w .groups = true) (h_history : w .history = true)
    (h : Keeps w k i s) : Keeps w k i (announceEffect x0 x1 s) := by
  unfold announceEffect
  repeat' first
    | with_reducible assumption
    | (extract_lets +onlyGivenNames y0
       first
       | (refine_lift have hy0 : Keeps w k i y0 := ?_; ?_
          clear_value y0
          revert y0
          intro _ _
          rotate_left
          unfold y0
          clear y0)
       | (try clear_value y0
          revert y0
          intro _))
    | with_reducible refine announceSend_keeps h_env h_counters h_lanes h_groups ?_
    | with_reducible refine count1_keeps h_counters ?_
    | with_reducible refine countMissed_keeps h_counters h_flags h_log h_history ?_
    | with_reducible refine goDark_keeps h_lanes ?_
    | with_reducible refine markDone_keeps h_lanes ?_
    | with_reducible refine modGroup_keeps h_groups ?_
    | with_reducible refine Keeps.ite ?_ ?_
    | split

theorem applyMsg_keeps {x0 x1} (h_counters : w .counters = true) (h_flags : w .flags = true) (h_log : w .log = true) (h_lanes : w .lanes = true) (h_groups : w .groups = true) (h_history : w .history = true)
    (h : Keeps w k i s) : Keeps w k i (applyMsg x0 x1 s) := by
  unfold applyMsg
  repeat' first
    | with_reducible assumption
    | (extract_lets +onlyGivenNames y0
       first
       | (refine_lift have hy0 : Keeps w k i y0 := ?_; ?_
          clear_value y0
          revert y0
          intro _ _
          rotate_left
          unfold y0
          clear y0)
       | (refine_lift have hy0 : KeepsDone w k i y0 := ?_; ?_
          clear_value y0
          revert y0
          intro _ _
          rotate_left
          unfold y0
          clear y0)
       | (try clear_value y0
          revert y0
          intro _))
    | with_reducible refine count1_keeps h_counters ?_
    | with_reducible refine modGroup_keeps h_groups ?_
    | with_reducible refine modLane_keeps h_lanes ?_
    | with_reducible refine setFlag_keeps h_counters h_flags h_log h_history ?_
    | with_reducible refine foldS_keeps (fun _ _ _ => ?_) ?_
    | with_reducible refine Keeps.ite ?_ ?_
    | split

theorem applicationInstantEffect_keeps {x0} (h_counters : w .counters = true) (h_flags : w .flags = true) (h_log : w .log = true) (h_lanes : w .lanes = true) (h_groups : w .groups = true) (h_history : w .history = true)
    (h : Keeps w k i s) : Keeps w k i (applicationInstantEffect x0 s) := by
  unfold applicationInstantEffect
  repeat' first
    | with_reducible assumption
    | (extract_lets +onlyGivenNames y0
       first
       | (refine_lift have hy0 : Keeps w k i y0 := ?_; ?_
          clear_value y0
          revert y0
          intro _ _
          rotate_left
          unfold y0
          clear y0)
       | (try clear_value y0
          revert y0
          intro _))
    | with_reducible refine applyMsg_keeps h_counters h_flags h_log h_lanes h_groups h_history ?_
    | with_reducible refine modGroup_keeps h_groups ?_
    | with_reducible refine foldS_keeps (fun _ _ _ => ?_) ?_

theorem discoverAct_keeps {x0 x1} (h_counters : w .counters = true) (h_flags : w .flags = true) (h_log : w .log = true) (h_lanes : w .lanes = true) (h_groups : w .groups = true) (h_accounts : w .accounts = true) (h_history : w .history = true)
    (h : Keeps w k i s) : Keeps w k i (discoverAct x0 x1 s) := by
  unfold discoverAct
  repeat' first
    | with_reducible assumption
    | (extract_lets +onlyGivenNames y0
       first
       | (refine_lift have hy0 : Keeps w k i y0 := ?_; ?_
          clear_value y0
          revert y0
          intro _ _
          rotate_left
          unfold y0
          clear y0)
       | (try clear_value y0
          revert y0
          intro _))
    | with_reducible refine listenTest_keeps h_counters h_flags h_log h_groups h_history ?_
    | with_reducible refine modGroup_keeps h_groups ?_
    | with_reducible refine recomputeEqd0_keeps h_counters h_flags h_log h_lanes h_groups h_accounts h_history ?_
    | with_reducible refine setFlag_keeps h_counters h_flags h_log h_history ?_
    | with_reducible refine Keeps.ite ?_ ?_
    | split

theorem eqdAccept_keeps {x0 x1 x2} (h_lanes : w .lanes = true) (h_groups : w .groups = true)
    (h : Keeps w k i s) : Keeps w k i (eqdAccept x0 x1 x2 s) := by
  unfold eqdAccept
  repeat' first
    | with_reducible assumption
    | (extract_lets +onlyGivenNames y0
       first
       | (refine_lift have hy0 : Keeps w k i y0 := ?_; ?_
          clear_value y0
          revert y0
          intro _ _
          rotate_left
          unfold y0
          clear y0)
       | (try clear_value y0
          revert y0
          intro _))
    | with_reducible refine modGroup_keeps h_groups ?_
    | with_reducible refine modLane_keeps h_lanes ?_
    | with_reducible refine foldS_keeps (fun _ _ _ => ?_) ?_

theorem eqdAssignAct_keeps {x0 x1 x2} (h_counters : w .counters = true) (h_flags : w .flags = true) (h_log : w .log = true) (h_lanes : w .lanes = true) (h_groups : w .groups = true) (h_history : w .history = true)
    (h : Keeps w k i s) : Keeps w k i (eqdAssignAct x0 x1 x2 s) := by
  unfold eqdAssignAct
  repeat' first
    | with_reducible assumption
    | (extract_lets +onlyGivenNames y0
       first
       | (try clear_value y0
          revert y0
          intro _))
    | with_reducible refine eqdAccept_keeps h_lanes h_groups ?_
    | with_reducible refine queueAck_keeps h_counters h_groups ?_
    | with_reducible refine setFlag_keeps h_counters h_flags h_log h_history ?_
    | with_reducible refine Keeps.ite ?_ ?_

theorem holdoverExpiryEffect_keeps {x0} (h_counters : w .counters = true) (h_flags : w .flags = true) (h_log : w .log = true) (h_lanes : w .lanes = true) (h_groups : w .groups = true) (h_accounts : w .accounts = true) (h_history : w .history = true)
    (h : Keeps w k i s) : Keeps w k i (holdoverExpiryEffect x0 s) := by
  unfold holdoverExpiryEffect
  repeat' first
    | with_reducible assumption
    | with_reducible refine enterListen_keeps h_counters h_flags h_log h_lanes h_groups h_accounts h_history ?_
    | with_reducible refine modGroup_keeps h_groups ?_
    | with_reducible refine setFlag_keeps h_counters h_flags h_log h_history ?_

theorem rangeProvisionApply_keeps {x0} (h_counters : w .counters = true) (h_flags : w .flags = true) (h_log : w .log = true) (h_lanes : w .lanes = true) (h_groups : w .groups = true) (h_accounts : w .accounts = true) (h_history : w .history = true)
    (h : Keeps w k i s) : KeepsDone w k i (rangeProvisionApply x0 s) := by
  unfold rangeProvisionApply
  repeat' first
    | with_reducible assumption
    | (extract_lets +onlyGivenNames y0
       first
       | (refine_lift have hy0 : Keeps w k i y0 := ?_; ?_
          clear_value y0
          revert y0
          intro _ _
          rotate_left
          unfold y0
          clear y0)
       | (refine_lift have hy0 : KeepsDone w k i y0 := ?_; ?_
          clear_value y0
          revert y0
          intro _ _
          rotate_left
          unfold y0
          clear y0)
       | (try clear_value y0
          revert y0
          intro _))
    | with_reducible refine enterListen_keeps h_counters h_flags h_log h_lanes h_groups h_accounts h_history ?_
    | with_reducible refine listenTest_keeps h_counters h_flags h_log h_groups h_history ?_
    | with_reducible refine modGroup_keeps h_groups ?_
    | with_reducible refine okDone_keeps ?_
    | with_reducible refine recomputeEqd0_keeps h_counters h_flags h_log h_lanes h_groups h_accounts h_history ?_
    | with_reducible refine whenB_keeps (fun _ _ => ?_) ?_
    | with_reducible refine foldS_keeps (fun _ _ _ => ?_) ?_
    | with_reducible refine Keeps.ite ?_ ?_
    | with_reducible refine KeepsDone.ite ?_ ?_
    | split
    | with_reducible refine KeepsDone.mk ?_

theorem rangeReplySend_keeps {x0 x1 x2 x3 x4 x5} (h_counters : w .counters = true) (h_lanes : w .lanes = true) (h_groups : w .groups = true)
    (h : Keeps w k i s) : Keeps w k i (rangeReplySend x0 x1 x2 x3 x4 x5 s) := by
  unfold rangeReplySend
  repeat' first
    | with_reducible assumption
    | (extract_lets +onlyGivenNames y0
       first
       | (try clear_value y0
          revert y0
          intro _))
    | with_reducible refine count1_keeps h_counters ?_
    | with_reducible refine modGroup_keeps h_groups ?_
    | with_reducible refine startBurst_keeps h_lanes ?_
    | with_reducible refine takeBurstCtr_keeps h_groups ?_

theorem rangeReplyEffect_keeps {x0} (h_counters : w .counters = true) (h_flags : w .flags = true) (h_log : w .log = true) (h_lanes : w .lanes = true) (h_groups : w .groups = true) (h_history : w .history = true)
    (h : Keeps w k i s) : Keeps w k i (rangeReplyEffect x0 s) := by
  unfold rangeReplyEffect
  repeat' first
    | with_reducible assumption
    | (extract_lets +onlyGivenNames y0
       first
       | (refine_lift have hy0 : Keeps w k i y0 := ?_; ?_
          clear_value y0
          revert y0
          intro _ _
          rotate_left
          unfold y0
          clear y0)
       | (try clear_value y0
          revert y0
          intro _))
    | with_reducible refine count1_keeps h_counters ?_
    | with_reducible refine countMissed_keeps h_counters h_flags h_log h_history ?_
    | with_reducible refine goDark_keeps h_lanes ?_
    | with_reducible refine markDone_keeps h_lanes ?_
    | with_reducible refine modLane_keeps h_lanes ?_
    | with_reducible refine rangeReplySend_keeps h_counters h_lanes h_groups ?_
    | with_reducible refine Keeps.ite ?_ ?_
    | split

theorem rrAdopt_keeps {x0 x1} (h_counters : w .counters = true) (h_flags : w .flags = true) (h_log : w .log = true) (h_lanes : w .lanes = true) (h_groups : w .groups = true) (h_ports : w .ports = true) (h_bufs : w .bufs = true) (h_accounts : w .accounts = true) (h_slots : w .slots = true) (h_history : w .history = true)
    (h : Keeps w k i s) : Keeps w k i (rrAdopt x0 x1 s) := by
  unfold rrAdopt
  repeat' first
    | with_reducible assumption
    | (extract_lets +onlyGivenNames y0
       first
       | (refine_lift have hy0 : Keeps w k i y0 := ?_; ?_
          clear_value y0
          revert y0
          intro _ _
          rotate_left
          unfold y0
          clear y0)
       | (try clear_value y0
          revert y0
          intro _))
    | with_reducible refine clearGrants_keeps h_lanes h_groups ?_
    | with_reducible refine dropEqdPending_keeps h_lanes h_groups ?_
    | with_reducible refine modGroup_keeps h_groups ?_
    | with_reducible refine setFlag_keeps h_counters h_flags h_log h_history ?_
    | with_reducible refine stopBursts_keeps h_counters h_flags h_log h_lanes h_groups h_ports h_bufs h_accounts h_slots h_history ?_
    | with_reducible refine unrangeLanes_keeps h_lanes ?_
    | with_reducible refine Keeps.ite ?_ ?_
    | split

theorem rangeRequestAct_keeps {x0 x1 x2} (h_counters : w .counters = true) (h_flags : w .flags = true) (h_log : w .log = true) (h_lanes : w .lanes = true) (h_groups : w .groups = true) (h_ports : w .ports = true) (h_bufs : w .bufs = true) (h_accounts : w .accounts = true) (h_slots : w .slots = true) (h_history : w .history = true)
    (h : Keeps w k i s) : Keeps w k i (rangeRequestAct x0 x1 x2 s) := by
  unfold rangeRequestAct
  repeat' first
    | with_reducible assumption
    | (extract_lets +onlyGivenNames y0
       first
       | (try clear_value y0
          revert y0
          intro _))
    | with_reducible refine modGroup_keeps h_groups ?_
    | with_reducible refine modLane_keeps h_lanes ?_
    | with_reducible refine rrAdopt_keeps h_counters h_flags h_log h_lanes h_groups h_ports h_bufs h_accounts h_slots h_history ?_
    | with_reducible refine setFlag_keeps h_counters h_flags h_log h_history ?_
    | with_reducible refine Keeps.ite ?_ ?_
    | split

theorem responseWaitExpiryEffect_keeps {x0} (h_env : w .env = true) (h_groups : w .groups = true)
    (h : Keeps w k i s) : Keeps w k i (responseWaitExpiryEffect x0 s) := by
  unfold responseWaitExpiryEffect
  repeat' first
    | with_reducible assumption
    | (extract_lets +onlyGivenNames y0
       first
       | (refine_lift have hy0 : Keeps w k i y0 := ?_; ?_
          clear_value y0
          revert y0
          intro _ _
          rotate_left
          unfold y0
          clear y0)
       | (refine_lift have hy0 : Keeps w k i y0.2 := ?_; ?_
          clear_value y0
          revert y0
          intro _ _
          rotate_left
          unfold y0
          clear y0)
       | (try clear_value y0
          revert y0
          intro _))
    | (refine drawUpTo_keepsE h_env (by assumption) ?_)
    | with_reducible refine drawUpTo_keeps h_env ?_
    | with_reducible refine modGroup_keeps h_groups ?_
    | split

theorem todStaleEffect_keeps {x0} (h_counters : w .counters = true) (h_flags : w .flags = true) (h_log : w .log = true) (h_groups : w .groups = true) (h_history : w .history = true)
    (h : Keeps w k i s) : Keeps w k i (todStaleEffect x0 s) := by
  unfold todStaleEffect
  repeat' first
    | with_reducible assumption
    | with_reducible refine modGroup_keeps h_groups ?_
    | with_reducible refine setFlag_keeps h_counters h_flags h_log h_history ?_

theorem addLatent_keeps {x0 x1} (h_groups : w .groups = true)
    (h : Keeps w k i s) : Keeps w k i (addLatent x0 x1 s) := by
  unfold addLatent
  repeat' first
    | with_reducible assumption
    | with_reducible refine modGroup_keeps h_groups ?_

theorem pinRemainder_keeps {x0 x1 x2} (h_counters : w .counters = true) (h_groups : w .groups = true) (h_accounts : w .accounts = true)
    (h : Keeps w k i s) : Keeps w k i (pinRemainder x0 x1 x2 s) := by
  unfold pinRemainder
  repeat' first
    | with_reducible assumption
    | (extract_lets +onlyGivenNames y0
       first
       | (refine_lift have hy0 : Keeps w k i y0 := ?_; ?_
          clear_value y0
          revert y0
          intro _ _
          rotate_left
          unfold y0
          clear y0)
       | (try clear_value y0
          revert y0
          intro _))
    | with_reducible refine count1_keeps h_counters ?_
    | with_reducible refine modAcct_keeps h_accounts ?_
    | with_reducible refine modGroup_keeps h_groups ?_

theorem takeOam_keeps {x0 x1} (h_groups : w .groups = true)
    (h : Keeps w k i s) : Keeps w k i (takeOam x0 x1 s) := by
  unfold takeOam
  repeat' first
    | with_reducible assumption
    | with_reducible refine modGroup_keeps h_groups ?_

theorem noteForecasts_keeps {x0 x1 x2 x3 x4} (h_accounts : w .accounts = true)
    (h : Keeps w k i s) : Keeps w k i (noteForecasts x0 x1 x2 x3 x4 s) := by
  unfold noteForecasts
  repeat' first
    | with_reducible assumption
    | (extract_lets +onlyGivenNames y0
       first
       | (try clear_value y0
          revert y0
          intro _))
    | with_reducible refine modAcct_keeps h_accounts ?_
    | with_reducible refine foldS_keeps (fun _ _ _ => ?_) ?_

theorem writeReports_keeps {x0 x1} (h_groups : w .groups = true) (h_accounts : w .accounts = true)
    (h : Keeps w k i s) : Keeps w k i (writeReports x0 x1 s).2 := by
  unfold writeReports
  repeat' first
    | with_reducible assumption
    | (extract_lets +onlyGivenNames y0
       first
       | (refine_lift have hy0 : Keeps w k i y0 := ?_; ?_
          clear_value y0
          revert y0
          intro _ _
          rotate_left
          unfold y0
          clear y0)
       | (try clear_value y0
          revert y0
          intro _))
    | with_reducible refine modGroup_keeps h_groups ?_
    | with_reducible refine noteForecasts_keeps h_accounts ?_
    | with_reducible refine Keeps.ite ?_ ?_
    | split

theorem writeReports_keepsE {x0 x1} (h_groups : w .groups = true) (h_accounts : w .accounts = true) {p t} (e : writeReports x0 x1 s = (p, t))
    (h : Keeps w k i s) : Keeps w k i t := by
  have g := writeReports_keeps (x0 := x0) (x1 := x1) h_groups h_accounts h
  rw [e] at g
  exact g

theorem developOne_keeps {x0 x1} (h_counters : w .counters = true) (h_flags : w .flags = true) (h_log : w .log = true) (h_groups : w .groups = true) (h_ports : w .ports = true) (h_bufs : w .bufs = true) (h_accounts : w .accounts = true) (h_history : w .history = true)
    (h : Keeps w k i s) : Keeps w k i (developOne x0 x1 s) := by
  unfold developOne
  repeat' first
    | with_reducible assumption
    | (extract_lets +onlyGivenNames y0
       first
       | (refine_lift have hy0 : Keeps w k i y0 := ?_; ?_
          clear_value y0
          revert y0
          intro _ _
          rotate_left
          unfold y0
          clear y0)
       | (refine_lift have hy0 : Keeps w k i y0.2 := ?_; ?_
          clear_value y0
          revert y0
          intro _ _
          rotate_left
          unfold y0
          clear y0)
       | (try clear_value y0
          revert y0
          intro _))
    | with_reducible refine count1_keeps h_counters ?_
    | with_reducible refine dropBuf_keeps h_counters h_flags h_log h_ports h_bufs h_history ?_
    | with_reducible refine modLatent_keeps h_groups ?_
    | with_reducible refine pinRemainder_keeps h_counters h_groups h_accounts ?_
    | with_reducible refine setFlag_keeps h_counters h_flags h_log h_history ?_
    | with_reducible refine takeBurstCtr_keeps h_groups ?_
    | with_reducible refine takeOam_keeps h_groups ?_
    | (refine writeReports_keepsE h_groups h_accounts (by assumption) ?_)
    | with_reducible refine writeReports_keeps h_groups h_accounts ?_
    | with_reducible refine whenB_keeps (fun _ _ => ?_) ?_
    | with_reducible refine foldS_keeps (fun _ _ _ => ?_) ?_
    | with_reducible refine Keeps.ite ?_ ?_
    | split

theorem develop_keeps {x0 x1} (h_counters : w .counters = true) (h_flags : w .flags = true) (h_log : w .log = true) (h_groups : w .groups = true) (h_ports : w .ports = true) (h_bufs : w .bufs = true) (h_accounts : w .accounts = true) (h_history : w .history = true)
    (h : Keeps w k i s) : Keeps w k i (develop x0 x1 s) := by
  unfold develop
  repeat' first
    | with_reducible assumption
    | (extract_lets +onlyGivenNames y0
       first
       | (try clear_value y0
          revert y0
          intro _))
    | with_reducible refine developOne_keeps h_counters h_flags h_log h_groups h_ports h_bufs h_accounts h_history ?_
    | with_reducible refine foldS_keeps (fun _ _ _ => ?_) ?_

theorem amendAct_keeps {x0 x1 x2} (h_counters : w .counters = true) (h_flags : w .flags = true) (h_log : w .log = true) (h_groups : w .groups = true) (h_history : w .history = true)
    (h : Keeps w k i s) : Keeps w k i (amendAct x0 x1 x2 s) := by
  unfold amendAct
  repeat' first
    | with_reducible assumption
    | (extract_lets +onlyGivenNames y0
       first
       | (refine_lift have hy0 : Keeps w k i y0 := ?_; ?_
          clear_value y0
          revert y0
          intro _ _
          rotate_left
          unfold y0
          clear y0)
       | (try clear_value y0
          revert y0
          intro _))
    | with_reducible refine count1_keeps h_counters ?_
    | with_reducible refine modGroup_keeps h_groups ?_
    | with_reducible refine queueAck_keeps h_counters h_groups ?_
    | with_reducible refine setFlag_keeps h_counters h_flags h_log h_history ?_
    | with_reducible refine Keeps.ite ?_ ?_
    | split

theorem amendOne_keeps {x0 x1} (h_counters : w .counters = true) (h_flags : w .flags = true) (h_log : w .log = true) (h_lanes : w .lanes = true) (h_groups : w .groups = true) (h_ports : w .ports = true) (h_bufs : w .bufs = true) (h_accounts : w .accounts = true) (h_slots : w .slots = true) (h_history : w .history = true)
    (h : Keeps w k i s) : Keeps w k i (amendOne x0 x1 s) := by
  unfold amendOne
  repeat' first
    | with_reducible assumption
    | (extract_lets +onlyGivenNames y0
       first
       | (refine_lift have hy0 : Keeps w k i y0 := ?_; ?_
          clear_value y0
          revert y0
          intro _ _
          rotate_left
          unfold y0
          clear y0)
       | (try clear_value y0
          revert y0
          intro _))
    | with_reducible refine count1_keeps h_counters ?_
    | with_reducible refine dropUnheld_keeps h_groups ?_
    | with_reducible refine fog_keeps h_counters h_flags h_log h_lanes h_groups h_ports h_bufs h_accounts h_slots h_history ?_
    | with_reducible refine modLane_keeps h_lanes ?_
    | with_reducible refine setFlag_keeps h_counters h_flags h_log h_history ?_
    | with_reducible refine Keeps.ite ?_ ?_

theorem amendApplyEffect_keeps {x0} (h_counters : w .counters = true) (h_flags : w .flags = true) (h_log : w .log = true) (h_lanes : w .lanes = true) (h_groups : w .groups = true) (h_ports : w .ports = true) (h_bufs : w .bufs = true) (h_accounts : w .accounts = true) (h_slots : w .slots = true) (h_history : w .history = true)
    (h : Keeps w k i s) : Keeps w k i (amendApplyEffect x0 s) := by
  unfold amendApplyEffect
  repeat' first
    | with_reducible assumption
    | with_reducible refine amendOne_keeps h_counters h_flags h_log h_lanes h_groups h_ports h_bufs h_accounts h_slots h_history ?_
    | with_reducible refine modGroup_keeps h_groups ?_
    | with_reducible refine foldS_keeps (fun _ _ _ => ?_) ?_

theorem slotTests_keeps {x0} (h_counters : w .counters = true) (h_flags : w .flags = true) (h_log : w .log = true) (h_groups : w .groups = true) (h_slots : w .slots = true) (h_history : w .history = true)
    (h : Keeps w k i s) : Keeps w k i (slotTests x0 s) := by
  unfold slotTests
  repeat' first
    | with_reducible assumption
    | with_reducible refine slotStallTest_keeps h_counters h_flags h_log h_groups h_slots h_history ?_
    | with_reducible refine foldS_keeps (fun _ _ _ => ?_) ?_

theorem burstEndLeaveEffect_keeps {x0} (h_counters : w .counters = true) (h_flags : w .flags = true) (h_log : w .log = true) (h_rings : w .rings = true) (h_lanes : w .lanes = true) (h_groups : w .groups = true) (h_slots : w .slots = true) (h_history : w .history = true)
    (h : Keeps w k i s) : Keeps w k i (burstEndLeaveEffect x0 s) := by
  unfold burstEndLeaveEffect
  repeat' first
    | with_reducible assumption
    | (extract_lets +onlyGivenNames y0
       first
       | (refine_lift have hy0 : Keeps w k i y0 := ?_; ?_
          clear_value y0
          revert y0
          intro _ _
          rotate_left
          unfold y0
          clear y0)
       | (try clear_value y0
          revert y0
          intro _))
    | with_reducible refine count1_keeps h_counters ?_
    | with_reducible refine countSent_keeps h_counters h_rings h_slots ?_
    | with_reducible refine modGroup_keeps h_groups ?_
    | with_reducible refine modLane_keeps h_lanes ?_
    | with_reducible refine slotTests_keeps h_counters h_flags h_log h_groups h_slots h_history ?_
    | with_reducible refine whenB_keeps (fun _ _ => ?_) ?_
    | with_reducible refine Keeps.ite ?_ ?_
    | split

theorem launchLatent_keeps {x0 x1} (h_lanes : w .lanes = true)
    (h : Keeps w k i s) : Keeps w k i (launchLatent x0 x1 s) := by
  unfold launchLatent
  repeat' first
    | with_reducible assumption
    | with_reducible refine startBurst_keeps h_lanes ?_

theorem launchGrant_keeps {x0 x1 x2 x3 x4} (h_counters : w .counters = true) (h_flags : w .flags = true) (h_log : w .log = true) (h_lanes : w .lanes = true) (h_groups : w .groups = true) (h_ports : w .ports = true) (h_bufs : w .bufs = true) (h_accounts : w .accounts = true) (h_slots : w .slots = true) (h_history : w .history = true)
    (h : Keeps w k i s) : Keeps w k i (launchGrant x0 x1 x2 x3 x4 s) := by
  unfold launchGrant
  repeat' first
    | with_reducible assumption
    | (extract_lets +onlyGivenNames y0
       first
       | (refine_lift have hy0 : Keeps w k i y0 := ?_; ?_
          clear_value y0
          revert y0
          intro _ _
          rotate_left
          unfold y0
          clear y0)
       | (try clear_value y0
          revert y0
          intro _))
    | with_reducible refine addLatent_keeps h_groups ?_
    | with_reducible refine count1_keeps h_counters ?_
    | with_reducible refine countMissed_keeps h_counters h_flags h_log h_history ?_
    | with_reducible refine develop_keeps h_counters h_flags h_log h_groups h_ports h_bufs h_accounts h_history ?_
    | with_reducible refine fogLaneLate_keeps h_counters h_flags h_log h_lanes h_groups h_ports h_bufs h_accounts h_slots h_history ?_
    | with_reducible refine goDark_keeps h_lanes ?_
    | with_reducible refine launchLatent_keeps h_lanes ?_
    | with_reducible refine loseDeveloped_keeps h_counters h_flags h_log h_groups h_ports h_bufs h_accounts h_history ?_
    | with_reducible refine markDone_keeps h_lanes ?_
    | with_reducible refine setFlag_keeps h_counters h_flags h_log h_history ?_
    | with_reducible refine Keeps.ite ?_ ?_
    | split

theorem burstLaunchEffect_keeps {x0} (h_counters : w .counters = true) (h_flags : w .flags = true) (h_log : w .log = true) (h_lanes : w .lanes = true) (h_groups : w .groups = true) (h_ports : w .ports = true) (h_bufs : w .bufs = true) (h_accounts : w .accounts = true) (h_slots : w .slots = true) (h_history : w .history = true)
    (h : Keeps w k i s) : Keeps w k i (burstLaunchEffect x0 s) := by
  unfold burstLaunchEffect
  repeat' first
    | with_reducible assumption
    | with_reducible refine launchGrant_keeps h_counters h_flags h_log h_lanes h_groups h_ports h_bufs h_accounts h_slots h_history ?_
    | split

theorem fillEndEffect_keeps {x0} (h_lanes : w .lanes = true)
    (h : Keeps w k i s) : Keeps w k i (fillEndEffect x0 s) := by
  unfold fillEndEffect
  repeat' first
    | with_reducible assumption
    | with_reducible refine modLane_keeps h_lanes ?_

theorem takeEntry_keeps {x0 x1 x2} (h_counters : w .counters = true) (h_flags : w .flags = true) (h_log : w .log = true) (h_lanes : w .lanes = true) (h_history : w .history = true)
    (h : Keeps w k i s) : Keeps w k i (takeEntry x0 x1 x2 s) := by
  unfold takeEntry
  repeat' first
    | with_reducible assumption
    | (extract_lets +onlyGivenNames y0
       first
       | (try clear_value y0
          revert y0
          intro _))
    | with_reducible refine count1_keeps h_counters ?_
    | with_reducible refine modLane_keeps h_lanes ?_
    | with_reducible refine setFlag_keeps h_counters h_flags h_log h_history ?_
    | with_reducible refine Keeps.ite ?_ ?_

theorem grantMapRxEffect_keeps {x0 x1} (h_counters : w .counters = true) (h_flags : w .flags = true) (h_log : w .log = true) (h_lanes : w .lanes = true) (h_history : w .history = true)
    (h : Keeps w k i s) : Keeps w k i (grantMapRxEffect x0 x1 s) := by
  unfold grantMapRxEffect
  repeat' first
    | with_reducible assumption
    | (extract_lets +onlyGivenNames y0
       first
       | (refine_lift have hy0 : Keeps w k i y0 := ?_; ?_
          clear_value y0
          revert y0
          intro _ _
          rotate_left
          unfold y0
          clear y0)
       | (try clear_value y0
          revert y0
          intro _))
    | with_reducible refine modLane_keeps h_lanes ?_
    | with_reducible refine takeEntry_keeps h_counters h_flags h_log h_lanes h_history ?_
    | with_reducible refine foldS_keeps (fun _ _ _ => ?_) ?_
    | split

theorem grantTableCompleteEffect_keeps {x0} (h_counters : w .counters = true) (h_flags : w .flags = true) (h_log : w .log = true) (h_lanes : w .lanes = true) (h_groups : w .groups = true) (h_ports : w .ports = true) (h_bufs : w .bufs = true) (h_accounts : w .accounts = true) (h_slots : w .slots = true) (h_history : w .history = true)
    (h : Keeps w k i s) : Keeps w k i (grantTableCompleteEffect x0 s) := by
  unfold grantTableCompleteEffect
  repeat' first
    | with_reducible assumption
    | (extract_lets +onlyGivenNames y0
       first
       | (refine_lift have hy0 : Keeps w k i y0 := ?_; ?_
          clear_value y0
          revert y0
          intro _ _
          rotate_left
          unfold y0
          clear y0)
       | (try clear_value y0
          revert y0
          intro _))
    | with_reducible refine count_keeps h_counters ?_
    | with_reducible refine dropUnheld_keeps h_groups ?_
    | with_reducible refine fog_keeps h_counters h_flags h_log h_lanes h_groups h_ports h_bufs h_accounts h_slots h_history ?_
    | with_reducible refine modGroup_keeps h_groups ?_
    | with_reducible refine modLane_keeps h_lanes ?_
    | with_reducible refine setFlag_keeps h_counters h_flags h_log h_history ?_
    | with_reducible refine whenB_keeps (fun _ _ => ?_) ?_
    | with_reducible refine Keeps.ite ?_ ?_
    | split

theorem grantTableReadApply_keeps {x0} 
    (h : Keeps w k i s) : KeepsDone w k i (grantTableReadApply x0 s) := by
  unfold grantTableReadApply
  repeat' first
    | with_reducible assumption
    | (extract_lets +onlyGivenNames y0
       first
       | (try clear_value y0
          revert y0
          intro _))
    | split
    | with_reducible refine KeepsDone.mk ?_

theorem jumpHoldClearEffect_keeps {x0} (h_lanes : w .lanes = true)
    (h : Keeps w k i s) : Keeps w k i (jumpHoldClearEffect x0 s) := by
  unfold jumpHoldClearEffect
  repeat' first
    | with_reducible assumption
    | with_reducible refine modLane_keeps h_lanes ?_

theorem leaderAccept_keeps {x0 x1 x2} (h_lanes : w .lanes = true) (h_groups : w .groups = true)
    (h : Keeps w k i s) : Keeps w k i (leaderAccept x0 x1 x2 s) := by
  unfold leaderAccept
  repeat' first
    | with_reducible assumption
    | (extract_lets +onlyGivenNames y0
       first
       | (refine_lift have hy0 : Keeps w k i y0 := ?_; ?_
          clear_value y0
          revert y0
          intro _ _
          rotate_left
          unfold y0
          clear y0)
       | (try clear_value y0
          revert y0
          intro _))
    | with_reducible refine modGroup_keeps h_groups ?_
    | with_reducible refine modLane_keeps h_lanes ?_
    | with_reducible refine foldS_keeps (fun _ _ _ => ?_) ?_

theorem leaderSetAct_keeps {x0 x1 x2} (h_counters : w .counters = true) (h_lanes : w .lanes = true) (h_groups : w .groups = true)
    (h : Keeps w k i s) : Keeps w k i (leaderSetAct x0 x1 x2 s) := by
  unfold leaderSetAct
  repeat' first
    | with_reducible assumption
    | (extract_lets +onlyGivenNames y0
       first
       | (try clear_value y0
          revert y0
          intro _))
    | with_reducible refine leaderAccept_keeps h_lanes h_groups ?_
    | with_reducible refine queueAck_keeps h_counters h_groups ?_
    | with_reducible refine Keeps.ite ?_ ?_

theorem accountStopApply_keeps {x0} (h_counters : w .counters = true) (h_flags : w .flags = true) (h_log : w .log = true) (h_lanes : w .lanes = true) (h_groups : w .groups = true) (h_ports : w .ports = true) (h_bufs : w .bufs = true) (h_accounts : w .accounts = true) (h_slots : w .slots = true) (h_history : w .history = true)
    (h : Keeps w k i s) : KeepsDone w k i (accountStopApply x0 s) := by
  unfold accountStopApply
  repeat' first
    | with_reducible assumption
    | (extract_lets +onlyGivenNames y0
       first
       | (refine_lift have hy0 : Keeps w k i y0 := ?_; ?_
          clear_value y0
          revert y0
          intro _ _
          rotate_left
          unfold y0
          clear y0)
       | (try clear_value y0
          revert y0
          intro _))
    | with_reducible refine fog_keeps h_counters h_flags h_log h_lanes h_groups h_ports h_bufs h_accounts h_slots h_history ?_
    | with_reducible refine modAcct_keeps h_accounts ?_
    | with_reducible refine okDone_keeps ?_
    | with_reducible refine Keeps.ite ?_ ?_
    | with_reducible refine KeepsDone.ite ?_ ?_
    | with_reducible refine KeepsDone.mk ?_

theorem closeRegion_keeps {x0 x1} (h_groups : w .groups = true)
    (h : Keeps w k i s) : Keeps w k i (closeRegion x0 x1 s) := by
  unfold closeRegion
  repeat' first
    | with_reducible assumption
    | with_reducible refine modLatent_keeps h_groups ?_

theorem developEffect_keeps {x0 x1 x2} (h_counters : w .counters = true) (h_flags : w .flags = true) (h_log : w .log = true) (h_lanes : w .lanes = true) (h_groups : w .groups = true) (h_ports : w .ports = true) (h_bufs : w .bufs = true) (h_accounts : w .accounts = true) (h_slots : w .slots = true) (h_history : w .history = true)
    (h : Keeps w k i s) : Keeps w k i (developEffect x0 x1 x2 s) := by
  unfold developEffect
  repeat' first
    | with_reducible assumption
    | (extract_lets +onlyGivenNames y0
       first
       | (refine_lift have hy0 : Keeps w k i y0 := ?_; ?_
          clear_value y0
          revert y0
          intro _ _
          rotate_left
          unfold y0
          clear y0)
       | (try clear_value y0
          revert y0
          intro _))
    | with_reducible refine addLatent_keeps h_groups ?_
    | with_reducible refine develop_keeps h_counters h_flags h_log h_groups h_ports h_bufs h_accounts h_history ?_
    | with_reducible refine fogLaneLate_keeps h_counters h_flags h_log h_lanes h_groups h_ports h_bufs h_accounts h_slots h_history ?_
    | with_reducible refine Keeps.ite ?_ ?_
    | split

theorem invocationDrawResumeEffect_keeps {x0} (h_slots : w .slots = true)
    (h : Keeps w k i s) : Keeps w k i (invocationDrawResumeEffect x0 s) := by
  unfold invocationDrawResumeEffect
  repeat' first
    | with_reducible assumption
    | with_reducible refine modSlot_keeps h_slots ?_

theorem packetPlaceEffect.closeRegionOpen_keeps {x0 x1} (h_groups : w .groups = true)
    (h : Keeps w k i s) : Keeps w k i (packetPlaceEffect.closeRegionOpen x0 x1 s) := by
  unfold packetPlaceEffect.closeRegionOpen
  repeat' first
    | with_reducible assumption
    | (extract_lets +onlyGivenNames y0
       first
       | (refine_lift have hy0 : Keeps w k i y0 := ?_; ?_
          clear_value y0
          revert y0
          intro _ _
          rotate_left
          unfold y0
          clear y0)
       | (try clear_value y0
          revert y0
          intro _))
    | with_reducible refine modLatent_keeps h_groups ?_

theorem packetPlaceEffect.keepOriginal_keeps {x0 x1 x2 x3} (h_groups : w .groups = true)
    (h : Keeps w k i s) : Keeps w k i (packetPlaceEffect.keepOriginal x0 x1 x2 x3 s) := by
  unfold packetPlaceEffect.keepOriginal
  repeat' first
    | with_reducible assumption
    | (extract_lets +onlyGivenNames y0
       first
       | (refine_lift have hy0 : Keeps w k i y0 := ?_; ?_
          clear_value y0
          revert y0
          intro _ _
          rotate_left
          unfold y0
          clear y0)
       | (try clear_value y0
          revert y0
          intro _))
    | with_reducible refine modLatent_keeps h_groups ?_
    | with_reducible refine Keeps.ite ?_ ?_

theorem placeAt_keeps {x0 x1 x2 x3 x4 x5 x6 x7} (h_counters : w .counters = true) (h_flags : w .flags = true) (h_log : w .log = true) (h_groups : w .groups = true) (h_accounts : w .accounts = true) (h_slots : w .slots = true) (h_history : w .history = true)
    (h : Keeps w k i s) : Keeps w k i (placeAt x0 x1 x2 x3 x4 x5 x6 x7 s) := by
  unfold placeAt
  repeat' first
    | with_reducible assumption
    | (extract_lets +onlyGivenNames y0
       first
       | (refine_lift have hy0 : Keeps w k i y0 := ?_; ?_
          clear_value y0
          revert y0
          intro _ _
          rotate_left
          unfold y0
          clear y0)
       | (try clear_value y0
          revert y0
          intro _))
    | with_reducible refine consume_keeps h_counters h_flags h_log h_groups h_slots h_history ?_
    | with_reducible refine count_keeps h_counters ?_
    | with_reducible refine count1_keeps h_counters ?_
    | with_reducible refine modAcct_keeps h_accounts ?_
    | with_reducible refine modLatent_keeps h_groups ?_
    | with_reducible refine Keeps.ite ?_ ?_
    | split

theorem takeRelease_keeps {x0 x1 x2} (h_accounts : w .accounts = true)
    (h : Keeps w k i s) : Keeps w k i (takeRelease x0 x1 x2 s) := by
  unfold takeRelease
  repeat' first
    | with_reducible assumption
    | (extract_lets +onlyGivenNames y0
       first
       | (refine_lift have hy0 : Keeps w k i y0 := ?_; ?_
          clear_value y0
          revert y0
          intro _ _
          rotate_left
          unfold y0
          clear y0)
       | (try clear_value y0
          revert y0
          intro _))
    | with_reducible refine modAcct_keeps h_accounts ?_
    | with_reducible refine Keeps.ite ?_ ?_
    | split

theorem waitDraw_keeps {x0 x1 x2 x3 x4} (h_counters : w .counters = true) (h_flags : w .flags = true) (h_log : w .log = true) (h_groups : w .groups = true) (h_slots : w .slots = true) (h_history : w .history = true)
    (h : Keeps w k i s) : Keeps w k i (waitDraw x0 x1 x2 x3 x4 s) := by
  unfold waitDraw
  repeat' first
    | with_reducible assumption
    | (extract_lets +onlyGivenNames y0
       first
       | (refine_lift have hy0 : Keeps w k i y0 := ?_; ?_
          clear_value y0
          revert y0
          intro _ _
          rotate_left
          unfold y0
          clear y0)
       | (try clear_value y0
          revert y0
          intro _))
    | with_reducible refine count1_keeps h_counters ?_
    | with_reducible refine modGroup_keeps h_groups ?_
    | with_reducible refine modSlot_keeps h_slots ?_
    | with_reducible refine slotStallTest_keeps h_counters h_flags h_log h_groups h_slots h_history ?_
    | with_reducible refine Keeps.ite ?_ ?_
    | split

theorem packetPlaceEffect_keeps {x0} (h_counters : w .counters = true) (h_flags : w .flags = true) (h_log : w .log = true) (h_groups : w .groups = true) (h_ports : w .ports = true) (h_bufs : w .bufs = true) (h_accounts : w .accounts = true) (h_slots : w .slots = true) (h_history : w .history = true)
    (h : Keeps w k i s) : Keeps w k i (packetPlaceEffect x0 s) := by
  unfold packetPlaceEffect
  repeat' first
    | with_reducible assumption
    | (extract_lets +onlyGivenNames y0
       first
       | (refine_lift have hy0 : Keeps w k i y0 := ?_; ?_
          clear_value y0
          revert y0
          intro _ _
          rotate_left
          unfold y0
          clear y0)
       | (try clear_value y0
          revert y0
          intro _))
    | with_reducible refine closeRegion_keeps h_groups ?_
    | with_reducible refine packetPlaceEffect.closeRegionOpen_keeps h_groups ?_
    | with_reducible refine packetPlaceEffect.keepOriginal_keeps h_groups ?_
    | with_reducible refine passBuf_keeps h_counters h_flags h_log h_ports h_bufs h_history ?_
    | with_reducible refine placeAt_keeps h_counters h_flags h_log h_groups h_accounts h_slots h_history ?_
    | with_reducible refine retireHalf_keeps h_counters h_flags h_log h_slots h_history ?_
    | with_reducible refine takeRelease_keeps h_accounts ?_
    | with_reducible refine tcCount_keeps h_counters ?_
    | with_reducible refine waitDraw_keeps h_counters h_flags h_log h_groups h_slots h_history ?_
    | with_reducible refine whenB_keeps (fun _ _ => ?_) ?_
    | with_reducible refine Keeps.ite ?_ ?_
    | split

theorem policyAccept_keeps {x0 x1 x2} (h_groups : w .groups = true)
    (h : Keeps w k i s) : Keeps w k i (policyAccept x0 x1 x2 s) := by
  unfold policyAccept
  repeat' first
    | with_reducible assumption
    | (extract_lets +onlyGivenNames y0
       first
       | (try clear_value y0
          revert y0
          intro _))
    | with_reducible refine modGroup_keeps h_groups ?_

theorem rateUpdateEffect_keeps {x0} (h_groups : w .groups = true) (h_accounts : w .accounts = true)
    (h : Keeps w k i s) : Keeps w k i (rateUpdateEffect x0 s) := by
  unfold rateUpdateEffect
  repeat' first
    | with_reducible assumption
    | (extract_lets +onlyGivenNames y0
       first
       | (refine_lift have hy0 : Keeps w k i y0 := ?_; ?_
          clear_value y0
          revert y0
          intro _ _
          rotate_left
          unfold y0
          clear y0)
       | (try clear_value y0
          revert y0
          intro _))
    | with_reducible refine modAcct_keeps h_accounts ?_
    | with_reducible refine modGroup_keeps h_groups ?_
    | with_reducible refine foldS_keeps (fun _ _ _ => ?_) ?_

theorem rebuildStartEffect_keeps {x0 x1 x2} (h_groups : w .groups = true)
    (h : Keeps w k i s) : Keeps w k i (rebuildStartEffect x0 x1 x2 s) := by
  unfold rebuildStartEffect
  repeat' first
    | with_reducible assumption
    | with_reducible refine modLatent_keeps h_groups ?_
    | split

theorem reportPolicyAct_keeps {x0 x1 x2} (h_counters : w .counters = true) (h_flags : w .flags = true) (h_log : w .log = true) (h_groups : w .groups = true) (h_history : w .history = true)
    (h : Keeps w k i s) : Keeps w k i (reportPolicyAct x0 x1 x2 s) := by
  unfold reportPolicyAct
  repeat' first
    | with_reducible assumption
    | (extract_lets +onlyGivenNames y0
       first
       | (try clear_value y0
          revert y0
          intro _))
    | with_reducible refine policyAccept_keeps h_groups ?_
    | with_reducible refine queueAck_keeps h_counters h_groups ?_
    | with_reducible refine setFlag_keeps h_counters h_flags h_log h_history ?_
    | with_reducible refine Keeps.ite ?_ ?_

theorem runaheadSetApply_keeps {x0} (h_groups : w .groups = true)
    (h : Keeps w k i s) : KeepsDone w k i (runaheadSetApply x0 s) := by
  unfold runaheadSetApply
  repeat' first
    | with_reducible assumption
    | with_reducible refine modGroup_keeps h_groups ?_
    | with_reducible refine okDone_keeps ?_
    | with_reducible refine KeepsDone.mk ?_

theorem stageBurst_keeps {x0 x1 x2 x3 x4 x5 x6} (h_counters : w .counters = true) (h_flags : w .flags = true) (h_log : w .log = true) (h_groups : w .groups = true) (h_history : w .history = true)
    (h : Keeps w k i s) : Keeps w k i (stageBurst x0 x1 x2 x3 x4 x5 x6 s) := by
  unfold stageBurst
  repeat' first
    | with_reducible assumption
    | (extract_lets +onlyGivenNames y0
       first
       | (refine_lift have hy0 : Keeps w k i y0 := ?_; ?_
          clear_value y0
          revert y0
          intro _ _
          rotate_left
          unfold y0
          clear y0)
       | (try clear_value y0
          revert y0
          intro _))
    | with_reducible refine addLatent_keeps h_groups ?_
    | with_reducible refine count1_keeps h_counters ?_
    | with_reducible refine modGroup_keeps h_groups ?_
    | with_reducible refine setFlag_keeps h_counters h_flags h_log h_history ?_
    | with_reducible refine takeOam_keeps h_groups ?_
    | with_reducible refine whenB_keeps (fun _ _ => ?_) ?_
    | with_reducible refine Keeps.ite ?_ ?_
    | split

theorem stageLeaderOnly_keeps {x0 x1 x2 x3 x4 x5 x6} (h_counters : w .counters = true) (h_groups : w .groups = true)
    (h : Keeps w k i s) : Keeps w k i (stageLeaderOnly x0 x1 x2 x3 x4 x5 x6 s) := by
  unfold stageLeaderOnly
  repeat' first
    | with_reducible assumption
    | (extract_lets +onlyGivenNames y0
       first
       | (refine_lift have hy0 : Keeps w k i y0 := ?_; ?_
          clear_value y0
          revert y0
          intro _ _
          rotate_left
          unfold y0
          clear y0)
       | (try clear_value y0
          revert y0
          intro _))
    | with_reducible refine addLatent_keeps h_groups ?_
    | with_reducible refine count1_keeps h_counters ?_
    | with_reducible refine whenB_keeps (fun _ _ => ?_) ?_

theorem stagingBeginEffect_keeps {x0 x1 x2} (h_counters : w .counters = true) (h_flags : w .flags = true) (h_log : w .log = true) (h_groups : w .groups = true) (h_history : w .history = true)
    (h : Keeps w k i s) : Keeps w k i (stagingBeginEffect x0 x1 x2 s) := by
  unfold stagingBeginEffect
  repeat' first
    | with_reducible assumption
    | with_reducible refine stageBurst_keeps h_counters h_flags h_log h_groups h_history ?_
    | with_reducible refine stageLeaderOnly_keeps h_counters h_groups ?_
    | with_reducible refine Keeps.ite ?_ ?_
    | split

theorem defectSetApply_keeps {x0} (h_counters : w .counters = true) (h_flags : w .flags = true) (h_log : w .log = true) (h_groups : w .groups = true) (h_history : w .history = true)
    (h : Keeps w k i s) : KeepsDone w k i (defectSetApply x0 s) := by
  unfold defectSetApply
  repeat' first
    | with_reducible assumption
    | (extract_lets +onlyGivenNames y0
       first
       | (refine_lift have hy0 : Keeps w k i y0 := ?_; ?_
          clear_value y0
          revert y0
          intro _ _
          rotate_left
          unfold y0
          clear y0)
       | (refine_lift have hy0 : KeepsDone w k i y0 := ?_; ?_
          clear_value y0
          revert y0
          intro _ _
          rotate_left
          unfold y0
          clear y0)
       | (try clear_value y0
          revert y0
          intro _))
    | with_reducible refine followLinkFault_keeps h_counters h_flags h_log h_groups h_history ?_
    | with_reducible refine modGroup_keeps h_groups ?_
    | with_reducible refine okDone_keeps ?_
    | with_reducible refine KeepsDone.mk ?_

theorem disableAct_keeps {x0 x1} (h_counters : w .counters = true) (h_flags : w .flags = true) (h_log : w .log = true) (h_groups : w .groups = true) (h_history : w .history = true)
    (h : Keeps w k i s) : Keeps w k i (disableAct x0 x1 s) := by
  unfold disableAct
  repeat' first
    | with_reducible assumption
    | (extract_lets +onlyGivenNames y0
       first
       | (refine_lift have hy0 : Keeps w k i y0 := ?_; ?_
          clear_value y0
          revert y0
          intro _ _
          rotate_left
          unfold y0
          clear y0)
       | (try clear_value y0
          revert y0
          intro _))
    | with_reducible refine count1_keeps h_counters ?_
    | with_reducible refine modGroup_keeps h_groups ?_
    | with_reducible refine setFlag_keeps h_counters h_flags h_log h_history ?_

theorem enterDisabled_keeps {x0} (h_counters : w .counters = true) (h_flags : w .flags = true) (h_log : w .log = true) (h_rings : w .rings = true) (h_lanes : w .lanes = true) (h_groups : w .groups = true) (h_ports : w .ports = true) (h_bufs : w .bufs = true) (h_accounts : w .accounts = true) (h_slots : w .slots = true) (h_history : w .history = true)
    (h : Keeps w k i s) : Keeps w k i (enterDisabled x0 s) := by
  unfold enterDisabled
  repeat' first
    | with_reducible assumption
    | (extract_lets +onlyGivenNames y0
       first
       | (refine_lift have hy0 : Keeps w k i y0 := ?_; ?_
          clear_value y0
          revert y0
          intro _ _
          rotate_left
          unfold y0
          clear y0)
       | (try clear_value y0
          revert y0
          intro _))
    | with_reducible refine modGroup_keeps h_groups ?_
    | with_reducible refine modLane_keeps h_lanes ?_
    | with_reducible refine stopBursts_keeps h_counters h_flags h_log h_lanes h_groups h_ports h_bufs h_accounts h_slots h_history ?_
    | with_reducible refine truncateBurst_keeps h_counters h_flags h_log h_rings h_lanes h_groups h_ports h_bufs h_accounts h_slots h_history ?_
    | with_reducible refine foldS_keeps (fun _ _ _ => ?_) ?_

theorem disableApplyEffect_keeps {x0} (h_counters : w .counters = true) (h_flags : w .flags = true) (h_log : w .log = true) (h_rings : w .rings = true) (h_lanes : w .lanes = true) (h_groups : w .groups = true) (h_ports : w .ports = true) (h_bufs : w .bufs = true) (h_accounts : w .accounts = true) (h_slots : w .slots = true) (h_history : w .history = true)
    (h : Keeps w k i s) : Keeps w k i (disableApplyEffect x0 s) := by
  unfold disableApplyEffect
  repeat' first
    | with_reducible assumption
    | (extract_lets +onlyGivenNames y0
       first
       | (refine_lift have hy0 : Keeps w k i y0 := ?_; ?_
          clear_value y0
          revert y0
          intro _ _
          rotate_left
          unfold y0
          clear y0)
       | (refine_lift have hy0 : KeepsDone w k i y0 := ?_; ?_
          clear_value y0
          revert y0
          intro _ _
          rotate_left
          unfold y0
          clear y0)
       | (try clear_value y0
          revert y0
          intro _))
    | with_reducible refine enterDisabled_keeps h_counters h_flags h_log h_rings h_lanes h_groups h_ports h_bufs h_accounts h_slots h_history ?_
    | with_reducible refine followLinkFault_keeps h_counters h_flags h_log h_groups h_history ?_
    | with_reducible refine modGroup_keeps h_groups ?_
    | with_reducible refine noteSf_keeps h_groups ?_
    | with_reducible refine Keeps.ite ?_ ?_
    | split

theorem leaveDisabled_keeps {x0 x1} (h_counters : w .counters = true) (h_flags : w .flags = true) (h_log : w .log = true) (h_lanes : w .lanes = true) (h_groups : w .groups = true) (h_accounts : w .accounts = true) (h_history : w .history = true)
    (h : Keeps w k i s) : Keeps w k i (leaveDisabled x0 x1 s) := by
  unfold leaveDisabled
  repeat' first
    | with_reducible assumption
    | (extract_lets +onlyGivenNames y0
       first
       | (try clear_value y0
          revert y0
          intro _))
    | with_reducible refine clearGrants_keeps h_lanes h_groups ?_
    | with_reducible refine enterListen_keeps h_counters h_flags h_log h_lanes h_groups h_accounts h_history ?_
    | with_reducible refine modGroup_keeps h_groups ?_
    | with_reducible refine setFlag_keeps h_counters h_flags h_log h_history ?_
    | with_reducible refine Keeps.ite ?_ ?_

theorem enableAct_keeps {x0 x1} (h_counters : w .counters = true) (h_flags : w .flags = true) (h_log : w .log = true) (h_lanes : w .lanes = true) (h_groups : w .groups = true) (h_accounts : w .accounts = true) (h_history : w .history = true)
    (h : Keeps w k i s) : Keeps w k i (enableAct x0 x1 s) := by
  unfold enableAct
  repeat' first
    | with_reducible assumption
    | (extract_lets +onlyGivenNames y0
       first
       | (refine_lift have hy0 : Keeps w k i y0 := ?_; ?_
          clear_value y0
          revert y0
          intro _ _
          rotate_left
          unfold y0
          clear y0)
       | (try clear_value y0
          revert y0
          intro _))
    | with_reducible refine leaveDisabled_keeps h_counters h_flags h_log h_lanes h_groups h_accounts h_history ?_
    | with_reducible refine modGroup_keeps h_groups ?_
    | with_reducible refine queueAck_keeps h_counters h_groups ?_
    | with_reducible refine setFlag_keeps h_counters h_flags h_log h_history ?_
    | with_reducible refine Keeps.ite ?_ ?_

theorem integrateLos_keeps {x0} (h_lanes : w .lanes = true)
    (h : Keeps w k i s) : Keeps w k i (integrateLos x0 s) := by
  unfold integrateLos
  repeat' first
    | with_reducible assumption
    | (extract_lets +onlyGivenNames y0
       first
       | (refine_lift have hy0 : Keeps w k i y0 := ?_; ?_
          clear_value y0
          revert y0
          intro _ _
          rotate_left
          unfold y0
          clear y0)
       | (try clear_value y0
          revert y0
          intro _))
    | with_reducible refine modLane_keeps h_lanes ?_
    | split

theorem lofClearEffect_keeps {x0} (h_counters : w .counters = true) (h_flags : w .flags = true) (h_log : w .log = true) (h_lanes : w .lanes = true) (h_groups : w .groups = true) (h_ports : w .ports = true) (h_bufs : w .bufs = true) (h_accounts : w .accounts = true) (h_slots : w .slots = true) (h_history : w .history = true)
    (h : Keeps w k i s) : Keeps w k i (lofClearEffect x0 s) := by
  unfold lofClearEffect
  repeat' first
    | with_reducible assumption
    | with_reducible refine changeDefects_keeps h_counters h_flags h_log h_lanes h_groups h_ports h_bufs h_accounts h_slots h_history ?_

theorem lofDeclareEffect_keeps {x0} (h_counters : w .counters = true) (h_flags : w .flags = true) (h_log : w .log = true) (h_lanes : w .lanes = true) (h_groups : w .groups = true) (h_ports : w .ports = true) (h_bufs : w .bufs = true) (h_accounts : w .accounts = true) (h_slots : w .slots = true) (h_history : w .history = true)
    (h : Keeps w k i s) : Keeps w k i (lofDeclareEffect x0 s) := by
  unfold lofDeclareEffect
  repeat' first
    | with_reducible assumption
    | (extract_lets +onlyGivenNames y0
       first
       | (refine_lift have hy0 : Keeps w k i y0 := ?_; ?_
          clear_value y0
          revert y0
          intro _ _
          rotate_left
          unfold y0
          clear y0)
       | (try clear_value y0
          revert y0
          intro _))
    | with_reducible refine changeDefects_keeps h_counters h_flags h_log h_lanes h_groups h_ports h_bufs h_accounts h_slots h_history ?_
    | with_reducible refine fogLaneBursts_keeps h_counters h_flags h_log h_lanes h_groups h_ports h_bufs h_accounts h_slots h_history ?_
    | with_reducible refine loseDevelopedWhere_keeps h_counters h_flags h_log h_groups h_ports h_bufs h_accounts h_slots h_history ?_
    | split

theorem losClearEffect_keeps {x0} (h_counters : w .counters = true) (h_flags : w .flags = true) (h_log : w .log = true) (h_lanes : w .lanes = true) (h_groups : w .groups = true) (h_ports : w .ports = true) (h_bufs : w .bufs = true) (h_accounts : w .accounts = true) (h_slots : w .slots = true) (h_history : w .history = true)
    (h : Keeps w k i s) : Keeps w k i (losClearEffect x0 s) := by
  unfold losClearEffect
  repeat' first
    | with_reducible assumption
    | with_reducible refine changeDefects_keeps h_counters h_flags h_log h_lanes h_groups h_ports h_bufs h_accounts h_slots h_history ?_

theorem losDeclareEffect_keeps {x0} (h_counters : w .counters = true) (h_flags : w .flags = true) (h_log : w .log = true) (h_rings : w .rings = true) (h_lanes : w .lanes = true) (h_groups : w .groups = true) (h_ports : w .ports = true) (h_bufs : w .bufs = true) (h_accounts : w .accounts = true) (h_slots : w .slots = true) (h_history : w .history = true)
    (h : Keeps w k i s) : Keeps w k i (losDeclareEffect x0 s) := by
  unfold losDeclareEffect
  repeat' first
    | with_reducible assumption
    | (extract_lets +onlyGivenNames y0
       first
       | (refine_lift have hy0 : Keeps w k i y0 := ?_; ?_
          clear_value y0
          revert y0
          intro _ _
          rotate_left
          unfold y0
          clear y0)
       | (try clear_value y0
          revert y0
          intro _))
    | with_reducible refine changeDefects_keeps h_counters h_flags h_log h_lanes h_groups h_ports h_bufs h_accounts h_slots h_history ?_
    | with_reducible refine fogLaneBursts_keeps h_counters h_flags h_log h_lanes h_groups h_ports h_bufs h_accounts h_slots h_history ?_
    | with_reducible refine loseDevelopedWhere_keeps h_counters h_flags h_log h_groups h_ports h_bufs h_accounts h_slots h_history ?_
    | with_reducible refine truncateBurst_keeps h_counters h_flags h_log h_rings h_lanes h_groups h_ports h_bufs h_accounts h_slots h_history ?_
    | split

theorem pmCount_keeps {x0} (h_lanes : w .lanes = true) (h_groups : w .groups = true)
    (h : Keeps w k i s) : Keeps w k i (pmCount x0 s) := by
  unfold pmCount
  repeat' first
    | with_reducible assumption
    | (extract_lets +onlyGivenNames y0
       first
       | (refine_lift have hy0 : Keeps w k i y0 := ?_; ?_
          clear_value y0
          revert y0
          intro _ _
          rotate_left
          unfold y0
          clear y0)
       | (try clear_value y0
          revert y0
          intro _))
    | with_reducible refine modGroup_keeps h_groups ?_
    | with_reducible refine modLane_keeps h_lanes ?_
    | with_reducible refine foldS_keeps (fun _ _ _ => ?_) ?_
    | with_reducible refine foldl_keeps (fun _ _ _ => ?_) ?_
    | with_reducible refine Keeps.ite ?_ ?_
    | split

theorem pmReadApply_keeps {x0} 
    (h : Keeps w k i s) : KeepsDone w k i (pmReadApply x0 s) := by
  unfold pmReadApply
  repeat' first
    | with_reducible assumption
    | (extract_lets +onlyGivenNames y0
       first
       | (try clear_value y0
          revert y0
          intro _))
    | split
    | with_reducible refine KeepsDone.mk ?_

theorem pmSecondEffect_keeps {x0} (h_lanes : w .lanes = true) (h_groups : w .groups = true)
    (h : Keeps w k i s) : Keeps w k i (pmSecondEffect x0 s) := by
  unfold pmSecondEffect
  repeat' first
    | with_reducible assumption
    | (extract_lets +onlyGivenNames y0
       first
       | (refine_lift have hy0 : Keeps w k i y0 := ?_; ?_
          clear_value y0
          revert y0
          intro _ _
          rotate_left
          unfold y0
          clear y0)
       | (try clear_value y0
          revert y0
          intro _))
    | with_reducible refine modGroup_keeps h_groups ?_
    | with_reducible refine pmCount_keeps h_lanes h_groups ?_
    | with_reducible refine Keeps.ite ?_ ?_
    | split

theorem rdiAct_keeps {x0 x1} (h_counters : w .counters = true) (h_flags : w .flags = true) (h_log : w .log = true) (h_groups : w .groups = true) (h_history : w .history = true)
    (h : Keeps w k i s) : Keeps w k i (rdiAct x0 x1 s) := by
  unfold rdiAct
  repeat' first
    | with_reducible assumption
    | (extract_lets +onlyGivenNames y0
       first
       | (refine_lift have hy0 : Keeps w k i y0 := ?_; ?_
          clear_value y0
          revert y0
          intro _ _
          rotate_left
          unfold y0
          clear y0)
       | (try clear_value y0
          revert y0
          intro _))
    | with_reducible refine count1_keeps h_counters ?_
    | with_reducible refine modGroup_keeps h_groups ?_
    | with_reducible refine setFlag_keeps h_counters h_flags h_log h_history ?_
    | with_reducible refine Keeps.ite ?_ ?_

theorem rdiTimeoutEffect_keeps {x0} (h_counters : w .counters = true) (h_flags : w .flags = true) (h_log : w .log = true) (h_groups : w .groups = true) (h_history : w .history = true)
    (h : Keeps w k i s) : Keeps w k i (rdiTimeoutEffect x0 s) := by
  unfold rdiTimeoutEffect
  repeat' first
    | with_reducible assumption
    | with_reducible refine modGroup_keeps h_groups ?_
    | with_reducible refine setFlag_keeps h_counters h_flags h_log h_history ?_

theorem windowEvaluateEffect_keeps {x0} (h_counters : w .counters = true) (h_flags : w .flags = true) (h_log : w .log = true) (h_lanes : w .lanes = true) (h_groups : w .groups = true) (h_ports : w .ports = true) (h_bufs : w .bufs = true) (h_accounts : w .accounts = true) (h_slots : w .slots = true) (h_history : w .history = true)
    (h : Keeps w k i s) : Keeps w k i (windowEvaluateEffect x0 s) := by
  unfold windowEvaluateEffect
  repeat' first
    | with_reducible assumption
    | (extract_lets +onlyGivenNames y0
       first
       | (refine_lift have hy0 : Keeps w k i y0 := ?_; ?_
          clear_value y0
          revert y0
          intro _ _
          rotate_left
          unfold y0
          clear y0)
       | (try clear_value y0
          revert y0
          intro _))
    | with_reducible refine changeDefects_keeps h_counters h_flags h_log h_lanes h_groups h_ports h_bufs h_accounts h_slots h_history ?_
    | with_reducible refine modLane_keeps h_lanes ?_
    | with_reducible refine Keeps.ite ?_ ?_
    | split

theorem applyLimits_keeps {x0 x1} (h_counters : w .counters = true) (h_flags : w .flags = true) (h_log : w .log = true) (h_groups : w .groups = true) (h_slots : w .slots = true) (h_history : w .history = true)
    (h : Keeps w k i s) : Keeps w k i (applyLimits x0 x1 s) := by
  unfold applyLimits
  repeat' first
    | with_reducible assumption
    | (extract_lets +onlyGivenNames y0
       first
       | (refine_lift have hy0 : Keeps w k i y0 := ?_; ?_
          clear_value y0
          revert y0
          intro _ _
          rotate_left
          unfold y0
          clear y0)
       | (try clear_value y0
          revert y0
          intro _))
    | with_reducible refine checkRekey_keeps h_counters h_flags h_log h_groups h_slots h_history ?_
    | with_reducible refine retireHalf_keeps h_counters h_flags h_log h_slots h_history ?_
    | with_reducible refine Keeps.ite ?_ ?_

theorem cipPortFailReadApply_keeps {x0} (h_cipher : w .cipher = true)
    (h : Keeps w k i s) : KeepsDone w k i (cipPortFailReadApply x0 s) := by
  unfold cipPortFailReadApply
  repeat' first
    | with_reducible assumption
    | (extract_lets +onlyGivenNames y0
       first
       | (have hy1 : CryptoAll := y0
          clear hy1
          revert y0
          intro _)
       | (try clear_value y0
          revert y0
          intro _))
    | with_reducible refine foldl_keeps (fun _ _ _ => ?_) ?_
    | with_reducible refine Keeps.ite ?_ ?_
    | with_reducible refine KeepsDone.ite ?_ ?_
    | split
    | with_reducible refine KeepsDone.mk ?_
    | with_reducible refine Keeps.set_crypto (.inr rfl) (.inr rfl) (.inl h_cipher) ?_

theorem countUtil_keeps {x0} (h_counters : w .counters = true)
    (h : Keeps w k i s) : Keeps w k i (countUtil x0 s) := by
  unfold countUtil
  repeat' first
    | with_reducible assumption
    | with_reducible refine count1_keeps h_counters ?_
    | split

theorem commandUnwrap_keeps (h_counters : w .counters = true)
    (h : Keeps w k i s) : Keeps w k i (commandUnwrap s) := by
  unfold commandUnwrap
  repeat' first
    | with_reducible assumption
    | with_reducible refine countUtil_keeps h_counters ?_
    | with_reducible refine whenB_keeps (fun _ _ => ?_) ?_
    | split

theorem noteVerified_keeps {x0} (h_slots : w .slots = true)
    (h : Keeps w k i s) : Keeps w k i (noteVerified x0 s) := by
  unfold noteVerified
  repeat' first
    | with_reducible assumption
    | with_reducible refine modHalf_keeps h_slots ?_
    | with_reducible refine Keeps.ite ?_ ?_
    | split

theorem failCtx_keeps {x0 x1} (h_counters : w .counters = true) (h_flags : w .flags = true) (h_bridge : w .bridge = true) (h_log : w .log = true) (h_rings : w .rings = true) (h_lanes : w .lanes = true) (h_ports : w .ports = true) (h_ingress : w .ingress = true) (h_bufs : w .bufs = true) (h_fabric : w .fabric = true) (h_history : w .history = true)
    (h : Keeps w k i s) : Keeps w k i (failCtx x0 x1 s) := by
  unfold failCtx
  repeat' first
    | with_reducible assumption
    | with_reducible refine discardCtx_keeps h_counters h_flags h_bridge h_log h_rings h_lanes h_ports h_ingress h_bufs h_fabric h_history ?_
    | with_reducible refine freeCtx_keeps h_counters h_flags h_bridge h_log h_rings h_lanes h_ports h_ingress h_bufs h_fabric h_history ?_
    | with_reducible refine Keeps.ite ?_ ?_
    | split

theorem releasePlain_keeps {x0 x1} (h_counters : w .counters = true) (h_flags : w .flags = true) (h_bridge : w .bridge = true) (h_log : w .log = true) (h_rings : w .rings = true) (h_lanes : w .lanes = true) (h_ports : w .ports = true) (h_ingress : w .ingress = true) (h_bufs : w .bufs = true) (h_fabric : w .fabric = true) (h_history : w .history = true)
    (h : Keeps w k i s) : Keeps w k i (releasePlain x0 x1 s) := by
  unfold releasePlain
  repeat' first
    | with_reducible assumption
    | with_reducible refine count1_keeps h_counters ?_
    | with_reducible refine dropCtx_keeps h_lanes ?_
    | with_reducible refine failCtx_keeps h_counters h_flags h_bridge h_log h_rings h_lanes h_ports h_ingress h_bufs h_fabric h_history ?_
    | with_reducible refine modCtx_keeps h_lanes ?_
    | with_reducible refine readyTicket_keeps h_counters h_flags h_bridge h_log h_rings h_lanes h_ports h_ingress h_bufs h_fabric h_history ?_
    | with_reducible refine Keeps.ite ?_ ?_
    | split

theorem tagFailed_keeps {x0} (h_counters : w .counters = true) (h_flags : w .flags = true) (h_bridge : w .bridge = true) (h_log : w .log = true) (h_rings : w .rings = true) (h_lanes : w .lanes = true) (h_ports : w .ports = true) (h_ingress : w .ingress = true) (h_bufs : w .bufs = true) (h_cipher : w .cipher = true) (h_fabric : w .fabric = true) (h_history : w .history = true)
    (h : Keeps w k i s) : Keeps w k i (tagFailed x0 s) := by
  unfold tagFailed
  repeat' first
    | with_reducible assumption
    | (extract_lets +onlyGivenNames y0
       first
       | (refine_lift have hy0 : Keeps w k i y0 := ?_; ?_
          clear_value y0
          revert y0
          intro _ _
          rotate_left
          unfold y0
          clear y0)
       | (have hy1 : CryptoAll := y0
          clear hy1
          revert y0
          intro _)
       | (try clear_value y0
          revert y0
          intro _))
    | with_reducible refine count1_keeps h_counters ?_
    | with_reducible refine dropTicket_keeps h_counters h_flags h_bridge h_log h_rings h_lanes h_ports h_ingress h_bufs h_fabric h_history ?_
    | with_reducible refine failCtx_keeps h_counters h_flags h_bridge h_log h_rings h_lanes h_ports h_ingress h_bufs h_fabric h_history ?_
    | split
    | with_reducible refine Keeps.set_crypto (.inr rfl) (.inr rfl) (.inl h_cipher) ?_

theorem decryptCompleteEffect_keeps {x0 x1} (h_counters : w .counters = true) (h_flags : w .flags = true) (h_bridge : w .bridge = true) (h_log : w .log = true) (h_rings : w .rings = true) (h_lanes : w .lanes = true) (h_ports : w .ports = true) (h_ingress : w .ingress = true) (h_bufs : w .bufs = true) (h_slots : w .slots = true) (h_cipher : w .cipher = true) (h_fabric : w .fabric = true) (h_history : w .history = true)
    (h : Keeps w k i s) : Keeps w k i (decryptCompleteEffect x0 x1 s) := by
  unfold decryptCompleteEffect
  repeat' first
    | with_reducible assumption
    | (extract_lets +onlyGivenNames y0
       first
       | (refine_lift have hy0 : Keeps w k i y0 := ?_; ?_
          clear_value y0
          revert y0
          intro _ _
          rotate_left
          unfold y0
          clear y0)
       | (have hy1 : CryptoAll := y0
          clear hy1
          revert y0
          intro _)
       | (try clear_value y0
          revert y0
          intro _))
    | with_reducible refine count1_keeps h_counters ?_
    | with_reducible refine noteVerified_keeps h_slots ?_
    | with_reducible refine releasePlain_keeps h_counters h_flags h_bridge h_log h_rings h_lanes h_ports h_ingress h_bufs h_fabric h_history ?_
    | with_reducible refine tagFailed_keeps h_counters h_flags h_bridge h_log h_rings h_lanes h_ports h_ingress h_bufs h_cipher h_fabric h_history ?_
    | with_reducible refine Keeps.ite ?_ ?_
    | split
    | with_reducible refine Keeps.set_crypto (.inr rfl) (.inr rfl) (.inl h_cipher) ?_

theorem modUtil_keeps {x0} (h_cipher : w .cipher = true)
    (h : Keeps w k i s) : Keeps w k i (modUtil x0 s) := by
  unfold modUtil
  repeat' first
    | with_reducible assumption
    | with_reducible refine Keeps.set_crypto (.inr rfl) (.inr rfl) (.inl h_cipher) ?_

theorem finishTask_keeps {x0} (h_counters : w .counters = true) (h_flags : w .flags = true) (h_log : w .log = true) (h_groups : w .groups = true) (h_slots : w .slots = true) (h_cipher : w .cipher = true) (h_history : w .history = true)
    (h : Keeps w k i s) : Keeps w k i (finishTask x0 s) := by
  unfold finishTask
  repeat' first
    | with_reducible assumption
    | with_reducible refine modSlot_keeps h_slots ?_
    | with_reducible refine modUtil_keeps h_cipher ?_
    | with_reducible refine queueAck_keeps h_counters h_groups ?_
    | with_reducible refine setFlag_keeps h_counters h_flags h_log h_history ?_
    | with_reducible refine Keeps.ite ?_ ?_
    | split
    | with_reducible refine KeepsDone.mk ?_

theorem giveTask_keeps {x0} (h_counters : w .counters = true) (h_cipher : w .cipher = true)
    (h : Keeps w k i s) : Keeps w k i (giveTask x0 s) := by
  unfold giveTask
  repeat' first
    | with_reducible assumption
    | with_reducible refine countUtil_keeps h_counters ?_
    | with_reducible refine modUtil_keeps h_cipher ?_
    | with_reducible refine Keeps.ite ?_ ?_
    | split

theorem kekSetApply_keeps {r : Request} (h_counters : w .counters = true) (h_keks : w .keks = true)
    (h : Keeps w k i s) : KeepsDone w k i (kekSetApply r s) := by
  have put : ∀ st v, Keeps w k i st → Keeps w k i { st with crypto := { st.crypto with keks := v } } := fun st v hs =>
    Keeps.set_crypto (.inr rfl) (.inl h_keks) (.inr ⟨rfl, rfl, rfl⟩) hs
  have h1 : Keeps w k i (commandUnwrap s) := commandUnwrap_keeps h_counters h
  unfold kekSetApply
  refine KeepsDone.ite (KeepsDone.mk (put _ _ h)) ?_
  split
  · exact KeepsDone.mk (put _ _ h1)
  · exact KeepsDone.mk h1

theorem keyBindApply_keeps {x0} (h_accounts : w .accounts = true)
    (h : Keeps w k i s) : KeepsDone w k i (keyBindApply x0 s) := by
  unfold keyBindApply
  repeat' first
    | with_reducible assumption
    | (extract_lets +onlyGivenNames y0
       first
       | (try clear_value y0
          revert y0
          intro _))
    | with_reducible refine modAcct_keeps h_accounts ?_
    | with_reducible refine okDone_keeps ?_
    | with_reducible refine KeepsDone.mk ?_

theorem scheduleSwitch_keeps {x0 x1 x2 x3} (h_counters : w .counters = true) (h_flags : w .flags = true) (h_log : w .log = true) (h_lanes : w .lanes = true) (h_groups : w .groups = true) (h_ports : w .ports = true) (h_bufs : w .bufs = true) (h_accounts : w .accounts = true) (h_slots : w .slots = true) (h_history : w .history = true)
    (h : Keeps w k i s) : Keeps w k i (scheduleSwitch x0 x1 x2 x3 s) := by
  unfold scheduleSwitch
  repeat' first
    | with_reducible assumption
    | with_reducible refine fogKeyBursts_keeps h_counters h_flags h_log h_lanes h_groups h_ports h_bufs h_accounts h_slots h_history ?_
    | with_reducible refine modSlot_keeps h_slots ?_

theorem keyCommitApply_keeps {x0} (h_counters : w .counters = true) (h_flags : w .flags = true) (h_log : w .log = true) (h_lanes : w .lanes = true) (h_groups : w .groups = true) (h_ports : w .ports = true) (h_bufs : w .bufs = true) (h_accounts : w .accounts = true) (h_slots : w .slots = true) (h_history : w .history = true)
    (h : Keeps w k i s) : KeepsDone w k i (keyCommitApply x0 s) := by
  unfold keyCommitApply
  repeat' first
    | with_reducible assumption
    | (extract_lets +onlyGivenNames y0
       first
       | (refine_lift have hy0 : Keeps w k i y0 := ?_; ?_
          clear_value y0
          revert y0
          intro _ _
          rotate_left
          unfold y0
          clear y0)
       | (refine_lift have hy0 : KeepsDone w k i y0 := ?_; ?_
          clear_value y0
          revert y0
          intro _ _
          rotate_left
          unfold y0
          clear y0)
       | (try clear_value y0
          revert y0
          intro _))
    | with_reducible refine makeCurrent_keeps h_counters h_flags h_log h_slots h_history ?_
    | with_reducible refine modSlot_keeps h_slots ?_
    | with_reducible refine okDone_keeps ?_
    | with_reducible refine scheduleSwitch_keeps h_counters h_flags h_log h_lanes h_groups h_ports h_bufs h_accounts h_slots h_history ?_
    | with_reducible refine Keeps.ite ?_ ?_
    | with_reducible refine KeepsDone.ite ?_ ?_
    | split
    | with_reducible refine KeepsDone.mk ?_

theorem keyDeliverAct_keeps {x0 x1} (h_counters : w .counters = true) (h_groups : w .groups = true) (h_slots : w .slots = true) (h_cipher : w .cipher = true)
    (h : Keeps w k i s) : Keeps w k i (keyDeliverAct x0 x1 s) := by
  unfold keyDeliverAct
  repeat' first
    | with_reducible assumption
    | (extract_lets +onlyGivenNames y0
       first
       | (refine_lift have hy0 : Keeps w k i y0 := ?_; ?_
          clear_value y0
          revert y0
          intro _ _
          rotate_left
          unfold y0
          clear y0)
       | (try clear_value y0
          revert y0
          intro _))
    | with_reducible refine giveTask_keeps h_counters h_cipher ?_
    | with_reducible refine modSlot_keeps h_slots ?_
    | with_reducible refine queueAck_keeps h_counters h_groups ?_
    | with_reducible refine Keeps.ite ?_ ?_
    | split

theorem keyEraseApply_keeps {x0} (h_counters : w .counters = true) (h_groups : w .groups = true) (h_slots : w .slots = true) (h_cipher : w .cipher = true)
    (h : Keeps w k i s) : KeepsDone w k i (keyEraseApply x0 s) := by
  unfold keyEraseApply
  repeat' first
    | with_reducible assumption
    | (extract_lets +onlyGivenNames y0
       first
       | (refine_lift have hy0 : Keeps w k i y0 := ?_; ?_
          clear_value y0
          revert y0
          intro _ _
          rotate_left
          unfold y0
          clear y0)
       | (refine_lift have hy0 : KeepsDone w k i y0 := ?_; ?_
          clear_value y0
          revert y0
          intro _ _
          rotate_left
          unfold y0
          clear y0)
       | (try clear_value y0
          revert y0
          intro _))
    | with_reducible refine modSlot_keeps h_slots ?_
    | with_reducible refine modUtil_keeps h_cipher ?_
    | with_reducible refine okDone_keeps ?_
    | with_reducible refine queueAck_keeps h_counters h_groups ?_
    | with_reducible refine Keeps.ite ?_ ?_
    | with_reducible refine KeepsDone.ite ?_ ?_
    | split
    | with_reducible refine KeepsDone.mk ?_

theorem keyEraseCompleteEffect_keeps {x0} (h_counters : w .counters = true) (h_flags : w .flags = true) (h_log : w .log = true) (h_slots : w .slots = true) (h_history : w .history = true)
    (h : Keeps w k i s) : Keeps w k i (keyEraseCompleteEffect x0 s) := by
  unfold keyEraseCompleteEffect
  repeat' first
    | with_reducible assumption
    | (extract_lets +onlyGivenNames y0
       first
       | (refine_lift have hy0 : Keeps w k i y0 := ?_; ?_
          clear_value y0
          revert y0
          intro _ _
          rotate_left
          unfold y0
          clear y0)
       | (try clear_value y0
          revert y0
          intro _))
    | with_reducible refine logEvent_keeps h_counters h_flags h_log h_history ?_
    | with_reducible refine modSlot_keeps h_slots ?_
    | with_reducible refine setFlag_keeps h_counters h_flags h_log h_history ?_

theorem keyLoadApply_keeps {x0} (h_counters : w .counters = true) (h_flags : w .flags = true) (h_log : w .log = true) (h_slots : w .slots = true) (h_history : w .history = true)
    (h : Keeps w k i s) : KeepsDone w k i (keyLoadApply x0 s) := by
  unfold keyLoadApply
  repeat' first
    | with_reducible assumption
    | (extract_lets +onlyGivenNames y0
       first
       | (refine_lift have hy0 : Keeps w k i y0 := ?_; ?_
          clear_value y0
          revert y0
          intro _ _
          rotate_left
          unfold y0
          clear y0)
       | (refine_lift have hy0 : KeepsDone w k i y0 := ?_; ?_
          clear_value y0
          revert y0
          intro _ _
          rotate_left
          unfold y0
          clear y0)
       | (try clear_value y0
          revert y0
          intro _))
    | with_reducible refine commandUnwrap_keeps h_counters ?_
    | with_reducible refine loadHalf_keeps h_slots ?_
    | with_reducible refine setFlag_keeps h_counters h_flags h_log h_history ?_
    | split
    | with_reducible refine KeepsDone.mk ?_

theorem keySlotSetApply_keeps {x0} (h_counters : w .counters = true) (h_flags : w .flags = true) (h_log : w .log = true) (h_groups : w .groups = true) (h_slots : w .slots = true) (h_history : w .history = true)
    (h : Keeps w k i s) : KeepsDone w k i (keySlotSetApply x0 s) := by
  unfold keySlotSetApply
  repeat' first
    | with_reducible assumption
    | (extract_lets +onlyGivenNames y0
       first
       | (refine_lift have hy0 : Keeps w k i y0 := ?_; ?_
          clear_value y0
          revert y0
          intro _ _
          rotate_left
          unfold y0
          clear y0)
       | (try clear_value y0
          revert y0
          intro _))
    | with_reducible refine applyLimits_keeps h_counters h_flags h_log h_groups h_slots h_history ?_
    | with_reducible refine modSlot_keeps h_slots ?_
    | with_reducible refine okDone_keeps ?_
    | with_reducible refine KeepsDone.mk ?_

theorem keyStatusReadApply_keeps {x0} 
    (h : Keeps w k i s) : KeepsDone w k i (keyStatusReadApply x0 s) := by
  unfold keyStatusReadApply
  repeat' first
    | with_reducible assumption
    | with_reducible refine KeepsDone.mk ?_

theorem keySwitchAct_keeps {x0 x1 x2} (h_counters : w .counters = true) (h_flags : w .flags = true) (h_log : w .log = true) (h_lanes : w .lanes = true) (h_groups : w .groups = true) (h_ports : w .ports = true) (h_bufs : w .bufs = true) (h_accounts : w .accounts = true) (h_slots : w .slots = true) (h_history : w .history = true)
    (h : Keeps w k i s) : Keeps w k i (keySwitchAct x0 x1 x2 s) := by
  unfold keySwitchAct
  repeat' first
    | with_reducible assumption
    | (extract_lets +onlyGivenNames y0
       first
       | (try clear_value y0
          revert y0
          intro _))
    | with_reducible refine queueAck_keeps h_counters h_groups ?_
    | with_reducible refine scheduleSwitch_keeps h_counters h_flags h_log h_lanes h_groups h_ports h_bufs h_accounts h_slots h_history ?_
    | with_reducible refine Keeps.ite ?_ ?_

theorem keyWriteCompleteEffect_keeps {x0} (h_counters : w .counters = true) (h_groups : w .groups = true) (h_slots : w .slots = true)
    (h : Keeps w k i s) : Keeps w k i (keyWriteCompleteEffect x0 s) := by
  unfold keyWriteCompleteEffect
  repeat' first
    | with_reducible assumption
    | (extract_lets +onlyGivenNames y0
       first
       | (refine_lift have hy0 : Keeps w k i y0 := ?_; ?_
          clear_value y0
          revert y0
          intro _ _
          rotate_left
          unfold y0
          clear y0)
       | (try clear_value y0
          revert y0
          intro _))
    | with_reducible refine loadHalf_keeps h_slots ?_
    | with_reducible refine modSlot_keeps h_slots ?_
    | with_reducible refine queueAck_keeps h_counters h_groups ?_
    | split

theorem switchBoundaryEffect_keeps {x0 x1} (h_counters : w .counters = true) (h_flags : w .flags = true) (h_log : w .log = true) (h_lanes : w .lanes = true) (h_groups : w .groups = true) (h_ports : w .ports = true) (h_bufs : w .bufs = true) (h_accounts : w .accounts = true) (h_slots : w .slots = true) (h_history : w .history = true)
    (h : Keeps w k i s) : Keeps w k i (switchBoundaryEffect x0 x1 s) := by
  unfold switchBoundaryEffect
  repeat' first
    | with_reducible assumption
    | (extract_lets +onlyGivenNames y0
       first
       | (refine_lift have hy0 : Keeps w k i y0 := ?_; ?_
          clear_value y0
          revert y0
          intro _ _
          rotate_left
          unfold y0
          clear y0)
       | (try clear_value y0
          revert y0
          intro _))
    | with_reducible refine fogKeyBursts_keeps h_counters h_flags h_log h_lanes h_groups h_ports h_bufs h_accounts h_slots h_history ?_
    | with_reducible refine makeCurrent_keeps h_counters h_flags h_log h_slots h_history ?_
    | with_reducible refine modSlot_keeps h_slots ?_
    | with_reducible refine Keeps.ite ?_ ?_
    | split

theorem utilityJobCompleteEffect_keeps (h_counters : w .counters = true) (h_flags : w .flags = true) (h_log : w .log = true) (h_groups : w .groups = true) (h_slots : w .slots = true) (h_cipher : w .cipher = true) (h_history : w .history = true)
    (h : Keeps w k i s) : Keeps w k i (utilityJobCompleteEffect s) := by
  unfold utilityJobCompleteEffect
  repeat' first
    | with_reducible assumption
    | with_reducible refine countUtil_keeps h_counters ?_
    | with_reducible refine finishTask_keeps h_counters h_flags h_log h_groups h_slots h_cipher h_history ?_
    | with_reducible refine modUtil_keeps h_cipher ?_
    | split
    | with_reducible refine KeepsDone.mk ?_

end Sys2Proof.Machine
end

