-- ==== Sys2Proof/Laws/KeepsPath.lean ====
section
/-!
SUPPORT. Laws/KeepsPath.lean: one lemma for each operation of Machine/Deliver, Classify, HostPort, Sched, FwOps, Hbm, Buffers, Time, LaneOps:
what it leaves unchanged (see Laws/Keeps.lean).
-/
namespace Sys2Proof.Machine

variable {w : Comp → Bool} {k : Prop} {i s : State}

/-! What the channel operations do to a channel's memory. -/

@[simp] theorem note_mem (e : HistEntry) (x : HbmChan) : (note e x).mem = x.mem := rfl

@[simp] theorem closeBanks_mem (n : Nat) (x : HbmChan) : (closeBanks n x).mem = x.mem := rfl

@[simp] theorem issueRefresh_mem (n : Nat) (p : Half) (x : HbmChan) : (issueRefresh n p x).mem = x.mem := rfl

@[simp] theorem dueRefreshes_mem (n : Nat) (x : HbmChan) : (dueRefreshes n x).mem = x.mem := by
  unfold dueRefreshes
  dsimp only
  split <;> split <;> simp

@[simp] theorem burst_mem (n : Nat) (r : HbmReq) (a : Nat) (x : HbmChan) : (burst n r a x).mem = x.mem := by
  unfold burst
  dsimp only
  repeat' split
  all_goals simp

/-- A write of bytes keeps the canonical form of a channel's memory. -/
theorem memWrite_wf {m : Sparse Byte} {a : Nat} {l : List Byte} (h : sparseWf 0 m = true) : sparseWf 0 (memWrite m a l) = true := by
  induction l generalizing m a with
  | nil => exact h
  | cons b t ih => exact ih (sparseWf_set h)

/-- A change of one channel that keeps its memory canonical keeps the whole stack canonical. -/
theorem HbmAll.Canonical.mod {x : HbmAll} {c : ChanId} {f : HbmChan → HbmChan} (h : x.Canonical)
    (hf : ∀ y, sparseWf 0 y.mem = true → sparseWf 0 (f y).mem = true) : ({ x with chans := vmod x.chans c f } : HbmAll).Canonical := by
  intro b
  by_cases hb : b = c
  · subst hb
    show sparseWf 0 ((vmod x.chans b f)[b]).mem = true
    rw [vmod_same]
    exact hf _ (h b)
  · show sparseWf 0 ((vmod x.chans c f)[b]).mem = true
    rw [vmod_other _ _ _ _ hb]
    exact h b

theorem preempt_keeps {x0 x1} (h_counters : w .counters = true) (h_flags : w .flags = true) (h_log : w .log = true) (h_lanes : w .lanes = true) (h_groups : w .groups = true) (h_ports : w .ports = true) (h_bufs : w .bufs = true) (h_accounts : w .accounts = true) (h_slots : w .slots = true) (h_history : w .history = true)
    (h : Keeps w k i s) : Keeps w k i (preempt x0 x1 s) := by
  unfold preempt
  repeat' first
    | with_reducible assumption
    | (extract_lets +onlyGivenNames y0
       first
       | (refine_lift have hy0 : Keeps w k i y0 := ?_; ?_
          clear_value y0
          revert y0
          intro _ _
          rotate_left
          unfold y0
          clear y0)
       | (try clear_value y0
          revert y0
          intro _))
    | with_reducible refine fog_keeps h_counters h_flags h_log h_lanes h_groups h_ports h_bufs h_accounts h_slots h_history ?_
    | with_reducible refine modAcct_keeps h_accounts ?_
    | with_reducible refine Keeps.ite ?_ ?_
    | split

theorem admitFrame_keeps {x0 x1 x2} (h_counters : w .counters = true) (h_flags : w .flags = true) (h_log : w .log = true) (h_rings : w .rings = true) (h_lanes : w .lanes = true) (h_groups : w .groups = true) (h_ports : w .ports = true) (h_bufs : w .bufs = true) (h_accounts : w .accounts = true) (h_slots : w .slots = true) (h_history : w .history = true)
    (h : Keeps w k i s) : Keeps w k i (admitFrame x0 x1 x2 s) := by
  unfold admitFrame
  repeat' first
    | with_reducible assumption
    | (extract_lets +onlyGivenNames y0
       first
       | (refine_lift have hy0 : Keeps w k i y0 := ?_; ?_
          clear_value y0
          revert y0
          intro _ _
          rotate_left
          unfold y0
          clear y0)
       | (try clear_value y0
          revert y0
          intro _))
    | with_reducible refine count1_keeps h_counters ?_
    | with_reducible refine discard_keeps h_counters h_flags h_log h_rings h_ports h_bufs h_history ?_
    | with_reducible refine modAcct_keeps h_accounts ?_
    | with_reducible refine preempt_keeps h_counters h_flags h_log h_lanes h_groups h_ports h_bufs h_accounts h_slots h_history ?_
    | with_reducible refine setFlag_keeps h_counters h_flags h_log h_history ?_
    | with_reducible refine Keeps.ite ?_ ?_
    | split

theorem admitLocal_keeps {x0 x1 x2} (h_counters : w .counters = true) (h_flags : w .flags = true) (h_log : w .log = true) (h_rings : w .rings = true) (h_lanes : w .lanes = true) (h_groups : w .groups = true) (h_ports : w .ports = true) (h_bufs : w .bufs = true) (h_accounts : w .accounts = true) (h_slots : w .slots = true) (h_history : w .history = true)
    (h : Keeps w k i s) : Keeps w k i (admitLocal x0 x1 x2 s) := by
  unfold admitLocal
  repeat' first
    | with_reducible assumption
    | with_reducible refine admitFrame_keeps h_counters h_flags h_log h_rings h_lanes h_groups h_ports h_bufs h_accounts h_slots h_history ?_
    | (refine holdStopped_keepsE h_counters h_flags h_log h_rings h_ports h_bufs h_history (by assumption) ?_)
    | with_reducible refine holdStopped_keeps h_counters h_flags h_log h_rings h_ports h_bufs h_history ?_
    | with_reducible refine Keeps.ite ?_ ?_
    | split

theorem admitUp_keeps {x0 x1 x2} (h_counters : w .counters = true) (h_flags : w .flags = true) (h_bridge : w .bridge = true) (h_log : w .log = true) (h_rings : w .rings = true) (h_lanes : w .lanes = true) (h_groups : w .groups = true) (h_ports : w .ports = true) (h_bufs : w .bufs = true) (h_accounts : w .accounts = true) (h_slots : w .slots = true) (h_fabric : w .fabric = true) (h_history : w .history = true)
    (h : Keeps w k i s) : Keeps w k i (admitUp x0 x1 x2 s) := by
  unfold admitUp
  repeat' first
    | with_reducible assumption
    | with_reducible refine admitLocal_keeps h_counters h_flags h_log h_rings h_lanes h_groups h_ports h_bufs h_accounts h_slots h_history ?_
    | with_reducible refine fabSend_keeps h_counters h_flags h_bridge h_log h_rings h_ports h_bufs h_fabric h_history ?_
    | with_reducible refine Keeps.ite ?_ ?_
    | split

theorem discardUnreach_keeps {x0} (h_counters : w .counters = true) (h_flags : w .flags = true) (h_log : w .log = true) (h_rings : w .rings = true) (h_ports : w .ports = true) (h_bufs : w .bufs = true) (h_history : w .history = true)
    (h : Keeps w k i s) : Keeps w k i (discardUnreach x0 s) := by
  unfold discardUnreach
  repeat' first
    | with_reducible assumption
    | with_reducible refine count1_keeps h_counters ?_
    | with_reducible refine discard_keeps h_counters h_flags h_log h_rings h_ports h_bufs h_history ?_

theorem modQueue_keeps {x1 x2 x3} (h_ports : w .ports = true)
    (h : Keeps w k i s) : Keeps w k i (modQueue s x1 x2 x3) := by
  unfold modQueue
  repeat' first
    | with_reducible assumption
    | with_reducible refine modPort_keeps h_ports ?_

theorem enqueueHost_keeps {x0 x1 x2} (h_counters : w .counters = true) (h_flags : w .flags = true) (h_log : w .log = true) (h_rings : w .rings = true) (h_ports : w .ports = true) (h_bufs : w .bufs = true) (h_history : w .history = true)
    (h : Keeps w k i s) : Keeps w k i (enqueueHost x0 x1 x2 s) := by
  have hd : Keeps w k i (discard x2 s) := discard_keeps h_counters h_flags h_log h_rings h_ports h_bufs h_history h
  unfold enqueueHost
  extract_lets n q far join
  have hj : ∀ g st, Keeps w k i st → Keeps w k i (join g st) := fun g st hs => by
    unfold join
    exact modQueue_keeps h_ports hs
  refine Keeps.ite (setFlag_keeps h_counters h_flags h_log h_history (count1_keeps h_counters hd)) (Keeps.ite ?_ (hj _ _ h))
  split
  · exact hj _ _ (holdStopped_keepsE h_counters h_flags h_log h_rings h_ports h_bufs h_history (by assumption) h)
  · exact holdStopped_keepsE h_counters h_flags h_log h_rings h_ports h_bufs h_history (by assumption) h

theorem rxqDrop_keeps {x0} (h_counters : w .counters = true)
    (h : Keeps w k i s) : Keeps w k i (rxqDrop x0 s) := by
  unfold rxqDrop
  repeat' first
    | with_reducible assumption
    | with_reducible refine count1_keeps h_counters ?_

theorem mgtDeliver_keeps {x0 x1} (h_counters : w .counters = true) (h_flags : w .flags = true) (h_log : w .log = true) (h_rings : w .rings = true) (h_ports : w .ports = true) (h_bufs : w .bufs = true) (h_history : w .history = true)
    (h : Keeps w k i s) : Keeps w k i (mgtDeliver x0 x1 s) := by
  unfold mgtDeliver
  repeat' first
    | with_reducible assumption
    | (extract_lets +onlyGivenNames y0
       first
       | (refine_lift have hy0 : Keeps w k i y0 := ?_; ?_
          clear_value y0
          revert y0
          intro _ _
          rotate_left
          unfold y0
          clear y0)
       | (have hy1 : EventAll := y0
          clear hy1
          revert y0
          intro _)
       | (try clear_value y0
          revert y0
          intro _))
    | (refine allocBuf_keepsE h_counters h_flags h_log h_ports h_bufs h_history (by assumption) ?_)
    | with_reducible refine allocBuf_keeps h_counters h_flags h_log h_ports h_bufs h_history ?_
    | with_reducible refine dropBuf_keeps h_counters h_flags h_log h_ports h_bufs h_history ?_
    | with_reducible refine dropOwed_keeps h_rings ?_
    | with_reducible refine rxqDrop_keeps h_counters ?_
    | split
    | exact fun _ hc => hc
    | with_reducible refine Keeps.set_ev (.inr ⟨rfl, rfl, rfl, rfl, rfl⟩) (.inl h_rings) ?_ ?_

theorem sendFabric_keeps {x0 x1} (h_counters : w .counters = true) (h_flags : w .flags = true) (h_bridge : w .bridge = true) (h_log : w .log = true) (h_rings : w .rings = true) (h_ports : w .ports = true) (h_ingress : w .ingress = true) (h_bufs : w .bufs = true) (h_fabric : w .fabric = true) (h_history : w .history = true)
    (h : Keeps w k i s) : Keeps w k i (sendFabric x0 x1 s) := by
  unfold sendFabric
  repeat' first
    | with_reducible assumption
    | with_reducible refine enterPath_keeps h_ingress ?_
    | with_reducible refine fabSend_keeps h_counters h_flags h_bridge h_log h_rings h_ports h_bufs h_fabric h_history ?_
    | with_reducible refine Keeps.ite ?_ ?_
    | split

theorem bumpSettings_keeps (h_cls : w .cls = true)
    (h : Keeps w k i s) : Keeps w k i (bumpSettings s) := by
  unfold bumpSettings
  repeat' first
    | with_reducible assumption
    | with_reducible refine modCls_keeps h_cls ?_
    | with_reducible refine foldS_keeps (fun _ _ _ => ?_) ?_

theorem destBad_keeps {x0 x1} (h_counters : w .counters = true) (h_flags : w .flags = true) (h_log : w .log = true) (h_rings : w .rings = true) (h_ports : w .ports = true) (h_bufs : w .bufs = true) (h_history : w .history = true)
    (h : Keeps w k i s) : Keeps w k i (destBad x0 x1 s) := by
  unfold destBad
  repeat' first
    | with_reducible assumption
    | with_reducible refine count1_keeps h_counters ?_
    | with_reducible refine discard_keeps h_counters h_flags h_log h_rings h_ports h_bufs h_history ?_
    | with_reducible refine setFlag_keeps h_counters h_flags h_log h_history ?_

theorem shareBuf_keeps {x0} (h_counters : w .counters = true) (h_flags : w .flags = true) (h_log : w .log = true) (h_ports : w .ports = true) (h_bufs : w .bufs = true) (h_history : w .history = true)
    (h : Keeps w k i s) : Keeps w k i (shareBuf x0 s) := by
  unfold shareBuf
  repeat' first
    | with_reducible assumption
    | (extract_lets +onlyGivenNames y0
       first
       | (try clear_value y0
          revert y0
          intro _))
    | with_reducible refine bufOp_keeps h_counters h_flags h_log h_ports h_bufs h_history ?_
    | with_reducible refine Keeps.ite ?_ ?_
    | split

theorem landFrame_keeps {x0 x1 x2 x3} (h_counters : w .counters = true) (h_flags : w .flags = true) (h_bridge : w .bridge = true) (h_log : w .log = true) (h_rings : w .rings = true) (h_lanes : w .lanes = true) (h_groups : w .groups = true) (h_ports : w .ports = true) (h_ingress : w .ingress = true) (h_bufs : w .bufs = true) (h_accounts : w .accounts = true) (h_slots : w .slots = true) (h_fabric : w .fabric = true) (h_history : w .history = true)
    (h : Keeps w k i s) : Keeps w k i (landFrame x0 x1 x2 x3 s) := by
  unfold landFrame
  repeat' first
    | with_reducible assumption
    | with_reducible refine admitLocal_keeps h_counters h_flags h_log h_rings h_lanes h_groups h_ports h_bufs h_accounts h_slots h_history ?_
    | with_reducible refine admitUp_keeps h_counters h_flags h_bridge h_log h_rings h_lanes h_groups h_ports h_bufs h_accounts h_slots h_fabric h_history ?_
    | with_reducible refine enqueueHost_keeps h_counters h_flags h_log h_rings h_ports h_bufs h_history ?_
    | with_reducible refine mgtDeliver_keeps h_counters h_flags h_log h_rings h_ports h_bufs h_history ?_
    | with_reducible refine sendFabric_keeps h_counters h_flags h_bridge h_log h_rings h_ports h_ingress h_bufs h_fabric h_history ?_
    | split

theorem toDest_keeps {x0 x1 x2 x3} (h_counters : w .counters = true) (h_flags : w .flags = true) (h_bridge : w .bridge = true) (h_log : w .log = true) (h_rings : w .rings = true) (h_lanes : w .lanes = true) (h_groups : w .groups = true) (h_ports : w .ports = true) (h_ingress : w .ingress = true) (h_bufs : w .bufs = true) (h_accounts : w .accounts = true) (h_slots : w .slots = true) (h_fabric : w .fabric = true) (h_history : w .history = true)
    (h : Keeps w k i s) : Keeps w k i (toDest x0 x1 x2 x3 s) := by
  unfold toDest
  repeat' first
    | with_reducible assumption
    | with_reducible refine bridgeSend_keeps h_bridge ?_
    | with_reducible refine discardUnreach_keeps h_counters h_flags h_log h_rings h_ports h_bufs h_history ?_
    | with_reducible refine landFrame_keeps h_counters h_flags h_bridge h_log h_rings h_lanes h_groups h_ports h_ingress h_bufs h_accounts h_slots h_fabric h_history ?_
    | with_reducible refine Keeps.ite ?_ ?_
    | split

theorem mirrorFrame_keeps {x0 x1 x2} (h_counters : w .counters = true) (h_flags : w .flags = true) (h_bridge : w .bridge = true) (h_log : w .log = true) (h_rings : w .rings = true) (h_lanes : w .lanes = true) (h_groups : w .groups = true) (h_ports : w .ports = true) (h_ingress : w .ingress = true) (h_bufs : w .bufs = true) (h_accounts : w .accounts = true) (h_slots : w .slots = true) (h_fabric : w .fabric = true) (h_history : w .history = true)
    (h : Keeps w k i s) : Keeps w k i (mirrorFrame x0 x1 x2 s) := by
  unfold mirrorFrame
  repeat' first
    | with_reducible assumption
    | (extract_lets +onlyGivenNames y0
       first
       | (try clear_value y0
          revert y0
          intro _))
    | with_reducible refine count1_keeps h_counters ?_
    | with_reducible refine shareBuf_keeps h_counters h_flags h_log h_ports h_bufs h_history ?_
    | with_reducible refine toDest_keeps h_counters h_flags h_bridge h_log h_rings h_lanes h_groups h_ports h_ingress h_bufs h_accounts h_slots h_fabric h_history ?_
    | with_reducible refine Keeps.ite ?_ ?_

theorem police_keeps {x0 x1 x2} (h_counters : w .counters = true) (h_flags : w .flags = true) (h_log : w .log = true) (h_policers : w .policers = true) (h_history : w .history = true)
    (h : Keeps w k i s) : Keeps w k i (police x0 x1 x2 s).2 := by
  unfold police
  repeat' first
    | with_reducible assumption
    | (extract_lets +onlyGivenNames y0
       first
       | (have hy1 : PathAll := y0
          clear hy1
          revert y0
          intro _)
       | (try clear_value y0
          revert y0
          intro _))
    | with_reducible refine count1_keeps h_counters ?_
    | with_reducible refine setFlag_keeps h_counters h_flags h_log h_history ?_
    | with_reducible refine Keeps.ite ?_ ?_
    | split
    | with_reducible refine Keeps.set_path (.inr ⟨rfl, rfl, rfl, rfl, rfl⟩) (.inr ⟨rfl, rfl⟩) (.inr ⟨rfl, rfl, rfl⟩) (.inr rfl) (.inr ⟨rfl, rfl, rfl, rfl, rfl, rfl, rfl, rfl⟩) (.inl h_policers) ?_

theorem police_keepsE {x0 x1 x2} (h_counters : w .counters = true) (h_flags : w .flags = true) (h_log : w .log = true) (h_policers : w .policers = true) (h_history : w .history = true) {p t} (e : police x0 x1 x2 s = (p, t))
    (h : Keeps w k i s) : Keeps w k i t := by
  have g := police_keeps (x0 := x0) (x1 := x1) (x2 := x2) h_counters h_flags h_log h_policers h_history h
  rw [e] at g
  exact g

theorem carryOut_keeps {x0 x1 x2 x3 x4} (h_counters : w .counters = true) (h_flags : w .flags = true) (h_bridge : w .bridge = true) (h_log : w .log = true) (h_rings : w .rings = true) (h_lanes : w .lanes = true) (h_groups : w .groups = true) (h_ports : w .ports = true) (h_ingress : w .ingress = true) (h_bufs : w .bufs = true) (h_accounts : w .accounts = true) (h_policers : w .policers = true) (h_slots : w .slots = true) (h_fabric : w .fabric = true) (h_history : w .history = true)
    (h : Keeps w k i s) : Keeps w k i (carryOut x0 x1 x2 x3 x4 s) := by
  unfold carryOut
  repeat' first
    | with_reducible assumption
    | (extract_lets +onlyGivenNames y0
       first
       | (try clear_value y0
          revert y0
          intro _))
    | with_reducible refine count1_keeps h_counters ?_
    | with_reducible refine destBad_keeps h_counters h_flags h_log h_rings h_ports h_bufs h_history ?_
    | with_reducible refine discard_keeps h_counters h_flags h_log h_rings h_ports h_bufs h_history ?_
    | with_reducible refine mirrorFrame_keeps h_counters h_flags h_bridge h_log h_rings h_lanes h_groups h_ports h_ingress h_bufs h_accounts h_slots h_fabric h_history ?_
    | (refine police_keepsE h_counters h_flags h_log h_policers h_history (by assumption) ?_)
    | with_reducible refine police_keeps h_counters h_flags h_log h_policers h_history ?_
    | with_reducible refine setFlag_keeps h_counters h_flags h_log h_history ?_
    | with_reducible refine toDest_keeps h_counters h_flags h_bridge h_log h_rings h_lanes h_groups h_ports h_ingress h_bufs h_accounts h_slots h_fabric h_history ?_
    | with_reducible refine Keeps.ite ?_ ?_
    | split

theorem fromRecirc_keeps {x0} (h_counters : w .counters = true) (h_flags : w .flags = true) (h_log : w .log = true) (h_ports : w .ports = true) (h_bufs : w .bufs = true) (h_history : w .history = true)
    (h : Keeps w k i s) : Keeps w k i (fromRecirc x0 s) := by
  unfold fromRecirc
  repeat' first
    | with_reducible assumption
    | with_reducible refine passBuf_keeps h_counters h_flags h_log h_ports h_bufs h_history ?_

theorem hitCount_keeps {x0 x1} (h_counters : w .counters = true)
    (h : Keeps w k i s) : Keeps w k i (hitCount x0 x1 s) := by
  unfold hitCount
  repeat' first
    | with_reducible assumption
    | with_reducible refine count1_keeps h_counters ?_
    | split

theorem parseMarks_keeps {x0 x1} (h_counters : w .counters = true) (h_flags : w .flags = true) (h_log : w .log = true) (h_history : w .history = true)
    (h : Keeps w k i s) : Keeps w k i (parseMarks x0 x1 s) := by
  unfold parseMarks
  repeat' first
    | with_reducible assumption
    | (extract_lets +onlyGivenNames y0
       first
       | (refine_lift have hy0 : Keeps w k i y0 := ?_; ?_
          clear_value y0
          revert y0
          intro _ _
          rotate_left
          unfold y0
          clear y0)
       | (try clear_value y0
          revert y0
          intro _))
    | with_reducible refine count1_keeps h_counters ?_
    | with_reducible refine setFlag_keeps h_counters h_flags h_log h_history ?_
    | with_reducible refine Keeps.ite ?_ ?_

theorem recirculate_keeps {x0 x1 x2 x3 x4} (h_counters : w .counters = true) (h_flags : w .flags = true) (h_log : w .log = true) (h_rings : w .rings = true) (h_ports : w .ports = true) (h_cls : w .cls = true) (h_bufs : w .bufs = true) (h_history : w .history = true)
    (h : Keeps w k i s) : Keeps w k i (recirculate x0 x1 x2 x3 x4 s) := by
  unfold recirculate
  repeat' first
    | with_reducible assumption
    | (extract_lets +onlyGivenNames y0
       first
       | (refine_lift have hy0 : Keeps w k i y0 := ?_; ?_
          clear_value y0
          revert y0
          intro _ _
          rotate_left
          unfold y0
          clear y0)
       | (try clear_value y0
          revert y0
          intro _))
    | with_reducible refine count1_keeps h_counters ?_
    | with_reducible refine discard_keeps h_counters h_flags h_log h_rings h_ports h_bufs h_history ?_
    | with_reducible refine modCls_keeps h_cls ?_
    | with_reducible refine passBuf_keeps h_counters h_flags h_log h_ports h_bufs h_history ?_
    | with_reducible refine setFlag_keeps h_counters h_flags h_log h_history ?_
    | with_reducible refine Keeps.ite ?_ ?_
    | split

theorem classifyPass_keeps {x0 x1 x2 x3 x4 x5 x6} (h_counters : w .counters = true) (h_flags : w .flags = true) (h_bridge : w .bridge = true) (h_log : w .log = true) (h_rings : w .rings = true) (h_lanes : w .lanes = true) (h_groups : w .groups = true) (h_ports : w .ports = true) (h_ingress : w .ingress = true) (h_cls : w .cls = true) (h_bufs : w .bufs = true) (h_accounts : w .accounts = true) (h_policers : w .policers = true) (h_slots : w .slots = true) (h_fabric : w .fabric = true) (h_history : w .history = true)
    (h : Keeps w k i s) : Keeps w k i (classifyPass x0 x1 x2 x3 x4 x5 x6 s) := by
  unfold classifyPass
  repeat' first
    | with_reducible assumption
    | (extract_lets +onlyGivenNames y0
       first
       | (refine_lift have hy0 : Keeps w k i y0 := ?_; ?_
          clear_value y0
          revert y0
          intro _ _
          rotate_left
          unfold y0
          clear y0)
       | (try clear_value y0
          revert y0
          intro _))
    | with_reducible refine carryOut_keeps h_counters h_flags h_bridge h_log h_rings h_lanes h_groups h_ports h_ingress h_bufs h_accounts h_policers h_slots h_fabric h_history ?_
    | with_reducible refine count1_keeps h_counters ?_
    | with_reducible refine discard_keeps h_counters h_flags h_log h_rings h_ports h_bufs h_history ?_
    | with_reducible refine fromRecirc_keeps h_counters h_flags h_log h_ports h_bufs h_history ?_
    | with_reducible refine hitCount_keeps h_counters ?_
    | with_reducible refine mgtDeliver_keeps h_counters h_flags h_log h_rings h_ports h_bufs h_history ?_
    | with_reducible refine parseMarks_keeps h_counters h_flags h_log h_history ?_
    | with_reducible refine recirculate_keeps h_counters h_flags h_log h_rings h_ports h_cls h_bufs h_history ?_
    | with_reducible refine Keeps.ite ?_ ?_
    | split

theorem clsSourceSetApply_keeps {x0} (h_cls : w .cls = true)
    (h : Keeps w k i s) : KeepsDone w k i (clsSourceSetApply x0 s) := by
  unfold clsSourceSetApply
  repeat' first
    | with_reducible assumption
    | (extract_lets +onlyGivenNames y0
       first
       | (have hy1 : PathAll := y0
          clear hy1
          revert y0
          intro _)
       | (try clear_value y0
          revert y0
          intro _))
    | with_reducible refine bumpSettings_keeps h_cls ?_
    | with_reducible refine okDone_keeps ?_
    | with_reducible refine Keeps.ite ?_ ?_
    | with_reducible refine KeepsDone.ite ?_ ?_
    | split
    | with_reducible refine KeepsDone.mk ?_
    | with_reducible refine Keeps.set_path (.inr ⟨rfl, rfl, rfl, rfl, rfl⟩) (.inr ⟨rfl, rfl⟩) (.inl h_cls) (.inr rfl) (.inr ⟨rfl, rfl, rfl, rfl, rfl, rfl, rfl, rfl⟩) (.inr rfl) ?_

theorem flip_keeps {x0} (h_counters : w .counters = true) (h_flags : w .flags = true) (h_log : w .log = true) (h_cls : w .cls = true) (h_history : w .history = true)
    (h : Keeps w k i s) : Keeps w k i (flip x0 s) := by
  unfold flip
  repeat' first
    | with_reducible assumption
    | (extract_lets +onlyGivenNames y0
       first
       | (try clear_value y0
          revert y0
          intro _))
    | with_reducible refine modCls_keeps h_cls ?_
    | with_reducible refine setFlag_keeps h_counters h_flags h_log h_history ?_

theorem mirrorSetApply_keeps {x0} (h_cls : w .cls = true)
    (h : Keeps w k i s) : KeepsDone w k i (mirrorSetApply x0 s) := by
  unfold mirrorSetApply
  repeat' first
    | with_reducible assumption
    | (extract_lets +onlyGivenNames y0
       first
       | (have hy1 : PathAll := y0
          clear hy1
          revert y0
          intro _)
       | (try clear_value y0
          revert y0
          intro _))
    | with_reducible refine okDone_keeps ?_
    | with_reducible refine Keeps.ite ?_ ?_
    | with_reducible refine KeepsDone.ite ?_ ?_
    | split
    | with_reducible refine KeepsDone.mk ?_
    | with_reducible refine Keeps.set_path (.inr ⟨rfl, rfl, rfl, rfl, rfl⟩) (.inr ⟨rfl, rfl⟩) (.inl h_cls) (.inr rfl) (.inr ⟨rfl, rfl, rfl, rfl, rfl, rfl, rfl, rfl⟩) (.inr rfl) ?_

theorem parseAndClassifyEffect_keeps {x0} (h_counters : w .counters = true) (h_flags : w .flags = true) (h_bridge : w .bridge = true) (h_log : w .log = true) (h_rings : w .rings = true) (h_lanes : w .lanes = true) (h_groups : w .groups = true) (h_ports : w .ports = true) (h_ingress : w .ingress = true) (h_cls : w .cls = true) (h_bufs : w .bufs = true) (h_accounts : w .accounts = true) (h_policers : w .policers = true) (h_slots : w .slots = true) (h_fabric : w .fabric = true) (h_history : w .history = true)
    (h : Keeps w k i s) : Keeps w k i (parseAndClassifyEffect x0 s) := by
  unfold parseAndClassifyEffect
  repeat' first
    | with_reducible assumption
    | (extract_lets +onlyGivenNames y0
       first
       | (refine_lift have hy0 : Keeps w k i y0 := ?_; ?_
          clear_value y0
          revert y0
          intro _ _
          rotate_left
          unfold y0
          clear y0)
       | (have hy1 : PathAll := y0
          clear hy1
          revert y0
          intro _)
       | (try clear_value y0
          revert y0
          intro _))
    | with_reducible refine classifyPass_keeps h_counters h_flags h_bridge h_log h_rings h_lanes h_groups h_ports h_ingress h_cls h_bufs h_accounts h_policers h_slots h_fabric h_history ?_
    | split
    | with_reducible refine Keeps.set_path (.inr ⟨rfl, rfl, rfl, rfl, rfl⟩) (.inl h_ingress) (.inr ⟨rfl, rfl, rfl⟩) (.inr rfl) (.inr ⟨rfl, rfl, rfl, rfl, rfl, rfl, rfl, rfl⟩) (.inr rfl) ?_

theorem profileSetApply_keeps {x0} (h_cls : w .cls = true)
    (h : Keeps w k i s) : KeepsDone w k i (profileSetApply x0 s) := by
  unfold profileSetApply
  repeat' first
    | with_reducible assumption
    | with_reducible refine modCls_keeps h_cls ?_
    | with_reducible refine okDone_keeps ?_
    | with_reducible refine foldS_keeps (fun _ _ _ => ?_) ?_
    | with_reducible refine KeepsDone.mk ?_

theorem putTables_keeps {x0 x1 x2} (h_cls : w .cls = true)
    (h : Keeps w k i s) : Keeps w k i (putTables x0 x1 x2 s) := by
  unfold putTables
  repeat' first
    | with_reducible assumption
    | with_reducible refine modCls_keeps h_cls ?_

theorem recircPassEffect_keeps {x0} (h_counters : w .counters = true) (h_flags : w .flags = true) (h_bridge : w .bridge = true) (h_log : w .log = true) (h_rings : w .rings = true) (h_lanes : w .lanes = true) (h_groups : w .groups = true) (h_ports : w .ports = true) (h_ingress : w .ingress = true) (h_cls : w .cls = true) (h_bufs : w .bufs = true) (h_accounts : w .accounts = true) (h_policers : w .policers = true) (h_slots : w .slots = true) (h_fabric : w .fabric = true) (h_history : w .history = true)
    (h : Keeps w k i s) : Keeps w k i (recircPassEffect x0 s) := by
  unfold recircPassEffect
  repeat' first
    | with_reducible assumption
    | (extract_lets +onlyGivenNames y0
       first
       | (refine_lift have hy0 : Keeps w k i y0 := ?_; ?_
          clear_value y0
          revert y0
          intro _ _
          rotate_left
          unfold y0
          clear y0)
       | (try clear_value y0
          revert y0
          intro _))
    | with_reducible refine classifyPass_keeps h_counters h_flags h_bridge h_log h_rings h_lanes h_groups h_ports h_ingress h_cls h_bufs h_accounts h_policers h_slots h_fabric h_history ?_
    | with_reducible refine count1_keeps h_counters ?_
    | with_reducible refine modCls_keeps h_cls ?_
    | with_reducible refine Keeps.ite ?_ ?_
    | split

theorem retireForcedEffect_keeps {x0} (h_counters : w .counters = true) (h_flags : w .flags = true) (h_log : w .log = true) (h_rings : w .rings = true) (h_ports : w .ports = true) (h_cls : w .cls = true) (h_bufs : w .bufs = true) (h_history : w .history = true)
    (h : Keeps w k i s) : Keeps w k i (retireForcedEffect x0 s) := by
  unfold retireForcedEffect
  repeat' first
    | with_reducible assumption
    | (extract_lets +onlyGivenNames y0
       first
       | (refine_lift have hy0 : Keeps w k i y0 := ?_; ?_
          clear_value y0
          revert y0
          intro _ _
          rotate_left
          unfold y0
          clear y0)
       | (try clear_value y0
          revert y0
          intro _))
    | with_reducible refine count_keeps h_counters ?_
    | with_reducible refine discard_keeps h_counters h_flags h_log h_rings h_ports h_bufs h_history ?_
    | with_reducible refine modCls_keeps h_cls ?_
    | with_reducible refine setFlag_keeps h_counters h_flags h_log h_history ?_
    | with_reducible refine foldS_keeps (fun _ _ _ => ?_) ?_

theorem retireTables_keeps {x0} (h_counters : w .counters = true) (h_flags : w .flags = true) (h_log : w .log = true) (h_cls : w .cls = true) (h_history : w .history = true)
    (h : Keeps w k i s) : Keeps w k i (retireTables x0 s) := by
  unfold retireTables
  repeat' first
    | with_reducible assumption
    | with_reducible refine modCls_keeps h_cls ?_
    | with_reducible refine setFlag_keeps h_counters h_flags h_log h_history ?_

theorem retirementEffect_keeps {x0} (h_counters : w .counters = true) (h_flags : w .flags = true) (h_log : w .log = true) (h_cls : w .cls = true) (h_history : w .history = true)
    (h : Keeps w k i s) : Keeps w k i (retirementEffect x0 s) := by
  unfold retirementEffect
  repeat' first
    | with_reducible assumption
    | with_reducible refine retireTables_keeps h_counters h_flags h_log h_cls h_history ?_

theorem ruleCommitApply_keeps {x0} (h_counters : w .counters = true) (h_flags : w .flags = true) (h_log : w .log = true) (h_cls : w .cls = true) (h_history : w .history = true)
    (h : Keeps w k i s) : KeepsDone w k i (ruleCommitApply x0 s) := by
  unfold ruleCommitApply
  repeat' first
    | with_reducible assumption
    | (extract_lets +onlyGivenNames y0
       first
       | (refine_lift have hy0 : Keeps w k i y0 := ?_; ?_
          clear_value y0
          revert y0
          intro _ _
          rotate_left
          unfold y0
          clear y0)
       | (try clear_value y0
          revert y0
          intro _))
    | with_reducible refine flip_keeps h_counters h_flags h_log h_cls h_history ?_
    | with_reducible refine foldS_keeps (fun _ _ _ => ?_) ?_
    | with_reducible refine foldl_keeps (fun _ _ _ => ?_) ?_
    | with_reducible refine Keeps.ite ?_ ?_
    | with_reducible refine KeepsDone.ite ?_ ?_
    | split
    | with_reducible refine KeepsDone.mk ?_

theorem ruleItem_keeps {x0 x1 x2} (h_cls : w .cls = true)
    (h : Keeps w k i s) : Keeps w k i (ruleItem x0 x1 x2 s) := by
  unfold ruleItem
  repeat' first
    | with_reducible assumption
    | (extract_lets +onlyGivenNames y0
       first
       | (refine_lift have hy0 : Keeps w k i y0 := ?_; ?_
          clear_value y0
          revert y0
          intro _ _
          rotate_left
          unfold y0
          clear y0)
       | (try clear_value y0
          revert y0
          intro _))
    | with_reducible refine putTables_keeps h_cls ?_
    | split

theorem ruleItems_keeps {r : Request} {l : List Nat} (h_counters : w .counters = true) (h_flags : w .flags = true) (h_log : w .log = true) (h_cls : w .cls = true) (h_history : w .history = true) (h : Keeps w k i s) :
    Keeps w k i (ruleItems r l s).2 := by
  induction l generalizing s with
  | nil => exact h
  | cons x t ih =>
    unfold ruleItems
    extract_lets full
    split
    · exact ih (foldS_keeps (fun _ _ hs => ruleItem_keeps h_cls hs) h)
    · exact foldS_keeps (fun _ _ hs => setFlag_keeps h_counters h_flags h_log h_history (count1_keeps h_counters hs)) h

theorem ruleItems_keepsE {r : Request} {l : List Nat} (h_counters : w .counters = true) (h_flags : w .flags = true) (h_log : w .log = true) (h_cls : w .cls = true) (h_history : w .history = true) {p t} (e : ruleItems r l s = (p, t))
    (h : Keeps w k i s) : Keeps w k i t := by
  have g := ruleItems_keeps (r := r) (l := l) h_counters h_flags h_log h_cls h_history h
  rw [e] at g
  exact g

theorem ruleReadApply_keeps {x0} 
    (h : Keeps w k i s) : KeepsDone w k i (ruleReadApply x0 s) := by
  unfold ruleReadApply
  repeat' first
    | with_reducible assumption
    | (extract_lets +onlyGivenNames y0
       first
       | (try clear_value y0
          revert y0
          intro _))
    | with_reducible refine okDone_keeps ?_
    | with_reducible refine Keeps.ite ?_ ?_
    | with_reducible refine KeepsDone.ite ?_ ?_
    | split
    | with_reducible refine KeepsDone.mk ?_

theorem ruleWriteApply_keeps {x0} (h_counters : w .counters = true) (h_flags : w .flags = true) (h_log : w .log = true) (h_cls : w .cls = true) (h_history : w .history = true)
    (h : Keeps w k i s) : KeepsDone w k i (ruleWriteApply x0 s) := by
  unfold ruleWriteApply
  repeat' first
    | with_reducible assumption
    | (refine ruleItems_keepsE h_counters h_flags h_log h_cls h_history (by assumption) ?_)
    | with_reducible refine ruleItems_keeps h_counters h_flags h_log h_cls h_history ?_
    | with_reducible refine Keeps.ite ?_ ?_
    | with_reducible refine KeepsDone.ite ?_ ?_
    | split
    | with_reducible refine KeepsDone.mk ?_

theorem shadowLoadCompleteEffect_keeps {x0} (h_cls : w .cls = true)
    (h : Keeps w k i s) : Keeps w k i (shadowLoadCompleteEffect x0 s) := by
  unfold shadowLoadCompleteEffect
  repeat' first
    | with_reducible assumption
    | with_reducible refine modCls_keeps h_cls ?_

theorem spreadSetApply_keeps {x0} (h_cls : w .cls = true)
    (h : Keeps w k i s) : KeepsDone w k i (spreadSetApply x0 s) := by
  unfold spreadSetApply
  repeat' first
    | with_reducible assumption
    | (extract_lets +onlyGivenNames y0
       first
       | (try clear_value y0
          revert y0
          intro _))
    | with_reducible refine modCls_keeps h_cls ?_
    | with_reducible refine okDone_keeps ?_
    | with_reducible refine foldS_keeps (fun _ _ _ => ?_) ?_
    | with_reducible refine KeepsDone.mk ?_

theorem tableModeSetApply_keeps {x0} (h_cls : w .cls = true)
    (h : Keeps w k i s) : KeepsDone w k i (tableModeSetApply x0 s) := by
  unfold tableModeSetApply
  repeat' first
    | with_reducible assumption
    | (extract_lets +onlyGivenNames y0
       first
       | (try clear_value y0
          revert y0
          intro _))
    | with_reducible refine modCls_keeps h_cls ?_
    | with_reducible refine okDone_keeps ?_
    | with_reducible refine foldS_keeps (fun _ _ _ => ?_) ?_
    | with_reducible refine Keeps.ite ?_ ?_
    | with_reducible refine KeepsDone.mk ?_

theorem csumMarks_keeps {x0 x1 x2} (h_counters : w .counters = true) (h_flags : w .flags = true) (h_log : w .log = true) (h_history : w .history = true)
    (h : Keeps w k i s) : Keeps w k i (csumMarks x0 x1 x2 s) := by
  unfold csumMarks
  repeat' first
    | with_reducible assumption
    | with_reducible refine count1_keeps h_counters ?_
    | with_reducible refine setFlag_keeps h_counters h_flags h_log h_history ?_
    | with_reducible refine whenB_keeps (fun _ _ => ?_) ?_

theorem rxCounts_keeps {x0 x1} (h_counters : w .counters = true)
    (h : Keeps w k i s) : Keeps w k i (rxCounts x0 x1 s) := by
  unfold rxCounts
  repeat' first
    | with_reducible assumption
    | (extract_lets +onlyGivenNames y0
       first
       | (refine_lift have hy0 : Keeps w k i y0 := ?_; ?_
          clear_value y0
          revert y0
          intro _ _
          rotate_left
          unfold y0
          clear y0)
       | (try clear_value y0
          revert y0
          intro _))
    | with_reducible refine count_keeps h_counters ?_
    | with_reducible refine count1_keeps h_counters ?_
    | with_reducible refine Keeps.ite ?_ ?_

theorem acceptFrame_keeps {x0 x1} (h_counters : w .counters = true) (h_flags : w .flags = true) (h_log : w .log = true) (h_rings : w .rings = true) (h_ports : w .ports = true) (h_ingress : w .ingress = true) (h_bufs : w .bufs = true) (h_history : w .history = true)
    (h : Keeps w k i s) : Keeps w k i (acceptFrame x0 x1 s) := by
  unfold acceptFrame
  repeat' first
    | with_reducible assumption
    | (extract_lets +onlyGivenNames y0
       first
       | (refine_lift have hy0 : Keeps w k i y0 := ?_; ?_
          clear_value y0
          revert y0
          intro _ _
          rotate_left
          unfold y0
          clear y0)
       | (try clear_value y0
          revert y0
          intro _))
    | with_reducible refine csumMarks_keeps h_counters h_flags h_log h_history ?_
    | with_reducible refine receiveFrame_keeps h_counters h_flags h_log h_rings h_ports h_ingress h_bufs h_history ?_
    | with_reducible refine rxCounts_keeps h_counters ?_
    | with_reducible refine Keeps.ite ?_ ?_

theorem popQueue_keeps {x0 x1} (h_ports : w .ports = true)
    (h : Keeps w k i s) : Keeps w k i (popQueue x0 x1 s) := by
  unfold popQueue
  repeat' first
    | with_reducible assumption
    | (extract_lets +onlyGivenNames y0
       first
       | (refine_lift have hy0 : Keeps w k i y0 := ?_; ?_
          clear_value y0
          revert y0
          intro _ _
          rotate_left
          unfold y0
          clear y0)
       | (try clear_value y0
          revert y0
          intro _))
    | with_reducible refine modPort_keeps h_ports ?_
    | with_reducible refine modQueue_keeps h_ports ?_
    | with_reducible refine Keeps.ite ?_ ?_
    | split

theorem dropHead_keeps {x0 x1 x2 x3} (h_counters : w .counters = true) (h_flags : w .flags = true) (h_log : w .log = true) (h_rings : w .rings = true) (h_ports : w .ports = true) (h_bufs : w .bufs = true) (h_history : w .history = true)
    (h : Keeps w k i s) : Keeps w k i (dropHead x0 x1 x2 x3 s) := by
  unfold dropHead
  repeat' first
    | with_reducible assumption
    | with_reducible refine setFlag_keeps h_counters h_flags h_log h_history ?_
    | with_reducible refine count1_keeps h_counters ?_
    | with_reducible refine discard_keeps h_counters h_flags h_log h_rings h_ports h_bufs h_history ?_
    | with_reducible refine popQueue_keeps h_ports ?_
    | split

theorem portTxPower_keeps {x0 x1} (h_serdes : w .serdes = true)
    (h : Keeps w k i s) : Keeps w k i (portTxPower x0 x1 s) := by
  unfold portTxPower
  repeat' first
    | with_reducible assumption
    | (extract_lets +onlyGivenNames y0
       first
       | (try clear_value y0
          revert y0
          intro _))
    | with_reducible refine foldS_keeps (fun _ _ _ => ?_) ?_
    | with_reducible refine Keeps.set_serdes h_serdes ?_

theorem lpiExitEffect_keeps {x0} (h_ports : w .ports = true) (h_serdes : w .serdes = true)
    (h : Keeps w k i s) : Keeps w k i (lpiExitEffect x0 s) := by
  unfold lpiExitEffect
  repeat' first
    | with_reducible assumption
    | with_reducible refine modPort_keeps h_ports ?_
    | with_reducible refine portTxPower_keeps h_serdes ?_

theorem eeeSetApply_keeps {x0} (h_ports : w .ports = true) (h_serdes : w .serdes = true)
    (h : Keeps w k i s) : KeepsDone w k i (eeeSetApply x0 s) := by
  unfold eeeSetApply
  repeat' first
    | with_reducible assumption
    | (extract_lets +onlyGivenNames y0
       first
       | (refine_lift have hy0 : Keeps w k i y0 := ?_; ?_
          clear_value y0
          revert y0
          intro _ _
          rotate_left
          unfold y0
          clear y0)
       | (refine_lift have hy0 : KeepsDone w k i y0 := ?_; ?_
          clear_value y0
          revert y0
          intro _ _
          rotate_left
          unfold y0
          clear y0)
       | (try clear_value y0
          revert y0
          intro _))
    | with_reducible refine lpiExitEffect_keeps h_ports h_serdes ?_
    | with_reducible refine modPort_keeps h_ports ?_
    | with_reducible refine okDone_keeps ?_
    | with_reducible refine whenB_keeps (fun _ _ => ?_) ?_
    | with_reducible refine Keeps.ite ?_ ?_
    | with_reducible refine KeepsDone.ite ?_ ?_
    | split
    | with_reducible refine KeepsDone.mk ?_

theorem fecCounts_keeps {x0 x1} (h_counters : w .counters = true) (h_flags : w .flags = true) (h_log : w .log = true) (h_history : w .history = true)
    (h : Keeps w k i s) : Keeps w k i (fecCounts x0 x1 s) := by
  unfold fecCounts
  repeat' first
    | with_reducible assumption
    | (extract_lets +onlyGivenNames y0
       first
       | (refine_lift have hy0 : Keeps w k i y0 := ?_; ?_
          clear_value y0
          revert y0
          intro _ _
          rotate_left
          unfold y0
          clear y0)
       | (try clear_value y0
          revert y0
          intro _))
    | with_reducible refine count_keeps h_counters ?_
    | with_reducible refine setFlag_keeps h_counters h_flags h_log h_history ?_
    | with_reducible refine whenB_keeps (fun _ _ => ?_) ?_

theorem sendPause_keeps {x0 x1 x2 x3} (h_counters : w .counters = true) (h_ports : w .ports = true)
    (h : Keeps w k i s) : Keeps w k i (sendPause x0 x1 x2 x3 s) := by
  unfold sendPause
  repeat' first
    | with_reducible assumption
    | (extract_lets +onlyGivenNames y0
       first
       | (refine_lift have hy0 : Keeps w k i y0 := ?_; ?_
          clear_value y0
          revert y0
          intro _ _
          rotate_left
          unfold y0
          clear y0)
       | (try clear_value y0
          revert y0
          intro _))
    | with_reducible refine count1_keeps h_counters ?_
    | with_reducible refine modPort_keeps h_ports ?_
    | with_reducible refine whenB_keeps (fun _ _ => ?_) ?_
    | with_reducible refine foldS_keeps (fun _ _ _ => ?_) ?_
    | with_reducible refine Keeps.ite ?_ ?_

theorem releaseHeld_keeps {x0 x1 x2} (h_counters : w .counters = true) (h_ports : w .ports = true)
    (h : Keeps w k i s) : Keeps w k i (releaseHeld x0 x1 x2 s) := by
  unfold releaseHeld
  repeat' first
    | with_reducible assumption
    | (extract_lets +onlyGivenNames y0
       first
       | (refine_lift have hy0 : Keeps w k i y0 := ?_; ?_
          clear_value y0
          revert y0
          intro _ _
          rotate_left
          unfold y0
          clear y0)
       | (try clear_value y0
          revert y0
          intro _))
    | with_reducible refine modPort_keeps h_ports ?_
    | with_reducible refine sendPause_keeps h_counters h_ports ?_
    | with_reducible refine Keeps.ite ?_ ?_

theorem flowControlSetApply_keeps {x0} (h_counters : w .counters = true) (h_ports : w .ports = true)
    (h : Keeps w k i s) : KeepsDone w k i (flowControlSetApply x0 s) := by
  unfold flowControlSetApply
  repeat' first
    | with_reducible assumption
    | (extract_lets +onlyGivenNames y0
       first
       | (refine_lift have hy0 : Keeps w k i y0 := ?_; ?_
          clear_value y0
          revert y0
          intro _ _
          rotate_left
          unfold y0
          clear y0)
       | (try clear_value y0
          revert y0
          intro _))
    | with_reducible refine modPort_keeps h_ports ?_
    | with_reducible refine okDone_keeps ?_
    | with_reducible refine releaseHeld_keeps h_counters h_ports ?_
    | with_reducible refine KeepsDone.mk ?_

theorem pauseConsume_keeps {x0 x1} (h_counters : w .counters = true) (h_ports : w .ports = true)
    (h : Keeps w k i s) : Keeps w k i (pauseConsume x0 x1 s) := by
  unfold pauseConsume
  repeat' first
    | with_reducible assumption
    | (extract_lets +onlyGivenNames y0
       first
       | (refine_lift have hy0 : Keeps w k i y0 := ?_; ?_
          clear_value y0
          revert y0
          intro _ _
          rotate_left
          unfold y0
          clear y0)
       | (try clear_value y0
          revert y0
          intro _))
    | with_reducible refine count1_keeps h_counters ?_
    | with_reducible refine modPort_keeps h_ports ?_
    | with_reducible refine whenB_keeps (fun _ _ => ?_) ?_
    | with_reducible refine foldS_keeps (fun _ _ _ => ?_) ?_
    | with_reducible refine Keeps.ite ?_ ?_

theorem stallDrop_keeps {x0} (h_counters : w .counters = true)
    (h : Keeps w k i s) : Keeps w k i (stallDrop x0 s) := by
  unfold stallDrop
  repeat' first
    | with_reducible assumption
    | with_reducible refine count1_keeps h_counters ?_

theorem takeFrame_keeps {x0 x1} (h_counters : w .counters = true) (h_flags : w .flags = true) (h_log : w .log = true) (h_rings : w .rings = true) (h_ports : w .ports = true) (h_ingress : w .ingress = true) (h_bufs : w .bufs = true) (h_history : w .history = true)
    (h : Keeps w k i s) : Keeps w k i (takeFrame x0 x1 s) := by
  unfold takeFrame
  repeat' first
    | with_reducible assumption
    | (extract_lets +onlyGivenNames y0
       first
       | (refine_lift have hy0 : Keeps w k i y0 := ?_; ?_
          clear_value y0
          revert y0
          intro _ _
          rotate_left
          unfold y0
          clear y0)
       | (try clear_value y0
          revert y0
          intro _))
    | with_reducible refine acceptFrame_keeps h_counters h_flags h_log h_rings h_ports h_ingress h_bufs h_history ?_
    | with_reducible refine count1_keeps h_counters ?_
    | with_reducible refine pauseConsume_keeps h_counters h_ports ?_
    | with_reducible refine setFlag_keeps h_counters h_flags h_log h_history ?_
    | with_reducible refine stallDrop_keeps h_counters ?_
    | with_reducible refine Keeps.ite ?_ ?_
    | split

theorem hostFrameRxEffect_keeps {x0 x1} (h_counters : w .counters = true) (h_flags : w .flags = true) (h_log : w .log = true) (h_rings : w .rings = true) (h_ports : w .ports = true) (h_ingress : w .ingress = true) (h_bufs : w .bufs = true) (h_history : w .history = true)
    (h : Keeps w k i s) : Keeps w k i (hostFrameRxEffect x0 x1 s) := by
  unfold hostFrameRxEffect
  repeat' first
    | with_reducible assumption
    | with_reducible refine fecCounts_keeps h_counters h_flags h_log h_history ?_
    | with_reducible refine takeFrame_keeps h_counters h_flags h_log h_rings h_ports h_ingress h_bufs h_history ?_

theorem lateHead_keeps {x0 x1} (h_counters : w .counters = true) (h_flags : w .flags = true) (h_log : w .log = true) (h_rings : w .rings = true) (h_ports : w .ports = true) (h_bufs : w .bufs = true) (h_history : w .history = true)
    (h : Keeps w k i s) : Keeps w k i (lateHead x0 x1 s) := by
  unfold lateHead
  repeat' first
    | with_reducible assumption
    | (extract_lets +onlyGivenNames y0
       first
       | (try clear_value y0
          revert y0
          intro _))
    | with_reducible refine count1_keeps h_counters ?_
    | with_reducible refine discard_keeps h_counters h_flags h_log h_rings h_ports h_bufs h_history ?_
    | with_reducible refine modQueue_keeps h_ports ?_
    | with_reducible refine popQueue_keeps h_ports ?_
    | with_reducible refine setFlag_keeps h_counters h_flags h_log h_history ?_
    | with_reducible refine Keeps.ite ?_ ?_
    | split

theorem txCounts_keeps {x0 x1 x2} (h_counters : w .counters = true)
    (h : Keeps w k i s) : Keeps w k i (txCounts x0 x1 x2 s) := by
  unfold txCounts
  repeat' first
    | with_reducible assumption
    | (extract_lets +onlyGivenNames y0
       first
       | (refine_lift have hy0 : Keeps w k i y0 := ?_; ?_
          clear_value y0
          revert y0
          intro _ _
          rotate_left
          unfold y0
          clear y0)
       | (try clear_value y0
          revert y0
          intro _))
    | with_reducible refine count_keeps h_counters ?_
    | with_reducible refine count1_keeps h_counters ?_
    | with_reducible refine Keeps.ite ?_ ?_
    | split

theorem transmit_keeps {x0 x1 x2} (h_counters : w .counters = true) (h_flags : w .flags = true) (h_log : w .log = true) (h_rings : w .rings = true) (h_ports : w .ports = true) (h_bufs : w .bufs = true) (h_history : w .history = true)
    (h : Keeps w k i s) : Keeps w k i (transmit x0 x1 x2 s) := by
  unfold transmit
  repeat' first
    | with_reducible assumption
    | (extract_lets +onlyGivenNames y0
       first
       | (refine_lift have hy0 : Keeps w k i y0 := ?_; ?_
          clear_value y0
          revert y0
          intro _ _
          rotate_left
          unfold y0
          clear y0)
       | (try clear_value y0
          revert y0
          intro _))
    | with_reducible refine count1_keeps h_counters ?_
    | with_reducible refine dropBuf_keeps h_counters h_flags h_log h_ports h_bufs h_history ?_
    | with_reducible refine modPort_keeps h_ports ?_
    | with_reducible refine passBuf_keeps h_counters h_flags h_log h_ports h_bufs h_history ?_
    | with_reducible refine popQueue_keeps h_ports ?_
    | with_reducible refine stampOwed_keeps h_rings ?_
    | with_reducible refine tcCount_keeps h_counters ?_
    | with_reducible refine txCounts_keeps h_counters ?_
    | with_reducible refine whenB_keeps (fun _ _ => ?_) ?_
    | split

theorem hostFrameTxEffect_keeps {x0} (h_counters : w .counters = true) (h_flags : w .flags = true) (h_log : w .log = true) (h_rings : w .rings = true) (h_ports : w .ports = true) (h_bufs : w .bufs = true) (h_history : w .history = true)
    (h : Keeps w k i s) : Keeps w k i (hostFrameTxEffect x0 s) := by
  unfold hostFrameTxEffect
  repeat' first
    | with_reducible assumption
    | with_reducible refine dropHead_keeps h_counters h_flags h_log h_rings h_ports h_bufs h_history ?_
    | with_reducible refine lateHead_keeps h_counters h_flags h_log h_rings h_ports h_bufs h_history ?_
    | with_reducible refine transmit_keeps h_counters h_flags h_log h_rings h_ports h_bufs h_history ?_
    | with_reducible refine Keeps.ite ?_ ?_
    | split

theorem linkFaultSignalChangeEffect_keeps {x0} (h_ports : w .ports = true)
    (h : Keeps w k i s) : Keeps w k i (linkFaultSignalChangeEffect x0 s) := by
  unfold linkFaultSignalChangeEffect
  repeat' first
    | with_reducible assumption
    | with_reducible refine modPort_keeps h_ports ?_

theorem lpiEnterEffect_keeps {x0} (h_ports : w .ports = true) (h_serdes : w .serdes = true)
    (h : Keeps w k i s) : Keeps w k i (lpiEnterEffect x0 s) := by
  unfold lpiEnterEffect
  repeat' first
    | with_reducible assumption
    | with_reducible refine modPort_keeps h_ports ?_
    | with_reducible refine portTxPower_keeps h_serdes ?_

theorem macFilterReadApply_keeps {x0} 
    (h : Keeps w k i s) : KeepsDone w k i (macFilterReadApply x0 s) := by
  unfold macFilterReadApply
  repeat' first
    | with_reducible assumption
    | (extract_lets +onlyGivenNames y0
       first
       | (refine_lift have hy0 : Keeps w k i y0 := ?_; ?_
          clear_value y0
          revert y0
          intro _ _
          rotate_left
          unfold y0
          clear y0)
       | (refine_lift have hy0 : KeepsDone w k i y0 := ?_; ?_
          clear_value y0
          revert y0
          intro _ _
          rotate_left
          unfold y0
          clear y0)
       | (try clear_value y0
          revert y0
          intro _))
    | with_reducible refine foldl_keeps (fun _ _ _ => ?_) ?_
    | with_reducible refine Keeps.ite ?_ ?_
    | with_reducible refine KeepsDone.ite ?_ ?_
    | split
    | with_reducible refine KeepsDone.mk ?_

theorem macFilterWriteApply_keeps {x0} (h_ports : w .ports = true)
    (h : Keeps w k i s) : KeepsDone w k i (macFilterWriteApply x0 s) := by
  unfold macFilterWriteApply
  repeat' first
    | with_reducible assumption
    | with_reducible refine modPort_keeps h_ports ?_
    | with_reducible refine okDone_keeps ?_
    | with_reducible refine Keeps.ite ?_ ?_
    | with_reducible refine KeepsDone.ite ?_ ?_
    | with_reducible refine KeepsDone.mk ?_

theorem pauseExpiryEffect_keeps {x0 x1} (h_ports : w .ports = true)
    (h : Keeps w k i s) : Keeps w k i (pauseExpiryEffect x0 x1 s) := by
  unfold pauseExpiryEffect
  repeat' first
    | with_reducible assumption
    | with_reducible refine modQueue_keeps h_ports ?_

theorem pauseFrameRxEffect_keeps {x0 x1} (h_counters : w .counters = true) (h_ports : w .ports = true)
    (h : Keeps w k i s) : Keeps w k i (pauseFrameRxEffect x0 x1 s) := by
  unfold pauseFrameRxEffect
  repeat' first
    | with_reducible assumption
    | with_reducible refine count1_keeps h_counters ?_
    | with_reducible refine pauseConsume_keeps h_counters h_ports ?_
    | with_reducible refine Keeps.ite ?_ ?_

theorem pauseRefreshEffect_keeps {x0} (h_counters : w .counters = true) (h_ports : w .ports = true)
    (h : Keeps w k i s) : Keeps w k i (pauseRefreshEffect x0 s) := by
  unfold pauseRefreshEffect
  repeat' first
    | with_reducible assumption
    | (extract_lets +onlyGivenNames y0
       first
       | (try clear_value y0
          revert y0
          intro _))
    | with_reducible refine sendPause_keeps h_counters h_ports ?_
    | with_reducible refine Keeps.ite ?_ ?_

theorem pauseSendEffect_keeps {x0} (h_counters : w .counters = true) (h_ports : w .ports = true)
    (h : Keeps w k i s) : Keeps w k i (pauseSendEffect x0 s) := by
  unfold pauseSendEffect
  repeat' first
    | with_reducible assumption
    | (extract_lets +onlyGivenNames y0
       first
       | (try clear_value y0
          revert y0
          intro _))
    | with_reducible refine sendPause_keeps h_counters h_ports ?_
    | with_reducible refine Keeps.ite ?_ ?_

theorem pauseStormEffect_keeps {x0} (h_counters : w .counters = true) (h_flags : w .flags = true) (h_log : w .log = true) (h_ports : w .ports = true) (h_history : w .history = true)
    (h : Keeps w k i s) : Keeps w k i (pauseStormEffect x0 s) := by
  unfold pauseStormEffect
  repeat' first
    | with_reducible assumption
    | (extract_lets +onlyGivenNames y0
       first
       | (refine_lift have hy0 : Keeps w k i y0 := ?_; ?_
          clear_value y0
          revert y0
          intro _ _
          rotate_left
          unfold y0
          clear y0)
       | (try clear_value y0
          revert y0
          intro _))
    | with_reducible refine count1_keeps h_counters ?_
    | with_reducible refine modPort_keeps h_ports ?_
    | with_reducible refine setFlag_keeps h_counters h_flags h_log h_history ?_

theorem pauseStormEndEffect_keeps {x0} (h_ports : w .ports = true)
    (h : Keeps w k i s) : Keeps w k i (pauseStormEndEffect x0 s) := by
  unfold pauseStormEndEffect
  repeat' first
    | with_reducible assumption
    | with_reducible refine modPort_keeps h_ports ?_

theorem portLinkChangeEffect_keeps {x0 x1 x2} (h_counters : w .counters = true) (h_flags : w .flags = true) (h_log : w .log = true) (h_ports : w .ports = true) (h_history : w .history = true)
    (h : Keeps w k i s) : Keeps w k i (portLinkChangeEffect x0 x1 x2 s) := by
  unfold portLinkChangeEffect
  repeat' first
    | with_reducible assumption
    | (extract_lets +onlyGivenNames y0
       first
       | (refine_lift have hy0 : Keeps w k i y0 := ?_; ?_
          clear_value y0
          revert y0
          intro _ _
          rotate_left
          unfold y0
          clear y0)
       | (try clear_value y0
          revert y0
          intro _))
    | with_reducible refine modPort_keeps h_ports ?_
    | with_reducible refine setFlag_keeps h_counters h_flags h_log h_history ?_
    | with_reducible refine Keeps.ite ?_ ?_

theorem portModeSetApply_keeps {x0} (h_ports : w .ports = true)
    (h : Keeps w k i s) : KeepsDone w k i (portModeSetApply x0 s) := by
  unfold portModeSetApply
  repeat' first
    | with_reducible assumption
    | with_reducible refine okDone_keeps ?_
    | with_reducible refine foldS_keeps (fun _ _ _ => ?_) ?_
    | with_reducible refine KeepsDone.mk ?_
    | with_reducible refine Keeps.set_path (.inl h_ports) (.inr ⟨rfl, rfl⟩) (.inr ⟨rfl, rfl, rfl⟩) (.inr rfl) (.inr ⟨rfl, rfl, rfl, rfl, rfl, rfl, rfl, rfl⟩) (.inr rfl) ?_

theorem portSetApply_keeps {x0} (h_ports : w .ports = true)
    (h : Keeps w k i s) : KeepsDone w k i (portSetApply x0 s) := by
  unfold portSetApply
  repeat' first
    | with_reducible assumption
    | with_reducible refine modPort_keeps h_ports ?_
    | with_reducible refine okDone_keeps ?_
    | with_reducible refine Keeps.ite ?_ ?_
    | with_reducible refine KeepsDone.ite ?_ ?_
    | split
    | with_reducible refine KeepsDone.mk ?_

theorem receiveLpiEffect_keeps {x0 x1} (h_ports : w .ports = true) (h_fabric : w .fabric = true)
    (h : Keeps w k i s) : Keeps w k i (receiveLpiEffect x0 x1 s) := by
  unfold receiveLpiEffect
  repeat' first
    | with_reducible assumption
    | with_reducible refine modFab_keeps h_fabric ?_
    | with_reducible refine modPort_keeps h_ports ?_
    | split

theorem remoteFaultReceivedEffect_keeps {x0 x1} (h_ports : w .ports = true)
    (h : Keeps w k i s) : Keeps w k i (remoteFaultReceivedEffect x0 x1 s) := by
  unfold remoteFaultReceivedEffect
  repeat' first
    | with_reducible assumption
    | with_reducible refine modPort_keeps h_ports ?_

theorem timedLaunchDueEffect_keeps {x0 x1} (h_counters : w .counters = true) (h_flags : w .flags = true) (h_log : w .log = true) (h_rings : w .rings = true) (h_ports : w .ports = true) (h_bufs : w .bufs = true) (h_history : w .history = true)
    (h : Keeps w k i s) : Keeps w k i (timedLaunchDueEffect x0 x1 s) := by
  unfold timedLaunchDueEffect
  repeat' first
    | with_reducible assumption
    | with_reducible refine lateHead_keeps h_counters h_flags h_log h_rings h_ports h_bufs h_history ?_
    | with_reducible refine modQueue_keeps h_ports ?_
    | with_reducible refine Keeps.ite ?_ ?_
    | split

theorem modClass_keeps {x1 x2 x3} (h_accounts : w .accounts = true)
    (h : Keeps w k i s) : Keeps w k i (modClass s x1 x2 x3) := by
  unfold modClass
  repeat' first
    | with_reducible assumption
    | with_reducible refine modAcct_keeps h_accounts ?_

theorem modNode_keeps {x1 x2 x3} (h_ports : w .ports = true)
    (h : Keeps w k i s) : Keeps w k i (modNode s x1 x2 x3) := by
  unfold modNode
  repeat' first
    | with_reducible assumption
    | with_reducible refine modPort_keeps h_ports ?_

theorem modShaper_keeps {x1 x2} (h_ports : w .ports = true) (h_accounts : w .accounts = true)
    (h : Keeps w k i s) : Keeps w k i (modShaper s x1 x2) := by
  unfold modShaper
  repeat' first
    | with_reducible assumption
    | with_reducible refine modAcct_keeps h_accounts ?_
    | with_reducible refine modClass_keeps h_accounts ?_
    | with_reducible refine modNode_keeps h_ports ?_
    | with_reducible refine modPort_keeps h_ports ?_
    | with_reducible refine modQueue_keeps h_ports ?_
    | split

theorem overflowWheelMoveEffect_keeps {x0} (h_ports : w .ports = true) (h_accounts : w .accounts = true)
    (h : Keeps w k i s) : Keeps w k i (overflowWheelMoveEffect x0 s) := by
  unfold overflowWheelMoveEffect
  repeat' first
    | with_reducible assumption
    | with_reducible refine Keeps.ite ?_ ?_
    | split
    | with_reducible refine Keeps.set_path (.inl h_ports) (.inr ⟨rfl, rfl⟩) (.inr ⟨rfl, rfl, rfl⟩) (.inr rfl) (.inl h_accounts) (.inr rfl) ?_

theorem policerClear_keeps {x0} (h_policers : w .policers = true)
    (h : Keeps w k i s) : Keeps w k i (policerClear x0 s) := by
  unfold policerClear
  repeat' first
    | with_reducible assumption
    | with_reducible refine Keeps.set_path (.inr ⟨rfl, rfl, rfl, rfl, rfl⟩) (.inr ⟨rfl, rfl⟩) (.inr ⟨rfl, rfl, rfl⟩) (.inr rfl) (.inr ⟨rfl, rfl, rfl, rfl, rfl, rfl, rfl, rfl⟩) (.inl h_policers) ?_

theorem policerReadApply_keeps {x0} (h_policers : w .policers = true)
    (h : Keeps w k i s) : KeepsDone w k i (policerReadApply x0 s) := by
  unfold policerReadApply
  repeat' first
    | with_reducible assumption
    | with_reducible refine policerClear_keeps h_policers ?_
    | with_reducible refine whenB_keeps (fun _ _ => ?_) ?_
    | with_reducible refine foldS_keeps (fun _ _ _ => ?_) ?_
    | with_reducible refine KeepsDone.mk ?_

theorem policerSetApply_keeps {x0} (h_policers : w .policers = true)
    (h : Keeps w k i s) : KeepsDone w k i (policerSetApply x0 s) := by
  unfold policerSetApply
  repeat' first
    | with_reducible assumption
    | (extract_lets +onlyGivenNames y0
       first
       | (have hy1 : PathAll := y0
          clear hy1
          revert y0
          intro _)
       | (try clear_value y0
          revert y0
          intro _))
    | with_reducible refine okDone_keeps ?_
    | with_reducible refine Keeps.ite ?_ ?_
    | with_reducible refine KeepsDone.ite ?_ ?_
    | split
    | with_reducible refine KeepsDone.mk ?_
    | with_reducible refine Keeps.set_path (.inr ⟨rfl, rfl, rfl, rfl, rfl⟩) (.inr ⟨rfl, rfl⟩) (.inr ⟨rfl, rfl, rfl⟩) (.inr rfl) (.inr ⟨rfl, rfl, rfl, rfl, rfl, rfl, rfl, rfl⟩) (.inl h_policers) ?_

theorem scSetOverhead_keeps {x0} (h_ports : w .ports = true) (h_accounts : w .accounts = true)
    (h : Keeps w k i s) : Keeps w k i (scSetOverhead x0 s) := by
  unfold scSetOverhead
  repeat' first
    | with_reducible assumption
    | with_reducible refine modAcct_keeps h_accounts ?_
    | with_reducible refine modPort_keeps h_ports ?_
    | split

theorem scSetTimed_keeps {x0} (h_ports : w .ports = true)
    (h : Keeps w k i s) : Keeps w k i (scSetTimed x0 s) := by
  unfold scSetTimed
  repeat' first
    | with_reducible assumption
    | with_reducible refine modQueue_keeps h_ports ?_
    | split

theorem scSetWeight_keeps {x0} (h_ports : w .ports = true) (h_accounts : w .accounts = true)
    (h : Keeps w k i s) : Keeps w k i (scSetWeight x0 s) := by
  unfold scSetWeight
  repeat' first
    | with_reducible assumption
    | with_reducible refine modClass_keeps h_accounts ?_
    | with_reducible refine modNode_keeps h_ports ?_
    | with_reducible refine modQueue_keeps h_ports ?_
    | split

theorem schedSetApply_keeps {x0} (h_ports : w .ports = true) (h_accounts : w .accounts = true)
    (h : Keeps w k i s) : KeepsDone w k i (schedSetApply x0 s) := by
  unfold schedSetApply
  repeat' first
    | with_reducible assumption
    | (extract_lets +onlyGivenNames y0
       first
       | (refine_lift have hy0 : Keeps w k i y0 := ?_; ?_
          clear_value y0
          revert y0
          intro _ _
          rotate_left
          unfold y0
          clear y0)
       | (try clear_value y0
          revert y0
          intro _))
    | with_reducible refine modShaper_keeps h_ports h_accounts ?_
    | with_reducible refine okDone_keeps ?_
    | with_reducible refine scSetOverhead_keeps h_ports h_accounts ?_
    | with_reducible refine scSetTimed_keeps h_ports ?_
    | with_reducible refine scSetWeight_keeps h_ports h_accounts ?_
    | with_reducible refine whenB_keeps (fun _ _ => ?_) ?_
    | with_reducible refine KeepsDone.mk ?_

theorem schedTreeSetApply_keeps {x0} (h_ports : w .ports = true)
    (h : Keeps w k i s) : KeepsDone w k i (schedTreeSetApply x0 s) := by
  unfold schedTreeSetApply
  repeat' first
    | with_reducible assumption
    | with_reducible refine modPort_keeps h_ports ?_
    | with_reducible refine okDone_keeps ?_
    | with_reducible refine KeepsDone.mk ?_

theorem shaperEligibleEffect_keeps {x0} (h_ports : w .ports = true) (h_accounts : w .accounts = true)
    (h : Keeps w k i s) : Keeps w k i (shaperEligibleEffect x0 s) := by
  unfold shaperEligibleEffect
  repeat' first
    | with_reducible assumption
    | with_reducible refine modShaper_keeps h_ports h_accounts ?_

theorem loseHistory_keeps {x0} (h_history : w .history = true)
    (h : Keeps w k i s) : Keeps w k i (loseHistory x0 s) := by
  unfold loseHistory
  repeat' first
    | with_reducible assumption
    | with_reducible refine Keeps.set_fw (.inr ⟨rfl, rfl, rfl, rfl, rfl, rfl, rfl, rfl⟩) (.inr ⟨rfl, rfl, rfl, rfl, rfl⟩) (.inr ⟨rfl, rfl⟩) (.inr ⟨rfl, rfl, rfl, rfl, rfl, rfl⟩) (.inl h_history) rfl ?_

theorem reportHistory_keeps {x0} (h_counters : w .counters = true) (h_flags : w .flags = true) (h_log : w .log = true) (h_history : w .history = true)
    (h : Keeps w k i s) : Keeps w k i (reportHistory x0 s) := by
  unfold reportHistory
  repeat' first
    | with_reducible assumption
    | (extract_lets +onlyGivenNames y0
       first
       | (try clear_value y0
          revert y0
          intro _))
    | with_reducible refine logEvent_keeps h_counters h_flags h_log h_history ?_
    | with_reducible refine loseHistory_keeps h_history ?_
    | with_reducible refine setFlag_keeps h_counters h_flags h_log h_history ?_
    | split

theorem rollBack_keeps (h_counters : w .counters = true) (h_flags : w .flags = true) (h_log : w .log = true) (h_image : w .image = true) (h_history : w .history = true)
    (h : Keeps w k i s) : Keeps w k i (rollBack s) := by
  unfold rollBack
  repeat' first
    | with_reducible assumption
    | (extract_lets +onlyGivenNames y0
       first
       | (refine_lift have hy0 : Keeps w k i y0 := ?_; ?_
          clear_value y0
          revert y0
          intro _ _
          rotate_left
          unfold y0
          clear y0)
       | (have hy1 : FwAll := y0
          clear hy1
          revert y0
          intro _)
       | (try clear_value y0
          revert y0
          intro _))
    | with_reducible refine logEvent_keeps h_counters h_flags h_log h_history ?_
    | with_reducible refine setFlag_keeps h_counters h_flags h_log h_history ?_
    | split
    | with_reducible refine Keeps.set_fw (.inl h_image) (.inr ⟨rfl, rfl, rfl, rfl, rfl⟩) (.inr ⟨rfl, rfl⟩) (.inr ⟨rfl, rfl, rfl, rfl, rfl, rfl⟩) (.inr rfl) rfl ?_

theorem writeDir_keeps {x0 x1} (h_image : w .image = true)
    (h : Keeps w k i s) : Keeps w k i (writeDir x0 x1 s) := by
  unfold writeDir
  repeat' first
    | with_reducible assumption
    | (extract_lets +onlyGivenNames y0
       first
       | (have hy1 : FwAll := y0
          clear hy1
          revert y0
          intro _)
       | (try clear_value y0
          revert y0
          intro _))
    | with_reducible refine Keeps.set_fw (.inl h_image) (.inr ⟨rfl, rfl, rfl, rfl, rfl⟩) (.inr ⟨rfl, rfl⟩) (.inr ⟨rfl, rfl, rfl, rfl, rfl, rfl⟩) (.inr rfl) rfl ?_

theorem modChan_keeps {c : ChanId} {f : HbmChan → HbmChan} (h_hbm : w .hbm = true)
    (hf : k → ∀ x, sparseWf 0 x.mem = true → sparseWf 0 (f x).mem = true) (h : Keeps w k i s) : Keeps w k i (modChan s c f) :=
  Keeps.set_hbm h_hbm (fun hk hc => hc.mod (hf hk)) h

theorem burstCount_keeps {x0 x1 x2} (h_counters : w .counters = true) (h_hbm : w .hbm = true)
    (h : Keeps w k i s) : Keeps w k i (burstCount x0 x1 x2 s) := by
  unfold burstCount
  repeat' first
    | with_reducible assumption
    | (extract_lets +onlyGivenNames y0
       first
       | (refine_lift have hy0 : Keeps w k i y0 := ?_; ?_
          clear_value y0
          revert y0
          intro _ _
          rotate_left
          unfold y0
          clear y0)
       | (try clear_value y0
          revert y0
          intro _))
    | with_reducible refine count1_keeps h_counters ?_
    | with_reducible refine modChan_keeps h_hbm ?_ ?_
    | with_reducible refine Keeps.ite ?_ ?_
    | split
    | (intro _ x hx
       try dsimp only
       repeat' split
       all_goals first
         | exact hx
         | rfl
         | simpa using hx)

theorem serveReq_keeps {c : ChanId} {r : HbmReq} (h_counters : w .counters = true) (h_hbm : w .hbm = true) (h : Keeps w k i s) : Keeps w k i (serveReq c r s) := by
  refine modChan_keeps h_hbm (fun _ x hx => ?_) (foldS_keeps (fun _ _ hs => burstCount_keeps h_counters h_hbm hs) h)
  dsimp only
  split
  · exact memWrite_wf hx
  · exact hx

theorem arrive_keeps {c : ChanId} {r : HbmReq} (h_counters : w .counters = true) (h_flags : w .flags = true) (h_log : w .log = true) (h_hbm : w .hbm = true) (h_history : w .history = true) (h : Keeps w k i s) : Keeps w k i (arrive c r s) := by
  have mod : ∀ st f, (∀ x, sparseWf 0 x.mem = true → sparseWf 0 (f x).mem = true) → Keeps w k i st → Keeps w k i (modChan st c f) :=
    fun st f hf hs => modChan_keeps h_hbm (fun _ => hf) hs
  have wait : ∀ st, Keeps w k i st → Keeps w k i (modChan st c fun y =>
      { y with waiting := y.waiting ++ [r], idleFrom := s.now, idleTime := s.hbm.srIdle }) := fun st hs =>
    mod st _ (fun _ hx => hx) hs
  have serve : ∀ st, Keeps w k i st → Keeps w k i (serveReq c r st) := fun st hs => serveReq_keeps h_counters h_hbm hs
  have early : Keeps w k i (setFlag (aHbmChFlags c) 3 (count1 (aHbmC c 0x48) (modChan s c fun y => { y with srEntering := false }))) :=
    setFlag_keeps h_counters h_flags h_log h_history (count1_keeps h_counters (mod s _ (fun _ hx => hx) h))
  unfold arrive
  dsimp only
  split
  · exact h
  · refine Keeps.ite (wait s h) ?_
    split
    · exact h
    · exact wait s h
    · exact serve s h
    · refine Keeps.ite (Keeps.ite ?_ (serve _ early)) (serve s h)
      exact wait _ (mod s _ (fun _ hx => hx) h)
    · exact wait _ (count1_keeps h_counters h)
    · exact wait _ (mod s _ (fun _ hx => hx) h)
    · exact count1_keeps h_counters h

theorem losePages_keeps {x0 x1} (h_accounts : w .accounts = true)
    (h : Keeps w k i s) : Keeps w k i (losePages x0 x1 s) := by
  unfold losePages
  repeat' first
    | with_reducible assumption
    | with_reducible refine Keeps.ite ?_ ?_
    | split
    | with_reducible refine Keeps.set_path (.inr ⟨rfl, rfl, rfl, rfl, rfl⟩) (.inr ⟨rfl, rfl⟩) (.inr ⟨rfl, rfl, rfl⟩) (.inr rfl) (.inl h_accounts) (.inr rfl) ?_

theorem freeze_keeps {x0 x1 x2 x3 x4} (h_counters : w .counters = true) (h_flags : w .flags = true) (h_log : w .log = true) (h_accounts : w .accounts = true) (h_hbm : w .hbm = true) (h_history : w .history = true)
    (h : Keeps w k i s) : Keeps w k i (freeze x0 x1 x2 x3 x4 s) := by
  unfold freeze
  repeat' first
    | with_reducible assumption
    | (extract_lets +onlyGivenNames y0
       first
       | (refine_lift have hy0 : Keeps w k i y0 := ?_; ?_
          clear_value y0
          revert y0
          intro _ _
          rotate_left
          unfold y0
          clear y0)
       | (try clear_value y0
          revert y0
          intro _))
    | with_reducible refine count_keeps h_counters ?_
    | with_reducible refine count1_keeps h_counters ?_
    | with_reducible refine logEvent_keeps h_counters h_flags h_log h_history ?_
    | with_reducible refine losePages_keeps h_accounts ?_
    | with_reducible refine modChan_keeps h_hbm ?_ ?_
    | with_reducible refine reportHistory_keeps h_counters h_flags h_log h_history ?_
    | with_reducible refine setFlag_keeps h_counters h_flags h_log h_history ?_
    | (intro _ x hx
       try dsimp only
       repeat' split
       all_goals first
         | exact hx
         | rfl
         | simpa using hx)
    | exact fun _ hc => hc
    | exact fun _ _ hx => hx

theorem hbmCaParityEffect_keeps {x0} (h_counters : w .counters = true) (h_flags : w .flags = true) (h_log : w .log = true) (h_accounts : w .accounts = true) (h_hbm : w .hbm = true) (h_history : w .history = true)
    (h : Keeps w k i s) : Keeps w k i (hbmCaParityEffect x0 s) := by
  unfold hbmCaParityEffect
  repeat' first
    | with_reducible assumption
    | (extract_lets +onlyGivenNames y0
       first
       | (try clear_value y0
          revert y0
          intro _))
    | with_reducible refine freeze_keeps h_counters h_flags h_log h_accounts h_hbm h_history ?_

theorem hbmChannelReleaseStart_keeps {x0 x1} (h_mail : w .mail = true) (h_hbm : w .hbm = true)
    (h : Keeps w k i s) : Keeps w k i (hbmChannelReleaseStart x0 x1 s) := by
  unfold hbmChannelReleaseStart
  repeat' first
    | with_reducible assumption
    | with_reducible refine modChan_keeps h_hbm ?_ ?_
    | with_reducible refine setLong_keeps h_mail ?_
    | (intro _ x hx
       try dsimp only
       repeat' split
       all_goals first
         | exact hx
         | rfl
         | simpa using hx)

theorem hbmHistoryReadApply_keeps {x0} 
    (h : Keeps w k i s) : KeepsDone w k i (hbmHistoryReadApply x0 s) := by
  unfold hbmHistoryReadApply
  repeat' first
    | with_reducible assumption
    | (extract_lets +onlyGivenNames y0
       first
       | (try clear_value y0
          revert y0
          intro _))
    | split
    | with_reducible refine KeepsDone.mk ?_

theorem hbmReadCompleteEffect_keeps {x0 x1} (h_counters : w .counters = true) (h_flags : w .flags = true) (h_log : w .log = true) (h_accounts : w .accounts = true) (h_hbm : w .hbm = true) (h_history : w .history = true)
    (h : Keeps w k i s) : Keeps w k i (hbmReadCompleteEffect x0 x1 s) := by
  unfold hbmReadCompleteEffect
  repeat' first
    | with_reducible assumption
    | (extract_lets +onlyGivenNames y0
       first
       | (refine_lift have hy0 : Keeps w k i y0 := ?_; ?_
          clear_value y0
          revert y0
          intro _ _
          rotate_left
          unfold y0
          clear y0)
       | (have hy1 : HbmAll := y0
          clear hy1
          revert y0
          intro _)
       | (try clear_value y0
          revert y0
          intro _))
    | with_reducible refine count1_keeps h_counters ?_
    | with_reducible refine freeze_keeps h_counters h_flags h_log h_accounts h_hbm h_history ?_
    | with_reducible refine losePages_keeps h_accounts ?_
    | with_reducible refine modChan_keeps h_hbm ?_ ?_
    | with_reducible refine setFlag_keeps h_counters h_flags h_log h_history ?_
    | with_reducible refine Keeps.ite ?_ ?_
    | split
    | (intro _ x hx
       try dsimp only
       repeat' split
       all_goals first
         | exact hx
         | rfl
         | simpa using hx)
    | exact fun _ hc => hc
    | exact fun _ _ hx => hx
    | with_reducible refine Keeps.set_hbm h_hbm ?_ ?_

theorem hbmRefreshEffect_keeps {x0 x1} (h_hbm : w .hbm = true)
    (h : Keeps w k i s) : Keeps w k i (hbmRefreshEffect x0 x1 s) := by
  unfold hbmRefreshEffect
  repeat' first
    | with_reducible assumption
    | with_reducible refine modChan_keeps h_hbm ?_ ?_
    | with_reducible refine Keeps.ite ?_ ?_
    | split
    | (intro _ x hx
       try dsimp only
       repeat' split
       all_goals first
         | exact hx
         | rfl
         | simpa using hx)

theorem serveWaiting_keeps {x0} (h_counters : w .counters = true) (h_hbm : w .hbm = true)
    (h : Keeps w k i s) : Keeps w k i (serveWaiting x0 s) := by
  unfold serveWaiting
  repeat' first
    | with_reducible assumption
    | with_reducible refine modChan_keeps h_hbm ?_ ?_
    | with_reducible refine serveReq_keeps h_counters h_hbm ?_
    | with_reducible refine foldS_keeps (fun _ _ _ => ?_) ?_
    | (intro _ x hx
       try dsimp only
       repeat' split
       all_goals first
         | exact hx
         | rfl
         | simpa using hx)

theorem hbmReleaseCompleteEffect_keeps {m : MboxId} {b : Bool} (h_env : w .env = true) (h_counters : w .counters = true) (h_flags : w .flags = true) (h_bridge : w .bridge = true) (h_anchor : w .anchor = true) (h_mail : w .mail = true) (h_log : w .log = true) (h_hbm : w .hbm = true) (h_history : w .history = true) (h : Keeps w k i s) :
    Keeps w k i (hbmReleaseCompleteEffect m b s) := by
  unfold hbmReleaseCompleteEffect
  split
  · refine Keeps.ite ?_ ?_
    · refine finish_keeps h_env h_bridge h_anchor h_mail h_log (KeepsDone.mk (setFlag_keeps h_counters h_flags h_log h_history (serveWaiting_keeps h_counters h_hbm ?_)))
      exact modChan_keeps h_hbm (fun hk x _ => sparseWf_filter (h.hbm hk (tablePeer _))) h
    · refine finish_keeps h_env h_bridge h_anchor h_mail h_log (KeepsDone.mk (setFlag_keeps h_counters h_flags h_log h_history (count_keeps h_counters ?_)))
      exact modChan_keeps h_hbm (fun _ _ hx => hx) h
  · exact h

theorem requestEffect_keeps {x0 x1} (h_counters : w .counters = true) (h_flags : w .flags = true) (h_log : w .log = true) (h_hbm : w .hbm = true) (h_history : w .history = true)
    (h : Keeps w k i s) : Keeps w k i (requestEffect x0 x1 s) := by
  unfold requestEffect
  repeat' first
    | with_reducible assumption
    | (extract_lets +onlyGivenNames y0
       first
       | (refine_lift have hy0 : Keeps w k i y0 := ?_; ?_
          clear_value y0
          revert y0
          intro _ _
          rotate_left
          unfold y0
          clear y0)
       | (try clear_value y0
          revert y0
          intro _))
    | with_reducible refine arrive_keeps h_counters h_flags h_log h_hbm h_history ?_
    | with_reducible refine Keeps.ite ?_ ?_
    | split

theorem hbmRequestEffect_keeps {x0 x1} (h_counters : w .counters = true) (h_flags : w .flags = true) (h_log : w .log = true) (h_hbm : w .hbm = true) (h_history : w .history = true)
    (h : Keeps w k i s) : Keeps w k i (hbmRequestEffect x0 x1 s) := by
  unfold hbmRequestEffect
  repeat' first
    | with_reducible assumption
    | with_reducible refine requestEffect_keeps h_counters h_flags h_log h_hbm h_history ?_

theorem hbmRetrainEffect_keeps {x0} (h_hbm : w .hbm = true)
    (h : Keeps w k i s) : Keeps w k i (hbmRetrainEffect x0 s) := by
  unfold hbmRetrainEffect
  repeat' first
    | with_reducible assumption
    | with_reducible refine modChan_keeps h_hbm ?_ ?_
    | (intro _ x hx
       try dsimp only
       repeat' split
       all_goals first
         | exact hx
         | rfl
         | simpa using hx)

theorem hbmRetrainEndEffect_keeps {c : ChanId} {b : Bool} (h_counters : w .counters = true) (h_flags : w .flags = true) (h_log : w .log = true) (h_accounts : w .accounts = true) (h_hbm : w .hbm = true) (h_history : w .history = true) (h : Keeps w k i s) :
    Keeps w k i (hbmRetrainEndEffect c b s) := by
  have back : ∀ st, Keeps w k i st →
      Keeps w k i (serveWaiting c (modChan st c fun y => dueRefreshes s.now { y with st := .service })) := fun st hs =>
    serveWaiting_keeps h_counters h_hbm (modChan_keeps h_hbm (fun _ x hx => by simpa using hx) hs)
  have h1 := modChan_keeps (c := c) (f := fun y => { y with trainFails := y.trainFails + 1 }) h_hbm (fun _ _ hx => hx)
    (count1_keeps (x0 := aHbmC c 0x38) h_counters h)
  unfold hbmRetrainEndEffect
  refine Keeps.ite (back _ (modChan_keeps h_hbm (fun _ _ hx => hx) h)) ?_
  refine Keeps.ite (freeze_keeps h_counters h_flags h_log h_accounts h_hbm h_history h1) (back _ (modChan_keeps h_hbm (fun _ _ hx => hx) h1))

theorem hbmRetrainRetryEffect_keeps {x0} (h_hbm : w .hbm = true)
    (h : Keeps w k i s) : Keeps w k i (hbmRetrainRetryEffect x0 s) := by
  unfold hbmRetrainRetryEffect
  repeat' first
    | with_reducible assumption
    | with_reducible refine modChan_keeps h_hbm ?_ ?_
    | (intro _ x hx
       try dsimp only
       repeat' split
       all_goals first
         | exact hx
         | rfl
         | simpa using hx)

theorem hbmServiceEntryEffect_keeps {x0} (h_counters : w .counters = true) (h_hbm : w .hbm = true)
    (h : Keeps w k i s) : Keeps w k i (hbmServiceEntryEffect x0 s) := by
  unfold hbmServiceEntryEffect
  repeat' first
    | with_reducible assumption
    | with_reducible refine modChan_keeps h_hbm ?_ ?_
    | with_reducible refine serveWaiting_keeps h_counters h_hbm ?_
    | with_reducible refine Keeps.ite ?_ ?_
    | split
    | (intro _ x hx
       try dsimp only
       repeat' split
       all_goals first
         | exact hx
         | rfl
         | simpa using hx)
    | exact fun _ hc => hc
    | exact fun _ _ hx => hx

theorem hbmSetApply_keeps {r : Request} (h_hbm : w .hbm = true) (h : Keeps w k i s) : KeepsDone w k i (hbmSetApply r s) := by
  refine KeepsDone.mk (Keeps.set_hbm h_hbm (fun _ hc c => ?_) h)
  have hx := hc c
  simp only [Fin.getElem_fin, Vector.getElem_ofFn, Fin.eta] at hx ⊢
  repeat' split
  all_goals exact hx

theorem hbmSrEntryCompleteEffect_keeps {x0} (h_counters : w .counters = true) (h_hbm : w .hbm = true)
    (h : Keeps w k i s) : Keeps w k i (hbmSrEntryCompleteEffect x0 s) := by
  unfold hbmSrEntryCompleteEffect
  repeat' first
    | with_reducible assumption
    | with_reducible refine count1_keeps h_counters ?_
    | with_reducible refine modChan_keeps h_hbm ?_ ?_
    | with_reducible refine Keeps.ite ?_ ?_
    | split
    | (intro _ x hx
       try dsimp only
       repeat' split
       all_goals first
         | exact hx
         | rfl
         | simpa using hx)

theorem hbmSrEntryEffect_keeps {x0} (h_hbm : w .hbm = true)
    (h : Keeps w k i s) : Keeps w k i (hbmSrEntryEffect x0 s) := by
  unfold hbmSrEntryEffect
  repeat' first
    | with_reducible assumption
    | with_reducible refine modChan_keeps h_hbm ?_ ?_
    | with_reducible refine Keeps.ite ?_ ?_
    | split
    | (intro _ x hx
       try dsimp only
       repeat' split
       all_goals first
         | exact hx
         | rfl
         | simpa using hx)

theorem hbmSrExitCompleteEffect_keeps {x0} (h_counters : w .counters = true) (h_hbm : w .hbm = true)
    (h : Keeps w k i s) : Keeps w k i (hbmSrExitCompleteEffect x0 s) := by
  unfold hbmSrExitCompleteEffect
  repeat' first
    | with_reducible assumption
    | with_reducible refine modChan_keeps h_hbm ?_ ?_
    | with_reducible refine serveWaiting_keeps h_counters h_hbm ?_
    | (intro _ x hx
       try dsimp only
       repeat' split
       all_goals first
         | exact hx
         | rfl
         | simpa using hx)

theorem refreshCool_keeps {x0} (h_hbm : w .hbm = true)
    (h : Keeps w k i s) : Keeps w k i (refreshCool x0 s) := by
  unfold refreshCool
  repeat' first
    | with_reducible assumption
    | with_reducible refine Keeps.ite ?_ ?_
    | split
    | exact fun _ hc => hc
    | with_reducible refine Keeps.set_hbm h_hbm ?_ ?_

theorem refreshDouble_keeps {x0} (h_counters : w .counters = true) (h_flags : w .flags = true) (h_log : w .log = true) (h_hbm : w .hbm = true) (h_history : w .history = true)
    (h : Keeps w k i s) : Keeps w k i (refreshDouble x0 s) := by
  unfold refreshDouble
  repeat' first
    | with_reducible assumption
    | (extract_lets +onlyGivenNames y0
       first
       | (refine_lift have hy0 : Keeps w k i y0 := ?_; ?_
          clear_value y0
          revert y0
          intro _ _
          rotate_left
          unfold y0
          clear y0)
       | (have hy1 : HbmAll := y0
          clear hy1
          revert y0
          intro _)
       | (try clear_value y0
          revert y0
          intro _))
    | with_reducible refine setFlag_keeps h_counters h_flags h_log h_history ?_
    | with_reducible refine Keeps.ite ?_ ?_
    | split
    | exact fun _ hc => hc
    | with_reducible refine Keeps.set_hbm h_hbm ?_ ?_

theorem recordTemp_keeps {x0 x1} (h_counters : w .counters = true) (h_flags : w .flags = true) (h_log : w .log = true) (h_hbm : w .hbm = true) (h_history : w .history = true)
    (h : Keeps w k i s) : Keeps w k i (recordTemp x0 x1 s) := by
  unfold recordTemp
  repeat' first
    | with_reducible assumption
    | (extract_lets +onlyGivenNames y0
       first
       | (refine_lift have hy0 : Keeps w k i y0 := ?_; ?_
          clear_value y0
          revert y0
          intro _ _
          rotate_left
          unfold y0
          clear y0)
       | (have hy1 : HbmAll := y0
          clear hy1
          revert y0
          intro _)
       | (try clear_value y0
          revert y0
          intro _))
    | with_reducible refine refreshCool_keeps h_hbm ?_
    | with_reducible refine refreshDouble_keeps h_counters h_flags h_log h_hbm h_history ?_
    | with_reducible refine Keeps.ite ?_ ?_
    | split
    | exact fun _ hc => hc
    | with_reducible refine Keeps.set_hbm h_hbm ?_ ?_

theorem hbmTempReadEffect_keeps {x0} (h_counters : w .counters = true) (h_flags : w .flags = true) (h_log : w .log = true) (h_hbm : w .hbm = true) (h_history : w .history = true)
    (h : Keeps w k i s) : Keeps w k i (hbmTempReadEffect x0 s) := by
  unfold hbmTempReadEffect
  repeat' first
    | with_reducible assumption
    | (extract_lets +onlyGivenNames y0
       first
       | (refine_lift have hy0 : Keeps w k i y0 := ?_; ?_
          clear_value y0
          revert y0
          intro _ _
          rotate_left
          unfold y0
          clear y0)
       | (try clear_value y0
          revert y0
          intro _))
    | with_reducible refine logEvent_keeps h_counters h_flags h_log h_history ?_
    | with_reducible refine recordTemp_keeps h_counters h_flags h_log h_hbm h_history ?_
    | with_reducible refine whenB_keeps (fun _ _ => ?_) ?_

theorem hbmTempStaleEffect_keeps {x0} (h_counters : w .counters = true) (h_flags : w .flags = true) (h_log : w .log = true) (h_hbm : w .hbm = true) (h_history : w .history = true)
    (h : Keeps w k i s) : Keeps w k i (hbmTempStaleEffect x0 s) := by
  unfold hbmTempStaleEffect
  repeat' first
    | with_reducible assumption
    | with_reducible refine refreshDouble_keeps h_counters h_flags h_log h_hbm h_history ?_
    | exact fun _ hc => hc
    | with_reducible refine Keeps.set_hbm h_hbm ?_ ?_

theorem bufOwnerSetApply_keeps {x0} (h_counters : w .counters = true) (h_flags : w .flags = true) (h_log : w .log = true) (h_ports : w .ports = true) (h_bufs : w .bufs = true) (h_history : w .history = true)
    (h : Keeps w k i s) : KeepsDone w k i (bufOwnerSetApply x0 s) := by
  unfold bufOwnerSetApply
  repeat' first
    | with_reducible assumption
    | with_reducible refine modBuf_keeps h_bufs ?_
    | with_reducible refine okDone_keeps ?_
    | with_reducible refine refreshPressure_keeps h_counters h_flags h_log h_ports h_bufs h_history ?_
    | with_reducible refine foldS_keeps (fun _ _ _ => ?_) ?_
    | with_reducible refine KeepsDone.mk ?_

theorem bufPoolSetApply_keeps {x0} (h_counters : w .counters = true) (h_flags : w .flags = true) (h_log : w .log = true) (h_ports : w .ports = true) (h_bufs : w .bufs = true) (h_history : w .history = true)
    (h : Keeps w k i s) : KeepsDone w k i (bufPoolSetApply x0 s) := by
  unfold bufPoolSetApply
  repeat' first
    | with_reducible assumption
    | (extract_lets +onlyGivenNames y0
       first
       | (try clear_value y0
          revert y0
          intro _))
    | with_reducible refine modBuf_keeps h_bufs ?_
    | with_reducible refine okDone_keeps ?_
    | with_reducible refine refreshPressure_keeps h_counters h_flags h_log h_ports h_bufs h_history ?_
    | with_reducible refine foldS_keeps (fun _ _ _ => ?_) ?_
    | with_reducible refine KeepsDone.mk ?_

theorem bufPrioSetApply_keeps {x0} (h_counters : w .counters = true) (h_flags : w .flags = true) (h_log : w .log = true) (h_ports : w .ports = true) (h_bufs : w .bufs = true) (h_history : w .history = true)
    (h : Keeps w k i s) : KeepsDone w k i (bufPrioSetApply x0 s) := by
  unfold bufPrioSetApply
  repeat' first
    | with_reducible assumption
    | (extract_lets +onlyGivenNames y0
       first
       | (try clear_value y0
          revert y0
          intro _))
    | with_reducible refine modBuf_keeps h_bufs ?_
    | with_reducible refine okDone_keeps ?_
    | with_reducible refine refreshPressure_keeps h_counters h_flags h_log h_ports h_bufs h_history ?_
    | with_reducible refine KeepsDone.mk ?_

theorem bufferAllocEffect_keeps {x0 x1} (h_counters : w .counters = true) (h_flags : w .flags = true) (h_log : w .log = true) (h_ports : w .ports = true) (h_bufs : w .bufs = true) (h_history : w .history = true)
    (h : Keeps w k i s) : Keeps w k i (bufferAllocEffect x0 x1 s) := by
  unfold bufferAllocEffect
  repeat' first
    | with_reducible assumption
    | (refine allocBuf_keepsE h_counters h_flags h_log h_ports h_bufs h_history (by assumption) ?_)
    | with_reducible refine allocBuf_keeps h_counters h_flags h_log h_ports h_bufs h_history ?_

theorem capped_keeps {x0} (h_counters : w .counters = true) (h_flags : w .flags = true) (h_log : w .log = true) (h_accounts : w .accounts = true) (h_history : w .history = true)
    (h : Keeps w k i s) : Keeps w k i (capped x0 s) := by
  unfold capped
  repeat' first
    | with_reducible assumption
    | with_reducible refine modAcct_keeps h_accounts ?_
    | with_reducible refine setFlag_keeps h_counters h_flags h_log h_history ?_

theorem spillStore_keeps {x0 x1 x2 x3} (h_counters : w .counters = true) (h_hbm : w .hbm = true)
    (h : Keeps w k i s) : Keeps w k i (spillStore x0 x1 x2 x3 s) := by
  unfold spillStore
  repeat' first
    | with_reducible assumption
    | with_reducible refine serveReq_keeps h_counters h_hbm ?_

theorem closePage_keeps {x0 x1} (h_counters : w .counters = true) (h_accounts : w .accounts = true) (h_hbm : w .hbm = true)
    (h : Keeps w k i s) : Keeps w k i (closePage x0 x1 s) := by
  unfold closePage
  split
  · refine Keeps.ite h (count1_keeps h_counters (modAcct_keeps h_accounts (whenB_keeps (fun st hs => ?_) h)))
    exact Keeps.set_path (.inr ⟨rfl, rfl, rfl, rfl, rfl⟩) (.inr ⟨rfl, rfl⟩) (.inr ⟨rfl, rfl, rfl⟩) (.inr rfl) (.inl h_accounts)
      (.inr rfl) (spillStore_keeps h_counters h_hbm hs)
  · exact h

theorem endSpill_keeps {x0} (h_accounts : w .accounts = true)
    (h : Keeps w k i s) : Keeps w k i (endSpill x0 s) := by
  unfold endSpill
  repeat' first
    | with_reducible assumption
    | (extract_lets +onlyGivenNames y0
       first
       | (refine_lift have hy0 : Keeps w k i y0 := ?_; ?_
          clear_value y0
          revert y0
          intro _ _
          rotate_left
          unfold y0
          clear y0)
       | (have hy1 : PathAll := y0
          clear hy1
          revert y0
          intro _)
       | (try clear_value y0
          revert y0
          intro _))
    | with_reducible refine modAcct_keeps h_accounts ?_
    | with_reducible refine Keeps.ite ?_ ?_
    | split
    | with_reducible refine Keeps.set_path (.inr ⟨rfl, rfl, rfl, rfl, rfl⟩) (.inr ⟨rfl, rfl⟩) (.inr ⟨rfl, rfl, rfl⟩) (.inr rfl) (.inl h_accounts) (.inr rfl) ?_

theorem readRecords_keeps {a : AccountId} {n : SliceId} {l : List Packet} (h_counters : w .counters = true) (h_flags : w .flags = true) (h_log : w .log = true) (h_ports : w .ports = true) (h_bufs : w .bufs = true) (h_accounts : w .accounts = true) (h_history : w .history = true) (h : Keeps w k i s) :
    Keeps w k i (readRecords a n l s).2 := by
  induction l generalizing s with
  | nil => exact h
  | cons p t ih =>
    unfold readRecords
    split
    · rename_i b s1 e
      exact ih (modAcct_keeps h_accounts (allocBuf_keepsE h_counters h_flags h_log h_ports h_bufs h_history e h))
    · rename_i b s1 e
      exact allocBuf_keepsE h_counters h_flags h_log h_ports h_bufs h_history e h

theorem readRecords_keepsE {a : AccountId} {n : SliceId} {l : List Packet} (h_counters : w .counters = true) (h_flags : w .flags = true) (h_log : w .log = true) (h_ports : w .ports = true) (h_bufs : w .bufs = true) (h_accounts : w .accounts = true) (h_history : w .history = true) {p t}
    (e : readRecords a n l s = (p, t)) (h : Keeps w k i s) : Keeps w k i t := by
  have g := readRecords_keeps (a := a) (n := n) (l := l) h_counters h_flags h_log h_ports h_bufs h_accounts h_history h
  rw [e] at g
  exact g

theorem drainPage_keeps {x0} (h_counters : w .counters = true) (h_flags : w .flags = true) (h_log : w .log = true) (h_ports : w .ports = true) (h_bufs : w .bufs = true) (h_accounts : w .accounts = true) (h_history : w .history = true)
    (h : Keeps w k i s) : Keeps w k i (drainPage x0 s) := by
  unfold drainPage
  repeat' first
    | with_reducible assumption
    | (extract_lets +onlyGivenNames y0
       first
       | (refine_lift have hy0 : Keeps w k i y0 := ?_; ?_
          clear_value y0
          revert y0
          intro _ _
          rotate_left
          unfold y0
          clear y0)
       | (refine_lift have hy0 : Keeps w k i y0.2 := ?_; ?_
          clear_value y0
          revert y0
          intro _ _
          rotate_left
          unfold y0
          clear y0)
       | (have hy1 : PathAll := y0
          clear hy1
          revert y0
          intro _)
       | (try clear_value y0
          revert y0
          intro _))
    | with_reducible refine count1_keeps h_counters ?_
    | with_reducible refine endSpill_keeps h_accounts ?_
    | with_reducible refine modAcct_keeps h_accounts ?_
    | (refine readRecords_keepsE h_counters h_flags h_log h_ports h_bufs h_accounts h_history (by assumption) ?_)
    | with_reducible refine readRecords_keeps h_counters h_flags h_log h_ports h_bufs h_accounts h_history ?_
    | with_reducible refine Keeps.ite ?_ ?_
    | split
    | with_reducible refine Keeps.set_path (.inr ⟨rfl, rfl, rfl, rfl, rfl⟩) (.inr ⟨rfl, rfl⟩) (.inr ⟨rfl, rfl, rfl⟩) (.inr rfl) (.inl h_accounts) (.inr rfl) ?_

theorem dropCut_keeps {x0 x1} (h_counters : w .counters = true) (h_rings : w .rings = true)
    (h : Keeps w k i s) : Keeps w k i (dropCut x0 x1 s) := by
  unfold dropCut
  repeat' first
    | with_reducible assumption
    | with_reducible refine count1_keeps h_counters ?_
    | with_reducible refine dropOwed_keeps h_rings ?_
    | with_reducible refine foldS_keeps (fun _ _ _ => ?_) ?_

theorem freeEffect_keeps {x0 x1 x2} (h_counters : w .counters = true) (h_flags : w .flags = true) (h_log : w .log = true) (h_ports : w .ports = true) (h_bufs : w .bufs = true) (h_history : w .history = true)
    (h : Keeps w k i s) : Keeps w k i (freeEffect x0 x1 x2 s) := by
  unfold freeEffect
  repeat' first
    | with_reducible assumption
    | with_reducible refine bufOp_keeps h_counters h_flags h_log h_ports h_bufs h_history ?_

theorem handOffEffect_keeps {x0 x1 x2 x3 x4} (h_counters : w .counters = true) (h_flags : w .flags = true) (h_log : w .log = true) (h_ports : w .ports = true) (h_bufs : w .bufs = true) (h_history : w .history = true)
    (h : Keeps w k i s) : Keeps w k i (handOffEffect x0 x1 x2 x3 x4 s) := by
  unfold handOffEffect
  repeat' first
    | with_reducible assumption
    | with_reducible refine bufOp_keeps h_counters h_flags h_log h_ports h_bufs h_history ?_

theorem loseSpill_keeps {x0 x1} (h_counters : w .counters = true) (h_flags : w .flags = true) (h_log : w .log = true) (h_rings : w .rings = true) (h_accounts : w .accounts = true) (h_hbm : w .hbm = true) (h_history : w .history = true)
    (h : Keeps w k i s) : Keeps w k i (loseSpill x0 x1 s) := by
  unfold loseSpill
  repeat' first
    | with_reducible assumption
    | (extract_lets +onlyGivenNames y0
       first
       | (refine_lift have hy0 : Keeps w k i y0 := ?_; ?_
          clear_value y0
          revert y0
          intro _ _
          rotate_left
          unfold y0
          clear y0)
       | (have hy1 : PathAll := y0
          clear hy1
          revert y0
          intro _)
       | (try clear_value y0
          revert y0
          intro _))
    | with_reducible refine count_keeps h_counters ?_
    | with_reducible refine dropOwed_keeps h_rings ?_
    | with_reducible refine endSpill_keeps h_accounts ?_
    | with_reducible refine modAcct_keeps h_accounts ?_
    | with_reducible refine modChan_keeps h_hbm ?_ ?_
    | with_reducible refine setFlag_keeps h_counters h_flags h_log h_history ?_
    | with_reducible refine foldS_keeps (fun _ _ _ => ?_) ?_
    | with_reducible refine Keeps.ite ?_ ?_
    | split
    | (intro _ x hx
       try dsimp only
       repeat' split
       all_goals first
         | exact hx
         | rfl
         | simpa using hx)
    | exact fun _ hc => hc
    | exact fun _ _ hx => hx
    | with_reducible refine Keeps.set_path (.inr ⟨rfl, rfl, rfl, rfl, rfl⟩) (.inr ⟨rfl, rfl⟩) (.inr ⟨rfl, rfl, rfl⟩) (.inr rfl) (.inl h_accounts) (.inr rfl) ?_

theorem pageReadCompleteEffect_keeps {x0} (h_counters : w .counters = true) (h_flags : w .flags = true) (h_log : w .log = true) (h_ports : w .ports = true) (h_bufs : w .bufs = true) (h_accounts : w .accounts = true) (h_history : w .history = true)
    (h : Keeps w k i s) : Keeps w k i (pageReadCompleteEffect x0 s) := by
  unfold pageReadCompleteEffect
  repeat' first
    | with_reducible assumption
    | with_reducible refine drainPage_keeps h_counters h_flags h_log h_ports h_bufs h_accounts h_history ?_

theorem poolCarveApply_keeps {x0} (h_bufs : w .bufs = true)
    (h : Keeps w k i s) : KeepsDone w k i (poolCarveApply x0 s) := by
  unfold poolCarveApply
  repeat' first
    | with_reducible assumption
    | with_reducible refine modBuf_keeps h_bufs ?_
    | with_reducible refine okDone_keeps ?_
    | with_reducible refine foldS_keeps (fun _ _ _ => ?_) ?_
    | with_reducible refine KeepsDone.mk ?_

theorem readbackRetryEffect_keeps {x0} (h_counters : w .counters = true) (h_flags : w .flags = true) (h_log : w .log = true) (h_ports : w .ports = true) (h_bufs : w .bufs = true) (h_accounts : w .accounts = true) (h_history : w .history = true)
    (h : Keeps w k i s) : Keeps w k i (readbackRetryEffect x0 s) := by
  unfold readbackRetryEffect
  repeat' first
    | with_reducible assumption
    | with_reducible refine drainPage_keeps h_counters h_flags h_log h_ports h_bufs h_accounts h_history ?_

theorem reclaim_keeps {x0} (h_counters : w .counters = true) (h_flags : w .flags = true) (h_log : w .log = true) (h_ports : w .ports = true) (h_bufs : w .bufs = true) (h_history : w .history = true)
    (h : Keeps w k i s) : Keeps w k i (reclaim x0 s) := by
  unfold reclaim
  repeat' first
    | with_reducible assumption
    | (extract_lets +onlyGivenNames y0
       first
       | (refine_lift have hy0 : Keeps w k i y0 := ?_; ?_
          clear_value y0
          revert y0
          intro _ _
          rotate_left
          unfold y0
          clear y0)
       | (try clear_value y0
          revert y0
          intro _))
    | with_reducible refine count_keeps h_counters ?_
    | with_reducible refine modBuf_keeps h_bufs ?_
    | with_reducible refine refreshPressure_keeps h_counters h_flags h_log h_ports h_bufs h_history ?_
    | with_reducible refine setFlag_keeps h_counters h_flags h_log h_history ?_
    | with_reducible refine whenB_keeps (fun _ _ => ?_) ?_

theorem refAddEffect_keeps {x0 x1 x2} (h_counters : w .counters = true) (h_flags : w .flags = true) (h_log : w .log = true) (h_ports : w .ports = true) (h_bufs : w .bufs = true) (h_history : w .history = true)
    (h : Keeps w k i s) : Keeps w k i (refAddEffect x0 x1 x2 s) := by
  unfold refAddEffect
  repeat' first
    | with_reducible assumption
    | with_reducible refine bufOp_keeps h_counters h_flags h_log h_ports h_bufs h_history ?_
    | with_reducible refine modBuf_keeps h_bufs ?_
    | with_reducible refine Keeps.ite ?_ ?_
    | split

theorem refDropEffect_keeps {x0 x1 x2} (h_counters : w .counters = true) (h_flags : w .flags = true) (h_log : w .log = true) (h_ports : w .ports = true) (h_bufs : w .bufs = true) (h_history : w .history = true)
    (h : Keeps w k i s) : Keeps w k i (refDropEffect x0 x1 x2 s) := by
  unfold refDropEffect
  repeat' first
    | with_reducible assumption
    | with_reducible refine bufOp_keeps h_counters h_flags h_log h_ports h_bufs h_history ?_

theorem wakeChan_keeps {x0} (h_hbm : w .hbm = true)
    (h : Keeps w k i s) : Keeps w k i (wakeChan x0 s) := by
  unfold wakeChan
  repeat' first
    | with_reducible assumption
    | with_reducible refine modChan_keeps h_hbm ?_ ?_
    | with_reducible refine Keeps.ite ?_ ?_
    | split
    | (intro _ x hx
       try dsimp only
       repeat' split
       all_goals first
         | exact hx
         | rfl
         | simpa using hx)

theorem spillReadbackEffect_keeps {x0} (h_counters : w .counters = true) (h_flags : w .flags = true) (h_log : w .log = true) (h_accounts : w .accounts = true) (h_hbm : w .hbm = true) (h_history : w .history = true)
    (h : Keeps w k i s) : Keeps w k i (spillReadbackEffect x0 s) := by
  unfold spillReadbackEffect
  repeat' first
    | with_reducible assumption
    | (extract_lets +onlyGivenNames y0
       first
       | (refine_lift have hy0 : Keeps w k i y0 := ?_; ?_
          clear_value y0
          revert y0
          intro _ _
          rotate_left
          unfold y0
          clear y0)
       | (have hy1 : PathAll := y0
          clear hy1
          revert y0
          intro _)
       | (try clear_value y0
          revert y0
          intro _))
    | with_reducible refine arrive_keeps h_counters h_flags h_log h_hbm h_history ?_
    | with_reducible refine closePage_keeps h_counters h_accounts h_hbm ?_
    | with_reducible refine modAcct_keeps h_accounts ?_
    | with_reducible refine wakeChan_keeps h_hbm ?_
    | with_reducible refine Keeps.ite ?_ ?_
    | split
    | with_reducible refine Keeps.set_path (.inr ⟨rfl, rfl, rfl, rfl, rfl⟩) (.inr ⟨rfl, rfl⟩) (.inr ⟨rfl, rfl, rfl⟩) (.inr rfl) (.inl h_accounts) (.inr rfl) ?_

theorem spillRemapEffect_keeps {x0} (h_counters : w .counters = true) (h_flags : w .flags = true) (h_log : w .log = true) (h_rings : w .rings = true) (h_accounts : w .accounts = true) (h_hbm : w .hbm = true) (h_history : w .history = true)
    (h : Keeps w k i s) : Keeps w k i (spillRemapEffect x0 s) := by
  unfold spillRemapEffect
  repeat' first
    | with_reducible assumption
    | with_reducible refine loseSpill_keeps h_counters h_flags h_log h_rings h_accounts h_hbm h_history ?_
    | with_reducible refine foldS_keeps (fun _ _ _ => ?_) ?_

theorem spillSetApply_keeps {x0} (h_accounts : w .accounts = true)
    (h : Keeps w k i s) : KeepsDone w k i (spillSetApply x0 s) := by
  unfold spillSetApply
  repeat' first
    | with_reducible assumption
    | with_reducible refine modAcct_keeps h_accounts ?_
    | with_reducible refine okDone_keeps ?_
    | with_reducible refine foldS_keeps (fun _ _ _ => ?_) ?_
    | with_reducible refine KeepsDone.mk ?_

theorem spillUnreach_keeps {x0 x1} (h_counters : w .counters = true) (h_flags : w .flags = true) (h_log : w .log = true) (h_rings : w .rings = true) (h_ports : w .ports = true) (h_bufs : w .bufs = true) (h_accounts : w .accounts = true) (h_history : w .history = true)
    (h : Keeps w k i s) : Keeps w k i (spillUnreach x0 x1 s) := by
  unfold spillUnreach
  repeat' first
    | with_reducible assumption
    | with_reducible refine discardUnreach_keeps h_counters h_flags h_log h_rings h_ports h_bufs h_history ?_
    | with_reducible refine endSpill_keeps h_accounts ?_
    | with_reducible refine modAcct_keeps h_accounts ?_

theorem storeFrame_keeps {x0 x1 x2} (h_counters : w .counters = true) (h_flags : w .flags = true) (h_log : w .log = true) (h_ports : w .ports = true) (h_bufs : w .bufs = true) (h_accounts : w .accounts = true) (h_hbm : w .hbm = true) (h_history : w .history = true)
    (h : Keeps w k i s) : Keeps w k i (storeFrame x0 x1 x2 s) := by
  unfold storeFrame
  repeat' first
    | with_reducible assumption
    | (extract_lets +onlyGivenNames y0
       first
       | (refine_lift have hy0 : Keeps w k i y0 := ?_; ?_
          clear_value y0
          revert y0
          intro _ _
          rotate_left
          unfold y0
          clear y0)
       | (have hy1 : PathAll := y0
          clear hy1
          revert y0
          intro _)
       | (try clear_value y0
          revert y0
          intro _))
    | with_reducible refine count1_keeps h_counters ?_
    | with_reducible refine dropBuf_keeps h_counters h_flags h_log h_ports h_bufs h_history ?_
    | with_reducible refine modAcct_keeps h_accounts ?_
    | with_reducible refine passBuf_keeps h_counters h_flags h_log h_ports h_bufs h_history ?_
    | with_reducible refine spillStore_keeps h_counters h_hbm ?_
    | with_reducible refine Keeps.set_path (.inr ⟨rfl, rfl, rfl, rfl, rfl⟩) (.inr ⟨rfl, rfl⟩) (.inr ⟨rfl, rfl, rfl⟩) (.inr rfl) (.inl h_accounts) (.inr rfl) ?_

theorem toSpill_keeps {x0} (h_counters : w .counters = true) (h_flags : w .flags = true) (h_log : w .log = true) (h_ports : w .ports = true) (h_bufs : w .bufs = true) (h_history : w .history = true)
    (h : Keeps w k i s) : Keeps w k i (toSpill x0 s) := by
  unfold toSpill
  repeat' first
    | with_reducible assumption
    | (extract_lets +onlyGivenNames y0
       first
       | (refine_lift have hy0 : Keeps w k i y0 := ?_; ?_
          clear_value y0
          revert y0
          intro _ _
          rotate_left
          unfold y0
          clear y0)
       | (try clear_value y0
          revert y0
          intro _))
    | with_reducible refine passBuf_keeps h_counters h_flags h_log h_ports h_bufs h_history ?_
    | with_reducible refine whenB_keeps (fun _ _ => ?_) ?_

theorem throttled_keeps {x0} (h_counters : w .counters = true) (h_flags : w .flags = true) (h_log : w .log = true) (h_ports : w .ports = true) (h_bufs : w .bufs = true) (h_accounts : w .accounts = true) (h_history : w .history = true)
    (h : Keeps w k i s) : Keeps w k i (throttled x0 s) := by
  unfold throttled
  repeat' first
    | with_reducible assumption
    | (extract_lets +onlyGivenNames y0
       first
       | (refine_lift have hy0 : Keeps w k i y0 := ?_; ?_
          clear_value y0
          revert y0
          intro _ _
          rotate_left
          unfold y0
          clear y0)
       | (have hy1 : PathAll := y0
          clear hy1
          revert y0
          intro _)
       | (try clear_value y0
          revert y0
          intro _))
    | with_reducible refine setFlag_keeps h_counters h_flags h_log h_history ?_
    | with_reducible refine toSpill_keeps h_counters h_flags h_log h_ports h_bufs h_history ?_
    | with_reducible refine foldS_keeps (fun _ _ _ => ?_) ?_
    | with_reducible refine Keeps.set_path (.inr ⟨rfl, rfl, rfl, rfl, rfl⟩) (.inr ⟨rfl, rfl⟩) (.inr ⟨rfl, rfl, rfl⟩) (.inr rfl) (.inl h_accounts) (.inr rfl) ?_

theorem takePage_keeps {x0 x1} (h_accounts : w .accounts = true)
    (h : Keeps w k i s) : Keeps w k i (takePage x0 x1 s) := by
  unfold takePage
  repeat' first
    | with_reducible assumption
    | (extract_lets +onlyGivenNames y0
       first
       | (refine_lift have hy0 : Keeps w k i y0 := ?_; ?_
          clear_value y0
          revert y0
          intro _ _
          rotate_left
          unfold y0
          clear y0)
       | (have hy1 : PathAll := y0
          clear hy1
          revert y0
          intro _)
       | (try clear_value y0
          revert y0
          intro _))
    | with_reducible refine modAcct_keeps h_accounts ?_
    | with_reducible refine Keeps.set_path (.inr ⟨rfl, rfl, rfl, rfl, rfl⟩) (.inr ⟨rfl, rfl⟩) (.inr ⟨rfl, rfl, rfl⟩) (.inr rfl) (.inl h_accounts) (.inr rfl) ?_

theorem writeNewPage_keeps {x0 x1} (h_counters : w .counters = true) (h_flags : w .flags = true) (h_log : w .log = true) (h_ports : w .ports = true) (h_bufs : w .bufs = true) (h_accounts : w .accounts = true) (h_hbm : w .hbm = true) (h_history : w .history = true)
    (h : Keeps w k i s) : Keeps w k i (writeNewPage x0 x1 s) := by
  unfold writeNewPage
  repeat' first
    | with_reducible assumption
    | (extract_lets +onlyGivenNames y0
       first
       | (refine_lift have hy0 : Keeps w k i y0 := ?_; ?_
          clear_value y0
          revert y0
          intro _ _
          rotate_left
          unfold y0
          clear y0)
       | (try clear_value y0
          revert y0
          intro _))
    | with_reducible refine capped_keeps h_counters h_flags h_log h_accounts h_history ?_
    | with_reducible refine closePage_keeps h_counters h_accounts h_hbm ?_
    | with_reducible refine storeFrame_keeps h_counters h_flags h_log h_ports h_bufs h_accounts h_hbm h_history ?_
    | with_reducible refine takePage_keeps h_accounts ?_
    | with_reducible refine wakeChan_keeps h_hbm ?_
    | with_reducible refine Keeps.ite ?_ ?_
    | split

theorem spillWriteCompleteEffect_keeps {x0} (h_counters : w .counters = true) (h_flags : w .flags = true) (h_log : w .log = true) (h_rings : w .rings = true) (h_ports : w .ports = true) (h_bufs : w .bufs = true) (h_accounts : w .accounts = true) (h_hbm : w .hbm = true) (h_history : w .history = true)
    (h : Keeps w k i s) : Keeps w k i (spillWriteCompleteEffect x0 s) := by
  unfold spillWriteCompleteEffect
  repeat' first
    | with_reducible assumption
    | with_reducible refine spillUnreach_keeps h_counters h_flags h_log h_rings h_ports h_bufs h_accounts h_history ?_
    | with_reducible refine storeFrame_keeps h_counters h_flags h_log h_ports h_bufs h_accounts h_hbm h_history ?_
    | with_reducible refine throttled_keeps h_counters h_flags h_log h_ports h_bufs h_accounts h_history ?_
    | with_reducible refine wakeChan_keeps h_hbm ?_
    | with_reducible refine writeNewPage_keeps h_counters h_flags h_log h_ports h_bufs h_accounts h_hbm h_history ?_
    | with_reducible refine Keeps.ite ?_ ?_
    | split

theorem xrefAcct_keeps {x0 x1} (h_counters : w .counters = true) (h_rings : w .rings = true) (h_accounts : w .accounts = true)
    (h : Keeps w k i s) : Keeps w k i (xrefAcct x0 x1 s) := by
  unfold xrefAcct
  repeat' first
    | with_reducible assumption
    | (extract_lets +onlyGivenNames y0
       first
       | (refine_lift have hy0 : Keeps w k i y0 := ?_; ?_
          clear_value y0
          revert y0
          intro _ _
          rotate_left
          unfold y0
          clear y0)
       | (try clear_value y0
          revert y0
          intro _))
    | with_reducible refine dropCut_keeps h_counters h_rings ?_
    | with_reducible refine endSpill_keeps h_accounts ?_
    | with_reducible refine modAcct_keeps h_accounts ?_

theorem xrefFabric_keeps {x0} (h_counters : w .counters = true) (h_rings : w .rings = true) (h_fabric : w .fabric = true)
    (h : Keeps w k i s) : Keeps w k i (xrefFabric x0 s) := by
  unfold xrefFabric
  repeat' first
    | with_reducible assumption
    | (extract_lets +onlyGivenNames y0
       first
       | (refine_lift have hy0 : Keeps w k i y0 := ?_; ?_
          clear_value y0
          revert y0
          intro _ _
          rotate_left
          unfold y0
          clear y0)
       | (try clear_value y0
          revert y0
          intro _))
    | with_reducible refine dropCut_keeps h_counters h_rings ?_
    | with_reducible refine modFab_keeps h_fabric ?_
    | with_reducible refine foldS_keeps (fun _ _ _ => ?_) ?_
    | split
    | with_reducible refine Keeps.set_fabric h_fabric ?_

theorem xrefMgmt_keeps {x0} (h_counters : w .counters = true) (h_rings : w .rings = true)
    (h : Keeps w k i s) : Keeps w k i (xrefMgmt x0 s) := by
  unfold xrefMgmt
  repeat' first
    | with_reducible assumption
    | (extract_lets +onlyGivenNames y0
       first
       | (refine_lift have hy0 : Keeps w k i y0 := ?_; ?_
          clear_value y0
          revert y0
          intro _ _
          rotate_left
          unfold y0
          clear y0)
       | (have hy1 : EventAll := y0
          clear hy1
          revert y0
          intro _)
       | (try clear_value y0
          revert y0
          intro _))
    | with_reducible refine dropCut_keeps h_counters h_rings ?_
    | exact fun _ hc => hc
    | with_reducible refine Keeps.set_ev (.inr ⟨rfl, rfl, rfl, rfl, rfl⟩) (.inl h_rings) ?_ ?_

theorem xrefPort_keeps {x0 x1} (h_counters : w .counters = true) (h_rings : w .rings = true) (h_ports : w .ports = true)
    (h : Keeps w k i s) : Keeps w k i (xrefPort x0 x1 s) := by
  unfold xrefPort
  repeat' first
    | with_reducible assumption
    | (extract_lets +onlyGivenNames y0
       first
       | (refine_lift have hy0 : Keeps w k i y0 := ?_; ?_
          clear_value y0
          revert y0
          intro _ _
          rotate_left
          unfold y0
          clear y0)
       | (try clear_value y0
          revert y0
          intro _))
    | with_reducible refine dropCut_keeps h_counters h_rings ?_
    | with_reducible refine modPort_keeps h_ports ?_

theorem xrefReclaimEffect_keeps {x0} (h_counters : w .counters = true) (h_flags : w .flags = true) (h_log : w .log = true) (h_rings : w .rings = true) (h_ports : w .ports = true) (h_bufs : w .bufs = true) (h_accounts : w .accounts = true) (h_fabric : w .fabric = true) (h_history : w .history = true)
    (h : Keeps w k i s) : Keeps w k i (xrefReclaimEffect x0 s) := by
  unfold xrefReclaimEffect
  repeat' first
    | with_reducible assumption
    | (extract_lets +onlyGivenNames y0
       first
       | (refine_lift have hy0 : Keeps w k i y0 := ?_; ?_
          clear_value y0
          revert y0
          intro _ _
          rotate_left
          unfold y0
          clear y0)
       | (try clear_value y0
          revert y0
          intro _))
    | with_reducible refine reclaim_keeps h_counters h_flags h_log h_ports h_bufs h_history ?_
    | with_reducible refine xrefAcct_keeps h_counters h_rings h_accounts ?_
    | with_reducible refine xrefFabric_keeps h_counters h_rings h_fabric ?_
    | with_reducible refine xrefMgmt_keeps h_counters h_rings ?_
    | with_reducible refine xrefPort_keeps h_counters h_rings h_ports ?_
    | with_reducible refine foldS_keeps (fun _ _ _ => ?_) ?_
    | with_reducible refine Keeps.ite ?_ ?_
    | split

theorem relock_keeps (h_counters : w .counters = true) (h_flags : w .flags = true) (h_log : w .log = true) (h_time : w .time = true) (h_history : w .history = true)
    (h : Keeps w k i s) : Keeps w k i (relock s) := by
  unfold relock
  repeat' first
    | with_reducible assumption
    | (extract_lets +onlyGivenNames y0
       first
       | (refine_lift have hy0 : Keeps w k i y0 := ?_; ?_
          clear_value y0
          revert y0
          intro _ _
          rotate_left
          unfold y0
          clear y0)
       | (try clear_value y0
          revert y0
          intro _))
    | with_reducible refine setFlag_keeps h_counters h_flags h_log h_history ?_
    | with_reducible refine Keeps.ite ?_ ?_
    | split
    | with_reducible refine Keeps.set_time h_time ?_

theorem stepCounter_keeps {x0} (h_counters : w .counters = true) (h_flags : w .flags = true) (h_log : w .log = true) (h_time : w .time = true) (h_history : w .history = true)
    (h : Keeps w k i s) : Keeps w k i (stepCounter x0 s) := by
  unfold stepCounter
  repeat' first
    | with_reducible assumption
    | (extract_lets +onlyGivenNames y0
       first
       | (refine_lift have hy0 : Keeps w k i y0 := ?_; ?_
          clear_value y0
          revert y0
          intro _ _
          rotate_left
          unfold y0
          clear y0)
       | (try clear_value y0
          revert y0
          intro _))
    | with_reducible refine count1_keeps h_counters ?_
    | with_reducible refine setFlag_keeps h_counters h_flags h_log h_history ?_
    | with_reducible refine Keeps.ite ?_ ?_
    | split
    | with_reducible refine Keeps.set_time h_time ?_

theorem steerBy_keeps {x0} (h_counters : w .counters = true) (h_flags : w .flags = true) (h_log : w .log = true) (h_time : w .time = true) (h_history : w .history = true)
    (h : Keeps w k i s) : Keeps w k i (steerBy x0 s) := by
  unfold steerBy
  repeat' first
    | with_reducible assumption
    | (extract_lets +onlyGivenNames y0
       first
       | (try clear_value y0
          revert y0
          intro _))
    | with_reducible refine stepCounter_keeps h_counters h_flags h_log h_time h_history ?_
    | with_reducible refine Keeps.ite ?_ ?_
    | split
    | with_reducible refine Keeps.set_time h_time ?_

theorem steer_keeps {x0} (h_counters : w .counters = true) (h_flags : w .flags = true) (h_log : w .log = true) (h_time : w .time = true) (h_history : w .history = true)
    (h : Keeps w k i s) : Keeps w k i (steer x0 s) := by
  unfold steer
  repeat' first
    | with_reducible assumption
    | (extract_lets +onlyGivenNames y0
       first
       | (refine_lift have hy0 : Keeps w k i y0 := ?_; ?_
          clear_value y0
          revert y0
          intro _ _
          rotate_left
          unfold y0
          clear y0)
       | (try clear_value y0
          revert y0
          intro _))
    | with_reducible refine steerBy_keeps h_counters h_flags h_log h_time h_history ?_
    | with_reducible refine Keeps.ite ?_ ?_
    | split
    | with_reducible refine Keeps.set_time h_time ?_

theorem acceptTod_keeps {x0 x1} (h_counters : w .counters = true) (h_flags : w .flags = true) (h_log : w .log = true) (h_groups : w .groups = true) (h_time : w .time = true) (h_history : w .history = true)
    (h : Keeps w k i s) : Keeps w k i (acceptTod x0 x1 s) := by
  unfold acceptTod
  repeat' first
    | with_reducible assumption
    | (extract_lets +onlyGivenNames y0
       first
       | (refine_lift have hy0 : Keeps w k i y0 := ?_; ?_
          clear_value y0
          revert y0
          intro _ _
          rotate_left
          unfold y0
          clear y0)
       | (try clear_value y0
          revert y0
          intro _))
    | with_reducible refine followClock_keeps h_groups ?_
    | with_reducible refine modGroup_keeps h_groups ?_
    | with_reducible refine relock_keeps h_counters h_flags h_log h_time h_history ?_
    | with_reducible refine setFlag_keeps h_counters h_flags h_log h_history ?_
    | with_reducible refine steer_keeps h_counters h_flags h_log h_time h_history ?_
    | with_reducible refine whenB_keeps (fun _ _ => ?_) ?_
    | with_reducible refine Keeps.ite ?_ ?_
    | split
    | with_reducible refine Keeps.set_time h_time ?_

theorem gapEstimateEffect_keeps (h_counters : w .counters = true) (h_flags : w .flags = true) (h_log : w .log = true) (h_groups : w .groups = true) (h_time : w .time = true) (h_history : w .history = true)
    (h : Keeps w k i s) : Keeps w k i (gapEstimateEffect s) := by
  unfold gapEstimateEffect
  repeat' first
    | with_reducible assumption
    | (extract_lets +onlyGivenNames y0
       first
       | (refine_lift have hy0 : Keeps w k i y0 := ?_; ?_
          clear_value y0
          revert y0
          intro _ _
          rotate_left
          unfold y0
          clear y0)
       | (try clear_value y0
          revert y0
          intro _))
    | with_reducible refine modGroup_keeps h_groups ?_
    | with_reducible refine setFlag_keeps h_counters h_flags h_log h_history ?_
    | with_reducible refine stepCounter_keeps h_counters h_flags h_log h_time h_history ?_
    | with_reducible refine foldS_keeps (fun _ _ _ => ?_) ?_
    | with_reducible refine Keeps.ite ?_ ?_
    | split
    | with_reducible refine Keeps.set_time h_time ?_

theorem gapSatEffect_keeps (h_counters : w .counters = true) (h_flags : w .flags = true) (h_log : w .log = true) (h_time : w .time = true) (h_history : w .history = true)
    (h : Keeps w k i s) : Keeps w k i (gapSatEffect s) := by
  unfold gapSatEffect
  repeat' first
    | with_reducible assumption
    | with_reducible refine setFlag_keeps h_counters h_flags h_log h_history ?_
    | with_reducible refine Keeps.set_time h_time ?_

theorem ptpSetApply_keeps {x0} (h_time : w .time = true)
    (h : Keeps w k i s) : KeepsDone w k i (ptpSetApply x0 s) := by
  unfold ptpSetApply
  repeat' first
    | with_reducible assumption
    | with_reducible refine okDone_keeps ?_
    | with_reducible refine KeepsDone.mk ?_
    | with_reducible refine Keeps.set_time h_time ?_

theorem putLatch_keeps {x0 x1} (h_time : w .time = true)
    (h : Keeps w k i s) : Keeps w k i (putLatch x0 x1 s) := by
  unfold putLatch
  repeat' first
    | with_reducible assumption
    | with_reducible refine Keeps.set_time h_time ?_

theorem refuseTod_keeps {x0 x1} (h_counters : w .counters = true) (h_flags : w .flags = true) (h_log : w .log = true) (h_time : w .time = true) (h_history : w .history = true)
    (h : Keeps w k i s) : Keeps w k i (refuseTod x0 x1 s) := by
  unfold refuseTod
  repeat' first
    | with_reducible assumption
    | (extract_lets +onlyGivenNames y0
       first
       | (refine_lift have hy0 : Keeps w k i y0 := ?_; ?_
          clear_value y0
          revert y0
          intro _ _
          rotate_left
          unfold y0
          clear y0)
       | (try clear_value y0
          revert y0
          intro _))
    | with_reducible refine count1_keeps h_counters ?_
    | with_reducible refine logEvent_keeps h_counters h_flags h_log h_history ?_
    | with_reducible refine putLatch_keeps h_time ?_
    | with_reducible refine setFlag_keeps h_counters h_flags h_log h_history ?_
    | with_reducible refine Keeps.set_time h_time ?_

theorem ringMeasureEffect_keeps {x0} (h_time : w .time = true)
    (h : Keeps w k i s) : Keeps w k i (ringMeasureEffect x0 s) := by
  unfold ringMeasureEffect
  repeat' first
    | with_reducible assumption
    | with_reducible refine Keeps.set_time h_time ?_

theorem slewEndEffect_keeps (h_time : w .time = true)
    (h : Keeps w k i s) : Keeps w k i (slewEndEffect s) := by
  unfold slewEndEffect
  repeat' first
    | with_reducible assumption
    | with_reducible refine Keeps.set_time h_time ?_

theorem timeCounterRestartEffect_keeps (h_counters : w .counters = true) (h_flags : w .flags = true) (h_log : w .log = true) (h_time : w .time = true) (h_history : w .history = true)
    (h : Keeps w k i s) : Keeps w k i (timeCounterRestartEffect s) := by
  unfold timeCounterRestartEffect
  repeat' first
    | with_reducible assumption
    | (extract_lets +onlyGivenNames y0
       first
       | (refine_lift have hy0 : Keeps w k i y0 := ?_; ?_
          clear_value y0
          revert y0
          intro _ _
          rotate_left
          unfold y0
          clear y0)
       | (try clear_value y0
          revert y0
          intro _))
    | with_reducible refine setFlag_keeps h_counters h_flags h_log h_history ?_
    | with_reducible refine whenB_keeps (fun _ _ => ?_) ?_
    | with_reducible refine Keeps.ite ?_ ?_
    | split
    | with_reducible refine Keeps.set_time h_time ?_

theorem timeJumpAcceptApply_keeps {x0} (h_counters : w .counters = true) (h_flags : w .flags = true) (h_log : w .log = true) (h_groups : w .groups = true) (h_time : w .time = true) (h_history : w .history = true)
    (h : Keeps w k i s) : KeepsDone w k i (timeJumpAcceptApply x0 s) := by
  unfold timeJumpAcceptApply
  repeat' first
    | with_reducible assumption
    | (extract_lets +onlyGivenNames y0
       first
       | (try clear_value y0
          revert y0
          intro _))
    | with_reducible refine acceptTod_keeps h_counters h_flags h_log h_groups h_time h_history ?_
    | with_reducible refine okDone_keeps ?_
    | with_reducible refine putLatch_keeps h_time ?_
    | with_reducible refine Keeps.ite ?_ ?_
    | with_reducible refine KeepsDone.ite ?_ ?_
    | split
    | with_reducible refine KeepsDone.mk ?_

theorem timeOutputSetApply_keeps {x0} (h_time : w .time = true)
    (h : Keeps w k i s) : KeepsDone w k i (timeOutputSetApply x0 s) := by
  unfold timeOutputSetApply
  repeat' first
    | with_reducible assumption
    | with_reducible refine okDone_keeps ?_
    | with_reducible refine KeepsDone.mk ?_
    | with_reducible refine Keeps.set_time h_time ?_

theorem timeSetApply_keeps {x0} (h_counters : w .counters = true) (h_flags : w .flags = true) (h_log : w .log = true) (h_time : w .time = true) (h_history : w .history = true)
    (h : Keeps w k i s) : KeepsDone w k i (timeSetApply x0 s) := by
  unfold timeSetApply
  repeat' first
    | with_reducible assumption
    | with_reducible refine okDone_keeps ?_
    | with_reducible refine relock_keeps h_counters h_flags h_log h_time h_history ?_
    | with_reducible refine stepCounter_keeps h_counters h_flags h_log h_time h_history ?_
    | with_reducible refine Keeps.ite ?_ ?_
    | with_reducible refine KeepsDone.ite ?_ ?_
    | split
    | with_reducible refine KeepsDone.mk ?_
    | with_reducible refine Keeps.set_time h_time ?_

theorem timeSteerEffect_keeps (h_counters : w .counters = true) (h_flags : w .flags = true) (h_log : w .log = true) (h_time : w .time = true) (h_history : w .history = true)
    (h : Keeps w k i s) : Keeps w k i (timeSteerEffect s) := by
  unfold timeSteerEffect
  repeat' first
    | with_reducible assumption
    | with_reducible refine steer_keeps h_counters h_flags h_log h_time h_history ?_
    | split

theorem todAct_keeps {x0 x1 x2} (h_counters : w .counters = true) (h_flags : w .flags = true) (h_log : w .log = true) (h_groups : w .groups = true) (h_time : w .time = true) (h_history : w .history = true)
    (h : Keeps w k i s) : Keeps w k i (todAct x0 x1 x2 s) := by
  unfold todAct
  repeat' first
    | with_reducible assumption
    | (extract_lets +onlyGivenNames y0
       first
       | (try clear_value y0
          revert y0
          intro _))
    | with_reducible refine acceptTod_keeps h_counters h_flags h_log h_groups h_time h_history ?_
    | with_reducible refine count1_keeps h_counters ?_
    | with_reducible refine refuseTod_keeps h_counters h_flags h_log h_time h_history ?_
    | with_reducible refine Keeps.ite ?_ ?_

theorem applyTable_keeps (h_serdes : w .serdes = true)
    (h : Keeps w k i s) : Keeps w k i (applyTable s) := by
  unfold applyTable
  repeat' first
    | with_reducible assumption
    | with_reducible refine Keeps.set_serdes h_serdes ?_

theorem modSerial_keeps {x1 x2} (h_serdes : w .serdes = true)
    (h : Keeps w k i s) : Keeps w k i (modSerial s x1 x2) := by
  unfold modSerial
  repeat' first
    | with_reducible assumption
    | with_reducible refine Keeps.set_serdes h_serdes ?_

theorem laneStart_keeps {x0} (h_counters : w .counters = true) (h_flags : w .flags = true) (h_bridge : w .bridge = true) (h_log : w .log = true) (h_rings : w .rings = true) (h_lanes : w .lanes = true) (h_groups : w .groups = true) (h_ports : w .ports = true) (h_ingress : w .ingress = true) (h_bufs : w .bufs = true) (h_accounts : w .accounts = true) (h_cipher : w .cipher = true) (h_serdes : w .serdes = true) (h_fabric : w .fabric = true) (h_history : w .history = true)
    (h : Keeps w k i s) : Keeps w k i (laneStart x0 s) := by
  unfold laneStart
  repeat' first
    | with_reducible assumption
    | (extract_lets +onlyGivenNames y0
       first
       | (refine_lift have hy0 : Keeps w k i y0 := ?_; ?_
          clear_value y0
          revert y0
          intro _ _
          rotate_left
          unfold y0
          clear y0)
       | (try clear_value y0
          revert y0
          intro _))
    | with_reducible refine loseBlockLock_keeps h_counters h_flags h_bridge h_log h_rings h_lanes h_groups h_ports h_ingress h_bufs h_accounts h_cipher h_fabric h_history ?_
    | with_reducible refine modFab_keeps h_fabric ?_
    | with_reducible refine modPort_keeps h_ports ?_
    | with_reducible refine modSerial_keeps h_serdes ?_
    | with_reducible refine Keeps.ite ?_ ?_
    | split
    | with_reducible refine Keeps.set_serdes h_serdes ?_

theorem cancelTest_keeps {x0} (h_counters : w .counters = true) (h_flags : w .flags = true) (h_bridge : w .bridge = true) (h_log : w .log = true) (h_rings : w .rings = true) (h_lanes : w .lanes = true) (h_groups : w .groups = true) (h_ports : w .ports = true) (h_ingress : w .ingress = true) (h_bufs : w .bufs = true) (h_accounts : w .accounts = true) (h_cipher : w .cipher = true) (h_serdes : w .serdes = true) (h_fabric : w .fabric = true) (h_history : w .history = true)
    (h : Keeps w k i s) : Keeps w k i (cancelTest x0 s) := by
  unfold cancelTest
  repeat' first
    | with_reducible assumption
    | with_reducible refine laneStart_keeps h_counters h_flags h_bridge h_log h_rings h_lanes h_groups h_ports h_ingress h_bufs h_accounts h_cipher h_serdes h_fabric h_history ?_
    | with_reducible refine modSerial_keeps h_serdes ?_
    | with_reducible refine setFlag_keeps h_counters h_flags h_log h_history ?_
    | with_reducible refine Keeps.ite ?_ ?_

theorem eqTake_keeps {e : EqRaw} (h_counters : w .counters = true) (h_flags : w .flags = true) (h_log : w .log = true) (h_serdes : w .serdes = true) (h_history : w .history = true) (h : Keeps w k i s) : Keeps w k i (eqTake e s) := by
  have bad : Keeps w k i (foldS (presentSlices s) (fun n a => setFlag (aEqFlags n) 1 a) s) :=
    foldS_keeps (fun _ _ hs => setFlag_keeps h_counters h_flags h_log h_history hs) h
  exact Keeps.ite bad (Keeps.ite h (Keeps.ite bad (Keeps.set_serdes h_serdes h)))

theorem readTable_keeps (h_counters : w .counters = true) (h_flags : w .flags = true) (h_log : w .log = true) (h_serdes : w .serdes = true) (h_history : w .history = true)
    (h : Keeps w k i s) : Keeps w k i (readTable s) := by
  unfold readTable
  repeat' first
    | with_reducible assumption
    | (extract_lets +onlyGivenNames y0
       first
       | (refine_lift have hy0 : Keeps w k i y0 := ?_; ?_
          clear_value y0
          revert y0
          intro _ _
          rotate_left
          unfold y0
          clear y0)
       | (try clear_value y0
          revert y0
          intro _))
    | with_reducible refine applyTable_keeps h_serdes ?_
    | with_reducible refine eqTake_keeps h_counters h_flags h_log h_serdes h_history ?_
    | with_reducible refine logEvent_keeps h_counters h_flags h_log h_history ?_
    | with_reducible refine setFlag_keeps h_counters h_flags h_log h_history ?_
    | with_reducible refine foldS_keeps (fun _ _ _ => ?_) ?_
    | with_reducible refine Keeps.ite ?_ ?_
    | split
    | with_reducible refine Keeps.set_serdes h_serdes ?_

theorem slicePower_keeps {x0 x1} (h_serdes : w .serdes = true)
    (h : Keeps w k i s) : Keeps w k i (slicePower x0 x1 s) := by
  unfold slicePower
  repeat' first
    | with_reducible assumption
    | with_reducible refine modSerial_keeps h_serdes ?_
    | with_reducible refine foldS_keeps (fun _ _ _ => ?_) ?_
    | with_reducible refine Keeps.set_serdes h_serdes ?_

end Sys2Proof.Machine
end

