-- ==== Sys2Proof/Laws/KeepsInfra.lean ====
section
/-!
SUPPORT. Laws/KeepsInfra.lean: one lemma for each operation of Machine/Bridges, Anchor, Held, Clocks, Lanes, Power, Reset, Firmware:
what it leaves unchanged (see Laws/Keeps.lean).
-/
namespace Sys2Proof.Machine

variable {w : Comp → Bool} {k : Prop} {i s : State}

@[simp] theorem sleepChan_mem (n : Nat) (x : HbmChan) : (sleepChan n x).mem = x.mem := by
  unfold sleepChan
  split <;> rfl

theorem resendFlits_keeps {x0 x1} (h_bridge : w .bridge = true)
    (h : Keeps w k i s) : Keeps w k i (resendFlits x0 x1 s) := by
  unfold resendFlits
  repeat' first
    | with_reducible assumption
    | (extract_lets +onlyGivenNames y0
       first
       | (refine_lift have hy0 : Keeps w k i y0 := ?_; ?_
          clear_value y0
          revert y0
          intro _ _
          rotate_left
          unfold y0
          clear y0)
       | (try clear_value y0
          revert y0
          intro _))
    | with_reducible refine sendFlits_keeps h_bridge ?_
    | with_reducible refine foldS_keeps (fun _ _ _ => ?_) ?_
    | with_reducible refine Keeps.ite ?_ ?_
    | split

theorem downPort_keeps {x0 x1} (h_counters : w .counters = true) (h_bridge : w .bridge = true)
    (h : Keeps w k i s) : Keeps w k i (downPort x0 x1 s) := by
  unfold downPort
  repeat' first
    | with_reducible assumption
    | (extract_lets +onlyGivenNames y0
       first
       | (refine_lift have hy0 : Keeps w k i y0 := ?_; ?_
          clear_value y0
          revert y0
          intro _ _
          rotate_left
          unfold y0
          clear y0)
       | (try clear_value y0
          revert y0
          intro _))
    | with_reducible refine count1_keeps h_counters ?_
    | with_reducible refine modBridge_keeps h_bridge ?_
    | with_reducible refine resendFlits_keeps h_bridge ?_
    | with_reducible refine Keeps.set_bridge h_bridge ?_

theorem loseCarry_keeps {x0} (h_counters : w .counters = true) (h_flags : w .flags = true) (h_log : w .log = true) (h_rings : w .rings = true) (h_ports : w .ports = true) (h_bufs : w .bufs = true) (h_history : w .history = true)
    (h : Keeps w k i s) : Keeps w k i (loseCarry x0 s) := by
  unfold loseCarry
  repeat' first
    | with_reducible assumption
    | with_reducible refine discard_keeps h_counters h_flags h_log h_rings h_ports h_bufs h_history ?_
    | split

theorem dropTransit_keeps (h_counters : w .counters = true) (h_flags : w .flags = true) (h_bridge : w .bridge = true) (h_log : w .log = true) (h_rings : w .rings = true) (h_ports : w .ports = true) (h_bufs : w .bufs = true) (h_history : w .history = true)
    (h : Keeps w k i s) : Keeps w k i (dropTransit s) := by
  unfold dropTransit
  repeat' first
    | with_reducible assumption
    | (extract_lets +onlyGivenNames y0
       first
       | (refine_lift have hy0 : Keeps w k i y0 := ?_; ?_
          clear_value y0
          revert y0
          intro _ _
          rotate_left
          unfold y0
          clear y0)
       | (try clear_value y0
          revert y0
          intro _))
    | with_reducible refine count1_keeps h_counters ?_
    | with_reducible refine loseCarry_keeps h_counters h_flags h_log h_rings h_ports h_bufs h_history ?_
    | with_reducible refine foldS_keeps (fun _ _ _ => ?_) ?_
    | with_reducible refine Keeps.set_bridge h_bridge ?_

theorem refreshReach_keeps (h_bridge : w .bridge = true)
    (h : Keeps w k i s) : Keeps w k i (refreshReach s) := by
  unfold refreshReach
  repeat' first
    | with_reducible assumption
    | with_reducible refine Keeps.set_bridge h_bridge ?_

theorem linkChange_keeps {f : State → State} (h_counters : w .counters = true) (h_flags : w .flags = true) (h_bridge : w .bridge = true) (h_mirror : w .mirror = true) (h_log : w .log = true) (h_rings : w .rings = true) (h_ports : w .ports = true) (h_bufs : w .bufs = true) (h_history : w .history = true)
    (hf : ∀ s, Keeps w k i s → Keeps w k i (f s)) (h : Keeps w k i s) : Keeps w k i (linkChange f s) := by
  have h1 : Keeps w k i (dropTransit (refreshReach (f s))) := dropTransit_keeps h_counters h_flags h_bridge h_log h_rings h_ports h_bufs h_history (refreshReach_keeps h_bridge (hf s h))
  unfold linkChange
  extract_lets s1
  refine Keeps.ite ?_ (Keeps.ite (setFlag_keeps h_counters h_flags h_log h_history h1) h1)
  exact setFlag_keeps h_counters h_flags h_log h_history (keepMirror_keeps h_mirror h1)

theorem bridgePortDownEffect_keeps {x0 x1} (h_counters : w .counters = true) (h_flags : w .flags = true) (h_bridge : w .bridge = true) (h_mirror : w .mirror = true) (h_log : w .log = true) (h_rings : w .rings = true) (h_ports : w .ports = true) (h_bufs : w .bufs = true) (h_history : w .history = true)
    (h : Keeps w k i s) : Keeps w k i (bridgePortDownEffect x0 x1 s) := by
  unfold bridgePortDownEffect
  repeat' first
    | with_reducible assumption
    | with_reducible refine downPort_keeps h_counters h_bridge ?_
    | with_reducible refine linkChange_keeps h_counters h_flags h_bridge h_mirror h_log h_rings h_ports h_bufs h_history (fun _ _ => ?_) ?_

theorem bridgePortUpEffect_keeps {x0 x1} (h_counters : w .counters = true) (h_flags : w .flags = true) (h_bridge : w .bridge = true) (h_mirror : w .mirror = true) (h_log : w .log = true) (h_rings : w .rings = true) (h_ports : w .ports = true) (h_bufs : w .bufs = true) (h_history : w .history = true)
    (h : Keeps w k i s) : Keeps w k i (bridgePortUpEffect x0 x1 s) := by
  unfold bridgePortUpEffect
  repeat' first
    | with_reducible assumption
    | with_reducible refine linkChange_keeps h_counters h_flags h_bridge h_mirror h_log h_rings h_ports h_bufs h_history (fun _ _ => ?_) ?_
    | with_reducible refine modBridge_keeps h_bridge ?_

theorem bridgeRetrainEffect_keeps {x0 x1 x2} (h_bridge : w .bridge = true)
    (h : Keeps w k i s) : Keeps w k i (bridgeRetrainEffect x0 x1 x2 s) := by
  unfold bridgeRetrainEffect
  repeat' first
    | with_reducible assumption
    | with_reducible refine modBridge_keeps h_bridge ?_

theorem losePacket_keeps {x0 x1 x2} (h_counters : w .counters = true) (h_flags : w .flags = true) (h_bridge : w .bridge = true) (h_log : w .log = true) (h_rings : w .rings = true) (h_ports : w .ports = true) (h_bufs : w .bufs = true) (h_history : w .history = true)
    (h : Keeps w k i s) : Keeps w k i (losePacket x0 x1 x2 s) := by
  unfold losePacket
  repeat' first
    | with_reducible assumption
    | with_reducible refine count1_keeps h_counters ?_
    | with_reducible refine loseCarry_keeps h_counters h_flags h_log h_rings h_ports h_bufs h_history ?_
    | split
    | with_reducible refine Keeps.set_bridge h_bridge ?_

theorem landCarry_keeps {x0} (h_counters : w .counters = true) (h_flags : w .flags = true) (h_bridge : w .bridge = true) (h_log : w .log = true) (h_rings : w .rings = true) (h_lanes : w .lanes = true) (h_groups : w .groups = true) (h_ports : w .ports = true) (h_ingress : w .ingress = true) (h_bufs : w .bufs = true) (h_accounts : w .accounts = true) (h_slots : w .slots = true) (h_fabric : w .fabric = true) (h_history : w .history = true)
    (h : Keeps w k i s) : Keeps w k i (landCarry x0 s) := by
  unfold landCarry
  repeat' first
    | with_reducible assumption
    | with_reducible refine fabQueue_keeps h_counters h_flags h_log h_rings h_ports h_bufs h_fabric h_history ?_
    | with_reducible refine landFrame_keeps h_counters h_flags h_bridge h_log h_rings h_lanes h_groups h_ports h_ingress h_bufs h_accounts h_slots h_fabric h_history ?_
    | split

theorem landPacket_keeps {x0 x1 x2} (h_counters : w .counters = true) (h_flags : w .flags = true) (h_bridge : w .bridge = true) (h_log : w .log = true) (h_rings : w .rings = true) (h_lanes : w .lanes = true) (h_groups : w .groups = true) (h_ports : w .ports = true) (h_ingress : w .ingress = true) (h_bufs : w .bufs = true) (h_accounts : w .accounts = true) (h_slots : w .slots = true) (h_fabric : w .fabric = true) (h_history : w .history = true)
    (h : Keeps w k i s) : Keeps w k i (landPacket x0 x1 x2 s) := by
  unfold landPacket
  repeat' first
    | with_reducible assumption
    | with_reducible refine landCarry_keeps h_counters h_flags h_bridge h_log h_rings h_lanes h_groups h_ports h_ingress h_bufs h_accounts h_slots h_fabric h_history ?_
    | split
    | with_reducible refine Keeps.set_bridge h_bridge ?_

theorem seqTake_keeps {x0 x1 x2} (h_counters : w .counters = true) (h_flags : w .flags = true) (h_bridge : w .bridge = true) (h_log : w .log = true) (h_rings : w .rings = true) (h_lanes : w .lanes = true) (h_groups : w .groups = true) (h_ports : w .ports = true) (h_ingress : w .ingress = true) (h_bufs : w .bufs = true) (h_accounts : w .accounts = true) (h_slots : w .slots = true) (h_fabric : w .fabric = true) (h_history : w .history = true)
    (h : Keeps w k i s) : Keeps w k i (seqTake x0 x1 x2 s) := by
  unfold seqTake
  repeat' first
    | with_reducible assumption
    | with_reducible refine landPacket_keeps h_counters h_flags h_bridge h_log h_rings h_lanes h_groups h_ports h_ingress h_bufs h_accounts h_slots h_fabric h_history ?_
    | with_reducible refine foldS_keeps (fun _ _ _ => ?_) ?_
    | with_reducible refine Keeps.set_bridge h_bridge ?_

theorem bridgeSeqGapTimeoutEffect_keeps {x0 x1} (h_counters : w .counters = true) (h_flags : w .flags = true) (h_bridge : w .bridge = true) (h_log : w .log = true) (h_rings : w .rings = true) (h_lanes : w .lanes = true) (h_groups : w .groups = true) (h_ports : w .ports = true) (h_ingress : w .ingress = true) (h_bufs : w .bufs = true) (h_accounts : w .accounts = true) (h_slots : w .slots = true) (h_fabric : w .fabric = true) (h_history : w .history = true)
    (h : Keeps w k i s) : Keeps w k i (bridgeSeqGapTimeoutEffect x0 x1 s) := by
  unfold bridgeSeqGapTimeoutEffect
  repeat' first
    | with_reducible assumption
    | (extract_lets +onlyGivenNames y0
       first
       | (refine_lift have hy0 : Keeps w k i y0 := ?_; ?_
          clear_value y0
          revert y0
          intro _ _
          rotate_left
          unfold y0
          clear y0)
       | (try clear_value y0
          revert y0
          intro _))
    | with_reducible refine losePacket_keeps h_counters h_flags h_bridge h_log h_rings h_ports h_bufs h_history ?_
    | with_reducible refine seqTake_keeps h_counters h_flags h_bridge h_log h_rings h_lanes h_groups h_ports h_ingress h_bufs h_accounts h_slots h_fabric h_history ?_
    | with_reducible refine foldS_keeps (fun _ _ _ => ?_) ?_
    | split

theorem goodFlit_keeps {x0 x1 x2} (h_counters : w .counters = true) (h_flags : w .flags = true) (h_bridge : w .bridge = true) (h_log : w .log = true) (h_rings : w .rings = true) (h_lanes : w .lanes = true) (h_groups : w .groups = true) (h_ports : w .ports = true) (h_ingress : w .ingress = true) (h_bufs : w .bufs = true) (h_accounts : w .accounts = true) (h_slots : w .slots = true) (h_fabric : w .fabric = true) (h_history : w .history = true)
    (h : Keeps w k i s) : Keeps w k i (goodFlit x0 x1 x2 s) := by
  unfold goodFlit
  repeat' first
    | with_reducible assumption
    | (extract_lets +onlyGivenNames y0
       first
       | (refine_lift have hy0 : Keeps w k i y0 := ?_; ?_
          clear_value y0
          revert y0
          intro _ _
          rotate_left
          unfold y0
          clear y0)
       | (try clear_value y0
          revert y0
          intro _))
    | with_reducible refine count1_keeps h_counters ?_
    | with_reducible refine modBridge_keeps h_bridge ?_
    | with_reducible refine sendFlits_keeps h_bridge ?_
    | with_reducible refine seqTake_keeps h_counters h_flags h_bridge h_log h_rings h_lanes h_groups h_ports h_ingress h_bufs h_accounts h_slots h_fabric h_history ?_
    | with_reducible refine Keeps.ite ?_ ?_
    | split

theorem flitReceiveEffect_keeps {x0 x1 x2} (h_counters : w .counters = true) (h_flags : w .flags = true) (h_bridge : w .bridge = true) (h_log : w .log = true) (h_rings : w .rings = true) (h_lanes : w .lanes = true) (h_groups : w .groups = true) (h_ports : w .ports = true) (h_ingress : w .ingress = true) (h_bufs : w .bufs = true) (h_accounts : w .accounts = true) (h_slots : w .slots = true) (h_fabric : w .fabric = true) (h_history : w .history = true)
    (h : Keeps w k i s) : Keeps w k i (flitReceiveEffect x0 x1 x2 s) := by
  unfold flitReceiveEffect
  repeat' first
    | with_reducible assumption
    | with_reducible refine count1_keeps h_counters ?_
    | with_reducible refine goodFlit_keeps h_counters h_flags h_bridge h_log h_rings h_lanes h_groups h_ports h_ingress h_bufs h_accounts h_slots h_fabric h_history ?_
    | with_reducible refine modBridge_keeps h_bridge ?_
    | with_reducible refine Keeps.ite ?_ ?_
    | split

theorem routeTableInstallEffect_keeps {x0} (h_bridge : w .bridge = true)
    (h : Keeps w k i s) : Keeps w k i (routeTableInstallEffect x0 s) := by
  unfold routeTableInstallEffect
  repeat' first
    | with_reducible assumption
    | with_reducible refine Keeps.set_bridge h_bridge ?_

theorem setAnchor_keeps {x0 x1} (h_anchor : w .anchor = true)
    (h : Keeps w k i s) : Keeps w k i (setAnchor x0 x1 s) := by
  unfold setAnchor
  repeat' first
    | with_reducible assumption
    | with_reducible refine modCap_keeps h_anchor ?_

theorem setDrive_keeps {x0 x1} (h_anchor : w .anchor = true)
    (h : Keeps w k i s) : Keeps w k i (setDrive x0 x1 s) := by
  unfold setDrive
  repeat' first
    | with_reducible assumption
    | (extract_lets +onlyGivenNames y0
       first
       | (refine_lift have hy0 : Keeps w k i y0 := ?_; ?_
          clear_value y0
          revert y0
          intro _ _
          rotate_left
          unfold y0
          clear y0)
       | (try clear_value y0
          revert y0
          intro _))
    | with_reducible refine modCap_keeps h_anchor ?_
    | with_reducible refine Keeps.ite ?_ ?_
    | split
    | with_reducible refine Keeps.set_anchor h_anchor ?_

theorem leaveAnchor_keeps {x0 x1} (h_anchor : w .anchor = true)
    (h : Keeps w k i s) : Keeps w k i (leaveAnchor x0 x1 s) := by
  unfold leaveAnchor
  repeat' first
    | with_reducible assumption
    | (extract_lets +onlyGivenNames y0
       first
       | (refine_lift have hy0 : Keeps w k i y0 := ?_; ?_
          clear_value y0
          revert y0
          intro _ _
          rotate_left
          unfold y0
          clear y0)
       | (try clear_value y0
          revert y0
          intro _))
    | with_reducible refine modCap_keeps h_anchor ?_
    | with_reducible refine setAnchor_keeps h_anchor ?_
    | with_reducible refine setDrive_keeps h_anchor ?_
    | with_reducible refine Keeps.set_anchor h_anchor ?_

theorem abstain_keeps {x0 x1} (h_counters : w .counters = true) (h_flags : w .flags = true) (h_anchor : w .anchor = true) (h_log : w .log = true) (h_history : w .history = true)
    (h : Keeps w k i s) : Keeps w k i (abstain x0 x1 s) := by
  unfold abstain
  repeat' first
    | with_reducible assumption
    | (extract_lets +onlyGivenNames y0
       first
       | (refine_lift have hy0 : Keeps w k i y0 := ?_; ?_
          clear_value y0
          revert y0
          intro _ _
          rotate_left
          unfold y0
          clear y0)
       | (try clear_value y0
          revert y0
          intro _))
    | with_reducible refine leaveAnchor_keeps h_anchor ?_
    | with_reducible refine logEvent_keeps h_counters h_flags h_log h_history ?_
    | with_reducible refine setAnchor_keeps h_anchor ?_
    | with_reducible refine setDrive_keeps h_anchor ?_
    | with_reducible refine setFlag_keeps h_counters h_flags h_log h_history ?_
    | with_reducible refine Keeps.ite ?_ ?_

theorem anchorFaultReportEffect_keeps {x0} (h_anchor : w .anchor = true)
    (h : Keeps w k i s) : Keeps w k i (anchorFaultReportEffect x0 s) := by
  unfold anchorFaultReportEffect
  repeat' first
    | with_reducible assumption
    | with_reducible refine modCap_keeps h_anchor ?_

theorem anchorHandoverApply_keeps {x0} (h_anchor : w .anchor = true)
    (h : Keeps w k i s) : KeepsDone w k i (anchorHandoverApply x0 s) := by
  unfold anchorHandoverApply
  repeat' first
    | with_reducible assumption
    | with_reducible refine modCap_keeps h_anchor ?_
    | with_reducible refine okDone_keeps ?_
    | split
    | with_reducible refine KeepsDone.mk ?_

theorem anchorOwnFaultEffect_keeps {x0} (h_anchor : w .anchor = true)
    (h : Keeps w k i s) : Keeps w k i (anchorOwnFaultEffect x0 s) := by
  unfold anchorOwnFaultEffect
  repeat' first
    | with_reducible assumption
    | with_reducible refine leaveAnchor_keeps h_anchor ?_

theorem chargeElect_keeps {x0} (h_anchor : w .anchor = true)
    (h : Keeps w k i s) : Keeps w k i (chargeElect x0 s) := by
  unfold chargeElect
  repeat' first
    | with_reducible assumption
    | (extract_lets +onlyGivenNames y0
       first
       | (refine_lift have hy0 : Keeps w k i y0 := ?_; ?_
          clear_value y0
          revert y0
          intro _ _
          rotate_left
          unfold y0
          clear y0)
       | (try clear_value y0
          revert y0
          intro _))
    | with_reducible refine modCap_keeps h_anchor ?_
    | with_reducible refine setAnchor_keeps h_anchor ?_
    | with_reducible refine setDrive_keeps h_anchor ?_
    | with_reducible refine Keeps.ite ?_ ?_

theorem claimLate_keeps {x0} (h_counters : w .counters = true) (h_flags : w .flags = true) (h_anchor : w .anchor = true) (h_log : w .log = true) (h_history : w .history = true)
    (h : Keeps w k i s) : Keeps w k i (claimLate x0 s) := by
  unfold claimLate
  repeat' first
    | with_reducible assumption
    | (extract_lets +onlyGivenNames y0
       first
       | (refine_lift have hy0 : Keeps w k i y0 := ?_; ?_
          clear_value y0
          revert y0
          intro _ _
          rotate_left
          unfold y0
          clear y0)
       | (try clear_value y0
          revert y0
          intro _))
    | with_reducible refine modCap_keeps h_anchor ?_
    | with_reducible refine setAnchor_keeps h_anchor ?_
    | with_reducible refine setDrive_keeps h_anchor ?_
    | with_reducible refine setFlag_keeps h_counters h_flags h_log h_history ?_
    | with_reducible refine Keeps.ite ?_ ?_

theorem senseLine_keeps {x0} (h_anchor : w .anchor = true)
    (h : Keeps w k i s) : Keeps w k i (senseLine x0 s) := by
  unfold senseLine
  repeat' first
    | with_reducible assumption
    | with_reducible refine Keeps.ite ?_ ?_
    | split
    | with_reducible refine Keeps.set_anchor h_anchor ?_

theorem claimLineFreeEffect_keeps {x0 x1} (h_anchor : w .anchor = true)
    (h : Keeps w k i s) : Keeps w k i (claimLineFreeEffect x0 x1 s) := by
  unfold claimLineFreeEffect
  repeat' first
    | with_reducible assumption
    | (extract_lets +onlyGivenNames y0
       first
       | (refine_lift have hy0 : Keeps w k i y0 := ?_; ?_
          clear_value y0
          revert y0
          intro _ _
          rotate_left
          unfold y0
          clear y0)
       | (try clear_value y0
          revert y0
          intro _))
    | with_reducible refine modCap_keeps h_anchor ?_
    | with_reducible refine senseLine_keeps h_anchor ?_
    | with_reducible refine setAnchor_keeps h_anchor ?_
    | with_reducible refine setDrive_keeps h_anchor ?_
    | with_reducible refine Keeps.ite ?_ ?_
    | split

theorem takeBox_keeps {x0} (h_env : w .env = true) (h_anchor : w .anchor = true) (h_mail : w .mail = true) (h_log : w .log = true)
    (h : Keeps w k i s) : Keeps w k i (takeBox x0 s) := by
  unfold takeBox
  repeat' first
    | with_reducible assumption
    | (extract_lets +onlyGivenNames y0
       first
       | (refine_lift have hy0 : Keeps w k i y0 := ?_; ?_
          clear_value y0
          revert y0
          intro _ _
          rotate_left
          unfold y0
          clear y0)
       | (try clear_value y0
          revert y0
          intro _))
    | with_reducible refine modBox_keeps h_mail ?_
    | with_reducible refine respond_keeps h_env h_anchor h_mail h_log ?_
    | with_reducible refine Keeps.ite ?_ ?_
    | split

theorem undoLong_keeps {x : LongKind} (h_counters : w .counters = true) (h_flags : w .flags = true) (h_log : w .log = true) (h_hbm : w .hbm = true) (h_image : w .image = true) (h_history : w .history = true) (h : Keeps w k i s) : Keeps w k i (undoLong x s) := by
  unfold undoLong
  split
  · exact Keeps.set_hbm h_hbm (fun _ hc => hc.mod (fun _ hx => hx)) h
  · exact rollBack_keeps h_counters h_flags h_log h_image h_history h
  · exact h

theorem takeBoxes_keeps {x0} (h_env : w .env = true) (h_counters : w .counters = true) (h_flags : w .flags = true) (h_anchor : w .anchor = true) (h_mail : w .mail = true) (h_log : w .log = true) (h_hbm : w .hbm = true) (h_image : w .image = true) (h_history : w .history = true)
    (h : Keeps w k i s) : Keeps w k i (takeBoxes x0 s) := by
  unfold takeBoxes
  repeat' first
    | with_reducible assumption
    | (extract_lets +onlyGivenNames y0
       first
       | (refine_lift have hy0 : Keeps w k i y0 := ?_; ?_
          clear_value y0
          revert y0
          intro _ _
          rotate_left
          unfold y0
          clear y0)
       | (try clear_value y0
          revert y0
          intro _))
    | with_reducible refine takeBox_keeps h_env h_anchor h_mail h_log ?_
    | with_reducible refine undoLong_keeps h_counters h_flags h_log h_hbm h_image h_history ?_
    | with_reducible refine foldS_keeps (fun _ _ _ => ?_) ?_
    | with_reducible refine Keeps.set_mail h_mail ?_

theorem enterAnchor_keeps {x0} (h_env : w .env = true) (h_counters : w .counters = true) (h_flags : w .flags = true) (h_bridge : w .bridge = true) (h_anchor : w .anchor = true) (h_mirror : w .mirror = true) (h_mail : w .mail = true) (h_log : w .log = true) (h_rings : w .rings = true) (h_lanes : w .lanes = true) (h_groups : w .groups = true) (h_filter : w .filter = true) (h_ports : w .ports = true) (h_ingress : w .ingress = true) (h_cls : w .cls = true) (h_bufs : w .bufs = true) (h_accounts : w .accounts = true) (h_policers : w .policers = true) (h_slots : w .slots = true) (h_keks : w .keks = true) (h_cipher : w .cipher = true) (h_time : w .time = true) (h_hbm : w .hbm = true) (h_serdes : w .serdes = true) (h_fabric : w .fabric = true) (h_image : w .image = true) (h_sensors : w .sensors = true) (h_boot : w .boot = true) (h_history : w .history = true) (h_power : w .power = true)
    (h : Keeps w k i s) : Keeps w k i (enterAnchor x0 s) := by
  unfold enterAnchor
  repeat' first
    | with_reducible assumption
    | (extract_lets +onlyGivenNames y0
       first
       | (refine_lift have hy0 : Keeps w k i y0 := ?_; ?_
          clear_value y0
          revert y0
          intro _ _
          rotate_left
          unfold y0
          clear y0)
       | (have hy1 : FwAll := y0
          clear hy1
          revert y0
          intro _)
       | (try clear_value y0
          revert y0
          intro _))
    | with_reducible refine count1_keeps h_counters ?_
    | with_reducible refine loadMirror_keeps h_counters h_flags h_bridge h_anchor h_mirror h_log h_rings h_lanes h_groups h_filter h_ports h_ingress h_cls h_bufs h_accounts h_policers h_slots h_keks h_cipher h_time h_hbm h_serdes h_fabric h_sensors h_history h_power ?_
    | with_reducible refine logEvent_keeps h_counters h_flags h_log h_history ?_
    | with_reducible refine modCap_keeps h_anchor ?_
    | with_reducible refine setAnchor_keeps h_anchor ?_
    | with_reducible refine setFlag_keeps h_counters h_flags h_log h_history ?_
    | with_reducible refine takeBoxes_keeps h_env h_counters h_flags h_anchor h_mail h_log h_hbm h_image h_history ?_
    | with_reducible refine Keeps.ite ?_ ?_
    | split
    | with_reducible refine Keeps.set_anchor h_anchor ?_
    | with_reducible refine Keeps.set_fw (.inr ⟨rfl, rfl, rfl, rfl, rfl, rfl, rfl, rfl⟩) (.inr ⟨rfl, rfl, rfl, rfl, rfl⟩) (.inr ⟨rfl, rfl⟩) (.inl h_boot) (.inr rfl) rfl ?_

theorem claimProbeEffect_keeps {x0 x1 x2} (h_env : w .env = true) (h_counters : w .counters = true) (h_flags : w .flags = true) (h_bridge : w .bridge = true) (h_anchor : w .anchor = true) (h_mirror : w .mirror = true) (h_mail : w .mail = true) (h_log : w .log = true) (h_rings : w .rings = true) (h_lanes : w .lanes = true) (h_groups : w .groups = true) (h_filter : w .filter = true) (h_ports : w .ports = true) (h_ingress : w .ingress = true) (h_cls : w .cls = true) (h_bufs : w .bufs = true) (h_accounts : w .accounts = true) (h_policers : w .policers = true) (h_slots : w .slots = true) (h_keks : w .keks = true) (h_cipher : w .cipher = true) (h_time : w .time = true) (h_hbm : w .hbm = true) (h_serdes : w .serdes = true) (h_fabric : w .fabric = true) (h_image : w .image = true) (h_sensors : w .sensors = true) (h_boot : w .boot = true) (h_history : w .history = true) (h_power : w .power = true)
    (h : Keeps w k i s) : Keeps w k i (claimProbeEffect x0 x1 x2 s) := by
  unfold claimProbeEffect
  repeat' first
    | with_reducible assumption
    | (extract_lets +onlyGivenNames y0
       first
       | (refine_lift have hy0 : Keeps w k i y0 := ?_; ?_
          clear_value y0
          revert y0
          intro _ _
          rotate_left
          unfold y0
          clear y0)
       | (try clear_value y0
          revert y0
          intro _))
    | with_reducible refine abstain_keeps h_counters h_flags h_anchor h_log h_history ?_
    | with_reducible refine enterAnchor_keeps h_env h_counters h_flags h_bridge h_anchor h_mirror h_mail h_log h_rings h_lanes h_groups h_filter h_ports h_ingress h_cls h_bufs h_accounts h_policers h_slots h_keks h_cipher h_time h_hbm h_serdes h_fabric h_image h_sensors h_boot h_history h_power ?_
    | with_reducible refine setFlag_keeps h_counters h_flags h_log h_history ?_
    | with_reducible refine Keeps.ite ?_ ?_
    | split
    | with_reducible refine Keeps.set_anchor h_anchor ?_

theorem settleElection_keeps {x0} (h_env : w .env = true) (h_counters : w .counters = true) (h_flags : w .flags = true) (h_bridge : w .bridge = true) (h_anchor : w .anchor = true) (h_mirror : w .mirror = true) (h_mail : w .mail = true) (h_log : w .log = true) (h_rings : w .rings = true) (h_lanes : w .lanes = true) (h_groups : w .groups = true) (h_filter : w .filter = true) (h_ports : w .ports = true) (h_ingress : w .ingress = true) (h_cls : w .cls = true) (h_bufs : w .bufs = true) (h_accounts : w .accounts = true) (h_policers : w .policers = true) (h_slots : w .slots = true) (h_keks : w .keks = true) (h_cipher : w .cipher = true) (h_time : w .time = true) (h_hbm : w .hbm = true) (h_serdes : w .serdes = true) (h_fabric : w .fabric = true) (h_image : w .image = true) (h_sensors : w .sensors = true) (h_boot : w .boot = true) (h_history : w .history = true) (h_power : w .power = true)
    (h : Keeps w k i s) : Keeps w k i (settleElection x0 s) := by
  unfold settleElection
  repeat' first
    | with_reducible assumption
    | with_reducible refine abstain_keeps h_counters h_flags h_anchor h_log h_history ?_
    | with_reducible refine claimLate_keeps h_counters h_flags h_anchor h_log h_history ?_
    | with_reducible refine enterAnchor_keeps h_env h_counters h_flags h_bridge h_anchor h_mirror h_mail h_log h_rings h_lanes h_groups h_filter h_ports h_ingress h_cls h_bufs h_accounts h_policers h_slots h_keks h_cipher h_time h_hbm h_serdes h_fabric h_image h_sensors h_boot h_history h_power ?_
    | with_reducible refine modCap_keeps h_anchor ?_
    | with_reducible refine setAnchor_keeps h_anchor ?_
    | with_reducible refine setFlag_keeps h_counters h_flags h_log h_history ?_
    | with_reducible refine Keeps.ite ?_ ?_
    | split

theorem electionTimeoutEffect_keeps {x0 x1} (h_env : w .env = true) (h_counters : w .counters = true) (h_flags : w .flags = true) (h_bridge : w .bridge = true) (h_anchor : w .anchor = true) (h_mirror : w .mirror = true) (h_mail : w .mail = true) (h_log : w .log = true) (h_rings : w .rings = true) (h_lanes : w .lanes = true) (h_groups : w .groups = true) (h_filter : w .filter = true) (h_ports : w .ports = true) (h_ingress : w .ingress = true) (h_cls : w .cls = true) (h_bufs : w .bufs = true) (h_accounts : w .accounts = true) (h_policers : w .policers = true) (h_slots : w .slots = true) (h_keks : w .keks = true) (h_cipher : w .cipher = true) (h_time : w .time = true) (h_hbm : w .hbm = true) (h_serdes : w .serdes = true) (h_fabric : w .fabric = true) (h_image : w .image = true) (h_sensors : w .sensors = true) (h_boot : w .boot = true) (h_history : w .history = true) (h_power : w .power = true)
    (h : Keeps w k i s) : Keeps w k i (electionTimeoutEffect x0 x1 s) := by
  unfold electionTimeoutEffect
  repeat' first
    | with_reducible assumption
    | with_reducible refine senseLine_keeps h_anchor ?_
    | with_reducible refine settleElection_keeps h_env h_counters h_flags h_bridge h_anchor h_mirror h_mail h_log h_rings h_lanes h_groups h_filter h_ports h_ingress h_cls h_bufs h_accounts h_policers h_slots h_keks h_cipher h_time h_hbm h_serdes h_fabric h_image h_sensors h_boot h_history h_power ?_

theorem handoverBoxes_keeps (h_mail : w .mail = true)
    (h : Keeps w k i s) : Keeps w k i (handoverBoxes s) := by
  unfold handoverBoxes
  repeat' first
    | with_reducible assumption
    | with_reducible refine Keeps.ite ?_ ?_
    | split
    | with_reducible refine Keeps.set_mail h_mail ?_

theorem handoverLineReleaseEffect_keeps {x0} (h_anchor : w .anchor = true) (h_mail : w .mail = true)
    (h : Keeps w k i s) : Keeps w k i (handoverLineReleaseEffect x0 s) := by
  unfold handoverLineReleaseEffect
  repeat' first
    | with_reducible assumption
    | (extract_lets +onlyGivenNames y0
       first
       | (refine_lift have hy0 : Keeps w k i y0 := ?_; ?_
          clear_value y0
          revert y0
          intro _ _
          rotate_left
          unfold y0
          clear y0)
       | (try clear_value y0
          revert y0
          intro _))
    | with_reducible refine handoverBoxes_keeps h_mail ?_
    | with_reducible refine leaveAnchor_keeps h_anchor ?_
    | with_reducible refine modCap_keeps h_anchor ?_
    | with_reducible refine setAnchor_keeps h_anchor ?_
    | with_reducible refine Keeps.ite ?_ ?_
    | split

theorem leaseExpiryEffect_keeps (h_anchor : w .anchor = true)
    (h : Keeps w k i s) : Keeps w k i (leaseExpiryEffect s) := by
  unfold leaseExpiryEffect
  repeat' first
    | with_reducible assumption
    | with_reducible refine Keeps.set_anchor h_anchor ?_

theorem leaseSendEffect_keeps (h_anchor : w .anchor = true)
    (h : Keeps w k i s) : Keeps w k i (leaseSendEffect s) := by
  unfold leaseSendEffect
  repeat' first
    | with_reducible assumption
    | with_reducible refine Keeps.set_anchor h_anchor ?_

theorem markDiverged_keeps (h_counters : w .counters = true) (h_flags : w .flags = true) (h_anchor : w .anchor = true) (h_log : w .log = true) (h_history : w .history = true)
    (h : Keeps w k i s) : Keeps w k i (markDiverged s) := by
  unfold markDiverged
  repeat' first
    | with_reducible assumption
    | (extract_lets +onlyGivenNames y0
       first
       | (refine_lift have hy0 : Keeps w k i y0 := ?_; ?_
          clear_value y0
          revert y0
          intro _ _
          rotate_left
          unfold y0
          clear y0)
       | (try clear_value y0
          revert y0
          intro _))
    | with_reducible refine logEvent_keeps h_counters h_flags h_log h_history ?_
    | with_reducible refine modCap_keeps h_anchor ?_
    | with_reducible refine setFlag_keeps h_counters h_flags h_log h_history ?_
    | with_reducible refine foldS_keeps (fun _ _ _ => ?_) ?_
    | split

theorem mirrorFence_keeps {x0} (h_anchor : w .anchor = true) (h_mail : w .mail = true)
    (h : Keeps w k i s) : Keeps w k i (mirrorFence x0 s) := by
  unfold mirrorFence
  repeat' first
    | with_reducible assumption
    | with_reducible refine mirrorCopy_keeps h_anchor h_mail ?_
    | split

theorem mirrorResyncCompleteEffect_keeps (h_anchor : w .anchor = true) (h_mirror : w .mirror = true) (h_mail : w .mail = true)
    (h : Keeps w k i s) : Keeps w k i (mirrorResyncCompleteEffect s) := by
  unfold mirrorResyncCompleteEffect
  repeat' first
    | with_reducible assumption
    | (extract_lets +onlyGivenNames y0
       first
       | (refine_lift have hy0 : Keeps w k i y0 := ?_; ?_
          clear_value y0
          revert y0
          intro _ _
          rotate_left
          unfold y0
          clear y0)
       | (try clear_value y0
          revert y0
          intro _))
    | with_reducible refine mirrorFence_keeps h_anchor h_mail ?_
    | with_reducible refine modCap_keeps h_anchor ?_
    | with_reducible refine foldS_keeps (fun _ _ _ => ?_) ?_
    | split
    | with_reducible refine Keeps.set_anchor h_anchor ?_
    | with_reducible refine Keeps.set_mirror h_mirror ?_
    | with_reducible refine Keeps.set_mail h_mail ?_

theorem pcieDown_keeps (h_env : w .env = true) (h_anchor : w .anchor = true) (h_mail : w .mail = true) (h_log : w .log = true) (h_rings : w .rings = true)
    (h : Keeps w k i s) : Keeps w k i (pcieDown s) := by
  unfold pcieDown
  repeat' first
    | with_reducible assumption
    | (extract_lets +onlyGivenNames y0
       first
       | (refine_lift have hy0 : Keeps w k i y0 := ?_; ?_
          clear_value y0
          revert y0
          intro _ _
          rotate_left
          unfold y0
          clear y0)
       | (have hy1 : EventAll := y0
          clear hy1
          revert y0
          intro _)
       | (try clear_value y0
          revert y0
          intro _))
    | with_reducible refine respond_keeps h_env h_anchor h_mail h_log ?_
    | with_reducible refine foldS_keeps (fun _ _ _ => ?_) ?_
    | exact fun _ hc => hc
    | with_reducible refine Keeps.set_anchor h_anchor ?_
    | with_reducible refine Keeps.set_mail h_mail ?_
    | with_reducible refine Keeps.set_ev (.inl h_log) (.inl h_rings) ?_ ?_

theorem pcieLinkTrainedEffect_keeps (h_anchor : w .anchor = true)
    (h : Keeps w k i s) : Keeps w k i (pcieLinkTrainedEffect s) := by
  unfold pcieLinkTrainedEffect
  repeat' first
    | with_reducible assumption
    | with_reducible refine Keeps.set_anchor h_anchor ?_

theorem settleAbstain_keeps (h_env : w .env = true) (h_counters : w .counters = true) (h_flags : w .flags = true) (h_bridge : w .bridge = true) (h_anchor : w .anchor = true) (h_mirror : w .mirror = true) (h_mail : w .mail = true) (h_log : w .log = true) (h_rings : w .rings = true) (h_lanes : w .lanes = true) (h_groups : w .groups = true) (h_filter : w .filter = true) (h_ports : w .ports = true) (h_ingress : w .ingress = true) (h_cls : w .cls = true) (h_bufs : w .bufs = true) (h_accounts : w .accounts = true) (h_policers : w .policers = true) (h_slots : w .slots = true) (h_keks : w .keks = true) (h_cipher : w .cipher = true) (h_time : w .time = true) (h_hbm : w .hbm = true) (h_serdes : w .serdes = true) (h_fabric : w .fabric = true) (h_image : w .image = true) (h_sensors : w .sensors = true) (h_boot : w .boot = true) (h_history : w .history = true) (h_power : w .power = true)
    (h : Keeps w k i s) : Keeps w k i (settleAbstain s) := by
  unfold settleAbstain
  repeat' first
    | with_reducible assumption
    | (extract_lets +onlyGivenNames y0
       first
       | (refine_lift have hy0 : Keeps w k i y0 := ?_; ?_
          clear_value y0
          revert y0
          intro _ _
          rotate_left
          unfold y0
          clear y0)
       | (try clear_value y0
          revert y0
          intro _))
    | with_reducible refine enterAnchor_keeps h_env h_counters h_flags h_bridge h_anchor h_mirror h_mail h_log h_rings h_lanes h_groups h_filter h_ports h_ingress h_cls h_bufs h_accounts h_policers h_slots h_keks h_cipher h_time h_hbm h_serdes h_fabric h_image h_sensors h_boot h_history h_power ?_
    | with_reducible refine modCap_keeps h_anchor ?_
    | with_reducible refine setAnchor_keeps h_anchor ?_
    | with_reducible refine setDrive_keeps h_anchor ?_
    | with_reducible refine setFlag_keeps h_counters h_flags h_log h_history ?_
    | with_reducible refine Keeps.ite ?_ ?_

theorem peerPathReturnEffect_keeps (h_env : w .env = true) (h_counters : w .counters = true) (h_flags : w .flags = true) (h_bridge : w .bridge = true) (h_anchor : w .anchor = true) (h_mirror : w .mirror = true) (h_mail : w .mail = true) (h_log : w .log = true) (h_rings : w .rings = true) (h_lanes : w .lanes = true) (h_groups : w .groups = true) (h_filter : w .filter = true) (h_ports : w .ports = true) (h_ingress : w .ingress = true) (h_cls : w .cls = true) (h_bufs : w .bufs = true) (h_accounts : w .accounts = true) (h_policers : w .policers = true) (h_slots : w .slots = true) (h_keks : w .keks = true) (h_cipher : w .cipher = true) (h_time : w .time = true) (h_hbm : w .hbm = true) (h_serdes : w .serdes = true) (h_fabric : w .fabric = true) (h_image : w .image = true) (h_sensors : w .sensors = true) (h_boot : w .boot = true) (h_history : w .history = true) (h_power : w .power = true)
    (h : Keeps w k i s) : Keeps w k i (peerPathReturnEffect s) := by
  unfold peerPathReturnEffect
  repeat' first
    | with_reducible assumption
    | with_reducible refine markDiverged_keeps h_counters h_flags h_anchor h_log h_history ?_
    | with_reducible refine settleAbstain_keeps h_env h_counters h_flags h_bridge h_anchor h_mirror h_mail h_log h_rings h_lanes h_groups h_filter h_ports h_ingress h_cls h_bufs h_accounts h_policers h_slots h_keks h_cipher h_time h_hbm h_serdes h_fabric h_image h_sensors h_boot h_history h_power ?_

theorem smbusReply_keeps {x0} (h_env : w .env = true)
    (h : Keeps w k i s) : Keeps w k i (smbusReply x0 s) := by
  unfold smbusReply
  repeat' first
    | with_reducible assumption
    | with_reducible refine Keeps.set_env h_env ?_

theorem takeChargeEffect_keeps {x0} (h_anchor : w .anchor = true)
    (h : Keeps w k i s) : Keeps w k i (takeChargeEffect x0 s) := by
  unfold takeChargeEffect
  repeat' first
    | with_reducible assumption
    | with_reducible refine chargeElect_keeps h_anchor ?_
    | with_reducible refine Keeps.ite ?_ ?_
    | split
    | with_reducible refine Keeps.set_anchor h_anchor ?_

theorem abortTransfers_keeps {n : SliceId} (h_bridge : w .bridge = true) (h_accounts : w .accounts = true) (h_hbm : w .hbm = true)
    (h : Keeps w k i s) : Keeps w k i (abortTransfers n s) :=
  { ident := h.ident
    same := fun c hc => by
      cases c
      case bridge => exact absurd hc (by simp [h_bridge])
      case accounts => exact absurd hc (by simp [h_accounts])
      case hbm => exact absurd hc (by simp [h_hbm])
      all_goals exact h.same _ hc
    hbm := fun hk c => by
      have hx := h.hbm hk c
      simp only [Fin.getElem_fin] at hx
      show sparseWf 0 ((s.hbm.chans.map (withoutReqs n))[c]).mem = true
      simp only [Fin.getElem_fin, Vector.getElem_map]
      exact hx
    regs := h.regs
    log := h.log }

theorem clearRegs_keeps {p : Nat → Bool} (h_counters : w .counters = true) (h_flags : w .flags = true) (h_latches : w .latches = true) (h : Keeps w k i s) : Keeps w k i (clearRegs p s) := by
  refine Keeps.set_regs (.inl h_counters) (.inl h_flags) (.inl h_latches) (fun _ hc => ?_) h
  refine ⟨sparseWf_filter hc.1, sparseWf_filter hc.2.1, sparseWf_filter hc.2.2.1, fun b => ?_, fun b => ?_,
    sparseWf_filter hc.2.2.2.2.2⟩
  · exact sparseGet_filter_bound (P := fun v => v < 2 ^ 64) (by decide)
      (fun e he => sparse_all (P := fun v => v < 2 ^ 64) hc.1 hc.2.2.2.1 e he) b
  · exact sparseGet_filter_bound (P := fun v => v ≤ 255) (by decide)
      (fun e he => sparse_all (P := fun v => v ≤ 255) hc.2.2.1 hc.2.2.2.2.1 e he) b

theorem dropExtract_keeps {x0} (h_lanes : w .lanes = true)
    (h : Keeps w k i s) : Keeps w k i (dropExtract x0 s) := by
  unfold dropExtract
  repeat' first
    | with_reducible assumption
    | with_reducible refine Keeps.set_trunk (.inl h_lanes) (.inr rfl) (.inr rfl) ?_

theorem keepPath_keeps {keep : Packet → Bool} (h_bridge : w .bridge = true) (h_rings : w .rings = true) (h_ports : w .ports = true) (h_ingress : w .ingress = true) (h_cls : w .cls = true) (h_accounts : w .accounts = true) (h_fabric : w .fabric = true)
    (h : Keeps w k i s) : Keeps w k i (keepPath keep s) :=
  { ident := h.ident
    same := fun c hc => by
      cases c
      case bridge => exact absurd hc (by simp [h_bridge])
      case rings => exact absurd hc (by simp [h_rings])
      case ports => exact absurd hc (by simp [h_ports])
      case ingress => exact absurd hc (by simp [h_ingress])
      case cls => exact absurd hc (by simp [h_cls])
      case accounts => exact absurd hc (by simp [h_accounts])
      case fabric => exact absurd hc (by simp [h_fabric])
      all_goals exact h.same _ hc
    hbm := h.hbm
    regs := h.regs
    log := h.log }

theorem loseLaneBursts_keeps {x0} (h_counters : w .counters = true) (h_flags : w .flags = true) (h_log : w .log = true) (h_lanes : w .lanes = true) (h_groups : w .groups = true) (h_ports : w .ports = true) (h_bufs : w .bufs = true) (h_accounts : w .accounts = true) (h_slots : w .slots = true) (h_history : w .history = true)
    (h : Keeps w k i s) : Keeps w k i (loseLaneBursts x0 s) := by
  unfold loseLaneBursts
  repeat' first
    | with_reducible assumption
    | with_reducible refine fogLaneBursts_keeps h_counters h_flags h_log h_lanes h_groups h_ports h_bufs h_accounts h_slots h_history ?_
    | with_reducible refine loseDevelopedWhere_keeps h_counters h_flags h_log h_groups h_ports h_bufs h_accounts h_slots h_history ?_
    | split

theorem clearSlice_keeps {x0} (h_counters : w .counters = true) (h_flags : w .flags = true) (h_latches : w .latches = true) (h_bridge : w .bridge = true) (h_log : w .log = true) (h_rings : w .rings = true) (h_lanes : w .lanes = true) (h_groups : w .groups = true) (h_ports : w .ports = true) (h_ingress : w .ingress = true) (h_cls : w .cls = true) (h_bufs : w .bufs = true) (h_accounts : w .accounts = true) (h_slots : w .slots = true) (h_cipher : w .cipher = true) (h_fabric : w .fabric = true) (h_history : w .history = true)
    (h : Keeps w k i s) : Keeps w k i (clearSlice x0 s) := by
  unfold clearSlice
  repeat' first
    | with_reducible assumption
    | (extract_lets +onlyGivenNames y0
       first
       | (refine_lift have hy0 : Keeps w k i y0 := ?_; ?_
          clear_value y0
          revert y0
          intro _ _
          rotate_left
          unfold y0
          clear y0)
       | (have hy1 : CryptoAll := y0
          clear hy1
          revert y0
          intro _)
       | (try clear_value y0
          revert y0
          intro _))
    | with_reducible refine clearRegs_keeps h_counters h_flags h_latches ?_
    | with_reducible refine dropExtract_keeps h_lanes ?_
    | with_reducible refine dropOwed_keeps h_rings ?_
    | with_reducible refine dropTicket_keeps h_counters h_flags h_bridge h_log h_rings h_lanes h_ports h_ingress h_bufs h_fabric h_history ?_
    | with_reducible refine keepPath_keeps h_bridge h_rings h_ports h_ingress h_cls h_accounts h_fabric ?_
    | with_reducible refine loseLaneBursts_keeps h_counters h_flags h_log h_lanes h_groups h_ports h_bufs h_accounts h_slots h_history ?_
    | with_reducible refine modBuf_keeps h_bufs ?_
    | with_reducible refine modLane_keeps h_lanes ?_
    | with_reducible refine foldS_keeps (fun _ _ _ => ?_) ?_
    | with_reducible refine Keeps.ite ?_ ?_
    | split
    | with_reducible refine Keeps.set_crypto (.inr rfl) (.inr rfl) (.inl h_cipher) ?_

theorem modPw_keeps {x1 x2} (h_power : w .power = true)
    (h : Keeps w k i s) : Keeps w k i (modPw s x1 x2) := by
  unfold modPw
  repeat' first
    | with_reducible assumption
    | with_reducible refine Keeps.set_power h_power ?_

theorem avsAckEffect_keeps {x0} (h_power : w .power = true)
    (h : Keeps w k i s) : Keeps w k i (avsAckEffect x0 s) := by
  unfold avsAckEffect
  repeat' first
    | with_reducible assumption
    | with_reducible refine modPw_keeps h_power ?_

theorem avsPollEffect_keeps {x0 x1} (h_power : w .power = true)
    (h : Keeps w k i s) : Keeps w k i (avsPollEffect x0 x1 s) := by
  unfold avsPollEffect
  repeat' first
    | with_reducible assumption
    | with_reducible refine modPw_keeps h_power ?_

theorem avsTimeoutEffect_keeps {x0} (h_counters : w .counters = true) (h_flags : w .flags = true) (h_log : w .log = true) (h_history : w .history = true) (h_power : w .power = true)
    (h : Keeps w k i s) : Keeps w k i (avsTimeoutEffect x0 s) := by
  unfold avsTimeoutEffect
  repeat' first
    | with_reducible assumption
    | (extract_lets +onlyGivenNames y0
       first
       | (refine_lift have hy0 : Keeps w k i y0 := ?_; ?_
          clear_value y0
          revert y0
          intro _ _
          rotate_left
          unfold y0
          clear y0)
       | (try clear_value y0
          revert y0
          intro _))
    | with_reducible refine count1_keeps h_counters ?_
    | with_reducible refine logEvent_keeps h_counters h_flags h_log h_history ?_
    | with_reducible refine modPw_keeps h_power ?_
    | with_reducible refine setFlag_keeps h_counters h_flags h_log h_history ?_

theorem modMeter_keeps {x1 x2 x3} (h_power : w .power = true)
    (h : Keeps w k i s) : Keeps w k i (modMeter s x1 x2 x3) := by
  unfold modMeter
  repeat' first
    | with_reducible assumption
    | with_reducible refine modPw_keeps h_power ?_

theorem endSuspect_keeps {x0 x1} (h_power : w .power = true)
    (h : Keeps w k i s) : Keeps w k i (endSuspect x0 x1 s) := by
  unfold endSuspect
  repeat' first
    | with_reducible assumption
    | with_reducible refine modMeter_keeps h_power ?_

theorem clockRecoverEffect_keeps {x0 x1} (h_power : w .power = true)
    (h : Keeps w k i s) : Keeps w k i (clockRecoverEffect x0 x1 s) := by
  unfold clockRecoverEffect
  repeat' first
    | with_reducible assumption
    | with_reducible refine endSuspect_keeps h_power ?_
    | with_reducible refine modMeter_keeps h_power ?_
    | with_reducible refine Keeps.ite ?_ ?_

theorem clockStableEffect_keeps {x0 x1} (h_power : w .power = true)
    (h : Keeps w k i s) : Keeps w k i (clockStableEffect x0 x1 s) := by
  unfold clockStableEffect
  repeat' first
    | with_reducible assumption
    | with_reducible refine modMeter_keeps h_power ?_

theorem modDomain_keeps {x1 x2 x3} (h_power : w .power = true)
    (h : Keeps w k i s) : Keeps w k i (modDomain s x1 x2 x3) := by
  unfold modDomain
  repeat' first
    | with_reducible assumption
    | with_reducible refine modPw_keeps h_power ?_

theorem noteStop_keeps {x0 x1 x2} (h_counters : w .counters = true) (h_flags : w .flags = true) (h_log : w .log = true) (h_history : w .history = true)
    (h : Keeps w k i s) : Keeps w k i (noteStop x0 x1 x2 s) := by
  unfold noteStop
  repeat' first
    | with_reducible assumption
    | with_reducible refine count1_keeps h_counters ?_
    | with_reducible refine logEvent_keeps h_counters h_flags h_log h_history ?_
    | with_reducible refine setFlag_keeps h_counters h_flags h_log h_history ?_

theorem noteSwitch_keeps {x0 x1 x2 x3} (h_counters : w .counters = true) (h_flags : w .flags = true) (h_log : w .log = true) (h_history : w .history = true)
    (h : Keeps w k i s) : Keeps w k i (noteSwitch x0 x1 x2 x3 s) := by
  unfold noteSwitch
  repeat' first
    | with_reducible assumption
    | with_reducible refine count1_keeps h_counters ?_
    | with_reducible refine logEvent_keeps h_counters h_flags h_log h_history ?_
    | with_reducible refine setFlag_keeps h_counters h_flags h_log h_history ?_

theorem restartLanes_keeps {x0 x1} (h_counters : w .counters = true) (h_flags : w .flags = true) (h_bridge : w .bridge = true) (h_log : w .log = true) (h_rings : w .rings = true) (h_lanes : w .lanes = true) (h_groups : w .groups = true) (h_ports : w .ports = true) (h_ingress : w .ingress = true) (h_bufs : w .bufs = true) (h_accounts : w .accounts = true) (h_cipher : w .cipher = true) (h_serdes : w .serdes = true) (h_fabric : w .fabric = true) (h_history : w .history = true)
    (h : Keeps w k i s) : Keeps w k i (restartLanes x0 x1 s) := by
  unfold restartLanes
  repeat' first
    | with_reducible assumption
    | with_reducible refine laneStart_keeps h_counters h_flags h_bridge h_log h_rings h_lanes h_groups h_ports h_ingress h_bufs h_accounts h_cipher h_serdes h_fabric h_history ?_
    | with_reducible refine foldS_keeps (fun _ _ _ => ?_) ?_
    | with_reducible refine Keeps.ite ?_ ?_
    | split

theorem failDomain_keeps {x0 x1 x2} (h_counters : w .counters = true) (h_flags : w .flags = true) (h_bridge : w .bridge = true) (h_log : w .log = true) (h_rings : w .rings = true) (h_lanes : w .lanes = true) (h_groups : w .groups = true) (h_ports : w .ports = true) (h_ingress : w .ingress = true) (h_bufs : w .bufs = true) (h_accounts : w .accounts = true) (h_cipher : w .cipher = true) (h_serdes : w .serdes = true) (h_fabric : w .fabric = true) (h_history : w .history = true) (h_power : w .power = true)
    (h : Keeps w k i s) : Keeps w k i (failDomain x0 x1 x2 s) := by
  unfold failDomain
  repeat' first
    | with_reducible assumption
    | (extract_lets +onlyGivenNames y0
       first
       | (try clear_value y0
          revert y0
          intro _))
    | with_reducible refine modDomain_keeps h_power ?_
    | with_reducible refine noteStop_keeps h_counters h_flags h_log h_history ?_
    | with_reducible refine noteSwitch_keeps h_counters h_flags h_log h_history ?_
    | with_reducible refine restartLanes_keeps h_counters h_flags h_bridge h_log h_rings h_lanes h_groups h_ports h_ingress h_bufs h_accounts h_cipher h_serdes h_fabric h_history ?_
    | with_reducible refine Keeps.ite ?_ ?_

theorem failOther_keeps {x0 x1} (h_env : w .env = true) (h_counters : w .counters = true) (h_flags : w .flags = true) (h_anchor : w .anchor = true) (h_mail : w .mail = true) (h_log : w .log = true) (h_rings : w .rings = true) (h_time : w .time = true) (h_history : w .history = true)
    (h : Keeps w k i s) : Keeps w k i (failOther x0 x1 s) := by
  unfold failOther
  repeat' first
    | with_reducible assumption
    | (extract_lets +onlyGivenNames y0
       first
       | (refine_lift have hy0 : Keeps w k i y0 := ?_; ?_
          clear_value y0
          revert y0
          intro _ _
          rotate_left
          unfold y0
          clear y0)
       | (try clear_value y0
          revert y0
          intro _))
    | with_reducible refine noteStop_keeps h_counters h_flags h_log h_history ?_
    | with_reducible refine noteSwitch_keeps h_counters h_flags h_log h_history ?_
    | with_reducible refine pcieDown_keeps h_env h_anchor h_mail h_log h_rings ?_
    | with_reducible refine Keeps.ite ?_ ?_
    | split
    | with_reducible refine Keeps.set_time h_time ?_

theorem failSource_keeps {x0 x1 x2} (h_env : w .env = true) (h_counters : w .counters = true) (h_flags : w .flags = true) (h_bridge : w .bridge = true) (h_anchor : w .anchor = true) (h_mirror : w .mirror = true) (h_mail : w .mail = true) (h_log : w .log = true) (h_rings : w .rings = true) (h_lanes : w .lanes = true) (h_groups : w .groups = true) (h_ports : w .ports = true) (h_ingress : w .ingress = true) (h_bufs : w .bufs = true) (h_accounts : w .accounts = true) (h_cipher : w .cipher = true) (h_time : w .time = true) (h_serdes : w .serdes = true) (h_fabric : w .fabric = true) (h_history : w .history = true) (h_power : w .power = true)
    (h : Keeps w k i s) : Keeps w k i (failSource x0 x1 x2 s) := by
  unfold failSource
  repeat' first
    | with_reducible assumption
    | (extract_lets +onlyGivenNames y0
       first
       | (refine_lift have hy0 : Keeps w k i y0 := ?_; ?_
          clear_value y0
          revert y0
          intro _ _
          rotate_left
          unfold y0
          clear y0)
       | (try clear_value y0
          revert y0
          intro _))
    | with_reducible refine failDomain_keeps h_counters h_flags h_bridge h_log h_rings h_lanes h_groups h_ports h_ingress h_bufs h_accounts h_cipher h_serdes h_fabric h_history h_power ?_
    | with_reducible refine failOther_keeps h_env h_counters h_flags h_anchor h_mail h_log h_rings h_time h_history ?_
    | with_reducible refine linkChange_keeps h_counters h_flags h_bridge h_mirror h_log h_rings h_ports h_bufs h_history (fun _ _ => ?_) ?_
    | with_reducible refine logEvent_keeps h_counters h_flags h_log h_history ?_
    | with_reducible refine modMeter_keeps h_power ?_
    | with_reducible refine setFlag_keeps h_counters h_flags h_log h_history ?_
    | with_reducible refine foldS_keeps (fun _ _ _ => ?_) ?_

theorem clockStopDetectEffect_keeps {x0 x1} (h_env : w .env = true) (h_counters : w .counters = true) (h_flags : w .flags = true) (h_bridge : w .bridge = true) (h_anchor : w .anchor = true) (h_mirror : w .mirror = true) (h_mail : w .mail = true) (h_log : w .log = true) (h_rings : w .rings = true) (h_lanes : w .lanes = true) (h_groups : w .groups = true) (h_ports : w .ports = true) (h_ingress : w .ingress = true) (h_bufs : w .bufs = true) (h_accounts : w .accounts = true) (h_cipher : w .cipher = true) (h_time : w .time = true) (h_serdes : w .serdes = true) (h_fabric : w .fabric = true) (h_history : w .history = true) (h_power : w .power = true)
    (h : Keeps w k i s) : Keeps w k i (clockStopDetectEffect x0 x1 s) := by
  unfold clockStopDetectEffect
  repeat' first
    | with_reducible assumption
    | (extract_lets +onlyGivenNames y0
       first
       | (refine_lift have hy0 : Keeps w k i y0 := ?_; ?_
          clear_value y0
          revert y0
          intro _ _
          rotate_left
          unfold y0
          clear y0)
       | (try clear_value y0
          revert y0
          intro _))
    | with_reducible refine endSuspect_keeps h_power ?_
    | with_reducible refine failSource_keeps h_env h_counters h_flags h_bridge h_anchor h_mirror h_mail h_log h_rings h_lanes h_groups h_ports h_ingress h_bufs h_accounts h_cipher h_time h_serdes h_fabric h_history h_power ?_
    | with_reducible refine modMeter_keeps h_power ?_
    | with_reducible refine Keeps.ite ?_ ?_
    | split

theorem darken_keeps {x0 x1} (h_counters : w .counters = true) (h_flags : w .flags = true) (h_bridge : w .bridge = true) (h_log : w .log = true) (h_rings : w .rings = true) (h_lanes : w .lanes = true) (h_groups : w .groups = true) (h_ports : w .ports = true) (h_ingress : w .ingress = true) (h_bufs : w .bufs = true) (h_accounts : w .accounts = true) (h_cipher : w .cipher = true) (h_serdes : w .serdes = true) (h_fabric : w .fabric = true) (h_history : w .history = true)
    (h : Keeps w k i s) : Keeps w k i (darken x0 x1 s) := by
  unfold darken
  repeat' first
    | with_reducible assumption
    | with_reducible refine laneStart_keeps h_counters h_flags h_bridge h_log h_rings h_lanes h_groups h_ports h_ingress h_bufs h_accounts h_cipher h_serdes h_fabric h_history ?_
    | with_reducible refine slicePower_keeps h_serdes ?_
    | with_reducible refine foldS_keeps (fun _ _ _ => ?_) ?_

theorem serveSlice_keeps {x0} (h_counters : w .counters = true) (h_hbm : w .hbm = true)
    (h : Keeps w k i s) : Keeps w k i (serveSlice x0 s) := by
  unfold serveSlice
  repeat' first
    | with_reducible assumption
    | with_reducible refine serveWaiting_keeps h_counters h_hbm ?_
    | with_reducible refine foldS_keeps (fun _ _ _ => ?_) ?_

theorem domainRestartEffect_keeps {n : SliceId} {d : Domain} (h_counters : w .counters = true) (h_flags : w .flags = true) (h_bridge : w .bridge = true) (h_mirror : w .mirror = true) (h_log : w .log = true) (h_rings : w .rings = true) (h_lanes : w .lanes = true) (h_groups : w .groups = true) (h_ports : w .ports = true) (h_ingress : w .ingress = true) (h_bufs : w .bufs = true) (h_accounts : w .accounts = true) (h_cipher : w .cipher = true) (h_hbm : w .hbm = true) (h_serdes : w .serdes = true) (h_fabric : w .fabric = true) (h_history : w .history = true) (h_power : w .power = true) (h : Keeps w k i s) :
    Keeps w k i (domainRestartEffect n d s) := by
  have h1 : Keeps w k i (restartLanes n (domainNo d) (linkChange (fun st => modDomain st n (domainNo d) fun x =>
      if sourceReady s n (domainNo d) (pwAt s n).domains[domainNo d].source then { x with stopped := false } else swapSource x) s)) :=
    restartLanes_keeps h_counters h_flags h_bridge h_log h_rings h_lanes h_groups h_ports h_ingress h_bufs h_accounts h_cipher h_serdes h_fabric h_history (linkChange_keeps h_counters h_flags h_bridge h_mirror h_log h_rings h_ports h_bufs h_history (fun _ hs => modDomain_keeps h_power hs) h)
  exact Keeps.ite (serveSlice_keeps h_counters h_hbm h1) h1

theorem dropBridges_keeps {x0} (h_bridge : w .bridge = true)
    (h : Keeps w k i s) : Keeps w k i (dropBridges x0 s) := by
  unfold dropBridges
  repeat' first
    | with_reducible assumption
    | with_reducible refine Keeps.set_bridge h_bridge ?_

theorem stepDown_keeps {x0} (h_power : w .power = true)
    (h : Keeps w k i s) : Keeps w k i (stepDown x0 s) := by
  unfold stepDown
  repeat' first
    | with_reducible assumption
    | with_reducible refine modPw_keeps h_power ?_

theorem dvfsStepEffect_keeps {x0} (h_power : w .power = true)
    (h : Keeps w k i s) : Keeps w k i (dvfsStepEffect x0 s) := by
  unfold dvfsStepEffect
  repeat' first
    | with_reducible assumption
    | (extract_lets +onlyGivenNames y0
       first
       | (try clear_value y0
          revert y0
          intro _))
    | with_reducible refine modPw_keeps h_power ?_
    | with_reducible refine stepDown_keeps h_power ?_
    | with_reducible refine Keeps.ite ?_ ?_
    | split

theorem faultHalf_keeps {x0} (h_anchor : w .anchor = true)
    (h : Keeps w k i s) : Keeps w k i (faultHalf x0 s) := by
  unfold faultHalf
  repeat' first
    | with_reducible assumption
    | (extract_lets +onlyGivenNames y0
       first
       | (try clear_value y0
          revert y0
          intro _))
    | with_reducible refine anchorOwnFaultEffect_keeps h_anchor ?_
    | with_reducible refine setAnchor_keeps h_anchor ?_
    | with_reducible refine setDrive_keeps h_anchor ?_
    | with_reducible refine Keeps.ite ?_ ?_
    | with_reducible refine Keeps.dite (fun _ => ?_) (fun _ => ?_)

theorem suspectPair_keeps {n : SliceId} (h_counters : w .counters = true) (h_flags : w .flags = true) (h_log : w .log = true) (h_history : w .history = true) (h_power : w .power = true) (h : Keeps w k i s) : Keeps w k i (suspectPair n s) :=
  logEvent_keeps h_counters h_flags h_log h_history (setFlag_keeps h_counters h_flags h_log h_history (modMeter_keeps h_power (modMeter_keeps h_power h)))

theorem tripPair_keeps {n : SliceId} {r : Option RingCmp} (h_env : w .env = true) (h_counters : w .counters = true) (h_flags : w .flags = true) (h_bridge : w .bridge = true) (h_anchor : w .anchor = true) (h_mirror : w .mirror = true) (h_mail : w .mail = true) (h_log : w .log = true) (h_rings : w .rings = true) (h_lanes : w .lanes = true) (h_groups : w .groups = true) (h_ports : w .ports = true) (h_ingress : w .ingress = true) (h_bufs : w .bufs = true) (h_accounts : w .accounts = true) (h_cipher : w .cipher = true) (h_time : w .time = true) (h_serdes : w .serdes = true) (h_fabric : w .fabric = true) (h_history : w .history = true) (h_power : w .power = true)
    (h : Keeps w k i s) : Keeps w k i (tripPair n r s) := by
  have hs := suspectPair_keeps (n := n) (h := h) h_counters h_flags h_log h_history h_power
  have hm : ∀ j f, Keeps w k i (modMeter s n j f) := fun j f => modMeter_keeps (h := h) h_power
  unfold tripPair
  dsimp only
  split
  · exact Keeps.ite (failSource_keeps (h := hm _ _) h_env h_counters h_flags h_bridge h_anchor h_mirror h_mail h_log h_rings h_lanes h_groups h_ports h_ingress h_bufs h_accounts h_cipher h_time h_serdes h_fabric h_history h_power) (Keeps.ite (failSource_keeps (h := hm _ _) h_env h_counters h_flags h_bridge h_anchor h_mirror h_mail h_log h_rings h_lanes h_groups h_ports h_ingress h_bufs h_accounts h_cipher h_time h_serdes h_fabric h_history h_power) hs)
  · exact hs

theorem tripSource_keeps {x0 x1 x2} (h_env : w .env = true) (h_counters : w .counters = true) (h_flags : w .flags = true) (h_bridge : w .bridge = true) (h_anchor : w .anchor = true) (h_mirror : w .mirror = true) (h_mail : w .mail = true) (h_log : w .log = true) (h_rings : w .rings = true) (h_lanes : w .lanes = true) (h_groups : w .groups = true) (h_ports : w .ports = true) (h_ingress : w .ingress = true) (h_bufs : w .bufs = true) (h_accounts : w .accounts = true) (h_cipher : w .cipher = true) (h_time : w .time = true) (h_serdes : w .serdes = true) (h_fabric : w .fabric = true) (h_history : w .history = true) (h_power : w .power = true)
    (h : Keeps w k i s) : Keeps w k i (tripSource x0 x1 x2 s) := by
  unfold tripSource
  repeat' first
    | with_reducible assumption
    | with_reducible refine failSource_keeps h_env h_counters h_flags h_bridge h_anchor h_mirror h_mail h_log h_rings h_lanes h_groups h_ports h_ingress h_bufs h_accounts h_cipher h_time h_serdes h_fabric h_history h_power ?_
    | with_reducible refine tripPair_keeps h_env h_counters h_flags h_bridge h_anchor h_mirror h_mail h_log h_rings h_lanes h_groups h_ports h_ingress h_bufs h_accounts h_cipher h_time h_serdes h_fabric h_history h_power ?_
    | split

theorem freqWindowEffect_keeps {x0 x1 x2 x3} (h_env : w .env = true) (h_counters : w .counters = true) (h_flags : w .flags = true) (h_bridge : w .bridge = true) (h_anchor : w .anchor = true) (h_mirror : w .mirror = true) (h_mail : w .mail = true) (h_log : w .log = true) (h_rings : w .rings = true) (h_lanes : w .lanes = true) (h_groups : w .groups = true) (h_ports : w .ports = true) (h_ingress : w .ingress = true) (h_bufs : w .bufs = true) (h_accounts : w .accounts = true) (h_cipher : w .cipher = true) (h_time : w .time = true) (h_serdes : w .serdes = true) (h_fabric : w .fabric = true) (h_history : w .history = true) (h_power : w .power = true)
    (h : Keeps w k i s) : Keeps w k i (freqWindowEffect x0 x1 x2 x3 s) := by
  unfold freqWindowEffect
  repeat' first
    | with_reducible assumption
    | (extract_lets +onlyGivenNames y0
       first
       | (refine_lift have hy0 : Keeps w k i y0 := ?_; ?_
          clear_value y0
          revert y0
          intro _ _
          rotate_left
          unfold y0
          clear y0)
       | (try clear_value y0
          revert y0
          intro _))
    | with_reducible refine modMeter_keeps h_power ?_
    | with_reducible refine tripSource_keeps h_env h_counters h_flags h_bridge h_anchor h_mirror h_mail h_log h_rings h_lanes h_groups h_ports h_ingress h_bufs h_accounts h_cipher h_time h_serdes h_fabric h_history h_power ?_
    | with_reducible refine Keeps.ite ?_ ?_

theorem noteTemp_keeps {x0 x1 x2} (h_power : w .power = true)
    (h : Keeps w k i s) : Keeps w k i (noteTemp x0 x1 x2 s) := by
  unfold noteTemp
  repeat' first
    | with_reducible assumption
    | with_reducible refine modPw_keeps h_power ?_

theorem setPower_keeps {x0 x1} (h_counters : w .counters = true) (h_flags : w .flags = true) (h_log : w .log = true) (h_history : w .history = true) (h_power : w .power = true)
    (h : Keeps w k i s) : Keeps w k i (setPower x0 x1 s) := by
  unfold setPower
  repeat' first
    | with_reducible assumption
    | (extract_lets +onlyGivenNames y0
       first
       | (refine_lift have hy0 : Keeps w k i y0 := ?_; ?_
          clear_value y0
          revert y0
          intro _ _
          rotate_left
          unfold y0
          clear y0)
       | (try clear_value y0
          revert y0
          intro _))
    | with_reducible refine logEvent_keeps h_counters h_flags h_log h_history ?_
    | with_reducible refine modPw_keeps h_power ?_
    | with_reducible refine Keeps.ite ?_ ?_
    | split
    | with_reducible refine Keeps.set_power h_power ?_

theorem thermalCapReleaseEffect_keeps {x0} (h_power : w .power = true)
    (h : Keeps w k i s) : Keeps w k i (thermalCapReleaseEffect x0 s) := by
  unfold thermalCapReleaseEffect
  repeat' first
    | with_reducible assumption
    | with_reducible refine modPw_keeps h_power ?_

theorem thermalShutdownEffect_keeps {x0 x1 x2} (h_counters : w .counters = true) (h_flags : w .flags = true) (h_bridge : w .bridge = true) (h_anchor : w .anchor = true) (h_mirror : w .mirror = true) (h_log : w .log = true) (h_rings : w .rings = true) (h_lanes : w .lanes = true) (h_groups : w .groups = true) (h_ports : w .ports = true) (h_ingress : w .ingress = true) (h_bufs : w .bufs = true) (h_accounts : w .accounts = true) (h_cipher : w .cipher = true) (h_hbm : w .hbm = true) (h_serdes : w .serdes = true) (h_fabric : w .fabric = true) (h_history : w .history = true) (h_power : w .power = true)
    (h : Keeps w k i s) : Keeps w k i (thermalShutdownEffect x0 x1 x2 s) := by
  unfold thermalShutdownEffect
  repeat' first
    | with_reducible assumption
    | (extract_lets +onlyGivenNames y0
       first
       | (refine_lift have hy0 : Keeps w k i y0 := ?_; ?_
          clear_value y0
          revert y0
          intro _ _
          rotate_left
          unfold y0
          clear y0)
       | (try clear_value y0
          revert y0
          intro _))
    | with_reducible refine abortTransfers_keeps h_bridge h_accounts h_hbm ?_
    | with_reducible refine darken_keeps h_counters h_flags h_bridge h_log h_rings h_lanes h_groups h_ports h_ingress h_bufs h_accounts h_cipher h_serdes h_fabric h_history ?_
    | with_reducible refine dropBridges_keeps h_bridge ?_
    | with_reducible refine faultHalf_keeps h_anchor ?_
    | with_reducible refine linkChange_keeps h_counters h_flags h_bridge h_mirror h_log h_rings h_ports h_bufs h_history (fun _ _ => ?_) ?_
    | with_reducible refine logEvent_keeps h_counters h_flags h_log h_history ?_
    | with_reducible refine modPw_keeps h_power ?_
    | with_reducible refine noteTemp_keeps h_power ?_
    | with_reducible refine setPower_keeps h_counters h_flags h_log h_history h_power ?_

theorem thermalThrottleEffect_keeps {x0 x1 x2} (h_counters : w .counters = true) (h_flags : w .flags = true) (h_log : w .log = true) (h_history : w .history = true) (h_power : w .power = true)
    (h : Keeps w k i s) : Keeps w k i (thermalThrottleEffect x0 x1 x2 s) := by
  unfold thermalThrottleEffect
  repeat' first
    | with_reducible assumption
    | (extract_lets +onlyGivenNames y0
       first
       | (refine_lift have hy0 : Keeps w k i y0 := ?_; ?_
          clear_value y0
          revert y0
          intro _ _
          rotate_left
          unfold y0
          clear y0)
       | (try clear_value y0
          revert y0
          intro _))
    | with_reducible refine logEvent_keeps h_counters h_flags h_log h_history ?_
    | with_reducible refine modPw_keeps h_power ?_
    | with_reducible refine noteTemp_keeps h_power ?_
    | with_reducible refine setFlag_keeps h_counters h_flags h_log h_history ?_
    | with_reducible refine stepDown_keeps h_power ?_
    | with_reducible refine Keeps.ite ?_ ?_

theorem cdrLockGainedEffect_keeps {x0} (h_counters : w .counters = true) (h_flags : w .flags = true) (h_log : w .log = true) (h_serdes : w .serdes = true) (h_history : w .history = true)
    (h : Keeps w k i s) : Keeps w k i (cdrLockGainedEffect x0 s) := by
  unfold cdrLockGainedEffect
  repeat' first
    | with_reducible assumption
    | (extract_lets +onlyGivenNames y0
       first
       | (try clear_value y0
          revert y0
          intro _))
    | with_reducible refine setFlag_keeps h_counters h_flags h_log h_history ?_
    | with_reducible refine Keeps.set_serdes h_serdes ?_

theorem trunkLost_keeps {x0 x1} (h_env : w .env = true) (h_counters : w .counters = true) (h_flags : w .flags = true) (h_bridge : w .bridge = true) (h_anchor : w .anchor = true) (h_mirror : w .mirror = true) (h_mail : w .mail = true) (h_log : w .log = true) (h_rings : w .rings = true) (h_lanes : w .lanes = true) (h_groups : w .groups = true) (h_ports : w .ports = true) (h_ingress : w .ingress = true) (h_bufs : w .bufs = true) (h_accounts : w .accounts = true) (h_cipher : w .cipher = true) (h_time : w .time = true) (h_serdes : w .serdes = true) (h_fabric : w .fabric = true) (h_history : w .history = true) (h_power : w .power = true)
    (h : Keeps w k i s) : Keeps w k i (trunkLost x0 x1 s) := by
  unfold trunkLost
  repeat' first
    | with_reducible assumption
    | with_reducible refine failSource_keeps h_env h_counters h_flags h_bridge h_anchor h_mirror h_mail h_log h_rings h_lanes h_groups h_ports h_ingress h_bufs h_accounts h_cipher h_time h_serdes h_fabric h_history h_power ?_
    | with_reducible refine Keeps.ite ?_ ?_

theorem lineCdrLost_keeps {x0} (h_env : w .env = true) (h_counters : w .counters = true) (h_flags : w .flags = true) (h_bridge : w .bridge = true) (h_anchor : w .anchor = true) (h_mirror : w .mirror = true) (h_mail : w .mail = true) (h_log : w .log = true) (h_rings : w .rings = true) (h_lanes : w .lanes = true) (h_groups : w .groups = true) (h_ports : w .ports = true) (h_ingress : w .ingress = true) (h_bufs : w .bufs = true) (h_accounts : w .accounts = true) (h_cipher : w .cipher = true) (h_time : w .time = true) (h_serdes : w .serdes = true) (h_fabric : w .fabric = true) (h_history : w .history = true) (h_power : w .power = true)
    (h : Keeps w k i s) : Keeps w k i (lineCdrLost x0 s) := by
  unfold lineCdrLost
  repeat' first
    | with_reducible assumption
    | (extract_lets +onlyGivenNames y0
       first
       | (refine_lift have hy0 : Keeps w k i y0 := ?_; ?_
          clear_value y0
          revert y0
          intro _ _
          rotate_left
          unfold y0
          clear y0)
       | (try clear_value y0
          revert y0
          intro _))
    | with_reducible refine loseBlockLock_keeps h_counters h_flags h_bridge h_log h_rings h_lanes h_groups h_ports h_ingress h_bufs h_accounts h_cipher h_fabric h_history ?_
    | with_reducible refine trunkLost_keeps h_env h_counters h_flags h_bridge h_anchor h_mirror h_mail h_log h_rings h_lanes h_groups h_ports h_ingress h_bufs h_accounts h_cipher h_time h_serdes h_fabric h_history h_power ?_
    | with_reducible refine Keeps.ite ?_ ?_
    | split

theorem loseChk_keeps {x0} (h_counters : w .counters = true) (h_flags : w .flags = true) (h_log : w .log = true) (h_serdes : w .serdes = true) (h_history : w .history = true)
    (h : Keeps w k i s) : Keeps w k i (loseChk x0 s) := by
  unfold loseChk
  repeat' first
    | with_reducible assumption
    | with_reducible refine count1_keeps h_counters ?_
    | with_reducible refine modSerial_keeps h_serdes ?_
    | with_reducible refine setFlag_keeps h_counters h_flags h_log h_history ?_
    | with_reducible refine Keeps.ite ?_ ?_
    | split

theorem cdrLostEffect_keeps {x0} (h_env : w .env = true) (h_counters : w .counters = true) (h_flags : w .flags = true) (h_bridge : w .bridge = true) (h_anchor : w .anchor = true) (h_mirror : w .mirror = true) (h_mail : w .mail = true) (h_log : w .log = true) (h_rings : w .rings = true) (h_lanes : w .lanes = true) (h_groups : w .groups = true) (h_ports : w .ports = true) (h_ingress : w .ingress = true) (h_bufs : w .bufs = true) (h_accounts : w .accounts = true) (h_cipher : w .cipher = true) (h_time : w .time = true) (h_serdes : w .serdes = true) (h_fabric : w .fabric = true) (h_history : w .history = true) (h_power : w .power = true)
    (h : Keeps w k i s) : Keeps w k i (cdrLostEffect x0 s) := by
  unfold cdrLostEffect
  repeat' first
    | with_reducible assumption
    | (extract_lets +onlyGivenNames y0
       first
       | (refine_lift have hy0 : Keeps w k i y0 := ?_; ?_
          clear_value y0
          revert y0
          intro _ _
          rotate_left
          unfold y0
          clear y0)
       | (try clear_value y0
          revert y0
          intro _))
    | with_reducible refine count1_keeps h_counters ?_
    | with_reducible refine lineCdrLost_keeps h_env h_counters h_flags h_bridge h_anchor h_mirror h_mail h_log h_rings h_lanes h_groups h_ports h_ingress h_bufs h_accounts h_cipher h_time h_serdes h_fabric h_history h_power ?_
    | with_reducible refine loseChk_keeps h_counters h_flags h_log h_serdes h_history ?_
    | with_reducible refine setFlag_keeps h_counters h_flags h_log h_history ?_
    | split
    | with_reducible refine Keeps.set_serdes h_serdes ?_

theorem chkLockEffect_keeps {x0} (h_serdes : w .serdes = true)
    (h : Keeps w k i s) : Keeps w k i (chkLockEffect x0 s) := by
  unfold chkLockEffect
  repeat' first
    | with_reducible assumption
    | with_reducible refine modSerial_keeps h_serdes ?_

theorem chkLockLostEffect_keeps {x0 x1 x2 x3} (h_counters : w .counters = true) (h_flags : w .flags = true) (h_log : w .log = true) (h_serdes : w .serdes = true) (h_history : w .history = true)
    (h : Keeps w k i s) : Keeps w k i (chkLockLostEffect x0 x1 x2 x3 s) := by
  unfold chkLockLostEffect
  repeat' first
    | with_reducible assumption
    | (extract_lets +onlyGivenNames y0
       first
       | (refine_lift have hy0 : Keeps w k i y0 := ?_; ?_
          clear_value y0
          revert y0
          intro _ _
          rotate_left
          unfold y0
          clear y0)
       | (try clear_value y0
          revert y0
          intro _))
    | with_reducible refine count_keeps h_counters ?_
    | with_reducible refine loseChk_keeps h_counters h_flags h_log h_serdes h_history ?_
    | with_reducible refine Keeps.ite ?_ ?_
    | split

theorem deepEntryCompleteEffect_keeps {x0} (h_counters : w .counters = true) (h_flags : w .flags = true) (h_bridge : w .bridge = true) (h_log : w .log = true) (h_rings : w .rings = true) (h_lanes : w .lanes = true) (h_groups : w .groups = true) (h_ports : w .ports = true) (h_ingress : w .ingress = true) (h_bufs : w .bufs = true) (h_accounts : w .accounts = true) (h_cipher : w .cipher = true) (h_serdes : w .serdes = true) (h_fabric : w .fabric = true) (h_history : w .history = true)
    (h : Keeps w k i s) : Keeps w k i (deepEntryCompleteEffect x0 s) := by
  unfold deepEntryCompleteEffect
  repeat' first
    | with_reducible assumption
    | (extract_lets +onlyGivenNames y0
       first
       | (refine_lift have hy0 : Keeps w k i y0 := ?_; ?_
          clear_value y0
          revert y0
          intro _ _
          rotate_left
          unfold y0
          clear y0)
       | (try clear_value y0
          revert y0
          intro _))
    | with_reducible refine count1_keeps h_counters ?_
    | with_reducible refine laneStart_keeps h_counters h_flags h_bridge h_log h_rings h_lanes h_groups h_ports h_ingress h_bufs h_accounts h_cipher h_serdes h_fabric h_history ?_
    | with_reducible refine modSerial_keeps h_serdes ?_

theorem deepEntryEffect_keeps {x0} (h_serdes : w .serdes = true)
    (h : Keeps w k i s) : Keeps w k i (deepEntryEffect x0 s) := by
  unfold deepEntryEffect
  repeat' first
    | with_reducible assumption
    | with_reducible refine modSerial_keeps h_serdes ?_

theorem deepExitCompleteEffect_keeps {x0} (h_counters : w .counters = true) (h_flags : w .flags = true) (h_bridge : w .bridge = true) (h_log : w .log = true) (h_rings : w .rings = true) (h_lanes : w .lanes = true) (h_groups : w .groups = true) (h_ports : w .ports = true) (h_ingress : w .ingress = true) (h_bufs : w .bufs = true) (h_accounts : w .accounts = true) (h_cipher : w .cipher = true) (h_serdes : w .serdes = true) (h_fabric : w .fabric = true) (h_history : w .history = true)
    (h : Keeps w k i s) : Keeps w k i (deepExitCompleteEffect x0 s) := by
  unfold deepExitCompleteEffect
  repeat' first
    | with_reducible assumption
    | with_reducible refine laneStart_keeps h_counters h_flags h_bridge h_log h_rings h_lanes h_groups h_ports h_ingress h_bufs h_accounts h_cipher h_serdes h_fabric h_history ?_
    | with_reducible refine modSerial_keeps h_serdes ?_

theorem deepExitEffect_keeps {x0} (h_counters : w .counters = true) (h_flags : w .flags = true) (h_log : w .log = true) (h_serdes : w .serdes = true) (h_history : w .history = true)
    (h : Keeps w k i s) : Keeps w k i (deepExitEffect x0 s) := by
  unfold deepExitEffect
  repeat' first
    | with_reducible assumption
    | (extract_lets +onlyGivenNames y0
       first
       | (try clear_value y0
          revert y0
          intro _))
    | with_reducible refine count1_keeps h_counters ?_
    | with_reducible refine modSerial_keeps h_serdes ?_
    | with_reducible refine setFlag_keeps h_counters h_flags h_log h_history ?_
    | with_reducible refine Keeps.ite ?_ ?_
    | split

theorem expireLoop_keeps {x0} (h_counters : w .counters = true) (h_flags : w .flags = true) (h_bridge : w .bridge = true) (h_log : w .log = true) (h_rings : w .rings = true) (h_lanes : w .lanes = true) (h_groups : w .groups = true) (h_ports : w .ports = true) (h_ingress : w .ingress = true) (h_bufs : w .bufs = true) (h_accounts : w .accounts = true) (h_cipher : w .cipher = true) (h_serdes : w .serdes = true) (h_fabric : w .fabric = true) (h_history : w .history = true)
    (h : Keeps w k i s) : Keeps w k i (expireLoop x0 s) := by
  unfold expireLoop
  repeat' first
    | with_reducible assumption
    | with_reducible refine setFlag_keeps h_counters h_flags h_log h_history ?_
    | with_reducible refine laneStart_keeps h_counters h_flags h_bridge h_log h_rings h_lanes h_groups h_ports h_ingress h_bufs h_accounts h_cipher h_serdes h_fabric h_history ?_
    | with_reducible refine modSerial_keeps h_serdes ?_

theorem laneEqReadApply_keeps {x0} 
    (h : Keeps w k i s) : KeepsDone w k i (laneEqReadApply x0 s) := by
  unfold laneEqReadApply
  repeat' first
    | with_reducible assumption
    | (extract_lets +onlyGivenNames y0
       first
       | (try clear_value y0
          revert y0
          intro _))
    | with_reducible refine KeepsDone.mk ?_

theorem laneEqSetApply_keeps {x0} (h_counters : w .counters = true) (h_flags : w .flags = true) (h_bridge : w .bridge = true) (h_log : w .log = true) (h_rings : w .rings = true) (h_lanes : w .lanes = true) (h_groups : w .groups = true) (h_ports : w .ports = true) (h_ingress : w .ingress = true) (h_bufs : w .bufs = true) (h_accounts : w .accounts = true) (h_cipher : w .cipher = true) (h_serdes : w .serdes = true) (h_fabric : w .fabric = true) (h_history : w .history = true)
    (h : Keeps w k i s) : KeepsDone w k i (laneEqSetApply x0 s) := by
  unfold laneEqSetApply
  repeat' first
    | with_reducible assumption
    | (extract_lets +onlyGivenNames y0
       first
       | (try clear_value y0
          revert y0
          intro _))
    | with_reducible refine laneStart_keeps h_counters h_flags h_bridge h_log h_rings h_lanes h_groups h_ports h_ingress h_bufs h_accounts h_cipher h_serdes h_fabric h_history ?_
    | with_reducible refine modSerial_keeps h_serdes ?_
    | with_reducible refine okDone_keeps ?_
    | with_reducible refine KeepsDone.mk ?_

theorem loopBurstEffect_keeps {x0} (h_serdes : w .serdes = true)
    (h : Keeps w k i s) : Keeps w k i (loopBurstEffect x0 s) := by
  unfold loopBurstEffect
  repeat' first
    | with_reducible assumption
    | with_reducible refine modSerial_keeps h_serdes ?_
    | split

theorem loopExpiredEffect_keeps {x0} (h_counters : w .counters = true) (h_flags : w .flags = true) (h_bridge : w .bridge = true) (h_log : w .log = true) (h_rings : w .rings = true) (h_lanes : w .lanes = true) (h_groups : w .groups = true) (h_ports : w .ports = true) (h_ingress : w .ingress = true) (h_bufs : w .bufs = true) (h_accounts : w .accounts = true) (h_cipher : w .cipher = true) (h_serdes : w .serdes = true) (h_fabric : w .fabric = true) (h_history : w .history = true)
    (h : Keeps w k i s) : Keeps w k i (loopExpiredEffect x0 s) := by
  unfold loopExpiredEffect
  repeat' first
    | with_reducible assumption
    | (extract_lets +onlyGivenNames y0
       first
       | (try clear_value y0
          revert y0
          intro _))
    | with_reducible refine foldS_keeps (fun _ _ _ => ?_) ?_
    | with_reducible refine expireLoop_keeps h_counters h_flags h_bridge h_log h_rings h_lanes h_groups h_ports h_ingress h_bufs h_accounts h_cipher h_serdes h_fabric h_history ?_
    | with_reducible refine laneStart_keeps h_counters h_flags h_bridge h_log h_rings h_lanes h_groups h_ports h_ingress h_bufs h_accounts h_cipher h_serdes h_fabric h_history ?_
    | with_reducible refine modSerial_keeps h_serdes ?_
    | with_reducible refine setFlag_keeps h_counters h_flags h_log h_history ?_

theorem putBridgeLoop_keeps {x0} (h_counters : w .counters = true) (h_flags : w .flags = true) (h_bridge : w .bridge = true) (h_mirror : w .mirror = true) (h_log : w .log = true) (h_rings : w .rings = true) (h_ports : w .ports = true) (h_bufs : w .bufs = true) (h_history : w .history = true)
    (h : Keeps w k i s) : Keeps w k i (putBridgeLoop x0 s) := by
  unfold putBridgeLoop
  repeat' first
    | with_reducible assumption
    | (extract_lets +onlyGivenNames y0
       first
       | (refine_lift have hy0 : Keeps w k i y0 := ?_; ?_
          clear_value y0
          revert y0
          intro _ _
          rotate_left
          unfold y0
          clear y0)
       | (try clear_value y0
          revert y0
          intro _))
    | with_reducible refine downPort_keeps h_counters h_bridge ?_
    | with_reducible refine linkChange_keeps h_counters h_flags h_bridge h_mirror h_log h_rings h_ports h_bufs h_history (fun _ _ => ?_) ?_
    | with_reducible refine modBridge_keeps h_bridge ?_
    | with_reducible refine Keeps.ite ?_ ?_

theorem testDown_keeps {x0} (h_counters : w .counters = true) (h_flags : w .flags = true) (h_bridge : w .bridge = true) (h_log : w .log = true) (h_rings : w .rings = true) (h_ports : w .ports = true) (h_bufs : w .bufs = true) (h_fabric : w .fabric = true) (h_history : w .history = true)
    (h : Keeps w k i s) : Keeps w k i (testDown x0 s) := by
  unfold testDown
  repeat' first
    | with_reducible assumption
    | with_reducible refine takeDown_keeps h_counters h_flags h_bridge h_log h_rings h_ports h_bufs h_fabric h_history ?_
    | with_reducible refine Keeps.ite ?_ ?_
    | split

theorem loopSetApply_keeps {x0} (h_counters : w .counters = true) (h_flags : w .flags = true) (h_bridge : w .bridge = true) (h_mirror : w .mirror = true) (h_log : w .log = true) (h_rings : w .rings = true) (h_lanes : w .lanes = true) (h_groups : w .groups = true) (h_ports : w .ports = true) (h_ingress : w .ingress = true) (h_bufs : w .bufs = true) (h_accounts : w .accounts = true) (h_cipher : w .cipher = true) (h_serdes : w .serdes = true) (h_fabric : w .fabric = true) (h_history : w .history = true)
    (h : Keeps w k i s) : KeepsDone w k i (loopSetApply x0 s) := by
  unfold loopSetApply
  repeat' first
    | with_reducible assumption
    | with_reducible refine laneStart_keeps h_counters h_flags h_bridge h_log h_rings h_lanes h_groups h_ports h_ingress h_bufs h_accounts h_cipher h_serdes h_fabric h_history ?_
    | with_reducible refine modSerial_keeps h_serdes ?_
    | with_reducible refine okDone_keeps ?_
    | with_reducible refine putBridgeLoop_keeps h_counters h_flags h_bridge h_mirror h_log h_rings h_ports h_bufs h_history ?_
    | with_reducible refine testDown_keeps h_counters h_flags h_bridge h_log h_rings h_ports h_bufs h_fabric h_history ?_
    | with_reducible refine foldS_keeps (fun _ _ _ => ?_) ?_
    | with_reducible refine Keeps.ite ?_ ?_
    | with_reducible refine KeepsDone.ite ?_ ?_
    | with_reducible refine KeepsDone.mk ?_

theorem patternSetApply_keeps {x0} (h_counters : w .counters = true) (h_flags : w .flags = true) (h_bridge : w .bridge = true) (h_log : w .log = true) (h_rings : w .rings = true) (h_lanes : w .lanes = true) (h_groups : w .groups = true) (h_ports : w .ports = true) (h_ingress : w .ingress = true) (h_bufs : w .bufs = true) (h_accounts : w .accounts = true) (h_cipher : w .cipher = true) (h_serdes : w .serdes = true) (h_fabric : w .fabric = true) (h_history : w .history = true)
    (h : Keeps w k i s) : KeepsDone w k i (patternSetApply x0 s) := by
  unfold patternSetApply
  repeat' first
    | with_reducible assumption
    | (extract_lets +onlyGivenNames y0
       first
       | (try clear_value y0
          revert y0
          intro _))
    | with_reducible refine laneStart_keeps h_counters h_flags h_bridge h_log h_rings h_lanes h_groups h_ports h_ingress h_bufs h_accounts h_cipher h_serdes h_fabric h_history ?_
    | with_reducible refine modSerial_keeps h_serdes ?_
    | with_reducible refine okDone_keeps ?_
    | with_reducible refine testDown_keeps h_counters h_flags h_bridge h_log h_rings h_ports h_bufs h_fabric h_history ?_
    | with_reducible refine KeepsDone.mk ?_

theorem beginDown_keeps {x0 x1} (h_counters : w .counters = true) (h_flags : w .flags = true) (h_log : w .log = true) (h_history : w .history = true) (h_power : w .power = true)
    (h : Keeps w k i s) : Keeps w k i (beginDown x0 x1 s) := by
  unfold beginDown
  repeat' first
    | with_reducible assumption
    | with_reducible refine modPw_keeps h_power ?_
    | with_reducible refine setPower_keeps h_counters h_flags h_log h_history h_power ?_

theorem beginWake_keeps {x0 x1} (h_counters : w .counters = true) (h_flags : w .flags = true) (h_log : w .log = true) (h_history : w .history = true) (h_power : w .power = true)
    (h : Keeps w k i s) : Keeps w k i (beginWake x0 x1 s) := by
  unfold beginWake
  repeat' first
    | with_reducible assumption
    | (extract_lets +onlyGivenNames y0
       first
       | (try clear_value y0
          revert y0
          intro _))
    | with_reducible refine modPw_keeps h_power ?_
    | with_reducible refine setPower_keeps h_counters h_flags h_log h_history h_power ?_

theorem cancelTests_keeps {x0} (h_counters : w .counters = true) (h_flags : w .flags = true) (h_bridge : w .bridge = true) (h_log : w .log = true) (h_rings : w .rings = true) (h_lanes : w .lanes = true) (h_groups : w .groups = true) (h_ports : w .ports = true) (h_ingress : w .ingress = true) (h_bufs : w .bufs = true) (h_accounts : w .accounts = true) (h_cipher : w .cipher = true) (h_serdes : w .serdes = true) (h_fabric : w .fabric = true) (h_history : w .history = true)
    (h : Keeps w k i s) : Keeps w k i (cancelTests x0 s) := by
  unfold cancelTests
  repeat' first
    | with_reducible assumption
    | with_reducible refine cancelTest_keeps h_counters h_flags h_bridge h_log h_rings h_lanes h_groups h_ports h_ingress h_bufs h_accounts h_cipher h_serdes h_fabric h_history ?_
    | with_reducible refine foldS_keeps (fun _ _ _ => ?_) ?_

theorem clockStatusReadApply_keeps {x0} 
    (h : Keeps w k i s) : KeepsDone w k i (clockStatusReadApply x0 s) := by
  unfold clockStatusReadApply
  repeat' first
    | with_reducible assumption
    | with_reducible refine KeepsDone.mk ?_

theorem sleepChans_keeps {x0} (h_hbm : w .hbm = true)
    (h : Keeps w k i s) : Keeps w k i (sleepChans x0 s) := by
  unfold sleepChans
  repeat' first
    | with_reducible assumption
    | with_reducible refine modChan_keeps h_hbm ?_ ?_
    | with_reducible refine foldS_keeps (fun _ _ _ => ?_) ?_
    | (intro _ x hx
       try dsimp only
       repeat' split
       all_goals first
         | exact hx
         | rfl
         | simpa using hx)

theorem enterDormant_keeps {x0} (h_counters : w .counters = true) (h_flags : w .flags = true) (h_latches : w .latches = true) (h_bridge : w .bridge = true) (h_anchor : w .anchor = true) (h_mirror : w .mirror = true) (h_log : w .log = true) (h_rings : w .rings = true) (h_lanes : w .lanes = true) (h_groups : w .groups = true) (h_ports : w .ports = true) (h_ingress : w .ingress = true) (h_cls : w .cls = true) (h_bufs : w .bufs = true) (h_accounts : w .accounts = true) (h_slots : w .slots = true) (h_cipher : w .cipher = true) (h_hbm : w .hbm = true) (h_serdes : w .serdes = true) (h_fabric : w .fabric = true) (h_history : w .history = true) (h_power : w .power = true)
    (h : Keeps w k i s) : Keeps w k i (enterDormant x0 s) := by
  unfold enterDormant
  repeat' first
    | with_reducible assumption
    | (extract_lets +onlyGivenNames y0
       first
       | (refine_lift have hy0 : Keeps w k i y0 := ?_; ?_
          clear_value y0
          revert y0
          intro _ _
          rotate_left
          unfold y0
          clear y0)
       | (try clear_value y0
          revert y0
          intro _))
    | with_reducible refine cancelTests_keeps h_counters h_flags h_bridge h_log h_rings h_lanes h_groups h_ports h_ingress h_bufs h_accounts h_cipher h_serdes h_fabric h_history ?_
    | with_reducible refine clearSlice_keeps h_counters h_flags h_latches h_bridge h_log h_rings h_lanes h_groups h_ports h_ingress h_cls h_bufs h_accounts h_slots h_cipher h_fabric h_history ?_
    | with_reducible refine darken_keeps h_counters h_flags h_bridge h_log h_rings h_lanes h_groups h_ports h_ingress h_bufs h_accounts h_cipher h_serdes h_fabric h_history ?_
    | with_reducible refine dropBridges_keeps h_bridge ?_
    | with_reducible refine linkChange_keeps h_counters h_flags h_bridge h_mirror h_log h_rings h_ports h_bufs h_history (fun _ _ => ?_) ?_
    | with_reducible refine setPower_keeps h_counters h_flags h_log h_history h_power ?_
    | with_reducible refine sleepChans_keeps h_hbm ?_
    | with_reducible refine Keeps.ite ?_ ?_
    | split
    | with_reducible refine Keeps.set_anchor h_anchor ?_

theorem dormantEntryEffect_keeps {x0} (h_counters : w .counters = true) (h_flags : w .flags = true) (h_latches : w .latches = true) (h_bridge : w .bridge = true) (h_anchor : w .anchor = true) (h_mirror : w .mirror = true) (h_log : w .log = true) (h_rings : w .rings = true) (h_lanes : w .lanes = true) (h_groups : w .groups = true) (h_ports : w .ports = true) (h_ingress : w .ingress = true) (h_cls : w .cls = true) (h_bufs : w .bufs = true) (h_accounts : w .accounts = true) (h_slots : w .slots = true) (h_cipher : w .cipher = true) (h_hbm : w .hbm = true) (h_serdes : w .serdes = true) (h_fabric : w .fabric = true) (h_history : w .history = true) (h_power : w .power = true)
    (h : Keeps w k i s) : Keeps w k i (dormantEntryEffect x0 s) := by
  unfold dormantEntryEffect
  repeat' first
    | with_reducible assumption
    | with_reducible refine beginDown_keeps h_counters h_flags h_log h_history h_power ?_
    | with_reducible refine enterDormant_keeps h_counters h_flags h_latches h_bridge h_anchor h_mirror h_log h_rings h_lanes h_groups h_ports h_ingress h_cls h_bufs h_accounts h_slots h_cipher h_hbm h_serdes h_fabric h_history h_power ?_
    | with_reducible refine Keeps.ite ?_ ?_

theorem enterDrowse_keeps {x0} (h_counters : w .counters = true) (h_flags : w .flags = true) (h_bridge : w .bridge = true) (h_log : w .log = true) (h_rings : w .rings = true) (h_lanes : w .lanes = true) (h_groups : w .groups = true) (h_ports : w .ports = true) (h_ingress : w .ingress = true) (h_bufs : w .bufs = true) (h_accounts : w .accounts = true) (h_cipher : w .cipher = true) (h_serdes : w .serdes = true) (h_fabric : w .fabric = true) (h_history : w .history = true) (h_power : w .power = true)
    (h : Keeps w k i s) : Keeps w k i (enterDrowse x0 s) := by
  unfold enterDrowse
  repeat' first
    | with_reducible assumption
    | with_reducible refine cancelTests_keeps h_counters h_flags h_bridge h_log h_rings h_lanes h_groups h_ports h_ingress h_bufs h_accounts h_cipher h_serdes h_fabric h_history ?_
    | with_reducible refine modPw_keeps h_power ?_
    | with_reducible refine setPower_keeps h_counters h_flags h_log h_history h_power ?_

theorem drowseEntryEffect_keeps {x0} (h_counters : w .counters = true) (h_flags : w .flags = true) (h_bridge : w .bridge = true) (h_log : w .log = true) (h_rings : w .rings = true) (h_lanes : w .lanes = true) (h_groups : w .groups = true) (h_ports : w .ports = true) (h_ingress : w .ingress = true) (h_bufs : w .bufs = true) (h_accounts : w .accounts = true) (h_cipher : w .cipher = true) (h_serdes : w .serdes = true) (h_fabric : w .fabric = true) (h_history : w .history = true) (h_power : w .power = true)
    (h : Keeps w k i s) : Keeps w k i (drowseEntryEffect x0 s) := by
  unfold drowseEntryEffect
  repeat' first
    | with_reducible assumption
    | with_reducible refine beginDown_keeps h_counters h_flags h_log h_history h_power ?_
    | with_reducible refine enterDrowse_keeps h_counters h_flags h_bridge h_log h_rings h_lanes h_groups h_ports h_ingress h_bufs h_accounts h_cipher h_serdes h_fabric h_history h_power ?_
    | with_reducible refine Keeps.ite ?_ ?_

theorem dvfsSetApply_keeps {x0} (h_power : w .power = true)
    (h : Keeps w k i s) : KeepsDone w k i (dvfsSetApply x0 s) := by
  unfold dvfsSetApply
  repeat' first
    | with_reducible assumption
    | with_reducible refine modPw_keeps h_power ?_
    | with_reducible refine okDone_keeps ?_
    | with_reducible refine foldS_keeps (fun _ _ _ => ?_) ?_
    | with_reducible refine KeepsDone.mk ?_

theorem idleEntryEffect_keeps {x0} (h_counters : w .counters = true) (h_flags : w .flags = true) (h_log : w .log = true) (h_history : w .history = true) (h_power : w .power = true)
    (h : Keeps w k i s) : Keeps w k i (idleEntryEffect x0 s) := by
  unfold idleEntryEffect
  repeat' first
    | with_reducible assumption
    | with_reducible refine count1_keeps h_counters ?_
    | with_reducible refine setPower_keeps h_counters h_flags h_log h_history h_power ?_

theorem idleExitEffect_keeps {x0} (h_counters : w .counters = true) (h_flags : w .flags = true) (h_log : w .log = true) (h_history : w .history = true) (h_power : w .power = true)
    (h : Keeps w k i s) : Keeps w k i (idleExitEffect x0 s) := by
  unfold idleExitEffect
  repeat' first
    | with_reducible assumption
    | with_reducible refine modPw_keeps h_power ?_
    | with_reducible refine setPower_keeps h_counters h_flags h_log h_history h_power ?_

theorem powerStateReachedEffect_keeps {x0} (h_env : w .env = true) (h_counters : w .counters = true) (h_flags : w .flags = true) (h_bridge : w .bridge = true) (h_anchor : w .anchor = true) (h_mail : w .mail = true) (h_log : w .log = true) (h_history : w .history = true) (h_power : w .power = true)
    (h : Keeps w k i s) : Keeps w k i (powerStateReachedEffect x0 s) := by
  unfold powerStateReachedEffect
  repeat' first
    | with_reducible assumption
    | (extract_lets +onlyGivenNames y0
       first
       | (refine_lift have hy0 : Keeps w k i y0 := ?_; ?_
          clear_value y0
          revert y0
          intro _ _
          rotate_left
          unfold y0
          clear y0)
       | (try clear_value y0
          revert y0
          intro _))
    | with_reducible refine finish_keeps h_env h_bridge h_anchor h_mail h_log ?_
    | with_reducible refine logEvent_keeps h_counters h_flags h_log h_history ?_
    | with_reducible refine setPower_keeps h_counters h_flags h_log h_history h_power ?_
    | with_reducible refine foldS_keeps (fun _ _ _ => ?_) ?_
    | with_reducible refine foldl_keeps (fun _ _ _ => ?_) ?_
    | with_reducible refine Keeps.ite ?_ ?_
    | split
    | with_reducible refine KeepsDone.mk ?_
    | with_reducible refine Keeps.set_power h_power ?_

theorem psLeave_keeps (h_counters : w .counters = true) (h_flags : w .flags = true) (h_log : w .log = true) (h_history : w .history = true) (h_power : w .power = true)
    (h : Keeps w k i s) : Keeps w k i (psLeave s) := by
  unfold psLeave
  repeat' first
    | with_reducible assumption
    | with_reducible refine logEvent_keeps h_counters h_flags h_log h_history ?_
    | with_reducible refine Keeps.ite ?_ ?_
    | split
    | with_reducible refine Keeps.set_power h_power ?_

theorem psPolicy_keeps {x0} (h_power : w .power = true)
    (h : Keeps w k i s) : Keeps w k i (psPolicy x0 s) := by
  unfold psPolicy
  repeat' first
    | with_reducible assumption
    | with_reducible refine modPw_keeps h_power ?_
    | with_reducible refine foldS_keeps (fun _ _ _ => ?_) ?_

theorem setOut_keeps {x0 x1} (h_counters : w .counters = true) (h_flags : w .flags = true) (h_log : w .log = true) (h_history : w .history = true) (h_power : w .power = true)
    (h : Keeps w k i s) : Keeps w k i (setOut x0 x1 s) := by
  unfold setOut
  repeat' first
    | with_reducible assumption
    | (extract_lets +onlyGivenNames y0
       first
       | (try clear_value y0
          revert y0
          intro _))
    | with_reducible refine beginDown_keeps h_counters h_flags h_log h_history h_power ?_
    | with_reducible refine beginWake_keeps h_counters h_flags h_log h_history h_power ?_
    | with_reducible refine setPower_keeps h_counters h_flags h_log h_history h_power ?_
    | with_reducible refine Keeps.ite ?_ ?_
    | split

theorem powerStateSetStart_keeps {x0 x1} (h_env : w .env = true) (h_counters : w .counters = true) (h_flags : w .flags = true) (h_bridge : w .bridge = true) (h_anchor : w .anchor = true) (h_mail : w .mail = true) (h_log : w .log = true) (h_history : w .history = true) (h_power : w .power = true)
    (h : Keeps w k i s) : Keeps w k i (powerStateSetStart x0 x1 s) := by
  unfold powerStateSetStart
  repeat' first
    | with_reducible assumption
    | (extract_lets +onlyGivenNames y0
       first
       | (try clear_value y0
          revert y0
          intro _))
    | with_reducible refine finish_keeps h_env h_bridge h_anchor h_mail h_log ?_
    | with_reducible refine okDone_keeps ?_
    | with_reducible refine psLeave_keeps h_counters h_flags h_log h_history h_power ?_
    | with_reducible refine psPolicy_keeps h_power ?_
    | with_reducible refine setLong_keeps h_mail ?_
    | with_reducible refine setOut_keeps h_counters h_flags h_log h_history h_power ?_
    | with_reducible refine foldS_keeps (fun _ _ _ => ?_) ?_
    | with_reducible refine Keeps.ite ?_ ?_
    | with_reducible refine KeepsDone.mk ?_

theorem quiesceTimeoutEffect_keeps {x0} (h_counters : w .counters = true) (h_flags : w .flags = true) (h_bridge : w .bridge = true) (h_log : w .log = true) (h_accounts : w .accounts = true) (h_hbm : w .hbm = true) (h_history : w .history = true) (h_power : w .power = true)
    (h : Keeps w k i s) : Keeps w k i (quiesceTimeoutEffect x0 s) := by
  unfold quiesceTimeoutEffect
  repeat' first
    | with_reducible assumption
    | (extract_lets +onlyGivenNames y0
       first
       | (refine_lift have hy0 : Keeps w k i y0 := ?_; ?_
          clear_value y0
          revert y0
          intro _ _
          rotate_left
          unfold y0
          clear y0)
       | (try clear_value y0
          revert y0
          intro _))
    | with_reducible refine abortTransfers_keeps h_bridge h_accounts h_hbm ?_
    | with_reducible refine count_keeps h_counters ?_
    | with_reducible refine logEvent_keeps h_counters h_flags h_log h_history ?_
    | with_reducible refine modPw_keeps h_power ?_
    | with_reducible refine setFlag_keeps h_counters h_flags h_log h_history ?_

theorem trainBridges_keeps {x0} (h_bridge : w .bridge = true)
    (h : Keeps w k i s) : Keeps w k i (trainBridges x0 s) := by
  unfold trainBridges
  repeat' first
    | with_reducible assumption
    | with_reducible refine modBridge_keeps h_bridge ?_
    | with_reducible refine foldS_keeps (fun _ _ _ => ?_) ?_
    | with_reducible refine Keeps.ite ?_ ?_

theorem wakeBridges_keeps {x0} (h_counters : w .counters = true) (h_flags : w .flags = true) (h_bridge : w .bridge = true) (h_mirror : w .mirror = true) (h_log : w .log = true) (h_rings : w .rings = true) (h_ports : w .ports = true) (h_bufs : w .bufs = true) (h_history : w .history = true) (h_power : w .power = true)
    (h : Keeps w k i s) : Keeps w k i (wakeBridges x0 s) := by
  unfold wakeBridges
  repeat' first
    | with_reducible assumption
    | with_reducible refine linkChange_keeps h_counters h_flags h_bridge h_mirror h_log h_rings h_ports h_bufs h_history (fun _ _ => ?_) ?_
    | with_reducible refine modPw_keeps h_power ?_
    | with_reducible refine trainBridges_keeps h_bridge ?_

theorem wakeChans_keeps {x0} (h_hbm : w .hbm = true)
    (h : Keeps w k i s) : Keeps w k i (wakeChans x0 s) := by
  unfold wakeChans
  refine foldS_keeps (fun c _ ht => modChan_keeps h_hbm (fun hk x hx => ?_) ht) h
  have hm : sparseWf 0 (withTables s c x).mem = true := sparseWf_join (h.hbm hk (tablePeer c)) hx
  dsimp only
  repeat' split
  all_goals first
    | exact hx
    | exact hm

theorem wakeDone_keeps {x0} (h_counters : w .counters = true) (h_flags : w .flags = true) (h_log : w .log = true) (h_history : w .history = true) (h_power : w .power = true)
    (h : Keeps w k i s) : Keeps w k i (wakeDone x0 s) := by
  unfold wakeDone
  repeat' first
    | with_reducible assumption
    | (extract_lets +onlyGivenNames y0
       first
       | (refine_lift have hy0 : Keeps w k i y0 := ?_; ?_
          clear_value y0
          revert y0
          intro _ _
          rotate_left
          unfold y0
          clear y0)
       | (try clear_value y0
          revert y0
          intro _))
    | with_reducible refine beginDown_keeps h_counters h_flags h_log h_history h_power ?_
    | with_reducible refine count1_keeps h_counters ?_
    | with_reducible refine modPw_keeps h_power ?_
    | with_reducible refine setFlag_keeps h_counters h_flags h_log h_history ?_
    | with_reducible refine setPower_keeps h_counters h_flags h_log h_history h_power ?_
    | with_reducible refine Keeps.ite ?_ ?_

theorem wakePlls_keeps {x0} (h_power : w .power = true)
    (h : Keeps w k i s) : Keeps w k i (wakePlls x0 s) := by
  unfold wakePlls
  repeat' first
    | with_reducible assumption
    | with_reducible refine modPw_keeps h_power ?_

theorem wakeStepEffect_keeps {x0} (h_counters : w .counters = true) (h_flags : w .flags = true) (h_bridge : w .bridge = true) (h_mirror : w .mirror = true) (h_log : w .log = true) (h_rings : w .rings = true) (h_lanes : w .lanes = true) (h_groups : w .groups = true) (h_ports : w .ports = true) (h_ingress : w .ingress = true) (h_bufs : w .bufs = true) (h_accounts : w .accounts = true) (h_cipher : w .cipher = true) (h_hbm : w .hbm = true) (h_serdes : w .serdes = true) (h_fabric : w .fabric = true) (h_history : w .history = true) (h_power : w .power = true)
    (h : Keeps w k i s) : Keeps w k i (wakeStepEffect x0 s) := by
  unfold wakeStepEffect
  repeat' first
    | with_reducible assumption
    | (extract_lets +onlyGivenNames y0
       first
       | (refine_lift have hy0 : Keeps w k i y0 := ?_; ?_
          clear_value y0
          revert y0
          intro _ _
          rotate_left
          unfold y0
          clear y0)
       | (try clear_value y0
          revert y0
          intro _))
    | with_reducible refine darken_keeps h_counters h_flags h_bridge h_log h_rings h_lanes h_groups h_ports h_ingress h_bufs h_accounts h_cipher h_serdes h_fabric h_history ?_
    | with_reducible refine modPw_keeps h_power ?_
    | with_reducible refine wakeBridges_keeps h_counters h_flags h_bridge h_mirror h_log h_rings h_ports h_bufs h_history h_power ?_
    | with_reducible refine wakeChans_keeps h_hbm ?_
    | with_reducible refine wakeDone_keeps h_counters h_flags h_log h_history h_power ?_
    | with_reducible refine wakePlls_keeps h_power ?_
    | with_reducible refine Keeps.ite ?_ ?_
    | split

theorem abandonFlash_keeps (h_env : w .env = true) (h_bridge : w .bridge = true) (h_anchor : w .anchor = true) (h_mail : w .mail = true) (h_log : w .log = true) (h_image : w .image = true)
    (h : Keeps w k i s) : Keeps w k i (abandonFlash s) := by
  unfold abandonFlash
  repeat' first
    | with_reducible assumption
    | with_reducible refine finish_keeps h_env h_bridge h_anchor h_mail h_log ?_
    | with_reducible refine foldS_keeps (fun _ _ _ => ?_) ?_
    | with_reducible refine KeepsDone.mk ?_
    | with_reducible refine Keeps.set_fw (.inl h_image) (.inr ⟨rfl, rfl, rfl, rfl, rfl⟩) (.inr ⟨rfl, rfl⟩) (.inr ⟨rfl, rfl, rfl, rfl, rfl, rfl⟩) (.inr rfl) rfl ?_

theorem bootStart_keeps (h_serdes : w .serdes = true) (h_boot : w .boot = true) (h : Keeps w k i s) : Keeps w k i (bootStart s) := by
  unfold bootStart
  refine Keeps.ite h ?_
  exact Keeps.set_serdes (s := { s with fw := { s.fw with darkroom := true, drCause := bootCause s } }) h_serdes
    (Keeps.set_fw (.inr ⟨rfl, rfl, rfl, rfl, rfl, rfl, rfl, rfl⟩) (.inr ⟨rfl, rfl, rfl, rfl, rfl⟩)
      (.inr ⟨rfl, rfl⟩) (.inl h_boot) (.inr rfl) rfl h)

theorem darkLane_keeps {x0} (h_counters : w .counters = true) (h_flags : w .flags = true) (h_log : w .log = true) (h_rings : w .rings = true) (h_lanes : w .lanes = true) (h_groups : w .groups = true) (h_ports : w .ports = true) (h_bufs : w .bufs = true) (h_accounts : w .accounts = true) (h_slots : w .slots = true) (h_history : w .history = true)
    (h : Keeps w k i s) : Keeps w k i (darkLane x0 s) := by
  unfold darkLane
  repeat' first
    | with_reducible assumption
    | with_reducible refine loseDevelopedWhere_keeps h_counters h_flags h_log h_groups h_ports h_bufs h_accounts h_slots h_history ?_
    | with_reducible refine modLane_keeps h_lanes ?_
    | with_reducible refine truncateBurst_keeps h_counters h_flags h_log h_rings h_lanes h_groups h_ports h_bufs h_accounts h_slots h_history ?_
    | split

theorem deviceReset_keeps {b : Bool} {c : Nat} {t : Straps} (h_counters : w .counters = true) (h_flags : w .flags = true) (h_latches : w .latches = true) (h_bridge : w .bridge = true) (h_anchor : w .anchor = true) (h_mirror : w .mirror = true) (h_mail : w .mail = true) (h_log : w .log = true) (h_rings : w .rings = true) (h_lanes : w .lanes = true) (h_groups : w .groups = true) (h_filter : w .filter = true) (h_ports : w .ports = true) (h_ingress : w .ingress = true) (h_cls : w .cls = true) (h_bufs : w .bufs = true) (h_accounts : w .accounts = true) (h_policers : w .policers = true) (h_slots : w .slots = true) (h_keks : w .keks = true) (h_cipher : w .cipher = true) (h_time : w .time = true) (h_hbm : w .hbm = true) (h_serdes : w .serdes = true) (h_fabric : w .fabric = true) (h_image : w .image = true) (h_checkpoints : w .checkpoints = true) (h_sensors : w .sensors = true) (h_boot : w .boot = true) (h_history : w .history = true) (h_power : w .power = true) (h_pins : w .pins = true) (h : Keeps w k i s) :
    Keeps w k i (deviceReset b c t s) := by
  refine bootStart_keeps h_serdes h_boot ?_
  exact
  { ident := h.ident
    same := fun c hc => by
      cases c
      case now => exact h.same _ hc
      case env => exact h.same _ hc
      all_goals simp_all
    hbm := fun _ c => by
      show sparseWf 0 ((Vector.replicate 8 ({} : HbmChan))[c]).mem = true
      simp [sparseWf]
    regs := fun _ => ⟨rfl, rfl, rfl, fun _ => (by decide : 0 < 2 ^ 64), fun _ => (by decide : 0 ≤ 255), rfl⟩
    log := fun _ => Nat.zero_le _ }

theorem dropHeld_keeps {x0} (h_counters : w .counters = true) (h_flags : w .flags = true) (h_log : w .log = true) (h_rings : w .rings = true) (h_ports : w .ports = true) (h_bufs : w .bufs = true) (h_history : w .history = true)
    (h : Keeps w k i s) : Keeps w k i (dropHeld x0 s) := by
  unfold dropHeld
  repeat' first
    | with_reducible assumption
    | with_reducible refine count1_keeps h_counters ?_
    | with_reducible refine discard_keeps h_counters h_flags h_log h_rings h_ports h_bufs h_history ?_
    | with_reducible refine foldS_keeps (fun _ _ _ => ?_) ?_

theorem emptyFabric_keeps (h_counters : w .counters = true) (h_flags : w .flags = true) (h_log : w .log = true) (h_rings : w .rings = true) (h_ports : w .ports = true) (h_bufs : w .bufs = true) (h_fabric : w .fabric = true) (h_history : w .history = true)
    (h : Keeps w k i s) : Keeps w k i (emptyFabric s) := by
  unfold emptyFabric
  repeat' first
    | with_reducible assumption
    | (extract_lets +onlyGivenNames y0
       first
       | (refine_lift have hy0 : Keeps w k i y0 := ?_; ?_
          clear_value y0
          revert y0
          intro _ _
          rotate_left
          unfold y0
          clear y0)
       | (try clear_value y0
          revert y0
          intro _))
    | with_reducible refine dropHeld_keeps h_counters h_flags h_log h_rings h_ports h_bufs h_history ?_
    | with_reducible refine Keeps.set_fabric h_fabric ?_

theorem emptyGroup_keeps {x0} (h_counters : w .counters = true) (h_flags : w .flags = true) (h_log : w .log = true) (h_rings : w .rings = true) (h_ports : w .ports = true) (h_bufs : w .bufs = true) (h_accounts : w .accounts = true) (h_history : w .history = true)
    (h : Keeps w k i s) : Keeps w k i (emptyGroup x0 s) := by
  unfold emptyGroup
  repeat' first
    | with_reducible assumption
    | (extract_lets +onlyGivenNames y0
       first
       | (refine_lift have hy0 : Keeps w k i y0 := ?_; ?_
          clear_value y0
          revert y0
          intro _ _
          rotate_left
          unfold y0
          clear y0)
       | (have hy1 : PathAll := y0
          clear hy1
          revert y0
          intro _)
       | (try clear_value y0
          revert y0
          intro _))
    | with_reducible refine dropHeld_keeps h_counters h_flags h_log h_rings h_ports h_bufs h_history ?_
    | with_reducible refine modAcct_keeps h_accounts ?_
    | with_reducible refine foldS_keeps (fun _ _ _ => ?_) ?_
    | with_reducible refine Keeps.set_path (.inr ⟨rfl, rfl, rfl, rfl, rfl⟩) (.inr ⟨rfl, rfl⟩) (.inr ⟨rfl, rfl, rfl⟩) (.inr rfl) (.inl h_accounts) (.inr rfl) ?_

theorem emptyQueues_keeps {x0} (h_counters : w .counters = true) (h_flags : w .flags = true) (h_log : w .log = true) (h_rings : w .rings = true) (h_ports : w .ports = true) (h_bufs : w .bufs = true) (h_history : w .history = true)
    (h : Keeps w k i s) : Keeps w k i (emptyQueues x0 s) := by
  unfold emptyQueues
  repeat' first
    | with_reducible assumption
    | (extract_lets +onlyGivenNames y0
       first
       | (try clear_value y0
          revert y0
          intro _))
    | with_reducible refine dropHeld_keeps h_counters h_flags h_log h_rings h_ports h_bufs h_history ?_
    | with_reducible refine modPort_keeps h_ports ?_
    | with_reducible refine foldS_keeps (fun _ _ _ => ?_) ?_

theorem idleLanes_keeps (h_counters : w .counters = true) (h_flags : w .flags = true) (h_bridge : w .bridge = true) (h_log : w .log = true) (h_rings : w .rings = true) (h_lanes : w .lanes = true) (h_groups : w .groups = true) (h_ports : w .ports = true) (h_ingress : w .ingress = true) (h_bufs : w .bufs = true) (h_accounts : w .accounts = true) (h_cipher : w .cipher = true) (h_serdes : w .serdes = true) (h_fabric : w .fabric = true) (h_history : w .history = true)
    (h : Keeps w k i s) : Keeps w k i (idleLanes s) := by
  unfold idleLanes
  repeat' first
    | with_reducible assumption
    | with_reducible refine laneStart_keeps h_counters h_flags h_bridge h_log h_rings h_lanes h_groups h_ports h_ingress h_bufs h_accounts h_cipher h_serdes h_fabric h_history ?_
    | with_reducible refine modSerial_keeps h_serdes ?_
    | with_reducible refine foldS_keeps (fun _ _ _ => ?_) ?_

theorem noteReset_keeps {x0} (h_counters : w .counters = true) (h_flags : w .flags = true) (h_log : w .log = true) (h_history : w .history = true)
    (h : Keeps w k i s) : Keeps w k i (noteReset x0 s) := by
  unfold noteReset
  repeat' first
    | with_reducible assumption
    | with_reducible refine logEvent_keeps h_counters h_flags h_log h_history ?_

theorem perstEffect_keeps (h_env : w .env = true) (h_counters : w .counters = true) (h_flags : w .flags = true) (h_anchor : w .anchor = true) (h_mail : w .mail = true) (h_log : w .log = true) (h_rings : w .rings = true) (h_history : w .history = true)
    (h : Keeps w k i s) : Keeps w k i (perstEffect s) := by
  unfold perstEffect
  repeat' first
    | with_reducible assumption
    | with_reducible refine pcieDown_keeps h_env h_anchor h_mail h_log h_rings ?_
    | with_reducible refine setFlag_keeps h_counters h_flags h_log h_history ?_

theorem pinResetEffect_keeps {x0} (h_counters : w .counters = true) (h_flags : w .flags = true) (h_latches : w .latches = true) (h_bridge : w .bridge = true) (h_anchor : w .anchor = true) (h_mirror : w .mirror = true) (h_mail : w .mail = true) (h_log : w .log = true) (h_rings : w .rings = true) (h_lanes : w .lanes = true) (h_groups : w .groups = true) (h_filter : w .filter = true) (h_ports : w .ports = true) (h_ingress : w .ingress = true) (h_cls : w .cls = true) (h_bufs : w .bufs = true) (h_accounts : w .accounts = true) (h_policers : w .policers = true) (h_slots : w .slots = true) (h_keks : w .keks = true) (h_cipher : w .cipher = true) (h_time : w .time = true) (h_hbm : w .hbm = true) (h_serdes : w .serdes = true) (h_fabric : w .fabric = true) (h_image : w .image = true) (h_checkpoints : w .checkpoints = true) (h_sensors : w .sensors = true) (h_boot : w .boot = true) (h_history : w .history = true) (h_power : w .power = true) (h_pins : w .pins = true)
    (h : Keeps w k i s) : Keeps w k i (pinResetEffect x0 s) := by
  unfold pinResetEffect
  repeat' first
    | with_reducible assumption
    | with_reducible refine deviceReset_keeps h_counters h_flags h_latches h_bridge h_anchor h_mirror h_mail h_log h_rings h_lanes h_groups h_filter h_ports h_ingress h_cls h_bufs h_accounts h_policers h_slots h_keks h_cipher h_time h_hbm h_serdes h_fabric h_image h_checkpoints h_sensors h_boot h_history h_power h_pins ?_

theorem powerOnResetEffect_keeps {x0} (h_counters : w .counters = true) (h_flags : w .flags = true) (h_latches : w .latches = true) (h_bridge : w .bridge = true) (h_anchor : w .anchor = true) (h_mirror : w .mirror = true) (h_mail : w .mail = true) (h_log : w .log = true) (h_rings : w .rings = true) (h_lanes : w .lanes = true) (h_groups : w .groups = true) (h_filter : w .filter = true) (h_ports : w .ports = true) (h_ingress : w .ingress = true) (h_cls : w .cls = true) (h_bufs : w .bufs = true) (h_accounts : w .accounts = true) (h_policers : w .policers = true) (h_slots : w .slots = true) (h_keks : w .keks = true) (h_cipher : w .cipher = true) (h_time : w .time = true) (h_hbm : w .hbm = true) (h_serdes : w .serdes = true) (h_fabric : w .fabric = true) (h_image : w .image = true) (h_checkpoints : w .checkpoints = true) (h_sensors : w .sensors = true) (h_boot : w .boot = true) (h_history : w .history = true) (h_power : w .power = true) (h_pins : w .pins = true)
    (h : Keeps w k i s) : Keeps w k i (powerOnResetEffect x0 s) := by
  unfold powerOnResetEffect
  repeat' first
    | with_reducible assumption
    | with_reducible refine deviceReset_keeps h_counters h_flags h_latches h_bridge h_anchor h_mirror h_mail h_log h_rings h_lanes h_groups h_filter h_ports h_ingress h_cls h_bufs h_accounts h_policers h_slots h_keks h_cipher h_time h_hbm h_serdes h_fabric h_image h_checkpoints h_sensors h_boot h_history h_power h_pins ?_

theorem presenceReturnEffect_keeps {x0} (h_counters : w .counters = true) (h_flags : w .flags = true) (h_latches : w .latches = true) (h_bridge : w .bridge = true) (h_anchor : w .anchor = true) (h_mirror : w .mirror = true) (h_mail : w .mail = true) (h_log : w .log = true) (h_rings : w .rings = true) (h_lanes : w .lanes = true) (h_groups : w .groups = true) (h_filter : w .filter = true) (h_ports : w .ports = true) (h_ingress : w .ingress = true) (h_cls : w .cls = true) (h_bufs : w .bufs = true) (h_accounts : w .accounts = true) (h_policers : w .policers = true) (h_slots : w .slots = true) (h_keks : w .keks = true) (h_cipher : w .cipher = true) (h_time : w .time = true) (h_hbm : w .hbm = true) (h_serdes : w .serdes = true) (h_fabric : w .fabric = true) (h_image : w .image = true) (h_checkpoints : w .checkpoints = true) (h_sensors : w .sensors = true) (h_boot : w .boot = true) (h_history : w .history = true) (h_power : w .power = true) (h_pins : w .pins = true)
    (h : Keeps w k i s) : Keeps w k i (presenceReturnEffect x0 s) := by
  unfold presenceReturnEffect
  repeat' first
    | with_reducible assumption
    | with_reducible refine deviceReset_keeps h_counters h_flags h_latches h_bridge h_anchor h_mirror h_mail h_log h_rings h_lanes h_groups h_filter h_ports h_ingress h_cls h_bufs h_accounts h_policers h_slots h_keks h_cipher h_time h_hbm h_serdes h_fabric h_image h_checkpoints h_sensors h_boot h_history h_power h_pins ?_

theorem quarantine_keeps {x0 x1} (h_counters : w .counters = true) (h_flags : w .flags = true) (h_log : w .log = true) (h_history : w .history = true) (h_power : w .power = true)
    (h : Keeps w k i s) : Keeps w k i (quarantine x0 x1 s) := by
  unfold quarantine
  repeat' first
    | with_reducible assumption
    | (extract_lets +onlyGivenNames y0
       first
       | (refine_lift have hy0 : Keeps w k i y0 := ?_; ?_
          clear_value y0
          revert y0
          intro _ _
          rotate_left
          unfold y0
          clear y0)
       | (try clear_value y0
          revert y0
          intro _))
    | with_reducible refine logEvent_keeps h_counters h_flags h_log h_history ?_
    | with_reducible refine modPw_keeps h_power ?_
    | with_reducible refine setFlag_keeps h_counters h_flags h_log h_history ?_

theorem quarantineExitEffect_keeps {x0 x1} (h_power : w .power = true)
    (h : Keeps w k i s) : Keeps w k i (quarantineExitEffect x0 x1 s) := by
  unfold quarantineExitEffect
  repeat' first
    | with_reducible assumption
    | with_reducible refine modPw_keeps h_power ?_

theorem removalEffect_keeps (h_env : w .env = true) (h_counters : w .counters = true) (h_flags : w .flags = true) (h_bridge : w .bridge = true) (h_anchor : w .anchor = true) (h_mail : w .mail = true) (h_log : w .log = true) (h_rings : w .rings = true) (h_lanes : w .lanes = true) (h_groups : w .groups = true) (h_ports : w .ports = true) (h_ingress : w .ingress = true) (h_bufs : w .bufs = true) (h_accounts : w .accounts = true) (h_slots : w .slots = true) (h_cipher : w .cipher = true) (h_serdes : w .serdes = true) (h_fabric : w .fabric = true) (h_image : w .image = true) (h_history : w .history = true) (h_pins : w .pins = true)
    (h : Keeps w k i s) : Keeps w k i (removalEffect s) := by
  unfold removalEffect
  repeat' first
    | with_reducible assumption
    | (extract_lets +onlyGivenNames y0
       first
       | (refine_lift have hy0 : Keeps w k i y0 := ?_; ?_
          clear_value y0
          revert y0
          intro _ _
          rotate_left
          unfold y0
          clear y0)
       | (try clear_value y0
          revert y0
          intro _))
    | with_reducible refine abandonFlash_keeps h_env h_bridge h_anchor h_mail h_log h_image ?_
    | with_reducible refine darkLane_keeps h_counters h_flags h_log h_rings h_lanes h_groups h_ports h_bufs h_accounts h_slots h_history ?_
    | with_reducible refine idleLanes_keeps h_counters h_flags h_bridge h_log h_rings h_lanes h_groups h_ports h_ingress h_bufs h_accounts h_cipher h_serdes h_fabric h_history ?_
    | with_reducible refine logEvent_keeps h_counters h_flags h_log h_history ?_
    | with_reducible refine setFlag_keeps h_counters h_flags h_log h_history ?_
    | with_reducible refine foldS_keeps (fun _ _ _ => ?_) ?_
    | with_reducible refine Keeps.set_pins h_pins ?_

theorem resetChans_keeps {x0} (h_accounts : w .accounts = true) (h_hbm : w .hbm = true) (h_history : w .history = true)
    (h : Keeps w k i s) : Keeps w k i (resetChans x0 s) := by
  unfold resetChans
  repeat' first
    | with_reducible assumption
    | with_reducible refine loseHistory_keeps h_history ?_
    | with_reducible refine losePages_keeps h_accounts ?_
    | with_reducible refine modChan_keeps h_hbm ?_ ?_
    | with_reducible refine foldS_keeps (fun _ _ _ => ?_) ?_
    | (intro _ x hx
       try dsimp only
       repeat' split
       all_goals first
         | exact hx
         | rfl
         | simpa using hx)
    | exact fun _ hc => hc
    | exact fun _ _ hx => hx

theorem resetCompleteEffect_keeps {x0} (h_env : w .env = true) (h_bridge : w .bridge = true) (h_anchor : w .anchor = true) (h_mail : w .mail = true) (h_log : w .log = true)
    (h : Keeps w k i s) : Keeps w k i (resetCompleteEffect x0 s) := by
  unfold resetCompleteEffect
  repeat' first
    | with_reducible assumption
    | with_reducible refine finish_keeps h_env h_bridge h_anchor h_mail h_log ?_
    | with_reducible refine okDone_keeps ?_
    | with_reducible refine KeepsDone.mk ?_

theorem resetFunction_keeps {x0 x1 x2} (h_counters : w .counters = true) (h_flags : w .flags = true) (h_latches : w .latches = true) (h_bridge : w .bridge = true) (h_log : w .log = true) (h_rings : w .rings = true) (h_ports : w .ports = true) (h_ingress : w .ingress = true) (h_cls : w .cls = true) (h_bufs : w .bufs = true) (h_accounts : w .accounts = true) (h_fabric : w .fabric = true) (h_history : w .history = true)
    (h : Keeps w k i s) : Keeps w k i (resetFunction x0 x1 x2 s) := by
  unfold resetFunction
  repeat' first
    | with_reducible assumption
    | (extract_lets +onlyGivenNames y0
       first
       | (refine_lift have hy0 : Keeps w k i y0 := ?_; ?_
          clear_value y0
          revert y0
          intro _ _
          rotate_left
          unfold y0
          clear y0)
       | (have hy1 : PathAll := y0
          clear hy1
          revert y0
          intro _)
       | (try clear_value y0
          revert y0
          intro _))
    | with_reducible refine clearRegs_keeps h_counters h_flags h_latches ?_
    | with_reducible refine count_keeps h_counters ?_
    | with_reducible refine dropHeld_keeps h_counters h_flags h_log h_rings h_ports h_bufs h_history ?_
    | with_reducible refine dropOwed_keeps h_rings ?_
    | with_reducible refine emptyFabric_keeps h_counters h_flags h_log h_rings h_ports h_bufs h_fabric h_history ?_
    | with_reducible refine emptyGroup_keeps h_counters h_flags h_log h_rings h_ports h_bufs h_accounts h_history ?_
    | with_reducible refine emptyQueues_keeps h_counters h_flags h_log h_rings h_ports h_bufs h_history ?_
    | with_reducible refine keepPath_keeps h_bridge h_rings h_ports h_ingress h_cls h_accounts h_fabric ?_
    | with_reducible refine modBuf_keeps h_bufs ?_
    | with_reducible refine foldS_keeps (fun _ _ _ => ?_) ?_
    | split
    | with_reducible refine Keeps.set_path (.inr ⟨rfl, rfl, rfl, rfl, rfl⟩) (.inl h_ingress) (.inr ⟨rfl, rfl, rfl⟩) (.inr rfl) (.inr ⟨rfl, rfl, rfl, rfl, rfl, rfl, rfl, rfl⟩) (.inr rfl) ?_

theorem resetHalf_keeps {x0} (h_anchor : w .anchor = true)
    (h : Keeps w k i s) : Keeps w k i (resetHalf x0 s) := by
  unfold resetHalf
  repeat' first
    | with_reducible assumption
    | (extract_lets +onlyGivenNames y0
       first
       | (refine_lift have hy0 : Keeps w k i y0 := ?_; ?_
          clear_value y0
          revert y0
          intro _ _
          rotate_left
          unfold y0
          clear y0)
       | (try clear_value y0
          revert y0
          intro _))
    | with_reducible refine modCap_keeps h_anchor ?_
    | with_reducible refine setAnchor_keeps h_anchor ?_
    | with_reducible refine setDrive_keeps h_anchor ?_
    | with_reducible refine Keeps.ite ?_ ?_
    | with_reducible refine Keeps.dite (fun _ => ?_) (fun _ => ?_)
    | split
    | with_reducible refine Keeps.set_anchor h_anchor ?_

theorem resetLanes_keeps {x0} (h_counters : w .counters = true) (h_flags : w .flags = true) (h_bridge : w .bridge = true) (h_log : w .log = true) (h_rings : w .rings = true) (h_lanes : w .lanes = true) (h_groups : w .groups = true) (h_ports : w .ports = true) (h_ingress : w .ingress = true) (h_bufs : w .bufs = true) (h_accounts : w .accounts = true) (h_cipher : w .cipher = true) (h_serdes : w .serdes = true) (h_fabric : w .fabric = true) (h_history : w .history = true)
    (h : Keeps w k i s) : Keeps w k i (resetLanes x0 s) := by
  unfold resetLanes
  repeat' first
    | with_reducible assumption
    | (extract_lets +onlyGivenNames y0
       first
       | (refine_lift have hy0 : Keeps w k i y0 := ?_; ?_
          clear_value y0
          revert y0
          intro _ _
          rotate_left
          unfold y0
          clear y0)
       | (try clear_value y0
          revert y0
          intro _))
    | with_reducible refine darken_keeps h_counters h_flags h_bridge h_log h_rings h_lanes h_groups h_ports h_ingress h_bufs h_accounts h_cipher h_serdes h_fabric h_history ?_
    | with_reducible refine modSerial_keeps h_serdes ?_
    | with_reducible refine foldS_keeps (fun _ _ _ => ?_) ?_

theorem resetSlice_keeps {x0 x1} (h_counters : w .counters = true) (h_flags : w .flags = true) (h_latches : w .latches = true) (h_bridge : w .bridge = true) (h_anchor : w .anchor = true) (h_mirror : w .mirror = true) (h_log : w .log = true) (h_rings : w .rings = true) (h_lanes : w .lanes = true) (h_groups : w .groups = true) (h_ports : w .ports = true) (h_ingress : w .ingress = true) (h_cls : w .cls = true) (h_bufs : w .bufs = true) (h_accounts : w .accounts = true) (h_slots : w .slots = true) (h_cipher : w .cipher = true) (h_hbm : w .hbm = true) (h_serdes : w .serdes = true) (h_fabric : w .fabric = true) (h_history : w .history = true) (h_power : w .power = true)
    (h : Keeps w k i s) : Keeps w k i (resetSlice x0 x1 s) := by
  unfold resetSlice
  repeat' first
    | with_reducible assumption
    | (extract_lets +onlyGivenNames y0
       first
       | (refine_lift have hy0 : Keeps w k i y0 := ?_; ?_
          clear_value y0
          revert y0
          intro _ _
          rotate_left
          unfold y0
          clear y0)
       | (try clear_value y0
          revert y0
          intro _))
    | with_reducible refine abortTransfers_keeps h_bridge h_accounts h_hbm ?_
    | with_reducible refine clearSlice_keeps h_counters h_flags h_latches h_bridge h_log h_rings h_lanes h_groups h_ports h_ingress h_cls h_bufs h_accounts h_slots h_cipher h_fabric h_history ?_
    | with_reducible refine dropBridges_keeps h_bridge ?_
    | with_reducible refine linkChange_keeps h_counters h_flags h_bridge h_mirror h_log h_rings h_ports h_bufs h_history (fun _ _ => ?_) ?_
    | with_reducible refine modPw_keeps h_power ?_
    | with_reducible refine quarantine_keeps h_counters h_flags h_log h_history h_power ?_
    | with_reducible refine resetChans_keeps h_accounts h_hbm h_history ?_
    | with_reducible refine resetHalf_keeps h_anchor ?_
    | with_reducible refine resetLanes_keeps h_counters h_flags h_bridge h_log h_rings h_lanes h_groups h_ports h_ingress h_bufs h_accounts h_cipher h_serdes h_fabric h_history ?_
    | with_reducible refine setPower_keeps h_counters h_flags h_log h_history h_power ?_
    | with_reducible refine Keeps.ite ?_ ?_

theorem resetIssueStart_keeps {x0 x1} (h_env : w .env = true) (h_counters : w .counters = true) (h_flags : w .flags = true) (h_latches : w .latches = true) (h_bridge : w .bridge = true) (h_anchor : w .anchor = true) (h_mirror : w .mirror = true) (h_mail : w .mail = true) (h_log : w .log = true) (h_rings : w .rings = true) (h_lanes : w .lanes = true) (h_groups : w .groups = true) (h_filter : w .filter = true) (h_ports : w .ports = true) (h_ingress : w .ingress = true) (h_cls : w .cls = true) (h_bufs : w .bufs = true) (h_accounts : w .accounts = true) (h_policers : w .policers = true) (h_slots : w .slots = true) (h_keks : w .keks = true) (h_cipher : w .cipher = true) (h_time : w .time = true) (h_hbm : w .hbm = true) (h_serdes : w .serdes = true) (h_fabric : w .fabric = true) (h_image : w .image = true) (h_checkpoints : w .checkpoints = true) (h_sensors : w .sensors = true) (h_boot : w .boot = true) (h_history : w .history = true) (h_power : w .power = true) (h_pins : w .pins = true)
    (h : Keeps w k i s) : Keeps w k i (resetIssueStart x0 x1 s) := by
  unfold resetIssueStart
  repeat' first
    | with_reducible assumption
    | (extract_lets +onlyGivenNames y0
       first
       | (refine_lift have hy0 : Keeps w k i y0 := ?_; ?_
          clear_value y0
          revert y0
          intro _ _
          rotate_left
          unfold y0
          clear y0)
       | (try clear_value y0
          revert y0
          intro _))
    | with_reducible refine deviceReset_keeps h_counters h_flags h_latches h_bridge h_anchor h_mirror h_mail h_log h_rings h_lanes h_groups h_filter h_ports h_ingress h_cls h_bufs h_accounts h_policers h_slots h_keks h_cipher h_time h_hbm h_serdes h_fabric h_image h_checkpoints h_sensors h_boot h_history h_power h_pins ?_
    | with_reducible refine finish_keeps h_env h_bridge h_anchor h_mail h_log ?_
    | with_reducible refine noteReset_keeps h_counters h_flags h_log h_history ?_
    | with_reducible refine okDone_keeps ?_
    | with_reducible refine quarantine_keeps h_counters h_flags h_log h_history h_power ?_
    | with_reducible refine resetFunction_keeps h_counters h_flags h_latches h_bridge h_log h_rings h_ports h_ingress h_cls h_bufs h_accounts h_fabric h_history ?_
    | with_reducible refine resetSlice_keeps h_counters h_flags h_latches h_bridge h_anchor h_mirror h_log h_rings h_lanes h_groups h_ports h_ingress h_cls h_bufs h_accounts h_slots h_cipher h_hbm h_serdes h_fabric h_history h_power ?_
    | with_reducible refine setLong_keeps h_mail ?_
    | split
    | with_reducible refine KeepsDone.mk ?_

theorem sliceResetEffect_keeps {x0} (h_counters : w .counters = true) (h_flags : w .flags = true) (h_latches : w .latches = true) (h_bridge : w .bridge = true) (h_anchor : w .anchor = true) (h_mirror : w .mirror = true) (h_log : w .log = true) (h_rings : w .rings = true) (h_lanes : w .lanes = true) (h_groups : w .groups = true) (h_ports : w .ports = true) (h_ingress : w .ingress = true) (h_cls : w .cls = true) (h_bufs : w .bufs = true) (h_accounts : w .accounts = true) (h_slots : w .slots = true) (h_cipher : w .cipher = true) (h_hbm : w .hbm = true) (h_serdes : w .serdes = true) (h_fabric : w .fabric = true) (h_history : w .history = true) (h_power : w .power = true)
    (h : Keeps w k i s) : Keeps w k i (sliceResetEffect x0 s) := by
  unfold sliceResetEffect
  repeat' first
    | with_reducible assumption
    | with_reducible refine resetSlice_keeps h_counters h_flags h_latches h_bridge h_anchor h_mirror h_log h_rings h_lanes h_groups h_ports h_ingress h_cls h_bufs h_accounts h_slots h_cipher h_hbm h_serdes h_fabric h_history h_power ?_

theorem activated_keeps {x0} (h_env : w .env = true) (h_counters : w .counters = true) (h_flags : w .flags = true) (h_bridge : w .bridge = true) (h_anchor : w .anchor = true) (h_mail : w .mail = true) (h_log : w .log = true) (h_image : w .image = true) (h_history : w .history = true)
    (h : Keeps w k i s) : Keeps w k i (activated x0 s) := by
  unfold activated
  repeat' first
    | with_reducible assumption
    | (extract_lets +onlyGivenNames y0
       first
       | (refine_lift have hy0 : Keeps w k i y0 := ?_; ?_
          clear_value y0
          revert y0
          intro _ _
          rotate_left
          unfold y0
          clear y0)
       | (have hy1 : FwAll := y0
          clear hy1
          revert y0
          intro _)
       | (try clear_value y0
          revert y0
          intro _))
    | with_reducible refine finish_keeps h_env h_bridge h_anchor h_mail h_log ?_
    | with_reducible refine logEvent_keeps h_counters h_flags h_log h_history ?_
    | with_reducible refine okDone_keeps ?_
    | with_reducible refine setFlag_keeps h_counters h_flags h_log h_history ?_
    | with_reducible refine writeDir_keeps h_image ?_
    | with_reducible refine Keeps.ite ?_ ?_
    | split
    | with_reducible refine KeepsDone.mk ?_
    | with_reducible refine Keeps.set_fw (.inl h_image) (.inr ⟨rfl, rfl, rfl, rfl, rfl⟩) (.inr ⟨rfl, rfl⟩) (.inr ⟨rfl, rfl, rfl, rfl, rfl, rfl⟩) (.inr rfl) rfl ?_

theorem restartDeputy_keeps (h_anchor : w .anchor = true)
    (h : Keeps w k i s) : Keeps w k i (restartDeputy s) := by
  unfold restartDeputy
  repeat' first
    | with_reducible assumption
    | with_reducible refine Keeps.set_anchor h_anchor ?_

theorem toStep_keeps {x0} (h_image : w .image = true)
    (h : Keeps w k i s) : Keeps w k i (toStep x0 s) := by
  unfold toStep
  repeat' first
    | with_reducible assumption
    | with_reducible refine Keeps.set_fw (.inl h_image) (.inr ⟨rfl, rfl, rfl, rfl, rfl⟩) (.inr ⟨rfl, rfl⟩) (.inr ⟨rfl, rfl, rfl, rfl, rfl, rfl⟩) (.inr rfl) rfl ?_

theorem advance_keeps {x0} (h_env : w .env = true) (h_counters : w .counters = true) (h_flags : w .flags = true) (h_bridge : w .bridge = true) (h_anchor : w .anchor = true) (h_mail : w .mail = true) (h_log : w .log = true) (h_image : w .image = true) (h_history : w .history = true)
    (h : Keeps w k i s) : Keeps w k i (advance x0 s) := by
  unfold advance
  repeat' first
    | with_reducible assumption
    | with_reducible refine activated_keeps h_env h_counters h_flags h_bridge h_anchor h_mail h_log h_image h_history ?_
    | with_reducible refine modCap_keeps h_anchor ?_
    | with_reducible refine restartDeputy_keeps h_anchor ?_
    | with_reducible refine toStep_keeps h_image ?_
    | with_reducible refine Keeps.ite ?_ ?_
    | split
    | with_reducible refine Keeps.set_fw (.inl h_image) (.inr ⟨rfl, rfl, rfl, rfl, rfl⟩) (.inr ⟨rfl, rfl⟩) (.inr ⟨rfl, rfl, rfl, rfl, rfl, rfl⟩) (.inr rfl) rfl ?_

theorem activationStepEffect_keeps {x0} (h_env : w .env = true) (h_counters : w .counters = true) (h_flags : w .flags = true) (h_bridge : w .bridge = true) (h_anchor : w .anchor = true) (h_mail : w .mail = true) (h_log : w .log = true) (h_image : w .image = true) (h_history : w .history = true)
    (h : Keeps w k i s) : Keeps w k i (activationStepEffect x0 s) := by
  unfold activationStepEffect
  repeat' first
    | with_reducible assumption
    | with_reducible refine advance_keeps h_env h_counters h_flags h_bridge h_anchor h_mail h_log h_image h_history ?_
    | with_reducible refine finish_keeps h_env h_bridge h_anchor h_mail h_log ?_
    | with_reducible refine rollBack_keeps h_counters h_flags h_log h_image h_history ?_
    | with_reducible refine Keeps.ite ?_ ?_
    | split
    | with_reducible refine KeepsDone.mk ?_

theorem beginActivation_keeps {x0 x1 x2} (h_mail : w .mail = true) (h_image : w .image = true)
    (h : Keeps w k i s) : Keeps w k i (beginActivation x0 x1 x2 s) := by
  unfold beginActivation
  repeat' first
    | with_reducible assumption
    | (extract_lets +onlyGivenNames y0
       first
       | (have hy1 : FwAll := y0
          clear hy1
          revert y0
          intro _)
       | (try clear_value y0
          revert y0
          intro _))
    | with_reducible refine setLong_keeps h_mail ?_
    | with_reducible refine Keeps.ite ?_ ?_
    | split
    | with_reducible refine Keeps.set_fw (.inl h_image) (.inr ⟨rfl, rfl, rfl, rfl, rfl⟩) (.inr ⟨rfl, rfl⟩) (.inr ⟨rfl, rfl, rfl, rfl, rfl, rfl⟩) (.inr rfl) rfl ?_

theorem passSlot_keeps (h_checkpoints : w .checkpoints = true)
    (h : Keeps w k i s) : Keeps w k i (passSlot s) := by
  unfold passSlot
  repeat' first
    | with_reducible assumption
    | with_reducible refine Keeps.set_fw (.inr ⟨rfl, rfl, rfl, rfl, rfl, rfl, rfl, rfl⟩) (.inl h_checkpoints) (.inr ⟨rfl, rfl⟩) (.inr ⟨rfl, rfl, rfl, rfl, rfl, rfl⟩) (.inr rfl) rfl ?_

theorem checkpointEffect_keeps {x0} (h_counters : w .counters = true) (h_flags : w .flags = true) (h_log : w .log = true) (h_checkpoints : w .checkpoints = true) (h_history : w .history = true)
    (h : Keeps w k i s) : Keeps w k i (checkpointEffect x0 s) := by
  unfold checkpointEffect
  repeat' first
    | with_reducible assumption
    | (extract_lets +onlyGivenNames y0
       first
       | (refine_lift have hy0 : Keeps w k i y0 := ?_; ?_
          clear_value y0
          revert y0
          intro _ _
          rotate_left
          unfold y0
          clear y0)
       | (have hy1 : FwAll := y0
          clear hy1
          revert y0
          intro _)
       | (try clear_value y0
          revert y0
          intro _))
    | with_reducible refine logEvent_keeps h_counters h_flags h_log h_history ?_
    | with_reducible refine passSlot_keeps h_checkpoints ?_
    | with_reducible refine setFlag_keeps h_counters h_flags h_log h_history ?_
    | with_reducible refine Keeps.ite ?_ ?_
    | split
    | with_reducible refine Keeps.set_fw (.inr ⟨rfl, rfl, rfl, rfl, rfl, rfl, rfl, rfl⟩) (.inl h_checkpoints) (.inr ⟨rfl, rfl⟩) (.inr ⟨rfl, rfl, rfl, rfl, rfl, rfl⟩) (.inr rfl) rfl ?_

theorem firmwareReadyEffect_keeps (h_counters : w .counters = true) (h_flags : w .flags = true) (h_log : w .log = true) (h_serdes : w .serdes = true) (h_image : w .image = true) (h_boot : w .boot = true) (h_history : w .history = true)
    (h : Keeps w k i s) : Keeps w k i (firmwareReadyEffect s) := by
  unfold firmwareReadyEffect
  repeat' first
    | with_reducible assumption
    | (extract_lets +onlyGivenNames y0
       first
       | (refine_lift have hy0 : Keeps w k i y0 := ?_; ?_
          clear_value y0
          revert y0
          intro _ _
          rotate_left
          unfold y0
          clear y0)
       | (have hy1 : FwAll := y0
          clear hy1
          revert y0
          intro _)
       | (try clear_value y0
          revert y0
          intro _))
    | with_reducible refine logEvent_keeps h_counters h_flags h_log h_history ?_
    | with_reducible refine readTable_keeps h_counters h_flags h_log h_serdes h_history ?_
    | with_reducible refine Keeps.set_fw (.inl h_image) (.inr ⟨rfl, rfl, rfl, rfl, rfl⟩) (.inr ⟨rfl, rfl⟩) (.inl h_boot) (.inr rfl) rfl ?_

theorem fuseReadApply_keeps {x0} 
    (h : Keeps w k i s) : KeepsDone w k i (fuseReadApply x0 s) := by
  unfold fuseReadApply
  repeat' first
    | with_reducible assumption
    | (extract_lets +onlyGivenNames y0
       first
       | (try clear_value y0
          revert y0
          intro _))
    | with_reducible refine KeepsDone.mk ?_

theorem fwActivateStart_keeps {x0 x1} (h_env : w .env = true) (h_counters : w .counters = true) (h_flags : w .flags = true) (h_latches : w .latches = true) (h_bridge : w .bridge = true) (h_anchor : w .anchor = true) (h_mirror : w .mirror = true) (h_mail : w .mail = true) (h_log : w .log = true) (h_rings : w .rings = true) (h_lanes : w .lanes = true) (h_groups : w .groups = true) (h_filter : w .filter = true) (h_ports : w .ports = true) (h_ingress : w .ingress = true) (h_cls : w .cls = true) (h_bufs : w .bufs = true) (h_accounts : w .accounts = true) (h_policers : w .policers = true) (h_slots : w .slots = true) (h_keks : w .keks = true) (h_cipher : w .cipher = true) (h_time : w .time = true) (h_hbm : w .hbm = true) (h_serdes : w .serdes = true) (h_fabric : w .fabric = true) (h_image : w .image = true) (h_checkpoints : w .checkpoints = true) (h_sensors : w .sensors = true) (h_boot : w .boot = true) (h_history : w .history = true) (h_power : w .power = true) (h_pins : w .pins = true)
    (h : Keeps w k i s) : Keeps w k i (fwActivateStart x0 x1 s) := by
  unfold fwActivateStart
  repeat' first
    | with_reducible assumption
    | (extract_lets +onlyGivenNames y0
       first
       | (refine_lift have hy0 : Keeps w k i y0 := ?_; ?_
          clear_value y0
          revert y0
          intro _ _
          rotate_left
          unfold y0
          clear y0)
       | (try clear_value y0
          revert y0
          intro _))
    | with_reducible refine beginActivation_keeps h_mail h_image ?_
    | with_reducible refine deviceReset_keeps h_counters h_flags h_latches h_bridge h_anchor h_mirror h_mail h_log h_rings h_lanes h_groups h_filter h_ports h_ingress h_cls h_bufs h_accounts h_policers h_slots h_keks h_cipher h_time h_hbm h_serdes h_fabric h_image h_checkpoints h_sensors h_boot h_history h_power h_pins ?_
    | with_reducible refine finish_keeps h_env h_bridge h_anchor h_mail h_log ?_
    | with_reducible refine okDone_keeps ?_
    | with_reducible refine writeDir_keeps h_image ?_
    | with_reducible refine Keeps.ite ?_ ?_
    | split
    | with_reducible refine KeepsDone.mk ?_

theorem judgeImage_keeps (h_counters : w .counters = true) (h_flags : w .flags = true) (h_log : w .log = true) (h_image : w .image = true) (h_history : w .history = true)
    (h : Keeps w k i s) : KeepsDone w k i (judgeImage s) := by
  unfold judgeImage
  repeat' first
    | with_reducible assumption
    | (extract_lets +onlyGivenNames y0
       first
       | (refine_lift have hy0 : Keeps w k i y0 := ?_; ?_
          clear_value y0
          revert y0
          intro _ _
          rotate_left
          unfold y0
          clear y0)
       | (refine_lift have hy0 : KeepsDone w k i y0 := ?_; ?_
          clear_value y0
          revert y0
          intro _ _
          rotate_left
          unfold y0
          clear y0)
       | (have hy1 : FwAll := y0
          clear hy1
          revert y0
          intro _)
       | (try clear_value y0
          revert y0
          intro _))
    | with_reducible refine logEvent_keeps h_counters h_flags h_log h_history ?_
    | with_reducible refine okDone_keeps ?_
    | with_reducible refine setFlag_keeps h_counters h_flags h_log h_history ?_
    | with_reducible refine writeDir_keeps h_image ?_
    | split
    | with_reducible refine KeepsDone.mk ?_
    | with_reducible refine Keeps.set_fw (.inl h_image) (.inr ⟨rfl, rfl, rfl, rfl, rfl⟩) (.inr ⟨rfl, rfl⟩) (.inr ⟨rfl, rfl, rfl, rfl, rfl, rfl⟩) (.inr rfl) rfl ?_

theorem storeChunk_keeps {x0} (h_image : w .image = true)
    (h : Keeps w k i s) : Keeps w k i (storeChunk x0 s) := by
  unfold storeChunk
  repeat' first
    | with_reducible assumption
    | (extract_lets +onlyGivenNames y0
       first
       | (refine_lift have hy0 : Keeps w k i y0 := ?_; ?_
          clear_value y0
          revert y0
          intro _ _
          rotate_left
          unfold y0
          clear y0)
       | (have hy1 : FwAll := y0
          clear hy1
          revert y0
          intro _)
       | (try clear_value y0
          revert y0
          intro _))
    | with_reducible refine Keeps.ite ?_ ?_
    | split
    | with_reducible refine Keeps.set_fw (.inl h_image) (.inr ⟨rfl, rfl, rfl, rfl, rfl⟩) (.inr ⟨rfl, rfl⟩) (.inr ⟨rfl, rfl, rfl, rfl, rfl, rfl⟩) (.inr rfl) rfl ?_

theorem fwStageCompleteEffect_keeps {x0} (h_env : w .env = true) (h_counters : w .counters = true) (h_flags : w .flags = true) (h_bridge : w .bridge = true) (h_anchor : w .anchor = true) (h_mail : w .mail = true) (h_log : w .log = true) (h_image : w .image = true) (h_history : w .history = true)
    (h : Keeps w k i s) : Keeps w k i (fwStageCompleteEffect x0 s) := by
  unfold fwStageCompleteEffect
  repeat' first
    | with_reducible assumption
    | (extract_lets +onlyGivenNames y0
       first
       | (refine_lift have hy0 : Keeps w k i y0 := ?_; ?_
          clear_value y0
          revert y0
          intro _ _
          rotate_left
          unfold y0
          clear y0)
       | (refine_lift have hy0 : KeepsDone w k i y0 := ?_; ?_
          clear_value y0
          revert y0
          intro _ _
          rotate_left
          unfold y0
          clear y0)
       | (try clear_value y0
          revert y0
          intro _))
    | with_reducible refine finish_keeps h_env h_bridge h_anchor h_mail h_log ?_
    | with_reducible refine judgeImage_keeps h_counters h_flags h_log h_image h_history ?_
    | with_reducible refine okDone_keeps ?_
    | with_reducible refine storeChunk_keeps h_image ?_
    | with_reducible refine Keeps.ite ?_ ?_
    | split
    | with_reducible refine KeepsDone.mk ?_

theorem fwStageStart_keeps {x0 x1} (h_mail : w .mail = true) (h_image : w .image = true)
    (h : Keeps w k i s) : Keeps w k i (fwStageStart x0 x1 s) := by
  unfold fwStageStart
  repeat' first
    | with_reducible assumption
    | (extract_lets +onlyGivenNames y0
       first
       | (refine_lift have hy0 : Keeps w k i y0 := ?_; ?_
          clear_value y0
          revert y0
          intro _ _
          rotate_left
          unfold y0
          clear y0)
       | (have hy1 : FwAll := y0
          clear hy1
          revert y0
          intro _)
       | (try clear_value y0
          revert y0
          intro _))
    | with_reducible refine setLong_keeps h_mail ?_
    | with_reducible refine writeDir_keeps h_image ?_
    | with_reducible refine Keeps.ite ?_ ?_
    | split
    | with_reducible refine Keeps.set_fw (.inl h_image) (.inr ⟨rfl, rfl, rfl, rfl, rfl⟩) (.inr ⟨rfl, rfl⟩) (.inr ⟨rfl, rfl, rfl, rfl, rfl, rfl⟩) (.inr rfl) rfl ?_

theorem fwStartTimeoutEffect_keeps (h_keks : w .keks = true) (h_serdes : w .serdes = true) (h_boot : w .boot = true) (h : Keeps w k i s) : Keeps w k i (fwStartTimeoutEffect s) := by
  exact
  { ident := h.ident
    same := fun c hc => by
      cases c
      case serdes => exact absurd hc (by simp [h_serdes])
      case boot => exact absurd hc (by simp [h_boot])
      case keks => exact absurd hc (by simp [h_keks])
      all_goals exact h.same _ hc
    hbm := h.hbm
    regs := h.regs
    log := h.log }

theorem fwStatusReadApply_keeps {x0} 
    (h : Keeps w k i s) : KeepsDone w k i (fwStatusReadApply x0 s) := by
  unfold fwStatusReadApply
  repeat' first
    | with_reducible assumption
    | (extract_lets +onlyGivenNames y0
       first
       | (try clear_value y0
          revert y0
          intro _))
    | with_reducible refine Keeps.ite ?_ ?_
    | with_reducible refine KeepsDone.ite ?_ ?_
    | split
    | with_reducible refine KeepsDone.mk ?_

theorem logReadCompleteEffect_keeps {x0} (h_env : w .env = true) (h_bridge : w .bridge = true) (h_anchor : w .anchor = true) (h_mail : w .mail = true) (h_log : w .log = true)
    (h : Keeps w k i s) : Keeps w k i (logReadCompleteEffect x0 s) := by
  unfold logReadCompleteEffect
  repeat' first
    | with_reducible assumption
    | with_reducible refine finish_keeps h_env h_bridge h_anchor h_mail h_log ?_
    | with_reducible refine KeepsDone.mk ?_

theorem noteDie_keeps {x0 x1} (h_power : w .power = true)
    (h : Keeps w k i s) : Keeps w k i (noteDie x0 x1 s) := by
  unfold noteDie
  repeat' first
    | with_reducible assumption
    | with_reducible refine modPw_keeps h_power ?_
    | with_reducible refine Keeps.ite ?_ ?_

theorem raiseSensor_keeps {x0 x1 x2 x3} (h_counters : w .counters = true) (h_flags : w .flags = true) (h_log : w .log = true) (h_history : w .history = true)
    (h : Keeps w k i s) : Keeps w k i (raiseSensor x0 x1 x2 x3 s) := by
  unfold raiseSensor
  repeat' first
    | with_reducible assumption
    | with_reducible refine logEvent_keeps h_counters h_flags h_log h_history ?_
    | with_reducible refine setFlag_keeps h_counters h_flags h_log h_history ?_

theorem sensorGetApply_keeps {x0} 
    (h : Keeps w k i s) : KeepsDone w k i (sensorGetApply x0 s) := by
  unfold sensorGetApply
  repeat' first
    | with_reducible assumption
    | with_reducible refine KeepsDone.mk ?_

theorem sensorSampleEffect_keeps {x0 x1} (h_counters : w .counters = true) (h_flags : w .flags = true) (h_log : w .log = true) (h_sensors : w .sensors = true) (h_history : w .history = true) (h_power : w .power = true)
    (h : Keeps w k i s) : Keeps w k i (sensorSampleEffect x0 x1 s) := by
  unfold sensorSampleEffect
  repeat' first
    | with_reducible assumption
    | (extract_lets +onlyGivenNames y0
       first
       | (refine_lift have hy0 : Keeps w k i y0 := ?_; ?_
          clear_value y0
          revert y0
          intro _ _
          rotate_left
          unfold y0
          clear y0)
       | (have hy1 : FwAll := y0
          clear hy1
          revert y0
          intro _)
       | (try clear_value y0
          revert y0
          intro _))
    | with_reducible refine noteDie_keeps h_power ?_
    | with_reducible refine raiseSensor_keeps h_counters h_flags h_log h_history ?_
    | with_reducible refine whenB_keeps (fun _ _ => ?_) ?_
    | with_reducible refine Keeps.ite ?_ ?_
    | split
    | with_reducible refine Keeps.set_fw (.inr ⟨rfl, rfl, rfl, rfl, rfl, rfl, rfl, rfl⟩) (.inr ⟨rfl, rfl, rfl, rfl, rfl⟩) (.inl h_sensors) (.inr ⟨rfl, rfl, rfl, rfl, rfl, rfl⟩) (.inr rfl) rfl ?_

theorem sensorSetApply_keeps {x0} (h_sensors : w .sensors = true)
    (h : Keeps w k i s) : KeepsDone w k i (sensorSetApply x0 s) := by
  unfold sensorSetApply
  repeat' first
    | with_reducible assumption
    | (extract_lets +onlyGivenNames y0
       first
       | (have hy1 : FwAll := y0
          clear hy1
          revert y0
          intro _)
       | (try clear_value y0
          revert y0
          intro _))
    | with_reducible refine okDone_keeps ?_
    | with_reducible refine KeepsDone.mk ?_
    | with_reducible refine Keeps.set_fw (.inr ⟨rfl, rfl, rfl, rfl, rfl, rfl, rfl, rfl⟩) (.inr ⟨rfl, rfl, rfl, rfl, rfl⟩) (.inl h_sensors) (.inr ⟨rfl, rfl, rfl, rfl, rfl, rfl⟩) (.inr rfl) rfl ?_

theorem sliceControllerSwitchEffect_keeps {x0} (h_image : w .image = true)
    (h : Keeps w k i s) : Keeps w k i (sliceControllerSwitchEffect x0 s) := by
  unfold sliceControllerSwitchEffect
  repeat' first
    | with_reducible assumption
    | (extract_lets +onlyGivenNames y0
       first
       | (have hy1 : FwAll := y0
          clear hy1
          revert y0
          intro _)
       | (try clear_value y0
          revert y0
          intro _))
    | with_reducible refine Keeps.set_fw (.inl h_image) (.inr ⟨rfl, rfl, rfl, rfl, rfl⟩) (.inr ⟨rfl, rfl⟩) (.inr ⟨rfl, rfl, rfl, rfl, rfl, rfl⟩) (.inr rfl) rfl ?_

end Sys2Proof.Machine
end

