-- ==== Sys2Proof/Laws/KeepsMgmt.lean ====
section
/-!
SUPPORT. Laws/KeepsMgmt.lean: one lemma for each operation of Machine/Mailbox, Events, Protection, Fabric, Functions, RegTrunk, RegPath, RegInfra, Registers, Tick:
what it leaves unchanged (see Laws/Keeps.lean).
-/
namespace Sys2Proof.Machine

variable {w : Comp → Bool} {k : Prop} {i s : State}

theorem ignoreRing_keeps {x0 x1} (h_counters : w .counters = true) (h_flags : w .flags = true) (h_log : w .log = true) (h_history : w .history = true)
    (h : Keeps w k i s) : Keeps w k i (ignoreRing x0 x1 s) := by
  unfold ignoreRing
  repeat' first
    | with_reducible assumption
    | with_reducible refine count1_keeps h_counters ?_
    | with_reducible refine setFlag_keeps h_counters h_flags h_log h_history ?_

theorem abortEffect_keeps {x0} (h_env : w .env = true) (h_counters : w .counters = true) (h_flags : w .flags = true) (h_anchor : w .anchor = true) (h_mail : w .mail = true) (h_log : w .log = true) (h_history : w .history = true)
    (h : Keeps w k i s) : Keeps w k i (abortEffect x0 s) := by
  unfold abortEffect
  repeat' first
    | with_reducible assumption
    | (extract_lets +onlyGivenNames y0
       first
       | (refine_lift have hy0 : Keeps w k i y0 := ?_; ?_
          clear_value y0
          revert y0
          intro _ _
          rotate_left
          unfold y0
          clear y0)
       | (try clear_value y0
          revert y0
          intro _))
    | with_reducible refine ignoreRing_keeps h_counters h_flags h_log h_history ?_
    | with_reducible refine respond_keeps h_env h_anchor h_mail h_log ?_
    | with_reducible refine Keeps.ite ?_ ?_
    | split
    | with_reducible refine Keeps.set_mail h_mail ?_

theorem deferBox_keeps {x0} (h_env : w .env = true) (h_mail : w .mail = true)
    (h : Keeps w k i s) : Keeps w k i (deferBox x0 s) := by
  unfold deferBox
  repeat' first
    | with_reducible assumption
    | (extract_lets +onlyGivenNames y0
       first
       | (refine_lift have hy0 : Keeps w k i y0 := ?_; ?_
          clear_value y0
          revert y0
          intro _ _
          rotate_left
          unfold y0
          clear y0)
       | (try clear_value y0
          revert y0
          intro _))
    | with_reducible refine modBox_keeps h_mail ?_
    | with_reducible refine serviceAnswer_keeps h_env ?_
    | with_reducible refine Keeps.set_mail h_mail ?_

theorem takeBoxUp_keeps {x0} (h_mail : w .mail = true)
    (h : Keeps w k i s) : Keeps w k i (takeBoxUp x0 s) := by
  unfold takeBoxUp
  repeat' first
    | with_reducible assumption
    | (extract_lets +onlyGivenNames y0
       first
       | (refine_lift have hy0 : Keeps w k i y0 := ?_; ?_
          clear_value y0
          revert y0
          intro _ _
          rotate_left
          unfold y0
          clear y0)
       | (try clear_value y0
          revert y0
          intro _))
    | with_reducible refine modBox_keeps h_mail ?_
    | with_reducible refine Keeps.set_mail h_mail ?_

theorem takeRequest_keeps {x0} (h_env : w .env = true) (h_anchor : w .anchor = true) (h_mail : w .mail = true) (h_log : w .log = true)
    (h : Keeps w k i s) : Keeps w k i (takeRequest x0 s) := by
  unfold takeRequest
  repeat' first
    | with_reducible assumption
    | (extract_lets +onlyGivenNames y0
       first
       | (refine_lift have hy0 : Keeps w k i y0 := ?_; ?_
          clear_value y0
          revert y0
          intro _ _
          rotate_left
          unfold y0
          clear y0)
       | (try clear_value y0
          revert y0
          intro _))
    | with_reducible refine deferBox_keeps h_env h_mail ?_
    | with_reducible refine respond_keeps h_env h_anchor h_mail h_log ?_
    | with_reducible refine takeBoxUp_keeps h_mail ?_
    | with_reducible refine Keeps.ite ?_ ?_
    | split
    | with_reducible refine Keeps.set_mail h_mail ?_

theorem commandTakeEffect_keeps (h_env : w .env = true) (h_anchor : w .anchor = true) (h_mail : w .mail = true) (h_log : w .log = true)
    (h : Keeps w k i s) : Keeps w k i (commandTakeEffect s) := by
  unfold commandTakeEffect
  repeat' first
    | with_reducible assumption
    | with_reducible refine takeRequest_keeps h_env h_anchor h_mail h_log ?_
    | split

theorem drainFenceCompleteEffect_keeps {x0} (h_env : w .env = true) (h_bridge : w .bridge = true) (h_anchor : w .anchor = true) (h_mail : w .mail = true) (h_log : w .log = true)
    (h : Keeps w k i s) : Keeps w k i (drainFenceCompleteEffect x0 s) := by
  unfold drainFenceCompleteEffect
  repeat' first
    | with_reducible assumption
    | with_reducible refine finish_keeps h_env h_bridge h_anchor h_mail h_log ?_
    | with_reducible refine okDone_keeps ?_
    | with_reducible refine Keeps.ite ?_ ?_
    | split
    | with_reducible refine KeepsDone.mk ?_

theorem enqueue_keeps {x0 x1} (h_mail : w .mail = true)
    (h : Keeps w k i s) : Keeps w k i (enqueue x0 x1 s) := by
  unfold enqueue
  repeat' first
    | with_reducible assumption
    | (extract_lets +onlyGivenNames y0
       first
       | (refine_lift have hy0 : Keeps w k i y0 := ?_; ?_
          clear_value y0
          revert y0
          intro _ _
          rotate_left
          unfold y0
          clear y0)
       | (try clear_value y0
          revert y0
          intro _))
    | with_reducible refine modBox_keeps h_mail ?_
    | with_reducible refine Keeps.set_mail h_mail ?_

theorem fenceCompleteEffect_keeps {x0} (h_env : w .env = true) (h_anchor : w .anchor = true) (h_mail : w .mail = true) (h_log : w .log = true)
    (h : Keeps w k i s) : Keeps w k i (fenceCompleteEffect x0 s) := by
  unfold fenceCompleteEffect
  repeat' first
    | with_reducible assumption
    | with_reducible refine respond_keeps h_env h_anchor h_mail h_log ?_
    | split

theorem noteDrain_keeps {x0} (h_mail : w .mail = true)
    (h : Keeps w k i s) : Keeps w k i (noteDrain x0 s) := by
  unfold noteDrain
  repeat' first
    | with_reducible assumption
    | with_reducible refine setLong_keeps h_mail ?_
    | with_reducible refine Keeps.ite ?_ ?_
    | split

theorem requestAreaWriteEffect_keeps {x0 x1 x2} (h_counters : w .counters = true) (h_flags : w .flags = true) (h_mail : w .mail = true) (h_log : w .log = true) (h_history : w .history = true)
    (h : Keeps w k i s) : Keeps w k i (requestAreaWriteEffect x0 x1 x2 s) := by
  unfold requestAreaWriteEffect
  repeat' first
    | with_reducible assumption
    | with_reducible refine ignoreRing_keeps h_counters h_flags h_log h_history ?_
    | with_reducible refine modBox_keeps h_mail ?_
    | with_reducible refine Keeps.ite ?_ ?_

theorem ringEffect_keeps {x0} (h_counters : w .counters = true) (h_flags : w .flags = true) (h_mail : w .mail = true) (h_log : w .log = true) (h_history : w .history = true)
    (h : Keeps w k i s) : Keeps w k i (ringEffect x0 s) := by
  unfold ringEffect
  repeat' first
    | with_reducible assumption
    | (extract_lets +onlyGivenNames y0
       first
       | (try clear_value y0
          revert y0
          intro _))
    | with_reducible refine enqueue_keeps h_mail ?_
    | with_reducible refine ignoreRing_keeps h_counters h_flags h_log h_history ?_
    | with_reducible refine Keeps.ite ?_ ?_

theorem serviceRequestRxEffect_keeps {x0} (h_env : w .env = true) (h_mail : w .mail = true)
    (h : Keeps w k i s) : Keeps w k i (serviceRequestRxEffect x0 s) := by
  unfold serviceRequestRxEffect
  repeat' first
    | with_reducible assumption
    | (extract_lets +onlyGivenNames y0
       first
       | (try clear_value y0
          revert y0
          intro _))
    | with_reducible refine enqueue_keeps h_mail ?_
    | with_reducible refine serviceSend_keeps h_env ?_
    | with_reducible refine Keeps.ite ?_ ?_
    | split
    | with_reducible refine Keeps.set_mail h_mail ?_

theorem trunkGroupSetApply_keeps {x0} (h_groups : w .groups = true)
    (h : Keeps w k i s) : KeepsDone w k i (trunkGroupSetApply x0 s) := by
  unfold trunkGroupSetApply
  repeat' first
    | with_reducible assumption
    | (extract_lets +onlyGivenNames y0
       first
       | (try clear_value y0
          revert y0
          intro _))
    | with_reducible refine modGroup_keeps h_groups ?_
    | with_reducible refine okDone_keeps ?_
    | with_reducible refine KeepsDone.mk ?_

theorem abandonTx_keeps {x0} (h_counters : w .counters = true) (h_log : w .log = true) (h_rings : w .rings = true)
    (h : Keeps w k i s) : Keeps w k i (abandonTx x0 s) := by
  unfold abandonTx
  repeat' first
    | with_reducible assumption
    | (extract_lets +onlyGivenNames y0
       first
       | (try clear_value y0
          revert y0
          intro _))
    | with_reducible refine causeVec_keeps h_log ?_
    | with_reducible refine count1_keeps h_counters ?_
    | with_reducible refine modRing_keeps h_rings ?_
    | with_reducible refine foldS_keeps (fun _ _ _ => ?_) ?_

theorem enterDirect_keeps {x0 x1} (h_ingress : w .ingress = true)
    (h : Keeps w k i s) : Keeps w k i (enterDirect x0 x1 s).2 := by
  unfold enterDirect
  repeat' first
    | with_reducible assumption
    | with_reducible refine Keeps.set_path (.inr ⟨rfl, rfl, rfl, rfl, rfl⟩) (.inl h_ingress) (.inr ⟨rfl, rfl, rfl⟩) (.inr rfl) (.inr ⟨rfl, rfl, rfl, rfl, rfl, rfl, rfl, rfl⟩) (.inr rfl) ?_

theorem enterDirect_keepsE {x0 x1} (h_ingress : w .ingress = true) {p t} (e : enterDirect x0 x1 s = (p, t))
    (h : Keeps w k i s) : Keeps w k i t := by
  have g := enterDirect_keeps (x0 := x0) (x1 := x1) h_ingress h
  rw [e] at g
  exact g

theorem eventQueueSetApply_keeps {x0} (h_log : w .log = true)
    (h : Keeps w k i s) : KeepsDone w k i (eventQueueSetApply x0 s) := by
  unfold eventQueueSetApply
  repeat' first
    | with_reducible assumption
    | (extract_lets +onlyGivenNames y0
       first
       | (have hy1 : EventAll := y0
          clear hy1
          revert y0
          intro _)
       | (try clear_value y0
          revert y0
          intro _))
    | with_reducible refine okDone_keeps ?_
    | with_reducible refine Keeps.ite ?_ ?_
    | with_reducible refine KeepsDone.ite ?_ ?_
    | split
    | with_reducible refine KeepsDone.mk ?_
    | exact fun _ hc => hc
    | with_reducible refine Keeps.set_ev (.inl h_log) (.inr ⟨rfl, rfl, rfl⟩) ?_ ?_

theorem setCoalescing_keeps {x0 x1 x2} (h_log : w .log = true)
    (h : Keeps w k i s) : Keeps w k i (setCoalescing x0 x1 x2 s) := by
  unfold setCoalescing
  repeat' first
    | with_reducible assumption
    | (extract_lets +onlyGivenNames y0
       first
       | (refine_lift have hy0 : Keeps w k i y0 := ?_; ?_
          clear_value y0
          revert y0
          intro _ _
          rotate_left
          unfold y0
          clear y0)
       | (try clear_value y0
          revert y0
          intro _))
    | with_reducible refine fireVec_keeps h_log ?_
    | with_reducible refine modVec_keeps h_log ?_
    | with_reducible refine Keeps.ite ?_ ?_

theorem eventRouteSetApply_keeps {x0} (h_log : w .log = true) (h_rings : w .rings = true)
    (h : Keeps w k i s) : KeepsDone w k i (eventRouteSetApply x0 s) := by
  unfold eventRouteSetApply
  repeat' first
    | with_reducible assumption
    | (extract_lets +onlyGivenNames y0
       first
       | (have hy1 : EventAll := y0
          clear hy1
          revert y0
          intro _)
       | (try clear_value y0
          revert y0
          intro _))
    | with_reducible refine okDone_keeps ?_
    | with_reducible refine setCoalescing_keeps h_log ?_
    | with_reducible refine Keeps.ite ?_ ?_
    | with_reducible refine KeepsDone.ite ?_ ?_
    | split
    | with_reducible refine KeepsDone.mk ?_
    | exact fun _ hc => hc
    | with_reducible refine Keeps.set_ev (.inr ⟨rfl, rfl, rfl, rfl, rfl⟩) (.inl h_rings) ?_ ?_

theorem evqConsWriteEffect_keeps {x0} (h_log : w .log = true) (h_history : w .history = true)
    (h : Keeps w k i s) : Keeps w k i (evqConsWriteEffect x0 s) := by
  unfold evqConsWriteEffect
  repeat' first
    | with_reducible assumption
    | (extract_lets +onlyGivenNames y0
       first
       | (refine_lift have hy0 : Keeps w k i y0 := ?_; ?_
          clear_value y0
          revert y0
          intro _ _
          rotate_left
          unfold y0
          clear y0)
       | (have hy1 : EventAll := y0
          clear hy1
          revert y0
          intro _)
       | (try clear_value y0
          revert y0
          intro _))
    | with_reducible refine evqCopy_keeps h_log ?_
    | with_reducible refine pushRecord_keeps h_log h_history ?_
    | with_reducible refine Keeps.ite ?_ ?_
    | split
    | exact fun _ hc => hc
    | with_reducible refine Keeps.set_ev (.inl h_log) (.inr ⟨rfl, rfl, rfl⟩) ?_ ?_

theorem injectTo_keeps {x0 x1 x2} (h_counters : w .counters = true) (h_flags : w .flags = true) (h_bridge : w .bridge = true) (h_log : w .log = true) (h_rings : w .rings = true) (h_lanes : w .lanes = true) (h_groups : w .groups = true) (h_ports : w .ports = true) (h_ingress : w .ingress = true) (h_bufs : w .bufs = true) (h_accounts : w .accounts = true) (h_slots : w .slots = true) (h_fabric : w .fabric = true) (h_history : w .history = true)
    (h : Keeps w k i s) : Keeps w k i (injectTo x0 x1 x2 s) := by
  unfold injectTo
  repeat' first
    | with_reducible assumption
    | (extract_lets +onlyGivenNames y0
       first
       | (refine_lift have hy0 : Keeps w k i y0 := ?_; ?_
          clear_value y0
          revert y0
          intro _ _
          rotate_left
          unfold y0
          clear y0)
       | (refine_lift have hy0 : Keeps w k i y0.2 := ?_; ?_
          clear_value y0
          revert y0
          intro _ _
          rotate_left
          unfold y0
          clear y0)
       | (try clear_value y0
          revert y0
          intro _))
    | (refine enterDirect_keepsE h_ingress (by assumption) ?_)
    | with_reducible refine enterDirect_keeps h_ingress ?_
    | with_reducible refine enterPath_keeps h_ingress ?_
    | with_reducible refine toDest_keeps h_counters h_flags h_bridge h_log h_rings h_lanes h_groups h_ports h_ingress h_bufs h_accounts h_slots h_fabric h_history ?_
    | with_reducible refine foldS_keeps (fun _ _ _ => ?_) ?_
    | with_reducible refine Keeps.ite ?_ ?_

theorem readyOwed_keeps {x0 x1 x2} (h_rings : w .rings = true)
    (h : Keeps w k i s) : Keeps w k i (readyOwed x0 x1 x2 s) := by
  unfold readyOwed
  repeat' first
    | with_reducible assumption
    | with_reducible refine modOwed_keeps h_rings ?_

theorem inject_keeps {x0 x1 x2 x3} (h_counters : w .counters = true) (h_flags : w .flags = true) (h_bridge : w .bridge = true) (h_log : w .log = true) (h_rings : w .rings = true) (h_lanes : w .lanes = true) (h_groups : w .groups = true) (h_ports : w .ports = true) (h_ingress : w .ingress = true) (h_bufs : w .bufs = true) (h_accounts : w .accounts = true) (h_slots : w .slots = true) (h_fabric : w .fabric = true) (h_history : w .history = true)
    (h : Keeps w k i s) : Keeps w k i (inject x0 x1 x2 x3 s) := by
  unfold inject
  repeat' first
    | with_reducible assumption
    | (extract_lets +onlyGivenNames y0
       first
       | (refine_lift have hy0 : Keeps w k i y0 := ?_; ?_
          clear_value y0
          revert y0
          intro _ _
          rotate_left
          unfold y0
          clear y0)
       | (try clear_value y0
          revert y0
          intro _))
    | (refine allocBuf_keepsE h_counters h_flags h_log h_ports h_bufs h_history (by assumption) ?_)
    | with_reducible refine allocBuf_keeps h_counters h_flags h_log h_ports h_bufs h_history ?_
    | with_reducible refine injectTo_keeps h_counters h_flags h_bridge h_log h_rings h_lanes h_groups h_ports h_ingress h_bufs h_accounts h_slots h_fabric h_history ?_
    | with_reducible refine readyOwed_keeps h_rings ?_
    | with_reducible refine Keeps.ite ?_ ?_
    | split

theorem mgtQueueSetApply_keeps {x0} (h_counters : w .counters = true) (h_log : w .log = true) (h_rings : w .rings = true)
    (h : Keeps w k i s) : KeepsDone w k i (mgtQueueSetApply x0 s) := by
  unfold mgtQueueSetApply
  repeat' first
    | with_reducible assumption
    | (extract_lets +onlyGivenNames y0
       first
       | (refine_lift have hy0 : Keeps w k i y0 := ?_; ?_
          clear_value y0
          revert y0
          intro _ _
          rotate_left
          unfold y0
          clear y0)
       | (try clear_value y0
          revert y0
          intro _))
    | with_reducible refine abandonTx_keeps h_counters h_log h_rings ?_
    | with_reducible refine modRing_keeps h_rings ?_
    | with_reducible refine okDone_keeps ?_
    | with_reducible refine Keeps.ite ?_ ?_
    | with_reducible refine KeepsDone.mk ?_

theorem stamplessOwed_keeps {x0} (h_rings : w .rings = true)
    (h : Keeps w k i s) : Keeps w k i (stamplessOwed x0 s) := by
  unfold stamplessOwed
  repeat' first
    | with_reducible assumption
    | with_reducible refine modOwed_keeps h_rings ?_
    | split

theorem mgtRxDeliverEffect_keeps {x0 x1} (h_counters : w .counters = true) (h_flags : w .flags = true) (h_log : w .log = true) (h_rings : w .rings = true) (h_ports : w .ports = true) (h_bufs : w .bufs = true) (h_history : w .history = true)
    (h : Keeps w k i s) : Keeps w k i (mgtRxDeliverEffect x0 x1 s) := by
  unfold mgtRxDeliverEffect
  repeat' first
    | with_reducible assumption
    | (extract_lets +onlyGivenNames y0
       first
       | (refine_lift have hy0 : Keeps w k i y0 := ?_; ?_
          clear_value y0
          revert y0
          intro _ _
          rotate_left
          unfold y0
          clear y0)
       | (have hy1 : EventAll := y0
          clear hy1
          revert y0
          intro _)
       | (try clear_value y0
          revert y0
          intro _))
    | with_reducible refine causeVec_keeps h_log ?_
    | with_reducible refine dropBuf_keeps h_counters h_flags h_log h_ports h_bufs h_history ?_
    | with_reducible refine dropOwed_keeps h_rings ?_
    | with_reducible refine modRing_keeps h_rings ?_
    | with_reducible refine rxqDrop_keeps h_counters ?_
    | with_reducible refine setFlag_keeps h_counters h_flags h_log h_history ?_
    | with_reducible refine stamplessOwed_keeps h_rings ?_
    | with_reducible refine Keeps.ite ?_ ?_
    | split
    | exact fun _ hc => hc
    | with_reducible refine Keeps.set_ev (.inr ⟨rfl, rfl, rfl, rfl, rfl⟩) (.inl h_rings) ?_ ?_

theorem msixUnmaskEffect_keeps {x0} (h_log : w .log = true)
    (h : Keeps w k i s) : Keeps w k i (msixUnmaskEffect x0 s) := by
  unfold msixUnmaskEffect
  repeat' first
    | with_reducible assumption
    | with_reducible refine modVec_keeps h_log ?_

theorem rxqTailWriteEffect_keeps {x0 x1} (h_rings : w .rings = true)
    (h : Keeps w k i s) : Keeps w k i (rxqTailWriteEffect x0 x1 s) := by
  unfold rxqTailWriteEffect
  repeat' first
    | with_reducible assumption
    | with_reducible refine modRing_keeps h_rings ?_

theorem txDescriptorReadEffect_keeps {x0 x1 x2} (h_counters : w .counters = true) (h_flags : w .flags = true) (h_bridge : w .bridge = true) (h_log : w .log = true) (h_rings : w .rings = true) (h_lanes : w .lanes = true) (h_groups : w .groups = true) (h_ports : w .ports = true) (h_ingress : w .ingress = true) (h_bufs : w .bufs = true) (h_accounts : w .accounts = true) (h_slots : w .slots = true) (h_fabric : w .fabric = true) (h_history : w .history = true)
    (h : Keeps w k i s) : Keeps w k i (txDescriptorReadEffect x0 x1 x2 s) := by
  unfold txDescriptorReadEffect
  repeat' first
    | with_reducible assumption
    | (extract_lets +onlyGivenNames y0
       first
       | (refine_lift have hy0 : Keeps w k i y0 := ?_; ?_
          clear_value y0
          revert y0
          intro _ _
          rotate_left
          unfold y0
          clear y0)
       | (try clear_value y0
          revert y0
          intro _))
    | with_reducible refine inject_keeps h_counters h_flags h_bridge h_log h_rings h_lanes h_groups h_ports h_ingress h_bufs h_accounts h_slots h_fabric h_history ?_
    | with_reducible refine modRing_keeps h_rings ?_
    | with_reducible refine readyOwed_keeps h_rings ?_
    | with_reducible refine Keeps.ite ?_ ?_

theorem txDescriptorWritebackEffect_keeps {x0} (h_counters : w .counters = true) (h_log : w .log = true) (h_rings : w .rings = true)
    (h : Keeps w k i s) : Keeps w k i (txDescriptorWritebackEffect x0 s) := by
  unfold txDescriptorWritebackEffect
  repeat' first
    | with_reducible assumption
    | (extract_lets +onlyGivenNames y0
       first
       | (refine_lift have hy0 : Keeps w k i y0 := ?_; ?_
          clear_value y0
          revert y0
          intro _ _
          rotate_left
          unfold y0
          clear y0)
       | (try clear_value y0
          revert y0
          intro _))
    | with_reducible refine causeVec_keeps h_log ?_
    | with_reducible refine count1_keeps h_counters ?_
    | with_reducible refine modRing_keeps h_rings ?_
    | with_reducible refine whenB_keeps (fun _ _ => ?_) ?_
    | split

theorem txqTailWriteEffect_keeps {x0 x1} (h_rings : w .rings = true)
    (h : Keeps w k i s) : Keeps w k i (txqTailWriteEffect x0 x1 s) := by
  unfold txqTailWriteEffect
  repeat' first
    | with_reducible assumption
    | with_reducible refine modRing_keeps h_rings ?_

theorem modProt_keeps {x1 x2} (h_groups : w .groups = true)
    (h : Keeps w k i s) : Keeps w k i (modProt s x1 x2) := by
  unfold modProt
  repeat' first
    | with_reducible assumption
    | with_reducible refine modGroup_keeps h_groups ?_

theorem ackAct_keeps {x0 x1} (h_groups : w .groups = true)
    (h : Keeps w k i s) : Keeps w k i (ackAct x0 x1 s) := by
  unfold ackAct
  repeat' first
    | with_reducible assumption
    | with_reducible refine modProt_keeps h_groups ?_
    | with_reducible refine foldS_keeps (fun _ _ _ => ?_) ?_
    | with_reducible refine Keeps.ite ?_ ?_
    | split

theorem enterActive_keeps {x0} (h_groups : w .groups = true)
    (h : Keeps w k i s) : Keeps w k i (enterActive x0 s) := by
  unfold enterActive
  repeat' first
    | with_reducible assumption
    | with_reducible refine dropUnheld_keeps h_groups ?_

theorem leaveActive_keeps {x0} (h_counters : w .counters = true) (h_flags : w .flags = true) (h_log : w .log = true) (h_lanes : w .lanes = true) (h_groups : w .groups = true) (h_ports : w .ports = true) (h_bufs : w .bufs = true) (h_accounts : w .accounts = true) (h_slots : w .slots = true) (h_history : w .history = true)
    (h : Keeps w k i s) : Keeps w k i (leaveActive x0 s) := by
  unfold leaveActive
  repeat' first
    | with_reducible assumption
    | with_reducible refine discardRemainders_keeps h_counters h_flags h_log h_ports h_bufs h_accounts h_history ?_
    | with_reducible refine fog_keeps h_counters h_flags h_log h_lanes h_groups h_ports h_bufs h_accounts h_slots h_history ?_

theorem markSwitched_keeps {x0} (h_counters : w .counters = true) (h_flags : w .flags = true) (h_log : w .log = true) (h_history : w .history = true)
    (h : Keeps w k i s) : Keeps w k i (markSwitched x0 s) := by
  unfold markSwitched
  repeat' first
    | with_reducible assumption
    | with_reducible refine count1_keeps h_counters ?_
    | with_reducible refine setFlag_keeps h_counters h_flags h_log h_history ?_

theorem moveAccount_keeps {x0 x1 x2} (h_counters : w .counters = true) (h_flags : w .flags = true) (h_bridge : w .bridge = true) (h_log : w .log = true) (h_rings : w .rings = true) (h_ports : w .ports = true) (h_bufs : w .bufs = true) (h_accounts : w .accounts = true) (h_fabric : w .fabric = true) (h_history : w .history = true)
    (h : Keeps w k i s) : Keeps w k i (moveAccount x0 x1 x2 s) := by
  unfold moveAccount
  repeat' first
    | with_reducible assumption
    | (extract_lets +onlyGivenNames y0
       first
       | (refine_lift have hy0 : Keeps w k i y0 := ?_; ?_
          clear_value y0
          revert y0
          intro _ _
          rotate_left
          unfold y0
          clear y0)
       | (have hy1 : PathAll := y0
          clear hy1
          revert y0
          intro _)
       | (try clear_value y0
          revert y0
          intro _))
    | with_reducible refine fabSend_keeps h_counters h_flags h_bridge h_log h_rings h_ports h_bufs h_fabric h_history ?_
    | with_reducible refine modAcct_keeps h_accounts ?_
    | with_reducible refine foldS_keeps (fun _ _ _ => ?_) ?_
    | with_reducible refine Keeps.set_path (.inr ⟨rfl, rfl, rfl, rfl, rfl⟩) (.inr ⟨rfl, rfl⟩) (.inr ⟨rfl, rfl, rfl⟩) (.inr rfl) (.inl h_accounts) (.inr rfl) ?_

theorem moveAccounts_keeps {x0 x1} (h_counters : w .counters = true) (h_flags : w .flags = true) (h_bridge : w .bridge = true) (h_log : w .log = true) (h_rings : w .rings = true) (h_ports : w .ports = true) (h_bufs : w .bufs = true) (h_accounts : w .accounts = true) (h_fabric : w .fabric = true) (h_history : w .history = true)
    (h : Keeps w k i s) : Keeps w k i (moveAccounts x0 x1 s) := by
  unfold moveAccounts
  repeat' first
    | with_reducible assumption
    | with_reducible refine moveAccount_keeps h_counters h_flags h_bridge h_log h_rings h_ports h_bufs h_accounts h_fabric h_history ?_
    | with_reducible refine foldS_keeps (fun _ _ _ => ?_) ?_

theorem moveTimeSource_keeps {x0 x1} (h_counters : w .counters = true) (h_flags : w .flags = true) (h_log : w .log = true) (h_groups : w .groups = true) (h_time : w .time = true) (h_history : w .history = true)
    (h : Keeps w k i s) : Keeps w k i (moveTimeSource x0 x1 s) := by
  unfold moveTimeSource
  repeat' first
    | with_reducible assumption
    | (extract_lets +onlyGivenNames y0
       first
       | (refine_lift have hy0 : Keeps w k i y0 := ?_; ?_
          clear_value y0
          revert y0
          intro _ _
          rotate_left
          unfold y0
          clear y0)
       | (try clear_value y0
          revert y0
          intro _))
    | with_reducible refine modGroup_keeps h_groups ?_
    | with_reducible refine refuseTod_keeps h_counters h_flags h_log h_time h_history ?_
    | with_reducible refine Keeps.ite ?_ ?_

theorem switchPair_keeps {x0 x1 x2 x3} (h_counters : w .counters = true) (h_flags : w .flags = true) (h_bridge : w .bridge = true) (h_log : w .log = true) (h_rings : w .rings = true) (h_lanes : w .lanes = true) (h_groups : w .groups = true) (h_ports : w .ports = true) (h_bufs : w .bufs = true) (h_accounts : w .accounts = true) (h_slots : w .slots = true) (h_time : w .time = true) (h_fabric : w .fabric = true) (h_history : w .history = true)
    (h : Keeps w k i s) : Keeps w k i (switchPair x0 x1 x2 x3 s) := by
  unfold switchPair
  repeat' first
    | with_reducible assumption
    | (extract_lets +onlyGivenNames y0
       first
       | (refine_lift have hy0 : Keeps w k i y0 := ?_; ?_
          clear_value y0
          revert y0
          intro _ _
          rotate_left
          unfold y0
          clear y0)
       | (try clear_value y0
          revert y0
          intro _))
    | with_reducible refine enterActive_keeps h_groups ?_
    | with_reducible refine leaveActive_keeps h_counters h_flags h_log h_lanes h_groups h_ports h_bufs h_accounts h_slots h_history ?_
    | with_reducible refine markSwitched_keeps h_counters h_flags h_log h_history ?_
    | with_reducible refine modProt_keeps h_groups ?_
    | with_reducible refine moveAccounts_keeps h_counters h_flags h_bridge h_log h_rings h_ports h_bufs h_accounts h_fabric h_history ?_
    | with_reducible refine moveTimeSource_keeps h_counters h_flags h_log h_groups h_time h_history ?_
    | with_reducible refine queueRdi_keeps h_counters h_groups ?_
    | with_reducible refine refreshLinkFault_keeps h_counters h_flags h_log h_groups h_history ?_
    | with_reducible refine foldS_keeps (fun _ _ _ => ?_) ?_
    | with_reducible refine Keeps.ite ?_ ?_
    | split

theorem followActive_keeps {x0 x1 x2} (h_counters : w .counters = true) (h_flags : w .flags = true) (h_bridge : w .bridge = true) (h_log : w .log = true) (h_rings : w .rings = true) (h_lanes : w .lanes = true) (h_groups : w .groups = true) (h_ports : w .ports = true) (h_bufs : w .bufs = true) (h_accounts : w .accounts = true) (h_slots : w .slots = true) (h_time : w .time = true) (h_fabric : w .fabric = true) (h_history : w .history = true)
    (h : Keeps w k i s) : Keeps w k i (followActive x0 x1 x2 s) := by
  unfold followActive
  repeat' first
    | with_reducible assumption
    | (extract_lets +onlyGivenNames y0
       first
       | (refine_lift have hy0 : Keeps w k i y0 := ?_; ?_
          clear_value y0
          revert y0
          intro _ _
          rotate_left
          unfold y0
          clear y0)
       | (try clear_value y0
          revert y0
          intro _))
    | with_reducible refine refreshLinkFault_keeps h_counters h_flags h_log h_groups h_history ?_
    | with_reducible refine switchPair_keeps h_counters h_flags h_bridge h_log h_rings h_lanes h_groups h_ports h_bufs h_accounts h_slots h_time h_fabric h_history ?_
    | with_reducible refine Keeps.ite ?_ ?_
    | split

theorem markBlocked_keeps {x0 x1 x2} (h_counters : w .counters = true) (h_flags : w .flags = true) (h_log : w .log = true) (h_groups : w .groups = true) (h_history : w .history = true)
    (h : Keeps w k i s) : Keeps w k i (markBlocked x0 x1 x2 s) := by
  unfold markBlocked
  repeat' first
    | with_reducible assumption
    | (extract_lets +onlyGivenNames y0
       first
       | (refine_lift have hy0 : Keeps w k i y0 := ?_; ?_
          clear_value y0
          revert y0
          intro _ _
          rotate_left
          unfold y0
          clear y0)
       | (try clear_value y0
          revert y0
          intro _))
    | with_reducible refine count1_keeps h_counters ?_
    | with_reducible refine modProt_keeps h_groups ?_
    | with_reducible refine setFlag_keeps h_counters h_flags h_log h_history ?_
    | with_reducible refine whenB_keeps (fun _ _ => ?_) ?_

theorem notifyAct_keeps {x0 x1 x2} (h_counters : w .counters = true) (h_flags : w .flags = true) (h_bridge : w .bridge = true) (h_log : w .log = true) (h_rings : w .rings = true) (h_lanes : w .lanes = true) (h_groups : w .groups = true) (h_ports : w .ports = true) (h_bufs : w .bufs = true) (h_accounts : w .accounts = true) (h_slots : w .slots = true) (h_time : w .time = true) (h_fabric : w .fabric = true) (h_history : w .history = true)
    (h : Keeps w k i s) : Keeps w k i (notifyAct x0 x1 x2 s) := by
  unfold notifyAct
  repeat' first
    | with_reducible assumption
    | (extract_lets +onlyGivenNames y0
       first
       | (refine_lift have hy0 : Keeps w k i y0 := ?_; ?_
          clear_value y0
          revert y0
          intro _ _
          rotate_left
          unfold y0
          clear y0)
       | (try clear_value y0
          revert y0
          intro _))
    | with_reducible refine count1_keeps h_counters ?_
    | with_reducible refine fabControl_keeps h_counters h_flags h_bridge h_log h_rings h_ports h_bufs h_fabric h_history ?_
    | with_reducible refine modProt_keeps h_groups ?_
    | with_reducible refine switchPair_keeps h_counters h_flags h_bridge h_log h_rings h_lanes h_groups h_ports h_bufs h_accounts h_slots h_time h_fabric h_history ?_
    | with_reducible refine Keeps.ite ?_ ?_
    | split

theorem notifyFailEffect_keeps {x0} (h_counters : w .counters = true) (h_flags : w .flags = true) (h_log : w .log = true) (h_groups : w .groups = true) (h_history : w .history = true)
    (h : Keeps w k i s) : Keeps w k i (notifyFailEffect x0 s) := by
  unfold notifyFailEffect
  repeat' first
    | with_reducible assumption
    | with_reducible refine modProt_keeps h_groups ?_
    | with_reducible refine setFlag_keeps h_counters h_flags h_log h_history ?_

theorem notifyResendEffect_keeps {x0} (h_counters : w .counters = true) (h_flags : w .flags = true) (h_bridge : w .bridge = true) (h_log : w .log = true) (h_rings : w .rings = true) (h_groups : w .groups = true) (h_ports : w .ports = true) (h_bufs : w .bufs = true) (h_fabric : w .fabric = true) (h_history : w .history = true)
    (h : Keeps w k i s) : Keeps w k i (notifyResendEffect x0 s) := by
  unfold notifyResendEffect
  repeat' first
    | with_reducible assumption
    | with_reducible refine fabControl_keeps h_counters h_flags h_bridge h_log h_rings h_ports h_bufs h_fabric h_history ?_
    | with_reducible refine modProt_keeps h_groups ?_
    | split

theorem pairTimers_keeps {x0 x1} (h_groups : w .groups = true)
    (h : Keeps w k i s) : Keeps w k i (pairTimers x0 x1 s) := by
  unfold pairTimers
  repeat' first
    | with_reducible assumption
    | (extract_lets +onlyGivenNames y0
       first
       | (try clear_value y0
          revert y0
          intro _))
    | with_reducible refine modProt_keeps h_groups ?_

theorem takeCommand_keeps {x0 x1} (h_counters : w .counters = true) (h_groups : w .groups = true)
    (h : Keeps w k i s) : Keeps w k i (takeCommand x0 x1 s) := by
  unfold takeCommand
  repeat' first
    | with_reducible assumption
    | (extract_lets +onlyGivenNames y0
       first
       | (try clear_value y0
          revert y0
          intro _))
    | with_reducible refine modProt_keeps h_groups ?_
    | with_reducible refine queueRdi_keeps h_counters h_groups ?_
    | with_reducible refine Keeps.ite ?_ ?_
    | split

theorem protectCommandAct_keeps {x0 x1} (h_counters : w .counters = true) (h_groups : w .groups = true)
    (h : Keeps w k i s) : Keeps w k i (protectCommandAct x0 x1 s) := by
  unfold protectCommandAct
  repeat' first
    | with_reducible assumption
    | (extract_lets +onlyGivenNames y0
       first
       | (try clear_value y0
          revert y0
          intro _))
    | with_reducible refine queueAck_keeps h_counters h_groups ?_
    | with_reducible refine takeCommand_keeps h_counters h_groups ?_
    | with_reducible refine Keeps.ite ?_ ?_

theorem sendNotify_keeps {x0 x1} (h_counters : w .counters = true) (h_flags : w .flags = true) (h_bridge : w .bridge = true) (h_log : w .log = true) (h_rings : w .rings = true) (h_groups : w .groups = true) (h_ports : w .ports = true) (h_bufs : w .bufs = true) (h_fabric : w .fabric = true) (h_history : w .history = true)
    (h : Keeps w k i s) : Keeps w k i (sendNotify x0 x1 s) := by
  unfold sendNotify
  repeat' first
    | with_reducible assumption
    | (extract_lets +onlyGivenNames y0
       first
       | (try clear_value y0
          revert y0
          intro _))
    | with_reducible refine fabControl_keeps h_counters h_flags h_bridge h_log h_rings h_ports h_bufs h_fabric h_history ?_
    | with_reducible refine modProt_keeps h_groups ?_

theorem protectEvaluateEffect_keeps {x0} (h_counters : w .counters = true) (h_flags : w .flags = true) (h_bridge : w .bridge = true) (h_log : w .log = true) (h_rings : w .rings = true) (h_lanes : w .lanes = true) (h_groups : w .groups = true) (h_ports : w .ports = true) (h_bufs : w .bufs = true) (h_accounts : w .accounts = true) (h_slots : w .slots = true) (h_time : w .time = true) (h_fabric : w .fabric = true) (h_history : w .history = true)
    (h : Keeps w k i s) : Keeps w k i (protectEvaluateEffect x0 s) := by
  unfold protectEvaluateEffect
  repeat' first
    | with_reducible assumption
    | (extract_lets +onlyGivenNames y0
       first
       | (refine_lift have hy0 : Keeps w k i y0 := ?_; ?_
          clear_value y0
          revert y0
          intro _ _
          rotate_left
          unfold y0
          clear y0)
       | (try clear_value y0
          revert y0
          intro _))
    | with_reducible refine markBlocked_keeps h_counters h_flags h_log h_groups h_history ?_
    | with_reducible refine pairTimers_keeps h_groups ?_
    | with_reducible refine refreshLinkFault_keeps h_counters h_flags h_log h_groups h_history ?_
    | with_reducible refine sendNotify_keeps h_counters h_flags h_bridge h_log h_rings h_groups h_ports h_bufs h_fabric h_history ?_
    | with_reducible refine switchPair_keeps h_counters h_flags h_bridge h_log h_rings h_lanes h_groups h_ports h_bufs h_accounts h_slots h_time h_fabric h_history ?_
    | with_reducible refine foldS_keeps (fun _ _ _ => ?_) ?_
    | with_reducible refine Keeps.ite ?_ ?_
    | split

theorem protectRequestApply_keeps {x0} (h_groups : w .groups = true)
    (h : Keeps w k i s) : KeepsDone w k i (protectRequestApply x0 s) := by
  unfold protectRequestApply
  repeat' first
    | with_reducible assumption
    | with_reducible refine modProt_keeps h_groups ?_
    | with_reducible refine okDone_keeps ?_
    | with_reducible refine KeepsDone.mk ?_

theorem setPairPend_keeps {x0 x1} (h_groups : w .groups = true)
    (h : Keeps w k i s) : Keeps w k i (setPairPend x0 x1 s) := by
  unfold setPairPend
  repeat' first
    | with_reducible assumption
    | with_reducible refine modGroup_keeps h_groups ?_

theorem protectSetApply_keeps {x0} (h_groups : w .groups = true)
    (h : Keeps w k i s) : KeepsDone w k i (protectSetApply x0 s) := by
  unfold protectSetApply
  repeat' first
    | with_reducible assumption
    | (extract_lets +onlyGivenNames y0
       first
       | (refine_lift have hy0 : Keeps w k i y0 := ?_; ?_
          clear_value y0
          revert y0
          intro _ _
          rotate_left
          unfold y0
          clear y0)
       | (try clear_value y0
          revert y0
          intro _))
    | with_reducible refine okDone_keeps ?_
    | with_reducible refine setPairPend_keeps h_groups ?_
    | with_reducible refine Keeps.ite ?_ ?_
    | with_reducible refine KeepsDone.ite ?_ ?_
    | split
    | with_reducible refine KeepsDone.mk ?_

theorem protectStatusSendEffect_keeps {x0} (h_counters : w .counters = true) (h_flags : w .flags = true) (h_bridge : w .bridge = true) (h_log : w .log = true) (h_rings : w .rings = true) (h_groups : w .groups = true) (h_ports : w .ports = true) (h_bufs : w .bufs = true) (h_fabric : w .fabric = true) (h_history : w .history = true)
    (h : Keeps w k i s) : Keeps w k i (protectStatusSendEffect x0 s) := by
  unfold protectStatusSendEffect
  repeat' first
    | with_reducible assumption
    | (extract_lets +onlyGivenNames y0
       first
       | (refine_lift have hy0 : Keeps w k i y0 := ?_; ?_
          clear_value y0
          revert y0
          intro _ _
          rotate_left
          unfold y0
          clear y0)
       | (try clear_value y0
          revert y0
          intro _))
    | with_reducible refine fabControl_keeps h_counters h_flags h_bridge h_log h_rings h_ports h_bufs h_fabric h_history ?_
    | with_reducible refine modProt_keeps h_groups ?_
    | with_reducible refine refreshLinkFault_keeps h_counters h_flags h_log h_groups h_history ?_
    | with_reducible refine Keeps.ite ?_ ?_
    | split

theorem remoteStaleEffect_keeps {x0} (h_counters : w .counters = true) (h_flags : w .flags = true) (h_log : w .log = true) (h_groups : w .groups = true) (h_history : w .history = true)
    (h : Keeps w k i s) : Keeps w k i (remoteStaleEffect x0 s) := by
  unfold remoteStaleEffect
  repeat' first
    | with_reducible assumption
    | (extract_lets +onlyGivenNames y0
       first
       | (refine_lift have hy0 : Keeps w k i y0 := ?_; ?_
          clear_value y0
          revert y0
          intro _ _
          rotate_left
          unfold y0
          clear y0)
       | (try clear_value y0
          revert y0
          intro _))
    | with_reducible refine modProt_keeps h_groups ?_
    | with_reducible refine setFlag_keeps h_counters h_flags h_log h_history ?_
    | with_reducible refine Keeps.ite ?_ ?_

theorem resteerCompleteEffect_keeps {x0} (h_groups : w .groups = true)
    (h : Keeps w k i s) : Keeps w k i (resteerCompleteEffect x0 s) := by
  unfold resteerCompleteEffect
  repeat' first
    | with_reducible assumption
    | with_reducible refine modProt_keeps h_groups ?_

theorem takeStatus_keeps {x0 x1} (h_groups : w .groups = true)
    (h : Keeps w k i s) : Keeps w k i (takeStatus x0 x1 s) := by
  unfold takeStatus
  repeat' first
    | with_reducible assumption
    | (extract_lets +onlyGivenNames y0
       first
       | (try clear_value y0
          revert y0
          intro _))
    | with_reducible refine modProt_keeps h_groups ?_

theorem statusAct_keeps {x0 x1 x2} (h_counters : w .counters = true) (h_flags : w .flags = true) (h_bridge : w .bridge = true) (h_log : w .log = true) (h_rings : w .rings = true) (h_lanes : w .lanes = true) (h_groups : w .groups = true) (h_ports : w .ports = true) (h_bufs : w .bufs = true) (h_accounts : w .accounts = true) (h_slots : w .slots = true) (h_time : w .time = true) (h_fabric : w .fabric = true) (h_history : w .history = true)
    (h : Keeps w k i s) : Keeps w k i (statusAct x0 x1 x2 s) := by
  unfold statusAct
  repeat' first
    | with_reducible assumption
    | (extract_lets +onlyGivenNames y0
       first
       | (refine_lift have hy0 : Keeps w k i y0 := ?_; ?_
          clear_value y0
          revert y0
          intro _ _
          rotate_left
          unfold y0
          clear y0)
       | (try clear_value y0
          revert y0
          intro _))
    | with_reducible refine count1_keeps h_counters ?_
    | with_reducible refine followActive_keeps h_counters h_flags h_bridge h_log h_rings h_lanes h_groups h_ports h_bufs h_accounts h_slots h_time h_fabric h_history ?_
    | with_reducible refine modProt_keeps h_groups ?_
    | with_reducible refine takeStatus_keeps h_groups ?_
    | with_reducible refine Keeps.ite ?_ ?_
    | split

theorem takeAddress_keeps {x0} (h_fabric : w .fabric = true)
    (h : Keeps w k i s) : Keeps w k i (takeAddress x0 s) := by
  unfold takeAddress
  repeat' first
    | with_reducible assumption
    | with_reducible refine ownChanged_keeps h_fabric ?_
    | with_reducible refine Keeps.ite ?_ ?_
    | split
    | with_reducible refine Keeps.set_fabric h_fabric ?_

theorem adopt_keeps {x0} (h_counters : w .counters = true) (h_flags : w .flags = true) (h_log : w .log = true) (h_fabric : w .fabric = true) (h_history : w .history = true)
    (h : Keeps w k i s) : Keeps w k i (adopt x0 s) := by
  unfold adopt
  repeat' first
    | with_reducible assumption
    | with_reducible refine setFlag_keeps h_counters h_flags h_log h_history ?_
    | with_reducible refine takeAddress_keeps h_fabric ?_
    | with_reducible refine Keeps.ite ?_ ?_
    | split

theorem sendLocal_keeps {x0 x1 x2} (h_counters : w .counters = true) (h_flags : w .flags = true) (h_log : w .log = true) (h_rings : w .rings = true) (h_ports : w .ports = true) (h_bufs : w .bufs = true) (h_fabric : w .fabric = true) (h_history : w .history = true)
    (h : Keeps w k i s) : Keeps w k i (sendLocal x0 x1 x2 s) := by
  unfold sendLocal
  repeat' first
    | with_reducible assumption
    | (extract_lets +onlyGivenNames y0
       first
       | (try clear_value y0
          revert y0
          intro _))
    | with_reducible refine fabQueue_keeps h_counters h_flags h_log h_rings h_ports h_bufs h_fabric h_history ?_

theorem flood_keeps {x0 x1 x2} (h_counters : w .counters = true) (h_flags : w .flags = true) (h_log : w .log = true) (h_rings : w .rings = true) (h_ports : w .ports = true) (h_bufs : w .bufs = true) (h_fabric : w .fabric = true) (h_history : w .history = true)
    (h : Keeps w k i s) : Keeps w k i (flood x0 x1 x2 s) := by
  unfold flood
  repeat' first
    | with_reducible assumption
    | with_reducible refine sendLocal_keeps h_counters h_flags h_log h_rings h_ports h_bufs h_fabric h_history ?_
    | with_reducible refine foldS_keeps (fun _ _ _ => ?_) ?_

theorem yieldAddress_keeps {x0 x1} (h_counters : w .counters = true) (h_flags : w .flags = true) (h_log : w .log = true) (h_fabric : w .fabric = true) (h_history : w .history = true)
    (h : Keeps w k i s) : Keeps w k i (yieldAddress x0 x1 s) := by
  unfold yieldAddress
  repeat' first
    | with_reducible assumption
    | with_reducible refine setFlag_keeps h_counters h_flags h_log h_history ?_
    | with_reducible refine takeAddress_keeps h_fabric ?_
    | with_reducible refine Keeps.ite ?_ ?_

theorem addrAct_keeps {x0 x1} (h_counters : w .counters = true) (h_flags : w .flags = true) (h_log : w .log = true) (h_rings : w .rings = true) (h_ports : w .ports = true) (h_bufs : w .bufs = true) (h_fabric : w .fabric = true) (h_history : w .history = true)
    (h : Keeps w k i s) : Keeps w k i (addrAct x0 x1 s) := by
  unfold addrAct
  repeat' first
    | with_reducible assumption
    | (extract_lets +onlyGivenNames y0
       first
       | (refine_lift have hy0 : Keeps w k i y0 := ?_; ?_
          clear_value y0
          revert y0
          intro _ _
          rotate_left
          unfold y0
          clear y0)
       | (try clear_value y0
          revert y0
          intro _))
    | with_reducible refine adopt_keeps h_counters h_flags h_log h_fabric h_history ?_
    | with_reducible refine flood_keeps h_counters h_flags h_log h_rings h_ports h_bufs h_fabric h_history ?_
    | with_reducible refine yieldAddress_keeps h_counters h_flags h_log h_fabric h_history ?_
    | with_reducible refine foldS_keeps (fun _ _ _ => ?_) ?_
    | with_reducible refine Keeps.ite ?_ ?_
    | split
    | with_reducible refine Keeps.set_fabric h_fabric ?_

theorem countCell_keeps {x0 x1} (h_counters : w .counters = true) (h_fabric : w .fabric = true)
    (h : Keeps w k i s) : Keeps w k i (countCell x0 x1 s) := by
  unfold countCell
  repeat' first
    | with_reducible assumption
    | with_reducible refine count_keeps h_counters ?_
    | with_reducible refine count1_keeps h_counters ?_
    | with_reducible refine modFab_keeps h_fabric ?_

theorem takeXoff_keeps {x0 x1 x2} (h_counters : w .counters = true) (h_flags : w .flags = true) (h_log : w .log = true) (h_rings : w .rings = true) (h_ports : w .ports = true) (h_bufs : w .bufs = true) (h_fabric : w .fabric = true) (h_history : w .history = true)
    (h : Keeps w k i s) : Keeps w k i (takeXoff x0 x1 x2 s) := by
  unfold takeXoff
  repeat' first
    | with_reducible assumption
    | with_reducible refine fabDrain_keeps h_counters h_flags h_log h_rings h_ports h_bufs h_fabric h_history ?_
    | with_reducible refine modFab_keeps h_fabric ?_
    | with_reducible refine Keeps.ite ?_ ?_
    | split

theorem addrEffect_keeps {x0 x1} (h_counters : w .counters = true) (h_flags : w .flags = true) (h_log : w .log = true) (h_rings : w .rings = true) (h_ports : w .ports = true) (h_bufs : w .bufs = true) (h_fabric : w .fabric = true) (h_history : w .history = true)
    (h : Keeps w k i s) : Keeps w k i (addrEffect x0 x1 s) := by
  unfold addrEffect
  repeat' first
    | with_reducible assumption
    | with_reducible refine addrAct_keeps h_counters h_flags h_log h_rings h_ports h_bufs h_fabric h_history ?_
    | with_reducible refine countCell_keeps h_counters h_fabric ?_
    | with_reducible refine takeXoff_keeps h_counters h_flags h_log h_rings h_ports h_bufs h_fabric h_history ?_

theorem addrFloodEffect_keeps (h_counters : w .counters = true) (h_flags : w .flags = true) (h_log : w .log = true) (h_rings : w .rings = true) (h_ports : w .ports = true) (h_bufs : w .bufs = true) (h_fabric : w .fabric = true) (h_history : w .history = true)
    (h : Keeps w k i s) : Keeps w k i (addrFloodEffect s) := by
  unfold addrFloodEffect
  repeat' first
    | with_reducible assumption
    | (extract_lets +onlyGivenNames y0
       first
       | (refine_lift have hy0 : Keeps w k i y0 := ?_; ?_
          clear_value y0
          revert y0
          intro _ _
          rotate_left
          unfold y0
          clear y0)
       | (try clear_value y0
          revert y0
          intro _))
    | with_reducible refine adopt_keeps h_counters h_flags h_log h_fabric h_history ?_
    | with_reducible refine flood_keeps h_counters h_flags h_log h_rings h_ports h_bufs h_fabric h_history ?_
    | with_reducible refine Keeps.set_fabric h_fabric ?_

theorem addrHoldExpiryEffect_keeps {x0} (h_fabric : w .fabric = true)
    (h : Keeps w k i s) : Keeps w k i (addrHoldExpiryEffect x0 s) := by
  unfold addrHoldExpiryEffect
  repeat' first
    | with_reducible assumption
    | with_reducible refine Keeps.set_fabric h_fabric ?_

theorem controlCell_keeps {x0 x1} (h_counters : w .counters = true) (h_flags : w .flags = true) (h_bridge : w .bridge = true) (h_log : w .log = true) (h_rings : w .rings = true) (h_lanes : w .lanes = true) (h_groups : w .groups = true) (h_ports : w .ports = true) (h_bufs : w .bufs = true) (h_accounts : w .accounts = true) (h_slots : w .slots = true) (h_time : w .time = true) (h_fabric : w .fabric = true) (h_history : w .history = true)
    (h : Keeps w k i s) : Keeps w k i (controlCell x0 x1 s) := by
  unfold controlCell
  repeat' first
    | with_reducible assumption
    | (extract_lets +onlyGivenNames y0
       first
       | (try clear_value y0
          revert y0
          intro _))
    | with_reducible refine ackAct_keeps h_groups ?_
    | with_reducible refine notifyAct_keeps h_counters h_flags h_bridge h_log h_rings h_lanes h_groups h_ports h_bufs h_accounts h_slots h_time h_fabric h_history ?_
    | with_reducible refine statusAct_keeps h_counters h_flags h_bridge h_log h_rings h_lanes h_groups h_ports h_bufs h_accounts h_slots h_time h_fabric h_history ?_
    | with_reducible refine Keeps.ite ?_ ?_

theorem deliverBad_keeps {x0} (h_counters : w .counters = true)
    (h : Keeps w k i s) : Keeps w k i (deliverBad x0 s) := by
  unfold deliverBad
  repeat' first
    | with_reducible assumption
    | with_reducible refine count1_keeps h_counters ?_

theorem withBuffer_keeps {n : SliceId} {p : Packet} {go : Packet → State → State} (h_counters : w .counters = true) (h_flags : w .flags = true) (h_log : w .log = true) (h_ports : w .ports = true) (h_bufs : w .bufs = true) (h_history : w .history = true)
    (hg : ∀ q s, Keeps w k i s → Keeps w k i (go q s)) (h : Keeps w k i s) : Keeps w k i (withBuffer n p go s) := by
  unfold withBuffer
  extract_lets o
  split
  · rename_i b s1 e
    exact hg _ _ (allocBuf_keepsE h_counters h_flags h_log h_ports h_bufs h_history e h)
  · rename_i b s1 e
    exact allocBuf_keepsE h_counters h_flags h_log h_ports h_bufs h_history e h

theorem deliverCell_keeps {x0 x1 x2} (h_counters : w .counters = true) (h_flags : w .flags = true) (h_bridge : w .bridge = true) (h_log : w .log = true) (h_rings : w .rings = true) (h_lanes : w .lanes = true) (h_groups : w .groups = true) (h_ports : w .ports = true) (h_ingress : w .ingress = true) (h_bufs : w .bufs = true) (h_accounts : w .accounts = true) (h_slots : w .slots = true) (h_fabric : w .fabric = true) (h_history : w .history = true)
    (h : Keeps w k i s) : Keeps w k i (deliverCell x0 x1 x2 s) := by
  unfold deliverCell
  repeat' first
    | with_reducible assumption
    | (extract_lets +onlyGivenNames y0
       first
       | (refine_lift have hy0 : Keeps w k i y0 := ?_; ?_
          clear_value y0
          revert y0
          intro _ _
          rotate_left
          unfold y0
          clear y0)
       | (try clear_value y0
          revert y0
          intro _))
    | with_reducible refine deliverBad_keeps h_counters ?_
    | with_reducible refine receiveFrame_keeps h_counters h_flags h_log h_rings h_ports h_ingress h_bufs h_history ?_
    | with_reducible refine toDest_keeps h_counters h_flags h_bridge h_log h_rings h_lanes h_groups h_ports h_ingress h_bufs h_accounts h_slots h_fabric h_history ?_
    | with_reducible refine withBuffer_keeps h_counters h_flags h_log h_ports h_bufs h_history (fun _ _ _ => ?_) ?_
    | with_reducible refine Keeps.ite ?_ ?_
    | split

theorem modRx_keeps {x1 x2} (h_fabric : w .fabric = true)
    (h : Keeps w k i s) : Keeps w k i (modRx s x1 x2) := by
  unfold modRx
  repeat' first
    | with_reducible assumption
    | with_reducible refine Keeps.set_fabric h_fabric ?_

theorem deliverRun_keeps {key n : Nat} (h_counters : w .counters = true) (h_flags : w .flags = true) (h_bridge : w .bridge = true) (h_log : w .log = true) (h_rings : w .rings = true) (h_lanes : w .lanes = true) (h_groups : w .groups = true) (h_ports : w .ports = true) (h_ingress : w .ingress = true) (h_bufs : w .bufs = true) (h_accounts : w .accounts = true) (h_slots : w .slots = true) (h_fabric : w .fabric = true) (h_history : w .history = true) (h : Keeps w k i s) : Keeps w k i (deliverRun key n s) := by
  induction n generalizing s with
  | zero => exact h
  | succ n ih =>
    unfold deliverRun
    dsimp only
    split
    · exact h
    · split
      · exact ih (deliverCell_keeps h_counters h_flags h_bridge h_log h_rings h_lanes h_groups h_ports h_ingress h_bufs h_accounts h_slots h_fabric h_history (modRx_keeps h_fabric h))
      · exact h

theorem raiseFull_keeps {x0} (h_counters : w .counters = true) (h_flags : w .flags = true) (h_log : w .log = true) (h_fabric : w .fabric = true) (h_history : w .history = true)
    (h : Keeps w k i s) : Keeps w k i (raiseFull x0 s) := by
  unfold raiseFull
  repeat' first
    | with_reducible assumption
    | with_reducible refine modFab_keeps h_fabric ?_
    | with_reducible refine ownChanged_keeps h_fabric ?_
    | with_reducible refine setFlag_keeps h_counters h_flags h_log h_history ?_

theorem testFull_keeps {x0} (h_counters : w .counters = true) (h_flags : w .flags = true) (h_log : w .log = true) (h_fabric : w .fabric = true) (h_history : w .history = true)
    (h : Keeps w k i s) : Keeps w k i (testFull x0 s) := by
  unfold testFull
  repeat' first
    | with_reducible assumption
    | (extract_lets +onlyGivenNames y0
       first
       | (try clear_value y0
          revert y0
          intro _))
    | with_reducible refine raiseFull_keeps h_counters h_flags h_log h_fabric h_history ?_
    | with_reducible refine Keeps.ite ?_ ?_

theorem raiseTwoWay_keeps {x0} (h_counters : w .counters = true) (h_flags : w .flags = true) (h_log : w .log = true) (h_rings : w .rings = true) (h_ports : w .ports = true) (h_bufs : w .bufs = true) (h_fabric : w .fabric = true) (h_history : w .history = true)
    (h : Keeps w k i s) : Keeps w k i (raiseTwoWay x0 s) := by
  unfold raiseTwoWay
  repeat' first
    | with_reducible assumption
    | (extract_lets +onlyGivenNames y0
       first
       | (refine_lift have hy0 : Keeps w k i y0 := ?_; ?_
          clear_value y0
          revert y0
          intro _ _
          rotate_left
          unfold y0
          clear y0)
       | (try clear_value y0
          revert y0
          intro _))
    | with_reducible refine modFab_keeps h_fabric ?_
    | with_reducible refine sendLocal_keeps h_counters h_flags h_log h_rings h_ports h_bufs h_fabric h_history ?_
    | with_reducible refine testFull_keeps h_counters h_flags h_log h_fabric h_history ?_
    | with_reducible refine foldS_keeps (fun _ _ _ => ?_) ?_

theorem helloAct_keeps {x0 x1} (h_counters : w .counters = true) (h_flags : w .flags = true) (h_bridge : w .bridge = true) (h_log : w .log = true) (h_rings : w .rings = true) (h_ports : w .ports = true) (h_bufs : w .bufs = true) (h_fabric : w .fabric = true) (h_history : w .history = true)
    (h : Keeps w k i s) : Keeps w k i (helloAct x0 x1 s) := by
  unfold helloAct
  repeat' first
    | with_reducible assumption
    | (extract_lets +onlyGivenNames y0
       first
       | (refine_lift have hy0 : Keeps w k i y0 := ?_; ?_
          clear_value y0
          revert y0
          intro _ _
          rotate_left
          unfold y0
          clear y0)
       | (try clear_value y0
          revert y0
          intro _))
    | with_reducible refine modFab_keeps h_fabric ?_
    | with_reducible refine raiseTwoWay_keeps h_counters h_flags h_log h_rings h_ports h_bufs h_fabric h_history ?_
    | with_reducible refine setFlag_keeps h_counters h_flags h_log h_history ?_
    | with_reducible refine takeDown_keeps h_counters h_flags h_bridge h_log h_rings h_ports h_bufs h_fabric h_history ?_
    | with_reducible refine testFull_keeps h_counters h_flags h_log h_fabric h_history ?_
    | with_reducible refine Keeps.ite ?_ ?_
    | split

theorem refreshRoot_keeps (h_counters : w .counters = true) (h_flags : w .flags = true) (h_log : w .log = true) (h_fabric : w .fabric = true) (h_history : w .history = true)
    (h : Keeps w k i s) : Keeps w k i (refreshRoot s) := by
  unfold refreshRoot
  repeat' first
    | with_reducible assumption
    | (extract_lets +onlyGivenNames y0
       first
       | (try clear_value y0
          revert y0
          intro _))
    | with_reducible refine setFlag_keeps h_counters h_flags h_log h_history ?_
    | with_reducible refine Keeps.ite ?_ ?_
    | split
    | with_reducible refine Keeps.set_fabric h_fabric ?_

theorem storeLsa_keeps {x0} (h_fabric : w .fabric = true)
    (h : Keeps w k i s) : Keeps w k i (storeLsa x0 s) := by
  unfold storeLsa
  repeat' first
    | with_reducible assumption
    | (extract_lets +onlyGivenNames y0
       first
       | (try clear_value y0
          revert y0
          intro _))
    | with_reducible refine Keeps.ite ?_ ?_
    | split
    | with_reducible refine Keeps.set_fabric h_fabric ?_

theorem lsaAct_keeps {x0 x1} (h_counters : w .counters = true) (h_flags : w .flags = true) (h_log : w .log = true) (h_rings : w .rings = true) (h_ports : w .ports = true) (h_bufs : w .bufs = true) (h_fabric : w .fabric = true) (h_history : w .history = true)
    (h : Keeps w k i s) : Keeps w k i (lsaAct x0 x1 s) := by
  unfold lsaAct
  repeat' first
    | with_reducible assumption
    | (extract_lets +onlyGivenNames y0
       first
       | (refine_lift have hy0 : Keeps w k i y0 := ?_; ?_
          clear_value y0
          revert y0
          intro _ _
          rotate_left
          unfold y0
          clear y0)
       | (try clear_value y0
          revert y0
          intro _))
    | with_reducible refine flood_keeps h_counters h_flags h_log h_rings h_ports h_bufs h_fabric h_history ?_
    | with_reducible refine modFab_keeps h_fabric ?_
    | with_reducible refine ownChanged_keeps h_fabric ?_
    | with_reducible refine refreshRoot_keeps h_counters h_flags h_log h_fabric h_history ?_
    | with_reducible refine storeLsa_keeps h_fabric ?_
    | with_reducible refine testFull_keeps h_counters h_flags h_log h_fabric h_history ?_
    | with_reducible refine yieldAddress_keeps h_counters h_flags h_log h_fabric h_history ?_
    | with_reducible refine Keeps.ite ?_ ?_
    | split
    | with_reducible refine Keeps.set_fabric h_fabric ?_

theorem sequenceCell_keeps {x0 x1 x2} (h_counters : w .counters = true) (h_flags : w .flags = true) (h_bridge : w .bridge = true) (h_log : w .log = true) (h_rings : w .rings = true) (h_lanes : w .lanes = true) (h_groups : w .groups = true) (h_ports : w .ports = true) (h_ingress : w .ingress = true) (h_bufs : w .bufs = true) (h_accounts : w .accounts = true) (h_slots : w .slots = true) (h_fabric : w .fabric = true) (h_history : w .history = true)
    (h : Keeps w k i s) : Keeps w k i (sequenceCell x0 x1 x2 s) := by
  unfold sequenceCell
  repeat' first
    | with_reducible assumption
    | (extract_lets +onlyGivenNames y0
       first
       | (refine_lift have hy0 : Keeps w k i y0 := ?_; ?_
          clear_value y0
          revert y0
          intro _ _
          rotate_left
          unfold y0
          clear y0)
       | (try clear_value y0
          revert y0
          intro _))
    | with_reducible refine count1_keeps h_counters ?_
    | with_reducible refine deliverCell_keeps h_counters h_flags h_bridge h_log h_rings h_lanes h_groups h_ports h_ingress h_bufs h_accounts h_slots h_fabric h_history ?_
    | with_reducible refine deliverRun_keeps h_counters h_flags h_bridge h_log h_rings h_lanes h_groups h_ports h_ingress h_bufs h_accounts h_slots h_fabric h_history ?_
    | with_reducible refine modRx_keeps h_fabric ?_
    | with_reducible refine Keeps.ite ?_ ?_

theorem transitCell_keeps {x0 x1} (h_counters : w .counters = true) (h_flags : w .flags = true) (h_bridge : w .bridge = true) (h_log : w .log = true) (h_rings : w .rings = true) (h_ports : w .ports = true) (h_bufs : w .bufs = true) (h_fabric : w .fabric = true) (h_history : w .history = true)
    (h : Keeps w k i s) : Keeps w k i (transitCell x0 x1 s) := by
  unfold transitCell
  repeat' first
    | with_reducible assumption
    | (extract_lets +onlyGivenNames y0
       first
       | (try clear_value y0
          revert y0
          intro _))
    | with_reducible refine count1_keeps h_counters ?_
    | with_reducible refine fabRoute_keeps h_counters h_flags h_bridge h_log h_rings h_ports h_bufs h_fabric h_history ?_
    | with_reducible refine whenB_keeps (fun _ _ => ?_) ?_
    | with_reducible refine Keeps.ite ?_ ?_

theorem dispatchCell_keeps {x0 x1} (h_counters : w .counters = true) (h_flags : w .flags = true) (h_bridge : w .bridge = true) (h_log : w .log = true) (h_rings : w .rings = true) (h_lanes : w .lanes = true) (h_groups : w .groups = true) (h_ports : w .ports = true) (h_ingress : w .ingress = true) (h_bufs : w .bufs = true) (h_accounts : w .accounts = true) (h_slots : w .slots = true) (h_time : w .time = true) (h_fabric : w .fabric = true) (h_history : w .history = true)
    (h : Keeps w k i s) : Keeps w k i (dispatchCell x0 x1 s) := by
  unfold dispatchCell
  repeat' first
    | with_reducible assumption
    | (extract_lets +onlyGivenNames y0
       first
       | (try clear_value y0
          revert y0
          intro _))
    | with_reducible refine addrAct_keeps h_counters h_flags h_log h_rings h_ports h_bufs h_fabric h_history ?_
    | with_reducible refine controlCell_keeps h_counters h_flags h_bridge h_log h_rings h_lanes h_groups h_ports h_bufs h_accounts h_slots h_time h_fabric h_history ?_
    | with_reducible refine helloAct_keeps h_counters h_flags h_bridge h_log h_rings h_ports h_bufs h_fabric h_history ?_
    | with_reducible refine lsaAct_keeps h_counters h_flags h_log h_rings h_ports h_bufs h_fabric h_history ?_
    | with_reducible refine sequenceCell_keeps h_counters h_flags h_bridge h_log h_rings h_lanes h_groups h_ports h_ingress h_bufs h_accounts h_slots h_fabric h_history ?_
    | with_reducible refine transitCell_keeps h_counters h_flags h_bridge h_log h_rings h_ports h_bufs h_fabric h_history ?_
    | with_reducible refine Keeps.ite ?_ ?_

theorem dropMoved_keeps {x0} (h_fabric : w .fabric = true)
    (h : Keeps w k i s) : Keeps w k i (dropMoved x0 s) := by
  unfold dropMoved
  repeat' first
    | with_reducible assumption
    | with_reducible refine Keeps.ite ?_ ?_
    | with_reducible refine Keeps.dite (fun _ => ?_) (fun _ => ?_)
    | split
    | with_reducible refine Keeps.set_fabric h_fabric ?_

theorem fabLpiEnterEffect_keeps {x0} (h_fabric : w .fabric = true)
    (h : Keeps w k i s) : Keeps w k i (fabLpiEnterEffect x0 s) := by
  unfold fabLpiEnterEffect
  repeat' first
    | with_reducible assumption
    | with_reducible refine modFab_keeps h_fabric ?_

theorem fabSeqHoldExpiryEffect_keeps {x0 x1} (h_counters : w .counters = true) (h_flags : w .flags = true) (h_bridge : w .bridge = true) (h_log : w .log = true) (h_rings : w .rings = true) (h_lanes : w .lanes = true) (h_groups : w .groups = true) (h_ports : w .ports = true) (h_ingress : w .ingress = true) (h_bufs : w .bufs = true) (h_accounts : w .accounts = true) (h_slots : w .slots = true) (h_fabric : w .fabric = true) (h_history : w .history = true)
    (h : Keeps w k i s) : Keeps w k i (fabSeqHoldExpiryEffect x0 x1 s) := by
  unfold fabSeqHoldExpiryEffect
  repeat' first
    | with_reducible assumption
    | (extract_lets +onlyGivenNames y0
       first
       | (refine_lift have hy0 : Keeps w k i y0 := ?_; ?_
          clear_value y0
          revert y0
          intro _ _
          rotate_left
          unfold y0
          clear y0)
       | (try clear_value y0
          revert y0
          intro _))
    | with_reducible refine count_keeps h_counters ?_
    | with_reducible refine deliverRun_keeps h_counters h_flags h_bridge h_log h_rings h_lanes h_groups h_ports h_ingress h_bufs h_accounts h_slots h_fabric h_history ?_
    | with_reducible refine modRx_keeps h_fabric ?_
    | split

theorem fabricCellRxEffect_keeps {x0 x1} (h_counters : w .counters = true) (h_flags : w .flags = true) (h_bridge : w .bridge = true) (h_log : w .log = true) (h_rings : w .rings = true) (h_lanes : w .lanes = true) (h_groups : w .groups = true) (h_ports : w .ports = true) (h_ingress : w .ingress = true) (h_bufs : w .bufs = true) (h_accounts : w .accounts = true) (h_slots : w .slots = true) (h_time : w .time = true) (h_fabric : w .fabric = true) (h_history : w .history = true)
    (h : Keeps w k i s) : Keeps w k i (fabricCellRxEffect x0 x1 s) := by
  unfold fabricCellRxEffect
  repeat' first
    | with_reducible assumption
    | (extract_lets +onlyGivenNames y0
       first
       | (refine_lift have hy0 : Keeps w k i y0 := ?_; ?_
          clear_value y0
          revert y0
          intro _ _
          rotate_left
          unfold y0
          clear y0)
       | (try clear_value y0
          revert y0
          intro _))
    | with_reducible refine count1_keeps h_counters ?_
    | with_reducible refine countCell_keeps h_counters h_fabric ?_
    | with_reducible refine dispatchCell_keeps h_counters h_flags h_bridge h_log h_rings h_lanes h_groups h_ports h_ingress h_bufs h_accounts h_slots h_time h_fabric h_history ?_
    | with_reducible refine modFab_keeps h_fabric ?_
    | with_reducible refine stallDrop_keeps h_counters ?_
    | with_reducible refine takeXoff_keeps h_counters h_flags h_log h_rings h_ports h_bufs h_fabric h_history ?_
    | with_reducible refine Keeps.ite ?_ ?_
    | split

theorem fabricLinkDownEffect_keeps {x0 x1} (h_counters : w .counters = true) (h_flags : w .flags = true) (h_bridge : w .bridge = true) (h_log : w .log = true) (h_rings : w .rings = true) (h_ports : w .ports = true) (h_bufs : w .bufs = true) (h_fabric : w .fabric = true) (h_history : w .history = true)
    (h : Keeps w k i s) : Keeps w k i (fabricLinkDownEffect x0 x1 s) := by
  unfold fabricLinkDownEffect
  repeat' first
    | with_reducible assumption
    | (extract_lets +onlyGivenNames y0
       first
       | (refine_lift have hy0 : Keeps w k i y0 := ?_; ?_
          clear_value y0
          revert y0
          intro _ _
          rotate_left
          unfold y0
          clear y0)
       | (try clear_value y0
          revert y0
          intro _))
    | with_reducible refine modFab_keeps h_fabric ?_
    | with_reducible refine takeDown_keeps h_counters h_flags h_bridge h_log h_rings h_ports h_bufs h_fabric h_history ?_
    | split

theorem fabricRouteReadApply_keeps {x0} 
    (h : Keeps w k i s) : KeepsDone w k i (fabricRouteReadApply x0 s) := by
  unfold fabricRouteReadApply
  repeat' first
    | with_reducible assumption
    | with_reducible refine KeepsDone.mk ?_

theorem setFabLane_keeps {x0 x1} (h_counters : w .counters = true) (h_flags : w .flags = true) (h_bridge : w .bridge = true) (h_log : w .log = true) (h_rings : w .rings = true) (h_ports : w .ports = true) (h_bufs : w .bufs = true) (h_fabric : w .fabric = true) (h_history : w .history = true)
    (h : Keeps w k i s) : Keeps w k i (setFabLane x0 x1 s) := by
  unfold setFabLane
  repeat' first
    | with_reducible assumption
    | (extract_lets +onlyGivenNames y0
       first
       | (refine_lift have hy0 : Keeps w k i y0 := ?_; ?_
          clear_value y0
          revert y0
          intro _ _
          rotate_left
          unfold y0
          clear y0)
       | (try clear_value y0
          revert y0
          intro _))
    | with_reducible refine modFab_keeps h_fabric ?_
    | with_reducible refine ownChanged_keeps h_fabric ?_
    | with_reducible refine takeDown_keeps h_counters h_flags h_bridge h_log h_rings h_ports h_bufs h_fabric h_history ?_
    | with_reducible refine Keeps.ite ?_ ?_

theorem fabricSetApply_keeps {x0} (h_counters : w .counters = true) (h_flags : w .flags = true) (h_bridge : w .bridge = true) (h_log : w .log = true) (h_rings : w .rings = true) (h_ports : w .ports = true) (h_bufs : w .bufs = true) (h_fabric : w .fabric = true) (h_history : w .history = true)
    (h : Keeps w k i s) : KeepsDone w k i (fabricSetApply x0 s) := by
  unfold fabricSetApply
  repeat' first
    | with_reducible assumption
    | (extract_lets +onlyGivenNames y0
       first
       | (refine_lift have hy0 : Keeps w k i y0 := ?_; ?_
          clear_value y0
          revert y0
          intro _ _
          rotate_left
          unfold y0
          clear y0)
       | (try clear_value y0
          revert y0
          intro _))
    | with_reducible refine okDone_keeps ?_
    | with_reducible refine setFabLane_keeps h_counters h_flags h_bridge h_log h_rings h_ports h_bufs h_fabric h_history ?_
    | with_reducible refine foldS_keeps (fun _ _ _ => ?_) ?_
    | with_reducible refine Keeps.ite ?_ ?_
    | with_reducible refine KeepsDone.ite ?_ ?_
    | split
    | with_reducible refine KeepsDone.mk ?_
    | with_reducible refine Keeps.set_fabric h_fabric ?_

theorem helloEffect_keeps {x0 x1} (h_counters : w .counters = true) (h_flags : w .flags = true) (h_bridge : w .bridge = true) (h_log : w .log = true) (h_rings : w .rings = true) (h_ports : w .ports = true) (h_bufs : w .bufs = true) (h_fabric : w .fabric = true) (h_history : w .history = true)
    (h : Keeps w k i s) : Keeps w k i (helloEffect x0 x1 s) := by
  unfold helloEffect
  repeat' first
    | with_reducible assumption
    | with_reducible refine countCell_keeps h_counters h_fabric ?_
    | with_reducible refine helloAct_keeps h_counters h_flags h_bridge h_log h_rings h_ports h_bufs h_fabric h_history ?_
    | with_reducible refine takeXoff_keeps h_counters h_flags h_log h_rings h_ports h_bufs h_fabric h_history ?_

theorem helloSendEffect_keeps {x0} (h_counters : w .counters = true) (h_flags : w .flags = true) (h_log : w .log = true) (h_rings : w .rings = true) (h_ports : w .ports = true) (h_bufs : w .bufs = true) (h_fabric : w .fabric = true) (h_history : w .history = true)
    (h : Keeps w k i s) : Keeps w k i (helloSendEffect x0 s) := by
  unfold helloSendEffect
  repeat' first
    | with_reducible assumption
    | with_reducible refine modFab_keeps h_fabric ?_
    | with_reducible refine sendLocal_keeps h_counters h_flags h_log h_rings h_ports h_bufs h_fabric h_history ?_

theorem idleCellSendEffect_keeps {x0} (h_counters : w .counters = true) (h_flags : w .flags = true) (h_log : w .log = true) (h_rings : w .rings = true) (h_ports : w .ports = true) (h_bufs : w .bufs = true) (h_fabric : w .fabric = true) (h_history : w .history = true)
    (h : Keeps w k i s) : Keeps w k i (idleCellSendEffect x0 s) := by
  unfold idleCellSendEffect
  repeat' first
    | with_reducible assumption
    | with_reducible refine sendLocal_keeps h_counters h_flags h_log h_rings h_ports h_bufs h_fabric h_history ?_

theorem lsaEffect_keeps {x0 x1} (h_counters : w .counters = true) (h_flags : w .flags = true) (h_log : w .log = true) (h_rings : w .rings = true) (h_ports : w .ports = true) (h_bufs : w .bufs = true) (h_fabric : w .fabric = true) (h_history : w .history = true)
    (h : Keeps w k i s) : Keeps w k i (lsaEffect x0 x1 s) := by
  unfold lsaEffect
  repeat' first
    | with_reducible assumption
    | with_reducible refine countCell_keeps h_counters h_fabric ?_
    | with_reducible refine lsaAct_keeps h_counters h_flags h_log h_rings h_ports h_bufs h_fabric h_history ?_
    | with_reducible refine takeXoff_keeps h_counters h_flags h_log h_rings h_ports h_bufs h_fabric h_history ?_

theorem lsaExpiryEffect_keeps {x0} (h_counters : w .counters = true) (h_flags : w .flags = true) (h_log : w .log = true) (h_fabric : w .fabric = true) (h_history : w .history = true)
    (h : Keeps w k i s) : Keeps w k i (lsaExpiryEffect x0 s) := by
  unfold lsaExpiryEffect
  repeat' first
    | with_reducible assumption
    | (extract_lets +onlyGivenNames y0
       first
       | (refine_lift have hy0 : Keeps w k i y0 := ?_; ?_
          clear_value y0
          revert y0
          intro _ _
          rotate_left
          unfold y0
          clear y0)
       | (try clear_value y0
          revert y0
          intro _))
    | with_reducible refine refreshRoot_keeps h_counters h_flags h_log h_fabric h_history ?_
    | with_reducible refine Keeps.ite ?_ ?_
    | split
    | with_reducible refine Keeps.set_fabric h_fabric ?_

theorem lsaSendEffect_keeps (h_counters : w .counters = true) (h_flags : w .flags = true) (h_log : w .log = true) (h_rings : w .rings = true) (h_ports : w .ports = true) (h_bufs : w .bufs = true) (h_fabric : w .fabric = true) (h_history : w .history = true)
    (h : Keeps w k i s) : Keeps w k i (lsaSendEffect s) := by
  unfold lsaSendEffect
  repeat' first
    | with_reducible assumption
    | (extract_lets +onlyGivenNames y0
       first
       | (refine_lift have hy0 : Keeps w k i y0 := ?_; ?_
          clear_value y0
          revert y0
          intro _ _
          rotate_left
          unfold y0
          clear y0)
       | (try clear_value y0
          revert y0
          intro _))
    | with_reducible refine flood_keeps h_counters h_flags h_log h_rings h_ports h_bufs h_fabric h_history ?_
    | with_reducible refine Keeps.set_fabric h_fabric ?_

theorem routeRecomputeEffect_keeps (h_counters : w .counters = true) (h_flags : w .flags = true) (h_log : w .log = true) (h_fabric : w .fabric = true) (h_history : w .history = true)
    (h : Keeps w k i s) : Keeps w k i (routeRecomputeEffect s) := by
  unfold routeRecomputeEffect
  repeat' first
    | with_reducible assumption
    | (extract_lets +onlyGivenNames y0
       first
       | (refine_lift have hy0 : Keeps w k i y0 := ?_; ?_
          clear_value y0
          revert y0
          intro _ _
          rotate_left
          unfold y0
          clear y0)
       | (try clear_value y0
          revert y0
          intro _))
    | with_reducible refine dropMoved_keeps h_fabric ?_
    | with_reducible refine pruneRx_keeps h_fabric ?_
    | with_reducible refine setFlag_keeps h_counters h_flags h_log h_history ?_
    | with_reducible refine Keeps.set_fabric h_fabric ?_

theorem dropGroupKeys_keeps {x0} (h_slots : w .slots = true)
    (h : Keeps w k i s) : Keeps w k i (dropGroupKeys x0 s) := by
  unfold dropGroupKeys
  repeat' first
    | with_reducible assumption
    | with_reducible refine modSlot_keeps h_slots ?_
    | with_reducible refine foldS_keeps (fun _ _ _ => ?_) ?_

theorem applyBinding_keeps {x0} (h_lanes : w .lanes = true) (h_groups : w .groups = true) (h_slots : w .slots = true)
    (h : Keeps w k i s) : Keeps w k i (applyBinding x0 s) := by
  unfold applyBinding
  repeat' first
    | with_reducible assumption
    | (extract_lets +onlyGivenNames y0
       first
       | (refine_lift have hy0 : Keeps w k i y0 := ?_; ?_
          clear_value y0
          revert y0
          intro _ _
          rotate_left
          unfold y0
          clear y0)
       | (try clear_value y0
          revert y0
          intro _))
    | with_reducible refine dropGroupKeys_keeps h_slots ?_
    | with_reducible refine modGroup_keeps h_groups ?_
    | with_reducible refine modLane_keeps h_lanes ?_
    | with_reducible refine foldS_keeps (fun _ _ _ => ?_) ?_
    | split

theorem applyMode_keeps {x0 x1} (h_counters : w .counters = true) (h_flags : w .flags = true) (h_latches : w .latches = true) (h_bridge : w .bridge = true) (h_log : w .log = true) (h_rings : w .rings = true) (h_lanes : w .lanes = true) (h_groups : w .groups = true) (h_ports : w .ports = true) (h_ingress : w .ingress = true) (h_bufs : w .bufs = true) (h_accounts : w .accounts = true) (h_cipher : w .cipher = true) (h_serdes : w .serdes = true) (h_fabric : w .fabric = true) (h_history : w .history = true)
    (h : Keeps w k i s) : Keeps w k i (applyMode x0 x1 s) := by
  unfold applyMode
  repeat' first
    | with_reducible assumption
    | (extract_lets +onlyGivenNames y0
       first
       | (refine_lift have hy0 : Keeps w k i y0 := ?_; ?_
          clear_value y0
          revert y0
          intro _ _
          rotate_left
          unfold y0
          clear y0)
       | (have hy1 : PathAll := y0
          clear hy1
          revert y0
          intro _)
       | (try clear_value y0
          revert y0
          intro _))
    | with_reducible refine cancelTest_keeps h_counters h_flags h_bridge h_log h_rings h_lanes h_groups h_ports h_ingress h_bufs h_accounts h_cipher h_serdes h_fabric h_history ?_
    | with_reducible refine clearRegs_keeps h_counters h_flags h_latches ?_
    | with_reducible refine laneStart_keeps h_counters h_flags h_bridge h_log h_rings h_lanes h_groups h_ports h_ingress h_bufs h_accounts h_cipher h_serdes h_fabric h_history ?_
    | with_reducible refine modPort_keeps h_ports ?_
    | with_reducible refine foldS_keeps (fun _ _ _ => ?_) ?_
    | with_reducible refine Keeps.set_path (.inl h_ports) (.inr ⟨rfl, rfl⟩) (.inr ⟨rfl, rfl, rfl⟩) (.inr rfl) (.inr ⟨rfl, rfl, rfl, rfl, rfl, rfl, rfl, rfl⟩) (.inr rfl) ?_

theorem applyPair_keeps {x0} (h_groups : w .groups = true)
    (h : Keeps w k i s) : Keeps w k i (applyPair x0 s) := by
  unfold applyPair
  repeat' first
    | with_reducible assumption
    | with_reducible refine modGroup_keeps h_groups ?_
    | split

theorem discardSliceFrames_keeps {x0} (h_counters : w .counters = true) (h_bridge : w .bridge = true) (h_rings : w .rings = true) (h_ports : w .ports = true) (h_ingress : w .ingress = true) (h_cls : w .cls = true) (h_bufs : w .bufs = true) (h_accounts : w .accounts = true) (h_fabric : w .fabric = true)
    (h : Keeps w k i s) : Keeps w k i (discardSliceFrames x0 s) := by
  unfold discardSliceFrames
  repeat' first
    | with_reducible assumption
    | (extract_lets +onlyGivenNames y0
       first
       | (refine_lift have hy0 : Keeps w k i y0 := ?_; ?_
          clear_value y0
          revert y0
          intro _ _
          rotate_left
          unfold y0
          clear y0)
       | (try clear_value y0
          revert y0
          intro _))
    | with_reducible refine count_keeps h_counters ?_
    | with_reducible refine dropOwed_keeps h_rings ?_
    | with_reducible refine keepPath_keeps h_bridge h_rings h_ports h_ingress h_cls h_accounts h_fabric ?_
    | with_reducible refine modBuf_keeps h_bufs ?_
    | with_reducible refine foldS_keeps (fun _ _ _ => ?_) ?_

theorem dropDownSlice_keeps {x0 x1} (h_counters : w .counters = true) (h_flags : w .flags = true) (h_log : w .log = true) (h_rings : w .rings = true) (h_ports : w .ports = true) (h_ingress : w .ingress = true) (h_bufs : w .bufs = true) (h_cipher : w .cipher = true) (h_history : w .history = true)
    (h : Keeps w k i s) : Keeps w k i (dropDownSlice x0 x1 s) := by
  unfold dropDownSlice
  repeat' first
    | with_reducible assumption
    | (extract_lets +onlyGivenNames y0
       first
       | (refine_lift have hy0 : Keeps w k i y0 := ?_; ?_
          clear_value y0
          revert y0
          intro _ _
          rotate_left
          unfold y0
          clear y0)
       | (first
          | have hy1 : PathAll := y0
          | have hy1 : CryptoAll := y0
          clear hy1
          revert y0
          intro _)
       | (try clear_value y0
          revert y0
          intro _))
    | with_reducible refine count_keeps h_counters ?_
    | with_reducible refine discard_keeps h_counters h_flags h_log h_rings h_ports h_bufs h_history ?_
    | with_reducible refine foldS_keeps (fun _ _ _ => ?_) ?_
    | with_reducible refine foldl_keeps (fun _ _ _ => ?_) ?_
    | with_reducible refine Keeps.ite ?_ ?_
    | split
    | with_reducible refine Keeps.set_path (.inr ⟨rfl, rfl, rfl, rfl, rfl⟩) (.inl h_ingress) (.inr ⟨rfl, rfl, rfl⟩) (.inr rfl) (.inr ⟨rfl, rfl, rfl, rfl, rfl, rfl, rfl, rfl⟩) (.inr rfl) ?_
    | with_reducible refine Keeps.set_crypto (.inr rfl) (.inr rfl) (.inl h_cipher) ?_

theorem startBuffers_keeps {x0} (h_counters : w .counters = true) (h_flags : w .flags = true) (h_bridge : w .bridge = true) (h_log : w .log = true) (h_rings : w .rings = true) (h_ports : w .ports = true) (h_ingress : w .ingress = true) (h_cls : w .cls = true) (h_bufs : w .bufs = true) (h_accounts : w .accounts = true) (h_fabric : w .fabric = true) (h_history : w .history = true)
    (h : Keeps w k i s) : Keeps w k i (startBuffers x0 s) := by
  unfold startBuffers
  repeat' first
    | with_reducible assumption
    | with_reducible refine discardSliceFrames_keeps h_counters h_bridge h_rings h_ports h_ingress h_cls h_bufs h_accounts h_fabric ?_
    | with_reducible refine modBuf_keeps h_bufs ?_
    | with_reducible refine refreshPressure_keeps h_counters h_flags h_log h_ports h_bufs h_history ?_
    | with_reducible refine Keeps.ite ?_ ?_
    | split

theorem startFabric_keeps (h_counters : w .counters = true) (h_flags : w .flags = true) (h_bridge : w .bridge = true) (h_log : w .log = true) (h_rings : w .rings = true) (h_ports : w .ports = true) (h_bufs : w .bufs = true) (h_fabric : w .fabric = true) (h_history : w .history = true)
    (h : Keeps w k i s) : Keeps w k i (startFabric s) := by
  unfold startFabric
  repeat' first
    | with_reducible assumption
    | (extract_lets +onlyGivenNames y0
       first
       | (refine_lift have hy0 : Keeps w k i y0 := ?_; ?_
          clear_value y0
          revert y0
          intro _ _
          rotate_left
          unfold y0
          clear y0)
       | (try clear_value y0
          revert y0
          intro _))
    | with_reducible refine fabSend_keeps h_counters h_flags h_bridge h_log h_rings h_ports h_bufs h_fabric h_history ?_
    | with_reducible refine ownChanged_keeps h_fabric ?_
    | with_reducible refine foldS_keeps (fun _ _ _ => ?_) ?_
    | with_reducible refine Keeps.ite ?_ ?_
    | split
    | with_reducible refine Keeps.set_fabric h_fabric ?_

theorem startGroup_keeps {x0} (h_counters : w .counters = true) (h_flags : w .flags = true) (h_bridge : w .bridge = true) (h_log : w .log = true) (h_rings : w .rings = true) (h_lanes : w .lanes = true) (h_groups : w .groups = true) (h_ports : w .ports = true) (h_ingress : w .ingress = true) (h_bufs : w .bufs = true) (h_accounts : w .accounts = true) (h_slots : w .slots = true) (h_cipher : w .cipher = true) (h_serdes : w .serdes = true) (h_fabric : w .fabric = true) (h_history : w .history = true)
    (h : Keeps w k i s) : Keeps w k i (startGroup x0 s) := by
  unfold startGroup
  repeat' first
    | with_reducible assumption
    | (extract_lets +onlyGivenNames y0
       first
       | (refine_lift have hy0 : Keeps w k i y0 := ?_; ?_
          clear_value y0
          revert y0
          intro _ _
          rotate_left
          unfold y0
          clear y0)
       | (try clear_value y0
          revert y0
          intro _))
    | with_reducible refine applyBinding_keeps h_lanes h_groups h_slots ?_
    | with_reducible refine applyPair_keeps h_groups ?_
    | with_reducible refine cancelTest_keeps h_counters h_flags h_bridge h_log h_rings h_lanes h_groups h_ports h_ingress h_bufs h_accounts h_cipher h_serdes h_fabric h_history ?_
    | with_reducible refine enterListen_keeps h_counters h_flags h_log h_lanes h_groups h_accounts h_history ?_
    | with_reducible refine laneStart_keeps h_counters h_flags h_bridge h_log h_rings h_lanes h_groups h_ports h_ingress h_bufs h_accounts h_cipher h_serdes h_fabric h_history ?_
    | with_reducible refine modGroup_keeps h_groups ?_
    | with_reducible refine foldS_keeps (fun _ _ _ => ?_) ?_
    | with_reducible refine Keeps.ite ?_ ?_
    | split

theorem startPorts_keeps {x0} (h_counters : w .counters = true) (h_flags : w .flags = true) (h_latches : w .latches = true) (h_bridge : w .bridge = true) (h_log : w .log = true) (h_rings : w .rings = true) (h_lanes : w .lanes = true) (h_groups : w .groups = true) (h_ports : w .ports = true) (h_ingress : w .ingress = true) (h_bufs : w .bufs = true) (h_accounts : w .accounts = true) (h_cipher : w .cipher = true) (h_serdes : w .serdes = true) (h_fabric : w .fabric = true) (h_history : w .history = true)
    (h : Keeps w k i s) : Keeps w k i (startPorts x0 s) := by
  unfold startPorts
  repeat' first
    | with_reducible assumption
    | (extract_lets +onlyGivenNames y0
       first
       | (refine_lift have hy0 : Keeps w k i y0 := ?_; ?_
          clear_value y0
          revert y0
          intro _ _
          rotate_left
          unfold y0
          clear y0)
       | (have hy1 : PathAll := y0
          clear hy1
          revert y0
          intro _)
       | (try clear_value y0
          revert y0
          intro _))
    | with_reducible refine applyMode_keeps h_counters h_flags h_latches h_bridge h_log h_rings h_lanes h_groups h_ports h_ingress h_bufs h_accounts h_cipher h_serdes h_fabric h_history ?_
    | with_reducible refine Keeps.ite ?_ ?_
    | split
    | with_reducible refine Keeps.set_path (.inl h_ports) (.inr ⟨rfl, rfl⟩) (.inr ⟨rfl, rfl, rfl⟩) (.inr rfl) (.inr ⟨rfl, rfl, rfl, rfl, rfl, rfl, rfl, rfl⟩) (.inr rfl) ?_

theorem startSched_keeps {x0} (h_ports : w .ports = true)
    (h : Keeps w k i s) : Keeps w k i (startSched x0 s) := by
  unfold startSched
  repeat' first
    | with_reducible assumption
    | (extract_lets +onlyGivenNames y0
       first
       | (refine_lift have hy0 : Keeps w k i y0 := ?_; ?_
          clear_value y0
          revert y0
          intro _ _
          rotate_left
          unfold y0
          clear y0)
       | (have hy1 : PathAll := y0
          clear hy1
          revert y0
          intro _)
       | (try clear_value y0
          revert y0
          intro _))
    | with_reducible refine modPort_keeps h_ports ?_
    | with_reducible refine foldS_keeps (fun _ _ _ => ?_) ?_
    | with_reducible refine Keeps.ite ?_ ?_
    | split
    | with_reducible refine Keeps.set_path (.inl h_ports) (.inr ⟨rfl, rfl⟩) (.inr ⟨rfl, rfl, rfl⟩) (.inr rfl) (.inr ⟨rfl, rfl, rfl, rfl, rfl, rfl, rfl, rfl⟩) (.inr rfl) ?_

theorem startFunction_keeps {x0} (h_counters : w .counters = true) (h_flags : w .flags = true) (h_latches : w .latches = true) (h_bridge : w .bridge = true) (h_log : w .log = true) (h_rings : w .rings = true) (h_lanes : w .lanes = true) (h_groups : w .groups = true) (h_ports : w .ports = true) (h_ingress : w .ingress = true) (h_cls : w .cls = true) (h_bufs : w .bufs = true) (h_accounts : w .accounts = true) (h_slots : w .slots = true) (h_cipher : w .cipher = true) (h_serdes : w .serdes = true) (h_fabric : w .fabric = true) (h_history : w .history = true)
    (h : Keeps w k i s) : Keeps w k i (startFunction x0 s) := by
  unfold startFunction
  repeat' first
    | with_reducible assumption
    | with_reducible refine startBuffers_keeps h_counters h_flags h_bridge h_log h_rings h_ports h_ingress h_cls h_bufs h_accounts h_fabric h_history ?_
    | with_reducible refine startFabric_keeps h_counters h_flags h_bridge h_log h_rings h_ports h_bufs h_fabric h_history ?_
    | with_reducible refine startGroup_keeps h_counters h_flags h_bridge h_log h_rings h_lanes h_groups h_ports h_ingress h_bufs h_accounts h_slots h_cipher h_serdes h_fabric h_history ?_
    | with_reducible refine startPorts_keeps h_counters h_flags h_latches h_bridge h_log h_rings h_lanes h_groups h_ports h_ingress h_bufs h_accounts h_cipher h_serdes h_fabric h_history ?_
    | with_reducible refine startSched_keeps h_ports ?_
    | with_reducible refine foldS_keeps (fun _ _ _ => ?_) ?_
    | split

theorem funcStartApply_keeps {x0} (h_counters : w .counters = true) (h_flags : w .flags = true) (h_latches : w .latches = true) (h_bridge : w .bridge = true) (h_log : w .log = true) (h_rings : w .rings = true) (h_lanes : w .lanes = true) (h_groups : w .groups = true) (h_ports : w .ports = true) (h_ingress : w .ingress = true) (h_cls : w .cls = true) (h_bufs : w .bufs = true) (h_accounts : w .accounts = true) (h_slots : w .slots = true) (h_cipher : w .cipher = true) (h_serdes : w .serdes = true) (h_fabric : w .fabric = true) (h_history : w .history = true)
    (h : Keeps w k i s) : KeepsDone w k i (funcStartApply x0 s) := by
  unfold funcStartApply
  repeat' first
    | with_reducible assumption
    | with_reducible refine okDone_keeps ?_
    | with_reducible refine startFunction_keeps h_counters h_flags h_latches h_bridge h_log h_rings h_lanes h_groups h_ports h_ingress h_cls h_bufs h_accounts h_slots h_cipher h_serdes h_fabric h_history ?_
    | with_reducible refine KeepsDone.mk ?_

theorem stopBuffers_keeps {x0} (h_bufs : w .bufs = true)
    (h : Keeps w k i s) : Keeps w k i (stopBuffers x0 s) := by
  unfold stopBuffers
  repeat' first
    | with_reducible assumption
    | with_reducible refine modBuf_keeps h_bufs ?_

theorem stopFabric_keeps (h_counters : w .counters = true) (h_flags : w .flags = true) (h_bridge : w .bridge = true) (h_log : w .log = true) (h_rings : w .rings = true) (h_ports : w .ports = true) (h_bufs : w .bufs = true) (h_fabric : w .fabric = true) (h_history : w .history = true)
    (h : Keeps w k i s) : Keeps w k i (stopFabric s) := by
  unfold stopFabric
  repeat' first
    | with_reducible assumption
    | (extract_lets +onlyGivenNames y0
       first
       | (refine_lift have hy0 : Keeps w k i y0 := ?_; ?_
          clear_value y0
          revert y0
          intro _ _
          rotate_left
          unfold y0
          clear y0)
       | (try clear_value y0
          revert y0
          intro _))
    | with_reducible refine takeDown_keeps h_counters h_flags h_bridge h_log h_rings h_ports h_bufs h_fabric h_history ?_
    | with_reducible refine foldS_keeps (fun _ _ _ => ?_) ?_
    | with_reducible refine Keeps.ite ?_ ?_
    | split
    | with_reducible refine Keeps.set_fabric h_fabric ?_

theorem trunkMetersOff_keeps {x0} (h_power : w .power = true)
    (h : Keeps w k i s) : Keeps w k i (trunkMetersOff x0 s) := by
  unfold trunkMetersOff
  repeat' first
    | with_reducible assumption
    | with_reducible refine modMeter_keeps h_power ?_
    | with_reducible refine foldS_keeps (fun _ _ _ => ?_) ?_

theorem stopGroup_keeps {x0} (h_counters : w .counters = true) (h_flags : w .flags = true) (h_log : w .log = true) (h_rings : w .rings = true) (h_lanes : w .lanes = true) (h_groups : w .groups = true) (h_ports : w .ports = true) (h_ingress : w .ingress = true) (h_bufs : w .bufs = true) (h_accounts : w .accounts = true) (h_slots : w .slots = true) (h_cipher : w .cipher = true) (h_time : w .time = true) (h_history : w .history = true) (h_power : w .power = true)
    (h : Keeps w k i s) : Keeps w k i (stopGroup x0 s) := by
  unfold stopGroup
  repeat' first
    | with_reducible assumption
    | (extract_lets +onlyGivenNames y0
       first
       | (refine_lift have hy0 : Keeps w k i y0 := ?_; ?_
          clear_value y0
          revert y0
          intro _ _
          rotate_left
          unfold y0
          clear y0)
       | (try clear_value y0
          revert y0
          intro _))
    | with_reducible refine clearGrants_keeps h_lanes h_groups ?_
    | with_reducible refine cutBurst_keeps h_counters h_flags h_log h_rings h_lanes h_groups h_ports h_bufs h_accounts h_slots h_history ?_
    | with_reducible refine dropDownSlice_keeps h_counters h_flags h_log h_rings h_ports h_ingress h_bufs h_cipher h_history ?_
    | with_reducible refine dropExtract_keeps h_lanes ?_
    | with_reducible refine followClock_keeps h_groups ?_
    | with_reducible refine loseIdentity_keeps h_lanes h_groups ?_
    | with_reducible refine modGroup_keeps h_groups ?_
    | with_reducible refine modLane_keeps h_lanes ?_
    | with_reducible refine putLatch_keeps h_time ?_
    | with_reducible refine refreshLinkFault_keeps h_counters h_flags h_log h_groups h_history ?_
    | with_reducible refine stopBursts_keeps h_counters h_flags h_log h_lanes h_groups h_ports h_bufs h_accounts h_slots h_history ?_
    | with_reducible refine trunkMetersOff_keeps h_power ?_
    | with_reducible refine foldS_keeps (fun _ _ _ => ?_) ?_
    | with_reducible refine Keeps.ite ?_ ?_
    | split

theorem stopPorts_keeps {x0} (h_ports : w .ports = true)
    (h : Keeps w k i s) : Keeps w k i (stopPorts x0 s) := by
  unfold stopPorts
  repeat' first
    | with_reducible assumption
    | with_reducible refine Keeps.set_path (.inl h_ports) (.inr ⟨rfl, rfl⟩) (.inr ⟨rfl, rfl, rfl⟩) (.inr rfl) (.inr ⟨rfl, rfl, rfl, rfl, rfl, rfl, rfl, rfl⟩) (.inr rfl) ?_

theorem stopSched_keeps {x0} (h_ports : w .ports = true)
    (h : Keeps w k i s) : Keeps w k i (stopSched x0 s) := by
  unfold stopSched
  repeat' first
    | with_reducible assumption
    | with_reducible refine Keeps.set_path (.inl h_ports) (.inr ⟨rfl, rfl⟩) (.inr ⟨rfl, rfl, rfl⟩) (.inr rfl) (.inr ⟨rfl, rfl, rfl, rfl, rfl, rfl, rfl, rfl⟩) (.inr rfl) ?_

theorem stopFunction_keeps {x0} (h_counters : w .counters = true) (h_flags : w .flags = true) (h_bridge : w .bridge = true) (h_log : w .log = true) (h_rings : w .rings = true) (h_lanes : w .lanes = true) (h_groups : w .groups = true) (h_ports : w .ports = true) (h_ingress : w .ingress = true) (h_bufs : w .bufs = true) (h_accounts : w .accounts = true) (h_slots : w .slots = true) (h_cipher : w .cipher = true) (h_time : w .time = true) (h_fabric : w .fabric = true) (h_history : w .history = true) (h_power : w .power = true)
    (h : Keeps w k i s) : Keeps w k i (stopFunction x0 s) := by
  unfold stopFunction
  repeat' first
    | with_reducible assumption
    | with_reducible refine stopBuffers_keeps h_bufs ?_
    | with_reducible refine stopFabric_keeps h_counters h_flags h_bridge h_log h_rings h_ports h_bufs h_fabric h_history ?_
    | with_reducible refine stopGroup_keeps h_counters h_flags h_log h_rings h_lanes h_groups h_ports h_ingress h_bufs h_accounts h_slots h_cipher h_time h_history h_power ?_
    | with_reducible refine stopPorts_keeps h_ports ?_
    | with_reducible refine stopSched_keeps h_ports ?_
    | with_reducible refine foldS_keeps (fun _ _ _ => ?_) ?_
    | split

theorem funcStopApply_keeps {x0} (h_counters : w .counters = true) (h_flags : w .flags = true) (h_bridge : w .bridge = true) (h_log : w .log = true) (h_rings : w .rings = true) (h_lanes : w .lanes = true) (h_groups : w .groups = true) (h_ports : w .ports = true) (h_ingress : w .ingress = true) (h_bufs : w .bufs = true) (h_accounts : w .accounts = true) (h_slots : w .slots = true) (h_cipher : w .cipher = true) (h_time : w .time = true) (h_fabric : w .fabric = true) (h_history : w .history = true) (h_power : w .power = true)
    (h : Keeps w k i s) : KeepsDone w k i (funcStopApply x0 s) := by
  unfold funcStopApply
  repeat' first
    | with_reducible assumption
    | with_reducible refine okDone_keeps ?_
    | with_reducible refine stopFunction_keeps h_counters h_flags h_bridge h_log h_rings h_lanes h_groups h_ports h_ingress h_bufs h_accounts h_slots h_cipher h_time h_fabric h_history h_power ?_
    | with_reducible refine KeepsDone.mk ?_

theorem captureCounter_keeps {a n : Nat} (h_counters : w .counters = true) (h_latches : w .latches = true) (h : Keeps w k i s) : Keeps w k i (captureCounter a n s) := by
  refine Keeps.set_regs (.inl h_counters) (.inr rfl) (.inl h_latches) (fun _ hc => ?_) h
  refine ⟨sparseWf_set (n := a) (x := n % 2 ^ 64) hc.1, hc.2.1, hc.2.2.1, fun b => ?_, hc.2.2.2.2.1, sparseWf_set hc.2.2.2.2.2⟩
  show sparseGet 0 (sparseSet 0 s.regs.ctr a (n % 2 ^ 64)) b < 2 ^ 64
  by_cases hb : b = a
  · subst hb
    rw [sparseGet_set_same hc.1]
    exact Nat.mod_lt _ (by decide)
  · rw [sparseGet_set_other hc.1 hb]
    exact hc.2.2.2.1 b

theorem captureTime_keeps (h_time : w .time = true)
    (h : Keeps w k i s) : Keeps w k i (captureTime s) := by
  unfold captureTime
  repeat' first
    | with_reducible assumption
    | with_reducible refine Keeps.set_time h_time ?_

theorem clearCollisions_keeps {a : Nat} {v : Word} (h_latches : w .latches = true) (h : Keeps w k i s) :
    Keeps w k i (clearCollisions a v s) := by
  refine foldS_keeps (fun x st hs => ?_) h
  refine Keeps.set_regs (.inr rfl) (.inr rfl) (.inl h_latches) (fun _ hc => ?_) hs
  refine ⟨hc.1, hc.2.1, sparseWf_set (n := keyOf (collidedAddr a x)) (x := if fld v (8 * x) 8 = 0 then 0 else 1) hc.2.2.1,
    hc.2.2.2.1, fun b => ?_, hc.2.2.2.2.2⟩
  show sparseGet 0 (sparseSet 0 st.regs.coll (keyOf (collidedAddr a x)) _) b ≤ 255
  by_cases hb : b = keyOf (collidedAddr a x)
  · subst hb
    rw [sparseGet_set_same hc.2.2.1]
    split <;> decide
  · rw [sparseGet_set_other hc.2.2.1 hb]
    exact hc.2.2.2.2.1 b

theorem latchTrx_keeps {x0} (h_lanes : w .lanes = true)
    (h : Keeps w k i s) : Keeps w k i (latchTrx x0 s) := by
  unfold latchTrx
  repeat' first
    | with_reducible assumption
    | with_reducible refine modLane_keeps h_lanes ?_

theorem readWord_keeps {x0 x1 x2} (h_counters : w .counters = true) (h_latches : w .latches = true) (h_lanes : w .lanes = true) (h_time : w .time = true)
    (h : Keeps w k i s) : Keeps w k i (readWord x0 x1 x2 s).2 := by
  unfold readWord
  repeat' first
    | with_reducible assumption
    | with_reducible refine captureCounter_keeps h_counters h_latches ?_
    | with_reducible refine captureTime_keeps h_time ?_
    | with_reducible refine clearCollisions_keeps h_latches ?_
    | with_reducible refine count1_keeps h_counters ?_
    | with_reducible refine latchTrx_keeps h_lanes ?_
    | with_reducible refine Keeps.ite ?_ ?_
    | split

theorem readWord_keepsE {x0 x1 x2} (h_counters : w .counters = true) (h_latches : w .latches = true) (h_lanes : w .lanes = true) (h_time : w .time = true) {p t} (e : readWord x0 x1 x2 s = (p, t))
    (h : Keeps w k i s) : Keeps w k i t := by
  have g := readWord_keeps (x0 := x0) (x1 := x1) (x2 := x2) h_counters h_latches h_lanes h_time h
  rw [e] at g
  exact g

theorem returned_keeps {x0} (h_env : w .env = true)
    (h : Keeps w k i s) : Keeps w k i (returned x0 s) := by
  unfold returned
  repeat' first
    | with_reducible assumption
    | with_reducible refine Keeps.set_env h_env ?_

theorem alignedRead_keeps {x0 x1} (h_env : w .env = true) (h_counters : w .counters = true) (h_latches : w .latches = true) (h_lanes : w .lanes = true) (h_time : w .time = true)
    (h : Keeps w k i s) : Keeps w k i (alignedRead x0 x1 s) := by
  unfold alignedRead
  repeat' first
    | with_reducible assumption
    | (extract_lets +onlyGivenNames y0
       first
       | (refine_lift have hy0 : Keeps w k i y0.2 := ?_; ?_
          clear_value y0
          revert y0
          intro _ _
          rotate_left
          unfold y0
          clear y0)
       | (try clear_value y0
          revert y0
          intro _))
    | (refine readWord_keepsE h_counters h_latches h_lanes h_time (by assumption) ?_)
    | with_reducible refine readWord_keeps h_counters h_latches h_lanes h_time ?_
    | with_reducible refine returned_keeps h_env ?_
    | with_reducible refine Keeps.ite ?_ ?_

theorem collide_keeps {a b : Nat} (h_counters : w .counters = true) (h_flags : w .flags = true) (h_latches : w .latches = true) (h_log : w .log = true) (h_history : w .history = true) (h : Keeps w k i s) : Keeps w k i (collide a b s) := by
  refine writeRecord_keeps h_counters h_flags h_log h_history (count1_keeps h_counters ?_)
  refine Keeps.set_regs (.inr rfl) (.inr rfl) (.inl h_latches) (fun _ hc => ?_) (putFlags_keeps (s := s) h_flags h)
  refine ⟨hc.1, hc.2.1, sparseWf_mod (n := a) (f := fun n => min 255 (n + 1)) hc.2.2.1, hc.2.2.2.1, fun x => ?_, hc.2.2.2.2.2⟩
  show sparseGet 0 (sparseMod 0 s.regs.coll a fun n => min 255 (n + 1)) x ≤ 255
  by_cases hx : x = a
  · subst hx
    have e := sparseGet_mod_same (n := x) (f := fun n => min 255 (n + 1)) hc.2.2.1
    exact Nat.le_trans (Nat.le_of_eq e) (Nat.min_le_left _ _)
  · rw [sparseGet_mod_other (t := s.regs.coll) hc.2.2.1 hx]
    exact hc.2.2.2.2.1 x

theorem hostRead_keeps {x0 x1 x2} (h_env : w .env = true) (h_counters : w .counters = true) (h_latches : w .latches = true) (h_lanes : w .lanes = true) (h_time : w .time = true)
    (h : Keeps w k i s) : Keeps w k i (hostRead x0 x1 x2 s) := by
  unfold hostRead
  repeat' first
    | with_reducible assumption
    | (extract_lets +onlyGivenNames y0
       first
       | (refine_lift have hy0 : Keeps w k i y0.2 := ?_; ?_
          clear_value y0
          revert y0
          intro _ _
          rotate_left
          unfold y0
          clear y0)
       | (try clear_value y0
          revert y0
          intro _))
    | (refine readWord_keepsE h_counters h_latches h_lanes h_time (by assumption) ?_)
    | with_reducible refine readWord_keeps h_counters h_latches h_lanes h_time ?_
    | with_reducible refine returned_keeps h_env ?_

theorem collisionCounterReadEffect_keeps {x0 x1} (h_env : w .env = true) (h_counters : w .counters = true) (h_latches : w .latches = true) (h_lanes : w .lanes = true) (h_time : w .time = true)
    (h : Keeps w k i s) : Keeps w k i (collisionCounterReadEffect x0 x1 s) := by
  unfold collisionCounterReadEffect
  repeat' first
    | with_reducible assumption
    | with_reducible refine hostRead_keeps h_env h_counters h_latches h_lanes h_time ?_

theorem counterHighReadEffect_keeps {x0} (h_env : w .env = true) (h_counters : w .counters = true) (h_latches : w .latches = true) (h_lanes : w .lanes = true) (h_time : w .time = true)
    (h : Keeps w k i s) : Keeps w k i (counterHighReadEffect x0 s) := by
  unfold counterHighReadEffect
  repeat' first
    | with_reducible assumption
    | with_reducible refine hostRead_keeps h_env h_counters h_latches h_lanes h_time ?_

theorem counterLowReadEffect_keeps {x0 x1} (h_env : w .env = true) (h_counters : w .counters = true) (h_latches : w .latches = true) (h_lanes : w .lanes = true) (h_time : w .time = true)
    (h : Keeps w k i s) : Keeps w k i (counterLowReadEffect x0 x1 s) := by
  unfold counterLowReadEffect
  repeat' first
    | with_reducible assumption
    | with_reducible refine hostRead_keeps h_env h_counters h_latches h_lanes h_time ?_

theorem rcReadEffect_keeps {x0} (h_env : w .env = true) (h_counters : w .counters = true) (h_latches : w .latches = true) (h_lanes : w .lanes = true) (h_time : w .time = true)
    (h : Keeps w k i s) : Keeps w k i (rcReadEffect x0 s) := by
  unfold rcReadEffect
  repeat' first
    | with_reducible assumption
    | with_reducible refine hostRead_keeps h_env h_counters h_latches h_lanes h_time ?_

theorem roWrite_keeps {x0} (h_counters : w .counters = true) (h_latches : w .latches = true)
    (h : Keeps w k i s) : Keeps w k i (roWrite x0 s) := by
  unfold roWrite
  repeat' first
    | with_reducible assumption
    | (extract_lets +onlyGivenNames y0
       first
       | (refine_lift have hy0 : Keeps w k i y0 := ?_; ?_
          clear_value y0
          revert y0
          intro _ _
          rotate_left
          unfold y0
          clear y0)
       | (have hy1 : Regs := y0
          clear hy1
          revert y0
          intro _)
       | (try clear_value y0
          revert y0
          intro _))
    | with_reducible refine count1_keeps h_counters ?_
    | exact fun _ hc => hc
    | with_reducible refine Keeps.set_regs (.inr rfl) (.inr rfl) (.inl h_latches) ?_ ?_

theorem w1cBit_keeps {x0 x1 x2 x3} (h_counters : w .counters = true) (h_flags : w .flags = true) (h_latches : w .latches = true) (h_log : w .log = true) (h_history : w .history = true)
    (h : Keeps w k i s) : Keeps w k i (w1cBit x0 x1 x2 x3 s) := by
  unfold w1cBit
  repeat' first
    | with_reducible assumption
    | with_reducible refine collide_keeps h_counters h_flags h_latches h_log h_history ?_
    | with_reducible refine putFlags_keeps h_flags ?_
    | with_reducible refine setFlag_keeps h_counters h_flags h_log h_history ?_
    | with_reducible refine Keeps.ite ?_ ?_

theorem w1cWrite_keeps {x0 x1 x2} (h_counters : w .counters = true) (h_flags : w .flags = true) (h_latches : w .latches = true) (h_log : w .log = true) (h_history : w .history = true)
    (h : Keeps w k i s) : Keeps w k i (w1cWrite x0 x1 x2 s) := by
  unfold w1cWrite
  repeat' first
    | with_reducible assumption
    | with_reducible refine w1cBit_keeps h_counters h_flags h_latches h_log h_history ?_
    | with_reducible refine foldS_keeps (fun _ _ _ => ?_) ?_

theorem writeArea_keeps {x0 x1} (h_counters : w .counters = true) (h_flags : w .flags = true) (h_latches : w .latches = true) (h_mail : w .mail = true) (h_log : w .log = true) (h_history : w .history = true)
    (h : Keeps w k i s) : Keeps w k i (writeArea x0 x1 s) := by
  unfold writeArea
  repeat' first
    | with_reducible assumption
    | (extract_lets +onlyGivenNames y0
       first
       | (try clear_value y0
          revert y0
          intro _))
    | with_reducible refine requestAreaWriteEffect_keeps h_counters h_flags h_mail h_log h_history ?_
    | with_reducible refine roWrite_keeps h_counters h_latches ?_
    | with_reducible refine Keeps.ite ?_ ?_

theorem writeControl_keeps {x0 x1} (h_env : w .env = true) (h_counters : w .counters = true) (h_flags : w .flags = true) (h_anchor : w .anchor = true) (h_mail : w .mail = true) (h_log : w .log = true) (h_history : w .history = true)
    (h : Keeps w k i s) : Keeps w k i (writeControl x0 x1 s) := by
  unfold writeControl
  repeat' first
    | with_reducible assumption
    | with_reducible refine abortEffect_keeps h_env h_counters h_flags h_anchor h_mail h_log h_history ?_
    | with_reducible refine ringEffect_keeps h_counters h_flags h_mail h_log h_history ?_
    | with_reducible refine Keeps.ite ?_ ?_

theorem writeMsix_keeps {x0 x1 x2} (h_log : w .log = true)
    (h : Keeps w k i s) : Keeps w k i (writeMsix x0 x1 x2 s) := by
  unfold writeMsix
  repeat' first
    | with_reducible assumption
    | with_reducible refine modVec_keeps h_log ?_

theorem writeGlobal_keeps {x0 x1} (h_env : w .env = true) (h_counters : w .counters = true) (h_flags : w .flags = true) (h_latches : w .latches = true) (h_anchor : w .anchor = true) (h_mail : w .mail = true) (h_log : w .log = true) (h_rings : w .rings = true) (h_history : w .history = true)
    (h : Keeps w k i s) : Keeps w k i (writeGlobal x0 x1 s) := by
  unfold writeGlobal
  repeat' first
    | with_reducible assumption
    | with_reducible refine evqConsWriteEffect_keeps h_log h_history ?_
    | with_reducible refine roWrite_keeps h_counters h_latches ?_
    | with_reducible refine rxqTailWriteEffect_keeps h_rings ?_
    | with_reducible refine txqTailWriteEffect_keeps h_rings ?_
    | with_reducible refine writeArea_keeps h_counters h_flags h_latches h_mail h_log h_history ?_
    | with_reducible refine writeControl_keeps h_env h_counters h_flags h_anchor h_mail h_log h_history ?_
    | with_reducible refine writeMsix_keeps h_log ?_
    | with_reducible refine Keeps.ite ?_ ?_

theorem writeWord_keeps {x0 x1} (h_env : w .env = true) (h_counters : w .counters = true) (h_flags : w .flags = true) (h_latches : w .latches = true) (h_anchor : w .anchor = true) (h_mail : w .mail = true) (h_log : w .log = true) (h_rings : w .rings = true) (h_history : w .history = true)
    (h : Keeps w k i s) : Keeps w k i (writeWord x0 x1 s) := by
  unfold writeWord
  repeat' first
    | with_reducible assumption
    | with_reducible refine count1_keeps h_counters ?_
    | with_reducible refine roWrite_keeps h_counters h_latches ?_
    | with_reducible refine w1cWrite_keeps h_counters h_flags h_latches h_log h_history ?_
    | with_reducible refine writeGlobal_keeps h_env h_counters h_flags h_latches h_anchor h_mail h_log h_rings h_history ?_
    | with_reducible refine Keeps.ite ?_ ?_

theorem registerWriteEffect_keeps {x0 x1} (h_env : w .env = true) (h_counters : w .counters = true) (h_flags : w .flags = true) (h_latches : w .latches = true) (h_anchor : w .anchor = true) (h_mail : w .mail = true) (h_log : w .log = true) (h_rings : w .rings = true) (h_history : w .history = true)
    (h : Keeps w k i s) : Keeps w k i (registerWriteEffect x0 x1 s) := by
  unfold registerWriteEffect
  repeat' first
    | with_reducible assumption
    | with_reducible refine writeWord_keeps h_env h_counters h_flags h_latches h_anchor h_mail h_log h_rings h_history ?_

theorem rngLaneTrxLoReadEffect_keeps {x0} (h_env : w .env = true) (h_counters : w .counters = true) (h_latches : w .latches = true) (h_lanes : w .lanes = true) (h_time : w .time = true)
    (h : Keeps w k i s) : Keeps w k i (rngLaneTrxLoReadEffect x0 s) := by
  unfold rngLaneTrxLoReadEffect
  repeat' first
    | with_reducible assumption
    | with_reducible refine hostRead_keeps h_env h_counters h_latches h_lanes h_time ?_

theorem smbusAnchorReadEffect_keeps (h_env : w .env = true)
    (h : Keeps w k i s) : Keeps w k i (smbusAnchorReadEffect s) := by
  unfold smbusAnchorReadEffect
  repeat' first
    | with_reducible assumption
    | with_reducible refine smbusReply_keeps h_env ?_

theorem smbusBadCodeEffect_keeps {x0} (h_counters : w .counters = true)
    (h : Keeps w k i s) : Keeps w k i (smbusBadCodeEffect x0 s) := by
  unfold smbusBadCodeEffect
  repeat' first
    | with_reducible assumption
    | with_reducible refine count1_keeps h_counters ?_

theorem smbusDevIdReadEffect_keeps (h_env : w .env = true)
    (h : Keeps w k i s) : Keeps w k i (smbusDevIdReadEffect s) := by
  unfold smbusDevIdReadEffect
  repeat' first
    | with_reducible assumption
    | with_reducible refine smbusReply_keeps h_env ?_

theorem smbusLogStatusReadEffect_keeps (h_env : w .env = true)
    (h : Keeps w k i s) : Keeps w k i (smbusLogStatusReadEffect s) := by
  unfold smbusLogStatusReadEffect
  repeat' first
    | with_reducible assumption
    | with_reducible refine smbusReply_keeps h_env ?_

theorem smbusSensorReadEffect_keeps {x0} (h_env : w .env = true)
    (h : Keeps w k i s) : Keeps w k i (smbusSensorReadEffect x0 s) := by
  unfold smbusSensorReadEffect
  repeat' first
    | with_reducible assumption
    | with_reducible refine smbusReply_keeps h_env ?_

theorem timeNsReadEffect_keeps (h_env : w .env = true) (h_counters : w .counters = true) (h_latches : w .latches = true) (h_lanes : w .lanes = true) (h_time : w .time = true)
    (h : Keeps w k i s) : Keeps w k i (timeNsReadEffect s) := by
  unfold timeNsReadEffect
  repeat' first
    | with_reducible assumption
    | with_reducible refine hostRead_keeps h_env h_counters h_latches h_lanes h_time ?_

theorem unalignedAccessEffect_keeps {x0 x1 x2} (h_env : w .env = true) (h_counters : w .counters = true) (h_latches : w .latches = true) (h_lanes : w .lanes = true) (h_time : w .time = true)
    (h : Keeps w k i s) : Keeps w k i (unalignedAccessEffect x0 x1 x2 s) := by
  unfold unalignedAccessEffect
  repeat' first
    | with_reducible assumption
    | with_reducible refine alignedRead_keeps h_env h_counters h_latches h_lanes h_time ?_
    | with_reducible refine returned_keeps h_env ?_
    | with_reducible refine roWrite_keeps h_counters h_latches ?_
    | with_reducible refine Keeps.ite ?_ ?_

theorem unreachableAccessEffect_keeps {x0 x1} (h_env : w .env = true) (h_counters : w .counters = true)
    (h : Keeps w k i s) : Keeps w k i (unreachableAccessEffect x0 x1 s) := by
  unfold unreachableAccessEffect
  repeat' first
    | with_reducible assumption
    | (extract_lets +onlyGivenNames y0
       first
       | (refine_lift have hy0 : Keeps w k i y0 := ?_; ?_
          clear_value y0
          revert y0
          intro _ _
          rotate_left
          unfold y0
          clear y0)
       | (try clear_value y0
          revert y0
          intro _))
    | with_reducible refine count1_keeps h_counters ?_
    | with_reducible refine returned_keeps h_env ?_
    | with_reducible refine Keeps.ite ?_ ?_

theorem w1cClearEffect_keeps {x0 x1 x2} (h_counters : w .counters = true) (h_flags : w .flags = true) (h_latches : w .latches = true) (h_log : w .log = true) (h_history : w .history = true)
    (h : Keeps w k i s) : Keeps w k i (w1cClearEffect x0 x1 x2 s) := by
  unfold w1cClearEffect
  repeat' first
    | with_reducible assumption
    | with_reducible refine w1cWrite_keeps h_counters h_flags h_latches h_log h_history ?_

theorem landCell_keeps {x0} (h_counters : w .counters = true) (h_flags : w .flags = true) (h_bridge : w .bridge = true) (h_log : w .log = true) (h_rings : w .rings = true) (h_lanes : w .lanes = true) (h_groups : w .groups = true) (h_ports : w .ports = true) (h_ingress : w .ingress = true) (h_bufs : w .bufs = true) (h_accounts : w .accounts = true) (h_slots : w .slots = true) (h_time : w .time = true) (h_fabric : w .fabric = true) (h_history : w .history = true)
    (h : Keeps w k i s) : Keeps w k i (landCell x0 s) := by
  unfold landCell
  repeat' first
    | with_reducible assumption
    | with_reducible refine sequenceCell_keeps h_counters h_flags h_bridge h_log h_rings h_lanes h_groups h_ports h_ingress h_bufs h_accounts h_slots h_fabric h_history ?_
    | with_reducible refine controlCell_keeps h_counters h_flags h_bridge h_log h_rings h_lanes h_groups h_ports h_bufs h_accounts h_slots h_time h_fabric h_history ?_
    | with_reducible refine Keeps.ite ?_ ?_

theorem stopTime_keeps (h_time : w .time = true)
    (h : Keeps w k i s) : Keeps w k i (stopTime s) := by
  unfold stopTime
  repeat' first
    | with_reducible assumption
    | with_reducible refine Keeps.set_time h_time ?_

theorem switchTime_keeps {x0} (h_counters : w .counters = true) (h_flags : w .flags = true) (h_log : w .log = true) (h_time : w .time = true) (h_history : w .history = true)
    (h : Keeps w k i s) : Keeps w k i (switchTime x0 s) := by
  unfold switchTime
  repeat' first
    | with_reducible assumption
    | with_reducible refine count1_keeps h_counters ?_
    | with_reducible refine setFlag_keeps h_counters h_flags h_log h_history ?_
    | with_reducible refine Keeps.set_time h_time ?_

theorem tickBridge_keeps {x0 x1} (h_bridge : w .bridge = true)
    (h : Keeps w k i s) : Keeps w k i (tickBridge x0 x1 s) := by
  unfold tickBridge
  repeat' first
    | with_reducible assumption
    | with_reducible refine modBridge_keeps h_bridge ?_
    | with_reducible refine Keeps.ite ?_ ?_
    | split

theorem tickChan_keeps {x0} (h_counters : w .counters = true) (h_hbm : w .hbm = true)
    (h : Keeps w k i s) : Keeps w k i (tickChan x0 s) := by
  unfold tickChan
  repeat' first
    | with_reducible assumption
    | with_reducible refine modChan_keeps h_hbm ?_ ?_
    | with_reducible refine serveWaiting_keeps h_counters h_hbm ?_
    | with_reducible refine Keeps.ite ?_ ?_
    | split
    | (intro _ x hx
       try dsimp only
       repeat' split
       all_goals first
         | exact hx
         | rfl
         | simpa using hx)
    | exact fun _ hc => hc
    | exact fun _ _ hx => hx

theorem tickGroup_keeps {x0} (h_groups : w .groups = true)
    (h : Keeps w k i s) : Keeps w k i (tickGroup x0 s) := by
  unfold tickGroup
  repeat' first
    | with_reducible assumption
    | with_reducible refine modGroup_keeps h_groups ?_
    | with_reducible refine Keeps.ite ?_ ?_

theorem tickLane_keeps {x0} (h_counters : w .counters = true) (h_lanes : w .lanes = true)
    (h : Keeps w k i s) : Keeps w k i (tickLane x0 s) := by
  unfold tickLane
  repeat' first
    | with_reducible assumption
    | (extract_lets +onlyGivenNames y0
       first
       | (refine_lift have hy0 : Keeps w k i y0 := ?_; ?_
          clear_value y0
          revert y0
          intro _ _
          rotate_left
          unfold y0
          clear y0)
       | (try clear_value y0
          revert y0
          intro _))
    | with_reducible refine count1_keeps h_counters ?_
    | with_reducible refine integrateLos_keeps h_lanes ?_
    | with_reducible refine Keeps.ite ?_ ?_

theorem tickLocal_keeps (h_counters : w .counters = true) (h_flags : w .flags = true) (h_bridge : w .bridge = true) (h_log : w .log = true) (h_rings : w .rings = true) (h_lanes : w .lanes = true) (h_groups : w .groups = true) (h_ports : w .ports = true) (h_ingress : w .ingress = true) (h_bufs : w .bufs = true) (h_accounts : w .accounts = true) (h_slots : w .slots = true) (h_time : w .time = true) (h_fabric : w .fabric = true) (h_history : w .history = true)
    (h : Keeps w k i s) : Keeps w k i (tickLocal s) := by
  unfold tickLocal
  repeat' first
    | with_reducible assumption
    | with_reducible refine landCell_keeps h_counters h_flags h_bridge h_log h_rings h_lanes h_groups h_ports h_ingress h_bufs h_accounts h_slots h_time h_fabric h_history ?_
    | with_reducible refine foldS_keeps (fun _ _ _ => ?_) ?_
    | with_reducible refine Keeps.set_fabric h_fabric ?_

theorem tickPattern_keeps {x0} (h_counters : w .counters = true)
    (h : Keeps w k i s) : Keeps w k i (tickPattern x0 s) := by
  unfold tickPattern
  repeat' first
    | with_reducible assumption
    | (extract_lets +onlyGivenNames y0
       first
       | (try clear_value y0
          revert y0
          intro _))
    | with_reducible refine count_keeps h_counters ?_
    | with_reducible refine Keeps.ite ?_ ?_

theorem tickPm_keeps {x0} (h_groups : w .groups = true)
    (h : Keeps w k i s) : Keeps w k i (tickPm x0 s) := by
  unfold tickPm
  repeat' first
    | with_reducible assumption
    | with_reducible refine modGroup_keeps h_groups ?_
    | with_reducible refine Keeps.ite ?_ ?_

theorem tickSlice_keeps {x0} (h_power : w .power = true)
    (h : Keeps w k i s) : Keeps w k i (tickSlice x0 s) := by
  unfold tickSlice
  repeat' first
    | with_reducible assumption
    | with_reducible refine modPw_keeps h_power ?_
    | with_reducible refine Keeps.ite ?_ ?_

theorem tickGap_keeps (h_time : w .time = true)
    (h : Keeps w k i s) : Keeps w k i (tickGap s) := by
  unfold tickGap
  repeat' first
    | with_reducible assumption
    | with_reducible refine Keeps.ite ?_ ?_
    | split
    | with_reducible refine Keeps.set_time h_time ?_

theorem tickTime_keeps (h_counters : w .counters = true) (h_flags : w .flags = true) (h_log : w .log = true) (h_time : w .time = true) (h_history : w .history = true)
    (h : Keeps w k i s) : Keeps w k i (tickTime s) := by
  unfold tickTime
  repeat' first
    | with_reducible assumption
    | with_reducible refine stopTime_keeps h_time ?_
    | with_reducible refine switchTime_keeps h_counters h_flags h_log h_time h_history ?_
    | with_reducible refine tickGap_keeps h_time ?_
    | with_reducible refine Keeps.ite ?_ ?_
    | split
    | with_reducible refine Keeps.set_time h_time ?_

theorem usChan_keeps {x0} (h_counters : w .counters = true)
    (h : Keeps w k i s) : Keeps w k i (usChan x0 s) := by
  unfold usChan
  repeat' first
    | with_reducible assumption
    | with_reducible refine count1_keeps h_counters ?_
    | with_reducible refine Keeps.ite ?_ ?_

theorem usFab_keeps {x0} (h_counters : w .counters = true)
    (h : Keeps w k i s) : Keeps w k i (usFab x0 s) := by
  unfold usFab
  repeat' first
    | with_reducible assumption
    | (extract_lets +onlyGivenNames y0
       first
       | (try clear_value y0
          revert y0
          intro _))
    | with_reducible refine count1_keeps h_counters ?_
    | with_reducible refine Keeps.ite ?_ ?_

theorem usPort_keeps {x0} (h_counters : w .counters = true)
    (h : Keeps w k i s) : Keeps w k i (usPort x0 s) := by
  unfold usPort
  repeat' first
    | with_reducible assumption
    | (extract_lets +onlyGivenNames y0
       first
       | (refine_lift have hy0 : Keeps w k i y0 := ?_; ?_
          clear_value y0
          revert y0
          intro _ _
          rotate_left
          unfold y0
          clear y0)
       | (try clear_value y0
          revert y0
          intro _))
    | with_reducible refine count1_keeps h_counters ?_
    | with_reducible refine Keeps.ite ?_ ?_

theorem usSlice_keeps {x0} (h_counters : w .counters = true)
    (h : Keeps w k i s) : Keeps w k i (usSlice x0 s) := by
  unfold usSlice
  repeat' first
    | with_reducible assumption
    | with_reducible refine count1_keeps h_counters ?_
    | with_reducible refine Keeps.ite ?_ ?_

theorem usSpill_keeps (h_counters : w .counters = true) (h_accounts : w .accounts = true)
    (h : Keeps w k i s) : Keeps w k i (usSpill s) := by
  unfold usSpill
  repeat' first
    | with_reducible assumption
    | (extract_lets +onlyGivenNames y0
       first
       | (refine_lift have hy0 : Keeps w k i y0 := ?_; ?_
          clear_value y0
          revert y0
          intro _ _
          rotate_left
          unfold y0
          clear y0)
       | (have hy1 : PathAll := y0
          clear hy1
          revert y0
          intro _)
       | (try clear_value y0
          revert y0
          intro _))
    | with_reducible refine count1_keeps h_counters ?_
    | with_reducible refine Keeps.ite ?_ ?_
    | split
    | with_reducible refine Keeps.set_path (.inr ⟨rfl, rfl, rfl, rfl, rfl⟩) (.inr ⟨rfl, rfl⟩) (.inr ⟨rfl, rfl, rfl⟩) (.inr rfl) (.inl h_accounts) (.inr rfl) ?_

theorem tickUs_keeps (h_counters : w .counters = true) (h_accounts : w .accounts = true)
    (h : Keeps w k i s) : Keeps w k i (tickUs s) := by
  unfold tickUs
  repeat' first
    | with_reducible assumption
    | (extract_lets +onlyGivenNames y0
       first
       | (refine_lift have hy0 : Keeps w k i y0 := ?_; ?_
          clear_value y0
          revert y0
          intro _ _
          rotate_left
          unfold y0
          clear y0)
       | (try clear_value y0
          revert y0
          intro _))
    | with_reducible refine usChan_keeps h_counters ?_
    | with_reducible refine usFab_keeps h_counters ?_
    | with_reducible refine usPort_keeps h_counters ?_
    | with_reducible refine usSlice_keeps h_counters ?_
    | with_reducible refine usSpill_keeps h_counters h_accounts ?_
    | with_reducible refine foldS_keeps (fun _ _ _ => ?_) ?_

theorem tick_keeps (h_now : w .now = true) (h_counters : w .counters = true) (h_flags : w .flags = true) (h_bridge : w .bridge = true) (h_mail : w .mail = true) (h_log : w .log = true) (h_rings : w .rings = true) (h_lanes : w .lanes = true) (h_groups : w .groups = true) (h_ports : w .ports = true) (h_ingress : w .ingress = true) (h_bufs : w .bufs = true) (h_accounts : w .accounts = true) (h_slots : w .slots = true) (h_time : w .time = true) (h_hbm : w .hbm = true) (h_fabric : w .fabric = true) (h_history : w .history = true) (h_power : w .power = true)
    (h : Keeps w k i s) : Keeps w k i (tick s) := by
  unfold tick
  extract_lets s0 s1 s2 s3 s4 s5 s6 s7 s8
  have h0 : Keeps w k i s0 := Keeps.set_now h_now h
  have h1 : Keeps w k i s1 := tickTime_keeps h_counters h_flags h_log h_time h_history
    (foldS_keeps (l := List.finRange 4) (f := tickGroup) (fun _ _ hs => tickGroup_keeps h_groups hs) h0)
  have h2 : Keeps w k i s2 := foldS_keeps (l := List.finRange 32) (f := tickLane) (fun _ _ hs => tickLane_keeps h_counters h_lanes hs) h1
  have h3 : Keeps w k i s3 := foldS_keeps (l := List.finRange 8) (f := tickSlice) (fun _ _ hs => tickSlice_keeps h_power hs)
    (foldS_keeps (l := List.finRange 4) (f := tickPm) (fun _ _ hs => tickPm_keeps h_groups hs) h2)
  have h4 : Keeps w k i s4 := foldS_keeps (l := List.finRange 88) (f := tickPattern) (fun _ _ hs => tickPattern_keeps h_counters hs) h3
  have h5 : Keeps w k i s5 := foldS_keeps (l := List.finRange 8) (f := fun k st => foldS (List.finRange 3) (tickBridge k) st)
    (fun k _ hs => foldS_keeps (l := List.finRange 3) (f := tickBridge k) (fun _ _ hs => tickBridge_keeps h_bridge hs) hs) h4
  have h6 : Keeps w k i s6 := foldS_keeps (l := List.finRange 8) (f := tickChan) (fun _ _ hs => tickChan_keeps h_counters h_hbm hs) h5
  have h7 : Keeps w k i s7 := foldS_keeps (l := List.finRange 9) (f := noteDrain) (fun _ _ hs => noteDrain_keeps h_mail hs) h6
  have h8 : Keeps w k i s8 := Keeps.ite h7 (tickLocal_keeps h_counters h_flags h_bridge h_log h_rings h_lanes h_groups h_ports h_ingress h_bufs h_accounts h_slots h_time h_fabric h_history h7)
  exact Keeps.ite (tickUs_keeps h_counters h_accounts h8) h8

end Sys2Proof.Machine
end

