-- ==== Sys2Proof/Laws/State.lean ====
section
/-!
SUPPORT. Laws/State.lean: one lemma per field per update of State, so that no proof unfolds a record update, and what each
table holds after a change of one of its elements.
-/
namespace Sys2Proof.Machine

/-! modLane changes only `trunk`. -/

@[simp] theorem modLane_pending (s : State) (l : Lane) (f : LaneSt → LaneSt) : (modLane s l f).pending = s.pending := rfl
@[simp] theorem modLane_now (s : State) (l : Lane) (f : LaneSt → LaneSt) : (modLane s l f).now = s.now := rfl
@[simp] theorem modLane_part (s : State) (l : Lane) (f : LaneSt → LaneSt) : (modLane s l f).part = s.part := rfl
@[simp] theorem modLane_serial (s : State) (l : Lane) (f : LaneSt → LaneSt) : (modLane s l f).serial = s.serial := rfl
@[simp] theorem modLane_env (s : State) (l : Lane) (f : LaneSt → LaneSt) : (modLane s l f).env = s.env := rfl
@[simp] theorem modLane_regs (s : State) (l : Lane) (f : LaneSt → LaneSt) : (modLane s l f).regs = s.regs := rfl
@[simp] theorem modLane_bridge (s : State) (l : Lane) (f : LaneSt → LaneSt) : (modLane s l f).bridge = s.bridge := rfl
@[simp] theorem modLane_anchor (s : State) (l : Lane) (f : LaneSt → LaneSt) : (modLane s l f).anchor = s.anchor := rfl
@[simp] theorem modLane_mail (s : State) (l : Lane) (f : LaneSt → LaneSt) : (modLane s l f).mail = s.mail := rfl
@[simp] theorem modLane_ev (s : State) (l : Lane) (f : LaneSt → LaneSt) : (modLane s l f).ev = s.ev := rfl
@[simp] theorem modLane_path (s : State) (l : Lane) (f : LaneSt → LaneSt) : (modLane s l f).path = s.path := rfl
@[simp] theorem modLane_crypto (s : State) (l : Lane) (f : LaneSt → LaneSt) : (modLane s l f).crypto = s.crypto := rfl
@[simp] theorem modLane_time (s : State) (l : Lane) (f : LaneSt → LaneSt) : (modLane s l f).time = s.time := rfl
@[simp] theorem modLane_hbm (s : State) (l : Lane) (f : LaneSt → LaneSt) : (modLane s l f).hbm = s.hbm := rfl
@[simp] theorem modLane_serdes (s : State) (l : Lane) (f : LaneSt → LaneSt) : (modLane s l f).serdes = s.serdes := rfl
@[simp] theorem modLane_fabric (s : State) (l : Lane) (f : LaneSt → LaneSt) : (modLane s l f).fabric = s.fabric := rfl
@[simp] theorem modLane_fw (s : State) (l : Lane) (f : LaneSt → LaneSt) : (modLane s l f).fw = s.fw := rfl
@[simp] theorem modLane_power (s : State) (l : Lane) (f : LaneSt → LaneSt) : (modLane s l f).power = s.power := rfl
@[simp] theorem modLane_pins (s : State) (l : Lane) (f : LaneSt → LaneSt) : (modLane s l f).pins = s.pins := rfl
@[simp] theorem modLane_mirror (s : State) (l : Lane) (f : LaneSt → LaneSt) : (modLane s l f).mirror = s.mirror := rfl
@[simp] theorem modLane_groups (s : State) (l : Lane) (f : LaneSt → LaneSt) : (modLane s l f).trunk.groups = s.trunk.groups := rfl
@[simp] theorem modLane_filter (s : State) (l : Lane) (f : LaneSt → LaneSt) : (modLane s l f).trunk.filter = s.trunk.filter := rfl
@[simp] theorem modLane_extract (s : State) (l : Lane) (f : LaneSt → LaneSt) : (modLane s l f).trunk.extract = s.trunk.extract := rfl
@[simp] theorem modLane_tickets (s : State) (l : Lane) (f : LaneSt → LaneSt) : (modLane s l f).trunk.tickets = s.trunk.tickets := rfl

/-! modGroup changes only `trunk`. -/

@[simp] theorem modGroup_pending (s : State) (g : GroupId) (f : GroupSt → GroupSt) : (modGroup s g f).pending = s.pending := rfl
@[simp] theorem modGroup_now (s : State) (g : GroupId) (f : GroupSt → GroupSt) : (modGroup s g f).now = s.now := rfl
@[simp] theorem modGroup_part (s : State) (g : GroupId) (f : GroupSt → GroupSt) : (modGroup s g f).part = s.part := rfl
@[simp] theorem modGroup_serial (s : State) (g : GroupId) (f : GroupSt → GroupSt) : (modGroup s g f).serial = s.serial := rfl
@[simp] theorem modGroup_env (s : State) (g : GroupId) (f : GroupSt → GroupSt) : (modGroup s g f).env = s.env := rfl
@[simp] theorem modGroup_regs (s : State) (g : GroupId) (f : GroupSt → GroupSt) : (modGroup s g f).regs = s.regs := rfl
@[simp] theorem modGroup_bridge (s : State) (g : GroupId) (f : GroupSt → GroupSt) : (modGroup s g f).bridge = s.bridge := rfl
@[simp] theorem modGroup_anchor (s : State) (g : GroupId) (f : GroupSt → GroupSt) : (modGroup s g f).anchor = s.anchor := rfl
@[simp] theorem modGroup_mail (s : State) (g : GroupId) (f : GroupSt → GroupSt) : (modGroup s g f).mail = s.mail := rfl
@[simp] theorem modGroup_ev (s : State) (g : GroupId) (f : GroupSt → GroupSt) : (modGroup s g f).ev = s.ev := rfl
@[simp] theorem modGroup_path (s : State) (g : GroupId) (f : GroupSt → GroupSt) : (modGroup s g f).path = s.path := rfl
@[simp] theorem modGroup_crypto (s : State) (g : GroupId) (f : GroupSt → GroupSt) : (modGroup s g f).crypto = s.crypto := rfl
@[simp] theorem modGroup_time (s : State) (g : GroupId) (f : GroupSt → GroupSt) : (modGroup s g f).time = s.time := rfl
@[simp] theorem modGroup_hbm (s : State) (g : GroupId) (f : GroupSt → GroupSt) : (modGroup s g f).hbm = s.hbm := rfl
@[simp] theorem modGroup_serdes (s : State) (g : GroupId) (f : GroupSt → GroupSt) : (modGroup s g f).serdes = s.serdes := rfl
@[simp] theorem modGroup_fabric (s : State) (g : GroupId) (f : GroupSt → GroupSt) : (modGroup s g f).fabric = s.fabric := rfl
@[simp] theorem modGroup_fw (s : State) (g : GroupId) (f : GroupSt → GroupSt) : (modGroup s g f).fw = s.fw := rfl
@[simp] theorem modGroup_power (s : State) (g : GroupId) (f : GroupSt → GroupSt) : (modGroup s g f).power = s.power := rfl
@[simp] theorem modGroup_pins (s : State) (g : GroupId) (f : GroupSt → GroupSt) : (modGroup s g f).pins = s.pins := rfl
@[simp] theorem modGroup_mirror (s : State) (g : GroupId) (f : GroupSt → GroupSt) : (modGroup s g f).mirror = s.mirror := rfl
@[simp] theorem modGroup_lanes (s : State) (g : GroupId) (f : GroupSt → GroupSt) : (modGroup s g f).trunk.lanes = s.trunk.lanes := rfl
@[simp] theorem modGroup_filter (s : State) (g : GroupId) (f : GroupSt → GroupSt) : (modGroup s g f).trunk.filter = s.trunk.filter := rfl
@[simp] theorem modGroup_extract (s : State) (g : GroupId) (f : GroupSt → GroupSt) : (modGroup s g f).trunk.extract = s.trunk.extract := rfl
@[simp] theorem modGroup_tickets (s : State) (g : GroupId) (f : GroupSt → GroupSt) : (modGroup s g f).trunk.tickets = s.trunk.tickets := rfl

/-! modAcct changes only `path`. -/

@[simp] theorem modAcct_pending (s : State) (a : AccountId) (f : AccountSt → AccountSt) : (modAcct s a f).pending = s.pending := rfl
@[simp] theorem modAcct_now (s : State) (a : AccountId) (f : AccountSt → AccountSt) : (modAcct s a f).now = s.now := rfl
@[simp] theorem modAcct_part (s : State) (a : AccountId) (f : AccountSt → AccountSt) : (modAcct s a f).part = s.part := rfl
@[simp] theorem modAcct_serial (s : State) (a : AccountId) (f : AccountSt → AccountSt) : (modAcct s a f).serial = s.serial := rfl
@[simp] theorem modAcct_env (s : State) (a : AccountId) (f : AccountSt → AccountSt) : (modAcct s a f).env = s.env := rfl
@[simp] theorem modAcct_regs (s : State) (a : AccountId) (f : AccountSt → AccountSt) : (modAcct s a f).regs = s.regs := rfl
@[simp] theorem modAcct_bridge (s : State) (a : AccountId) (f : AccountSt → AccountSt) : (modAcct s a f).bridge = s.bridge := rfl
@[simp] theorem modAcct_anchor (s : State) (a : AccountId) (f : AccountSt → AccountSt) : (modAcct s a f).anchor = s.anchor := rfl
@[simp] theorem modAcct_mail (s : State) (a : AccountId) (f : AccountSt → AccountSt) : (modAcct s a f).mail = s.mail := rfl
@[simp] theorem modAcct_ev (s : State) (a : AccountId) (f : AccountSt → AccountSt) : (modAcct s a f).ev = s.ev := rfl
@[simp] theorem modAcct_trunk (s : State) (a : AccountId) (f : AccountSt → AccountSt) : (modAcct s a f).trunk = s.trunk := rfl
@[simp] theorem modAcct_crypto (s : State) (a : AccountId) (f : AccountSt → AccountSt) : (modAcct s a f).crypto = s.crypto := rfl
@[simp] theorem modAcct_time (s : State) (a : AccountId) (f : AccountSt → AccountSt) : (modAcct s a f).time = s.time := rfl
@[simp] theorem modAcct_hbm (s : State) (a : AccountId) (f : AccountSt → AccountSt) : (modAcct s a f).hbm = s.hbm := rfl
@[simp] theorem modAcct_serdes (s : State) (a : AccountId) (f : AccountSt → AccountSt) : (modAcct s a f).serdes = s.serdes := rfl
@[simp] theorem modAcct_fabric (s : State) (a : AccountId) (f : AccountSt → AccountSt) : (modAcct s a f).fabric = s.fabric := rfl
@[simp] theorem modAcct_fw (s : State) (a : AccountId) (f : AccountSt → AccountSt) : (modAcct s a f).fw = s.fw := rfl
@[simp] theorem modAcct_power (s : State) (a : AccountId) (f : AccountSt → AccountSt) : (modAcct s a f).power = s.power := rfl
@[simp] theorem modAcct_pins (s : State) (a : AccountId) (f : AccountSt → AccountSt) : (modAcct s a f).pins = s.pins := rfl
@[simp] theorem modAcct_mirror (s : State) (a : AccountId) (f : AccountSt → AccountSt) : (modAcct s a f).mirror = s.mirror := rfl
@[simp] theorem modAcct_ports (s : State) (a : AccountId) (f : AccountSt → AccountSt) : (modAcct s a f).path.ports = s.path.ports := rfl
@[simp] theorem modAcct_cls (s : State) (a : AccountId) (f : AccountSt → AccountSt) : (modAcct s a f).path.cls = s.path.cls := rfl
@[simp] theorem modAcct_bufs (s : State) (a : AccountId) (f : AccountSt → AccountSt) : (modAcct s a f).path.bufs = s.path.bufs := rfl
@[simp] theorem modAcct_policers (s : State) (a : AccountId) (f : AccountSt → AccountSt) : (modAcct s a f).path.policers = s.path.policers := rfl
@[simp] theorem modAcct_ingress (s : State) (a : AccountId) (f : AccountSt → AccountSt) : (modAcct s a f).path.ingress = s.path.ingress := rfl
@[simp] theorem modAcct_entryNo (s : State) (a : AccountId) (f : AccountSt → AccountSt) : (modAcct s a f).path.entryNo = s.path.entryNo := rfl
@[simp] theorem modAcct_sources (s : State) (a : AccountId) (f : AccountSt → AccountSt) : (modAcct s a f).path.sources = s.path.sources := rfl
@[simp] theorem modAcct_mirrors (s : State) (a : AccountId) (f : AccountSt → AccountSt) : (modAcct s a f).path.mirrors = s.path.mirrors := rfl

/-! modPort changes only `path`. -/

@[simp] theorem modPort_pending (s : State) (p : PortId) (f : PortSt → PortSt) : (modPort s p f).pending = s.pending := rfl
@[simp] theorem modPort_now (s : State) (p : PortId) (f : PortSt → PortSt) : (modPort s p f).now = s.now := rfl
@[simp] theorem modPort_part (s : State) (p : PortId) (f : PortSt → PortSt) : (modPort s p f).part = s.part := rfl
@[simp] theorem modPort_serial (s : State) (p : PortId) (f : PortSt → PortSt) : (modPort s p f).serial = s.serial := rfl
@[simp] theorem modPort_env (s : State) (p : PortId) (f : PortSt → PortSt) : (modPort s p f).env = s.env := rfl
@[simp] theorem modPort_regs (s : State) (p : PortId) (f : PortSt → PortSt) : (modPort s p f).regs = s.regs := rfl
@[simp] theorem modPort_bridge (s : State) (p : PortId) (f : PortSt → PortSt) : (modPort s p f).bridge = s.bridge := rfl
@[simp] theorem modPort_anchor (s : State) (p : PortId) (f : PortSt → PortSt) : (modPort s p f).anchor = s.anchor := rfl
@[simp] theorem modPort_mail (s : State) (p : PortId) (f : PortSt → PortSt) : (modPort s p f).mail = s.mail := rfl
@[simp] theorem modPort_ev (s : State) (p : PortId) (f : PortSt → PortSt) : (modPort s p f).ev = s.ev := rfl
@[simp] theorem modPort_trunk (s : State) (p : PortId) (f : PortSt → PortSt) : (modPort s p f).trunk = s.trunk := rfl
@[simp] theorem modPort_crypto (s : State) (p : PortId) (f : PortSt → PortSt) : (modPort s p f).crypto = s.crypto := rfl
@[simp] theorem modPort_time (s : State) (p : PortId) (f : PortSt → PortSt) : (modPort s p f).time = s.time := rfl
@[simp] theorem modPort_hbm (s : State) (p : PortId) (f : PortSt → PortSt) : (modPort s p f).hbm = s.hbm := rfl
@[simp] theorem modPort_serdes (s : State) (p : PortId) (f : PortSt → PortSt) : (modPort s p f).serdes = s.serdes := rfl
@[simp] theorem modPort_fabric (s : State) (p : PortId) (f : PortSt → PortSt) : (modPort s p f).fabric = s.fabric := rfl
@[simp] theorem modPort_fw (s : State) (p : PortId) (f : PortSt → PortSt) : (modPort s p f).fw = s.fw := rfl
@[simp] theorem modPort_power (s : State) (p : PortId) (f : PortSt → PortSt) : (modPort s p f).power = s.power := rfl
@[simp] theorem modPort_pins (s : State) (p : PortId) (f : PortSt → PortSt) : (modPort s p f).pins = s.pins := rfl
@[simp] theorem modPort_mirror (s : State) (p : PortId) (f : PortSt → PortSt) : (modPort s p f).mirror = s.mirror := rfl
@[simp] theorem modPort_cls (s : State) (p : PortId) (f : PortSt → PortSt) : (modPort s p f).path.cls = s.path.cls := rfl
@[simp] theorem modPort_bufs (s : State) (p : PortId) (f : PortSt → PortSt) : (modPort s p f).path.bufs = s.path.bufs := rfl
@[simp] theorem modPort_accounts (s : State) (p : PortId) (f : PortSt → PortSt) : (modPort s p f).path.accounts = s.path.accounts := rfl
@[simp] theorem modPort_policers (s : State) (p : PortId) (f : PortSt → PortSt) : (modPort s p f).path.policers = s.path.policers := rfl
@[simp] theorem modPort_ingress (s : State) (p : PortId) (f : PortSt → PortSt) : (modPort s p f).path.ingress = s.path.ingress := rfl
@[simp] theorem modPort_entryNo (s : State) (p : PortId) (f : PortSt → PortSt) : (modPort s p f).path.entryNo = s.path.entryNo := rfl
@[simp] theorem modPort_sources (s : State) (p : PortId) (f : PortSt → PortSt) : (modPort s p f).path.sources = s.path.sources := rfl
@[simp] theorem modPort_mirrors (s : State) (p : PortId) (f : PortSt → PortSt) : (modPort s p f).path.mirrors = s.path.mirrors := rfl

/-! modCls changes only `path`. -/

@[simp] theorem modCls_pending (s : State) (c : SliceId) (f : ClsSt → ClsSt) : (modCls s c f).pending = s.pending := rfl
@[simp] theorem modCls_now (s : State) (c : SliceId) (f : ClsSt → ClsSt) : (modCls s c f).now = s.now := rfl
@[simp] theorem modCls_part (s : State) (c : SliceId) (f : ClsSt → ClsSt) : (modCls s c f).part = s.part := rfl
@[simp] theorem modCls_serial (s : State) (c : SliceId) (f : ClsSt → ClsSt) : (modCls s c f).serial = s.serial := rfl
@[simp] theorem modCls_env (s : State) (c : SliceId) (f : ClsSt → ClsSt) : (modCls s c f).env = s.env := rfl
@[simp] theorem modCls_regs (s : State) (c : SliceId) (f : ClsSt → ClsSt) : (modCls s c f).regs = s.regs := rfl
@[simp] theorem modCls_bridge (s : State) (c : SliceId) (f : ClsSt → ClsSt) : (modCls s c f).bridge = s.bridge := rfl
@[simp] theorem modCls_anchor (s : State) (c : SliceId) (f : ClsSt → ClsSt) : (modCls s c f).anchor = s.anchor := rfl
@[simp] theorem modCls_mail (s : State) (c : SliceId) (f : ClsSt → ClsSt) : (modCls s c f).mail = s.mail := rfl
@[simp] theorem modCls_ev (s : State) (c : SliceId) (f : ClsSt → ClsSt) : (modCls s c f).ev = s.ev := rfl
@[simp] theorem modCls_trunk (s : State) (c : SliceId) (f : ClsSt → ClsSt) : (modCls s c f).trunk = s.trunk := rfl
@[simp] theorem modCls_crypto (s : State) (c : SliceId) (f : ClsSt → ClsSt) : (modCls s c f).crypto = s.crypto := rfl
@[simp] theorem modCls_time (s : State) (c : SliceId) (f : ClsSt → ClsSt) : (modCls s c f).time = s.time := rfl
@[simp] theorem modCls_hbm (s : State) (c : SliceId) (f : ClsSt → ClsSt) : (modCls s c f).hbm = s.hbm := rfl
@[simp] theorem modCls_serdes (s : State) (c : SliceId) (f : ClsSt → ClsSt) : (modCls s c f).serdes = s.serdes := rfl
@[simp] theorem modCls_fabric (s : State) (c : SliceId) (f : ClsSt → ClsSt) : (modCls s c f).fabric = s.fabric := rfl
@[simp] theorem modCls_fw (s : State) (c : SliceId) (f : ClsSt → ClsSt) : (modCls s c f).fw = s.fw := rfl
@[simp] theorem modCls_power (s : State) (c : SliceId) (f : ClsSt → ClsSt) : (modCls s c f).power = s.power := rfl
@[simp] theorem modCls_pins (s : State) (c : SliceId) (f : ClsSt → ClsSt) : (modCls s c f).pins = s.pins := rfl
@[simp] theorem modCls_mirror (s : State) (c : SliceId) (f : ClsSt → ClsSt) : (modCls s c f).mirror = s.mirror := rfl
@[simp] theorem modCls_ports (s : State) (c : SliceId) (f : ClsSt → ClsSt) : (modCls s c f).path.ports = s.path.ports := rfl
@[simp] theorem modCls_bufs (s : State) (c : SliceId) (f : ClsSt → ClsSt) : (modCls s c f).path.bufs = s.path.bufs := rfl
@[simp] theorem modCls_accounts (s : State) (c : SliceId) (f : ClsSt → ClsSt) : (modCls s c f).path.accounts = s.path.accounts := rfl
@[simp] theorem modCls_policers (s : State) (c : SliceId) (f : ClsSt → ClsSt) : (modCls s c f).path.policers = s.path.policers := rfl
@[simp] theorem modCls_ingress (s : State) (c : SliceId) (f : ClsSt → ClsSt) : (modCls s c f).path.ingress = s.path.ingress := rfl
@[simp] theorem modCls_entryNo (s : State) (c : SliceId) (f : ClsSt → ClsSt) : (modCls s c f).path.entryNo = s.path.entryNo := rfl
@[simp] theorem modCls_sources (s : State) (c : SliceId) (f : ClsSt → ClsSt) : (modCls s c f).path.sources = s.path.sources := rfl
@[simp] theorem modCls_mirrors (s : State) (c : SliceId) (f : ClsSt → ClsSt) : (modCls s c f).path.mirrors = s.path.mirrors := rfl

/-! modBuf changes only `path`. -/

@[simp] theorem modBuf_pending (s : State) (c : SliceId) (f : BufSt → BufSt) : (modBuf s c f).pending = s.pending := rfl
@[simp] theorem modBuf_now (s : State) (c : SliceId) (f : BufSt → BufSt) : (modBuf s c f).now = s.now := rfl
@[simp] theorem modBuf_part (s : State) (c : SliceId) (f : BufSt → BufSt) : (modBuf s c f).part = s.part := rfl
@[simp] theorem modBuf_serial (s : State) (c : SliceId) (f : BufSt → BufSt) : (modBuf s c f).serial = s.serial := rfl
@[simp] theorem modBuf_env (s : State) (c : SliceId) (f : BufSt → BufSt) : (modBuf s c f).env = s.env := rfl
@[simp] theorem modBuf_regs (s : State) (c : SliceId) (f : BufSt → BufSt) : (modBuf s c f).regs = s.regs := rfl
@[simp] theorem modBuf_bridge (s : State) (c : SliceId) (f : BufSt → BufSt) : (modBuf s c f).bridge = s.bridge := rfl
@[simp] theorem modBuf_anchor (s : State) (c : SliceId) (f : BufSt → BufSt) : (modBuf s c f).anchor = s.anchor := rfl
@[simp] theorem modBuf_mail (s : State) (c : SliceId) (f : BufSt → BufSt) : (modBuf s c f).mail = s.mail := rfl
@[simp] theorem modBuf_ev (s : State) (c : SliceId) (f : BufSt → BufSt) : (modBuf s c f).ev = s.ev := rfl
@[simp] theorem modBuf_trunk (s : State) (c : SliceId) (f : BufSt → BufSt) : (modBuf s c f).trunk = s.trunk := rfl
@[simp] theorem modBuf_crypto (s : State) (c : SliceId) (f : BufSt → BufSt) : (modBuf s c f).crypto = s.crypto := rfl
@[simp] theorem modBuf_time (s : State) (c : SliceId) (f : BufSt → BufSt) : (modBuf s c f).time = s.time := rfl
@[simp] theorem modBuf_hbm (s : State) (c : SliceId) (f : BufSt → BufSt) : (modBuf s c f).hbm = s.hbm := rfl
@[simp] theorem modBuf_serdes (s : State) (c : SliceId) (f : BufSt → BufSt) : (modBuf s c f).serdes = s.serdes := rfl
@[simp] theorem modBuf_fabric (s : State) (c : SliceId) (f : BufSt → BufSt) : (modBuf s c f).fabric = s.fabric := rfl
@[simp] theorem modBuf_fw (s : State) (c : SliceId) (f : BufSt → BufSt) : (modBuf s c f).fw = s.fw := rfl
@[simp] theorem modBuf_power (s : State) (c : SliceId) (f : BufSt → BufSt) : (modBuf s c f).power = s.power := rfl
@[simp] theorem modBuf_pins (s : State) (c : SliceId) (f : BufSt → BufSt) : (modBuf s c f).pins = s.pins := rfl
@[simp] theorem modBuf_mirror (s : State) (c : SliceId) (f : BufSt → BufSt) : (modBuf s c f).mirror = s.mirror := rfl
@[simp] theorem modBuf_ports (s : State) (c : SliceId) (f : BufSt → BufSt) : (modBuf s c f).path.ports = s.path.ports := rfl
@[simp] theorem modBuf_cls (s : State) (c : SliceId) (f : BufSt → BufSt) : (modBuf s c f).path.cls = s.path.cls := rfl
@[simp] theorem modBuf_accounts (s : State) (c : SliceId) (f : BufSt → BufSt) : (modBuf s c f).path.accounts = s.path.accounts := rfl
@[simp] theorem modBuf_policers (s : State) (c : SliceId) (f : BufSt → BufSt) : (modBuf s c f).path.policers = s.path.policers := rfl
@[simp] theorem modBuf_ingress (s : State) (c : SliceId) (f : BufSt → BufSt) : (modBuf s c f).path.ingress = s.path.ingress := rfl
@[simp] theorem modBuf_entryNo (s : State) (c : SliceId) (f : BufSt → BufSt) : (modBuf s c f).path.entryNo = s.path.entryNo := rfl
@[simp] theorem modBuf_sources (s : State) (c : SliceId) (f : BufSt → BufSt) : (modBuf s c f).path.sources = s.path.sources := rfl
@[simp] theorem modBuf_mirrors (s : State) (c : SliceId) (f : BufSt → BufSt) : (modBuf s c f).path.mirrors = s.path.mirrors := rfl

/-! modBox changes only `mail`. -/

@[simp] theorem modBox_pending (s : State) (m : MboxId) (f : Mbox → Mbox) : (modBox s m f).pending = s.pending := rfl
@[simp] theorem modBox_now (s : State) (m : MboxId) (f : Mbox → Mbox) : (modBox s m f).now = s.now := rfl
@[simp] theorem modBox_part (s : State) (m : MboxId) (f : Mbox → Mbox) : (modBox s m f).part = s.part := rfl
@[simp] theorem modBox_serial (s : State) (m : MboxId) (f : Mbox → Mbox) : (modBox s m f).serial = s.serial := rfl
@[simp] theorem modBox_env (s : State) (m : MboxId) (f : Mbox → Mbox) : (modBox s m f).env = s.env := rfl
@[simp] theorem modBox_regs (s : State) (m : MboxId) (f : Mbox → Mbox) : (modBox s m f).regs = s.regs := rfl
@[simp] theorem modBox_bridge (s : State) (m : MboxId) (f : Mbox → Mbox) : (modBox s m f).bridge = s.bridge := rfl
@[simp] theorem modBox_anchor (s : State) (m : MboxId) (f : Mbox → Mbox) : (modBox s m f).anchor = s.anchor := rfl
@[simp] theorem modBox_ev (s : State) (m : MboxId) (f : Mbox → Mbox) : (modBox s m f).ev = s.ev := rfl
@[simp] theorem modBox_trunk (s : State) (m : MboxId) (f : Mbox → Mbox) : (modBox s m f).trunk = s.trunk := rfl
@[simp] theorem modBox_path (s : State) (m : MboxId) (f : Mbox → Mbox) : (modBox s m f).path = s.path := rfl
@[simp] theorem modBox_crypto (s : State) (m : MboxId) (f : Mbox → Mbox) : (modBox s m f).crypto = s.crypto := rfl
@[simp] theorem modBox_time (s : State) (m : MboxId) (f : Mbox → Mbox) : (modBox s m f).time = s.time := rfl
@[simp] theorem modBox_hbm (s : State) (m : MboxId) (f : Mbox → Mbox) : (modBox s m f).hbm = s.hbm := rfl
@[simp] theorem modBox_serdes (s : State) (m : MboxId) (f : Mbox → Mbox) : (modBox s m f).serdes = s.serdes := rfl
@[simp] theorem modBox_fabric (s : State) (m : MboxId) (f : Mbox → Mbox) : (modBox s m f).fabric = s.fabric := rfl
@[simp] theorem modBox_fw (s : State) (m : MboxId) (f : Mbox → Mbox) : (modBox s m f).fw = s.fw := rfl
@[simp] theorem modBox_power (s : State) (m : MboxId) (f : Mbox → Mbox) : (modBox s m f).power = s.power := rfl
@[simp] theorem modBox_pins (s : State) (m : MboxId) (f : Mbox → Mbox) : (modBox s m f).pins = s.pins := rfl
@[simp] theorem modBox_mirror (s : State) (m : MboxId) (f : Mbox → Mbox) : (modBox s m f).mirror = s.mirror := rfl

/-! modCap changes only `anchor`. -/

@[simp] theorem modCap_pending (s : State) (c : Half) (f : AnchorCap → AnchorCap) : (modCap s c f).pending = s.pending := rfl
@[simp] theorem modCap_now (s : State) (c : Half) (f : AnchorCap → AnchorCap) : (modCap s c f).now = s.now := rfl
@[simp] theorem modCap_part (s : State) (c : Half) (f : AnchorCap → AnchorCap) : (modCap s c f).part = s.part := rfl
@[simp] theorem modCap_serial (s : State) (c : Half) (f : AnchorCap → AnchorCap) : (modCap s c f).serial = s.serial := rfl
@[simp] theorem modCap_env (s : State) (c : Half) (f : AnchorCap → AnchorCap) : (modCap s c f).env = s.env := rfl
@[simp] theorem modCap_regs (s : State) (c : Half) (f : AnchorCap → AnchorCap) : (modCap s c f).regs = s.regs := rfl
@[simp] theorem modCap_bridge (s : State) (c : Half) (f : AnchorCap → AnchorCap) : (modCap s c f).bridge = s.bridge := rfl
@[simp] theorem modCap_mail (s : State) (c : Half) (f : AnchorCap → AnchorCap) : (modCap s c f).mail = s.mail := rfl
@[simp] theorem modCap_ev (s : State) (c : Half) (f : AnchorCap → AnchorCap) : (modCap s c f).ev = s.ev := rfl
@[simp] theorem modCap_trunk (s : State) (c : Half) (f : AnchorCap → AnchorCap) : (modCap s c f).trunk = s.trunk := rfl
@[simp] theorem modCap_path (s : State) (c : Half) (f : AnchorCap → AnchorCap) : (modCap s c f).path = s.path := rfl
@[simp] theorem modCap_crypto (s : State) (c : Half) (f : AnchorCap → AnchorCap) : (modCap s c f).crypto = s.crypto := rfl
@[simp] theorem modCap_time (s : State) (c : Half) (f : AnchorCap → AnchorCap) : (modCap s c f).time = s.time := rfl
@[simp] theorem modCap_hbm (s : State) (c : Half) (f : AnchorCap → AnchorCap) : (modCap s c f).hbm = s.hbm := rfl
@[simp] theorem modCap_serdes (s : State) (c : Half) (f : AnchorCap → AnchorCap) : (modCap s c f).serdes = s.serdes := rfl
@[simp] theorem modCap_fabric (s : State) (c : Half) (f : AnchorCap → AnchorCap) : (modCap s c f).fabric = s.fabric := rfl
@[simp] theorem modCap_fw (s : State) (c : Half) (f : AnchorCap → AnchorCap) : (modCap s c f).fw = s.fw := rfl
@[simp] theorem modCap_power (s : State) (c : Half) (f : AnchorCap → AnchorCap) : (modCap s c f).power = s.power := rfl
@[simp] theorem modCap_pins (s : State) (c : Half) (f : AnchorCap → AnchorCap) : (modCap s c f).pins = s.pins := rfl
@[simp] theorem modCap_mirror (s : State) (c : Half) (f : AnchorCap → AnchorCap) : (modCap s c f).mirror = s.mirror := rfl

/-! modVec changes only `ev`. -/

@[simp] theorem modVec_pending (s : State) (v : VectorId) (f : Vec → Vec) : (modVec s v f).pending = s.pending := rfl
@[simp] theorem modVec_now (s : State) (v : VectorId) (f : Vec → Vec) : (modVec s v f).now = s.now := rfl
@[simp] theorem modVec_part (s : State) (v : VectorId) (f : Vec → Vec) : (modVec s v f).part = s.part := rfl
@[simp] theorem modVec_serial (s : State) (v : VectorId) (f : Vec → Vec) : (modVec s v f).serial = s.serial := rfl
@[simp] theorem modVec_env (s : State) (v : VectorId) (f : Vec → Vec) : (modVec s v f).env = s.env := rfl
@[simp] theorem modVec_regs (s : State) (v : VectorId) (f : Vec → Vec) : (modVec s v f).regs = s.regs := rfl
@[simp] theorem modVec_bridge (s : State) (v : VectorId) (f : Vec → Vec) : (modVec s v f).bridge = s.bridge := rfl
@[simp] theorem modVec_anchor (s : State) (v : VectorId) (f : Vec → Vec) : (modVec s v f).anchor = s.anchor := rfl
@[simp] theorem modVec_mail (s : State) (v : VectorId) (f : Vec → Vec) : (modVec s v f).mail = s.mail := rfl
@[simp] theorem modVec_trunk (s : State) (v : VectorId) (f : Vec → Vec) : (modVec s v f).trunk = s.trunk := rfl
@[simp] theorem modVec_path (s : State) (v : VectorId) (f : Vec → Vec) : (modVec s v f).path = s.path := rfl
@[simp] theorem modVec_crypto (s : State) (v : VectorId) (f : Vec → Vec) : (modVec s v f).crypto = s.crypto := rfl
@[simp] theorem modVec_time (s : State) (v : VectorId) (f : Vec → Vec) : (modVec s v f).time = s.time := rfl
@[simp] theorem modVec_hbm (s : State) (v : VectorId) (f : Vec → Vec) : (modVec s v f).hbm = s.hbm := rfl
@[simp] theorem modVec_serdes (s : State) (v : VectorId) (f : Vec → Vec) : (modVec s v f).serdes = s.serdes := rfl
@[simp] theorem modVec_fabric (s : State) (v : VectorId) (f : Vec → Vec) : (modVec s v f).fabric = s.fabric := rfl
@[simp] theorem modVec_fw (s : State) (v : VectorId) (f : Vec → Vec) : (modVec s v f).fw = s.fw := rfl
@[simp] theorem modVec_power (s : State) (v : VectorId) (f : Vec → Vec) : (modVec s v f).power = s.power := rfl
@[simp] theorem modVec_pins (s : State) (v : VectorId) (f : Vec → Vec) : (modVec s v f).pins = s.pins := rfl
@[simp] theorem modVec_mirror (s : State) (v : VectorId) (f : Vec → Vec) : (modVec s v f).mirror = s.mirror := rfl
@[simp] theorem modVec_log (s : State) (v : VectorId) (f : Vec → Vec) : (modVec s v f).ev.log = s.ev.log := rfl
@[simp] theorem modVec_nextSeq (s : State) (v : VectorId) (f : Vec → Vec) : (modVec s v f).ev.nextSeq = s.ev.nextSeq := rfl
@[simp] theorem modVec_errors (s : State) (v : VectorId) (f : Vec → Vec) : (modVec s v f).ev.errors = s.ev.errors := rfl
@[simp] theorem modVec_evq (s : State) (v : VectorId) (f : Vec → Vec) : (modVec s v f).ev.evq = s.ev.evq := rfl
@[simp] theorem modVec_classMap (s : State) (v : VectorId) (f : Vec → Vec) : (modVec s v f).ev.classMap = s.ev.classMap := rfl
@[simp] theorem modVec_rings (s : State) (v : VectorId) (f : Vec → Vec) : (modVec s v f).ev.rings = s.ev.rings := rfl
@[simp] theorem modVec_mgtWait (s : State) (v : VectorId) (f : Vec → Vec) : (modVec s v f).ev.mgtWait = s.ev.mgtWait := rfl

/-! modRing changes only `ev`. -/

@[simp] theorem modRing_pending (s : State) (q : MgtQueue) (f : MgtRing → MgtRing) : (modRing s q f).pending = s.pending := rfl
@[simp] theorem modRing_now (s : State) (q : MgtQueue) (f : MgtRing → MgtRing) : (modRing s q f).now = s.now := rfl
@[simp] theorem modRing_part (s : State) (q : MgtQueue) (f : MgtRing → MgtRing) : (modRing s q f).part = s.part := rfl
@[simp] theorem modRing_serial (s : State) (q : MgtQueue) (f : MgtRing → MgtRing) : (modRing s q f).serial = s.serial := rfl
@[simp] theorem modRing_env (s : State) (q : MgtQueue) (f : MgtRing → MgtRing) : (modRing s q f).env = s.env := rfl
@[simp] theorem modRing_regs (s : State) (q : MgtQueue) (f : MgtRing → MgtRing) : (modRing s q f).regs = s.regs := rfl
@[simp] theorem modRing_bridge (s : State) (q : MgtQueue) (f : MgtRing → MgtRing) : (modRing s q f).bridge = s.bridge := rfl
@[simp] theorem modRing_anchor (s : State) (q : MgtQueue) (f : MgtRing → MgtRing) : (modRing s q f).anchor = s.anchor := rfl
@[simp] theorem modRing_mail (s : State) (q : MgtQueue) (f : MgtRing → MgtRing) : (modRing s q f).mail = s.mail := rfl
@[simp] theorem modRing_trunk (s : State) (q : MgtQueue) (f : MgtRing → MgtRing) : (modRing s q f).trunk = s.trunk := rfl
@[simp] theorem modRing_path (s : State) (q : MgtQueue) (f : MgtRing → MgtRing) : (modRing s q f).path = s.path := rfl
@[simp] theorem modRing_crypto (s : State) (q : MgtQueue) (f : MgtRing → MgtRing) : (modRing s q f).crypto = s.crypto := rfl
@[simp] theorem modRing_time (s : State) (q : MgtQueue) (f : MgtRing → MgtRing) : (modRing s q f).time = s.time := rfl
@[simp] theorem modRing_hbm (s : State) (q : MgtQueue) (f : MgtRing → MgtRing) : (modRing s q f).hbm = s.hbm := rfl
@[simp] theorem modRing_serdes (s : State) (q : MgtQueue) (f : MgtRing → MgtRing) : (modRing s q f).serdes = s.serdes := rfl
@[simp] theorem modRing_fabric (s : State) (q : MgtQueue) (f : MgtRing → MgtRing) : (modRing s q f).fabric = s.fabric := rfl
@[simp] theorem modRing_fw (s : State) (q : MgtQueue) (f : MgtRing → MgtRing) : (modRing s q f).fw = s.fw := rfl
@[simp] theorem modRing_power (s : State) (q : MgtQueue) (f : MgtRing → MgtRing) : (modRing s q f).power = s.power := rfl
@[simp] theorem modRing_pins (s : State) (q : MgtQueue) (f : MgtRing → MgtRing) : (modRing s q f).pins = s.pins := rfl
@[simp] theorem modRing_mirror (s : State) (q : MgtQueue) (f : MgtRing → MgtRing) : (modRing s q f).mirror = s.mirror := rfl
@[simp] theorem modRing_log (s : State) (q : MgtQueue) (f : MgtRing → MgtRing) : (modRing s q f).ev.log = s.ev.log := rfl
@[simp] theorem modRing_nextSeq (s : State) (q : MgtQueue) (f : MgtRing → MgtRing) : (modRing s q f).ev.nextSeq = s.ev.nextSeq := rfl
@[simp] theorem modRing_errors (s : State) (q : MgtQueue) (f : MgtRing → MgtRing) : (modRing s q f).ev.errors = s.ev.errors := rfl
@[simp] theorem modRing_evq (s : State) (q : MgtQueue) (f : MgtRing → MgtRing) : (modRing s q f).ev.evq = s.ev.evq := rfl
@[simp] theorem modRing_vecs (s : State) (q : MgtQueue) (f : MgtRing → MgtRing) : (modRing s q f).ev.vecs = s.ev.vecs := rfl
@[simp] theorem modRing_classMap (s : State) (q : MgtQueue) (f : MgtRing → MgtRing) : (modRing s q f).ev.classMap = s.ev.classMap := rfl
@[simp] theorem modRing_mgtWait (s : State) (q : MgtQueue) (f : MgtRing → MgtRing) : (modRing s q f).ev.mgtWait = s.ev.mgtWait := rfl

/-! modBridge changes only `bridge`. -/

@[simp] theorem modBridge_pending (s : State) (c : SliceId) (p : BridgePort) (f : Bridge → Bridge) : (modBridge s c p f).pending = s.pending := rfl
@[simp] theorem modBridge_now (s : State) (c : SliceId) (p : BridgePort) (f : Bridge → Bridge) : (modBridge s c p f).now = s.now := rfl
@[simp] theorem modBridge_part (s : State) (c : SliceId) (p : BridgePort) (f : Bridge → Bridge) : (modBridge s c p f).part = s.part := rfl
@[simp] theorem modBridge_serial (s : State) (c : SliceId) (p : BridgePort) (f : Bridge → Bridge) : (modBridge s c p f).serial = s.serial := rfl
@[simp] theorem modBridge_env (s : State) (c : SliceId) (p : BridgePort) (f : Bridge → Bridge) : (modBridge s c p f).env = s.env := rfl
@[simp] theorem modBridge_regs (s : State) (c : SliceId) (p : BridgePort) (f : Bridge → Bridge) : (modBridge s c p f).regs = s.regs := rfl
@[simp] theorem modBridge_anchor (s : State) (c : SliceId) (p : BridgePort) (f : Bridge → Bridge) : (modBridge s c p f).anchor = s.anchor := rfl
@[simp] theorem modBridge_mail (s : State) (c : SliceId) (p : BridgePort) (f : Bridge → Bridge) : (modBridge s c p f).mail = s.mail := rfl
@[simp] theorem modBridge_ev (s : State) (c : SliceId) (p : BridgePort) (f : Bridge → Bridge) : (modBridge s c p f).ev = s.ev := rfl
@[simp] theorem modBridge_trunk (s : State) (c : SliceId) (p : BridgePort) (f : Bridge → Bridge) : (modBridge s c p f).trunk = s.trunk := rfl
@[simp] theorem modBridge_path (s : State) (c : SliceId) (p : BridgePort) (f : Bridge → Bridge) : (modBridge s c p f).path = s.path := rfl
@[simp] theorem modBridge_crypto (s : State) (c : SliceId) (p : BridgePort) (f : Bridge → Bridge) : (modBridge s c p f).crypto = s.crypto := rfl
@[simp] theorem modBridge_time (s : State) (c : SliceId) (p : BridgePort) (f : Bridge → Bridge) : (modBridge s c p f).time = s.time := rfl
@[simp] theorem modBridge_hbm (s : State) (c : SliceId) (p : BridgePort) (f : Bridge → Bridge) : (modBridge s c p f).hbm = s.hbm := rfl
@[simp] theorem modBridge_serdes (s : State) (c : SliceId) (p : BridgePort) (f : Bridge → Bridge) : (modBridge s c p f).serdes = s.serdes := rfl
@[simp] theorem modBridge_fabric (s : State) (c : SliceId) (p : BridgePort) (f : Bridge → Bridge) : (modBridge s c p f).fabric = s.fabric := rfl
@[simp] theorem modBridge_fw (s : State) (c : SliceId) (p : BridgePort) (f : Bridge → Bridge) : (modBridge s c p f).fw = s.fw := rfl
@[simp] theorem modBridge_power (s : State) (c : SliceId) (p : BridgePort) (f : Bridge → Bridge) : (modBridge s c p f).power = s.power := rfl
@[simp] theorem modBridge_pins (s : State) (c : SliceId) (p : BridgePort) (f : Bridge → Bridge) : (modBridge s c p f).pins = s.pins := rfl
@[simp] theorem modBridge_mirror (s : State) (c : SliceId) (p : BridgePort) (f : Bridge → Bridge) : (modBridge s c p f).mirror = s.mirror := rfl

/-! modRoute changes only `bridge`. -/

@[simp] theorem modRoute_pending (s : State) (c d : SliceId) (f : Route → Route) : (modRoute s c d f).pending = s.pending := rfl
@[simp] theorem modRoute_now (s : State) (c d : SliceId) (f : Route → Route) : (modRoute s c d f).now = s.now := rfl
@[simp] theorem modRoute_part (s : State) (c d : SliceId) (f : Route → Route) : (modRoute s c d f).part = s.part := rfl
@[simp] theorem modRoute_serial (s : State) (c d : SliceId) (f : Route → Route) : (modRoute s c d f).serial = s.serial := rfl
@[simp] theorem modRoute_env (s : State) (c d : SliceId) (f : Route → Route) : (modRoute s c d f).env = s.env := rfl
@[simp] theorem modRoute_regs (s : State) (c d : SliceId) (f : Route → Route) : (modRoute s c d f).regs = s.regs := rfl
@[simp] theorem modRoute_anchor (s : State) (c d : SliceId) (f : Route → Route) : (modRoute s c d f).anchor = s.anchor := rfl
@[simp] theorem modRoute_mail (s : State) (c d : SliceId) (f : Route → Route) : (modRoute s c d f).mail = s.mail := rfl
@[simp] theorem modRoute_ev (s : State) (c d : SliceId) (f : Route → Route) : (modRoute s c d f).ev = s.ev := rfl
@[simp] theorem modRoute_trunk (s : State) (c d : SliceId) (f : Route → Route) : (modRoute s c d f).trunk = s.trunk := rfl
@[simp] theorem modRoute_path (s : State) (c d : SliceId) (f : Route → Route) : (modRoute s c d f).path = s.path := rfl
@[simp] theorem modRoute_crypto (s : State) (c d : SliceId) (f : Route → Route) : (modRoute s c d f).crypto = s.crypto := rfl
@[simp] theorem modRoute_time (s : State) (c d : SliceId) (f : Route → Route) : (modRoute s c d f).time = s.time := rfl
@[simp] theorem modRoute_hbm (s : State) (c d : SliceId) (f : Route → Route) : (modRoute s c d f).hbm = s.hbm := rfl
@[simp] theorem modRoute_serdes (s : State) (c d : SliceId) (f : Route → Route) : (modRoute s c d f).serdes = s.serdes := rfl
@[simp] theorem modRoute_fabric (s : State) (c d : SliceId) (f : Route → Route) : (modRoute s c d f).fabric = s.fabric := rfl
@[simp] theorem modRoute_fw (s : State) (c d : SliceId) (f : Route → Route) : (modRoute s c d f).fw = s.fw := rfl
@[simp] theorem modRoute_power (s : State) (c d : SliceId) (f : Route → Route) : (modRoute s c d f).power = s.power := rfl
@[simp] theorem modRoute_pins (s : State) (c d : SliceId) (f : Route → Route) : (modRoute s c d f).pins = s.pins := rfl
@[simp] theorem modRoute_mirror (s : State) (c d : SliceId) (f : Route → Route) : (modRoute s c d f).mirror = s.mirror := rfl

/-! modSlot changes only `crypto`. -/

@[simp] theorem modSlot_pending (s : State) (n : Nat) (f : KeySlot → KeySlot) : (modSlot s n f).pending = s.pending := rfl
@[simp] theorem modSlot_now (s : State) (n : Nat) (f : KeySlot → KeySlot) : (modSlot s n f).now = s.now := rfl
@[simp] theorem modSlot_part (s : State) (n : Nat) (f : KeySlot → KeySlot) : (modSlot s n f).part = s.part := rfl
@[simp] theorem modSlot_serial (s : State) (n : Nat) (f : KeySlot → KeySlot) : (modSlot s n f).serial = s.serial := rfl
@[simp] theorem modSlot_env (s : State) (n : Nat) (f : KeySlot → KeySlot) : (modSlot s n f).env = s.env := rfl
@[simp] theorem modSlot_regs (s : State) (n : Nat) (f : KeySlot → KeySlot) : (modSlot s n f).regs = s.regs := rfl
@[simp] theorem modSlot_bridge (s : State) (n : Nat) (f : KeySlot → KeySlot) : (modSlot s n f).bridge = s.bridge := rfl
@[simp] theorem modSlot_anchor (s : State) (n : Nat) (f : KeySlot → KeySlot) : (modSlot s n f).anchor = s.anchor := rfl
@[simp] theorem modSlot_mail (s : State) (n : Nat) (f : KeySlot → KeySlot) : (modSlot s n f).mail = s.mail := rfl
@[simp] theorem modSlot_ev (s : State) (n : Nat) (f : KeySlot → KeySlot) : (modSlot s n f).ev = s.ev := rfl
@[simp] theorem modSlot_trunk (s : State) (n : Nat) (f : KeySlot → KeySlot) : (modSlot s n f).trunk = s.trunk := rfl
@[simp] theorem modSlot_path (s : State) (n : Nat) (f : KeySlot → KeySlot) : (modSlot s n f).path = s.path := rfl
@[simp] theorem modSlot_time (s : State) (n : Nat) (f : KeySlot → KeySlot) : (modSlot s n f).time = s.time := rfl
@[simp] theorem modSlot_hbm (s : State) (n : Nat) (f : KeySlot → KeySlot) : (modSlot s n f).hbm = s.hbm := rfl
@[simp] theorem modSlot_serdes (s : State) (n : Nat) (f : KeySlot → KeySlot) : (modSlot s n f).serdes = s.serdes := rfl
@[simp] theorem modSlot_fabric (s : State) (n : Nat) (f : KeySlot → KeySlot) : (modSlot s n f).fabric = s.fabric := rfl
@[simp] theorem modSlot_fw (s : State) (n : Nat) (f : KeySlot → KeySlot) : (modSlot s n f).fw = s.fw := rfl
@[simp] theorem modSlot_power (s : State) (n : Nat) (f : KeySlot → KeySlot) : (modSlot s n f).power = s.power := rfl
@[simp] theorem modSlot_pins (s : State) (n : Nat) (f : KeySlot → KeySlot) : (modSlot s n f).pins = s.pins := rfl
@[simp] theorem modSlot_mirror (s : State) (n : Nat) (f : KeySlot → KeySlot) : (modSlot s n f).mirror = s.mirror := rfl

/-! modHalf changes only `crypto`. -/

@[simp] theorem modHalf_pending (s : State) (n : Nat) (c : Half) (f : KeyHalf → KeyHalf) : (modHalf s n c f).pending = s.pending := rfl
@[simp] theorem modHalf_now (s : State) (n : Nat) (c : Half) (f : KeyHalf → KeyHalf) : (modHalf s n c f).now = s.now := rfl
@[simp] theorem modHalf_part (s : State) (n : Nat) (c : Half) (f : KeyHalf → KeyHalf) : (modHalf s n c f).part = s.part := rfl
@[simp] theorem modHalf_serial (s : State) (n : Nat) (c : Half) (f : KeyHalf → KeyHalf) : (modHalf s n c f).serial = s.serial := rfl
@[simp] theorem modHalf_env (s : State) (n : Nat) (c : Half) (f : KeyHalf → KeyHalf) : (modHalf s n c f).env = s.env := rfl
@[simp] theorem modHalf_regs (s : State) (n : Nat) (c : Half) (f : KeyHalf → KeyHalf) : (modHalf s n c f).regs = s.regs := rfl
@[simp] theorem modHalf_bridge (s : State) (n : Nat) (c : Half) (f : KeyHalf → KeyHalf) : (modHalf s n c f).bridge = s.bridge := rfl
@[simp] theorem modHalf_anchor (s : State) (n : Nat) (c : Half) (f : KeyHalf → KeyHalf) : (modHalf s n c f).anchor = s.anchor := rfl
@[simp] theorem modHalf_mail (s : State) (n : Nat) (c : Half) (f : KeyHalf → KeyHalf) : (modHalf s n c f).mail = s.mail := rfl
@[simp] theorem modHalf_ev (s : State) (n : Nat) (c : Half) (f : KeyHalf → KeyHalf) : (modHalf s n c f).ev = s.ev := rfl
@[simp] theorem modHalf_trunk (s : State) (n : Nat) (c : Half) (f : KeyHalf → KeyHalf) : (modHalf s n c f).trunk = s.trunk := rfl
@[simp] theorem modHalf_path (s : State) (n : Nat) (c : Half) (f : KeyHalf → KeyHalf) : (modHalf s n c f).path = s.path := rfl
@[simp] theorem modHalf_time (s : State) (n : Nat) (c : Half) (f : KeyHalf → KeyHalf) : (modHalf s n c f).time = s.time := rfl
@[simp] theorem modHalf_hbm (s : State) (n : Nat) (c : Half) (f : KeyHalf → KeyHalf) : (modHalf s n c f).hbm = s.hbm := rfl
@[simp] theorem modHalf_serdes (s : State) (n : Nat) (c : Half) (f : KeyHalf → KeyHalf) : (modHalf s n c f).serdes = s.serdes := rfl
@[simp] theorem modHalf_fabric (s : State) (n : Nat) (c : Half) (f : KeyHalf → KeyHalf) : (modHalf s n c f).fabric = s.fabric := rfl
@[simp] theorem modHalf_fw (s : State) (n : Nat) (c : Half) (f : KeyHalf → KeyHalf) : (modHalf s n c f).fw = s.fw := rfl
@[simp] theorem modHalf_power (s : State) (n : Nat) (c : Half) (f : KeyHalf → KeyHalf) : (modHalf s n c f).power = s.power := rfl
@[simp] theorem modHalf_pins (s : State) (n : Nat) (c : Half) (f : KeyHalf → KeyHalf) : (modHalf s n c f).pins = s.pins := rfl
@[simp] theorem modHalf_mirror (s : State) (n : Nat) (c : Half) (f : KeyHalf → KeyHalf) : (modHalf s n c f).mirror = s.mirror := rfl

/-! modChan changes only `hbm`. -/

@[simp] theorem modChan_pending (s : State) (c : ChanId) (f : HbmChan → HbmChan) : (modChan s c f).pending = s.pending := rfl
@[simp] theorem modChan_now (s : State) (c : ChanId) (f : HbmChan → HbmChan) : (modChan s c f).now = s.now := rfl
@[simp] theorem modChan_part (s : State) (c : ChanId) (f : HbmChan → HbmChan) : (modChan s c f).part = s.part := rfl
@[simp] theorem modChan_serial (s : State) (c : ChanId) (f : HbmChan → HbmChan) : (modChan s c f).serial = s.serial := rfl
@[simp] theorem modChan_env (s : State) (c : ChanId) (f : HbmChan → HbmChan) : (modChan s c f).env = s.env := rfl
@[simp] theorem modChan_regs (s : State) (c : ChanId) (f : HbmChan → HbmChan) : (modChan s c f).regs = s.regs := rfl
@[simp] theorem modChan_bridge (s : State) (c : ChanId) (f : HbmChan → HbmChan) : (modChan s c f).bridge = s.bridge := rfl
@[simp] theorem modChan_anchor (s : State) (c : ChanId) (f : HbmChan → HbmChan) : (modChan s c f).anchor = s.anchor := rfl
@[simp] theorem modChan_mail (s : State) (c : ChanId) (f : HbmChan → HbmChan) : (modChan s c f).mail = s.mail := rfl
@[simp] theorem modChan_ev (s : State) (c : ChanId) (f : HbmChan → HbmChan) : (modChan s c f).ev = s.ev := rfl
@[simp] theorem modChan_trunk (s : State) (c : ChanId) (f : HbmChan → HbmChan) : (modChan s c f).trunk = s.trunk := rfl
@[simp] theorem modChan_path (s : State) (c : ChanId) (f : HbmChan → HbmChan) : (modChan s c f).path = s.path := rfl
@[simp] theorem modChan_crypto (s : State) (c : ChanId) (f : HbmChan → HbmChan) : (modChan s c f).crypto = s.crypto := rfl
@[simp] theorem modChan_time (s : State) (c : ChanId) (f : HbmChan → HbmChan) : (modChan s c f).time = s.time := rfl
@[simp] theorem modChan_serdes (s : State) (c : ChanId) (f : HbmChan → HbmChan) : (modChan s c f).serdes = s.serdes := rfl
@[simp] theorem modChan_fabric (s : State) (c : ChanId) (f : HbmChan → HbmChan) : (modChan s c f).fabric = s.fabric := rfl
@[simp] theorem modChan_fw (s : State) (c : ChanId) (f : HbmChan → HbmChan) : (modChan s c f).fw = s.fw := rfl
@[simp] theorem modChan_power (s : State) (c : ChanId) (f : HbmChan → HbmChan) : (modChan s c f).power = s.power := rfl
@[simp] theorem modChan_pins (s : State) (c : ChanId) (f : HbmChan → HbmChan) : (modChan s c f).pins = s.pins := rfl
@[simp] theorem modChan_mirror (s : State) (c : ChanId) (f : HbmChan → HbmChan) : (modChan s c f).mirror = s.mirror := rfl

/-- The element changed by `modLane`. -/
@[simp] theorem laneAt_modLane_same (s : State) (l : Lane) (f : LaneSt → LaneSt) : laneAt (modLane s l f) l = f (laneAt s l) := vmod_same ..

/-- Every other element stays. -/
theorem laneAt_modLane_other (s : State) (l b : Lane) (f : LaneSt → LaneSt) (h : b ≠ l) : laneAt (modLane s l f) b = laneAt s b :=
  vmod_other _ _ _ _ h

/-- The element changed by `modGroup`. -/
@[simp] theorem groupAt_modGroup_same (s : State) (g : GroupId) (f : GroupSt → GroupSt) : groupAt (modGroup s g f) g = f (groupAt s g) := vmod_same ..

/-- Every other element stays. -/
theorem groupAt_modGroup_other (s : State) (g b : GroupId) (f : GroupSt → GroupSt) (h : b ≠ g) : groupAt (modGroup s g f) b = groupAt s b :=
  vmod_other _ _ _ _ h

/-- The element changed by `modAcct`. -/
@[simp] theorem acctAt_modAcct_same (s : State) (a : AccountId) (f : AccountSt → AccountSt) : acctAt (modAcct s a f) a = f (acctAt s a) := vmod_same ..

/-- Every other element stays. -/
theorem acctAt_modAcct_other (s : State) (a b : AccountId) (f : AccountSt → AccountSt) (h : b ≠ a) : acctAt (modAcct s a f) b = acctAt s b :=
  vmod_other _ _ _ _ h

/-- The element changed by `modPort`. -/
@[simp] theorem portAt_modPort_same (s : State) (p : PortId) (f : PortSt → PortSt) : portAt (modPort s p f) p = f (portAt s p) := vmod_same ..

/-- Every other element stays. -/
theorem portAt_modPort_other (s : State) (p b : PortId) (f : PortSt → PortSt) (h : b ≠ p) : portAt (modPort s p f) b = portAt s b :=
  vmod_other _ _ _ _ h

/-- The element changed by `modCls`. -/
@[simp] theorem clsAt_modCls_same (s : State) (c : SliceId) (f : ClsSt → ClsSt) : clsAt (modCls s c f) c = f (clsAt s c) := vmod_same ..

/-- Every other element stays. -/
theorem clsAt_modCls_other (s : State) (c b : SliceId) (f : ClsSt → ClsSt) (h : b ≠ c) : clsAt (modCls s c f) b = clsAt s b :=
  vmod_other _ _ _ _ h

/-- The element changed by `modBuf`. -/
@[simp] theorem bufAt_modBuf_same (s : State) (c : SliceId) (f : BufSt → BufSt) : bufAt (modBuf s c f) c = f (bufAt s c) := vmod_same ..

/-- Every other element stays. -/
theorem bufAt_modBuf_other (s : State) (c b : SliceId) (f : BufSt → BufSt) (h : b ≠ c) : bufAt (modBuf s c f) b = bufAt s b :=
  vmod_other _ _ _ _ h

/-- The element changed by `modBox`. -/
@[simp] theorem boxAt_modBox_same (s : State) (m : MboxId) (f : Mbox → Mbox) : boxAt (modBox s m f) m = f (boxAt s m) := vmod_same ..

/-- Every other element stays. -/
theorem boxAt_modBox_other (s : State) (m b : MboxId) (f : Mbox → Mbox) (h : b ≠ m) : boxAt (modBox s m f) b = boxAt s b :=
  vmod_other _ _ _ _ h

/-- The element changed by `modCap`. -/
@[simp] theorem capAt_modCap_same (s : State) (c : Half) (f : AnchorCap → AnchorCap) : capAt (modCap s c f) c = f (capAt s c) := vmod_same ..

/-- Every other element stays. -/
theorem capAt_modCap_other (s : State) (c b : Half) (f : AnchorCap → AnchorCap) (h : b ≠ c) : capAt (modCap s c f) b = capAt s b :=
  vmod_other _ _ _ _ h

/-- The element changed by `modChan`. -/
@[simp] theorem chanAt_modChan_same (s : State) (c : ChanId) (f : HbmChan → HbmChan) : chanAt (modChan s c f) c = f (chanAt s c) := vmod_same ..

/-- Every other element stays. -/
theorem chanAt_modChan_other (s : State) (c b : ChanId) (f : HbmChan → HbmChan) (h : b ≠ c) : chanAt (modChan s c f) b = chanAt s b :=
  vmod_other _ _ _ _ h

/-! count changes only `regs`. -/

@[simp] theorem count_pending (a n : Nat) (s : State) : (count a n s).pending = s.pending := rfl
@[simp] theorem count_now (a n : Nat) (s : State) : (count a n s).now = s.now := rfl
@[simp] theorem count_part (a n : Nat) (s : State) : (count a n s).part = s.part := rfl
@[simp] theorem count_serial (a n : Nat) (s : State) : (count a n s).serial = s.serial := rfl
@[simp] theorem count_env (a n : Nat) (s : State) : (count a n s).env = s.env := rfl
@[simp] theorem count_bridge (a n : Nat) (s : State) : (count a n s).bridge = s.bridge := rfl
@[simp] theorem count_anchor (a n : Nat) (s : State) : (count a n s).anchor = s.anchor := rfl
@[simp] theorem count_mail (a n : Nat) (s : State) : (count a n s).mail = s.mail := rfl
@[simp] theorem count_ev (a n : Nat) (s : State) : (count a n s).ev = s.ev := rfl
@[simp] theorem count_trunk (a n : Nat) (s : State) : (count a n s).trunk = s.trunk := rfl
@[simp] theorem count_path (a n : Nat) (s : State) : (count a n s).path = s.path := rfl
@[simp] theorem count_crypto (a n : Nat) (s : State) : (count a n s).crypto = s.crypto := rfl
@[simp] theorem count_time (a n : Nat) (s : State) : (count a n s).time = s.time := rfl
@[simp] theorem count_hbm (a n : Nat) (s : State) : (count a n s).hbm = s.hbm := rfl
@[simp] theorem count_serdes (a n : Nat) (s : State) : (count a n s).serdes = s.serdes := rfl
@[simp] theorem count_fabric (a n : Nat) (s : State) : (count a n s).fabric = s.fabric := rfl
@[simp] theorem count_fw (a n : Nat) (s : State) : (count a n s).fw = s.fw := rfl
@[simp] theorem count_power (a n : Nat) (s : State) : (count a n s).power = s.power := rfl
@[simp] theorem count_pins (a n : Nat) (s : State) : (count a n s).pins = s.pins := rfl
@[simp] theorem count_mirror (a n : Nat) (s : State) : (count a n s).mirror = s.mirror := rfl
@[simp] theorem count_hold (a n : Nat) (s : State) : (count a n s).regs.hold = s.regs.hold := rfl
@[simp] theorem count_w1c (a n : Nat) (s : State) : (count a n s).regs.w1c = s.regs.w1c := rfl
@[simp] theorem count_coll (a n : Nat) (s : State) : (count a n s).regs.coll = s.regs.coll := rfl
@[simp] theorem count_roWriteAddr (a n : Nat) (s : State) : (count a n s).regs.roWriteAddr = s.regs.roWriteAddr := rfl

/-! putFlags changes only `regs`. -/

@[simp] theorem putFlags_pending (a : Nat) (v : Word) (s : State) : (putFlags a v s).pending = s.pending := rfl
@[simp] theorem putFlags_now (a : Nat) (v : Word) (s : State) : (putFlags a v s).now = s.now := rfl
@[simp] theorem putFlags_part (a : Nat) (v : Word) (s : State) : (putFlags a v s).part = s.part := rfl
@[simp] theorem putFlags_serial (a : Nat) (v : Word) (s : State) : (putFlags a v s).serial = s.serial := rfl
@[simp] theorem putFlags_env (a : Nat) (v : Word) (s : State) : (putFlags a v s).env = s.env := rfl
@[simp] theorem putFlags_bridge (a : Nat) (v : Word) (s : State) : (putFlags a v s).bridge = s.bridge := rfl
@[simp] theorem putFlags_anchor (a : Nat) (v : Word) (s : State) : (putFlags a v s).anchor = s.anchor := rfl
@[simp] theorem putFlags_mail (a : Nat) (v : Word) (s : State) : (putFlags a v s).mail = s.mail := rfl
@[simp] theorem putFlags_ev (a : Nat) (v : Word) (s : State) : (putFlags a v s).ev = s.ev := rfl
@[simp] theorem putFlags_trunk (a : Nat) (v : Word) (s : State) : (putFlags a v s).trunk = s.trunk := rfl
@[simp] theorem putFlags_path (a : Nat) (v : Word) (s : State) : (putFlags a v s).path = s.path := rfl
@[simp] theorem putFlags_crypto (a : Nat) (v : Word) (s : State) : (putFlags a v s).crypto = s.crypto := rfl
@[simp] theorem putFlags_time (a : Nat) (v : Word) (s : State) : (putFlags a v s).time = s.time := rfl
@[simp] theorem putFlags_hbm (a : Nat) (v : Word) (s : State) : (putFlags a v s).hbm = s.hbm := rfl
@[simp] theorem putFlags_serdes (a : Nat) (v : Word) (s : State) : (putFlags a v s).serdes = s.serdes := rfl
@[simp] theorem putFlags_fabric (a : Nat) (v : Word) (s : State) : (putFlags a v s).fabric = s.fabric := rfl
@[simp] theorem putFlags_fw (a : Nat) (v : Word) (s : State) : (putFlags a v s).fw = s.fw := rfl
@[simp] theorem putFlags_power (a : Nat) (v : Word) (s : State) : (putFlags a v s).power = s.power := rfl
@[simp] theorem putFlags_pins (a : Nat) (v : Word) (s : State) : (putFlags a v s).pins = s.pins := rfl
@[simp] theorem putFlags_mirror (a : Nat) (v : Word) (s : State) : (putFlags a v s).mirror = s.mirror := rfl
@[simp] theorem putFlags_ctr (a : Nat) (v : Word) (s : State) : (putFlags a v s).regs.ctr = s.regs.ctr := rfl
@[simp] theorem putFlags_hold (a : Nat) (v : Word) (s : State) : (putFlags a v s).regs.hold = s.regs.hold := rfl
@[simp] theorem putFlags_coll (a : Nat) (v : Word) (s : State) : (putFlags a v s).regs.coll = s.regs.coll := rfl
@[simp] theorem putFlags_roWriteAddr (a : Nat) (v : Word) (s : State) : (putFlags a v s).regs.roWriteAddr = s.regs.roWriteAddr := rfl

/-- A counter after it counts. -/
theorem counterAt_count_same (a n : Nat) (s : State) (h : sparseWf 0 s.regs.ctr = true) :
    counterAt (count a n s) a = (counterAt s a + n) % 2 ^ 64 :=
  sparseGet_mod_same (n := a) (f := fun v => (v + n) % 2 ^ 64) h

/-- Another counter. -/
theorem counterAt_count_other (a b n : Nat) (s : State) (h : sparseWf 0 s.regs.ctr = true) (hb : b ≠ a) :
    counterAt (count a n s) b = counterAt s b :=
  sparseGet_mod_other (f := fun v => (v + n) % 2 ^ 64) h hb

/-- A flag word after it is written. -/
theorem flagWord_putFlags_same (a : Nat) (v : Word) (s : State) (h : sparseWf 0 s.regs.w1c = true) :
    flagWord (putFlags a v s) a = v := sparseGet_set_same h

/-- Another flag word. -/
theorem flagWord_putFlags_other (a b : Nat) (v : Word) (s : State) (h : sparseWf 0 s.regs.w1c = true) (hb : b ≠ a) :
    flagWord (putFlags a v s) b = flagWord s b := sparseGet_set_other h hb

/-! Shared operations. -/

@[simp] theorem whenB_true (f : State → State) (s : State) : whenB true f s = f s := rfl

@[simp] theorem whenB_false (f : State → State) (s : State) : whenB false f s = s := rfl

@[simp] theorem foldS_nil {α : Type} (f : α → State → State) (s : State) : foldS [] f s = s := rfl

@[simp] theorem foldS_cons {α : Type} (x : α) (l : List α) (f : α → State → State) (s : State) :
    foldS (x :: l) f s = foldS l f (f x s) := rfl

/-- A flag that is set already writes nothing more (R477). -/
theorem setFlag_set {a b : Nat} {s : State} (h : (flagWord s a).getLsbD b = true) : setFlag a b s = s := by simp [setFlag, h]

/-- A flag that is clear sets and writes its record (R477). -/
theorem setFlag_clear {a b : Nat} {s : State} (h : (flagWord s a).getLsbD b = false) :
    setFlag a b s = writeRecord (flagRecord (putFlags a (flagWord s a ||| BitVec.ofNat 32 (2 ^ b)) s) a (2 ^ b) false)
      (putFlags a (flagWord s a ||| BitVec.ofNat 32 (2 ^ b)) s) := by simp [setFlag, h]

/-- What a command row does where its request is not being executed: nothing. -/
theorem runCommand_idle {op : Nat} {ck : Request → State → List Check} {ap : Request → State → Done} {s : State}
    (h : current op s = none) : runCommand op ck ap s = s := by simp [runCommand, h]

/-- The first failing check is the status, and the command's own effect does not happen (R465). -/
theorem runCommand_fail {op : Nat} {ck : Request → State → List Check} {ap : Request → State → Done} {s : State} {m : MboxId}
    {r : Request} {st : Status} (h : current op s = some (m, r)) (hf : firstFailing (ck r s) = some st) :
    runCommand op ck ap s = finish m { st := s, status := st } := by simp [runCommand, h, hf]

/-- A command whose checks pass takes its effect and is answered. -/
theorem runCommand_pass {op : Nat} {ck : Request → State → List Check} {ap : Request → State → Done} {s : State} {m : MboxId}
    {r : Request} (h : current op s = some (m, r)) (hf : firstFailing (ck r s) = none) :
    runCommand op ck ap s = finish m (ap r s) := by simp [runCommand, h, hf]

/-- A long command whose checks pass starts. -/
theorem runLong_pass {op : Nat} {ck : Request → State → List Check} {st : MboxId → Request → State → State} {s : State}
    {m : MboxId} {r : Request} (h : current op s = some (m, r)) (hf : firstFailing (ck r s) = none) :
    runLong op ck st s = st m r s := by simp [runLong, h, hf]

/-- A long command whose check fails ends with its status. -/
theorem runLong_fail {op : Nat} {ck : Request → State → List Check} {go : MboxId → Request → State → State} {s : State}
    {m : MboxId} {r : Request} {st : Status} (h : current op s = some (m, r)) (hf : firstFailing (ck r s) = some st) :
    runLong op ck go s = finish m { st := s, status := st } := by simp [runLong, h, hf]

/-- A message of the expected type that passes R86's tests and the row's own, and is no duplicate, is acted on (R86, R87). -/
theorem oamReceive_accept {ty : Nat} {l : Lane} {m : OamRx} {test : GroupId → State → RxTest} {act : GroupId → State → State}
    {s : State} {g : GroupId} (ht : msgType m = ty) (hv : oamVerdict s l m = .pass g) (hr : test g s = .ok)
    (hd : isDup (groupAt s g) m (carrierStamp s l m) = false) :
    oamReceive ty l m test act s = act g (recordDup g m (carrierStamp s l m) (takeUnit l m s)) := by
  simp [oamReceive, ht, hv, hr, hd]

end Sys2Proof.Machine
end

