-- ==== Sys2Proof/Tests/Slice0.lean ====
section
/-!
SUPPORT. Tests/Slice0.lean: small tests.  The checks of WellFormed refuse an ill-formed term each; for every statement of
Certificates/Slice0/Obligations.lean with hypotheses, a concrete state and operands meet them; and single steps have the outcome
that the rules give.
-/
open Sys2Proof Sys2Proof.Machine

namespace Sys2Proof.Tests

set_option Elab.async false

/-- A device whose anchor is slice 0 with its deputy slice 1, every bridge link up, a long time after reset. -/
def dev : State :=
  { State.reset with
    now := 10 ^ 14,
    bridge := { State.reset.bridge with ports := Vector.replicate 8 (Vector.replicate 3 { up := true }) },
    anchor := { State.reset.anchor with caps := ⟨#[{ st := .anchor, drives := true }, { st := .deputy }], rfl⟩, mirrorSync := true } }

/-- `s` with a request in mailbox 0 that is being executed. -/
def withReq (op : Nat) (payload : List Byte) (mask : Byte) (s : State) : State :=
  { s with mail := { s.mail with
      boxes := s.mail.boxes.set 0 { s.mail.boxes[0] with
        st := .running,
        req := { opcode := BitVec.ofNat 16 op, sliceMask := mask, length := BitVec.ofNat 32 payload.length, payload := payload } },
      cur := some 0 } }

/-- A request of `op` taken from mailbox 0 passes its checks. -/
def passes (op : Nat) (checks : Request → State → List Check) (payload : List Byte) (s : State) (mask : Byte := 0) : Bool :=
  match current op (withReq op payload mask s) with
  | some (_, r) => firstFailing (checks r (withReq op payload mask s)) == none
  | none => false

/-- `n` zero bytes. -/
def zeros (n : Nat) : List Byte := List.replicate n 0

/-- A trunk OAM message with the given TYPE and body bytes from byte 4 on, TERM 0, sent in a frame's OAM blocks. -/
def oam (ty : Nat) (body : List Byte) : OamRx :=
  let v := ([0, BitVec.ofNat 8 ty, 0, 1] ++ body ++ zeros (56 - body.length) ++ zeros 4).foldl
    (fun (n : Nat) (b : Byte) => n * 256 + b.toNat) 0
  let m : BitVec 512 := BitVec.ofNat 512 v
  ⟨m ||| (crcOam ((bitsMsb m).take 480)).setWidth 512, false, 0⟩

/-- A group enabled on lanes 0 and 1, in OPERATE as terminal 5. -/
def onlineGroup : GroupSt :=
  { stopped := false, binding := [(0, 0), (1, 1)], st := .operate, termId := 5, eqd0 := some 1000, provEqd := some 1000,
    disc := some ⟨1000, 64, 10, 3, 1⟩, waitFrom := some 0, coarseRtt := 1000, timeSt := .coarse, ctr := 64000000000 }

/-- A lane in SYNC that has read a valid header. -/
def onlineLane : LaneSt :=
  { blockLock := true, align := .sync, pdSync := true, curValid := true, curOam := true, curTod := true, curG := 10,
    ranged := true, epochStamps := [⟨0, 0, true⟩], stampFn := some 0 }

/-- `dev` with group 0 enabled and every lane in SYNC. -/
def online : State :=
  { dev with
    serdes := { dev.serdes with cdrLock := Vector.replicate 88 true },
    pins := { dev.pins with llos := Vector.replicate 32 false },
    trunk := { dev.trunk with groups := dev.trunk.groups.set 0 onlineGroup, lanes := Vector.replicate 32 onlineLane } }

/-- A change of group 0. -/
def inGroup (f : GroupSt → GroupSt) (s : State) : State := modGroup s 0 f

/-- A change of lane 0. -/
def inLane (f : LaneSt → LaneSt) (s : State) : State := modLane s 0 f

/-- The message passes all six receive tests on lane 0. -/
def heard (ty : Nat) (m : OamRx) (test : GroupId → State → RxTest) (s : State) : Bool :=
  msgCrcOk m && msgType m == ty && oamVerdict s 0 m == .pass 0 && test 0 s == .ok &&
    !isDup (groupAt s 0) m (carrierStamp s 0 m)

/-- A grant entry without GCRC. -/
def grant (term acct start len : Nat) : BitVec 64 := BitVec.ofNat 64 (term * 2 ^ 56 + acct * 2 ^ 50 + start * 2 ^ 30 + len * 2 ^ 14)

/-- `online` with one grant in the table of epoch 0 on lane 0. -/
def granted (term : Nat) : State := inLane (fun x => { x with tables := [(0, [⟨grant term 3 100 200, false⟩])] }) online

/-- A latent burst of the grant of `granted`. -/
def latent : Latent :=
  { lane := 0, epoch := 0, grant := grant 5 3 100 200, account := 3, edge := 64000000000, stamped := true, cutoff := 1600, words := 100,
    leader := 64, reports := 0 }

def someFrame : Packet := { bytes := zeros 60 }

/-- A flit from slice 1 to slice 0 with its CRC. -/
def someFlit : Flit :=
  { src := 1, dst := 0, seq := 0, hops := 1, bytes := zeros 64, crc := crc32 0xFFFFFFFF#32 (bitsOfBytes (zeros 64)), pkt := 0,
    first := true, last := true }
/-- Every link carries `f`. -/
def flitDev (f : Flit) : State :=
  { dev with bridge := { dev.bridge with
      ports := Vector.replicate 8 (Vector.replicate 3 { up := true, unacked := [{ flit := f, sentAt := 0 }] }) } }
/-- A frame of `n` bytes with its FCS beside, as it arrives without a codeword error. -/
def hostFrame (n : Nat) : FrameRx := ⟨zeros n, true, false, 0, 0, 0⟩
/-- A packet's decryption with nothing left to receive. -/
def someDecrypt : DecJob :=
  { lane := 0, port := 7, last := true, ctx := none, clear := false, slot := 0, half := 0, group := 0, entry := 0, length := 60, fn := 0 }
/-- A job of the utility pipe. -/
def someJob : UtilJob := ⟨false, 1, .ctr, true, false, 0, zeros 16, [], zeros 16⟩

/-- The 256-bit KEK of RFC 3394, 4.3, and what it wraps the key 0x0011…FF to, behind the words of a KEY_LOAD or KEK_SET. -/
def rfcKek : KeyBits := 0x000102030405060708090A0B0C0D0E0F101112131415161718191A1B1C1D1E1F
def rfcWrapped : List Byte := vecBytes 0x64E8C3F9CE0F5BA263E9777905818A2A93C8191E7D6E8AE7#192 ++ zeros 16

/-! States near those of the rules: a paired group, host ports that run, a key slot, an HBM channel, and so on. -/

def someReq : HbmReq := ⟨0, 0, .none, 0, false, 0, [0]⟩
def bursting : Burst := ⟨0, 0, grant 5 3 100 200 ||| (1#64 <<< 11), 3, 0, 0, 0, 5, 0, false, 64, [], 0, 0, [], [], 10, 0⟩
def paired : State := inGroup (fun x => { x with pair := some ⟨true, 1, 0, true, 5, 0⟩ }) online
def pausedPort : State := modPort dev 0 fun x => { x with aligned := true, queues := x.queues.set 0 { x.queues[0] with pausedSince := some 0, pauseEnd := 10 ^ 15 } }
def portsOn (s : State) : State := { s with path := { s.path with portsStopped := Vector.replicate 8 false, mode := Vector.replicate 8 2 } }
def portUp : State := modPort (portsOn dev) 0 fun x => { x with aligned := true, txEnable := true, fcMode := 1, xoffAt := some 0, xoff := 1, eee := true }
def quietPort : State := modPort portUp 0 fun x => { x with xoff := 0, xoffAt := none }
def slotted (f : KeySlot → KeySlot) (s : State) : State := { s with crypto := { s.crypto with slots := [(5, f {})] } }
def inChan (f : HbmChan → HbmChan) (s : State) : State := { s with hbm := { s.hbm with chans := vmod s.hbm.chans 0 f } }
def serving : State := inChan (fun x => { x with st := .service }) dev
def inSerial (n : LaneNo) (f : SerialLane → SerialLane) (s : State) : State := { s with serdes := { s.serdes with lanes := vmod s.serdes.lanes n f } }
def inFab (f : FabLaneSt → FabLaneSt) (s : State) : State := { s with fabric := { s.fabric with lanes := vmod s.fabric.lanes 0 f } }
def fabUp : State := inFab (fun y => { y with enabled := true, aligned := true, adj := .full, neighId := 9, neighAddr := 7, neighLpi := true }) (inSerial 8 (fun x => { x with tx := .run, rx := .run }) { online with fabric := { online.fabric with stopped := false, address := 6, lpi := true } })
def running (l : LongKind) (s : State) : State := { s with mail := { s.mail with longs := [⟨0, l⟩] } }
def inPw (f : SlicePw → SlicePw) (s : State) : State := { s with power := { s.power with slices := vmod s.power.slices 0 f } }
def inPower (p : SlicePower) (s : State) : State := { s with power := { s.power with st := vmod s.power.st 0 fun _ => p } }
def inMeter (i : Nat) (m : Meter) (s : State) : State := inPw (fun p => { p with meters := vmod p.meters (Fin.ofNat 8 i) fun _ => m }) s
def ready (s : State) : State := { s with fw := { s.fw with ready := true }, anchor := { s.anchor with pcieUp := true } }
def inRing (f : MgtRing → MgtRing) (s : State) : State := { s with ev := { s.ev with rings := vmod s.ev.rings 0 f } }

def trained : State :=
  { State.reset with bridge := { State.reset.bridge with ports := Vector.replicate 8 (Vector.replicate 3 { goodRun := 10000 }) } }
def electing : State := { dev with anchor := { dev.anchor with caps := ⟨#[{ st := .elect, drives := true }, {}], rfl⟩ } }
def goodHeader : BitVec 64 := 0x0000700000000000#64 ||| (hecOf 0x0000700000000000#64).setWidth 64
def goodGrant : BitVec 64 := grant 5 3 100 200 ||| (crc8 ((bitsMsb (grant 5 3 100 200)).take 56)).setWidth 64
def unlocked : State := inLane (fun x => { x with blockLock := false }) online
def contexts (d : Bool) : State := inLane (fun x => { x with contexts := [{ id := 0, port := 7, discard := d, startAt := 0 }] }) online
def repeated (ty : Nat) : State := recordDup 0 (oam ty []) (carrierStamp online 0 (oam ty [])) online
def applying : State := inGroup (fun x => { x with st := .range, pendApply := [(0, .eqd [(0, 5)])] }) online
def mapped : State :=
  inLane (fun x => { x with maps := [(0, [(0, grant 5 3 100 200), (1, grant 5 3 296 100), (2, grant 5 3 500 100), (3, grant 5 4 604 10)])] }) online
/-- Slice 0 with the buffer of pointer 0 allocated to an owner. -/
def holding (o c : Nat) : State := modBuf dev 0 fun b => { b with bitmap := [(0, some { owner := o, count := c })] }
def stoppedBufs : State := modBuf dev 0 fun b => { b with stopped := true }
def emptyPools : State := modBuf dev 0 fun b => { b with pools := b.pools.map fun p => { p with buffers := 0 } }
def wheeled (overflow : Bool) (t : Nat) : State :=
  modPort dev 0 fun x => { x with shaper := { x.shaper with wheel := some (t, overflow) } }
def timedHead : State :=
  modPort portUp 0 fun x => { x with
    queues := x.queues.set 0 { x.queues[0] with timed := true, frames := [{ someFrame with launch := some (0, 0) }] } }
def schedsStopped : State := { portUp with path := { portUp.path with schedStopped := Vector.replicate 8 true } }
def aged : State :=
  slotted (fun k => { k with down := true, halves := Vector.replicate 2 { state := .loaded, firstFn := some (1, 0) } }) dev
def keyed : State :=
  { dev with crypto := { dev.crypto with keks := Vector.replicate 8 (some (true, rfcKek)) },
             fw := { dev.fw with fuses := { dev.fw.fuses with rootKey := rfcKek } } }
def hosted : State := { dev with time := { dev.time with host := true } }
def latched : State := { dev with time := { dev.time with latches := Vector.replicate 4 (some ⟨0, 0, 0, 0, false, 0, 0, 0, 0⟩) } }
def allServing : State := { serving with hbm := { serving.hbm with chans := serving.hbm.chans.map fun x => { x with st := .service } } }
/-- A HELLO of a device that names a neighbour. -/
def helloOf (device neighbour : Nat) (flags : Byte) : Hello :=
  { bytes := vecBytes (BitVec.ofNat 64 device) ++ vecBytes (BitVec.ofNat 64 neighbour) ++ zeros 10 ++ [flags] ++ zeros 13 }
def adjacent (a : Adj) : State := inFab (fun y => { y with adj := a }) fabUp
def notifying : State :=
  inGroup (fun x => { x with pair := some ⟨true, 1, 2, true, 5, 0⟩, prot := { x.prot with notify := some (4, 1, 0) } }) dev
def inBox (f : Mbox → Mbox) (s : State) : State := { s with mail := { s.mail with boxes := vmod s.mail.boxes 0 f } }
def pendingBox : State :=
  inBox (fun b => { b with st := .pending, req := { b.req with seq := 77 } }) { dev with mail := { dev.mail with ringQ := [1, 0, 2] } }
/-- Mailbox 0 has rung with a request of an opcode. -/
def rung (op : Nat) : State :=
  inBox (fun b => { b with st := .pending, req := { opcode := BitVec.ofNat 16 op, seq := 9 } })
    (ready { dev with mail := { dev.mail with ringQ := [0] } })
/-- A FW_STAGE of two bytes with FLAGS that runs. -/
def staged (flags : Byte) : State :=
  running .fwStage (withReq 0x0B00 [0, 0, 0, 0, 100, 0, 0, 0, flags, 0, 0, 0, 7, 8] 0 dev)

/-- An image of one component, signed with a key of the tests' own by another implementation (openssl). -/
def signedImage : List Byte :=
  toBe 40 0x49574643010001006001000000000000070000000F00000002000001050000000001000000000000 ++ zeros 80 ++
    toBe 96 0x72784B177DEAB18430F693D6E445815387873AA1DF3D4EA6CCDBD4A445348859BCB1D49E2BADE8AE1D773F7079AB2099B050B2AAB6C52883C61F3DBA67FD851E4EAC7BCF9F27D2ACB9CD54FFB7CB6B50B1DEDEC547A4A3BC5065770758842FA1 ++ zeros 40 ++
    toBe 96 0x3A98DC7670610AE9ECEF7378E4CACFE5EA7A43AF6E03586423D993599E4DFA6B43DFFA10622E3F74D3CF6EAFD97E7F06F19ED99E54254793A827A6CE8FA51B681EBB23D0E4C45B9902CBB4B432D12F38417E7486FA7534BBE65B439B8C8A0D83
/-- The last chunk of that image is being staged, on a device that holds the hash of its key. -/
def stagedSigned : State :=
  let s := running .fwStage (withReq 0x0B00 ([0, 0, 0, 0, 96, 1, 0, 0, 3, 0, 0, 0] ++ signedImage) 0 dev)
  { s with fw := { s.fw with fuses := { s.fw.fuses with
    keyHash := 0x8811691A6B91C6EADA3FD5C6434039EEACF39F9714AEBE9081C091FC4DA2FF464BEEA1BE0AA2D816939F59A1B76E7619 } } }
/-- A NORMAL job runs in the utility pipe. -/
def busyUtility : State := { dev with crypto := { dev.crypto with util := { running := some (.job someJob) } } }
/-- Lane 0 receives a frame whose first data word is `w` once descrambled. -/
def heading (w : BitVec 64) : State :=
  inLane (fun x => { x with
    rxBlocks := List.replicate 12 ⟨true, 0⟩ ++ [⟨false, (descramble 0 0 [w]).headD 0 ++ (0 : BitVec 192)⟩] }) online
/-- Slice 0's first link with what makes it go down. -/
def failedLink (c : BridgeDownCause) : State :=
  match c with
  | .ackTimeout => flitDev someFlit
  | .retriesFailed => { dev with bridge := { dev.bridge with
      ports := Vector.replicate 8 (Vector.replicate 3 { up := true, unacked := [{ flit := someFlit, sentAt := 0, fails := 9 }] }) } }
  | .laneLockLost => dev
def standingGrant : BitVec 64 :=
  let r := grant 5 3 100 200 ||| (1#64 <<< 9)
  r ||| (crc8 ((bitsMsb r).take 56)).setWidth 64
/-- A line lane in a TRUNK_FRAME loop with a loop burst of no data blocks due. -/
def looping : State :=
  inSerial 4 (fun x => { x with loop := .trunkFrame, loopDue := [{ at_ := 0, fn := 0, len := 34, words := [] }] }) dev

def ctxs (d : Bool) := inLane (fun x => { x with contexts := [{ id := 0, port := 7, discard := d, startAt := 0 }] }) online
def staging : State := inGroup (fun x => { x with latents := [latent] }) online
def filled : State := { staging with path := { staging.path with accounts := staging.path.accounts.set 3 { remainder := some someFrame } } }
def cls1 (f : ClsSt → ClsSt) : State := modCls dev 0 f
def stopBuf : State := modBuf dev 0 fun b => { b with stopped := true }
def acct0 (f : AccountSt → AccountSt) (s : State) : State := modAcct s 0 f
def hot : State := { dev with hbm := { dev.hbm with chans := Vector.replicate 8 { st := .service } } }
def act (n : Nat) (todo : List Nat) : State := { dev with fw := { dev.fw with act := some ⟨0, false, n, todo, {}, 0, 0⟩ } }
def svc : List Byte := vecBytes (serviceAddr dev) ++ zeros 6 ++ [0x88, 0xB5] ++ zeros 16

/-! WellFormed: an ill-formed term for each check, which the check refuses. -/

theorem wf_refuses_registers :
    [Instr.registerWrite 2 0, .registerWrite (2 ^ 28) 0, .unalignedAccess 0 0 false, .unalignedAccess (2 ^ 28 - 1) 2 false,
     .unalignedAccess 4 4 false, .w1cClear 1 0 0, .rcRead 2, .counterLowRead 4 0, .counterLowRead 0 (2 ^ 64), .counterHighRead 0,
     .collisionCounterRead 1 0].all (fun c => !c.wf) = true := by decide +kernel

theorem wf_refuses_trunk :
    [Instr.flitReceive 0 0 { someFlit with hops := 8 }, .flitReceive 0 0 { someFlit with bytes := zeros 63 }, .smbusSensorRead 256, .blockLockWindow 0 [], .blockLockWindow 0 (List.replicate 257 1025),
     .frameHeaderRx 0 ⟨0, true, 0, 0, List.replicate 8000 ⟨true, 0⟩⟩, .trunkPacketHeaderRx 0 32000, .announce 0 800000, .stagingBegin 0 42926080 0,
     .develop 0 0 800000, .rebuildStart 0 42926080 0, .protectStatus 64 (zeros 24), .protectStatus 0 [], .protectNotify 0 (zeros 9),
     .notifyAck 64 0, .notifyAck 0 (2 ^ 32)].all (fun c => !c.wf) = true := by decide +kernel

theorem wf_refuses_path :
    [Instr.hostFrameRx 0 (hostFrame 65536), .pauseFrameRx 0 ⟨true, 0, [1], true⟩, .pauseFrameRx 0 ⟨false, 0, [65536], true⟩,
     .bufferAlloc 0 ⟨256, 0, 1, 1⟩, .bufferAlloc 0 ⟨0, 8, 1, 1⟩, .bufferAlloc 0 ⟨0, 0, 0, 1⟩, .bufferAlloc 0 ⟨0, 0, 10241, 1⟩,
     .bufferAlloc 0 ⟨0, 0, 1, 256⟩, .handOff 0 0 0 0 256, .ringMeasure (2 ^ 27), .utilityJobArrive { someJob with iv := zeros 12 },
     .hbmRequest 0 { someReq with addr := 2 ^ 31 }, .hbmRequest 0 { someReq with data := [] },
     .hbmRequest 0 { someReq with unit := 32 }].all (fun c => !c.wf) = true := by decide +kernel

theorem wf_refuses_management :
    [Instr.hello 0 { bytes := zeros 39 }, .fabricCellRx 0 ⟨0, zeros 10241, 0⟩, .fabSeqHoldExpiry 64 0, .fabSeqHoldExpiry 0 3, .addrHoldExpiry 64,
     .chkLockLost ⟨0, 0⟩ 2 1 0, .chkLockLost ⟨0, 0⟩ 1 3 0, .chkLockLost ⟨0, 10⟩ 1 2 0, .chkLockLost ⟨0, 0⟩ 0 0 1025, .ring 8, .abort 8 true, .requestAreaWrite 8 0 [], .requestAreaWrite 0 4096 [1], .evqConsWrite 65536, .txqTailWrite 0 4096,
     .txDescriptorRead 0 [] [], .txDescriptorRead 0 (zeros 32) (zeros 65536), .rxqTailWrite 0 4096, .mgtRxDeliver 0 65536,
     .sensorSample 99 0, .avsPoll 0 65536, .thermalThrottle 0 4 0, .thermalShutdown 0 4 0, .quarantineExit 0 6,
     .quarantineExit 0 27].all (fun c => !c.wf) = true := by decide +kernel

theorem wf_accepts :
    [Instr.registerWrite 4 0, .counterHighRead 4, .hello 0 { bytes := zeros 40 }, .ring 7, .quarantineExit 0 26, .timeNsRead,
     .hbmRequest 0 someReq].all (fun c => c.wf) = true := by decide +kernel

/-- The table gives no row bits: no word spells a command, and a fetch word changes nothing. -/
theorem test_no_word_spells_a_command : decodeTableWord 32 0 = none ∧ State.reset.withFetchWord 32 0 = State.reset := by
  constructor <;> rfl

/-! The conditions of every command of the completion statements are met in a concrete state. -/

theorem witness_RegisterAccessesComplete :
    [registerWriteGuard 0 0 dev, rcReadGuard 0x18 dev, counterLowReadGuard 0x18 3 dev,
     counterHighReadGuard 0x1C dev].all id = true := by decide +kernel

set_option maxRecDepth 100000 in
theorem witness_BridgeAndAnchorCommandsComplete :
    [unreachableAccessGuard 3 false State.reset, passes 0x0101 trunkGroupSetChecks ([0,1] ++ zeros 2 ++ [1] ++ zeros 35) dev,
     flitReceiveGuard 0 0 someFlit (flitDev someFlit), bridgePortDownGuard 0 0 .laneLockLost dev,
     bridgeRetrainGuard 0 0 State.reset,
     bridgePortUpGuard 0 0 { State.reset with bridge := { State.reset.bridge with ports := Vector.replicate 8 (Vector.replicate 3 { goodRun := 10000 }) } },
     routeTableInstallGuard 0 dev,
     bridgeSeqGapTimeoutGuard 1 0 { dev with bridge := { dev.bridge with rx := [(8, { held := [(0, { someFlit with src := 0, dst := 1, seq := 1 })] })] } },
     leaseSendGuard dev, leaseExpiryGuard dev,
     mirrorResyncCompleteGuard {dev with anchor := {dev.anchor with leaseAt := dev.now}},
     claimLineFreeGuard 0 true { State.reset with now := 2000 }, claimProbeGuard 0 dev,
     electionTimeoutGuard 1 { State.reset with now := 10^6 },
     anchorFaultReportGuard 1 { dev with anchor := { dev.anchor with caps := ⟨#[{ st := .faulted }, { st := .deputy }], rfl⟩ } },
     anchorOwnFaultGuard 0 dev,
     handoverLineReleaseGuard 0 { dev with anchor := { dev.anchor with caps := ⟨#[{ st := .anchor, handoverAt := some 0 }, { st := .deputy }], rfl⟩ } },
     peerPathReturnGuard dev, pcieLinkTrainedGuard dev, takeChargeGuard 0 dev,
     passes 0x0021 anchorHandoverChecks [] dev].all id = true := by decide +kernel

theorem witness_FramingCommandsComplete :
    [rngLaneTrxLoReadGuard 0 dev, blockLockWindowGuard 0 (List.replicate 257 0) online, blockLockLostGuard 0 true online,
     frameHeaderRxGuard 0 online, trunkPacketHeaderRxGuard 0 0 online, reasmTimeoutGuard 0 7 (ctxs false),
     reasmDiscardExpiryGuard 0 7 (ctxs true),
     settleWindowCloseGuard 0 none (inLane (fun x => { x with settleLane := some 0 }) online),
     passes 0x0110 portFilterWriteChecks ([0,1,0,0] ++ zeros 12) dev,
     passes 0x0111 portFilterReadChecks [0,1,0,0] dev].all id = true := by decide +kernel

set_option maxRecDepth 100000 in
theorem witness_RangingCommandsComplete :
    [heard 1 (oam 1 [0,0,0,9, 0,64, 0,10, 3]) (discoverTest (oam 1 [0,0,0,9, 0,64, 0,10, 3])) online,
     heard 3 (oam 3 []) noTest online, heard 5 (oam 5 []) noTest online, heard 6 (oam 6 []) (todTest 0 (oam 6 [])) online,
     passes 0x0120 rangeProvisionChecks ([0,0,0xFF,0] ++ zeros 14 ++ [60,0]) dev,
     announceGuard 0 100 (inGroup (fun x => { x with st := .announce }) (granted 254)),
     responseWaitExpiryGuard 0 (inGroup (fun x => { x with st := .announce }) online),
     rangeReplyGuard 0 (inLane (fun x => { x with rangeReq := some ⟨0, 100, 0, 1000, 0⟩ }) (granted 5)),
     rangeTimeoutGuard 0 (inGroup (fun x => { x with st := .range }) online),
     applicationInstantGuard 0 (inGroup (fun x => { x with pendApply := [(0, .policy 1 0 false)] }) online),
     holdoverExpiryGuard 0 (inGroup (fun x => { x with st := .holdover }) online),
     todStaleGuard 0 online].all id = true := by decide +kernel

set_option maxRecDepth 100000 in
theorem witness_GrantAndBurstCommandsComplete :
    [grantMapRxGuard 0 online, grantTableCompleteGuard 0 online,
     jumpHoldClearGuard 0 (inLane (fun x => { x with jumpHold := some 0 }) online), heard 0xA (oam 0xA []) noTest online,
     amendApplyGuard 0 (inGroup (fun x => { x with amends := [⟨0, 0, 0, 0, 0, 0, 0⟩] }) online),
     heard 7 (oam 7 []) noTest online, burstLaunchGuard 0 (granted 5),
     burstEndLeaveGuard 0 (inLane (fun x => { x with burst := some bursting }) online),
     fillEndGuard 0 (inLane (fun x => { x with out := .fill 9 }) online),
     passes 0x0130 grantTableReadChecks [0,0,0,0,1,0,0,0] dev, rateUpdateGuard 0 online,
     stagingBeginGuard 0 0 100 (inGroup (fun x => { x with ctr := ticks 70000 }) (granted 5)), packetPlaceGuard 3 filled,
     developGuard 0 0 100 staging,
     rebuildStartGuard 0 0 100 (inGroup (fun x => { x with latents := [{ latent with notBefore := some 0 }] }) online),
     heard 0xE (oam 0xE []) noTest online,
     passes 0x0140 runaheadSetChecks ([0,0,0,0, 0,125,0,0, 64,6,0,0, 128,12,0,0, 64,31,0,0, 4,8,4,0] ++ zeros 8) dev,
     passes 0x0141 accountStopChecks [0,3,1,0] dev].all id = true := by decide +kernel

set_option maxRecDepth 100000 in
theorem witness_DefectAndProtectionCommandsComplete :
    [losDeclareGuard 0 (inLane (fun x => { x with losCond := some 0 }) online),
     losClearGuard 0 (inLane (fun x => { x with los := true, losClearCond := some 0 }) online),
     lofDeclareGuard 0 (inLane (fun x => { x with align := .oof }) online),
     lofClearGuard 0 (inLane (fun x => { x with lof := true, syncSince := some 0 }) online),
     windowEvaluateGuard 0 (inLane (fun x => { x with winPend := some (0, true) }) online),
     heard 0xB (oam 0xB []) noTest online, rdiTimeoutGuard 0 (inGroup (fun x => { x with rdi := true }) online),
     rdiPeriodicGuard 0 (inLane (fun x => { x with los := true }) online),
     heard 0xC (oam 0xC [0,0,0,0,0,0,0,1]) (serialTest (oam 0xC [0,0,0,0,0,0,0,1])) online,
     disableApplyGuard 0 (inGroup (fun x => { x with disableAt := some 0 }) online),
     heard 0xD (oam 0xD [0,0,0,0,0,0,0,1]) (serialTest (oam 0xD [0,0,0,0,0,0,0,1])) online, protectEvaluateGuard 0 paired,
     resteerCompleteGuard 0 (inGroup (fun x => { x with prot := { switchAt := some 0 } }) paired),
     heard 0xF (oam 0xF []) noTest online,
     remoteStaleGuard 0 (inGroup (fun x => { x with pair := some ⟨true, 1, 2, true, 5, 0⟩ }) online), pmSecondGuard 0 online,
     passes 0x0150 defectSetChecks [0,0,1,0, 44,1, 144,1, 40,0, 0,0, 0,0,0,0] dev,
     passes 0x0151 protectSetChecks [0,1,0,1, 0,0, 5,0, 0,0, 0,0] dev, passes 0x0152 protectRequestChecks [0,0,0,0] paired,
     passes 0x0153 pmReadChecks [0,0,0,0] dev].all id = true := by decide +kernel

theorem witness_HostPortCommandsComplete :
    [passes 0x0200 portModeSetChecks [1,0,0,0] dev 1, hostFrameRxGuard 0 portUp, pauseFrameRxGuard 0 portUp,
     pauseExpiryGuard 0 0 (modPort dev 0 fun x => { x with queues := x.queues.set 0 { x.queues[0] with pausedSince := some 0 } }),
     pauseStormGuard 0 (portsOn pausedPort), pauseStormEndGuard 0 (modPort dev 0 fun x => { x with storm := some 0 }),
     pauseSendGuard 0 portUp, pauseRefreshGuard 0 (modPort portUp 0 fun x => { x with xoffSent := pauseWanted x }),
     hostFrameTxGuard 0 quietPort, portLinkChangeGuard 0 portUp,
     lpiEnterGuard 0 (modPort portUp 0 fun x => { x with xoff := 0 }),
     lpiExitGuard 0 (modPort portUp 0 fun x => { x with lpiTx := some 0 }),
     linkFaultSignalChangeGuard 0 (modPort portUp 0 fun x => { x with lfTx := true }),
     passes 0x0201 portSetChecks [0,0,0,40, 0,0,0,0] portUp,
     passes 0x0202 flowControlSetChecks ([0,0,0,0, 1,0,0,0, 0,0,0,0] ++ zeros 16) portUp,
     passes 0x0203 eeeSetChecks [0,0,5,0, 1,0,0,0] portUp,
     passes 0x0204 macFilterWriteChecks ([0,0,0,0,1,0,0,0] ++ zeros 4) portUp,
     passes 0x0205 macFilterReadChecks [0,0,0,0,1,0,0,0] portUp, remoteFaultReceivedGuard 0 portUp,
     receiveLpiGuard (.host 0) portUp].all id = true := by decide +kernel

theorem witness_ClassifierCommandsComplete :
    [parseAndClassifyGuard 0 { dev with path := { dev.path with ingress := dev.path.ingress.set 0 [someFrame] } },
     recircPassGuard 0 (cls1 fun c => { c with recirc := [⟨someFrame, false, 0, [], {}⟩] }),
     retirementGuard 0 (cls1 fun c => { c with retirePending := true }),
     retireForcedGuard 0 (cls1 fun c => { c with retirePending := true, recirc := [⟨someFrame, true, 0, [], {}⟩] }),
     passes 0x0300 clsSourceSetChecks ([0,0,0,0] ++ zeros 8 ++ [181,18,0,0]) dev,
     passes 0x0301 profileSetChecks ([0,1,0,0] ++ [1] ++ zeros 7) dev 1,
     passes 0x0302 ruleWriteChecks ([2,0,1,0,0,0,0,0] ++ zeros 8) dev 1, passes 0x0303 ruleReadChecks [0,0,0,0,1,0,0,0] dev 1,
     passes 0x0304 ruleCommitChecks [] dev 1, passes 0x0305 tableModeSetChecks [0,1,0,0] dev 1,
     shadowLoadCompleteGuard 0 (cls1 fun c => { c with loading := some 0 }), passes 0x0306 spreadSetChecks (zeros 44) dev 1,
     passes 0x0307 mirrorSetChecks [1,0,0,0,0,0,0,0] dev].all id = true := by decide +kernel

theorem witness_BufferCommandsComplete :
    [bufferAllocGuard 0 ⟨0, 0, 100, 1⟩ dev, freeGuard 0 dev, handOffGuard 0 0 1 dev, refAddGuard 0 dev, refDropGuard 0 dev,
     xrefReclaimGuard 0 State.reset, spillWriteCompleteGuard 0 (acct0 (fun x => { x with tail := [someFrame] }) dev),
     spillReadbackGuard 0 (acct0 (fun x => { x with pages := [{ chan := 0, page := 0, closed := true }] }) hot),
     readbackRetryGuard 0 (acct0 (fun x => { x with retryAt := some 0 }) dev),
     pageReadCompleteGuard 0 (acct0 (fun x => { x with pages := [{ chan := 0, page := 0, closed := true, reading := true }] }) hot),
     spillRemapGuard 0 (acct0 (fun x => { x with pages := [{ chan := 0, page := 0, closed := true, lost := true }] }) dev),
     passes 0x0400 poolCarveChecks [16,0,0,0,16,0,0,0,16,0,0,0,16,0,0,0,16,0,0,0] stopBuf 1,
     passes 0x0401 bufOwnerSetChecks (zeros 32) dev 1, passes 0x0402 bufPrioSetChecks (zeros 68) portUp,
     passes 0x0403 bufPoolSetChecks (zeros 16) dev 1,
     passes 0x0404 spillSetChecks [0,0,1,0, 64,0,0,0, 64,0,0,0, 0,0,0,0, 1,0,0,0, 0,0,0,0] dev].all id = true := by decide +kernel

theorem witness_SchedulingCommandsComplete :
    [shaperEligibleGuard (.port 0) (modPort dev 0 fun x => { x with shaper := { x.shaper with wheel := some (0, false) } }),
     overflowWheelMoveGuard 0 dev,
     timedLaunchDueGuard 0 0 (modPort portUp 0 fun x => { x with queues := x.queues.set 0 { x.queues[0] with timed := true, frames := [{ someFrame with launch := some (0, 0) }] } }),
     passes 0x0501 schedSetChecks ([4,8] ++ zeros 18) dev,
     passes 0x0500 schedTreeSetChecks (zeros 32) { portUp with path := { portUp.path with schedStopped := Vector.replicate 8 true } },
     passes 0x0506 policerSetChecks (zeros 8 ++ [64,0,0,0,0,0,0,0]) dev,
     passes 0x0507 policerReadChecks [0,0,1,0,0,0,0,0] dev].all id = true := by decide +kernel

set_option maxRecDepth 100000 in
theorem witness_CipherCommandsComplete :
    [invocationDrawResumeGuard 5 (slotted (fun k => { k with waiting := some 0, halves := Vector.replicate 2 { state := .loaded } }) dev),
     heard 8 (oam 8 []) noTest online,
     keyWriteCompleteGuard 5 (slotted (fun k => { k with write := some ⟨0, false, some 0, 0, 0, none⟩ }) dev),
     heard 9 (oam 9 []) noTest online,
     switchBoundaryGuard 5 0 (slotted (fun k => { k with down := true, switch := some { half := 0, fn := 0, group := 0 } }) online),
     decryptCompleteGuard 0 0 { dev with crypto := { dev.crypto with pipes := Vector.replicate 16 [someDecrypt] } },
     downHalfLifetimeEndGuard 5 0 (slotted (fun k => { k with down := true, halves := Vector.replicate 2 { state := .loaded, firstFn := some (1, 0) } }) dev),
     keyEraseCompleteGuard 5 (slotted (fun k => { k with erasing := true }) dev), utilityJobArriveGuard dev,
     utilityJobCompleteGuard { dev with crypto := { dev.crypto with util := { running := some (.job someJob) } } },
     passes 0x0600 keySlotSetChecks ([5,0,0,0,0,0,0,0, 1,0,0,0,0,0,0,0, 1,0,0,0,0,0,0,0]) dev,
     passes 0x0601 keyLoadChecks (zeros 48) { dev with crypto := { dev.crypto with keks := Vector.replicate 8 (some (true, rfcKek)) } },
     passes 0x0602 keyCommitChecks ([5,0,1,0,255,255,255,255]) (slotted (fun k => { k with halves := Vector.replicate 2 { state := .loaded } }) dev),
     passes 0x0603 keyEraseChecks (zeros 4) dev, passes 0x0604 keyBindChecks (zeros 4) dev,
     passes 0x0605 keyStatusReadChecks [0,0,1,0] dev, passes 0x0606 cipPortFailReadChecks [0,0,0,0,1,0,0,0] dev,
     passes 0x0607 kekSetChecks (zeros 44) dev].all id = true := by decide +kernel

theorem witness_TimeCommandsComplete :
    [timeNsReadGuard dev, timeSteerGuard (inGroup (fun x => { x with timeSource := true }) online),
     slewEndGuard { dev with time := { dev.time with slewEnd := some 0 } },
     timeCounterRestartGuard { dev with time := { dev.time with stopped := true } },
     gapEstimateGuard { dev with time := { dev.time with estimateFrom := some 0 } }, ringMeasureGuard dev,
     passes 0x0700 timeSetChecks (zeros 16) dev,
     passes 0x0701 timeJumpAcceptChecks (zeros 4) { dev with time := { dev.time with latches := Vector.replicate 4 (some ⟨0, 0, 0, 0, false, 0, 0, 0, 0⟩) } },
     passes 0x0702 timeOutputSetChecks ([0,0,0,0,1,0,0,0,0,0,0,0]) dev, passes 0x0703 ptpSetChecks (zeros 12) dev,
     gapSatGuard { dev with time := { dev.time with stopped := true, gap := 2 ^ 48 } }].all id = true := by decide +kernel

theorem witness_HbmCommandsComplete :
    [hbmRequestGuard 0 someReq serving, hbmReadCompleteGuard 0 (inChan (fun x => { x with reads := [someReq] }) serving),
     hbmCaParityGuard 0 serving, hbmServiceEntryGuard 0 dev, hbmTempReadGuard dev, hbmTempStaleGuard 0 dev,
     hbmRefreshGuard 0 0 serving, hbmRetrainGuard 0 serving,
     hbmRetrainEndGuard 0 (inChan (fun x => { x with st := .retrain }) dev),
     hbmRetrainRetryGuard 0 (inChan (fun x => { x with retryAt := some 0 }) serving), hbmSrEntryGuard 0 serving,
     hbmSrEntryCompleteGuard 0 (inChan (fun x => { x with sreAt := some 0 }) serving),
     hbmSrExitCompleteGuard 0 (inChan (fun x => { x with st := .selfRefresh, exitAt := some 0 }) dev),
     passes 0x0800 hbmChannelReleaseChecks (zeros 4) (inChan (fun x => { x with st := .frozen }) dev),
     hbmReleaseCompleteGuard 0 (running (.hbmRelease 0) dev),
     passes 0x0801 hbmHistoryReadChecks [0,0,1,0] (inChan (fun x => { x with histValid := true }) dev),
     passes 0x0802 hbmSetChecks [0,0,100,0] dev].all id = true := by decide +kernel

theorem witness_SerialLaneCommandsComplete :
    [cdrLockGainedGuard ⟨0, 4⟩ (inSerial 4 (fun x => { x with rx := .run }) dev), cdrLostGuard ⟨0, 4⟩ online,
     deepEntryGuard ⟨0, 0⟩ (inSerial 0 (fun x => { x with tx := .run, rx := .run }) dev),
     deepEntryCompleteGuard ⟨0, 0⟩ (inSerial 0 (fun x => { x with deepAt := some 0 }) dev), deepExitGuard ⟨0, 4⟩ online,
     passes 0x0900 laneEqSetChecks [0,0,0,0,0,0,64,0,0,0,0,0] dev, passes 0x0901 laneEqReadChecks (zeros 4) dev,
     passes 0x0902 loopSetChecks (zeros 12) portUp,
     loopExpiredGuard ⟨0, 0⟩ (inSerial 0 (fun x => { x with loopEnd := some 0 }) dev),
     loopBurstGuard 0 (inSerial 4 (fun x => { x with loop := .trunkFrame, loopDue := [{ at_ := 0, fn := 0, len := 34, words := [] }] }) dev),
     passes 0x0903 patternSetChecks (zeros 8) dev,
     chkLockGuard ⟨0, 4⟩ (inSerial 4 (fun x => { x with rx := .run, chk := 1 }) online),
     chkLockLostGuard ⟨0, 0⟩ (inSerial 0 (fun x => { x with chkLock := true }) dev),
     deepExitCompleteGuard ⟨0, 0⟩ (inSerial 0 (fun x => { x with exitAt := some 0 }) dev)].all id = true := by decide +kernel

theorem witness_FabricCommandsComplete :
    [protectStatusSendGuard 0 (inGroup (fun x => { x with pair := some ⟨true, 1, 2, true, 5, 0⟩ }) fabUp),
     notifyResendGuard 0 (inGroup (fun x => { x with prot := { x.prot with notify := some (0, 1, 0) } }) dev),
     notifyFailGuard 0 (inGroup (fun x => { x with prot := { x.prot with notify := some (0, 1, 0) } }) dev),
     helloSendGuard 0 fabUp, helloGuard 0 fabUp,
     fabricLinkDownGuard 0 .alignLost fabUp && fabricLinkDownGuard 0 .silence fabUp && fabricLinkDownGuard 0 .helloTimeout fabUp && fabricLinkDownGuard 0 .xoffWatchdog (inFab (fun y => { y with heldHigh := true }) fabUp),
     idleCellSendGuard 0 fabUp, fabricCellRxGuard 0 fabUp,
     fabSeqHoldExpiryGuard 7 1 { fabUp with fabric := { fabUp.fabric with rx := [(rxKey 7 1, { expected := some 0, held := [⟨0, 0, 0, []⟩] })] } },
     addrFloodGuard { fabUp with fabric := { fabUp.fabric with root := 1 } }, addrGuard 0 fabUp,
     addrHoldExpiryGuard 3 { fabUp with fabric := { fabUp.fabric with leftAt := [(3, 0)] } }, lsaSendGuard fabUp,
     lsaGuard 0 fabUp,
     lsaExpiryGuard 9 { fabUp with fabric := { fabUp.fabric with lsas := [⟨9, 0, 0, false, false, [], 0⟩] } },
     routeRecomputeGuard { fabUp with fabric := { fabUp.fabric with dbChanged := true } }, fabLpiEnterGuard 0 fabUp,
     passes 0x0A00 fabricSetChecks ([0,0,1,0, 0,0, 0x55,0x55] ++ (List.range 32).map fun i => if i % 2 = 0 then 1 else 0) dev,
     passes 0x0A01 fabricRouteReadChecks [0,1,0,0] dev].all id = true := by decide +kernel

theorem witness_MailboxAndEventCommandsComplete :
    [unalignedAccessGuard 1 2 false dev, w1cClearGuard 0x30004 1 0 dev, collisionCounterReadGuard 0x1C00000 0 dev,
     smbusDevIdReadGuard dev, smbusAnchorReadGuard dev, smbusLogStatusReadGuard dev, smbusSensorReadGuard 0 dev,
     smbusBadCodeGuard 0 dev, ringGuard 0 dev, abortGuard 0 dev, requestAreaWriteGuard 0 dev,
     commandTakeGuard (ready { dev with mail := { dev.mail with ringQ := [0] } }), serviceRequestRxGuard svc (ready dev),
     passes 0x0010 fenceChecks [] dev, fenceCompleteGuard 0 (running (.fence []) dev),
     passes 0x0011 drainFenceChecks [1,0,0,0] dev, drainFenceCompleteGuard 0 (running (.drain 0 none) dev),
     passes 0x0012 funcStopChecks [0,1,0,0] dev, passes 0x0013 funcStartChecks [0,1,0,0] dev,
     passes 0x0017 eventQueueSetChecks (zeros 8 ++ [0,1,0,0,0,0,0,0]) dev,
     passes 0x0018 eventRouteSetChecks [0,0,16,0,0,0,0,0] dev,
     passes 0x0019 mgtQueueSetChecks ([0,0,0,0,64,0,0,0] ++ zeros 8) dev, evqConsWriteGuard 0 dev,
     vectorDelayExpiryGuard 0 { dev with ev := { dev.ev with vecs := Vector.replicate 64 { causes := 1 } } },
     msixUnmaskGuard 0 dev, txqTailWriteGuard 0 dev,
     txDescriptorReadGuard 0 (inRing (fun x => { x with txEnabled := true, txEntries := 64, txTail := 1 }) (ready dev)),
     txDescriptorWritebackGuard 0 (inRing (fun x => { x with txOwed := [⟨0, 0, false, 0, some ⟨none, false, false, false, false, 0, 0, 0⟩⟩] }) (ready dev)),
     rxqTailWriteGuard 0 dev,
     mgtRxDeliverGuard 0 (inRing (fun x => { x with rxEnabled := true, rxEntries := 64, rxTail := 1 }) { ready dev with ev := { dev.ev with mgtWait := Vector.replicate 8 [someFrame] } })].all id = true := by decide +kernel

theorem witness_FirmwareCommandsComplete :
    [sensorSampleGuard 0 (ready dev), passes 0x0B11 sensorGetChecks [0,1,0,0] dev,
     passes 0x0B12 sensorSetChecks (zeros 12) dev, checkpointGuard (ready dev),
     passes 0x0B10 logReadChecks ([0,0,1,0] ++ zeros 12) dev, passes 0x0B00 fwStageChecks ([0,0,0,0, 1,0,0,0, 3,0,0,0, 7]) dev,
     passes 0x0B01 fwActivateChecks [2,0,0,0] { dev with fw := { dev.fw with dirs := Vector.replicate 2 { ok := true, gen := 1, active := 0, valid := 3 } } },
     activationStepGuard true (act 1 []), sliceControllerSwitchGuard 0 (act 1 [0]), passes 0x0B02 fwStatusReadChecks [] dev,
     passes 0x0B03 fuseReadChecks [] dev, fwStartTimeoutGuard dev, fwStageCompleteGuard 0 (running .fwStage dev),
     logReadCompleteGuard 0 (running .logRead dev), firmwareReadyGuard dev].all id = true := by decide +kernel

theorem witness_ClockPowerResetCommandsComplete :
    [clockStableGuard 0 .xtal dev, clockStopDetectGuard 0 .xtal (inMeter 0 { st := .good } dev),
     freqWindowGuard 0 .xtal (inMeter 3 { st := .good } (inMeter 1 { st := .good } (inMeter 0 { st := .good } dev))),
     clockRecoverGuard 0 .xtal (inMeter 0 { st := .failed } dev),
     domainRestartGuard 0 .core (inMeter 0 { st := .good } (inPw (fun p => { p with domains := vmod p.domains 0 fun d => { d with stopped := true } }) dev)),
     dvfsStepGuard 0 (inPw (fun p => { p with levelReq := 1 }) dev),
     avsAckGuard 0 (inPw (fun p => { p with avs := some ⟨1, true, 0, none⟩ }) dev),
     avsTimeoutGuard 0 (inPw (fun p => { p with avs := some ⟨1, true, 0, none⟩ }) dev),
     avsPollGuard 0 (inPw (fun p => { p with unconfirmed := true }) dev), thermalThrottleGuard 0 0 1600 dev,
     thermalCapReleaseGuard 0 (inPw (fun p => { p with capped := true }) dev), thermalShutdownGuard 0 0 1840 dev,
     idleEntryGuard 0 dev, idleExitGuard 0 (inPower .idle dev),
     drowseEntryGuard 0 (inPw (fun p => { p with target := .drowse }) (inPower .quiescing dev)),
     dormantEntryGuard 0 (inPw (fun p => { p with target := .dormant }) (inPower .quiescing dev)),
     wakeStepGuard 0 (inPower .waking dev),
     quiesceTimeoutGuard 0 (inPower .quiescing (inChan (fun x => { x with waiting := [someReq] }) dev)),
     passes 0x0C00 powerStateSetChecks (zeros 16) dev 1,
     powerStateReachedGuard 0 (running .power (withReq 0x0C00 (zeros 16) 1 dev)), passes 0x0C01 dvfsSetChecks (zeros 4) dev 1,
     passes 0x0C02 clockStatusReadChecks [] dev, passes 0x0C03 resetIssueChecks (zeros 4) dev,
     resetCompleteGuard 0 (running .reset (withReq 0x0C03 (zeros 4) 0 dev)), powerOnResetGuard dev, pinResetGuard dev,
     sliceResetGuard 0 (inPw (fun p => { p with shutdown := true }) dev),
     quarantineExitGuard 0 4 (inPw (fun p => { p with quarantine := [4] }) dev), removalGuard dev,
     presenceReturnGuard { dev with pins := { dev.pins with removed := true } },
     perstGuard dev].all id = true := by decide +kernel

/-- A device whose counters, flags and memories list nothing is canonical. -/
theorem canonical_of_clean (s : State) (hr : s.regs = {}) (hm : ∀ c : ChanId, s.hbm.chans[c].mem = []) (hl : s.ev.log = []) :
    Canonical s := by
  refine ⟨fun c => by rw [hm c]; rfl, ?_, by unfold EventAll.Bounded; rw [hl]; simp⟩
  rw [hr]
  exact ⟨rfl, rfl, rfl, fun a => by show sparseGet 0 [] a < _; simp [sparseGet], fun a => by show sparseGet 0 [] a ≤ _; simp [sparseGet], rfl⟩

theorem canonical_dev : Canonical dev := canonical_of_clean dev rfl (by decide +kernel) rfl
theorem canonical_online : Canonical online := canonical_of_clean online rfl (by decide +kernel) rfl
theorem canonical_serving : Canonical serving := canonical_of_clean serving rfl (by decide +kernel) rfl

/-! The hypotheses of the statements of Obligations.lean are met: one theorem for each statement. -/

theorem witness_EmptyQueueLetsATickPass : dev.pending = [] := rfl

theorem witness_StepKeepsCanonical :
    Canonical { dev with pending := [.timeNsRead] } ∧ ∃ t, step { dev with pending := [.timeNsRead] } = .next t :=
  ⟨canonical_of_clean _ rfl (by decide +kernel) rfl, _, rfl⟩

theorem witness_CommandsWriteOnlyTheirComponents : ∃ t, exec .timeNsRead dev = .next t := ⟨_, rfl⟩

theorem witness_SvnFloorNeverFalls : ∃ t, exec .timeNsRead dev = .next t := ⟨_, rfl⟩

theorem witness_CounterReadsAsAPair :
    isCounterLow 0x1000060 = true ∧ addrAbsent dev 0x1000060 = false ∧ addrCut dev 0x1000060 = false ∧ Canonical dev :=
  ⟨by decide +kernel, by decide +kernel, by decide +kernel, canonical_dev⟩

theorem witness_AccessesWithoutEffect :
    [addrAbsent { dev with part := .ct1602 } 0x4000060, isCounterLow 0x4000060, isCounterHigh 0x4000064,
     !addrAbsent State.reset 0x1000060, addrCut State.reset 0x1000060, isCounterLow 0x1000060, isCounterHigh 0x1000064,
     unreachableAccessGuard 3 false State.reset, !wellAligned 5 2, !anyWidth 0x20005,
     (readWord 0 0 0 dev).2 == dev].all id = true := by decide +kernel

theorem witness_StickyFlags :
    [w1cClearGuard 0x30004 1 0 dev, w1cClearGuard 0x30004 0 0 dev, (w1cMask 0x30004).getLsbD 0, !dev.ev.evq.enabled,
     !(flagWord dev 0x30004).getLsbD 0,
     (flagWord { dev with regs := { dev.regs with w1c := [(0x30004, 1)] } } (keyOf 0x30004)).getLsbD 0].all id = true ∧
    dev.ev.log.length < 16384 ∧ Canonical dev := ⟨by decide +kernel, by decide, canonical_dev⟩

set_option maxRecDepth 100000 in
theorem witness_BridgeFlits :
    [flitReceiveGuard 0 0 someFlit (flitDev someFlit), flitGood someFlit, !flitGood { someFlit with crc := 0 },
     flitReceiveGuard 0 0 { someFlit with crc := 0 } (flitDev someFlit), !flitGood { someFlit with bytes := zeros 63 },
     flitReceiveGuard 0 0 { someFlit with hops := 4 } (flitDev { someFlit with hops := 4 }), decide (flitLimit dev ≤ 4),
     decide (3 < flitLimit dev), flitReceiveGuard 0 0 { someFlit with dst := 2 } (flitDev { someFlit with dst := 2 }),
     flitReceiveGuard 0 0 { someFlit with seq := 32767 } (flitDev { someFlit with seq := 32767 }),
     (seqAt dev 0 1).expected == 0, (seqAt dev 0 1).held.isEmpty, (seqAt dev 0 1).dropPkt == none,
     decide (((32767 : BitVec 16) - (seqAt dev 0 1).expected).toNat < 32768)].all id = true := by decide +kernel

theorem witness_BridgePortsDownAndUp :
    ([BridgeDownCause.ackTimeout, .retriesFailed, .laneLockLost].all (fun c => bridgePortDownGuard 0 0 c (failedLink c)) &&
     bridgeRetrainGuard 0 0 State.reset && bridgePortUpGuard 0 0 trained && present dev 0) = true := by decide +kernel

theorem witness_ClaimingTheAnchor :
    [claimLineFreeGuard 0 true { State.reset with now := 2000 }, claimLineFreeGuard 0 false { State.reset with now := 2000 },
     claimProbeGuard 0 electing, (capAt electing 0).st == .elect, (capAt electing 0).drives,
     anchorOwnFaultGuard 0 dev].all id = true := by decide +kernel

theorem witness_HeaderErrorsCorrectedOrDetected :
    [0#64, 1#64 <<< 63, 1#64 <<< 63 ^^^ 1#64].all (fun e => hecOk goodHeader && trunkPacketHeaderRxGuard 0 0 (heading (goodHeader ^^^ e)) &&
      laneGroup (heading (goodHeader ^^^ e)) 0 == some 0 &&
      rxWords (laneAt (heading (goodHeader ^^^ e)) 0) 0 1 == [goodHeader ^^^ e]) = true := by decide +kernel

theorem witness_BlockLockAndReassembly :
    [blockLockWindowGuard 0 (List.replicate 256 81 ++ [80]) unlocked, !(laneAt unlocked 0).blockLock,
     blockLockWindowGuard 0 (List.replicate 257 81) unlocked, blockLockWindowGuard 0 (List.replicate 257 80) online,
     (laneAt online 0).blockLock, blockLockLostGuard 0 true online, blockLockLostGuard 0 false { online with serdes := dev.serdes },
     blockLockLostGuard 0 true unlocked, (openCtx (laneAt (contexts false) 0) 7).any fun c => !c.discard && decide (c.startAt + 50 * usTicks ≤ dev.now),
     (openCtx (laneAt (contexts true) 0) 7).any fun c => c.discard && decide (c.discardAt + msTicks ≤ dev.now)].all id = true := by
  decide +kernel

theorem witness_SettleWindow :
    (laneAt (inLane (fun x => { x with settleLane := some 0 }) online) 0).settleLane = some 0 ∧ 0 + 50 * usTicks ≤ dev.now := by
  decide +kernel

theorem witness_PortFilterWriteKeepsPortIdsDistinct :
    passes 0x0110 portFilterWriteChecks ([0, 1, 0, 0] ++ [0, 0, 1, 0, 5, 0, 0, 0, 0, 0, 0, 0]) dev = true := by decide +kernel

set_option maxRecDepth 100000 in
theorem witness_OamMessagesThatFailATest :
    [oamVerdict online 0 ⟨0, false, 0⟩ == .crcBad 0, oamVerdict dev 0 (oam 3 []) == .ignore,
     oamVerdict online 0 (oam 0x11 []) == .badType 0, oamVerdict (repeated 3) 0 (oam 3 []) == .pass 0,
     isDup (groupAt (repeated 3) 0) (oam 3 []) (carrierStamp (repeated 3) 0 (oam 3 [])), msgCrcOk (oam 3 []),
     msgType (oam 3 []) == 3].all id = true := by decide +kernel

theorem witness_RegistrationEvents :
    [rangeTimeoutGuard 0 (inGroup (fun x => { x with st := .range }) online),
     holdoverExpiryGuard 0 (inGroup (fun x => { x with st := .holdover }) online),
     responseWaitExpiryGuard 0 (inGroup (fun x => { x with st := .announce }) online), (groupAt online 0).disc.isSome,
     todStaleGuard 0 online, applicationInstantGuard 0 applying, (groupAt applying 0).st == .range,
     (groupAt applying 0).pendApply == [(0, .eqd [(0, 5)])], applyDue applying 0 0].all id = true := by decide +kernel

theorem witness_GroupSettings :
    [passes 0x0120 rangeProvisionChecks ([0, 3, 0xFF, 0] ++ zeros 14 ++ [60, 0]) dev,
     passes 0x0101 trunkGroupSetChecks ([0, 1, 0, 0, 3, 0, 0, 0, 5, 6] ++ zeros 30) dev].all id = true := by decide +kernel

theorem witness_GrantTablesKeepTheirGap :
    [grantTableCompleteGuard 0 mapped, laneGroup mapped 0 == some 0,
     (unionAt (laneAt mapped 0) (nextTable (laneAt mapped 0))).length == 4,
     (unionAt (laneAt mapped 0) (nextTable (laneAt mapped 0))).all fun r =>
       (slotEdge mapped 0 0 (nextTable (laneAt mapped 0)) (gStart r)).isSome].all id = true := by decide +kernel

set_option maxRecDepth 100000 in
theorem witness_GrantMapEntries :
    [grantMapRxGuard 0 online, laneGroup online 0 == some 0, !gCrcOk (1 : BitVec 64), gCrcOk goodGrant,
     grantOwn (groupAt online 0) goodGrant, gFieldsOk goodGrant, !grantStands goodGrant,
     !grantFull (laneAt online 0) (epochAdd (curEpoch online 0) 1) goodGrant, gCrcOk standingGrant,
     grantOwn (groupAt online 0) standingGrant, gFieldsOk standingGrant, grantStands standingGrant,
     !grantFull (laneAt online 0) (epochAdd (curEpoch online 0) 1) standingGrant,
     !grantOwn (groupAt (inGroup (fun x => { x with termId := 6 }) online) 0) goodGrant,
     grantMapRxGuard 0 (inGroup (fun x => { x with termId := 6 }) online)].all id = true ∧
    Canonical online ∧ Canonical (inGroup (fun x => { x with termId := 6 }) online) :=
  ⟨by decide +kernel, canonical_online, canonical_of_clean _ rfl (by decide +kernel) rfl⟩

theorem witness_BurstsAndFillEnd :
    [burstEndLeaveGuard 0 (inLane (fun x => { x with burst := some bursting }) online), laneGroup online 0 == some 0,
     fillEndGuard 0 (inLane (fun x => { x with out := .fill 9 }) online),
     jumpHoldClearGuard 0 (inLane (fun x => { x with jumpHold := some 0 }) online)].all id = true := by decide +kernel

theorem witness_ForecastCommands :
    [rateUpdateGuard 0 online, passes 0x0140 runaheadSetChecks
       ([0, 3, 63, 0, 128, 12, 0, 0, 96, 9, 0, 0, 128, 12, 0, 0, 64, 31, 0, 0, 0, 16, 0, 0] ++ zeros 8) dev,
     passes 0x0141 accountStopChecks [3, 63, 1, 0] dev].all id = true := by decide +kernel

set_option maxRecDepth 100000 in
theorem witness_DefectsAndDisable :
    [losDeclareGuard 0 (inLane (fun x => { x with losCond := some 0 }) online),
     losClearGuard 0 (inLane (fun x => { x with los := true, losClearCond := some 0 }) online),
     lofDeclareGuard 0 (inLane (fun x => { x with align := .oof }) online),
     lofClearGuard 0 (inLane (fun x => { x with lof := true, syncSince := some 0 }) online),
     (laneAt (inLane (fun x => { x with winPend := some (400, true) }) online) 0).winPend == some (400, true),
     (groupAt online 0).sfThresh == 400, heard 0xB (oam 0xB []) noTest online,
     rdiTimeoutGuard 0 (inGroup (fun x => { x with rdi := true }) online),
     disableApplyGuard 0 (inGroup (fun x => { x with disableAt := some 0 }) online),
     rangedState (groupAt (inGroup (fun x => { x with disableAt := some 0 }) online) 0)].all id = true := by decide +kernel

theorem witness_HostPortEventsAndCommands :
    [hostFrameRxGuard 0 portUp, rxStalled 0 portUp == false, rxStalled 0 (inPw (fun p => { p with quarantine := [16] }) portUp),
     hostFrameRxGuard 0 (inPw (fun p => { p with quarantine := [16] }) portUp), rxDiscard (portAt portUp 0) (hostFrame 59) == some (0x28, none),
     rxDiscard (portAt portUp 0) (hostFrame 10237) == some (0x30, some 3), pauseStormGuard 0 (portsOn pausedPort),
     pauseStormEndGuard 0 (modPort dev 0 fun x => { x with storm := some 0 }), portLinkChangeGuard 0 portUp,
     passes 0x0200 portModeSetChecks [4, 0, 0, 0] dev 1, passes 0x0201 portSetChecks [0, 0x7F, 0xEE, 5, 7, 0, 0, 0] portUp,
     passes 0x0202 flowControlSetChecks ([0, 2, 3, 0, 2, 0, 1, 0, 0, 0, 0, 0] ++ zeros 16) portUp,
     passes 0x0204 macFilterWriteChecks ([0, 0, 127, 0, 1, 0, 0, 0] ++ zeros 4) portUp,
     passes 0x0204 macFilterWriteChecks ([0, 1, 31, 0, 1, 0, 0, 0, 2, 0, 0, 0, 0, 1, 1, 0]) portUp].all id = true := by decide +kernel

theorem witness_VersionedTablesAndSessions :
    [retirementGuard 0 (modCls dev 0 fun c => { c with retirePending := true }),
     (clsAt (modCls dev 0 fun c => { c with loading := some 2 }) 0).loading == some 2,
     passes 0x0304 ruleCommitChecks [] dev 1, passes 0x0307 mirrorSetChecks [15, 0, 0, 0, 0, 0, 0, 0] dev].all id = true := by
  decide +kernel

theorem witness_BuffersBelongToTheirOwners :
    [present dev 0, (waitingRefAdds 0 (ptrKey 0) dev).isEmpty, bufCheck 0 (bufAt dev 0) .free 0 3 == some .double,
     bufCheck 0 (bufAt dev 0) .refAdd 0 3 == some .double, bufCheck 0 (bufAt dev 0) .refDrop 0 3 == some .double,
     bufCheck 0 (bufAt (holding 3 0) 0) .free 0 3 == none, bufCheck 0 (bufAt dev 0) (.handOff 5 9) 0 3 == some .double,
     bufCheck 0 (bufAt (holding 3 0) 0) (.handOff 5 9) 0 3 == none, handOffGuard 0 5 9 (holding 3 0), handOffGuard 0 5 9 dev,
     bufCheck 0 (bufAt (holding 14 1) 0) .refAdd 0 3 == none, bufCheck 0 (bufAt (holding 14 1) 0) .refDrop 0 3 == none,
     (waitingRefAdds 0 (ptrKey 0) (holding 14 1)).isEmpty, bufferAllocGuard 0 ⟨0, 0, 100, 1⟩ dev, (bufAt stoppedBufs 0).stopped,
     !(bufAt emptyPools 0).stopped, bufferAllocGuard 0 ⟨0, 0, 100, 0⟩ emptyPools,
     (arbitrate 0 (newCycle emptyPools.now (bufAt emptyPools 0)) (allocArgs ⟨0, 0, 100, 0⟩) (waitingAllocs 0 emptyPools)
       (List.range 5)).1 == none, bufferAllocGuard 0 ⟨14, 0, 100, 1⟩ dev, !(bufAt dev 0).stopped, !isHostRx 14,
     (arbitrate 0 (newCycle dev.now (bufAt dev 0)) (allocArgs ⟨14, 0, 100, 1⟩) (waitingAllocs 0 dev) (List.range 5)).1 == some 0,
     decide (heldBy (bufAt dev 0) 14 0 < quotaOf (bufAt dev 0) (14 % 32) 0),
     passes 0x0401 bufOwnerSetChecks ([3, 0, 0, 0, 5, 0] ++ zeros 26) dev 1].all id = true := by decide +kernel

theorem witness_ShapersAndPolicers :
    [(shaperAt (wheeled false 0) (.port 0)).wheel == some (0, false), present dev 0,
     (shaperAt (wheeled true (dev.now + 16384)) (.port 0)).wheel == some (dev.now + 16384, true),
     timedLaunchDueGuard 0 0 timedHead, !headLate timedHead (portAt timedHead 0).queues[(0 : Fin 32)],
     passes 0x0501 schedSetChecks ([4, 5, 3, 0, 0, 0, 0, 0, 0, 0x7C, 0, 0, 64, 0, 0, 0, 0, 0, 0, 0]) dev,
     passes 0x0501 schedSetChecks ([4, 8] ++ zeros 18) dev,
     passes 0x0500 schedTreeSetChecks ([0, 0, 0, 0] ++ List.replicate 28 7) schedsStopped,
     passes 0x0506 policerSetChecks ([255, 255, 3, 0, 0, 0x7C, 255, 0, 64, 0, 0, 0, 0, 0, 0, 0]) dev,
     passes 0x0507 policerReadChecks [255, 255, 1, 0, 1, 0, 0, 0] dev].all id = true := by decide +kernel

theorem witness_KeySlots :
    [keyEraseCompleteGuard 5 (slotted (fun k => { k with erasing := true }) dev), downHalfLifetimeEndGuard 5 0 aged,
     utilityJobArriveGuard busyUtility, busyUtility.crypto.util.running == some (.job someJob), !urgentTask (.job someJob),
     someDecrypt.need == 0, !someDecrypt.clear, (openJob someDecrypt).isNone,
     passes 0x0601 keyLoadChecks ([255, 3, 0, 7, 0, 0, 0, 0] ++ rfcWrapped) keyed, kekAt keyed 7 == (true, rfcKek),
     keyed.fw.fuses.rootKey == rfcKek, passes 0x0607 kekSetChecks ([7, 0, 0, 0] ++ rfcWrapped) keyed,
     passes 0x0607 kekSetChecks ([7, 0, 0, 0] ++ zeros 40) keyed, passes 0x0607 kekSetChecks ([7, 2, 0, 0] ++ zeros 40) keyed,
     passes 0x0602 keyCommitChecks [5, 0, 1, 0, 255, 255, 255, 255]
       (slotted (fun k => { k with halves := Vector.replicate 2 { state := .loaded } }) dev),
     passes 0x0603 keyEraseChecks [255, 3, 0, 0] dev,
     passes 0x0600 keySlotSetChecks [5, 0, 1, 4, 0, 0, 0, 0, 1, 0, 0, 0, 0, 0, 0, 0, 1, 0, 0, 0, 0, 0, 0, 0] dev,
     (slotAt dev 5).down != true, passes 0x0604 keyBindChecks [255, 0, 255, 3] dev, passes 0x0604 keyBindChecks [0, 0, 254, 255] dev,
     passes 0x0607 kekSetChecks ([7, 3, 0, 0] ++ zeros 40) dev].all id = true := by decide +kernel

/-- The key of RFC 3394, 4.3 unwraps, and zero bytes do not. -/
theorem witness_KeySlots_unwrap :
    unwrapKey true rfcKek false ((([255, 3, 0, 7, 0, 0, 0, 0] ++ rfcWrapped).drop 8).take 40) =
      some 0x00112233445566778899AABBCCDDEEFF := by decide +kernel
theorem witness_KeySlots_refuse :
    unwrapKey true rfcKek false ((([7, 0, 0, 0] ++ zeros 40).drop 4).take 40) = none := by decide +kernel

theorem witness_TimeCounterSteps :
    [timeCounterRestartGuard { dev with time := { dev.time with stopped := true } },
     gapEstimateGuard { dev with time := { dev.time with estimateFrom := some 0 } },
     slewEndGuard { dev with time := { dev.time with slewEnd := some dev.now } },
     gapSatGuard { dev with time := { dev.time with stopped := true, gap := 2 ^ 48 - 1 } }, ringMeasureGuard dev,
     passes 0x0700 timeSetChecks ([0, 1] ++ zeros 14) dev, passes 0x0700 timeSetChecks ([1] ++ zeros 15) hosted,
     passes 0x0700 timeSetChecks ([2] ++ zeros 15) hosted,
     passes 0x0700 timeSetChecks ([3, 0, 1, 0, 0, 0, 0, 0x40, 1] ++ zeros 7) hosted,
     passes 0x0701 timeJumpAcceptChecks [3, 1, 0, 0] latched, passes 0x0702 timeOutputSetChecks [7, 0, 0, 0, 1, 0, 0, 0, 0, 0, 0, 0] dev,
     passes 0x0703 ptpSetChecks [0, 202, 154, 59, 0, 0, 0, 0, 15, 1, 0, 0] dev].all id = true := by decide +kernel

theorem witness_HbmSingleBitErrorCorrected :
    (chanAt (inChan (fun x => { x with reads := [someReq] }) serving) 0).reads = someReq :: [] ∧
    (chanAt (inChan (fun x => { x with reads := [someReq] }) serving) 0).st = .service ∧
    path (inChan (fun x => { x with reads := [someReq] }) serving) (chanOwner 0).val someReq.requester.val = true ∧
    Canonical (inChan (fun x => { x with reads := [someReq] }) serving) :=
  ⟨by decide +kernel, by decide +kernel, by decide +kernel, canonical_of_clean _ rfl (by decide +kernel) rfl⟩

theorem witness_HbmRequestsAndFreezes :
    [reqLegal 0 { someReq with addr := 2 ^ 31 - 1 } serving, hbmRuns serving 0, (chanAt serving 0).st == .service,
     !(chanAt serving 0).srEntering, reqLegal 4 { someReq with write := true, unit := 2 } allServing, hbmRuns allServing 4,
     (chanAt allServing (tablePeer 0)).st == .service, reqLegal 0 someReq dev,
     (chanAt (inChan (fun x => { x with st := .training }) dev) 0).st == .training,
     (chanAt (inChan (fun x => { x with st := .frozen }) dev) 0).st == .frozen, !ownerAbstains dev 0,
     hbmReadCompleteGuard 0 (inChan (fun x => { x with reads := [someReq] }) serving), hbmCaParityGuard 0 serving,
     hbmRetrainEndGuard 0 (inChan (fun x => { x with st := .retrain, trainFails := 2 }) dev), hbmServiceEntryGuard 0 dev,
     hbmServiceEntryGuard 0 (inChan (fun x => { x with st := .directed }) dev),
     (chanAt dev 0).waiting.isEmpty, passes 0x0802 hbmSetChecks [255, 0, 0x50, 0xC3] dev].all id = true ∧ Canonical serving :=
  ⟨by decide +kernel, canonical_serving⟩

theorem witness_SerialLanes :
    [cdrLockGainedGuard ⟨0, 4⟩ (inSerial 4 (fun x => { x with rx := .run }) dev), cdrLostGuard ⟨0, 4⟩ online,
     deepEntryGuard ⟨0, 0⟩ (inSerial 0 (fun x => { x with tx := .run, rx := .run }) dev),
     deepEntryCompleteGuard ⟨0, 0⟩ (inSerial 0 (fun x => { x with deepAt := some 0 }) dev),
     deepExitGuard ⟨0, 4⟩ (inSerial 4 (fun x => { x with deepAt := some (dev.now - 9 * usTicks + 1) }) online),
     deepExitGuard ⟨0, 4⟩ (inSerial 4 (fun x => { x with deepAt := some (dev.now - 9 * usTicks) }) online),
     deepExitGuard ⟨0, 4⟩ online, (serialAt online 4).deepAt == none,
     deepExitCompleteGuard ⟨0, 0⟩ (inSerial 0 (fun x => { x with exitAt := some 0 }) dev),
     chkLockGuard ⟨0, 4⟩ (inSerial 4 (fun x => { x with rx := .run, chk := 1 }) online),
     chkLockLostGuard ⟨0, 0⟩ (inSerial 0 (fun x => { x with chkLock := true }) dev),
     loopExpiredGuard ⟨0, 0⟩ (inSerial 0 (fun x => { x with loopEnd := some 0 }) dev), loopBurstGuard 0 looping,
     (serialAt looping (lineSerial 0)).loopDue.length == 1,
     passes 0x0900 laneEqSetChecks [1, 31, 0, 19, 0, 0, 64, 64, 0, 0, 0, 0] dev,
     passes 0x0903 patternSetChecks [0, 0, 1, 2, 0, 0, 0, 0] dev].all id = true ∧ Canonical online :=
  ⟨by decide +kernel, canonical_online⟩

set_option maxRecDepth 100000 in
theorem witness_FabricLinksAndRoutes :
    [helloGuard 0 fabUp, (fabAt fabUp 0).adj == .full, (fabAt fabUp 0).neighId == 9, !fabUp.fabric.stopped,
     fabricLinkDownGuard 0 .silence fabUp, fabricCellRxGuard 0 fabUp, !cellOk ⟨0, zeros 64, 0⟩, fabLpiEnterGuard 0 fabUp,
     addrHoldExpiryGuard 63 { fabUp with fabric := { fabUp.fabric with leftAt := [(63, 0)] } },
     lsaExpiryGuard 9 { fabUp with fabric := { fabUp.fabric with lsas := [⟨9, 0, 0, false, false, [], 0⟩] } },
     routeRecomputeGuard { fabUp with fabric := { fabUp.fabric with dbChanged := true } }, notifyFailGuard 0 notifying,
     (groupAt notifying 0).pair.isSome, (protAt notifying 0).notify == some (4, 1, 0),
     passes 0x0A00 fabricSetChecks ([63, 1, 15, 0, 255, 255, 0x55, 0xAA] ++ List.replicate 32 255) dev,
     passes 0x0A01 fabricRouteReadChecks [63, 1, 0, 0] dev].all id = true := by decide +kernel

theorem witness_FabricHello :
    [(fabAt (adjacent .down) 0).adj == .down, (fabAt (adjacent .init) 0).adj == .init, (fabAt (adjacent .twoWay) 0).adj == .twoWay,
     (helloOf 9 1 0).bytes.length == 40, (vecOfBytes 64 ((helloOf 9 1 0).bytes.take 8) : Wide) == 9,
     (vecOfBytes 64 (((helloOf 9 1 0).bytes.drop 8).take 8) : Wide) == fabUp.serial, natBit (leAt (helloOf 9 1 4).bytes 26 1) 2,
     !natBit (leAt (helloOf 9 1 0).bytes 26 1) 2].all id = true := by decide +kernel

theorem witness_MailboxDoorbells :
    [boxFree (boxAt dev 7), (boxAt pendingBox 0).st == .pending, !boxFree (boxAt pendingBox 0), (boxAt dev 0).st != .pending,
     sparseWf 0 (boxAt dev 7).area].all id = true := by decide +kernel

theorem witness_RequestsTakenInOrder :
    [takesRequests (rung 0x0B02), (rung 0x0B02).mail.cur == none, !takingStopped (rung 0x0B02), (rung 0x0B02).mail.ringQ == [0],
     !((boxAt (rung 0x0B02) 0).req.order && anyTaken (rung 0x0B02)),
     firstFailing (commonChecks (rung 0x0B02) 0 (boxAt (rung 0x0B02) 0).req) == none, !takenLong (boxAt (rung 0x0B02) 0).req,
     firstFailing (commonChecks (rung 0x0010) 0 (boxAt (rung 0x0010) 0).req) == none, takenLong (boxAt (rung 0x0010) 0).req,
     firstFailing (commonChecks (rung 0x0999) 0 (boxAt (rung 0x0999) 0).req) == some .badOpcode].all id = true := by decide +kernel

theorem witness_FirstFailingCheckIsTheAnswer :
    Instr.command .fuseRead = some (0x0B03, fuseReadChecks) ∧
    current 0x0B03 (withReq 0x0B03 [0] 0 dev) = some (0, (boxAt (withReq 0x0B03 [0] 0 dev) 0).req) ∧
    firstFailing (fuseReadChecks (boxAt (withReq 0x0B03 [0] 0 dev) 0).req (withReq 0x0B03 [0] 0 dev)) = some .badLength := by
  refine ⟨rfl, ?_, ?_⟩ <;> decide +kernel

theorem witness_ShortCommandsAnswer :
    Instr.command .fuseRead = some (0x0B03, fuseReadChecks) ∧ (opInfo 0x0B03).any (fun i => i.long) = false ∧
    (boxAt (withReq 0x0B03 [] 0 dev) 0).req.fenceAfter = false := by
  refine ⟨rfl, ?_, ?_⟩ <;> decide +kernel

theorem witness_FirmwareCommands :
    [passes 0x0B12 sensorSetChecks [98, 1, 0, 0, 1, 0, 0, 0, 0, 0, 0, 0] dev,
     passes 0x0B00 fwStageChecks [0, 0, 0, 0, 0, 0, 128, 0, 1, 0, 0, 0, 7] dev, fsFirst (boxAt (staged 1) 0).req,
     passes 0x0B03 fuseReadChecks [] dev, sensorSampleGuard 98 (ready dev), checkpointGuard (ready dev),
     fwStageCompleteGuard 0 (staged 2), fsLast (boxAt (staged 2) 0).req,
     (stagedReason (storeChunk (boxAt (staged 2) 0).req (staged 2))).isSome,
     fwStageCompleteGuard 0 stagedSigned, fsLast (boxAt stagedSigned 0).req,
     (stagedReason (storeChunk (boxAt stagedSigned 0).req stagedSigned)).isNone,
     { dev with fw := { dev.fw with act := some ⟨0, false, 1, [], {}, 0, 0⟩ } }.fw.act.isSome, fwStartTimeoutGuard dev].all id = true := by
  decide +kernel

theorem witness_ClocksPowerAndResets :
    [clockStableGuard 0 .xtal dev, avsTimeoutGuard 0 (inPw (fun p => { p with avs := some ⟨1, true, 0, none⟩ }) dev),
     thermalThrottleGuard 0 3 1600 dev, thermalCapReleaseGuard 0 (inPw (fun p => { p with capped := true }) dev),
     thermalShutdownGuard 0 3 1840 dev, idleEntryGuard 0 dev, idleExitGuard 0 (inPower .idle dev),
     quarantineExitGuard 0 26 (inPw (fun p => { p with quarantine := [26] }) dev), passes 0x0C01 dvfsSetChecks [3, 0, 0, 0] dev 1,
     removalGuard dev, perstGuard dev].all id = true := by decide +kernel

/-! Single steps whose outcome the rules give. -/

/-- The state after a command, or before it where it stops. -/
def nextOf (o : Host.Outcome State Fault Refusal) (s : State) : State :=
  match o with
  | .next t => t
  | _ => s

/-- R10: a read of the low word returns 32 bits, captures 64 and clears; three events of the cycle count after it. -/
theorem test_counter_low_read :
    let s : State := { dev with regs := { dev.regs with ctr := [(0x1000060, 0x123456789)] } }
    let t := nextOf (execCounterLowRead 0x1000060 3 s) s
    t.env.readData = 0x23456789 ∧ counterAt t 0x1000060 = 3 ∧ sparseGet 0 t.regs.hold 0x1000060 = 0x123456789 := by decide +kernel

/-- R476: a host write of 1 clears the flag it names and no other. -/
theorem test_w1c_clears_what_it_names :
    let s : State := { dev with regs := { dev.regs with w1c := [(0x30004, 3)] } }
    (nextOf (execW1cClear 0x30004 1 0 s) s).regs.w1c = [(0x30004, 2)] := by decide +kernel

set_option maxRecDepth 100000 in
/-- R26: a flit that comes early is held; the next in order is delivered. -/
theorem test_flit_order :
    let f : Flit := { someFlit with seq := 3 }
    (seqAt (nextOf (execFlitReceive 0 0 f (flitDev f)) dev) 0 1).held.length = 1 ∧
      (seqAt (nextOf (execFlitReceive 0 0 someFlit (flitDev someFlit)) dev) 0 1).expected = 1 := by decide +kernel

/-- R64: one inverted bit of a header is put right. -/
theorem test_hec_corrects_one_bit : [0, 15, 16, 63].all (fun i => hecCorrect (goodHeader ^^^ (1#64 <<< i)) == some goodHeader) = true := by
  decide +kernel

/-- R56: the first position with at most 80 wrong header bits gives block lock. -/
theorem test_block_lock :
    let t := nextOf (execBlockLockWindow 0 ((List.range 257).map fun i => if i = 5 then 80 else 81) unlocked) unlocked
    (laneAt t 0).blockLock = true ∧ (laneAt t 0).lockPos = 5 := by decide +kernel

/-- R115: a grant that begins less than 8 ticks after the end of one kept is dropped. -/
theorem test_grant_gap :
    (tableAt (laneAt (nextOf (execGrantTableComplete 0 mapped) mapped) 0) 0).map (fun l => l.map fun u => gStart u.raw) =
      some [100, 500] := by decide +kernel

/-- R79: 100 ms in RANGE without an accepted message ends the registration. -/
theorem test_range_timeout :
    let s := inGroup (fun x => { x with st := .range, burstCtr := 4 }) online
    let t := nextOf (execRangeTimeout 0 s) s
    (groupAt t 0).termId = 0 ∧ (groupAt t 0).burstCtr = 0 ∧ (groupAt t 0).st = .listen := by decide +kernel

/-- R183: SF is declared at a count of the threshold. -/
theorem test_sf_threshold :
    let s := fun n => inLane (fun x => { x with winPend := some (n, true) }) online
    (laneAt (nextOf (execWindowEvaluate 0 (s 400)) (s 400)) 0).sf = true ∧
      (laneAt (nextOf (execWindowEvaluate 0 (s 399)) (s 399)) 0).sf = false := by decide +kernel

/-- R223: a frame of 63 bytes with its FCS is short, one of 10,241 too long. -/
theorem test_frame_lengths :
    rxDiscard (portAt portUp 0) (hostFrame 59) = some (0x28, none) ∧
      rxDiscard (portAt portUp 0) (hostFrame 10237) = some (0x30, some 3) := by decide +kernel

/-- R514: a frame that the crossing cannot take is counted in CLK_STALL_DROPS. -/
theorem test_stall_drop :
    let s := inPw (fun p => { p with quarantine := [16] }) portUp
    counterAt (nextOf (execHostFrameRx 0 (hostFrame 60) s) s) (sliceReg 0 0xA00438) = 1 := by decide +kernel

/-- R416, R417: the Gray map of the four pairs, the precoded symbols of 1, 2, 3, 0, and what the receiver makes of them. -/
theorem test_symbols :
    graySymbols [false, false, false, true, true, true, true, false] = [0, 1, 2, 3] ∧
      precode 0 [1, 2, 3, 0] = [1, 1, 2, 2] ∧ unprecode 0 [1, 1, 2, 2] = [1, 2, 3, 0] := by decide +kernel

/-- R426: a loop's end ends it on every lane of the port; in mode 1 the port has four. -/
theorem test_loop_expiry :
    let s := inSerial 3 (fun x => { x with loop := .fes }) (inSerial 0 (fun x => { x with loop := .fes, loopEnd := some 0 })
      { dev with path := { dev.path with mode := Vector.replicate 8 1 } })
    (serialAt (nextOf (execLoopExpired ⟨0, 0⟩ s) s) 0).loop = .none ∧
      (serialAt (nextOf (execLoopExpired ⟨0, 0⟩ s) s) 3).loop = .none := by decide +kernel

/-- R288: a REF_DROP lowers the count by 1 and releases the buffer at the last. -/
theorem test_ref_drop :
    (bufAt (nextOf (execRefDrop 0 0 0 (holding 14 2)) (holding 14 2)) 0).bitmap = [(0, some { owner := 14, count := 1 })] ∧
      (bufAt (nextOf (execRefDrop 0 0 0 (holding 14 1)) (holding 14 1)) 0).bitmap = [] := by decide +kernel

/-- R356: an erase leaves both halves EMPTY and the even half current. -/
theorem test_key_erase :
    let s := slotted (fun k => { k with erasing := true, current := 1, halves := Vector.replicate 2 { state := .loaded } }) dev
    (slotAt (nextOf (execKeyEraseComplete 5 s) s) 5).current = 0 ∧
      (slotAt (nextOf (execKeyEraseComplete 5 s) s) 5).halves[(1 : Fin 2)].state = .empty := by decide +kernel

/-- R372: TIME_NS returns NS and captures SEC, NS and FRAC. -/
theorem test_time_capture :
    let s : State := { dev with time := { dev.time with sec := 5, ns := 77, frac := 0xABCD1234 } }
    (nextOf (execTimeNsRead s) s).env.readData = 77 ∧ (nextOf (execTimeNsRead s) s).time.hold = 0x0000000000050000004DABCD := by
  decide +kernel

/-- R394, R396: a write changes its bytes, and a read fetches the bytes as they stand. -/
theorem test_hbm_write_and_read :
    (chanAt (nextOf (execHbmRequest 0 { someReq with write := true, addr := 100, data := [1, 0, 3] } serving) serving) 0).mem =
      [(100, 1), (102, 3)] ∧
    let s := inChan (fun x => { x with mem := [(100, 9)] }) serving
    (chanAt (nextOf (execHbmRequest 0 { someReq with addr := 99, data := [0, 0] } s) s) 0).reads.map (fun r => r.data) = [[0, 9]] := by
  decide +kernel

/-- R436: a HELLO that names this device raises INIT; one that no longer does takes a FULL lane DOWN as ONE_WAY. -/
theorem test_hello :
    (fabAt (nextOf (execHello 0 (helloOf 77 1 0) (adjacent .down)) (adjacent .down)) 0).adj = .init ∧
      (fabAt (nextOf (execHello 0 (helloOf 9 3 0) (adjacent .full)) (adjacent .full)) 0).cause = 4 := by decide +kernel

/-- R462: RING latches and waits; ABORT of a waiting request answers ABORTED. -/
theorem test_doorbells :
    (nextOf (execRing 0 dev) dev).mail.ringQ = [0] ∧ (boxAt (nextOf (execAbort 0 false pendingBox) pendingBox) 0).resp.status = .aborted ∧
      (nextOf (execAbort 0 false pendingBox) pendingBox).mail.ringQ = [1, 2] := by decide +kernel

/-- R465: an opcode that the index does not hold is answered BAD_OPCODE. -/
theorem test_bad_opcode : (boxAt (nextOf (execCommandTake (rung 0x0999)) (rung 0x0999)) 0).resp.status = .badOpcode := by decide +kernel

/-- R525: a sensor at 115 degrees brings its slice down. -/
theorem test_thermal_shutdown :
    (nextOf (execThermalShutdown 0 0 1840 dev) dev).power.st[(0 : Fin 8)] = .down ∧
      (nextOf (execThermalShutdown 0 0 1839 dev) dev).power.st[(0 : Fin 8)] = .run := by decide +kernel

/-- R335: FIPS 197, C.1. -/
theorem test_aes : aesEnc (roundKeys false 0x000102030405060708090A0B0C0D0E0F) (vecBytes 0x00112233445566778899AABBCCDDEEFF#128) =
    vecBytes 0x69C4E0D86A7B0430D8CDB78070B4C55A#128 := by decide +kernel

/-- R499: FIPS 180-4, the digest of "abc". -/
theorem test_sha384 : beNat (sha384 [0x61, 0x62, 0x63]) =
    0xCB00753F45A35E8BB5A03D699AC65007272C32AB0EDED1631A8B605A43FF5BED8086072BA1E7CC2358BAECA134C825A7 := by decide +kernel

/-- R501: a staged image whose signature verifies leaves its bank VALID. -/
theorem test_staged_image : bankValid (nextOf (execFwStageComplete 0 stagedSigned) stagedSigned) 1 = true := by decide +kernel

/-- R426: the example's burst number, epoch and seed. -/
theorem test_loop_burst_numbers :
    BitVec.ofNat 16 100000 = 0x86A0#16 ∧ epochOf 100000 = 0x3E8 ∧ burstSeed 0x03E8 0x86A0 = 0x29422C0A#31 := by decide +kernel

/-- R517: at the nominal ring a crystal 3 % fast fails alone, and with both within 2 % both are SUSPECT. -/
theorem test_ring_compare :
    let s := inMeter 0 { st := .good, bad := 1 } (inMeter 1 { st := .good } (inMeter 3 { st := .good } dev))
    (meterOf (tripPair 0 (some ⟨2160066, 6553600⟩) s) 0 0).st = .failed ∧
      (meterOf (tripPair 0 (some ⟨2097152, 6553600⟩) s) 0 0).st = .suspect := by decide +kernel

end Sys2Proof.Tests
end

section
/-!
PROOFS.  The statements about the whole device: what every command keeps (O3, O4, O5), the reads of the register window
(O7, O8) and the sticky flags (O9).
-/
namespace Sys2Proof.Machine

/-! ## Footprints given as lists of components -/

/-- The footprint that names the components of a list. -/
def within (l : List Comp) : Comp → Bool := fun c => l.contains c

theorem Keeps.onlyChanges {l : List Comp} {k : Prop} {s t : State} (h : Keeps (within l) k s t) : OnlyChanges l s t :=
  fun c hc => h.same c (by simpa [within] using hc)

theorem Keeps.canonical {w : Comp → Bool} {s t : State} (h : Keeps w True s t) : Canonical t :=
  ⟨h.hbm trivial, h.regs trivial, h.log trivial⟩

/-- A state is kept by itself, where nothing is asked of its canonical form. -/
theorem keeps_self (l : List Comp) (s : State) : Keeps (within l) False s s := Keeps.refl _ s False.elim

/-! ## What every command keeps -/

section
variable {k : Prop} {s : State}

/-- Every command answers a next state, which keeps the identity and every component that the command does not list, and is
canonical where the state before was.  Each case cites the lemma of the row's effect; its footprint conditions, that the
components it writes are listed, hold by evaluation of the list. -/
theorem exec_keeps (c : Instr) (hs : k → Canonical s) :
    ∃ t, exec c s = .next t ∧ Keeps (within (Instr.writes c)) k s t := by
  have h : Keeps (within (Instr.writes c)) k s s := Keeps.refl _ s hs
  cases c <;> refine ⟨_, rfl, ?_⟩
  -- An event row: its effect where its guard holds.
  case registerWrite => exact whenB_keeps (fun _ => by apply registerWriteEffect_keeps <;> rfl) h
  case unalignedAccess => exact whenB_keeps (fun _ => by apply unalignedAccessEffect_keeps <;> rfl) h
  case w1cClear => exact whenB_keeps (fun _ => by apply w1cClearEffect_keeps <;> rfl) h
  case rcRead => exact whenB_keeps (fun _ => by apply rcReadEffect_keeps <;> rfl) h
  case counterLowRead => exact whenB_keeps (fun _ => by apply counterLowReadEffect_keeps <;> rfl) h
  case counterHighRead => exact whenB_keeps (fun _ => by apply counterHighReadEffect_keeps <;> rfl) h
  case collisionCounterRead => exact whenB_keeps (fun _ => by apply collisionCounterReadEffect_keeps <;> rfl) h
  case timeNsRead => exact whenB_keeps (fun _ => by apply timeNsReadEffect_keeps <;> rfl) h
  case rngLaneTrxLoRead => exact whenB_keeps (fun _ => by apply rngLaneTrxLoReadEffect_keeps <;> rfl) h
  case unreachableAccess => exact whenB_keeps (fun _ => unreachableAccessEffect_keeps rfl rfl) h
  case flitReceive => exact whenB_keeps (fun _ => by apply flitReceiveEffect_keeps <;> rfl) h
  case bridgePortDown => exact whenB_keeps (fun _ => by apply bridgePortDownEffect_keeps <;> rfl) h
  case bridgeRetrain => exact whenB_keeps (fun _ => bridgeRetrainEffect_keeps rfl) h
  case bridgePortUp => exact whenB_keeps (fun _ => by apply bridgePortUpEffect_keeps <;> rfl) h
  case routeTableInstall => exact whenB_keeps (fun _ => routeTableInstallEffect_keeps rfl) h
  case bridgeSeqGapTimeout => exact whenB_keeps (fun _ => by apply bridgeSeqGapTimeoutEffect_keeps <;> rfl) h
  case leaseSend => exact whenB_keeps (fun _ => leaseSendEffect_keeps rfl) h
  case leaseExpiry => exact whenB_keeps (fun _ => leaseExpiryEffect_keeps rfl) h
  case mirrorResyncComplete => exact whenB_keeps (fun _ => mirrorResyncCompleteEffect_keeps rfl rfl rfl) h
  case claimLineFree => exact whenB_keeps (fun _ => claimLineFreeEffect_keeps rfl) h
  case claimProbe => exact whenB_keeps (fun _ => by apply claimProbeEffect_keeps <;> rfl) h
  case electionTimeout => exact whenB_keeps (fun _ => by apply electionTimeoutEffect_keeps <;> rfl) h
  case anchorFaultReport => exact whenB_keeps (fun _ => anchorFaultReportEffect_keeps rfl) h
  case anchorOwnFault => exact whenB_keeps (fun _ => anchorOwnFaultEffect_keeps rfl) h
  case handoverLineRelease => exact whenB_keeps (fun _ => handoverLineReleaseEffect_keeps rfl rfl) h
  case peerPathReturn => exact whenB_keeps (fun _ => by apply peerPathReturnEffect_keeps <;> rfl) h
  case pcieLinkTrained => exact whenB_keeps (fun _ => pcieLinkTrainedEffect_keeps rfl) h
  case takeCharge => exact whenB_keeps (fun _ => takeChargeEffect_keeps rfl) h
  case smbusDevIdRead => exact whenB_keeps (fun _ => smbusDevIdReadEffect_keeps rfl) h
  case smbusAnchorRead => exact whenB_keeps (fun _ => smbusAnchorReadEffect_keeps rfl) h
  case smbusLogStatusRead => exact whenB_keeps (fun _ => smbusLogStatusReadEffect_keeps rfl) h
  case smbusSensorRead => exact whenB_keeps (fun _ => smbusSensorReadEffect_keeps rfl) h
  case smbusBadCode => exact whenB_keeps (fun _ => smbusBadCodeEffect_keeps rfl) h
  case blockLockWindow => exact whenB_keeps (fun _ => by apply blockLockWindowEffect_keeps <;> rfl) h
  case blockLockLost => exact whenB_keeps (fun _ => by apply blockLockLostEffect_keeps <;> rfl) h
  case frameHeaderRx => exact whenB_keeps (fun _ => by apply frameHeaderRxEffect_keeps <;> rfl) h
  case trunkPacketHeaderRx => exact whenB_keeps (fun _ => by apply trunkPacketHeaderRxEffect_keeps <;> rfl) h
  case reasmTimeout => exact whenB_keeps (fun _ => by apply reasmTimeoutEffect_keeps <;> rfl) h
  case reasmDiscardExpiry => exact whenB_keeps (fun _ => by apply reasmDiscardExpiryEffect_keeps <;> rfl) h
  case settleWindowClose => exact whenB_keeps (fun _ => settleWindowCloseEffect_keeps rfl) h
  case announce => exact whenB_keeps (fun _ => by apply announceEffect_keeps <;> rfl) h
  case responseWaitExpiry => exact whenB_keeps (fun _ => responseWaitExpiryEffect_keeps rfl rfl) h
  case rangeReply => exact whenB_keeps (fun _ => by apply rangeReplyEffect_keeps <;> rfl) h
  case rangeTimeout => exact whenB_keeps (fun _ => by apply enterListen_keeps <;> rfl) h
  case applicationInstant => exact whenB_keeps (fun _ => by apply applicationInstantEffect_keeps <;> rfl) h
  case holdoverExpiry => exact whenB_keeps (fun _ => by apply holdoverExpiryEffect_keeps <;> rfl) h
  case todStale => exact whenB_keeps (fun _ => by apply todStaleEffect_keeps <;> rfl) h
  case grantMapRx => exact whenB_keeps (fun _ => by apply grantMapRxEffect_keeps <;> rfl) h
  case grantTableComplete => exact whenB_keeps (fun _ => by apply grantTableCompleteEffect_keeps <;> rfl) h
  case jumpHoldClear => exact whenB_keeps (fun _ => jumpHoldClearEffect_keeps rfl) h
  case amendApply => exact whenB_keeps (fun _ => by apply amendApplyEffect_keeps <;> rfl) h
  case burstLaunch => exact whenB_keeps (fun _ => by apply burstLaunchEffect_keeps <;> rfl) h
  case burstEndLeave => exact whenB_keeps (fun _ => by apply burstEndLeaveEffect_keeps <;> rfl) h
  case fillEnd => exact whenB_keeps (fun _ => fillEndEffect_keeps rfl) h
  case rateUpdate => exact whenB_keeps (fun _ => rateUpdateEffect_keeps rfl rfl) h
  case stagingBegin => exact whenB_keeps (fun _ => by apply stagingBeginEffect_keeps <;> rfl) h
  case packetPlace => exact whenB_keeps (fun _ => by apply packetPlaceEffect_keeps <;> rfl) h
  case invocationDrawResume => exact whenB_keeps (fun _ => invocationDrawResumeEffect_keeps rfl) h
  case develop => exact whenB_keeps (fun _ => by apply developEffect_keeps <;> rfl) h
  case rebuildStart => exact whenB_keeps (fun _ => rebuildStartEffect_keeps rfl) h
  case losDeclare => exact whenB_keeps (fun _ => by apply losDeclareEffect_keeps <;> rfl) h
  case losClear => exact whenB_keeps (fun _ => by apply losClearEffect_keeps <;> rfl) h
  case lofDeclare => exact whenB_keeps (fun _ => by apply lofDeclareEffect_keeps <;> rfl) h
  case lofClear => exact whenB_keeps (fun _ => by apply lofClearEffect_keeps <;> rfl) h
  case windowEvaluate => exact whenB_keeps (fun _ => by apply windowEvaluateEffect_keeps <;> rfl) h
  case rdiTimeout => exact whenB_keeps (fun _ => by apply rdiTimeoutEffect_keeps <;> rfl) h
  case rdiPeriodic => exact whenB_keeps (fun _ => queueRdi_keeps rfl rfl) h
  case disableApply => exact whenB_keeps (fun _ => by apply disableApplyEffect_keeps <;> rfl) h
  case protectEvaluate => exact whenB_keeps (fun _ => by apply protectEvaluateEffect_keeps <;> rfl) h
  case resteerComplete => exact whenB_keeps (fun _ => resteerCompleteEffect_keeps rfl) h
  case protectStatusSend => exact whenB_keeps (fun _ => by apply protectStatusSendEffect_keeps <;> rfl) h
  case remoteStale => exact whenB_keeps (fun _ => by apply remoteStaleEffect_keeps <;> rfl) h
  case notifyResend => exact whenB_keeps (fun _ => by apply notifyResendEffect_keeps <;> rfl) h
  case notifyFail => exact whenB_keeps (fun _ => by apply notifyFailEffect_keeps <;> rfl) h
  case pmSecond => exact whenB_keeps (fun _ => pmSecondEffect_keeps rfl rfl) h
  case hostFrameRx => exact whenB_keeps (fun _ => by apply hostFrameRxEffect_keeps <;> rfl) h
  case pauseFrameRx => exact whenB_keeps (fun _ => pauseFrameRxEffect_keeps rfl rfl) h
  case pauseExpiry => exact whenB_keeps (fun _ => pauseExpiryEffect_keeps rfl) h
  case pauseStorm => exact whenB_keeps (fun _ => by apply pauseStormEffect_keeps <;> rfl) h
  case pauseStormEnd => exact whenB_keeps (fun _ => pauseStormEndEffect_keeps rfl) h
  case pauseSend => exact whenB_keeps (fun _ => pauseSendEffect_keeps rfl rfl) h
  case pauseRefresh => exact whenB_keeps (fun _ => pauseRefreshEffect_keeps rfl rfl) h
  case hostFrameTx => exact whenB_keeps (fun _ => by apply hostFrameTxEffect_keeps <;> rfl) h
  case portLinkChange => exact whenB_keeps (fun _ => by apply portLinkChangeEffect_keeps <;> rfl) h
  case lpiEnter => exact whenB_keeps (fun _ => lpiEnterEffect_keeps rfl rfl) h
  case lpiExit => exact whenB_keeps (fun _ => lpiExitEffect_keeps rfl rfl) h
  case linkFaultSignalChange => exact whenB_keeps (fun _ => linkFaultSignalChangeEffect_keeps rfl) h
  case parseAndClassify => exact whenB_keeps (fun _ => by apply parseAndClassifyEffect_keeps <;> rfl) h
  case recircPass => exact whenB_keeps (fun _ => by apply recircPassEffect_keeps <;> rfl) h
  case retirement => exact whenB_keeps (fun _ => by apply retirementEffect_keeps <;> rfl) h
  case retireForced => exact whenB_keeps (fun _ => by apply retireForcedEffect_keeps <;> rfl) h
  case shadowLoadComplete => exact whenB_keeps (fun _ => shadowLoadCompleteEffect_keeps rfl) h
  case bufferAlloc => exact whenB_keeps (fun _ => by apply bufferAllocEffect_keeps <;> rfl) h
  case free => exact whenB_keeps (fun _ => by apply freeEffect_keeps <;> rfl) h
  case handOff => exact whenB_keeps (fun _ => by apply handOffEffect_keeps <;> rfl) h
  case refAdd => exact whenB_keeps (fun _ => by apply refAddEffect_keeps <;> rfl) h
  case refDrop => exact whenB_keeps (fun _ => by apply refDropEffect_keeps <;> rfl) h
  case xrefReclaim => exact whenB_keeps (fun _ => by apply xrefReclaimEffect_keeps <;> rfl) h
  case spillWriteComplete => exact whenB_keeps (fun _ => by apply spillWriteCompleteEffect_keeps <;> rfl) h
  case spillReadback => exact whenB_keeps (fun _ => by apply spillReadbackEffect_keeps <;> rfl) h
  case readbackRetry => exact whenB_keeps (fun _ => by apply readbackRetryEffect_keeps <;> rfl) h
  case pageReadComplete => exact whenB_keeps (fun _ => by apply pageReadCompleteEffect_keeps <;> rfl) h
  case spillRemap => exact whenB_keeps (fun _ => by apply spillRemapEffect_keeps <;> rfl) h
  case shaperEligible => exact whenB_keeps (fun _ => shaperEligibleEffect_keeps rfl rfl) h
  case overflowWheelMove => exact whenB_keeps (fun _ => overflowWheelMoveEffect_keeps rfl rfl) h
  case timedLaunchDue => exact whenB_keeps (fun _ => by apply timedLaunchDueEffect_keeps <;> rfl) h
  case keyWriteComplete => exact whenB_keeps (fun _ => keyWriteCompleteEffect_keeps rfl rfl rfl) h
  case switchBoundary => exact whenB_keeps (fun _ => by apply switchBoundaryEffect_keeps <;> rfl) h
  case decryptComplete => exact whenB_keeps (fun _ => by apply decryptCompleteEffect_keeps <;> rfl) h
  case downHalfLifetimeEnd => exact whenB_keeps (fun _ => by apply retireHalf_keeps <;> rfl) h
  case keyEraseComplete => exact whenB_keeps (fun _ => by apply keyEraseCompleteEffect_keeps <;> rfl) h
  case utilityJobArrive => exact whenB_keeps (fun _ => giveTask_keeps rfl rfl) h
  case utilityJobComplete => exact whenB_keeps (fun _ => by apply utilityJobCompleteEffect_keeps <;> rfl) h
  case timeSteer => exact whenB_keeps (fun _ => by apply timeSteerEffect_keeps <;> rfl) h
  case slewEnd => exact whenB_keeps (fun _ => slewEndEffect_keeps rfl) h
  case timeCounterRestart => exact whenB_keeps (fun _ => by apply timeCounterRestartEffect_keeps <;> rfl) h
  case gapEstimate => exact whenB_keeps (fun _ => by apply gapEstimateEffect_keeps <;> rfl) h
  case ringMeasure => exact whenB_keeps (fun _ => ringMeasureEffect_keeps rfl) h
  case hbmRequest => exact whenB_keeps (fun _ => by apply hbmRequestEffect_keeps <;> rfl) h
  case hbmReadComplete => exact whenB_keeps (fun _ => by apply hbmReadCompleteEffect_keeps <;> rfl) h
  case hbmCaParity => exact whenB_keeps (fun _ => by apply hbmCaParityEffect_keeps <;> rfl) h
  case hbmServiceEntry => exact whenB_keeps (fun _ => hbmServiceEntryEffect_keeps rfl rfl) h
  case hbmTempRead => exact whenB_keeps (fun _ => by apply hbmTempReadEffect_keeps <;> rfl) h
  case hbmTempStale => exact whenB_keeps (fun _ => by apply hbmTempStaleEffect_keeps <;> rfl) h
  case hbmRefresh => exact whenB_keeps (fun _ => hbmRefreshEffect_keeps rfl) h
  case hbmRetrain => exact whenB_keeps (fun _ => hbmRetrainEffect_keeps rfl) h
  case hbmRetrainEnd => exact whenB_keeps (fun _ => by apply hbmRetrainEndEffect_keeps <;> rfl) h
  case hbmRetrainRetry => exact whenB_keeps (fun _ => hbmRetrainRetryEffect_keeps rfl) h
  case hbmSrEntry => exact whenB_keeps (fun _ => hbmSrEntryEffect_keeps rfl) h
  case hbmSrEntryComplete => exact whenB_keeps (fun _ => hbmSrEntryCompleteEffect_keeps rfl rfl) h
  case hbmSrExitComplete => exact whenB_keeps (fun _ => hbmSrExitCompleteEffect_keeps rfl rfl) h
  case hbmReleaseComplete => exact whenB_keeps (fun _ => by apply hbmReleaseCompleteEffect_keeps <;> rfl) h
  case cdrLockGained => exact whenB_keeps (fun _ => by apply cdrLockGainedEffect_keeps <;> rfl) h
  case cdrLost => exact whenB_keeps (fun _ => by apply cdrLostEffect_keeps <;> rfl) h
  case deepEntry => exact whenB_keeps (fun _ => deepEntryEffect_keeps rfl) h
  case deepEntryComplete => exact whenB_keeps (fun _ => by apply deepEntryCompleteEffect_keeps <;> rfl) h
  case deepExit => exact whenB_keeps (fun _ => by apply deepExitEffect_keeps <;> rfl) h
  case loopExpired => exact whenB_keeps (fun _ => by apply loopExpiredEffect_keeps <;> rfl) h
  case loopBurst => exact whenB_keeps (fun _ => loopBurstEffect_keeps rfl) h
  case chkLock => exact whenB_keeps (fun _ => chkLockEffect_keeps rfl) h
  case chkLockLost => exact whenB_keeps (fun _ => by apply chkLockLostEffect_keeps <;> rfl) h
  case helloSend => exact whenB_keeps (fun _ => by apply helloSendEffect_keeps <;> rfl) h
  case hello => exact whenB_keeps (fun _ => by apply helloEffect_keeps <;> rfl) h
  case fabricLinkDown => exact whenB_keeps (fun _ => by apply fabricLinkDownEffect_keeps <;> rfl) h
  case idleCellSend => exact whenB_keeps (fun _ => by apply idleCellSendEffect_keeps <;> rfl) h
  case fabricCellRx => exact whenB_keeps (fun _ => by apply fabricCellRxEffect_keeps <;> rfl) h
  case fabSeqHoldExpiry => exact whenB_keeps (fun _ => by apply fabSeqHoldExpiryEffect_keeps <;> rfl) h
  case addrFlood => exact whenB_keeps (fun _ => by apply addrFloodEffect_keeps <;> rfl) h
  case addr => exact whenB_keeps (fun _ => by apply addrEffect_keeps <;> rfl) h
  case addrHoldExpiry => exact whenB_keeps (fun _ => addrHoldExpiryEffect_keeps rfl) h
  case lsaSend => exact whenB_keeps (fun _ => by apply lsaSendEffect_keeps <;> rfl) h
  case lsa => exact whenB_keeps (fun _ => by apply lsaEffect_keeps <;> rfl) h
  case lsaExpiry => exact whenB_keeps (fun _ => by apply lsaExpiryEffect_keeps <;> rfl) h
  case routeRecompute => exact whenB_keeps (fun _ => by apply routeRecomputeEffect_keeps <;> rfl) h
  case fabLpiEnter => exact whenB_keeps (fun _ => fabLpiEnterEffect_keeps rfl) h
  case ring => exact whenB_keeps (fun _ => by apply ringEffect_keeps <;> rfl) h
  case abort => exact whenB_keeps (fun _ => by apply abortEffect_keeps <;> rfl) h
  case requestAreaWrite => exact whenB_keeps (fun _ => by apply requestAreaWriteEffect_keeps <;> rfl) h
  case commandTake => exact whenB_keeps (fun _ => by apply commandTakeEffect_keeps <;> rfl) h
  case serviceRequestRx => exact whenB_keeps (fun _ => serviceRequestRxEffect_keeps rfl rfl) h
  case fenceComplete => exact whenB_keeps (fun _ => by apply fenceCompleteEffect_keeps <;> rfl) h
  case drainFenceComplete => exact whenB_keeps (fun _ => by apply drainFenceCompleteEffect_keeps <;> rfl) h
  case evqConsWrite => exact whenB_keeps (fun _ => evqConsWriteEffect_keeps rfl rfl) h
  case vectorDelayExpiry => exact whenB_keeps (fun _ => fireVec_keeps rfl) h
  case msixUnmask => exact whenB_keeps (fun _ => msixUnmaskEffect_keeps rfl) h
  case txqTailWrite => exact whenB_keeps (fun _ => txqTailWriteEffect_keeps rfl) h
  case txDescriptorRead => exact whenB_keeps (fun _ => by apply txDescriptorReadEffect_keeps <;> rfl) h
  case txDescriptorWriteback => exact whenB_keeps (fun _ => txDescriptorWritebackEffect_keeps rfl rfl rfl) h
  case rxqTailWrite => exact whenB_keeps (fun _ => rxqTailWriteEffect_keeps rfl) h
  case mgtRxDeliver => exact whenB_keeps (fun _ => by apply mgtRxDeliverEffect_keeps <;> rfl) h
  case sensorSample => exact whenB_keeps (fun _ => by apply sensorSampleEffect_keeps <;> rfl) h
  case checkpoint => exact whenB_keeps (fun _ => by apply checkpointEffect_keeps <;> rfl) h
  case activationStep => exact whenB_keeps (fun _ => by apply activationStepEffect_keeps <;> rfl) h
  case sliceControllerSwitch => exact whenB_keeps (fun _ => sliceControllerSwitchEffect_keeps rfl) h
  case fwStartTimeout => exact whenB_keeps (fun _ => fwStartTimeoutEffect_keeps rfl rfl rfl) h
  case clockStable => exact whenB_keeps (fun _ => clockStableEffect_keeps rfl) h
  case clockStopDetect => exact whenB_keeps (fun _ => by apply clockStopDetectEffect_keeps <;> rfl) h
  case freqWindow => exact whenB_keeps (fun _ => by apply freqWindowEffect_keeps <;> rfl) h
  case clockRecover => exact whenB_keeps (fun _ => clockRecoverEffect_keeps rfl) h
  case domainRestart => exact whenB_keeps (fun _ => by apply domainRestartEffect_keeps <;> rfl) h
  case dvfsStep => exact whenB_keeps (fun _ => dvfsStepEffect_keeps rfl) h
  case avsAck => exact whenB_keeps (fun _ => avsAckEffect_keeps rfl) h
  case avsTimeout => exact whenB_keeps (fun _ => by apply avsTimeoutEffect_keeps <;> rfl) h
  case avsPoll => exact whenB_keeps (fun _ => avsPollEffect_keeps rfl) h
  case thermalThrottle => exact whenB_keeps (fun _ => by apply thermalThrottleEffect_keeps <;> rfl) h
  case thermalCapRelease => exact whenB_keeps (fun _ => thermalCapReleaseEffect_keeps rfl) h
  case thermalShutdown => exact whenB_keeps (fun _ => by apply thermalShutdownEffect_keeps <;> rfl) h
  case idleEntry => exact whenB_keeps (fun _ => by apply idleEntryEffect_keeps <;> rfl) h
  case idleExit => exact whenB_keeps (fun _ => by apply idleExitEffect_keeps <;> rfl) h
  case drowseEntry => exact whenB_keeps (fun _ => by apply drowseEntryEffect_keeps <;> rfl) h
  case dormantEntry => exact whenB_keeps (fun _ => by apply dormantEntryEffect_keeps <;> rfl) h
  case wakeStep => exact whenB_keeps (fun _ => by apply wakeStepEffect_keeps <;> rfl) h
  case quiesceTimeout => exact whenB_keeps (fun _ => by apply quiesceTimeoutEffect_keeps <;> rfl) h
  case powerStateReached => exact whenB_keeps (fun _ => by apply powerStateReachedEffect_keeps <;> rfl) h
  case resetComplete => exact whenB_keeps (fun _ => by apply resetCompleteEffect_keeps <;> rfl) h
  case powerOnReset => exact whenB_keeps (fun _ => by apply powerOnResetEffect_keeps <;> rfl) h
  case pinReset => exact whenB_keeps (fun _ => by apply pinResetEffect_keeps <;> rfl) h
  case sliceReset => exact whenB_keeps (fun _ => by apply sliceResetEffect_keeps <;> rfl) h
  case quarantineExit => exact whenB_keeps (fun _ => quarantineExitEffect_keeps rfl) h
  case removal => exact whenB_keeps (fun _ => by apply removalEffect_keeps <;> rfl) h
  case presenceReturn => exact whenB_keeps (fun _ => by apply presenceReturnEffect_keeps <;> rfl) h
  case perst => exact whenB_keeps (fun _ => by apply perstEffect_keeps <;> rfl) h
  case gapSat => exact whenB_keeps (fun _ => by apply gapSatEffect_keeps <;> rfl) h
  case deepExitComplete => exact whenB_keeps (fun _ => by apply deepExitCompleteEffect_keeps <;> rfl) h
  case fwStageComplete => exact whenB_keeps (fun _ => by apply fwStageCompleteEffect_keeps <;> rfl) h
  case logReadComplete => exact whenB_keeps (fun _ => by apply logReadCompleteEffect_keeps <;> rfl) h
  case firmwareReady => exact whenB_keeps (fun _ => by apply firmwareReadyEffect_keeps <;> rfl) h
  case remoteFaultReceived => exact whenB_keeps (fun _ => remoteFaultReceivedEffect_keeps rfl) h
  case receiveLpi => exact whenB_keeps (fun _ => receiveLpiEffect_keeps rfl rfl) h
  -- A downstream OAM message: its act where the message passes the tests of R86.
  case discover => exact oamReceive_keeps rfl rfl rfl (fun _ _ => by apply discoverAct_keeps <;> rfl) h
  case rangeRequest => exact oamReceive_keeps rfl rfl rfl (fun _ _ => by apply rangeRequestAct_keeps <;> rfl) h
  case eqdAssign => exact oamReceive_keeps rfl rfl rfl (fun _ _ => by apply eqdAssignAct_keeps <;> rfl) h
  case tod => exact oamReceive_keeps rfl rfl rfl (fun _ _ => by apply todAct_keeps <;> rfl) h
  case amend => exact oamReceive_keeps rfl rfl rfl (fun _ _ => by apply amendAct_keeps <;> rfl) h
  case leaderSet => exact oamReceive_keeps rfl rfl rfl (fun _ _ => leaderSetAct_keeps rfl rfl rfl) h
  case reportPolicy => exact oamReceive_keeps rfl rfl rfl (fun _ _ => by apply reportPolicyAct_keeps <;> rfl) h
  case rdi => exact oamReceive_keeps rfl rfl rfl (fun _ _ => by apply rdiAct_keeps <;> rfl) h
  case disable => exact oamReceive_keeps rfl rfl rfl (fun _ _ => by apply disableAct_keeps <;> rfl) h
  case enable => exact oamReceive_keeps rfl rfl rfl (fun _ _ => by apply enableAct_keeps <;> rfl) h
  case protectCommand => exact oamReceive_keeps rfl rfl rfl (fun _ _ => protectCommandAct_keeps rfl rfl) h
  case keyDeliver => exact oamReceive_keeps rfl rfl rfl (fun _ _ => by apply keyDeliverAct_keeps <;> rfl) h
  case keySwitch => exact oamReceive_keeps rfl rfl rfl (fun _ _ => by apply keySwitchAct_keeps <;> rfl) h
  -- A mailbox command that is answered at once: its effect and its response.
  case trunkGroupSet => exact runCommand_keeps rfl rfl rfl rfl rfl (fun _ _ => trunkGroupSetApply_keeps rfl) h
  case anchorHandover => exact runCommand_keeps rfl rfl rfl rfl rfl (fun _ _ => anchorHandoverApply_keeps rfl) h
  case portFilterWrite => exact runCommand_keeps rfl rfl rfl rfl rfl (fun _ _ => portFilterWriteApply_keeps rfl rfl) h
  case portFilterRead => exact runCommand_keeps rfl rfl rfl rfl rfl (fun _ _ => portFilterReadApply_keeps) h
  case rangeProvision => exact runCommand_keeps rfl rfl rfl rfl rfl (fun _ _ => by apply rangeProvisionApply_keeps <;> rfl) h
  case grantTableRead => exact runCommand_keeps rfl rfl rfl rfl rfl (fun _ _ => grantTableReadApply_keeps) h
  case runaheadSet => exact runCommand_keeps rfl rfl rfl rfl rfl (fun _ _ => runaheadSetApply_keeps rfl) h
  case accountStop => exact runCommand_keeps rfl rfl rfl rfl rfl (fun _ _ => by apply accountStopApply_keeps <;> rfl) h
  case defectSet => exact runCommand_keeps rfl rfl rfl rfl rfl (fun _ _ => by apply defectSetApply_keeps <;> rfl) h
  case protectSet => exact runCommand_keeps rfl rfl rfl rfl rfl (fun _ _ => protectSetApply_keeps rfl) h
  case protectRequest => exact runCommand_keeps rfl rfl rfl rfl rfl (fun _ _ => protectRequestApply_keeps rfl) h
  case pmRead => exact runCommand_keeps rfl rfl rfl rfl rfl (fun _ _ => pmReadApply_keeps) h
  case portModeSet => exact runCommand_keeps rfl rfl rfl rfl rfl (fun _ _ => portModeSetApply_keeps rfl) h
  case portSet => exact runCommand_keeps rfl rfl rfl rfl rfl (fun _ _ => portSetApply_keeps rfl) h
  case flowControlSet => exact runCommand_keeps rfl rfl rfl rfl rfl (fun _ _ => flowControlSetApply_keeps rfl rfl) h
  case eeeSet => exact runCommand_keeps rfl rfl rfl rfl rfl (fun _ _ => eeeSetApply_keeps rfl rfl) h
  case macFilterWrite => exact runCommand_keeps rfl rfl rfl rfl rfl (fun _ _ => macFilterWriteApply_keeps rfl) h
  case macFilterRead => exact runCommand_keeps rfl rfl rfl rfl rfl (fun _ _ => macFilterReadApply_keeps) h
  case clsSourceSet => exact runCommand_keeps rfl rfl rfl rfl rfl (fun _ _ => clsSourceSetApply_keeps rfl) h
  case profileSet => exact runCommand_keeps rfl rfl rfl rfl rfl (fun _ _ => profileSetApply_keeps rfl) h
  case ruleWrite => exact runCommand_keeps rfl rfl rfl rfl rfl (fun _ _ => by apply ruleWriteApply_keeps <;> rfl) h
  case ruleRead => exact runCommand_keeps rfl rfl rfl rfl rfl (fun _ _ => ruleReadApply_keeps) h
  case ruleCommit => exact runCommand_keeps rfl rfl rfl rfl rfl (fun _ _ => by apply ruleCommitApply_keeps <;> rfl) h
  case tableModeSet => exact runCommand_keeps rfl rfl rfl rfl rfl (fun _ _ => tableModeSetApply_keeps rfl) h
  case spreadSet => exact runCommand_keeps rfl rfl rfl rfl rfl (fun _ _ => spreadSetApply_keeps rfl) h
  case mirrorSet => exact runCommand_keeps rfl rfl rfl rfl rfl (fun _ _ => mirrorSetApply_keeps rfl) h
  case poolCarve => exact runCommand_keeps rfl rfl rfl rfl rfl (fun _ _ => poolCarveApply_keeps rfl) h
  case bufOwnerSet => exact runCommand_keeps rfl rfl rfl rfl rfl (fun _ _ => by apply bufOwnerSetApply_keeps <;> rfl) h
  case bufPrioSet => exact runCommand_keeps rfl rfl rfl rfl rfl (fun _ _ => by apply bufPrioSetApply_keeps <;> rfl) h
  case bufPoolSet => exact runCommand_keeps rfl rfl rfl rfl rfl (fun _ _ => by apply bufPoolSetApply_keeps <;> rfl) h
  case spillSet => exact runCommand_keeps rfl rfl rfl rfl rfl (fun _ _ => spillSetApply_keeps rfl) h
  case schedSet => exact runCommand_keeps rfl rfl rfl rfl rfl (fun _ _ => schedSetApply_keeps rfl rfl) h
  case schedTreeSet => exact runCommand_keeps rfl rfl rfl rfl rfl (fun _ _ => schedTreeSetApply_keeps rfl) h
  case policerSet => exact runCommand_keeps rfl rfl rfl rfl rfl (fun _ _ => policerSetApply_keeps rfl) h
  case policerRead => exact runCommand_keeps rfl rfl rfl rfl rfl (fun _ _ => policerReadApply_keeps rfl) h
  case keySlotSet => exact runCommand_keeps rfl rfl rfl rfl rfl (fun _ _ => by apply keySlotSetApply_keeps <;> rfl) h
  case keyLoad => exact runCommand_keeps rfl rfl rfl rfl rfl (fun _ _ => by apply keyLoadApply_keeps <;> rfl) h
  case keyCommit => exact runCommand_keeps rfl rfl rfl rfl rfl (fun _ _ => by apply keyCommitApply_keeps <;> rfl) h
  case keyErase => exact runCommand_keeps rfl rfl rfl rfl rfl (fun _ _ => by apply keyEraseApply_keeps <;> rfl) h
  case keyBind => exact runCommand_keeps rfl rfl rfl rfl rfl (fun _ _ => keyBindApply_keeps rfl) h
  case keyStatusRead => exact runCommand_keeps rfl rfl rfl rfl rfl (fun _ _ => keyStatusReadApply_keeps) h
  case cipPortFailRead => exact runCommand_keeps rfl rfl rfl rfl rfl (fun _ _ => cipPortFailReadApply_keeps rfl) h
  case kekSet => exact runCommand_keeps rfl rfl rfl rfl rfl (fun _ _ => kekSetApply_keeps rfl rfl) h
  case timeSet => exact runCommand_keeps rfl rfl rfl rfl rfl (fun _ _ => by apply timeSetApply_keeps <;> rfl) h
  case timeJumpAccept => exact runCommand_keeps rfl rfl rfl rfl rfl (fun _ _ => by apply timeJumpAcceptApply_keeps <;> rfl) h
  case timeOutputSet => exact runCommand_keeps rfl rfl rfl rfl rfl (fun _ _ => timeOutputSetApply_keeps rfl) h
  case ptpSet => exact runCommand_keeps rfl rfl rfl rfl rfl (fun _ _ => ptpSetApply_keeps rfl) h
  case hbmHistoryRead => exact runCommand_keeps rfl rfl rfl rfl rfl (fun _ _ => hbmHistoryReadApply_keeps) h
  case hbmSet => exact runCommand_keeps rfl rfl rfl rfl rfl (fun _ _ => hbmSetApply_keeps rfl) h
  case laneEqSet => exact runCommand_keeps rfl rfl rfl rfl rfl (fun _ _ => by apply laneEqSetApply_keeps <;> rfl) h
  case laneEqRead => exact runCommand_keeps rfl rfl rfl rfl rfl (fun _ _ => laneEqReadApply_keeps) h
  case loopSet => exact runCommand_keeps rfl rfl rfl rfl rfl (fun _ _ => by apply loopSetApply_keeps <;> rfl) h
  case patternSet => exact runCommand_keeps rfl rfl rfl rfl rfl (fun _ _ => by apply patternSetApply_keeps <;> rfl) h
  case fabricSet => exact runCommand_keeps rfl rfl rfl rfl rfl (fun _ _ => by apply fabricSetApply_keeps <;> rfl) h
  case fabricRouteRead => exact runCommand_keeps rfl rfl rfl rfl rfl (fun _ _ => fabricRouteReadApply_keeps) h
  case funcStop => exact runCommand_keeps rfl rfl rfl rfl rfl (fun _ _ => by apply funcStopApply_keeps <;> rfl) h
  case funcStart => exact runCommand_keeps rfl rfl rfl rfl rfl (fun _ _ => by apply funcStartApply_keeps <;> rfl) h
  case eventQueueSet => exact runCommand_keeps rfl rfl rfl rfl rfl (fun _ _ => eventQueueSetApply_keeps rfl) h
  case eventRouteSet => exact runCommand_keeps rfl rfl rfl rfl rfl (fun _ _ => eventRouteSetApply_keeps rfl rfl) h
  case mgtQueueSet => exact runCommand_keeps rfl rfl rfl rfl rfl (fun _ _ => mgtQueueSetApply_keeps rfl rfl rfl) h
  case sensorGet => exact runCommand_keeps rfl rfl rfl rfl rfl (fun _ _ => sensorGetApply_keeps) h
  case sensorSet => exact runCommand_keeps rfl rfl rfl rfl rfl (fun _ _ => sensorSetApply_keeps rfl) h
  case fwStatusRead => exact runCommand_keeps rfl rfl rfl rfl rfl (fun _ _ => fwStatusReadApply_keeps) h
  case fuseRead => exact runCommand_keeps rfl rfl rfl rfl rfl (fun _ _ => fuseReadApply_keeps) h
  case dvfsSet => exact runCommand_keeps rfl rfl rfl rfl rfl (fun _ _ => dvfsSetApply_keeps rfl) h
  case clockStatusRead => exact runCommand_keeps rfl rfl rfl rfl rfl (fun _ _ => clockStatusReadApply_keeps) h
  -- A long command: its start, where its checks pass.
  case hbmChannelRelease => exact runLong_keeps rfl rfl rfl rfl rfl (fun _ _ _ => hbmChannelReleaseStart_keeps rfl rfl) h
  case fence => exact runLong_keeps rfl rfl rfl rfl rfl (fun _ _ _ => setLong_keeps rfl) h
  case drainFence => exact runLong_keeps rfl rfl rfl rfl rfl (fun _ _ _ hs => noteDrain_keeps rfl (setLong_keeps rfl hs)) h
  case logRead => exact runLong_keeps rfl rfl rfl rfl rfl (fun _ _ _ => setLong_keeps rfl) h
  case fwStage => exact runLong_keeps rfl rfl rfl rfl rfl (fun _ _ _ => fwStageStart_keeps rfl rfl) h
  case fwActivate => exact runLong_keeps rfl rfl rfl rfl rfl (fun _ _ _ => by apply fwActivateStart_keeps <;> rfl) h
  case powerStateSet => exact runLong_keeps rfl rfl rfl rfl rfl (fun _ _ _ => by apply powerStateSetStart_keeps <;> rfl) h
  case resetIssue => exact runLong_keeps rfl rfl rfl rfl rfl (fun _ _ _ => by apply resetIssueStart_keeps <;> rfl) h
  -- Rows that run their operation in every state.
  case oamRxDiscard => exact oamDiscard_keeps rfl rfl h
  case protectStatus => exact statusAct_keeps rfl rfl rfl rfl rfl rfl rfl rfl rfl rfl rfl rfl rfl rfl h
  case protectNotify => exact notifyAct_keeps rfl rfl rfl rfl rfl rfl rfl rfl rfl rfl rfl rfl rfl rfl h
  case notifyAck => exact ackAct_keeps rfl h

theorem tick_canonical (hs : Canonical s) : Canonical (tick s) := by
  have hself : Keeps (fun _ => true) True s s := Keeps.refl _ s fun _ => hs
  have htick : Keeps (fun _ => true) True s (tick s) := by apply tick_keeps (h := hself) <;> rfl
  exact htick.canonical

/-- What a step can do: run the command at the front of the queue on the queue's rest, or let a tick pass. -/
theorem step_cases {t : State} (h : step s = .next t) :
    (∃ c q, s.pending = c :: q ∧ exec c { s with pending := q } = .next t) ∨ (s.pending = [] ∧ tick s = t) := by
  unfold step at h
  split at h
  next c q hq => exact .inl ⟨c, q, hq, h⟩
  next hq => exact .inr ⟨hq, Host.Outcome.next.inj h⟩

end

/-- Every table is empty after reset, and so is the contact sheet. -/
theorem reset_canonical : Canonical State.reset := by
  have hmem : State.reset.hbm.Canonical := by unfold HbmAll.Canonical; decide
  exact ⟨hmem, ⟨rfl, rfl, rfl, fun _ => Nat.two_pow_pos 64, fun _ => Nat.zero_le 255, rfl⟩, Nat.zero_le 16384⟩

/-- Settles O3: nothing is queued after reset, and every table is empty. -/
theorem resetIsCanonical : Obligations.ResetIsCanonical := ⟨rfl, reset_canonical⟩

/-- Settles O4: a step is a command on the queue's rest, or a tick, and either keeps the canonical form. -/
theorem stepKeepsCanonical : Obligations.StepKeepsCanonical := by
  unfold Obligations.StepKeepsCanonical
  intro s t hs hstep
  obtain ⟨c, q, -, hexec⟩ | ⟨-, ht⟩ := step_cases hstep
  · obtain ⟨u, hu, hkeeps⟩ := exec_keeps (k := True) (s := { s with pending := q }) c fun _ => hs
    obtain rfl : u = t := Host.Outcome.next.inj (hu.symm.trans hexec)
    exact hkeeps.canonical
  · exact ht ▸ tick_canonical hs

/-- Settles O5: the identity is part of what every command keeps. -/
theorem commandsKeepIdentity : Obligations.CommandsKeepIdentity := by
  unfold Obligations.CommandsKeepIdentity
  intro c s
  obtain ⟨t, hexec, hkeeps⟩ := exec_keeps (k := False) (s := s) c False.elim
  exact ⟨t, hexec, hkeeps.ident⟩

/-! ## Reads and writes of the register window -/

/-- A row whose guard holds answers its effect. -/
theorem next_whenB {c : Bool} {f : State → State} {s : State} (h : c = true) :
    (Host.Outcome.next (whenB c f s) : Host.Outcome State Fault Refusal) = .next (f s) := by
  rw [h, whenB_true]

section
variable {s : State} {addr n width : Nat} {v hw : Word} {write : Bool}

theorem exec_counterLowRead (h : isCounterLow addr = true) : exec (.counterLowRead addr n) s = .next (hostRead addr n 0 s) :=
  next_whenB h

theorem exec_counterHighRead (h : isCounterHigh addr = true) : exec (.counterHighRead addr) s = .next (hostRead addr 0 0 s) :=
  next_whenB h

theorem exec_registerWrite (h : addr % 4 = 0) : exec (.registerWrite addr v) s = .next (writeWord addr v s) :=
  next_whenB (beq_iff_eq.mpr h)

theorem exec_unalignedAccess (h : unalignedAccessGuard addr width write s = true) :
    exec (.unalignedAccess addr width write) s = .next (unalignedAccessEffect addr width write s) := next_whenB h

theorem exec_unreachableAccess {c : SliceId} (h : unreachableAccessGuard c write s = true) :
    exec (.unreachableAccess c write) s = .next (unreachableAccessEffect c write s) := next_whenB h

/-! ### Absent slices, slices out of reach, and unaligned accesses -/

theorem readWord_absent (ha : addrAbsent s addr = true) : readWord addr n hw s = (0, s) := by
  simp [readWord, ha]

theorem readWord_cut (ha : addrAbsent s addr = false) (hc : addrCut s addr = true) :
    readWord addr n hw s = (0xFFFFFFFF, count1 aUnreach s) := by
  simp [readWord, ha, hc]

theorem hostRead_absent (ha : addrAbsent s addr = true) : hostRead addr n hw s = { s with env := { s.env with readData := 0 } } := by
  simp [hostRead, readWord_absent ha, returned]

theorem hostRead_cut (ha : addrAbsent s addr = false) (hc : addrCut s addr = true) :
    hostRead addr n hw s = { count1 aUnreach s with env := { s.env with readData := 0xFFFFFFFF } } := by
  simp [hostRead, readWord_cut ha hc, returned, count1]

theorem writeWord_absent (ha : addrAbsent s addr = true) : writeWord addr v s = roWrite addr s := by
  simp [writeWord, ha]

theorem writeWord_cut (ha : addrAbsent s addr = false) (hc : addrCut s addr = true) : writeWord addr v s = count1 aUnreach s := by
  simp [writeWord, ha, hc]

/-- A single aligned 32-bit access is well aligned, so an access that is not belongs to UNALIGNED_ACCESS. -/
theorem unalignedAccessGuard_of_not_wellAligned (h : wellAligned addr width = false) :
    unalignedAccessGuard addr width false s = true := by
  by_cases h4 : width = 4
  · subst h4
    simpa [unalignedAccessGuard, wellAligned] using h
  · simp [unalignedAccessGuard, h4]

theorem unalignedAccessGuard_write (h4 : width = 4 → addr % 4 ≠ 0) (h8 : width = 8 → addr % 8 ≠ 0) (ha : anyWidth addr = false) :
    unalignedAccessGuard addr width true s = true := by
  simp only [unalignedAccessGuard, ha, Bool.true_and, Bool.false_or, Bool.and_eq_true, Bool.not_eq_true', Bool.and_eq_false_iff,
    beq_eq_false_iff_ne]
  exact ⟨Decidable.not_and_iff_not_or_not.mp fun ⟨hw, hm⟩ => h4 hw hm,
    Decidable.not_and_iff_not_or_not.mp fun ⟨hw, hm⟩ => h8 hw hm⟩

/-- A read narrower than the word returns its bytes of the word, with the word's effects. -/
theorem alignedRead_narrow (h8 : width ≠ 8) : alignedRead addr width s =
    returned ((((readWord (addr - addr % 4) 0 0 s).1 >>> (8 * (addr % 4))) &&& BitVec.ofNat 32 (2 ^ (8 * width) - 1)).setWidth 64)
      (readWord (addr - addr % 4) 0 0 s).2 := by
  simp only [alignedRead, if_neg h8]

/-! ### Where counters lie (R10, R558) -/

/-- A table of counters is laid out in 64-bit words and ends below the collision counters. -/
def CtrTable.Fits (t : CtrTable) : Prop :=
  t.base % 8 = 0 ∧ t.stride % 8 = 0 ∧ 0 < t.stride ∧ t.base + t.stride * t.units ≤ 0xC00000

/-- Every table of counters of every region does. -/
theorem fits_of_mem_regionCounters {t : CtrTable} (h : t ∈ regionCounters addr) : t.Fits := by
  have hs : ∀ t ∈ sliceCounters, t.Fits := by unfold CtrTable.Fits; decide
  have hh : ∀ t ∈ hbmCounters, t.Fits := by unfold CtrTable.Fits; decide
  have hg : ∀ t ∈ globalCounters, t.Fits := by unfold CtrTable.Fits; decide
  unfold regionCounters at h
  split at h
  · split at h
    · exact (List.mem_append.mp h).elim (hh t) (hs t)
    · exact hs t h
  · split at h
    · exact hg t h
    · cases h

theorem inTable_iff {off : Nat} {t : CtrTable} :
    inTable off t = true ↔ t.base ≤ off ∧ off < t.base + t.stride * t.units ∧ (off - t.base) % t.stride < 8 * t.count := by
  simp [inTable, and_assoc]

/-- The high word of a counter lies 4 above its low word, in the same table. -/
theorem inTable_add_four {off : Nat} {t : CtrTable} (ht : t.Fits) (h8 : off % 8 = 0) (h : inTable off t = true) :
    inTable (off + 4) t = true := by
  obtain ⟨hbase, hstride, hpos, -⟩ := ht
  obtain ⟨hlo, hhi, hct⟩ := inTable_iff.mp h
  have hspan : t.stride * t.units % 8 = 0 := by simp [Nat.mul_mod, hstride]
  have hr : (off - t.base) % t.stride % 8 = 0 := by
    rw [Nat.mod_mod_of_dvd _ (Nat.dvd_of_mod_eq_zero hstride)]
    omega
  have hlt : (off - t.base) % t.stride < t.stride := Nat.mod_lt _ hpos
  have hnext : (off + 4 - t.base) % t.stride = (off - t.base) % t.stride + 4 := by
    rw [show off + 4 - t.base = off - t.base + 4 by omega, ← Nat.mod_add_mod, Nat.mod_eq_of_lt (by omega)]
  exact inTable_iff.mpr ⟨by omega, by omega, by omega⟩

theorem isCounter_iff : isCounter addr = true ↔ ∃ t ∈ regionCounters addr, inTable (addrOff addr) t = true := by
  simp [isCounter]

theorem isCounterLow_iff : isCounterLow addr = true ↔ isCounter addr = true ∧ addr % 8 = 0 := by simp [isCounterLow]

theorem isCounterHigh_iff : isCounterHigh addr = true ↔ isCounter addr = true ∧ addr % 8 = 4 := by simp [isCounterHigh]

theorem not_isCollision_of_isCounter (h : isCounter addr = true) : isCollision addr = false := by
  obtain ⟨t, ht, hin⟩ := isCounter_iff.mp h
  obtain ⟨-, -, -, hend⟩ := fits_of_mem_regionCounters ht
  obtain ⟨-, hhi, -⟩ := inTable_iff.mp hin
  have hoff : ¬ 0xC00000 ≤ addrOff addr := by omega
  simp [isCollision, hoff]

theorem addrSlice_add_four (h8 : addr % 8 = 0) : addrSlice (addr + 4) = addrSlice addr := by
  have hc : (0x1000000 ≤ addr + 4 ∧ addr + 4 < 0x9000000) ↔ (0x1000000 ≤ addr ∧ addr < 0x9000000) := by omega
  have hd : (addr + 4) / 0x1000000 = addr / 0x1000000 := by omega
  simp only [addrSlice, hc, hd]

theorem isCounterHigh_add_four (h : isCounterLow addr = true) : isCounterHigh (addr + 4) = true := by
  obtain ⟨hctr, h8⟩ := isCounterLow_iff.mp h
  obtain ⟨t, ht, hin⟩ := isCounter_iff.mp hctr
  have hoff : addrOff (addr + 4) = addrOff addr + 4 := by unfold addrOff; omega
  have hreg : regionCounters (addr + 4) = regionCounters addr := by
    have hg : addr + 4 < 0x1000000 ↔ addr < 0x1000000 := by omega
    simp only [regionCounters, addrSlice_add_four h8, hg]
  have h8off : addrOff addr % 8 = 0 := by unfold addrOff; omega
  refine isCounterHigh_iff.mpr ⟨isCounter_iff.mpr ⟨t, hreg ▸ ht, ?_⟩, by omega⟩
  rw [hoff]
  exact inTable_add_four (fits_of_mem_regionCounters ht) h8off hin

theorem addrAbsent_add_four (h8 : addr % 8 = 0) : addrAbsent s (addr + 4) = addrAbsent s addr := by
  have hg : 0x9000000 ≤ addr + 4 ↔ 0x9000000 ≤ addr := by omega
  simp only [addrAbsent, addrSlice_add_four h8, hg]

theorem addrCut_add_four (h8 : addr % 8 = 0) : addrCut s (addr + 4) = addrCut s addr := by
  simp only [addrCut, addrSlice_add_four h8]

/-! ### What the read of each half does -/

theorem readWord_counterLow (hl : isCounterLow addr = true) (ha : addrAbsent s addr = false) (hc : addrCut s addr = false) :
    readWord addr n hw s = (BitVec.ofNat 32 (counterAt s (keyOf addr)), captureCounter (keyOf addr) n s) := by
  have hcoll := not_isCollision_of_isCounter (isCounterLow_iff.mp hl).1
  simp [readWord, ha, hc, hcoll, hl]

theorem readWord_counterHigh (hh : isCounterHigh addr = true) (ha : addrAbsent s addr = false) (hc : addrCut s addr = false) :
    readWord addr n hw s = (heldHigh s (keyOf (addr - 4)), s) := by
  obtain ⟨hctr, h4⟩ := isCounterHigh_iff.mp hh
  have hl : isCounterLow addr = false := by simp [isCounterLow, h4]
  simp [readWord, ha, hc, not_isCollision_of_isCounter hctr, hl, hh]

theorem hostRead_counterLow (hl : isCounterLow addr = true) (ha : addrAbsent s addr = false) (hc : addrCut s addr = false) :
    hostRead addr n hw s =
      returned (BitVec.ofNat 64 (counterAt s (keyOf addr) % 2 ^ 32)) (captureCounter (keyOf addr) n s) := by
  simp only [hostRead, readWord_counterLow hl ha hc, ← BitVec.ofNat_toNat, BitVec.toNat_ofNat]

theorem hostRead_counterHigh (hh : isCounterHigh addr = true) (ha : addrAbsent s addr = false) (hc : addrCut s addr = false)
    (hlt : sparseGet 0 s.regs.hold (keyOf (addr - 4)) < 2 ^ 64) :
    hostRead addr n hw s = returned (BitVec.ofNat 64 (sparseGet 0 s.regs.hold (keyOf (addr - 4)) / 2 ^ 32)) s := by
  have hfit : sparseGet 0 s.regs.hold (keyOf (addr - 4)) / 2 ^ 32 < 2 ^ 32 := by omega
  simp only [hostRead, readWord_counterHigh hh ha hc, heldHigh, ← BitVec.ofNat_toNat, BitVec.toNat_ofNat, Nat.mod_eq_of_lt hfit]

end

/-- Settles O8.  The zeros of an unaligned read of a slice that cannot be reached are the model's choice of log 95, and regions
of dormant and waking slices count as out of reach by log 96. -/
theorem accessesWithoutEffect : Obligations.AccessesWithoutEffect := by
  unfold Obligations.AccessesWithoutEffect
  refine ⟨⟨fun addr s ha => ⟨fun hl n => ?_, fun hh => ?_, fun h4 v => ?_⟩,
    fun addr s ha hc => ⟨fun hl n => ?_, fun hh => ?_, fun h4 v => ?_⟩, fun c s hg => ⟨?_, ?_⟩⟩,
    fun addr width s hw => ?_, fun addr width s h4 h8 ha => ?_, fun addr width s hw ha hr => ?_⟩
  · rw [exec_counterLowRead hl, hostRead_absent ha]
  · rw [exec_counterHighRead hh, hostRead_absent ha]
  · rw [exec_registerWrite h4, writeWord_absent ha]
  · rw [exec_counterLowRead hl, hostRead_cut ha hc]
  · rw [exec_counterHighRead hh, hostRead_cut ha hc]
  · rw [exec_registerWrite h4, writeWord_cut ha hc]
  · exact exec_unreachableAccess hg
  · exact exec_unreachableAccess (write := true) hg
  · rw [exec_unalignedAccess (unalignedAccessGuard_of_not_wellAligned hw)]
    simp only [unalignedAccessEffect, hw, Bool.false_eq_true, if_false, returned]
  · exact exec_unalignedAccess (unalignedAccessGuard_write h4 h8 ha)
  · have hguard : unalignedAccessGuard addr width false s = true := by rcases hw with rfl | rfl <;> rfl
    have haligned : wellAligned addr width = true := by rcases hw with rfl | rfl <;> simp [wellAligned, ha]
    rw [exec_unalignedAccess hguard]
    simp only [unalignedAccessEffect, haligned, Bool.false_eq_true, if_false, if_true]
    rw [alignedRead_narrow (by omega), hr, returned]

/-- Settles O7: the low read captures and clears, and the high word, 4 above in the same table, returns what was captured. -/
theorem counterReadsAsAPair : Obligations.CounterReadsAsAPair := by
  unfold Obligations.CounterReadsAsAPair
  intro addr arriving s hl ha hc ⟨_, ⟨hctr, _, _, hlt, _, hhold⟩, _⟩
  have h8 := (isCounterLow_iff.mp hl).2
  have hheld : sparseGet 0 (captureCounter (keyOf addr) arriving s).regs.hold (keyOf addr) = counterAt s (keyOf addr) :=
    sparseGet_set_same hhold
  have hk := captureCounter_keeps (a := keyOf addr) (n := arriving) (w := within [.env, .counters, .latches]) rfl rfl
    (keeps_self [.env, .counters, .latches] s)
  refine ⟨returned (BitVec.ofNat 64 (counterAt s (keyOf addr) % 2 ^ 32)) (captureCounter (keyOf addr) arriving s), ?_, rfl, hheld,
    sparseGet_set_same hctr, fun a hne => ⟨sparseGet_set_other hctr hne, sparseGet_set_other hhold hne⟩, rfl, rfl,
    (returned_keeps rfl hk).onlyChanges, ?_⟩
  · rw [exec_counterLowRead hl, hostRead_counterLow hl ha hc]
  · have hh := isCounterHigh_add_four hl
    have hread := hostRead_counterHigh (n := 0) (hw := 0)
      (s := returned (BitVec.ofNat 64 (counterAt s (keyOf addr) % 2 ^ 32)) (captureCounter (keyOf addr) arriving s))
      hh ((addrAbsent_add_four h8).trans ha) ((addrCut_add_four h8).trans hc) (Nat.lt_of_le_of_lt (Nat.le_of_eq hheld) (hlt _))
    rw [exec_counterHighRead hh, hread, Nat.add_sub_cancel]
    exact congrArg (fun x => Host.Outcome.next (returned (BitVec.ofNat 64 (x / 2 ^ 32)) _)) hheld

/-! ## Sticky flags -/

section
variable {s : State} {addr key b : Nat} {v hw : Word}

/-- The guard looks at the address only. -/
theorem exec_w1cClear {v' hw' : Word} (h : w1cClearGuard addr v' hw' s = true) :
    exec (.w1cClear addr v hw) s = .next (w1cWrite addr v hw s) := next_whenB h

/-- The mask of flag `b` has bit `b` and no other. -/
theorem getLsbD_flagBit (b j : Nat) : (BitVec.ofNat 32 (2 ^ b)).getLsbD j = (decide (j < 32) && decide (b = j)) := by
  rw [BitVec.getLsbD_ofNat, Nat.testBit_two_pow]

theorem getLsbD_flagBit_self (hb : b < 32) : (BitVec.ofNat 32 (2 ^ b)).getLsbD b = true := by
  rw [getLsbD_flagBit]
  simpa using hb

theorem getLsbD_flagBit_other (hj : j ≠ b) : (BitVec.ofNat 32 (2 ^ b)).getLsbD j = false := by
  rw [getLsbD_flagBit]
  simp [Ne.symm hj]

/-! ### A write in a cycle in which hardware sets no flag -/

theorem w1cBit_without_set (key : Nat) (v : Word) (b : Nat) (s : State) : w1cBit key v 0 b s =
    if v.getLsbD b then putFlags key (flagWord s key &&& ~~~(BitVec.ofNat 32 (2 ^ b))) s else s := by
  simp [w1cBit]

theorem w1cBit_wf (h : sparseWf 0 s.regs.w1c = true) : sparseWf 0 (w1cBit key v 0 b s).regs.w1c = true := by
  rw [w1cBit_without_set]
  split
  · exact sparseWf_set h
  · exact h

theorem getLsbD_w1cBit (h : sparseWf 0 s.regs.w1c = true) (hj : j < 32) :
    (flagWord (w1cBit key v 0 b s) key).getLsbD j = ((flagWord s key).getLsbD j && !(decide (b = j) && v.getLsbD j)) := by
  rw [w1cBit_without_set]
  by_cases hv : v.getLsbD b = true
  · rw [if_pos hv, flagWord_putFlags_same _ _ _ h, BitVec.getLsbD_and, BitVec.getLsbD_not, getLsbD_flagBit]
    by_cases hb : b = j
    · subst hb
      simp [hv, hj]
    · simp [hb, hj]
  · rw [if_neg hv]
    by_cases hb : b = j
    · subst hb
      simp [hv]
    · simp [hb]

theorem flagWord_w1cBit_other {a : Nat} (h : sparseWf 0 s.regs.w1c = true) (ha : a ≠ key) :
    flagWord (w1cBit key v 0 b s) a = flagWord s a := by
  rw [w1cBit_without_set]
  split
  · exact flagWord_putFlags_other _ _ _ _ h ha
  · rfl

theorem getLsbD_foldS_w1cBit {l : List Nat} (h : sparseWf 0 s.regs.w1c = true) (hj : j < 32) :
    (flagWord (foldS l (w1cBit key v 0) s) key).getLsbD j =
      ((flagWord s key).getLsbD j && !(decide (j ∈ l) && v.getLsbD j)) := by
  induction l generalizing s with
  | nil => simp
  | cons b l ih =>
    rw [foldS_cons, ih (w1cBit_wf h), getLsbD_w1cBit h hj]
    by_cases hb : b = j
    · subst hb
      cases v.getLsbD b <;> simp
    · simp [hb, Ne.symm hb]

theorem flagWord_foldS_w1cBit_other {a : Nat} {l : List Nat} (h : sparseWf 0 s.regs.w1c = true) (ha : a ≠ key) :
    flagWord (foldS l (w1cBit key v 0) s) a = flagWord s a := by
  induction l generalizing s with
  | nil => rfl
  | cons b l ih => rw [foldS_cons, ih (w1cBit_wf h), flagWord_w1cBit_other h ha]

theorem flagWord_w1cWrite_clear (h : sparseWf 0 s.regs.w1c = true) :
    flagWord (w1cWrite addr v 0 s) (keyOf addr) = flagWord s (keyOf addr) &&& ~~~(v &&& w1cMask addr) := by
  apply BitVec.eq_of_getLsbD_eq
  intro j hj
  unfold w1cWrite
  rw [getLsbD_foldS_w1cBit h hj]
  simp [hj, Bool.and_comm]

theorem w1cWrite_clear_keeps (l : List Comp) (hl : within l .flags = true) : Keeps (within l) False s (w1cWrite addr v 0 s) := by
  refine foldS_keeps (fun b t ht => ?_) (keeps_self l s)
  rw [w1cBit_without_set]
  exact Keeps.ite (putFlags_keeps hl ht) ht

/-! ### A flag that hardware sets in the cycle of the write -/

theorem foldS_of_inert {α : Type} {l : List α} {f : α → State → State} (h : ∀ x ∈ l, ∀ t, f x t = t) : foldS l f s = s := by
  induction l with
  | nil => rfl
  | cons x l ih =>
    rw [foldS_cons, h x (List.mem_cons_self ..)]
    exact ih fun y hy => h y (List.mem_cons_of_mem _ hy)

/-- Where all items but one leave every state as it is, only that one acts. -/
theorem foldS_of_inert_but {α : Type} {l : List α} {f : α → State → State} {x : α} (hn : l.Nodup) (hx : x ∈ l)
    (h : ∀ y, y ≠ x → ∀ t, f y t = t) : foldS l f s = f x s := by
  induction l with
  | nil => cases hx
  | cons y l ih =>
    obtain ⟨hy, hl⟩ := List.nodup_cons.mp hn
    rw [foldS_cons]
    by_cases he : y = x
    · subst he
      exact foldS_of_inert fun z hz => h z fun e => hy (e ▸ hz)
    · rw [h y he, ih hl (List.mem_of_ne_of_mem (Ne.symm he) hx)]

/-- Where hardware sets flag `b` alone and the host clears no other, the write acts on flag `b` alone. -/
theorem w1cWrite_one_set (hb : b < 32) (hm : (w1cMask addr).getLsbD b = true) (hv : ∀ j, j ≠ b → v.getLsbD j = false) :
    w1cWrite addr v (BitVec.ofNat 32 (2 ^ b)) s = w1cBit (keyOf addr) v (BitVec.ofNat 32 (2 ^ b)) b s := by
  refine foldS_of_inert_but (List.nodup_range.filter _) ?_ fun j hj t => ?_
  · simp [hb, hm]
  · simp only [w1cBit, hv j hj, getLsbD_flagBit_other hj, Bool.false_eq_true, if_false]

theorem w1cBit_set_alone (hb : b < 32) : w1cBit key 0 (BitVec.ofNat 32 (2 ^ b)) b s = setFlag key b s := by
  have h0 : (0 : Word).getLsbD b = false := BitVec.getLsbD_zero
  simp only [w1cBit, getLsbD_flagBit_self hb, h0, Bool.false_eq_true, if_true, if_false]

theorem w1cBit_set_on_clear (hb : b < 32) :
    w1cBit key (BitVec.ofNat 32 (2 ^ b)) (BitVec.ofNat 32 (2 ^ b)) b s = collide key b s := by
  simp only [w1cBit, getLsbD_flagBit_self hb, if_true]

/-- The state of a collision before its record is written: the flag is 1 and both collision counters have counted. -/
def collided (key b : Nat) (s : State) : State :=
  count1 aCollisions { putFlags key (flagWord s key ||| BitVec.ofNat 32 (2 ^ b)) s with regs :=
    { (putFlags key (flagWord s key ||| BitVec.ofNat 32 (2 ^ b)) s).regs with
      coll := sparseMod 0 s.regs.coll key fun n => min 255 (n + 1) } }

theorem collide_eq (key b : Nat) (s : State) :
    collide key b s = writeRecord (flagRecord s key (2 ^ b) true) (collided key b s) := rfl

section
variable (he : s.ev.evq.enabled = false) (hroom : s.ev.log.length < 16384)
include he hroom

/-- With the event queue off and room in the contact sheet, a record goes to the sheet and nowhere else. -/
theorem writeRecord_queueOff (r : Record) :
    writeRecord r s = { s with ev := { s.ev with
      log := r :: s.ev.log, nextSeq := s.ev.nextSeq + 1,
      errors := if 3 ≤ r.severity.code then s.ev.errors + 1 else s.ev.errors } } := by
  have hlen : (r :: s.ev.log).length ≤ 16384 := hroom
  simp only [writeRecord, evqTakes, he, Bool.false_and, pushRecord, if_neg (Nat.not_le_of_lt hroom),
    List.take_of_length_le hlen, Bool.false_eq_true, if_false]

theorem writeRecord_queueOff_keeps {l : List Comp} {i : State} (r : Record) (hl : within l .log = true)
    (h : Keeps (within l) False i s) : Keeps (within l) False i (writeRecord r s) := by
  rw [writeRecord_queueOff he hroom]
  exact Keeps.set_ev (.inl hl) (.inr ⟨rfl, rfl, rfl⟩) False.elim h

/-- A flag at 0 that hardware sets: the flag is 1 and one FLAG_SET record is written (R477). -/
theorem setFlag_clear_effect (hf : (flagWord s key).getLsbD b = false) (hw1c : sparseWf 0 s.regs.w1c = true) :
    flagWord (setFlag key b s) key = flagWord s key ||| BitVec.ofNat 32 (2 ^ b) ∧
      (setFlag key b s).ev.log = flagRecord s key (2 ^ b) false :: s.ev.log ∧
      (setFlag key b s).ev.nextSeq = s.ev.nextSeq + 1 ∧ OnlyChanges [.flags, .log] s (setFlag key b s) := by
  have hput := putFlags_keeps (a := key) (v := flagWord s key ||| BitVec.ofNat 32 (2 ^ b)) rfl (keeps_self [.flags, .log] s)
  rw [setFlag_clear hf]
  refine ⟨?_, ?_, ?_, (writeRecord_queueOff_keeps (s := putFlags key _ s) he hroom _ rfl hput).onlyChanges⟩ <;>
    rw [writeRecord_queueOff (s := putFlags key _ s) he hroom]
  · exact flagWord_putFlags_same _ _ _ hw1c
  · rfl
  · rfl

/-- A set that meets a clear (R476): the flag is 1, the collision is counted twice and recorded. -/
theorem collide_effect (hc : s.regs.Canonical) :
    flagWord (collide key b s) key = flagWord s key ||| BitVec.ofNat 32 (2 ^ b) ∧
      sparseGet 0 (collide key b s).regs.coll key = min 255 (sparseGet 0 s.regs.coll key + 1) ∧
      counterAt (collide key b s) aCollisions = (counterAt s aCollisions + 1) % 2 ^ 64 ∧
      (collide key b s).ev.log = flagRecord s key (2 ^ b) true :: s.ev.log ∧
      (collide key b s).ev.nextSeq = s.ev.nextSeq + 1 ∧
      OnlyChanges [.counters, .flags, .latches, .log] s (collide key b s) := by
  obtain ⟨hctr, hw1c, hcoll, -⟩ := hc
  have hcollided : Keeps (within [.counters, .flags, .latches, .log]) False s (collided key b s) :=
    count1_keeps rfl (Keeps.set_regs (.inr rfl) (.inr rfl) (.inl rfl) False.elim (putFlags_keeps rfl (keeps_self _ s)))
  rw [collide_eq]
  refine ⟨?_, ?_, ?_, ?_, ?_, (writeRecord_queueOff_keeps (s := collided key b s) he hroom _ rfl hcollided).onlyChanges⟩ <;>
    rw [writeRecord_queueOff (s := collided key b s) he hroom]
  · exact flagWord_putFlags_same _ _ s hw1c
  · exact sparseGet_mod_same (n := key) (f := fun n => min 255 (n + 1)) hcoll
  · exact counterAt_count_same aCollisions 1 s hctr
  · rfl
  · rfl

end
end

/-- Settles O9: the write goes over the flags of the word one by one, and only the flags written or set act.  That a write
counts nothing where it also sets read-only or reserved bits is the model's choice of log 140, and that a collision counts
where the flag was 0 that of log 94. -/
theorem stickyFlags : Obligations.StickyFlags := by
  unfold Obligations.StickyFlags
  refine ⟨fun addr v s hg hc => ?_, fun addr b s hg hb hm he hroom hc => ⟨fun hf => ?_, fun hf => ?_, ?_⟩⟩
  · obtain ⟨-, ⟨-, hw1c, -⟩, -⟩ := hc
    exact ⟨_, exec_w1cClear hg, flagWord_w1cWrite_clear hw1c, fun a ha => flagWord_foldS_w1cBit_other hw1c ha,
      (w1cWrite_clear_keeps _ rfl).onlyChanges⟩
  · rw [exec_w1cClear hg, w1cWrite_one_set hb hm (by simp), w1cBit_set_alone hb, setFlag_set hf]
  · obtain ⟨-, ⟨-, hw1c, -⟩, -⟩ := hc
    rw [exec_w1cClear hg, w1cWrite_one_set hb hm (by simp), w1cBit_set_alone hb]
    exact ⟨_, rfl, setFlag_clear_effect he hroom hf hw1c⟩
  · obtain ⟨-, hregs, -⟩ := hc
    rw [exec_w1cClear hg, w1cWrite_one_set hb hm fun j => getLsbD_flagBit_other, w1cBit_set_on_clear hb]
    exact ⟨_, rfl, collide_effect he hroom hregs⟩

end Sys2Proof.Machine
end

section
/-!
PROOFS.  The statements about the slices of the package: the flits of the bridges (O29), the bridge ports and routes (O30) and
the claim to the anchor (O31).
-/
namespace Sys2Proof.Machine

/-! ## Shared rules -/

/-- What each item of a list keeps, the whole list keeps. -/
theorem foldS_induction {α : Type} {l : List α} {f : α → State → State} {P : State → Prop} {s : State}
    (hf : ∀ x t, P t → P (f x t)) (h : P s) : P (foldS l f s) := by
  induction l generalizing s with
  | nil => exact h
  | cons x l ih => exact ih (hf x s h)

/-- A table reads what was just written where that is not the default, even if the table is not canonical. -/
theorem sparseGet_set_same_of_ne {α : Type} [DecidableEq α] {d x : α} {n : Nat} {t : Sparse α} (hx : x ≠ d) :
    sparseGet d (sparseSet d t n x) n = x := by
  induction t with
  | nil => simp [sparseSet, sparseGet, hx]
  | cons e t ih =>
    obtain ⟨k, v⟩ := e
    by_cases heq : n = k
    · simp [sparseSet, sparseGet, hx, heq]
    · by_cases hlt : n < k
      · simp [sparseSet, sparseGet, hx, heq, hlt]
      · simp [sparseSet, sparseGet, heq, hlt, ih]

/-! ## Bridge ports -/

section
variable {s t : State} {k j d : SliceId} {p q : BridgePort} {g : Bridge → Bridge} {l : List Flit} {front : Bool} {now : Nat} {b : Bridge}

theorem bridgeAt_val (s : State) (k : SliceId) (p : BridgePort) : bridgeAt s k.val p.val = s.bridge.ports[k][p] :=
  dif_pos ⟨k.isLt, p.isLt⟩

theorem bridgeAt_congr {m n : Nat} (h : t.bridge.ports = s.bridge.ports) : bridgeAt t m n = bridgeAt s m n := by
  simp only [bridgeAt, h]

@[simp] theorem bridgeAt_modBridge_same : bridgeAt (modBridge s k p g) k.val p.val = g (bridgeAt s k.val p.val) := by
  rw [bridgeAt_val, bridgeAt_val]
  exact (congrArg (·[p]) (vmod_same ..)).trans (vmod_same ..)

theorem bridgeAt_modBridge_other (h : (j, q) ≠ (k, p)) :
    bridgeAt (modBridge s k p g) j.val q.val = bridgeAt s j.val q.val := by
  rw [bridgeAt_val, bridgeAt_val]
  by_cases hj : j = k
  · subst hj
    exact (congrArg (·[q]) (vmod_same ..)).trans (vmod_other _ _ _ _ fun hq => h (by rw [hq]))
  · exact congrArg (·[q]) (vmod_other _ _ _ _ hj)

/-- Flits move from the queue to the retry buffer: none is lost, none added, and their order stays. -/
theorem flits_fillRetry : (fillRetry now b).unacked.map (fun o => o.flit) ++ (fillRetry now b).sendQ =
    b.unacked.map (fun o => o.flit) ++ b.sendQ := by
  simp [fillRetry, Function.comp_def]

theorem sendFlits_of_route (h : routePort s k d = some p) : sendFlits front k d l s =
    modBridge s k p fun b => fillRetry s.now { b with sendQ := if front then l ++ b.sendQ else b.sendQ ++ l } := by
  simp only [sendFlits, h]

@[simp] theorem sendFlits_rx : (sendFlits front k d l s).bridge.rx = s.bridge.rx := by unfold sendFlits; split <;> rfl

@[simp] theorem sendFlits_transit : (sendFlits front k d l s).bridge.transit = s.bridge.transit := by
  unfold sendFlits; split <;> rfl

/-- Sending flits neither takes a port up or down nor moves its next retrain attempt. -/
theorem sendFlits_link : (bridgeAt (sendFlits front k d l s) j.val q.val).up = (bridgeAt s j.val q.val).up ∧
    (bridgeAt (sendFlits front k d l s) j.val q.val).nextRetrain = (bridgeAt s j.val q.val).nextRetrain := by
  unfold sendFlits
  split
  next p _ =>
    by_cases hjq : (j, q) = (k, p)
    · obtain ⟨rfl, rfl⟩ := Prod.mk.inj hjq
      rw [bridgeAt_modBridge_same]
      exact ⟨rfl, rfl⟩
    · rw [bridgeAt_modBridge_other hjq]
      exact ⟨rfl, rfl⟩
  next => exact ⟨rfl, rfl⟩

end

/-! ## Flits received (R24, R26) -/

section
variable {k dst src : SliceId} {p : BridgePort} {f : Flit} {s : State} {c : SeqRx} {now : Nat} {l : List Nat}

/-- The sender's oldest flit has been acknowledged. -/
def acked (k : SliceId) (p : BridgePort) (s : State) : State := modBridge s (peerSlice k p) p (ackHead s.now)

/-- A sequence context has its new value, and no packet has gone on yet. -/
def putSeq (dst src : SliceId) (c : SeqRx) (s : State) : State :=
  { s with bridge := { s.bridge with rx := sparseSet {} s.bridge.rx (seqKey dst src) c } }

theorem flitReceiveEffect_bad (h : flitGood f = false) : flitReceiveEffect k p f s =
    modBridge (count1 (aBridgeRetry (peerSlice k p) p) s) (peerSlice k p) p (resendHead s.now) := by
  simp [flitReceiveEffect, h]

theorem flitReceiveEffect_atLimit (h : flitGood f = true) (hl : flitLimit s ≤ f.hops) :
    flitReceiveEffect k p f s = count1 (aBridgeTtl k) (acked k p s) := by
  simp [flitReceiveEffect, goodFlit, acked, h, hl]

theorem flitReceiveEffect_onward (h : flitGood f = true) (hl : f.hops < flitLimit s) (hd : f.dst ≠ k) :
    flitReceiveEffect k p f s = sendFlits false k f.dst [{ f with hops := f.hops + 1 }] (acked k p s) := by
  simp [flitReceiveEffect, goodFlit, acked, h, Nat.not_le_of_lt hl, hd]

theorem flitReceiveEffect_arrived (h : flitGood f = true) (hl : f.hops < flitLimit s) (hd : f.dst = k) :
    flitReceiveEffect k p f s = seqTake k f.src (acceptFlit s.now f (seqAt s k f.src)) (acked k p s) := by
  simp only [flitReceiveEffect, goodFlit, h, Nat.not_le_of_lt hl, hd, if_true, if_false]
  rfl

/-- A flit received on a working link takes the effect that its case gives. -/
theorem exec_flitReceive {t : State} (h : flitReceiveGuard k p f s = true) (he : flitReceiveEffect k p f s = t) :
    exec (.flitReceive k p f) s = .next t := (next_whenB h).trans (congrArg _ he)

theorem seqTake_eq : seqTake dst src (c, l) s = foldS l (landPacket src dst) (putSeq dst src c s) := rfl

theorem seqAt_putSeq (hc : c ≠ {}) : seqAt (putSeq dst src c s) dst src = c := sparseGet_set_same_of_ne hc

/-- A flit that comes early is held with its instant. -/
theorem acceptFlit_early (hne : f.seq ≠ c.expected) (hlt : (f.seq - c.expected).toNat < 32768)
    (hnew : (c.held.any fun h => h.2.seq == f.seq) = false) :
    acceptFlit now f c = ({ c with held := (now, f) :: c.held }, []) := by
  have hd : f.seq - c.expected ≠ 0 := fun h =>
    hne ((BitVec.sub_eq_iff_eq_add.mp h).trans (BitVec.zero_add _))
  unfold acceptFlit
  rw [if_neg hd, if_pos ⟨hlt, by rw [hnew]; rfl⟩]

/-- A sequence context after the delivery of a flit whose packet has lost none. -/
def delivering (f : Flit) (c : SeqRx) : SeqRx :=
  { c with expected := f.seq + 1, last := some f, delivered := c.delivered + 1, dropPkt := none }

/-- The flit that is next in sequence is delivered, and the last flit of its packet brings the packet. -/
theorem acceptFlit_next (hseq : f.seq = c.expected) (hheld : c.held = []) (hdrop : c.dropPkt ≠ some f.pkt) :
    acceptFlit now f c = (delivering f c, if f.last then [f.pkt] else []) := by
  simp [acceptFlit, takeFlit, drainHeld, delivering, hseq, hheld, hdrop]

theorem putSeq_acked_onlyChanges : OnlyChanges [.bridge] s (putSeq dst src c (acked k p s)) :=
  (Keeps.set_bridge rfl (modBridge_keeps rfl (keeps_self [.bridge] s))).onlyChanges

end

/-- Settles O29.  That the CRC is over the 64 bytes without inversion is the model's choice of log 135; that the hop count holds
the hop arriving and a retry counts at the sender that of log 58. -/
theorem bridgeFlits : Obligations.BridgeFlits := by
  unfold Obligations.BridgeFlits
  intro k p f s hg
  refine ⟨rfl, fun hbad => ?_, fun hgood hlimit => ?_, fun hgood hlimit hdst => ?_, fun hgood hlimit hdst => ⟨?_, ?_⟩⟩
  · exact ⟨_, exec_flitReceive hg (flitReceiveEffect_bad hbad), rfl, bridgeAt_modBridge_same,
      fun j q hjq => bridgeAt_modBridge_other hjq, rfl, rfl, rfl,
      (modBridge_keeps rfl (count1_keeps rfl (keeps_self _ s))).onlyChanges⟩
  · exact ⟨_, exec_flitReceive hg (flitReceiveEffect_atLimit hgood hlimit), bridgeAt_modBridge_same,
      fun j q hjq => bridgeAt_modBridge_other hjq, rfl, rfl, rfl, rfl,
      (count1_keeps rfl (modBridge_keeps rfl (keeps_self _ s))).onlyChanges⟩
  · refine ⟨_, exec_flitReceive hg (flitReceiveEffect_onward hgood hlimit hdst), sendFlits_rx, sendFlits_transit,
      (sendFlits_keeps rfl (modBridge_keeps rfl (keeps_self _ s))).onlyChanges, fun q hq => ?_⟩
    rw [sendFlits_of_route (s := acked k p s) hq, bridgeAt_modBridge_same, flits_fillRetry]
    simp
  · intro hne hlt hnew
    have hexec := exec_flitReceive hg (flitReceiveEffect_arrived hgood hlimit hdst)
    rw [acceptFlit_early hne hlt hnew, seqTake_eq, foldS_nil] at hexec
    refine ⟨_, hexec, putSeq_acked_onlyChanges, rfl, ?_⟩
    rw [seqAt_putSeq (by simp)]
    exact ⟨rfl, rfl, rfl⟩
  · intro hseq hheld hdrop
    have hctx : seqAt (putSeq k f.src (delivering f (seqAt s k f.src)) (acked k p s)) k f.src = delivering f (seqAt s k f.src) :=
      seqAt_putSeq (by simp [delivering])
    refine ⟨_, congrArg SeqRx.delivered hctx, congrArg SeqRx.expected hctx, (congrArg SeqRx.held hctx).trans hheld, rfl,
      putSeq_acked_onlyChanges, ?_⟩
    rw [exec_flitReceive hg (flitReceiveEffect_arrived hgood hlimit hdst), acceptFlit_next hseq hheld hdrop, seqTake_eq]
    cases f.last <;> rfl

/-! ## Bridge ports down and up (R24, R25, R27) -/

section
variable {k j d : SliceId} {p : BridgePort} {n : Nat} {f : State → State} {s : State}

theorem Keeps.bridgePorts {w : Comp → Bool} {c : Prop} {t : State} (h : Keeps w c s t) (hw : w .bridge = false) :
    t.bridge.ports = s.bridge.ports := congrArg BridgeAll.ports (h.same .bridge hw)

/-- Packets cut off are dropped, and no port changes: their frames let go buffers and count, and touch no bridge. -/
theorem dropTransit_ports : (dropTransit s).bridge.ports = s.bridge.ports := by
  have h : Keeps (within [.counters, .flags, .log, .rings, .ports, .bufs, .history]) False
      { s with bridge := { s.bridge with transit := s.bridge.transit.filter fun t => path s t.src.val t.dst.val } }
      (dropTransit s) := by
    unfold dropTransit
    simp only [Bool.not_not]
    exact foldS_keeps (fun t st hst => count1_keeps rfl (loseCarry_keeps rfl rfl rfl rfl rfl rfl rfl hst)) (keeps_self _ _)
  exact h.bridgePorts rfl

/-- What follows a change of links (routes, packets cut off, SPLIT and HEALED) leaves every port as the change made it. -/
theorem linkChange_ports : (linkChange f s).bridge.ports = (f s).bridge.ports := by
  have hdrop : (dropTransit (refreshReach (f s))).bridge.ports = (f s).bridge.ports := dropTransit_ports
  have hkeeps : Keeps (within [.counters, .flags, .mirror, .log, .history]) False (dropTransit (refreshReach (f s)))
      (linkChange f s) := by
    unfold linkChange
    extract_lets s1
    exact Keeps.ite (setFlag_keeps rfl rfl rfl rfl (keepMirror_keeps rfl (keeps_self _ s1)))
      (Keeps.ite (setFlag_keeps rfl rfl rfl rfl (keeps_self _ s1)) (keeps_self _ s1))
  exact (hkeeps.bridgePorts rfl).trans hdrop

theorem bridgeAt_linkChange {a b : Nat} : bridgeAt (linkChange f s) a b = bridgeAt (f s) a b := bridgeAt_congr linkChange_ports

/-- A port declared down is down, and its flits sent again on other ports leave it so. -/
theorem downPort_link : (bridgeAt (downPort k p s) k.val p.val).up = false ∧
    (bridgeAt (downPort k p s) k.val p.val).nextRetrain = s.now + msTicks := by
  unfold downPort resendFlits
  refine foldS_induction (P := fun t => (bridgeAt t k.val p.val).up = false ∧
    (bridgeAt t k.val p.val).nextRetrain = s.now + msTicks) (fun d t ht => ?_) ?_
  · dsimp only
    split
    · exact ht
    · rw [sendFlits_link.1, sendFlits_link.2]
      exact ht
  · have hdown := bridgeAt_modBridge_same (s := s) (k := k) (p := p)
      (g := fun b => { b with up := false, goodRun := 0, nextRetrain := s.now + msTicks, unacked := [], sendQ := [] })
    exact ⟨hdown ▸ rfl, hdown ▸ rfl⟩

theorem exec_bridgePortDown {c : BridgeDownCause} (h : bridgePortDownGuard k p c s = true) :
    exec (.bridgePortDown k p c) s = .next (bridgePortDownEffect k p s) := next_whenB h

theorem exec_bridgeRetrain (h : bridgeRetrainGuard k p s = true) :
    exec (.bridgeRetrain k p n) s = .next (bridgeRetrainEffect k p n s) := next_whenB h

theorem exec_bridgePortUp (h : bridgePortUpGuard k p s = true) :
    exec (.bridgePortUp k p) s = .next (bridgePortUpEffect k p s) := next_whenB h

theorem exec_routeTableInstall (h : present s k.val = true) :
    exec (.routeTableInstall k) s = .next (routeTableInstallEffect k s) := next_whenB h

theorem bridgePortDownEffect_link : (bridgeAt (bridgePortDownEffect k p s) k.val p.val).up = false ∧
    (bridgeAt (bridgePortDownEffect k p s) k.val p.val).nextRetrain = s.now + msTicks := by
  unfold bridgePortDownEffect
  rw [bridgeAt_linkChange]
  exact downPort_link

theorem bridgeAt_bridgeRetrainEffect : bridgeAt (bridgeRetrainEffect k p n s) k.val p.val =
    { bridgeAt s k.val p.val with goodRun := n, nextRetrain := s.now + msTicks } := bridgeAt_modBridge_same

theorem bridgeAt_bridgePortUpEffect : bridgeAt (bridgePortUpEffect k p s) k.val p.val =
    { bridgeAt s k.val p.val with up := true, goodRun := 0 } := bridgeAt_linkChange.trans bridgeAt_modBridge_same

theorem routes_routeTableInstallEffect_same : (routeTableInstallEffect k s).bridge.routes[k][d] = computeRoute s k d := by
  simp [routeTableInstallEffect]

theorem routes_routeTableInstallEffect_other (h : j ≠ k) :
    (routeTableInstallEffect k s).bridge.routes[j] = s.bridge.routes[j] := vmod_other _ k j (fun _ => _) h

end

/-- Settles O30: what follows a change of links leaves the ports as the change made them. -/
theorem bridgePortsDownAndUp : Obligations.BridgePortsDownAndUp := by
  unfold Obligations.BridgePortsDownAndUp
  intro k p s
  refine ⟨fun c hg => ?_, fun hg n => ?_, fun hg => ?_, fun hg => ?_⟩
  · obtain ⟨hup, hnext⟩ := bridgePortDownEffect_link (k := k) (p := p) (s := s)
    exact ⟨_, exec_bridgePortDown hg, hup, hnext,
      (bridgePortDownEffect_keeps rfl rfl rfl rfl rfl rfl rfl rfl rfl (keeps_self _ s)).onlyChanges⟩
  · refine ⟨_, exec_bridgeRetrain hg, ?_, ?_, ?_, (bridgeRetrainEffect_keeps rfl (keeps_self _ s)).onlyChanges⟩ <;>
      rw [bridgeAt_bridgeRetrainEffect]
  · obtain ⟨-, hrun⟩ := Bool.and_eq_true_iff.mp hg
    refine ⟨_, exec_bridgePortUp hg, of_decide_eq_true hrun, ?_,
      (bridgePortUpEffect_keeps rfl rfl rfl rfl rfl rfl rfl rfl rfl (keeps_self _ s)).onlyChanges⟩
    rw [bridgeAt_bridgePortUpEffect]
  · exact ⟨_, exec_routeTableInstall hg, fun d => routes_routeTableInstallEffect_same,
      fun j hj => routes_routeTableInstallEffect_other hj, rfl, rfl,
      (routeTableInstallEffect_keeps rfl (keeps_self _ s)).onlyChanges⟩

/-! ## The claim to the anchor (R34, R36, R37) -/

section
variable {h o : Half} {v high low : Bool} {st : AnchorSt} {n : Nat} {ms : List MboxId} {m : MboxId} {r : Response} {s t u : State}

/-! ### What the operations on the claim line do -/

theorem capAt_congr (hc : t.anchor = s.anchor) : capAt t o = capAt s o := congrArg (fun a => a.caps[o]) hc

theorem setDrive_caps : (setDrive h v s).anchor.caps = (modCap s h fun c => { c with drives := v }).anchor.caps := by
  unfold setDrive
  extract_lets s1
  split <;> rfl

@[simp] theorem capAt_setDrive_same : capAt (setDrive h v s) h = { capAt s h with drives := v } :=
  (congrArg (·[h]) setDrive_caps).trans (capAt_modCap_same ..)

theorem capAt_setDrive_other (ho : o ≠ h) : capAt (setDrive h v s) o = capAt s o :=
  (congrArg (·[o]) setDrive_caps).trans (capAt_modCap_other _ _ _ _ ho)

@[simp] theorem capAt_setAnchor_same : capAt (setAnchor h st s) h = { capAt s h with st := st, waits := false } :=
  capAt_modCap_same ..

theorem capAt_setAnchor_other (ho : o ≠ h) : capAt (setAnchor h st s) o = capAt s o := capAt_modCap_other _ _ _ _ ho

@[simp] theorem capAt_senseLine : capAt (senseLine v s) o = capAt s o := by
  unfold senseLine
  split <;> rfl

/-- Where neither slice drives the line, what is read shows whether it is stuck (log 136). -/
theorem senseLine_undriven (h0 : drives s 0 = false) (h1 : drives s 1 = false) : (senseLine v s).anchor.stuckLow = !v := by
  simp [senseLine, h0, h1]

theorem capAt_leaveAnchor_same :
    capAt (leaveAnchor h st s) h = { capAt s h with st := st, drives := false, waits := false, handoverAt := none } := by
  unfold leaveAnchor
  exact (capAt_modCap_same ..).trans (by rw [capAt_setAnchor_same, capAt_setDrive_same])

theorem capAt_leaveAnchor_other (ho : o ≠ h) : capAt (leaveAnchor h st s) o = capAt s o := by
  unfold leaveAnchor
  exact (capAt_modCap_other _ _ _ _ ho).trans ((capAt_setAnchor_other ho).trans (capAt_setDrive_other ho))

/-! ### What a takeover leaves of the anchor's state -/

/-- Both slices are in the same anchor states, and the PCIe link is as it was. -/
def SameRoles (s t : State) : Prop := (∀ o, (capAt t o).st = (capAt s o).st) ∧ t.anchor.pcieUp = s.anchor.pcieUp

theorem SameRoles.trans (h1 : SameRoles s t) (h2 : SameRoles t u) : SameRoles s u :=
  ⟨fun o => (h2.1 o).trans (h1.1 o), h2.2.trans h1.2⟩

theorem SameRoles.of_anchor (h : t.anchor = s.anchor) : SameRoles s t :=
  ⟨fun _ => congrArg AnchorCap.st (capAt_congr h), congrArg AnchorAll.pcieUp h⟩

theorem Keeps.sameRoles {w : Comp → Bool} {k : Prop} (h : Keeps w k s t) (hw : w .anchor = false) : SameRoles s t :=
  SameRoles.of_anchor (h.same .anchor hw)

theorem SameRoles.refl (s : State) : SameRoles s s := SameRoles.of_anchor rfl

theorem SameRoles.ite {c : Prop} [Decidable c] (ht : SameRoles s t) (hu : SameRoles s u) :
    SameRoles s (if c then t else u) := by split <;> assumption

theorem foldS_sameRoles {α : Type} {l : List α} {f : α → State → State} (hf : ∀ x t, SameRoles t (f x t)) :
    SameRoles s (foldS l f s) :=
  foldS_induction (P := SameRoles s) (fun x t ht => ht.trans (hf x t)) (SameRoles.refl s)

/-- The deputy's copy of a response goes with the generations that it recorded; its state stays. -/
theorem mirrorCopy_sameRoles : SameRoles s (mirrorCopy m r s) := by
  unfold mirrorCopy
  split
  next h d _ _ =>
    refine ⟨fun o => ?_, rfl⟩
    by_cases ho : o = d
    · subst ho
      rw [capAt_modCap_same]
      rfl
    · rw [capAt_modCap_other _ _ _ _ ho]
      rfl
  next => exact SameRoles.refl s

theorem respond_sameRoles {e : Status} {x : List Byte} : SameRoles s (respond m e x s) := by
  have hkeeps : Keeps (within [.env, .mail, .log]) False (mirrorCopy m (stampResponse s e (boxAt s m).req.seq x) s)
      (respond m e x s) := by
    unfold respond
    extract_lets b r s1 s2 _ s3
    have h3 : Keeps (within [.env, .mail, .log]) False s1 s3 :=
      Keeps.set_mail rfl (serviceAnswer_keeps rfl (modBox_keeps rfl (keeps_self _ s1)))
    exact Keeps.ite (causeVec_keeps rfl h3) h3
  exact mirrorCopy_sameRoles.trans (hkeeps.sameRoles rfl)

theorem takeBox_sameRoles : SameRoles s (takeBox m s) := by
  unfold takeBox
  extract_lets b
  split
  · split
    · split
      · exact SameRoles.of_anchor rfl
      · exact respond_sameRoles
    · exact respond_sameRoles
  · exact SameRoles.refl s

theorem undoLong_sameRoles {x : LongKind} : SameRoles s (undoLong x s) :=
  (undoLong_keeps rfl rfl rfl rfl rfl rfl (keeps_self [.counters, .flags, .log, .hbm, .image, .history] s)).sameRoles rfl

theorem takeBoxes_sameRoles : SameRoles s (takeBoxes ms s) := by
  unfold takeBoxes
  extract_lets s1 s2
  have h1 : SameRoles s s1 := foldS_sameRoles fun c t => undoLong_sameRoles
  have h2 : SameRoles s1 s2 := foldS_sameRoles fun m t => takeBox_sameRoles
  exact (h1.trans h2).trans (SameRoles.of_anchor rfl)

theorem count1_sameRoles {a : Nat} : SameRoles s (count1 a s) := SameRoles.of_anchor rfl

theorem setFlag_sameRoles {a b : Nat} : SameRoles s (setFlag a b s) :=
  (setFlag_keeps rfl rfl rfl rfl (keeps_self [.counters, .flags, .log, .history] s)).sameRoles rfl

theorem logEvent_sameRoles {code : BitVec 16} {sev : Severity} {source : Byte} {data : List Byte} :
    SameRoles s (logEvent code sev source data s) :=
  (logEvent_keeps rfl rfl rfl rfl (keeps_self [.counters, .flags, .log, .history] s)).sameRoles rfl

/-! ### What the rows lead to -/

theorem capAt_claimLineFreeEffect_same :
    (capAt (claimLineFreeEffect h true s) h).st = .elect ∧ (capAt (claimLineFreeEffect h true s) h).drives = true := by
  unfold claimLineFreeEffect
  extract_lets boot s1
  rw [if_pos rfl, capAt_setDrive_same, capAt_modCap_same, capAt_setAnchor_same]
  exact ⟨rfl, rfl⟩

theorem capAt_claimLineFreeEffect_other (ho : o ≠ h) : capAt (claimLineFreeEffect h true s) o = capAt s o := by
  unfold claimLineFreeEffect
  extract_lets boot s1
  rw [if_pos rfl, capAt_setDrive_other ho, capAt_modCap_other _ _ _ _ ho, capAt_setAnchor_other ho, capAt_senseLine]

theorem claimLineFreeEffect_low : claimLineFreeEffect h false s = senseLine false s := by simp [claimLineFreeEffect]

/-- A slice that enters ANCHOR is in ANCHOR with the link down: the mirror is loaded before, and what follows keeps both. -/
theorem enterAnchor_role : (capAt (enterAnchor h s) h).st = .anchor ∧ (enterAnchor h s).anchor.pcieUp = false := by
  unfold enterAnchor
  extract_lets boot stale s1 a s2 s3 fw s4
  have hclaim : (capAt s2 h).st = .anchor := by
    have h1 : (capAt s1 h).st = .anchor := by simp [s1]
    exact h1
  have htaken : SameRoles s2 s3 :=
    SameRoles.ite (SameRoles.refl s2) (takeBoxes_sameRoles.trans (count1_sameRoles.trans setFlag_sameRoles))
  have hstart : SameRoles s3 s4 := SameRoles.ite (SameRoles.refl s3) (SameRoles.of_anchor rfl)
  obtain ⟨hst, hlink⟩ := htaken.trans (hstart.trans logEvent_sameRoles)
  exact ⟨(hst h).trans hclaim, hlink⟩

/-- A slice that enters ABSTAIN drives the line no more, and the flag and the record that follow leave it so. -/
theorem abstain_cap : (capAt (abstain h n s) h).st = .abstain ∧ (capAt (abstain h n s) h).drives = false := by
  unfold abstain
  extract_lets s1
  have hkeeps : Keeps (within [.counters, .flags, .log, .history]) False s1
      (logEvent 0x0102 .critical (BitVec.ofNat 8 h.val) [BitVec.ofNat 8 h.val, BitVec.ofNat 8 n] (setFlag aAnchorFlags 1 s1)) :=
    logEvent_keeps rfl rfl rfl rfl (setFlag_keeps rfl rfl rfl rfl (keeps_self _ s1))
  rw [capAt_congr (hkeeps.same .anchor rfl)]
  unfold s1
  split
  · rw [capAt_leaveAnchor_same]
    exact ⟨rfl, rfl⟩
  · rw [capAt_setAnchor_same, capAt_setDrive_same]
    exact ⟨rfl, rfl⟩

/-- What a probe has read of a line that the other slice does not drive (log 136). -/
def probedLine (h : Half) (high : Bool) (s : State) : State :=
  if drives s (otherOf h) then s else { s with anchor := { s.anchor with stuckLow := !high } }

theorem claimProbeEffect_claimed (hst : (capAt s h).st = .elect) (hsee : seesClaim s h low high = true) :
    claimProbeEffect h low high s = enterAnchor h (probedLine h high s) := by
  simp only [claimProbeEffect, hst, hsee, beq_self_eq_true, if_true, probedLine]

theorem claimProbeEffect_unclaimed (hst : (capAt s h).st = .elect) (hsee : seesClaim s h low high = false) :
    claimProbeEffect h low high s = abstain h 1 (probedLine h high s) := by
  simp only [claimProbeEffect, hst, hsee, beq_self_eq_true, if_true, Bool.false_eq_true, if_false, probedLine]

theorem exec_claimLineFree (hg : claimLineFreeGuard h v s = true) :
    exec (.claimLineFree h v) s = .next (claimLineFreeEffect h v s) := next_whenB hg

theorem exec_claimProbe (hg : claimProbeGuard h s = true) :
    exec (.claimProbe h low high) s = .next (claimProbeEffect h low high s) := next_whenB hg

theorem exec_anchorOwnFault (hg : anchorOwnFaultGuard h s = true) :
    exec (.anchorOwnFault h) s = .next (leaveAnchor h .faulted s) := next_whenB hg

/-- A slice reads the line only where neither slice drives it. -/
theorem undriven_of_claimLineFreeGuard (hg : claimLineFreeGuard h v s = true) : drives s 0 = false ∧ drives s 1 = false := by
  simp only [claimLineFreeGuard, Bool.and_eq_true, Bool.not_eq_true'] at hg
  obtain ⟨⟨⟨-, h0⟩, h1⟩, -⟩ := hg
  exact ⟨h0, h1⟩

end

/-- Settles O31.  That a line which reads low undriven is stuck is the model's choice of log 136. -/
theorem claimingTheAnchor : Obligations.ClaimingTheAnchor := by
  unfold Obligations.ClaimingTheAnchor
  intro h s
  refine ⟨fun hg => ?_, fun hg => ?_, fun hg hst low high => ?_, fun hg => ?_⟩
  · obtain ⟨hst, hdrives⟩ := capAt_claimLineFreeEffect_same (h := h) (s := s)
    exact ⟨_, exec_claimLineFree hg, hst, hdrives, fun o ho => capAt_claimLineFreeEffect_other ho,
      (claimLineFreeEffect_keeps rfl (keeps_self _ s)).onlyChanges⟩
  · obtain ⟨h0, h1⟩ := undriven_of_claimLineFreeGuard hg
    refine ⟨_, exec_claimLineFree hg, ?_⟩
    rw [claimLineFreeEffect_low]
    exact ⟨fun o => capAt_senseLine, senseLine_undriven h0 h1, (senseLine_keeps rfl (keeps_self _ s)).onlyChanges⟩
  · refine ⟨_, exec_claimProbe hg, fun hsee => ?_, fun hsee => ?_⟩
    · rw [claimProbeEffect_claimed hst hsee]
      exact enterAnchor_role
    · rw [claimProbeEffect_unclaimed hst hsee]
      exact abstain_cap
  · refine ⟨_, exec_anchorOwnFault hg, ?_, ?_, rfl, fun o ho => capAt_leaveAnchor_other ho,
      (leaveAnchor_keeps rfl (keeps_self _ s)).onlyChanges⟩ <;> rw [capAt_leaveAnchor_same]

end Sys2Proof.Machine
end

section
/-!
PROOFS.  The statements about the downstream framing: header errors (O32), block lock, reassembly and settle windows (O33) and the
port filter (O34).
-/
namespace Sys2Proof.Machine

/-! ## Header errors (R64, R65) -/

/-! ### CRCs are linear -/

/-- What a CRC step adds to the shifted register: the polynomial, where the bit shifted out and the bit of the stream differ. -/
def crcFeedback {w : Nat} (p : BitVec w) (out : Bool) : BitVec w := if out then p else 0

theorem crcFeedback_xor {w : Nat} (p : BitVec w) (a b : Bool) :
    crcFeedback p (a ^^ b) = crcFeedback p a ^^^ crcFeedback p b := by cases a <;> cases b <;> simp [crcFeedback]

theorem crcStep_eq {w : Nat} (p c : BitVec w) (b : Bool) : crcStep p c b = (c <<< 1) ^^^ crcFeedback p (c.msb ^^ b) := by
  unfold crcStep crcFeedback
  split <;> simp_all

theorem crcStep_xor {w : Nat} (p c d : BitVec w) (a b : Bool) :
    crcStep p (c ^^^ d) (a ^^ b) = crcStep p c a ^^^ crcStep p d b := by
  have hout : ((c ^^^ d).msb ^^ (a ^^ b)) = ((c.msb ^^ a) ^^ (d.msb ^^ b)) := by
    simp [BitVec.msb_xor, Bool.xor_left_comm]
  simp only [crcStep_eq, hout, crcFeedback_xor, BitVec.shiftLeft_xor_distrib]
  ac_rfl

/-- Run over the XOR of two streams from the XOR of two states, a CRC ends in the XOR of what the two runs end in. -/
theorem crcBits_xor {α : Type} {w : Nat} (p c d : BitVec w) (l : List α) (f g : α → Bool) :
    crcBits p (c ^^^ d) (l.map fun x => f x ^^ g x) = crcBits p c (l.map f) ^^^ crcBits p d (l.map g) := by
  induction l generalizing c d with
  | nil => rfl
  | cons x l ih =>
    simp only [crcBits, List.map_cons, List.foldl_cons, crcStep_xor] at ih ⊢
    exact ih _ _

theorem crcBits_bitsMsb_xor {w n : Nat} (p c d : BitVec w) (a b : BitVec n) (k : Nat) :
    crcBits p (c ^^^ d) ((bitsMsb (a ^^^ b)).take k) =
      crcBits p c ((bitsMsb a).take k) ^^^ crcBits p d ((bitsMsb b).take k) := by
  simp only [bitsMsb, ← List.map_take, BitVec.getLsbD_xor]
  exact crcBits_xor ..

/-! ### The syndrome of a pattern of errors -/

/-- The pattern that inverts bit `i` of a header. -/
def bitError (i : Nat) : BitVec 64 := 1#64 <<< i

/-- The syndrome of a pattern of inverted bits: the HEC computed with initial value 0, against the HEC that arrived. -/
def hecSyndrome (e : BitVec 64) : BitVec 16 := crcBits 0x1021#16 0#16 ((bitsMsb e).take 48) ^^^ e.extractLsb' 0 16

/-- The parity of a syndrome: its remainder modulo the polynomial x + 1. -/
def parity (v : BitVec 16) : BitVec 1 := crcBits 1#1 0#1 ((bitsMsb v).take 16)

theorem hecSyndrome_xor (a b : BitVec 64) : hecSyndrome (a ^^^ b) = hecSyndrome a ^^^ hecSyndrome b := by
  have hcrc := crcBits_bitsMsb_xor 0x1021#16 0#16 0#16 a b 48
  rw [BitVec.xor_self] at hcrc
  rw [hecSyndrome, hcrc, BitVec.extractLsb'_xor, hecSyndrome, hecSyndrome]
  ac_rfl

theorem parity_xor (a b : BitVec 16) : parity (a ^^^ b) = parity a ^^^ parity b := crcBits_bitsMsb_xor 1#1 0#1 0#1 a b 16

/-- Errors leave a correct header correct just where their syndrome is zero. -/
theorem hecOk_xor {h : BitVec 64} (hok : hecOk h = true) (e : BitVec 64) : hecOk (h ^^^ e) = true ↔ hecSyndrome e = 0#16 := by
  have hcrc : hecOf (h ^^^ e) = hecOf h ^^^ crcBits 0x1021#16 0#16 ((bitsMsb e).take 48) :=
    crcBits_bitsMsb_xor 0x1021#16 0xFFFF#16 0#16 h e 48
  have hh : hecOf h = h.extractLsb' 0 16 := eq_of_beq hok
  have hsplit : hecOf (h ^^^ e) ^^^ (h ^^^ e).extractLsb' 0 16 = hecSyndrome e :=
    calc hecOf (h ^^^ e) ^^^ (h ^^^ e).extractLsb' 0 16
      _ = (h.extractLsb' 0 16 ^^^ h.extractLsb' 0 16) ^^^ hecSyndrome e := by
        rw [hcrc, BitVec.extractLsb'_xor, hh, hecSyndrome]
        ac_rfl
      _ = hecSyndrome e := by rw [BitVec.xor_self, BitVec.zero_xor]
  rw [← hsplit, hecOk, beq_iff_eq]
  exact BitVec.xor_eq_zero_iff.symm

/-- x + 1 divides the generator, so that one inverted bit gives a syndrome of odd parity. -/
theorem parity_hecSyndrome_bitError : ∀ i < 64, parity (hecSyndrome (bitError i)) = 1#1 := by decide +kernel

theorem nodup_hecSyndrome_bitError : ((List.range 64).map fun i => hecSyndrome (bitError i)).Nodup := by decide +kernel

theorem ne_zero_of_parity {v : BitVec 16} (h : parity v = 1#1) : v ≠ 0#16 := by
  rintro rfl
  exact absurd h (by decide +kernel)

theorem hecSyndrome_bitError_ne_zero {i : Nat} (hi : i < 64) : hecSyndrome (bitError i) ≠ 0#16 :=
  ne_zero_of_parity (parity_hecSyndrome_bitError i hi)

/-- Single errors at different bits have different syndromes. -/
theorem hecSyndrome_bitError_inj {i j : Nat} (hi : i < 64) (hj : j < 64) :
    hecSyndrome (bitError i) = hecSyndrome (bitError j) ↔ i = j := by
  have hinj := List.getElem_inj (i := i) (j := j) (h₀ := by rwa [List.length_map, List.length_range])
    (h₁ := by rwa [List.length_map, List.length_range]) nodup_hecSyndrome_bitError
  rwa [List.getElem_map, List.getElem_map, List.getElem_range, List.getElem_range] at hinj

theorem hecSyndrome_two_eq_zero_iff {i j : Nat} (hi : i < 64) (hj : j < 64) :
    hecSyndrome (bitError i ^^^ bitError j) = 0#16 ↔ i = j := by
  rw [hecSyndrome_xor, BitVec.xor_eq_zero_iff, hecSyndrome_bitError_inj hi hj]

theorem hecSyndrome_three_ne_zero {i j k : Nat} (hi : i < 64) (hj : j < 64) (hk : k < 64) :
    hecSyndrome (bitError i ^^^ bitError j ^^^ bitError k) ≠ 0#16 := by
  refine ne_zero_of_parity ?_
  simp only [hecSyndrome_xor, parity_xor, parity_hecSyndrome_bitError, hi, hj, hk]
  decide

/-! ### Correction -/

section
variable {h c : BitVec 64} {i j : Nat}

theorem hecOk_oneError (hok : hecOk h = true) (hi : i < 64) : hecOk (h ^^^ bitError i) = false :=
  Bool.eq_false_iff.mpr (mt (hecOk_xor hok _).mp (hecSyndrome_bitError_ne_zero hi))

theorem hecOk_twoErrors_iff (hok : hecOk h = true) (hi : i < 64) (hj : j < 64) :
    hecOk (h ^^^ bitError i ^^^ bitError j) = true ↔ i = j := by
  rw [BitVec.xor_assoc, hecOk_xor hok, hecSyndrome_two_eq_zero_iff hi hj]

theorem hecOk_twoErrors (hok : hecOk h = true) (hi : i < 64) (hj : j < 64) (hij : i ≠ j) :
    hecOk (h ^^^ bitError i ^^^ bitError j) = false := Bool.eq_false_iff.mpr (mt (hecOk_twoErrors_iff hok hi hj).mp hij)

theorem hecOk_threeErrors {k : Nat} (hok : hecOk h = true) (hi : i < 64) (hj : j < 64) (hk : k < 64) :
    hecOk (h ^^^ bitError i ^^^ bitError j ^^^ bitError k) = false := by
  rw [BitVec.xor_assoc, BitVec.xor_assoc, ← BitVec.xor_assoc (bitError i)]
  exact Bool.eq_false_iff.mpr (mt (hecOk_xor hok _).mp (hecSyndrome_three_ne_zero hi hj hk))

theorem hecCorrect_eq_some (hc : hecCorrect h = some c) : ∃ k < 64, c = h ^^^ bitError k ∧ hecOk c = true := by
  obtain ⟨k, hk, rfl⟩ := List.mem_map.mp (List.mem_of_find?_eq_some hc)
  exact ⟨k, List.mem_range.mp hk, rfl, List.find?_some hc⟩

theorem hecCorrect_eq_none_iff : hecCorrect h = none ↔ ∀ k < 64, hecOk (h ^^^ bitError k) = false := by
  simp [hecCorrect, bitError]

/-- One inverted bit is put right: no other bit explains the syndrome. -/
theorem hecCorrect_oneError (hok : hecOk h = true) (hi : i < 64) : hecCorrect (h ^^^ bitError i) = some h := by
  have hback : h ^^^ bitError i ^^^ bitError i = h := by rw [BitVec.xor_assoc, BitVec.xor_self, BitVec.xor_zero]
  cases hc : hecCorrect (h ^^^ bitError i) with
  | none =>
    have hbad := hecCorrect_eq_none_iff.mp hc i hi
    rw [hback, hok] at hbad
    cases hbad
  | some c =>
    obtain ⟨k, hk, rfl, hck⟩ := hecCorrect_eq_some hc
    obtain rfl := (hecOk_twoErrors_iff hok hi hk).mp hck
    rw [hback]

/-- Two inverted bits are never taken for one. -/
theorem hecCorrect_twoErrors (hok : hecOk h = true) (hi : i < 64) (hj : j < 64) :
    hecCorrect (h ^^^ bitError i ^^^ bitError j) = none :=
  hecCorrect_eq_none_iff.mpr fun _ hk => hecOk_threeErrors hok hi hj hk

end

/-! ### What a header received does -/

section
variable {lane : Lane} {word : Nat} {h c : BitVec 64} {g : GroupId} {s : State}

theorem exec_trunkPacketHeaderRx (hg : trunkPacketHeaderRxGuard lane word s = true) :
    exec (.trunkPacketHeaderRx lane word) s = .next (trunkPacketHeaderRxEffect lane s) := next_whenB hg

/-- The row acts on the word at the head of the chain. -/
theorem nextWord_of_trunkPacketHeaderRxGuard (hg : trunkPacketHeaderRxGuard lane word s = true) :
    (laneAt s lane).nextWord = word := by
  simp only [trunkPacketHeaderRxGuard, Bool.and_eq_true, beq_iff_eq] at hg
  obtain ⟨⟨-, hword⟩, -⟩ := hg
  exact hword.symm

variable (hgr : laneGroup s lane = some g) (hrx : rxWords (laneAt s lane) (laneAt s lane).nextWord 1 = [h])
include hgr hrx

theorem trunkPacketHeaderRxEffect_ok (hok : hecOk h = true) : trunkPacketHeaderRxEffect lane s = acceptHeader g lane h s := by
  simp [trunkPacketHeaderRxEffect, hgr, hrx, hok]

theorem trunkPacketHeaderRxEffect_corrected (hbad : hecOk h = false) (hc : hecCorrect h = some c) :
    trunkPacketHeaderRxEffect lane s = acceptHeader g lane c (count1 (aTrk lane 0x40) s) := by
  simp [trunkPacketHeaderRxEffect, hgr, hrx, hbad, hc]

theorem trunkPacketHeaderRxEffect_uncorrectable (hbad : hecOk h = false) (hc : hecCorrect h = none) :
    trunkPacketHeaderRxEffect lane s = loseDelineation lane (count1 (aTrk lane 0x48) s) := by
  simp [trunkPacketHeaderRxEffect, hgr, hrx, hbad, hc]

end

/-- Settles O32: the syndromes of single errors differ and have odd parity, so that no pattern of two errors has the syndrome of
one. -/
theorem headerErrorsCorrectedOrDetected : Obligations.HeaderErrorsCorrectedOrDetected := by
  unfold Obligations.HeaderErrorsCorrectedOrDetected
  intro lane word h g s hok hguard hgr
  rw [exec_trunkPacketHeaderRx hguard, ← nextWord_of_trunkPacketHeaderRxGuard hguard]
  refine ⟨fun hrx => ?_, fun i hi hrx => ?_, fun i j hi hj hij hrx => ?_⟩
  · rw [trunkPacketHeaderRxEffect_ok hgr hrx hok]
  · rw [trunkPacketHeaderRxEffect_corrected hgr hrx (hecOk_oneError hok hi) (hecCorrect_oneError hok hi)]
  · rw [trunkPacketHeaderRxEffect_uncorrectable hgr hrx (hecOk_twoErrors hok hi hj hij) (hecCorrect_twoErrors hok hi hj)]

/-! ## Block lock (R56) -/

section
variable {lane l : Lane} {counts : List Nat} {llos : Bool} {p : Nat} {s t : State}

theorem exec_blockLockWindow (hg : blockLockWindowGuard lane counts s = true) :
    exec (.blockLockWindow lane counts) s = .next (blockLockWindowEffect lane counts s) := next_whenB hg

theorem exec_blockLockLost (hg : blockLockLostGuard lane llos s = true) :
    exec (.blockLockLost lane llos) s = .next (blockLockLostEffect lane llos s) := next_whenB hg

theorem laneAt_congr (h : t.trunk.lanes = s.trunk.lanes) : laneAt t l = laneAt s l := congrArg (·[l]) h

theorem Keeps.trunkLanes {w : Comp → Bool} {k : Prop} (h : Keeps w k s t) (hw : w .lanes = false) :
    t.trunk.lanes = s.trunk.lanes := by
  obtain ⟨hlanes, -, -⟩ := h.same .lanes hw
  exact hlanes

theorem laneAt_setFlag {a b : Nat} : laneAt (setFlag a b s) l = laneAt s l :=
  laneAt_congr ((setFlag_keeps (w := within [.counters, .flags, .log, .history]) rfl rfl rfl rfl (keeps_self _ s)).trunkLanes rfl)

/-- A lane after block lock at a position. -/
def lockedAt (p : Nat) (x : LaneSt) : LaneSt := { x with blockLock := true, lockPos := p, align := .hunt, cands := [] }

/-- A lane without block lock locks at the lowest position that qualifies (log 118). -/
theorem blockLockWindowEffect_lock (hlock : (laneAt s lane).blockLock = false) (hp : p < 257) (hcount : counts.getD p 1024 ≤ 80)
    (hfirst : ∀ q < p, 80 < counts.getD q 1024) : blockLockWindowEffect lane counts s = modLane s lane (lockedAt p) := by
  have hfind : ((List.range 257).find? fun q => decide (counts.getD q 1024 ≤ 80)) = some p :=
    List.find?_range_eq_some.mpr ⟨decide_eq_true hcount, List.mem_range.mpr hp, fun q hq => by simpa using hfirst q hq⟩
  simp only [blockLockWindowEffect, hlock, hfind, Bool.false_eq_true, if_false]
  rfl

theorem blockLockWindowEffect_unlocked (hlock : (laneAt s lane).blockLock = false)
    (hcounts : ∀ q < 257, 80 < counts.getD q 1024) : blockLockWindowEffect lane counts s = s := by
  have hfind : ((List.range 257).find? fun q => decide (counts.getD q 1024 ≤ 80)) = none := by
    simpa [List.find?_range_eq_none] using hcounts
  simp only [blockLockWindowEffect, hlock, hfind, Bool.false_eq_true, if_false]

theorem blockLockWindowEffect_kept (hlock : (laneAt s lane).blockLock = true)
    (hcount : counts.getD (laneAt s lane).lockPos 1024 ≤ 80) : blockLockWindowEffect lane counts s = s := by
  simp only [blockLockWindowEffect, hlock, if_true, if_neg (Nat.not_lt.mpr hcount)]

theorem blockLockWindowEffect_lost (hlock : (laneAt s lane).blockLock = true)
    (hcount : 80 < counts.getD (laneAt s lane).lockPos 1024) : blockLockWindowEffect lane counts s = loseBlockLock lane s := by
  simp only [blockLockWindowEffect, hlock, if_true, if_pos hcount]

/-- A lane that has lost block lock is in HUNT, whatever leaving SYNC did before. -/
theorem loseBlockLock_lane : (laneAt (loseBlockLock lane s) lane).blockLock = false ∧
    (laneAt (loseBlockLock lane s) lane).align = .hunt := by
  unfold loseBlockLock
  extract_lets s1
  rw [laneAt_setFlag, laneAt_modLane_same]
  exact ⟨rfl, rfl⟩

theorem pins_loseBlockLock : (loseBlockLock lane s).pins = s.pins :=
  (loseBlockLock_keeps (w := fun c => c != .pins) (k := False) rfl rfl rfl rfl rfl rfl rfl rfl rfl rfl rfl rfl rfl rfl
    (Keeps.refl _ s False.elim)).same .pins rfl

/-- The level at a lane's status input. -/
def putLlos (lane : Lane) (llos : Bool) (s : State) : State := { s with pins := { s.pins with llos := s.pins.llos.set lane llos } }

theorem llos_putLlos_same : (putLlos lane llos s).pins.llos[lane] = llos := by simp [putLlos]

theorem llos_putLlos_other (h : l ≠ lane) : (putLlos lane llos s).pins.llos[l] = s.pins.llos[l] :=
  vmod_other _ lane l (fun _ => llos) h

theorem lineSignal_putLlos : lineSignal (putLlos lane llos s) lane = (s.serdes.cdrLock[lineSerial lane] && !llos) := by
  simp [lineSignal, putLlos]

theorem blockLockLostEffect_eq : blockLockLostEffect lane llos s =
    if (laneAt s lane).blockLock && !lineSignal (putLlos lane llos s) lane then loseBlockLock lane (putLlos lane llos s)
    else putLlos lane llos s := rfl

theorem pins_blockLockLostEffect : (blockLockLostEffect lane llos s).pins = (putLlos lane llos s).pins := by
  rw [blockLockLostEffect_eq]
  split
  · exact pins_loseBlockLock
  · rfl

theorem blockLockLostEffect_lost (hlock : (laneAt s lane).blockLock = true)
    (hsig : llos = true ∨ s.serdes.cdrLock[lineSerial lane] = false) :
    blockLockLostEffect lane llos s = loseBlockLock lane (putLlos lane llos s) := by
  rw [blockLockLostEffect_eq, if_pos]
  rw [hlock, lineSignal_putLlos]
  rcases hsig with h | h <;> simp [h]

theorem blockLockLostEffect_level
    (h : (laneAt s lane).blockLock = false ∨ llos = false ∧ s.serdes.cdrLock[lineSerial lane] = true) :
    blockLockLostEffect lane llos s = putLlos lane llos s := by
  rw [blockLockLostEffect_eq, if_neg]
  rw [lineSignal_putLlos]
  rcases h with h | ⟨hl, hc⟩
  · simp [h]
  · simp [hl, hc]

theorem putLlos_onlyChanges : OnlyChanges [.pins] s (putLlos lane llos s) := (Keeps.set_pins rfl (keeps_self _ s)).onlyChanges

end

/-! ## Reassembly contexts and settle windows (R72, R74, R75) -/

section
variable {lane l : Lane} {p : PortTag} {c : ReasmCtx} {n t0 : Nat} {s : State}

theorem exec_reasmTimeout (hg : reasmTimeoutGuard lane p s = true) :
    exec (.reasmTimeout lane p) s = .next (reasmTimeoutEffect lane p s) := next_whenB hg

theorem exec_reasmDiscardExpiry (hg : reasmDiscardExpiryGuard lane p s = true) :
    exec (.reasmDiscardExpiry lane p) s = .next (reasmDiscardExpiryEffect lane p s) := next_whenB hg

theorem exec_settleWindowClose {q : Option PortTag} (hg : settleWindowCloseGuard lane q s = true) :
    exec (.settleWindowClose lane q) s = .next (settleWindowCloseEffect lane q s) := next_whenB hg

/-- A packet on its way out of the extractor changes no line lane. -/
theorem lanes_deliverDown {g : GroupId} {stamp : BitVec 96} {bytes : FrameBytes} :
    (deliverDown g l p stamp bytes s).trunk.lanes = s.trunk.lanes :=
  (deliverDown_keeps (w := within [.counters, .flags, .bridge, .log, .rings, .ports, .ingress, .bufs, .fabric, .history])
    rfl rfl rfl rfl rfl rfl rfl rfl rfl rfl (keeps_self _ s)).trunkLanes rfl

theorem lanes_releaseFront {g : GroupId} : (releaseFront g p s).trunk.lanes = s.trunk.lanes := by
  unfold releaseFront
  refine foldS_induction (P := fun t => t.trunk.lanes = s.trunk.lanes) (fun e t ht => ?_) rfl
  split
  · exact lanes_deliverDown.trans ht
  · exact ht

theorem lanes_dropTicket : (dropTicket n s).trunk.lanes = s.trunk.lanes := by
  unfold dropTicket
  split
  · exact lanes_releaseFront
  · rfl

theorem laneAt_giveUpCtx : laneAt (giveUpCtx lane n s) l = laneAt s l := by
  unfold giveUpCtx
  split
  · exact laneAt_congr lanes_dropTicket
  · rfl

/-- A context of which the packet is given up: in DISCARD since `now`, with nothing collected (R74). -/
def discardedAt (now : Nat) (x : ReasmCtx) : ReasmCtx := { x with discard := true, discardAt := now, bytes := [] }

theorem contexts_discardCtx : (laneAt (discardCtx lane n s) lane).contexts =
    (laneAt s lane).contexts.map fun x => if x.id = n then discardedAt s.now x else x := by
  rw [discardCtx, modCtx, laneAt_modLane_same, laneAt_giveUpCtx]
  rfl

theorem laneAt_discardCtx_other (hl : l ≠ lane) : laneAt (discardCtx lane n s) l = laneAt s l := by
  rw [discardCtx, modCtx, laneAt_modLane_other _ _ _ _ hl, laneAt_giveUpCtx]

theorem contexts_freeCtx : (laneAt (freeCtx lane n s) lane).contexts =
    (laneAt s lane).contexts.filter fun x => x.id != n := by
  rw [freeCtx, dropCtx, laneAt_modLane_same, laneAt_giveUpCtx]

theorem laneAt_freeCtx_other (hl : l ≠ lane) : laneAt (freeCtx lane n s) l = laneAt s l := by
  rw [freeCtx, dropCtx, laneAt_modLane_other _ _ _ _ hl, laneAt_giveUpCtx]

theorem reasmTimeoutGuard_of_open (hc : openCtx (laneAt s lane) p = some c) (hd : c.discard = false)
    (hdue : c.startAt + 50 * usTicks ≤ s.now) : reasmTimeoutGuard lane p s = true := by
  simp [reasmTimeoutGuard, hc, hd, since, hdue]

theorem reasmTimeoutEffect_of_open (hc : openCtx (laneAt s lane) p = some c) :
    reasmTimeoutEffect lane p s = discardCtx lane c.id (count1 (aTrk lane 0x98) s) := by
  simp only [reasmTimeoutEffect, hc]

theorem reasmDiscardExpiryGuard_of_open (hc : openCtx (laneAt s lane) p = some c) (hd : c.discard = true)
    (hdue : c.discardAt + msTicks ≤ s.now) : reasmDiscardExpiryGuard lane p s = true := by
  simp [reasmDiscardExpiryGuard, hc, hd, since, hdue]

theorem reasmDiscardExpiryEffect_of_open (hc : openCtx (laneAt s lane) p = some c) :
    reasmDiscardExpiryEffect lane p s = freeCtx lane c.id s := by
  simp only [reasmDiscardExpiryEffect, hc]

theorem settleWindowCloseGuard_lane (hw : (laneAt s lane).settleLane = some t0) (hdue : t0 + 50 * usTicks ≤ s.now) :
    settleWindowCloseGuard lane none s = true := by
  simp [settleWindowCloseGuard, hw, since, hdue]

/-- A lane of which the settle window has closed. -/
def windowClosed (x : LaneSt) : LaneSt := { x with settleLane := none, settled := [] }

theorem settleWindowCloseEffect_lane : settleWindowCloseEffect lane none s = modLane s lane windowClosed := rfl

end

/-- Settles O33.  That the lowest qualifying position wins is the model's choice of log 118; that the row of a lost block lock
brings the level of the lane status input that of log 131. -/
theorem blockLockAndReassembly : Obligations.BlockLockAndReassembly := by
  unfold Obligations.BlockLockAndReassembly
  refine ⟨fun lane counts s hg => ?_, fun lane llos s hg => ?_, fun lane s => ⟨fun p c hc hd hdue => ?_, fun p c hc hd hdue => ?_,
    fun t0 hw hdue => ?_⟩⟩
  · rw [exec_blockLockWindow hg]
    refine ⟨fun hlock p hp hcount hfirst => ?_, fun hlock hcounts => ?_, fun hlock hcount => ?_, fun hlock hcount => ?_⟩
    · have hlane := laneAt_modLane_same s lane (lockedAt p)
      rw [blockLockWindowEffect_lock hlock hp hcount hfirst]
      exact ⟨_, rfl, hlane ▸ rfl, hlane ▸ rfl, hlane ▸ rfl, fun l hl => laneAt_modLane_other _ _ _ _ hl,
        (modLane_keeps rfl (keeps_self _ s)).onlyChanges⟩
    · rw [blockLockWindowEffect_unlocked hlock hcounts]
    · rw [blockLockWindowEffect_kept hlock hcount]
    · rw [blockLockWindowEffect_lost hlock hcount]
      exact ⟨_, rfl, loseBlockLock_lane⟩
  · refine ⟨_, exec_blockLockLost hg, ?_, fun l hl => ?_, fun hlock hsig => ?_, fun hsig => ?_⟩
    · rw [pins_blockLockLostEffect, llos_putLlos_same]
    · rw [pins_blockLockLostEffect, llos_putLlos_other hl]
    · rw [blockLockLostEffect_lost hlock hsig]
      exact loseBlockLock_lane
    · rw [blockLockLostEffect_level hsig]
      exact putLlos_onlyChanges
  · refine ⟨_, exec_reasmTimeout (reasmTimeoutGuard_of_open hc hd hdue), ?_, fun l hl => ?_,
      (reasmTimeoutEffect_keeps rfl rfl rfl rfl rfl rfl rfl rfl rfl rfl rfl (keeps_self _ s)).onlyChanges⟩ <;>
      rw [reasmTimeoutEffect_of_open hc]
    · exact contexts_discardCtx
    · exact laneAt_discardCtx_other hl
  · refine ⟨_, exec_reasmDiscardExpiry (reasmDiscardExpiryGuard_of_open hc hd hdue), ?_, fun l hl => ?_,
      (reasmDiscardExpiryEffect_keeps rfl rfl rfl rfl rfl rfl rfl rfl rfl rfl rfl (keeps_self _ s)).onlyChanges⟩ <;>
      rw [reasmDiscardExpiryEffect_of_open hc]
    · exact contexts_freeCtx
    · exact laneAt_freeCtx_other hl
  · have hlane := laneAt_modLane_same s lane windowClosed
    refine ⟨_, exec_settleWindowClose (settleWindowCloseGuard_lane hw hdue), ?_⟩
    rw [settleWindowCloseEffect_lane]
    exact ⟨hlane ▸ rfl, hlane ▸ rfl, fun l hl => laneAt_modLane_other _ _ _ _ hl,
      (modLane_keeps rfl (keeps_self _ s)).onlyChanges⟩

/-! ## The port filter (R69, R71) -/

/-- What the checks of a command that pass say: none of them fails. -/
theorem fails_of_firstFailing_none {l : List Check} (h : firstFailing l = none) {c : Check} (hc : c ∈ l) : c.fails = false := by
  induction l with
  | nil => cases hc
  | cons x l ih =>
    unfold firstFailing at h
    split at h
    next => cases h
    next hx =>
      cases hc with
      | head => exact Bool.eq_false_iff.mpr hx
      | tail _ hc => exact ih h hc

section
variable {g : GroupId} {e : Nat × FilterEntry} {l : List (Nat × FilterEntry)} {r : Request} {s : State}

theorem filter_openSettlePorts {ls : List Lane} {p : PortTag} :
    (foldS ls (fun l t => openSettlePort l p t) s).trunk.filter = s.trunk.filter :=
  (foldS_keeps (w := within [.lanes]) (fun _ _ ht => openSettlePort_keeps rfl ht) (keeps_self _ s)).same .filter rfl

/-- Beside the entry written, a write opens settle windows only. -/
theorem filter_pfWrite : (pfWrite g e s).trunk.filter = sparseSet {} s.trunk.filter (4096 * g.val + e.1) e.2 := by
  unfold pfWrite
  dsimp only
  split
  · exact filter_openSettlePorts
  · rfl

theorem filter_foldS_pfWrite : (foldS l (pfWrite g) s).trunk.filter = pfAfter s g.val l := by
  induction l generalizing s with
  | nil => rfl
  | cons e l ih => rw [foldS_cons, ih, pfAfter, filter_pfWrite, pfAfter, List.foldl_cons]

theorem group_lt_of_portFilterWriteChecks (h : firstFailing (portFilterWriteChecks r s) = none) : r.u8 0 < 4 := by
  have hrange := fails_of_firstFailing_none h (List.mem_cons_of_mem _ (List.mem_cons_self ..))
  simp only [ckRange, Bool.or_eq_false_iff, decide_eq_false_iff_not] at hrange
  omega

theorem not_pfClash_of_portFilterWriteChecks (h : firstFailing (portFilterWriteChecks r s) = none) (he : e ∈ pfEntries r) :
    pfClash (r.u8 0) (pfAfter s (r.u8 0) (pfEntries r)) e = false := by
  obtain ⟨-, hclash⟩ := Bool.or_eq_false_iff.mp
    (fails_of_firstFailing_none h (List.mem_cons_of_mem _ (List.mem_cons_of_mem _ (List.mem_cons_self ..))))
  exact Bool.eq_false_iff.mpr (List.any_eq_false.mp hclash e he)

theorem port_ne_of_not_pfClash {n : Nat} {f : Sparse FilterEntry} {x : Nat × FilterEntry} (h : pfClash n f e = false)
    (hv : (sparseGet {} f (4096 * n + e.1)).valid = true) (hx : x ∈ f) (hxg : x.1 / 4096 = n) (hxe : x.1 ≠ 4096 * n + e.1)
    (hxv : x.2.valid = true) : x.2.port ≠ (sparseGet {} f (4096 * n + e.1)).port := by
  simp only [pfClash, hv, Bool.true_and, List.any_eq_false] at h
  simpa [hxg, hxe, hxv] using h x hx

theorem portFilterWriteApply_filter (h : r.u8 0 < 4) :
    (portFilterWriteApply r s).st.trunk.filter = pfAfter s (r.u8 0) (pfEntries r) := by
  have hg : (Fin.ofNat 4 (r.u8 0)).val = r.u8 0 := Nat.mod_eq_of_lt h
  exact filter_foldS_pfWrite.trans (by rw [hg])

/-- The answer of a command leaves the filter as the command did. -/
theorem filter_finish {m : MboxId} {d : Done} : (finish m d).trunk.filter = d.st.trunk.filter :=
  (finish_keeps (w := within [.env, .bridge, .anchor, .mail, .log]) (k := False) rfl rfl rfl rfl rfl
    (keeps_self _ d.st)).same .filter rfl

end

/-- Settles O34: the check for CONFLICT (R71) is made on the filter that the request leaves. -/
theorem portFilterWriteKeepsPortIdsDistinct : Obligations.PortFilterWriteKeepsPortIdsDistinct := by
  unfold Obligations.PortFilterWriteKeepsPortIdsDistinct
  intro m r s hcur hchecks
  have hfilter : (finish m (portFilterWriteApply r s)).trunk.filter = pfAfter s (r.u8 0) (pfEntries r) :=
    filter_finish.trans (portFilterWriteApply_filter (group_lt_of_portFilterWriteChecks hchecks))
  refine ⟨_, congrArg Host.Outcome.next (runCommand_pass hcur hchecks), hfilter, fun i hi hv e he heg hei hev => ?_,
    (finish_keeps rfl rfl rfl rfl rfl (portFilterWriteApply_keeps rfl rfl (keeps_self _ s))).onlyChanges⟩
  have hmem : pfEntry r i ∈ pfEntries r := List.mem_map_of_mem (List.mem_range.mpr hi)
  rw [hfilter] at hv he ⊢
  exact port_ne_of_not_pfClash (not_pfClash_of_portFilterWriteChecks hchecks hmem) hv he heg hei hev

end Sys2Proof.Machine
end

section
/-!
PROOFS.  The values after reset (O10), and the statements about registration and ranging: the timers and the application
instants of a group (O36), RANGE_PROVISION and TRUNK_GROUP_SET (O37).
-/
namespace Sys2Proof.Machine

/-! ## After reset -/

section
variable {g : GroupId} {p : PortId} {a : AccountId} {c : ChanId} {v : VectorId} {k : SliceId} {n u : Nat}

theorem groupAt_reset : groupAt State.reset g = {} := Vector.getElem_replicate ..

theorem portAt_reset : portAt State.reset p = {} := Vector.getElem_replicate ..

theorem acctAt_reset : acctAt State.reset a = {} := Vector.getElem_replicate ..

theorem chanAt_reset : chanAt State.reset c = {} := Vector.getElem_replicate ..

theorem bufAt_reset : bufAt State.reset k = {} := Vector.getElem_replicate ..

theorem vec_reset : State.reset.ev.vecs[v] = {} := Vector.getElem_replicate ..

theorem slotAt_reset : slotAt State.reset n = {} := rfl

theorem shaperAt_reset (r : ShaperRef) : shaperAt State.reset r = {} := by
  cases r with
  | port p => exact congrArg PortSt.shaper portAt_reset
  | node p n =>
    have hnode : (portAt State.reset p).nodes[n] = {} := portAt_reset ▸ Vector.getElem_replicate ..
    exact congrArg NodeSt.shaper hnode
  | queue p q =>
    have hqueue : (portAt State.reset p).queues[q] = {} := portAt_reset ▸ Vector.getElem_replicate ..
    exact congrArg EgressQ.shaper hqueue
  | cls a c =>
    have hcls : (acctAt State.reset a).classes[c] = {} := acctAt_reset ▸ Vector.getElem_replicate ..
    exact congrArg ClassSt.shaper hcls
  | account a => exact congrArg AccountSt.shaper acctAt_reset

/-- Of the owners only MANAGEMENT has a quota (R286). -/
theorem ownerSt_reset : ownerSt {} u = if u = 14 then { quota := Vector.replicate 5 16 } else {} := by
  unfold ownerSt
  split
  next hu =>
    rw [show ({} : BufSt).owners = resetOwners from rfl, resetOwners, Vector.getElem_set, Vector.getElem_replicate]
    exact ite_congr (propext eq_comm) (fun _ => rfl) fun _ => rfl
  next hu => rw [if_neg (by omega)]

theorem quotaOf_reset (hn : n < 5) : quotaOf (bufAt State.reset k) u n = if u = 14 then 16 else 0 := by
  rw [bufAt_reset, quotaOf, dif_pos hn, ownerSt_reset]
  split <;> exact Vector.getElem_replicate ..

end

/-- Settles O10: the elements of every table are alike after reset, but for the quota of MANAGEMENT. -/
theorem resetValuesOfTheSpec : Obligations.ResetValuesOfTheSpec := by
  unfold Obligations.ResetValuesOfTheSpec
  refine ⟨fun g => ?_, fun p => ?_, fun sh => ?_, fun a => ?_, fun k u n hn => quotaOf_reset hn, fun n => ?_, fun c => ?_, rfl,
    fun v => ?_⟩
  · rw [groupAt_reset]
    and_intros <;> rfl
  · rw [portAt_reset]
    exact ⟨rfl, rfl⟩
  · rw [shaperAt_reset]
    exact ⟨rfl, rfl⟩
  · rw [acctAt_reset]
    exact ⟨rfl, rfl⟩
  · rw [slotAt_reset]
    exact ⟨rfl, rfl, rfl, rfl⟩
  · rw [chanAt_reset]
  · rw [vec_reset]
    exact ⟨rfl, rfl⟩

/-! ## What the operations do to the groups -/

/-- The provisioning of a group: the fields that RANGE_PROVISION writes (R81). -/
def provisioning (x : GroupSt) : Bool × Bool × Option Lane × Word × Word × Word × BitVec 16 × Nat :=
  (x.timeSource, x.announce, x.timeLaneCfg, x.coarseRtt, x.modemTx, x.modemRx, x.asym, x.holdoverLimit)

/-- From `s` to `t` no group but `g` changes, and the provisioning of `g` stays. -/
structure GroupStep (g : GroupId) (s t : State) : Prop where
  others : ∀ k, k ≠ g → groupAt t k = groupAt s k
  kept : provisioning (groupAt t g) = provisioning (groupAt s g)

/-- What a group is left with in LISTEN, or in ANNOUNCE where it may announce at once (R79, R87, R133). -/
structure Unregistered (x : GroupSt) : Prop where
  st : x.st = .listen ∨ x.st = .announce
  termId : x.termId = 0
  oamQ : x.oamQ = []
  burstCtr : x.burstCtr = 0

section
variable {g k : GroupId} {s t : State} {α : Type} {l : List α} {a b : Nat}

theorem groupAt_congr (h : t.trunk.groups = s.trunk.groups) : groupAt t k = groupAt s k := congrArg (·[k]) h

/-- What changes no group. -/
theorem Keeps.groupAt_eq {w : Comp → Bool} {c : Prop} (h : Keeps w c s t) (hw : w .groups = false) :
    groupAt t k = groupAt s k := groupAt_congr (h.same .groups hw)

@[simp] theorem groupAt_setFlag : groupAt (setFlag a b s) k = groupAt s k :=
  (setFlag_keeps (w := within [.counters, .flags, .log, .history]) rfl rfl rfl rfl (keeps_self _ s)).groupAt_eq rfl

@[simp] theorem groupAt_count1 : groupAt (count1 a s) k = groupAt s k := rfl

@[simp] theorem groupAt_modLane {x : Lane} {f : LaneSt → LaneSt} : groupAt (modLane s x f) k = groupAt s k := rfl

theorem groupAt_foldS {f : α → State → State} (hf : ∀ x t, groupAt (f x t) k = groupAt t k) :
    groupAt (foldS l f s) k = groupAt s k :=
  foldS_induction (P := fun t => groupAt t k = groupAt s k) (fun x t ht => (hf x t).trans ht) rfl

@[simp] theorem groupAt_foldS_modLane {x : α → Lane} {f : α → LaneSt → LaneSt} :
    groupAt (foldS l (fun y st => modLane st (x y) (f y)) s) k = groupAt s k := groupAt_foldS fun _ _ => groupAt_modLane

@[simp] theorem groupAt_foldS_modAcct {x : α → AccountId} {f : α → AccountSt → AccountSt} :
    groupAt (foldS l (fun y st => modAcct st (x y) (f y)) s) k = groupAt s k := groupAt_foldS fun _ _ => rfl

/-- The answer of a command leaves the groups as the command did. -/
@[simp] theorem groupAt_finish {m : MboxId} {d : Done} : groupAt (finish m d) k = groupAt d.st k :=
  (finish_keeps (w := within [.env, .bridge, .anchor, .mail, .log]) (k := False) rfl rfl rfl rfl rfl
    (keeps_self _ d.st)).groupAt_eq rfl

theorem GroupStep.refl (g : GroupId) (s : State) : GroupStep g s s := ⟨fun _ _ => rfl, rfl⟩

variable (h : GroupStep g s t)
include h

/-- What leaves every group as it was adds nothing to a step of one group. -/
theorem GroupStep.of_eq {u : State} (hu : ∀ k, groupAt u k = groupAt t k) : GroupStep g s u :=
  ⟨fun k hk => (hu k).trans (h.others k hk), (congrArg provisioning (hu g)).trans h.kept⟩

theorem modGroup_groupStep {f : GroupSt → GroupSt} (hf : ∀ x, provisioning (f x) = provisioning x) :
    GroupStep g s (modGroup t g f) :=
  ⟨fun k hk => (groupAt_modGroup_other _ _ _ _ hk).trans (h.others k hk), by rw [groupAt_modGroup_same, hf, h.kept]⟩

theorem setFlag_groupStep : GroupStep g s (setFlag a b t) := h.of_eq fun _ => groupAt_setFlag

theorem foldS_modLane_groupStep {x : α → Lane} {f : α → LaneSt → LaneSt} :
    GroupStep g s (foldS l (fun y st => modLane st (x y) (f y)) t) := h.of_eq fun _ => groupAt_foldS_modLane

/-! ### LISTEN (R79) -/

theorem clearGrants_groupStep : GroupStep g s (clearGrants g t) :=
  modGroup_groupStep (foldS_modLane_groupStep h) fun _ => rfl

theorem dropEqdPending_groupStep : GroupStep g s (dropEqdPending g t) :=
  modGroup_groupStep (foldS_modLane_groupStep h) fun _ => rfl

theorem unrangeLanes_groupStep : GroupStep g s (unrangeLanes g t) := foldS_modLane_groupStep h

theorem loseIdentity_groupStep {st : TermSt} : GroupStep g s (loseIdentity st g t) := by
  unfold loseIdentity
  extract_lets s1 s2
  have h1 : GroupStep g s s1 := unrangeLanes_groupStep (dropEqdPending_groupStep h)
  have h2 : GroupStep g s s2 := foldS_modLane_groupStep h1
  exact modGroup_groupStep h2 fun _ => rfl

theorem listenTest_groupStep : GroupStep g s (listenTest g t) := by
  unfold listenTest
  extract_lets x
  split
  · split
    · exact setFlag_groupStep (modGroup_groupStep h fun _ => rfl)
    · exact setFlag_groupStep (modGroup_groupStep h fun _ => rfl)
    · exact modGroup_groupStep h fun _ => rfl
  · exact h

theorem enterListen_groupStep : GroupStep g s (enterListen g t) := by
  unfold enterListen
  extract_lets s1 s2 s3
  have h1 : GroupStep g s s1 := loseIdentity_groupStep (clearGrants_groupStep h)
  have h2 : GroupStep g s s2 := modGroup_groupStep h1 fun _ => rfl
  have h3 : GroupStep g s s3 := h2.of_eq fun _ => groupAt_foldS_modAcct
  exact listenTest_groupStep h3

theorem recomputeEqd0_groupStep : GroupStep g s (recomputeEqd0 g t) := by
  have hput (v : Option Word) : GroupStep g s (modGroup t g fun y => { y with eqd0 := v }) := modGroup_groupStep h fun _ => rfl
  unfold recomputeEqd0
  extract_lets x s1 s2
  split
  · exact h
  · split
    next v _ => exact listenTest_groupStep (hput (some v))
    next =>
      have hneg : GroupStep g s s1 := setFlag_groupStep (hput none)
      split
      · exact enterListen_groupStep hneg
      · exact hneg
    next =>
      split
      · exact enterListen_groupStep (setFlag_groupStep (hput none))
      · exact listenTest_groupStep (hput none)

omit h

/-- The test of R79 gives a group no terminal ID and queues nothing. -/
theorem listenTest_unregistered (hu : Unregistered (groupAt s g)) : Unregistered (groupAt (listenTest g s) g) := by
  obtain ⟨hst, hid, hq, hctr⟩ := hu
  unfold listenTest
  extract_lets x
  split
  · split
    iterate 2
      · rw [groupAt_setFlag, groupAt_modGroup_same]
        exact ⟨hst, hid, hq, hctr⟩
    · rw [groupAt_modGroup_same]
      exact ⟨.inr rfl, hid, hq, hctr⟩
  · exact ⟨hst, hid, hq, hctr⟩

theorem groupAt_loseIdentity {st : TermSt} : (groupAt (loseIdentity st g s) g).st = st ∧
    (groupAt (loseIdentity st g s) g).termId = 0 ∧ (groupAt (loseIdentity st g s) g).oamQ = [] := by
  unfold loseIdentity
  extract_lets s1 s2
  rw [groupAt_modGroup_same]
  exact ⟨rfl, rfl, rfl⟩

theorem enterListen_unregistered : Unregistered (groupAt (enterListen g s) g) := by
  unfold enterListen
  extract_lets s1 s2 s3
  refine listenTest_unregistered ?_
  have h3 : groupAt s3 g = { groupAt s1 g with burstCtr := 0 } := groupAt_foldS_modAcct.trans (groupAt_modGroup_same ..)
  obtain ⟨hst, hid, hq⟩ : (groupAt s1 g).st = .listen ∧ (groupAt s1 g).termId = 0 ∧ (groupAt s1 g).oamQ = [] :=
    groupAt_loseIdentity
  rw [h3]
  clear_value s1
  exact ⟨.inl hst, hid, hq, rfl⟩

/-! ### Timers (R79, R92, R108) -/

theorem holdoverExpiryEffect_groupStep : GroupStep g s (holdoverExpiryEffect g s) := by
  unfold holdoverExpiryEffect
  exact enterListen_groupStep (setFlag_groupStep (modGroup_groupStep (.refl g s) fun _ => rfl))

theorem todStaleEffect_groupStep : GroupStep g s (todStaleEffect g s) :=
  setFlag_groupStep (modGroup_groupStep (.refl g s) fun _ => rfl)

theorem todStale_todStaleEffect : (groupAt (todStaleEffect g s) g).todStale = true := by
  rw [todStaleEffect, groupAt_setFlag, groupAt_modGroup_same]

theorem responseWaitExpiryEffect_eq {d : Disc} (hd : (groupAt s g).disc = some d) : responseWaitExpiryEffect g s =
    modGroup (drawUpTo d.backoffMax s).2 g fun x => { x with backoff := (drawUpTo d.backoffMax s).1, waitFrom := none } := by
  simp only [responseWaitExpiryEffect, hd]

theorem drawUpTo_le : (drawUpTo a s).1 ≤ a := Nat.le_of_lt_succ (Nat.mod_lt _ a.succ_pos)

theorem groupAt_drawUpTo : groupAt (drawUpTo a s).2 k = groupAt s k := rfl

theorem exec_rangeTimeout (hg : rangeTimeoutGuard g s = true) : exec (.rangeTimeout g) s = .next (enterListen g s) :=
  next_whenB hg

theorem exec_holdoverExpiry (hg : holdoverExpiryGuard g s = true) :
    exec (.holdoverExpiry g) s = .next (holdoverExpiryEffect g s) := next_whenB hg

theorem exec_responseWaitExpiry (hg : responseWaitExpiryGuard g s = true) :
    exec (.responseWaitExpiry g) s = .next (responseWaitExpiryEffect g s) := next_whenB hg

theorem exec_todStale (hg : todStaleGuard g s = true) : exec (.todStale g) s = .next (todStaleEffect g s) := next_whenB hg

theorem exec_applicationInstant (hg : applicationInstantGuard g s = true) :
    exec (.applicationInstant g) s = .next (applicationInstantEffect g s) := next_whenB hg

/-! ### Application instants (R557) -/

/-- The state of a group after the effects of a message: an EQD_ASSIGN takes it from RANGE to OPERATE (R79). -/
def appliedSt (m : ApplyMsg) (st : TermSt) : TermSt :=
  match m with
  | .eqd _ => if st = .range then .operate else st
  | _ => st

/-- What the effects of a message leave of a group: the list of those that wait, and its state but for an EQD_ASSIGN. -/
theorem groupAt_applyMsg (m : ApplyMsg) : (groupAt (applyMsg g m s) g).pendApply = (groupAt s g).pendApply ∧
    (groupAt (applyMsg g m s) g).st = appliedSt m (groupAt s g).st := by
  cases m with
  | eqd vs =>
    unfold applyMsg
    dsimp -zeta only
    extract_lets s1 s2 s3
    have h3 : groupAt s3 g = groupAt s2 g := groupAt_count1.trans groupAt_setFlag
    have h1 : groupAt s1 g = groupAt s g := groupAt_foldS_modLane
    have hpend : (groupAt s3 g).pendApply = (groupAt s g).pendApply := by rw [h3, groupAt_modGroup_same, h1]
    have hst : (groupAt s3 g).st = (groupAt s g).st := by rw [h3, groupAt_modGroup_same, h1]
    rw [appliedSt, ← hst, ← hpend]
    split
    next hr =>
      rw [groupAt_setFlag, groupAt_modGroup_same, if_pos (beq_iff_eq.mp hr)]
      exact ⟨rfl, rfl⟩
    next hr =>
      rw [if_neg fun he => hr (beq_iff_eq.mpr he)]
      exact ⟨rfl, rfl⟩
  | leader ls sh lo =>
    have hsame : groupAt (applyMsg g (.leader ls sh lo) s) g = groupAt s g :=
      groupAt_foldS fun _ _ => groupAt_setFlag.trans groupAt_modLane
    rw [hsame]
    exact ⟨rfl, rfl⟩
  | policy c n q =>
    rw [applyMsg, groupAt_setFlag, groupAt_modGroup_same]
    exact ⟨rfl, rfl⟩

/-- The effects of a list of messages, in order. -/
def applyAll (g : GroupId) (ms : List (Nat × ApplyMsg)) (s : State) : State := foldS ms (fun m st => applyMsg g m.2 st) s

variable {ms : List (Nat × ApplyMsg)}

theorem applyAll_cons {m : Nat × ApplyMsg} : applyAll g (m :: ms) s = applyAll g ms (applyMsg g m.2 s) := rfl

theorem pendApply_applyAll : (groupAt (applyAll g ms s) g).pendApply = (groupAt s g).pendApply :=
  foldS_induction (P := fun t => (groupAt t g).pendApply = (groupAt s g).pendApply)
    (fun m _ ht => (groupAt_applyMsg m.2).1.trans ht) rfl

theorem st_applyAll_operate (hst : (groupAt s g).st = .operate) : (groupAt (applyAll g ms s) g).st = .operate := by
  refine foldS_induction (P := fun t => (groupAt t g).st = .operate) (fun m t ht => ?_) hst
  rw [(groupAt_applyMsg m.2).2, ht]
  cases m.2 <;> rfl

/-- A group in RANGE is in OPERATE from the first EQD_ASSIGN on. -/
theorem st_applyAll_range {e : Nat} {vs : List (Lane × Word)} (hst : (groupAt s g).st = .range) (hm : (e, .eqd vs) ∈ ms) :
    (groupAt (applyAll g ms s) g).st = .operate := by
  induction ms generalizing s with
  | nil => cases hm
  | cons m ms ih =>
    obtain ⟨-, hnext⟩ := groupAt_applyMsg (g := g) (s := s) m.2
    rw [hst] at hnext
    rw [applyAll_cons]
    obtain ⟨_, m⟩ := m
    cases m with
    | eqd _ => exact st_applyAll_operate hnext
    | leader _ _ _ => exact ih hnext ((List.mem_cons.mp hm).resolve_left nofun)
    | policy _ _ _ => exact ih hnext ((List.mem_cons.mp hm).resolve_left nofun)

/-- The group with the messages that are due taken from those that wait. -/
def dueTaken (g : GroupId) (s : State) : State :=
  modGroup s g fun x => { x with pendApply := x.pendApply.filter fun m => !applyDue s g m.1 }

theorem applicationInstantEffect_eq : applicationInstantEffect g s =
    applyAll g ((groupAt s g).pendApply.filter fun m => applyDue s g m.1) (dueTaken g s) := rfl

theorem groupAt_dueTaken : groupAt (dueTaken g s) g =
    { groupAt s g with pendApply := (groupAt s g).pendApply.filter fun m => !applyDue s g m.1 } := groupAt_modGroup_same ..

end

/-- Settles O36: entering LISTEN takes the identity, and what follows it, the test of R79, gives none; of the messages due at an
application instant the first EQD_ASSIGN takes the group from RANGE to OPERATE, and none takes it from there. -/
theorem registrationEvents : Obligations.RegistrationEvents := by
  unfold Obligations.RegistrationEvents
  intro g s
  refine ⟨fun c hc hg => ?_, fun d hd hg => ?_, fun hg => ?_, fun hg => ?_⟩
  · simp only [List.mem_cons, List.not_mem_nil, or_false] at hc
    obtain rfl | rfl := hc
    · obtain ⟨hst, hid, hq, hctr⟩ := enterListen_unregistered (g := g) (s := s)
      exact ⟨_, exec_rangeTimeout hg, hst, hid, hq, hctr, (enterListen_groupStep (.refl g s)).others⟩
    · obtain ⟨hst, hid, hq, hctr⟩ : Unregistered (groupAt (holdoverExpiryEffect g s) g) := enterListen_unregistered
      exact ⟨_, exec_holdoverExpiry hg, hst, hid, hq, hctr, holdoverExpiryEffect_groupStep.others⟩
  · refine ⟨_, exec_responseWaitExpiry hg, ?_⟩
    rw [responseWaitExpiryEffect_eq hd, groupAt_modGroup_same, groupAt_drawUpTo]
    exact ⟨drawUpTo_le, rfl, rfl, fun k hk => groupAt_modGroup_other _ _ _ _ hk,
      (modGroup_keeps rfl (drawUpTo_keeps rfl (keeps_self _ s))).onlyChanges⟩
  · exact ⟨_, exec_todStale hg, todStale_todStaleEffect, todStaleEffect_groupStep.others,
      (todStaleEffect_keeps rfl rfl rfl rfl rfl (keeps_self _ s)).onlyChanges⟩
  · refine ⟨_, exec_applicationInstant hg, ?_, fun hst ⟨e, vs, hm, hdue⟩ => ?_⟩
    · rw [applicationInstantEffect_eq, pendApply_applyAll, groupAt_dueTaken]
    · rw [applicationInstantEffect_eq]
      refine st_applyAll_range ?_ (List.mem_filter.mpr ⟨hm, hdue⟩)
      rw [groupAt_dueTaken, hst]

/-! ## RANGE_PROVISION and TRUNK_GROUP_SET (R19, R20, R80, R81) -/

section
variable {g k : GroupId} {r : Request} {s : State}

/-- A group that is no time source. -/
def unsourced (x : GroupSt) : GroupSt := { x with timeSource := false }

/-- No group is the time source. -/
def sourcesCleared (s : State) : State := foldS [0, 1, 2, 3] (fun k st => modGroup st k unsourced) s

/-- A change made to each group of a list, which made twice is made once. -/
theorem groupAt_foldS_modGroup {f : GroupSt → GroupSt} {l : List GroupId} (hf : ∀ x, f (f x) = f x) :
    groupAt (foldS l (fun j st => modGroup st j f) s) k = if k ∈ l then f (groupAt s k) else groupAt s k := by
  induction l generalizing s with
  | nil => rfl
  | cons j l ih =>
    rw [foldS_cons, ih]
    by_cases hj : k = j
    · subst hj
      rw [groupAt_modGroup_same, hf, ite_self, if_pos List.mem_cons_self]
    · rw [groupAt_modGroup_other _ _ _ _ hj]
      simp only [List.mem_cons, hj, false_or]

theorem groupAt_sourcesCleared : groupAt (sourcesCleared s) k = unsourced (groupAt s k) := by
  have hall : ∀ k : GroupId, k ∈ ([0, 1, 2, 3] : List GroupId) := by decide
  exact (groupAt_foldS_modGroup (f := unsourced) fun _ => rfl).trans (if_pos (hall k))

/-- The other groups give way to a time source. -/
def sourcesYield (r : Request) (s : State) : State := if natBit (r.u8 1) 0 then sourcesCleared s else s

theorem groupAt_sourcesYield_source (hr : natBit (r.u8 1) 0 = true) : (groupAt (sourcesYield r s) k).timeSource = false := by
  rw [sourcesYield, if_pos hr, groupAt_sourcesCleared, unsourced]

theorem groupAt_sourcesYield_rest :
    { groupAt (sourcesYield r s) k with timeSource := (groupAt s k).timeSource } = groupAt s k := by
  unfold sourcesYield
  split
  · rw [groupAt_sourcesCleared, unsourced]
  · rfl

/-- The parameters that a RANGE_PROVISION gives (R81). -/
def requested (r : Request) : Bool × Bool × Option Lane × Word × Word × Word × BitVec 16 × Nat :=
  (natBit (r.u8 1) 0, natBit (r.u8 1) 1, if r.u8 2 = 0xFF then none else some (Fin.ofNat 32 (r.u8 2)), BitVec.ofNat 32 (r.u32 4),
    BitVec.ofNat 32 (r.u32 8), BitVec.ofNat 32 (r.u32 12), BitVec.ofNat 16 (r.u16 16), r.u16 18)

/-- The group that a RANGE_PROVISION names. -/
def rpGroup (r : Request) : GroupId := Fin.ofNat 4 (r.u8 0)

/-- What follows the writing of the parameters, the tests and EqD_0 of R79 and R109, keeps them and touches no other group. -/
theorem rangeProvisionApply_groupStep : GroupStep (rpGroup r) (modGroup (sourcesYield r s) (rpGroup r) (provisioned r))
    (rangeProvisionApply r s).st := by
  have hself := GroupStep.refl (rpGroup r) (modGroup (sourcesYield r s) (rpGroup r) (provisioned r))
  unfold rangeProvisionApply
  extract_lets g old s1 s2 x
  split
  · unfold okDone whenB
    dsimp only
    split
    · exact recomputeEqd0_groupStep (enterListen_groupStep hself)
    · exact enterListen_groupStep hself
  · split
    · exact hself
    · split
      · exact listenTest_groupStep hself
      · exact recomputeEqd0_groupStep hself

theorem provisioning_rangeProvisionApply : provisioning (groupAt (rangeProvisionApply r s).st (rpGroup r)) = requested r :=
  rangeProvisionApply_groupStep.kept.trans (by rw [groupAt_modGroup_same]; rfl)

theorem groupAt_rangeProvisionApply_other (hk : k ≠ rpGroup r) :
    groupAt (rangeProvisionApply r s).st k = groupAt (sourcesYield r s) k :=
  (rangeProvisionApply_groupStep.others k hk).trans (groupAt_modGroup_other _ _ _ _ hk)

theorem groupAt_trunkGroupSetApply_same : groupAt (trunkGroupSetApply r s).st (tgGroup r) = { groupAt s (tgGroup r) with
    bindPend := some (if tgEnable r = 1 then (tgLanes r).map (fun l => (l, tgSpec r l)) else []) } := groupAt_modGroup_same ..

theorem groupAt_trunkGroupSetApply_other (hg : g ≠ tgGroup r) : groupAt (trunkGroupSetApply r s).st g = groupAt s g :=
  groupAt_modGroup_other _ _ _ _ hg

end

/-- Settles O37: what follows the parameters of a RANGE_PROVISION keeps them, and a TRUNK_GROUP_SET writes one field. -/
theorem groupSettings : Obligations.GroupSettings := by
  unfold Obligations.GroupSettings
  refine ⟨fun m r g s hcur hchecks hg => ?_, fun m r s hcur hchecks => ?_⟩
  · obtain rfl : g = rpGroup r := hg
    have hprov := provisioning_rangeProvisionApply (r := r) (s := s)
    simp only [provisioning, requested, Prod.mk.injEq] at hprov
    obtain ⟨hsource, hann, hlane, hrtt, htx, hrx, hasym, hlimit⟩ := hprov
    refine ⟨_, congrArg Host.Outcome.next (runCommand_pass hcur hchecks), ?_⟩
    simp only [groupAt_finish]
    refine ⟨hsource, hann, hlane, hrtt, htx, hrx, hasym, hlimit, fun hr k hk => ?_, fun k hk => ?_⟩
    · rw [groupAt_rangeProvisionApply_other hk, groupAt_sourcesYield_source hr]
    · rw [groupAt_rangeProvisionApply_other hk, groupAt_sourcesYield_rest]
  · refine ⟨_, congrArg Host.Outcome.next (runCommand_pass hcur hchecks), ?_, fun g hg => ?_,
      (finish_keeps rfl rfl rfl rfl rfl (trunkGroupSetApply_keeps rfl (keeps_self _ s))).onlyChanges⟩
    · rw [groupAt_finish, groupAt_trunkGroupSetApply_same]
    · rw [groupAt_finish, groupAt_trunkGroupSetApply_other hg]

end Sys2Proof.Machine
end

section
/-!
PROOFS.  The statements about grants and bursts: completed grant tables (O38), the entries of grant maps (O39), and the ends of
bursts, of FILL and of JUMP_HOLD (O40).
-/
namespace Sys2Proof.Machine

/-! ## Completed grant tables (R113, R115) -/

/-! ### Slot-edge order and the gap -/

section
variable {α : Type} {edge : α → Stamp} {x : α} {l : List α}

theorem length_insertEdge : (insertEdge edge x l).length = l.length + 1 := by
  induction l with
  | nil => rfl
  | cons y l ih =>
    unfold insertEdge
    split
    · rfl
    · rw [List.length_cons, ih, List.length_cons]

theorem length_foldl_insertEdge {acc : List α} :
    (l.foldl (fun acc x => insertEdge edge x acc) acc).length = acc.length + l.length := by
  induction l generalizing acc with
  | nil => rfl
  | cons x l ih =>
    rw [List.foldl_cons, ih, length_insertEdge, List.length_cons]
    omega

theorem length_sortEdge : (sortEdge edge l).length = l.length := length_foldl_insertEdge.trans (Nat.zero_add _)

end

section
variable {g : GroupId} {lane : Lane} {e : Nat} {rs : List (BitVec 64)} {s : State}

theorem length_withEdges (h : ∀ r ∈ rs, (slotEdge s g lane e (gStart r)).isSome = true) :
    (withEdges s g lane e rs).length = rs.length := by
  refine List.filterMap_length_eq_length.mpr fun r hr => ?_
  obtain ⟨⟨edge, stamped⟩, hedge⟩ := Option.isSome_iff_exists.mp (h r hr)
  simp [hedge]

end

section
variable {last : Option Stamp} {r : BitVec 64} {t : Stamp} {u : List (BitVec 64 × Stamp)}

theorem dropOverlaps_keep (h : ∀ e, last = some e → 0 ≤ stampDiff t (e + ticks 8)) : dropOverlaps last ((r, t) :: u) =
    (r :: (dropOverlaps (some (t + ticks (gLen r))) u).1, (dropOverlaps (some (t + ticks (gLen r))) u).2) := by
  cases last with
  | none => rfl
  | some e => exact if_pos (decide_eq_true (h e rfl))

theorem dropOverlaps_drop {e : Stamp} (h : ¬ 0 ≤ stampDiff t (e + ticks 8)) : dropOverlaps (some e) ((r, t) :: u) =
    ((dropOverlaps (some e) u).1, (dropOverlaps (some e) u).2 + 1) :=
  if_neg (by simpa using h)

/-- The grants that are kept stand in the order they had, each 8 ticks or more after the one kept before it. -/
theorem dropOverlaps_spaced (last : Option Stamp) (es : List (BitVec 64 × Stamp)) :
    ∃ kept, (dropOverlaps last es).1 = kept.map Prod.fst ∧ kept.Sublist es ∧ Spaced last kept := by
  induction es generalizing last with
  | nil => exact ⟨[], rfl, .slnil, trivial⟩
  | cons q u ih =>
    obtain ⟨r, t⟩ := q
    by_cases hgap : ∀ e, last = some e → 0 ≤ stampDiff t (e + ticks 8)
    · obtain ⟨kept, hkept, hsub, hspaced⟩ := ih (some (t + ticks (gLen r)))
      rw [dropOverlaps_keep hgap]
      exact ⟨(r, t) :: kept, congrArg (r :: ·) hkept, hsub.cons_cons _, hgap, hspaced⟩
    · obtain ⟨e, he⟩ := Classical.not_forall.mp hgap
      obtain ⟨rfl, hclose⟩ := Classical.not_imp.mp he
      obtain ⟨kept, hkept, hsub, hspaced⟩ := ih (some e)
      rw [dropOverlaps_drop hclose]
      exact ⟨kept, hkept, hsub.cons _, hspaced⟩

end

/-! ### The completed table stands on its lane -/

section
variable {g : GroupId} {l lane : Lane} {off e cur : Nat} {x : LaneSt} {us : List GrantUse} {fs : List Latent}
  {seed : Latent → Bool} {dropRem : Bool} {s : State}

/-- Every component but the lanes. -/
def offLanes (c : Comp) : Bool := c != .lanes

/-- A fog after which the grants of the bursts it names are gone marks none of them in a table: it changes no lane. -/
theorem fogThese_gone_offLanes : Keeps offLanes False s (fogThese g off fs seed .gone dropRem s) := by
  unfold fogThese
  refine Keeps.ite (Keeps.refl _ s False.elim) ?_
  refine foldS_keeps (fun a t ht => stallTest_keeps rfl rfl rfl rfl rfl rfl ht) ?_
  refine foldS_keeps (fun b t ht => ?_) ?_
  · have hdrop := dropLatent_keeps (x0 := g) (x1 := b) rfl ht
    cases hseed : seed b
    · exact modGroup_keeps rfl hdrop
    · exact hdrop
  · refine setFlag_keeps rfl rfl rfl rfl (count_keeps rfl (count_keeps rfl (count_keeps rfl ?_)))
    refine returnOam_keeps rfl rfl ?_
    exact foldS_keeps (fun a t ht => fogAccount_keeps rfl rfl rfl rfl rfl rfl rfl ht) (Keeps.refl _ s False.elim)

theorem laneAt_fog_gone : laneAt (fog g off seed .gone dropRem s) l = laneAt s l :=
  laneAt_congr (fogThese_gone_offLanes.trunkLanes rfl)

@[simp] theorem laneAt_modGroup {f : GroupSt → GroupSt} : laneAt (modGroup s g f) l = laneAt s l := rfl

theorem laneAt_dropUnheld : laneAt (dropUnheld g seed s) l = laneAt s l := rfl

theorem laneAt_whenB {c : Bool} {f : State → State} (hf : ∀ t, laneAt (f t) l = laneAt t l) :
    laneAt (whenB c f s) l = laneAt s l := by
  cases c
  · rfl
  · exact hf s

theorem epochDist_self : epochDist e e = 0 :=
  Nat.sub_mod_eq_zero_of_mod_eq (by rw [Nat.add_mod_right, Nat.mod_mod])

/-- The way from the next epoch back to this one is the whole period less one. -/
theorem epochDist_next_self : epochDist (epochAdd e 1) e = epochWrap - 1 := by
  have hpos : 0 < epochWrap := by decide
  have hlt := Nat.mod_lt (e + 1) hpos
  have hdiv := Nat.div_add_mod (e + 1) epochWrap
  have hway : e + epochWrap - (e + 1) % epochWrap = epochWrap - 1 + epochWrap * ((e + 1) / epochWrap) := by omega
  rw [epochDist, epochAdd, Nat.mod_mod, hway, Nat.add_mul_mod_self_left, Nat.mod_eq_of_lt (Nat.sub_lt hpos Nat.one_pos)]

theorem not_epochLe_next_self : epochLe (epochAdd e 1) e = false := by
  rw [epochLe, epochDist_next_self]
  decide

theorem tableAt_of_cons {ts : List (Nat × List GrantUse)} (h : x.tables = (e, us) :: ts) : tableAt x e = some us := by
  rw [tableAt, h, List.find?_cons_of_pos (p := fun t : Nat × List GrantUse => t.1 == e) (beq_self_eq_true e)]

/-- A table just completed stands, its epoch not one that `trimLane` lets go. -/
theorem tableAt_trimLane (h : epochLe e cur = false ∨ epochDist e cur ≤ 128) :
    tableAt (trimLane cur { x with tables := (e, us) :: x.tables }) e = some us :=
  tableAt_of_cons (List.filter_cons_of_pos
    (p := fun t : Nat × List GrantUse => !(epochLe t.1 cur && decide (128 < epochDist t.1 cur))) (by simpa using h))

theorem tableAt_trimLane_nextTable :
    tableAt (trimLane (epochOf x.fn) { x with tables := (nextTable x, us) :: x.tables }) (nextTable x) = some us := by
  refine tableAt_trimLane ?_
  unfold nextTable
  split
  · exact .inl not_epochLe_next_self
  · exact .inr (Nat.le_trans (Nat.le_of_eq epochDist_self) (Nat.zero_le _))

/-- The grants of an epoch that have a slot edge, in slot-edge order. -/
def edgeOrder (s : State) (g : GroupId) (lane : Lane) (e : Nat) : List (BitVec 64 × Stamp) :=
  sortEdge (fun q => q.2) (withEdges s g lane e (unionAt (laneAt s lane) e))

/-- What completing the table of an epoch makes of the lane: the fog of predicted bursts, which follows, leaves it so. -/
theorem laneAt_grantTableCompleteEffect (hgr : laneGroup s lane = some g)
    (hedges : (edgeOrder s g lane (nextTable (laneAt s lane))).length =
      (unionAt (laneAt s lane) (nextTable (laneAt s lane))).length) :
    laneAt (grantTableCompleteEffect lane s) lane = trimLane (epochOf (laneAt s lane).fn) { laneAt s lane with
      tables := (nextTable (laneAt s lane), (dropOverlaps (lastGrantEnd s g lane (nextTable (laneAt s lane)))
        (edgeOrder s g lane (nextTable (laneAt s lane)))).1.map fun r => { raw := r }) :: (laneAt s lane).tables } := by
  unfold grantTableCompleteEffect
  simp -zeta only [hgr]
  extract_lets x e all es s1 s2 lost n s3 s4
  have hs1 : laneAt s1 lane = x := laneAt_whenB fun t => laneAt_setFlag
  have hs3 : laneAt s3 lane = laneAt s2 lane := laneAt_whenB fun t => laneAt_setFlag
  have hs4 : laneAt s4 lane = laneAt s3 lane := laneAt_dropUnheld.trans laneAt_fog_gone
  rw [laneAt_modGroup, hs4, hs3, laneAt_modLane_same, hs1, if_pos (show es.length = all.length from hedges)]
  rfl

theorem exec_grantTableComplete (hg : grantTableCompleteGuard lane s = true) :
    exec (.grantTableComplete lane) s = .next (grantTableCompleteEffect lane s) := next_whenB hg

end

/-- Settles O38: where every grant has a slot edge, the table is what the test of R115 keeps of the union. -/
theorem grantTablesKeepTheirGap : Obligations.GrantTablesKeepTheirGap := by
  unfold Obligations.GrantTablesKeepTheirGap
  intro lane g s hguard hgr hedges
  obtain ⟨kept, hkept, hsub, hspaced⟩ := dropOverlaps_spaced (lastGrantEnd s g lane (nextTable (laneAt s lane)))
    (edgeOrder s g lane (nextTable (laneAt s lane)))
  refine ⟨_, kept, exec_grantTableComplete hguard, ?_, hsub, hspaced⟩
  rw [laneAt_grantTableCompleteEffect hgr (length_sortEdge.trans (length_withEdges hedges)), tableAt_trimLane_nextTable, hkept,
    List.map_map]
  rfl

/-! ## Grant map entries (R113, R114, R116) -/

section
variable {g : GroupId} {l lane : Lane} {e e' : Nat} {r : BitVec 64} {x : LaneSt} {p : PlanEntry} {s : State}

/-! ### One entry -/

theorem takeEntry_failsCrc (hcrc : gCrcOk r = false) : takeEntry g lane r s = count1 (aGnt lane 0x08) s := by
  simp [takeEntry, hcrc]

theorem takeEntry_accepted (hcrc : gCrcOk r = true) (hown : grantOwn (groupAt s g) r = true) (hfields : gFieldsOk r = true)
    (hroom : grantFull (laneAt s lane) (epochAdd (curEpoch s lane) 1) r = false) : takeEntry g lane r s =
      count1 (aGnt lane 0x00) (modLane s lane
        (if grantStands r then planPut (epochAdd (curEpoch s lane) 1) r else mapPut (epochAdd (curEpoch s lane) 1) r)) := by
  simp [takeEntry, hcrc, hown, hfields, hroom]

/-- An entry that is not the group's own, has bad fields or finds no room reaches neither a map nor a plan. -/
theorem laneAt_takeEntry_refused (hcrc : gCrcOk r = true)
    (h : grantOwn (groupAt s g) r = false ∨ gFieldsOk r = false ∨
      grantFull (laneAt s lane) (epochAdd (curEpoch s lane) 1) r = true) :
    laneAt (takeEntry g lane r s) l = laneAt s l := by
  unfold takeEntry
  extract_lets e
  rw [hcrc, if_neg (by decide)]
  split
  · rfl
  next hown =>
    split
    · exact laneAt_setFlag
    next hfields =>
      rw [if_pos ((h.resolve_left (by simpa using hown)).resolve_left (by simpa using hfields))]
      exact laneAt_setFlag

theorem mapAt_mapPut_same : mapAt (mapPut e r x) e = mapAt x e ++ [r] := by simp [mapAt, mapEntries, mapPut]

theorem mapAt_mapPut_other (h : e' ≠ e) : mapAt (mapPut e r x) e' = mapAt x e' := by
  have hfind : (x.maps.filter fun m => m.1 != e).find? (fun m => m.1 == e') = x.maps.find? fun m => m.1 == e' := by
    rw [List.find?_filter]
    congr 1
    funext m
    by_cases hm : m.1 = e'
    · simp [hm, h]
    · simp [hm]
  simp [mapAt, mapEntries, mapPut, h.symm, hfind]

theorem plan_planPut : (planPut e r x).plan =
    if x.plan.any fun p => planHas e (gAcct r) (gStart r) p && p.raw == r then x.plan
    else (x.plan.filter fun p => !planHas e (gAcct r) (gStart r) p) ++ [{ raw := r, fromEpoch := e, no := x.accepts }] :=
  apply_ite LaneSt.plan ..

theorem maps_planPut : (planPut e r x).maps = x.maps := by
  unfold planPut
  dsimp only
  split <;> rfl

theorem mem_planPut (hp : p ∈ (planPut e r x).plan) : p ∈ x.plan ∨ p.raw = r := by
  rw [plan_planPut] at hp
  split at hp
  · exact .inl hp
  · rcases List.mem_append.mp hp with hold | hnew
    · exact .inl (List.mem_filter.mp hold).1
    · exact .inr (congrArg PlanEntry.raw (List.mem_singleton.mp hnew))

/-- After a standing entry the plan holds it, as it did already where the entry is a refresh (R116). -/
theorem exists_mem_planPut : ∃ p ∈ (planPut e r x).plan, p.raw = r := by
  rw [plan_planPut]
  split
  next hrefresh =>
    obtain ⟨p, hp, hsame⟩ := List.any_eq_true.mp hrefresh
    exact ⟨p, hp, eq_of_beq (Bool.and_eq_true_iff.mp hsame).2⟩
  next => exact ⟨_, List.mem_append_right _ (List.mem_singleton_self _), rfl⟩

/-! ### A block of four -/

/-- The lane's count of blocks of a frame, which a block raises. -/
def oneMoreBlock (x : LaneSt) : LaneSt := { x with mapsTaken := x.mapsTaken + 1 }

/-- The state in which the entries of a block are taken. -/
def blockTaken (lane : Lane) (s : State) : State := modLane s lane oneMoreBlock

theorem laneAt_blockTaken_same : laneAt (blockTaken lane s) lane = oneMoreBlock (laneAt s lane) := laneAt_modLane_same ..

theorem laneAt_blockTaken_other (h : l ≠ lane) : laneAt (blockTaken lane s) l = laneAt s l := laneAt_modLane_other _ _ _ _ h

theorem curEpoch_blockTaken : curEpoch (blockTaken lane s) lane = curEpoch s lane :=
  (congrArg (fun x : LaneSt => epochOf x.fn) laneAt_blockTaken_same).trans rfl

theorem grantFull_blockTaken : grantFull (laneAt (blockTaken lane s) lane) e r = grantFull (laneAt s lane) e r :=
  (congrArg (grantFull · e r) laneAt_blockTaken_same).trans rfl

theorem plan_planPut_oneMoreBlock : (planPut e r (oneMoreBlock x)).plan = (planPut e r x).plan := by
  rw [plan_planPut, plan_planPut]
  rfl

/-- Entries that fail their GCRC are counted, one by one, and no more. -/
def entriesFailed (lane : Lane) (ks : List Nat) (s : State) : State := foldS ks (fun _ st => count1 (aGnt lane 0x08) st) s

@[simp] theorem laneAt_count1 {a : Nat} : laneAt (count1 a s) l = laneAt s l := rfl

theorem laneAt_entriesFailed {ks : List Nat} : laneAt (entriesFailed lane ks s) l = laneAt s l :=
  foldS_induction (P := fun t => laneAt t l = laneAt s l) (fun _ _ ht => ht) rfl

theorem entriesFailed_keeps {w : Comp → Bool} {k : Prop} {i : State} {ks : List Nat} (hw : w .counters = true)
    (h : Keeps w k i s) : Keeps w k i (entriesFailed lane ks s) := foldS_keeps (fun _ _ => count1_keeps hw) h

theorem canonical_count1 {a : Nat} (hc : Canonical s) : Canonical (count1 a s) :=
  (count1_keeps (w := fun _ => true) rfl (Keeps.refl _ s fun _ => hc)).canonical

theorem counterAt_entriesFailed {ks : List Nat} (hc : Canonical s) :
    counterAt (entriesFailed lane ks s) (aGnt lane 0x08) = (counterAt s (aGnt lane 0x08) + ks.length) % 2 ^ 64 := by
  unfold entriesFailed
  induction ks generalizing s with
  | nil =>
    obtain ⟨-, ⟨-, -, -, hbound, -, -⟩, -⟩ := hc
    exact (Nat.mod_eq_of_lt (hbound _)).symm
  | cons _ ks ih =>
    have ⟨_, ⟨hctr, _⟩, _⟩ := hc
    rw [foldS_cons, ih (canonical_count1 hc), count1, counterAt_count_same _ _ _ hctr, List.length_cons, Nat.mod_add_mod,
      Nat.add_assoc, Nat.add_comm 1]

theorem foldS_takeEntry_failing {body : BitVec 256} {ks : List Nat} (h : ∀ k ∈ ks, gCrcOk (body.extractLsb' k 64) = false) :
    foldS ks (fun k st => takeEntry g lane (body.extractLsb' k 64) st) s = entriesFailed lane ks s := by
  unfold entriesFailed
  induction ks generalizing s with
  | nil => rfl
  | cons k ks ih =>
    obtain ⟨hk, hks⟩ := List.forall_mem_cons.mp h
    rw [foldS_cons, foldS_cons, takeEntry_failsCrc hk, ih hks]

/-- A block of which the last three entries fail their GCRC. -/
theorem grantMapRxEffect_oneEntry {body : BitVec 256} (hgr : laneGroup s lane = some g)
    (hrest : ∀ k ∈ [128, 64, 0], gCrcOk (body.extractLsb' k 64) = false) : grantMapRxEffect lane body s =
      entriesFailed lane [128, 64, 0] (takeEntry g lane (body.extractLsb' 192 64) (blockTaken lane s)) := by
  rw [← foldS_takeEntry_failing hrest (g := g)]
  unfold grantMapRxEffect
  simp -zeta only [hgr]
  exact foldS_cons ..

theorem grantMapRxEffect_noEntry {body : BitVec 256} (hgr : laneGroup s lane = some g)
    (hall : ∀ k ∈ [192, 128, 64, 0], gCrcOk (body.extractLsb' k 64) = false) :
    grantMapRxEffect lane body s = entriesFailed lane [192, 128, 64, 0] (blockTaken lane s) := by
  unfold grantMapRxEffect
  simp -zeta only [hgr]
  exact foldS_takeEntry_failing hall

/-- A block of which the first entry changes its lane by `f` and the others fail their GCRC. -/
def oneEntryTaken (lane : Lane) (f : LaneSt → LaneSt) (s : State) : State :=
  entriesFailed lane [128, 64, 0] (count1 (aGnt lane 0x00) (modLane (blockTaken lane s) lane f))

theorem laneAt_oneEntryTaken_same {f : LaneSt → LaneSt} :
    laneAt (oneEntryTaken lane f s) lane = f (oneMoreBlock (laneAt s lane)) := by
  rw [oneEntryTaken, laneAt_entriesFailed, laneAt_count1, laneAt_modLane_same, laneAt_blockTaken_same]

theorem laneAt_oneEntryTaken_other {f : LaneSt → LaneSt} (h : l ≠ lane) : laneAt (oneEntryTaken lane f s) l = laneAt s l := by
  rw [oneEntryTaken, laneAt_entriesFailed, laneAt_count1, laneAt_modLane_other _ _ _ _ h, laneAt_blockTaken_other h]

theorem oneEntryTaken_onlyChanges {f : LaneSt → LaneSt} : OnlyChanges [.counters, .lanes] s (oneEntryTaken lane f s) :=
  (entriesFailed_keeps rfl (count1_keeps rfl (modLane_keeps rfl (modLane_keeps rfl (keeps_self _ s))))).onlyChanges

/-- The first entry of a block, accepted, enters the plan or the map of its lane. -/
theorem grantMapRxEffect_accepted {body : BitVec 256} (hgr : laneGroup s lane = some g)
    (hrest : ∀ k ∈ [128, 64, 0], gCrcOk (body.extractLsb' k 64) = false) (hr : body.extractLsb' 192 64 = r)
    (hcrc : gCrcOk r = true) (hown : grantOwn (groupAt s g) r = true) (hfields : gFieldsOk r = true)
    (hroom : grantFull (laneAt s lane) (epochAdd (curEpoch s lane) 1) r = false) :
    grantMapRxEffect lane body s = oneEntryTaken lane
      (if grantStands r then planPut (epochAdd (curEpoch s lane) 1) r else mapPut (epochAdd (curEpoch s lane) 1) r) s := by
  rw [← curEpoch_blockTaken] at hroom ⊢
  rw [grantMapRxEffect_oneEntry hgr hrest, hr,
    takeEntry_accepted (s := blockTaken lane s) hcrc hown hfields (grantFull_blockTaken.trans hroom)]
  rfl

/-- The first entry of a block, refused, leaves the lanes as the block itself does. -/
theorem laneAt_grantMapRxEffect_refused {body : BitVec 256} (hgr : laneGroup s lane = some g)
    (hrest : ∀ k ∈ [128, 64, 0], gCrcOk (body.extractLsb' k 64) = false) (hr : body.extractLsb' 192 64 = r)
    (hcrc : gCrcOk r = true) (h : grantOwn (groupAt s g) r = false ∨ gFieldsOk r = false ∨
      grantFull (laneAt s lane) (epochAdd (curEpoch s lane) 1) r = true) :
    laneAt (grantMapRxEffect lane body s) l = laneAt (blockTaken lane s) l := by
  rw [← grantFull_blockTaken, ← curEpoch_blockTaken] at h
  rw [grantMapRxEffect_oneEntry hgr hrest, laneAt_entriesFailed, hr, laneAt_takeEntry_refused hcrc h]

theorem exec_grantMapRx {body : BitVec 256} (hg : grantMapRxGuard lane s = true) :
    exec (.grantMapRx lane body) s = .next (grantMapRxEffect lane body s) := next_whenB hg

end

/-- Settles O39: the entries that fail their GCRC are counted and no more, so that the block does what its first entry does. -/
theorem grantMapEntries : Obligations.GrantMapEntries := by
  unfold Obligations.GrantMapEntries
  intro lane g body s hguard hgr hcanon hrest
  refine ⟨fun hcrc => ?_, fun hcrc hown hfields hstands hroom => ?_, fun hcrc hown hfields hstands hroom => ?_,
    fun hcrc hrefused => ?_⟩ <;> refine ⟨_, exec_grantMapRx hguard, ?_⟩
  · rw [grantMapRxEffect_noEntry hgr (List.forall_mem_cons.mpr ⟨hcrc, hrest⟩), laneAt_entriesFailed, laneAt_blockTaken_same]
    exact ⟨counterAt_entriesFailed (modLane_keeps (w := fun _ => true) rfl (Keeps.refl _ s fun _ => hcanon)).canonical, rfl, rfl,
      (entriesFailed_keeps rfl (modLane_keeps rfl (keeps_self _ s))).onlyChanges⟩
  · rw [grantMapRxEffect_accepted hgr hrest rfl hcrc hown hfields hroom, hstands, if_neg Bool.false_ne_true,
      laneAt_oneEntryTaken_same]
    exact ⟨mapAt_mapPut_same, fun e he => mapAt_mapPut_other he, rfl, fun l hl => laneAt_oneEntryTaken_other hl,
      oneEntryTaken_onlyChanges⟩
  · rw [grantMapRxEffect_accepted hgr hrest rfl hcrc hown hfields hroom, hstands, if_pos rfl, laneAt_oneEntryTaken_same,
      maps_planPut, plan_planPut_oneMoreBlock]
    exact ⟨rfl, rfl, fun p => mem_planPut, exists_mem_planPut, fun l hl => laneAt_oneEntryTaken_other hl,
      oneEntryTaken_onlyChanges⟩
  · have hlane : ∀ l, laneAt (grantMapRxEffect lane body s) l = laneAt (blockTaken lane s) l :=
      fun l => laneAt_grantMapRxEffect_refused hgr hrest rfl hcrc hrefused
    rw [hlane, laneAt_blockTaken_same]
    exact ⟨rfl, rfl, fun l hl => (hlane l).trans (laneAt_blockTaken_other hl),
      (grantMapRxEffect_keeps rfl rfl rfl rfl rfl (keeps_self _ s)).onlyChanges⟩

/-! ## The ends of bursts, of FILL and of JUMP_HOLD (R119, R142, R155) -/

section
variable {g : GroupId} {lane : Lane} {b : Burst} {s : State}

theorem exec_burstEndLeave (hg : burstEndLeaveGuard lane s = true) :
    exec (.burstEndLeave lane) s = .next (burstEndLeaveEffect lane s) := next_whenB hg

theorem exec_fillEnd (hg : fillEndGuard lane s = true) : exec (.fillEnd lane) s = .next (fillEndEffect lane s) := next_whenB hg

theorem exec_jumpHoldClear (hg : jumpHoldClearGuard lane s = true) :
    exec (.jumpHoldClear lane) s = .next (jumpHoldClearEffect lane s) := next_whenB hg

/-- Whatever a burst's end counts and releases, the lane's own change comes last. -/
theorem laneAt_burstEndLeaveEffect (hgr : laneGroup s lane = some g) (hb : (laneAt s lane).burst = some b) :
    ∃ x : LaneSt, laneAt (burstEndLeaveEffect lane s) lane =
      { x with burst := none, out := afterBurst b, lastEnd := some (burstEnd b) } := by
  unfold burstEndLeaveEffect
  simp -zeta only [hgr, hb]
  exact ⟨_, laneAt_modLane_same ..⟩

end

/-- Settles O40: each of the three events ends in a change of its own lane. -/
theorem burstsAndFillEnd : Obligations.BurstsAndFillEnd := by
  unfold Obligations.BurstsAndFillEnd
  refine fun lane s => ⟨fun g b hgr hb hguard => ?_, exec_fillEnd, exec_jumpHoldClear⟩
  obtain ⟨x, hx⟩ := laneAt_burstEndLeaveEffect hgr hb
  refine ⟨_, exec_burstEndLeave hguard, ?_⟩
  rw [hx]
  exact ⟨rfl, rfl, rfl⟩

end Sys2Proof.Machine
end

section
/-!
PROOFS.  The statement about arrival averages, RUNAHEAD_SET and ACCOUNT_STOP (O41).
-/
namespace Sys2Proof.Machine

/-! ## Arrival averages (R147) -/

section
variable {α : Type} {i : α → AccountId} {f : AccountSt → AccountSt} {g : GroupId} {a : AccountId} {n : Fin 64}
  {x : α} {l : List α} {s : State}

theorem acctGroup_accountOf : acctGroup (accountOf g n) = g := Fin.ext (by simp only [acctGroup, accountOf]; omega)

theorem accountOf_injective : Function.Injective (accountOf g) := fun m n h => by
  have hval : 64 * g.val + m.val = 64 * g.val + n.val := congrArg Fin.val h
  exact Fin.ext (Nat.add_left_cancel hval)

/-- A change of the accounts of a list leaves every other account. -/
theorem acctAt_foldS_modAcct_other (h : ∀ x ∈ l, a ≠ i x) :
    acctAt (foldS l (fun y st => modAcct st (i y) f) s) a = acctAt s a := by
  induction l generalizing s with
  | nil => rfl
  | cons y l ih =>
    obtain ⟨hy, hl⟩ := List.forall_mem_cons.mp h
    rw [foldS_cons, ih hl, acctAt_modAcct_other _ _ _ _ hy]

/-- An account that a list names once is changed once. -/
theorem acctAt_foldS_modAcct_same (hi : Function.Injective i) (hl : l.Nodup) (hx : x ∈ l) :
    acctAt (foldS l (fun y st => modAcct st (i y) f) s) (i x) = f (acctAt s (i x)) := by
  induction l generalizing s with
  | nil => cases hx
  | cons y l ih =>
    obtain ⟨hy, hl⟩ := List.nodup_cons.mp hl
    rw [foldS_cons]
    rcases List.mem_cons.mp hx with rfl | hx
    · rw [acctAt_foldS_modAcct_other fun z hz => hi.ne (ne_of_mem_of_not_mem hz hy).symm, acctAt_modAcct_same]
    · rw [ih hl hx, acctAt_modAcct_other _ _ _ _ (hi.ne (ne_of_mem_of_not_mem hx hy))]

/-- An account after a rate update: its averages moved, a new period begun. -/
def averaged (x : AccountSt) : AccountSt :=
  { x with rate1 := averageStep x.rate1 x.arrived 100, rate8 := averageStep x.rate8 x.arrived 800,
           rate64 := averageStep x.rate64 x.arrived 6400, arrived := 0 }

@[simp] theorem acctAt_modGroup {f : GroupSt → GroupSt} : acctAt (modGroup s g f) a = acctAt s a := rfl

/-- Of a rate update the group keeps the time only: the accounts are those that the averages make. -/
theorem acctAt_rateUpdateEffect : acctAt (rateUpdateEffect g s) a =
    acctAt (foldS (List.finRange 64) (fun n st => modAcct st (accountOf g n) averaged) s) a := acctAt_modGroup

theorem acctAt_rateUpdateEffect_same : acctAt (rateUpdateEffect g s) (accountOf g n) = averaged (acctAt s (accountOf g n)) :=
  acctAt_rateUpdateEffect.trans (acctAt_foldS_modAcct_same accountOf_injective (List.nodup_finRange 64) (List.mem_finRange n))

theorem acctAt_rateUpdateEffect_other (h : acctGroup a ≠ g) : acctAt (rateUpdateEffect g s) a = acctAt s a :=
  acctAt_rateUpdateEffect.trans (acctAt_foldS_modAcct_other fun _ _ ha => h (ha ▸ acctGroup_accountOf))

theorem exec_rateUpdate (hg : rateUpdateGuard g s = true) : exec (.rateUpdate g) s = .next (rateUpdateEffect g s) :=
  next_whenB hg

end

/-! ## RUNAHEAD_SET (R179) -/

/-- The weights of a RUNAHEAD_SET that passes its checks add up to 16. -/
theorem weights_of_runaheadSetChecks {r : Request} {s : State} (h : firstFailing (runaheadSetChecks r s) = none) :
    r.u8 20 + r.u8 21 + r.u8 22 = 16 :=
  bne_eq_false_iff_eq.mp
    (fails_of_firstFailing_none h (List.mem_cons_of_mem _ (List.mem_cons_of_mem _ (List.mem_cons_self ..))))

/-! ## What a fog leaves of an account (R165 to R168) -/

/-- No account has been stopped or started. -/
def SameStopped (s t : State) : Prop := ∀ a, (acctAt t a).stopped = (acctAt s a).stopped

section
variable {α : Type} {g : GroupId} {a : AccountId} {l : List α} {off : Nat} {fs : List Latent} {seed : Latent → Bool}
  {after : FogAfter} {dropRem : Bool} {ps : List Packet} {p : Packet} {now : Nat} {x : AccountSt} {s t u : State}

theorem SameStopped.refl (s : State) : SameStopped s s := fun _ => rfl

theorem SameStopped.trans (h : SameStopped s t) (h' : SameStopped t u) : SameStopped s u := fun a => (h' a).trans (h a)

/-- What changes no account. -/
theorem Keeps.sameStopped {w : Comp → Bool} {k : Prop} (h : Keeps w k s t) (hw : w .accounts = false) : SameStopped s t := by
  obtain ⟨haccounts, -⟩ := h.same .accounts hw
  exact fun a => congrArg (fun v : Vector AccountSt 256 => v[a].stopped) haccounts

theorem modAcct_sameStopped {f : AccountSt → AccountSt} (hf : ∀ x, (f x).stopped = x.stopped) :
    SameStopped s (modAcct s a f) := fun b => by
  by_cases hb : b = a
  · rw [hb, acctAt_modAcct_same, hf]
  · rw [acctAt_modAcct_other _ _ _ _ hb]

theorem foldS_sameStopped {f : α → State → State} (hf : ∀ x t, SameStopped t (f x t)) : SameStopped s (foldS l f s) :=
  foldS_induction (fun x t ht => ht.trans (hf x t)) (SameStopped.refl s)

/-- Packets going back to their queues change queues and shapers only. -/
theorem stopped_returnToQueues : (returnToQueues now x ps).stopped = x.stopped :=
  List.foldlRecOn (motive := fun y : AccountSt => y.stopped = x.stopped) ps _ rfl fun _ hy _ _ => hy

theorem loseRemainder_sameStopped : SameStopped s (loseRemainder g a p s) :=
  ((count1_keeps rfl (dropBuf_keeps rfl rfl rfl rfl rfl rfl
    (keeps_self [.counters, .flags, .log, .ports, .bufs, .history] s))).sameStopped rfl).trans (modAcct_sameStopped fun _ => rfl)

theorem fogAccount_sameStopped : SameStopped s (fogAccount g dropRem fs a s) := by
  unfold fogAccount
  extract_lets ps back ids s1 s2 s3 s4
  have h1 : SameStopped s s1 := (foldS_keeps (fun _ _ => passBuf_keeps rfl rfl rfl rfl rfl rfl)
    (keeps_self [.counters, .flags, .log, .ports, .bufs, .history] s)).sameStopped rfl
  have h2 : SameStopped s s2 := h1.trans (modAcct_sameStopped fun _ => stopped_returnToQueues)
  have h4 : SameStopped s s4 := h2.trans (modAcct_sameStopped (s := s3) fun x => by
    cases x.remainder with
    | none => rfl
    | some r => exact (apply_ite AccountSt.stopped ..).trans (ite_self _))
  split
  · split
    · exact h4.trans loseRemainder_sameStopped
    · exact h4.trans (modAcct_sameStopped fun _ => rfl)
  · split
    · split
      · exact h4.trans loseRemainder_sameStopped
      · exact h4
    · exact h4

/-- After the accounts' own parts a fog changes no account: messages, counts, grants, rebuilds and stalls are not theirs. -/
theorem fogThese_sameStopped : SameStopped s (fogThese g off fs seed after dropRem s) := by
  unfold fogThese
  split
  · exact SameStopped.refl s
  · extract_lets accts s1 s2 s3 s4 s5
    have h1 : SameStopped s s1 := foldS_sameStopped fun _ _ => fogAccount_sameStopped
    have h4 : Keeps (within [.counters, .flags, .log, .lanes, .groups, .slots, .history]) False s1 s4 :=
      setFlag_keeps rfl rfl rfl rfl (count_keeps rfl (count_keeps rfl (count_keeps rfl (returnOam_keeps rfl rfl
        (keeps_self _ s1)))))
    have h5 : Keeps (within [.counters, .flags, .log, .lanes, .groups, .slots, .history]) False s1 s5 :=
      foldS_keeps (fun b t ht => have hdrop := dropLatent_keeps (x0 := g) (x1 := b) rfl ht
        Keeps.ite hdrop (Keeps.ite (missGrant_keeps rfl rfl rfl rfl rfl hdrop) (modGroup_keeps rfl hdrop))) h4
    exact h1.trans ((foldS_keeps (fun _ _ => stallTest_keeps rfl rfl rfl rfl rfl rfl) h5).sameStopped rfl)

theorem fog_sameStopped : SameStopped s (fog g off seed after dropRem s) := fogThese_sameStopped

end

/-! ## ACCOUNT_STOP (R180) -/

section
variable {m : MboxId} {d : Done} {r : Request} {s t : State}

/-- The components of the packet path are the whole of it. -/
theorem Keeps.path_eq {w : Comp → Bool} {k : Prop} (h : Keeps w k s t)
    (hw : ∀ c ∈ [Comp.ports, .ingress, .cls, .bufs, .accounts, .policers], w c = false) : t.path = s.path := by
  have hsame : ∀ c ∈ [Comp.ports, .ingress, .cls, .bufs, .accounts, .policers], c.same s t := fun c hc => h.same c (hw c hc)
  simp only [List.forall_mem_cons, Comp.same] at hsame
  cases hx : s.path
  cases hy : t.path
  simp_all

/-- The components of the trunk are the whole of it. -/
theorem Keeps.trunk_eq {w : Comp → Bool} {k : Prop} (h : Keeps w k s t)
    (hw : ∀ c ∈ [Comp.lanes, .groups, .filter], w c = false) : t.trunk = s.trunk := by
  have hsame : ∀ c ∈ [Comp.lanes, .groups, .filter], c.same s t := fun c hc => h.same c (hw c hc)
  simp only [List.forall_mem_cons, Comp.same] at hsame
  cases hx : s.trunk
  cases hy : t.trunk
  simp_all

/-- What the answer of a command may change. -/
theorem finish_keeps_answer : Keeps (within [.env, .bridge, .anchor, .mail, .log]) False d.st (finish m d) :=
  finish_keeps rfl rfl rfl rfl rfl (keeps_self _ d.st)

theorem path_finish : (finish m d).path = d.st.path := finish_keeps_answer.path_eq (by decide)

theorem trunk_finish : (finish m d).trunk = d.st.trunk := finish_keeps_answer.trunk_eq (by decide)

/-- The account that an ACCOUNT_STOP names. -/
def asAccount (r : Request) : AccountId := accountNo (r.u8 0) (r.u8 1)

theorem accountStopApply_already (h : (acctAt s (asAccount r)).stopped = (r.u8 2 == 1)) : accountStopApply r s = okDone s :=
  if_pos h

/-- The state asked for is written first; the fog of a stop then leaves it so. -/
theorem stopped_accountStopApply : (acctAt (accountStopApply r s).st (asAccount r)).stopped = (r.u8 2 == 1) := by
  unfold accountStopApply
  extract_lets a stop s1
  have hwritten : (acctAt s1 a).stopped = stop := congrArg AccountSt.stopped (acctAt_modAcct_same ..)
  split
  next halready => exact halready
  next =>
    split
    · exact (fog_sameStopped a).trans hwritten
    · exact hwritten

end

/-- Settles O41.  That the quotient of an average's step is truncated is the model's choice of log 10. -/
theorem forecastCommands : Obligations.ForecastCommands := by
  unfold Obligations.ForecastCommands
  refine ⟨fun g s hg => ?_, fun m r s hcur hchecks => ?_, fun m r s hcur hchecks => ?_⟩
  · exact ⟨_, exec_rateUpdate hg, fun a => acctAt_rateUpdateEffect_same, fun a ha => acctAt_rateUpdateEffect_other ha,
      (rateUpdateEffect_keeps rfl rfl (keeps_self _ s)).onlyChanges⟩
  · exact ⟨_, congrArg Host.Outcome.next (runCommand_pass hcur hchecks), groupAt_finish.trans (groupAt_modGroup_same ..),
      weights_of_runaheadSetChecks hchecks, fun k hk => groupAt_finish.trans (groupAt_modGroup_other _ _ _ _ hk),
      (finish_keeps rfl rfl rfl rfl rfl (runaheadSetApply_keeps rfl (keeps_self _ s))).onlyChanges⟩
  · refine ⟨_, congrArg Host.Outcome.next (runCommand_pass hcur hchecks), ?_, fun halready => ?_⟩
    · exact (congrArg (fun p : PathAll => p.accounts[asAccount r].stopped) path_finish).trans stopped_accountStopApply
    · rw [accountStopApply_already halready]
      exact ⟨path_finish, trunk_finish⟩

end Sys2Proof.Machine
end

section
/-!
PROOFS.  The statement about the defects of a lane, RDI and DISABLE (O42).
-/
namespace Sys2Proof.Machine

/-! ## What the loss of bursts and grants leaves of lanes and groups -/

/-- A lane but for its grant tables, the epoch at which launches resume and the account of the seconds (R79, R127, R209). -/
def lastingLane (x : LaneSt) : LaneSt :=
  { x with tables := [], resume := none, secNo := 0, prevEframes := 0, prevBip := 0, prevDefect := false, eframes := 0,
           bipSec := 0, defectSeen := false }

/-- Two lanes agree on the defects, the window that ended and what is sent. -/
structure LaneAgrees (x y : LaneSt) : Prop where
  los : x.los = y.los
  lof : x.lof = y.lof
  ais : x.ais = y.ais
  sf : x.sf = y.sf
  sd : x.sd = y.sd
  unreach : x.unreach = y.unreach
  winPend : x.winPend = y.winPend
  burst : x.burst = y.burst
  out : x.out = y.out

/-- The binding and the terminal ID of a group. -/
def lastingGroup (x : GroupSt) : List (Lane × Nat) × Nat := (x.binding, x.termId)

/-- From `s` to `t` no lane changes but in its grants and the account of its seconds, and every group keeps its binding and its
terminal ID. -/
structure Lasting (s t : State) : Prop where
  lane : ∀ l, lastingLane (laneAt t l) = lastingLane (laneAt s l)
  group : ∀ k, lastingGroup (groupAt t k) = lastingGroup (groupAt s k)

/-- Every component but the lanes and the groups. -/
def offTrunk (c : Comp) : Bool := c != .lanes && c != .groups

section
variable {x y : LaneSt} {v w : GroupSt} {s t u : State} {g : GroupId}

theorem LaneAgrees.of_lastingLane (h : lastingLane x = lastingLane y) : LaneAgrees x y where
  los := (congrArg LaneSt.los h :)
  lof := (congrArg LaneSt.lof h :)
  ais := (congrArg LaneSt.ais h :)
  sf := (congrArg LaneSt.sf h :)
  sd := (congrArg LaneSt.sd h :)
  unreach := (congrArg LaneSt.unreach h :)
  winPend := (congrArg LaneSt.winPend h :)
  burst := (congrArg LaneSt.burst h :)
  out := (congrArg LaneSt.out h :)

theorem binding_of_lastingGroup (h : lastingGroup v = lastingGroup w) : v.binding = w.binding := congrArg Prod.fst h

theorem termId_of_lastingGroup (h : lastingGroup v = lastingGroup w) : v.termId = w.termId := congrArg Prod.snd h

theorem Lasting.refl (s : State) : Lasting s s := ⟨fun _ => rfl, fun _ => rfl⟩

theorem Lasting.ite {c : Prop} [Decidable c] (h : Lasting s t) (h' : Lasting s u) : Lasting s (if c then t else u) := by
  split <;> assumption

theorem groupLanes_congr (h : lastingGroup (groupAt t g) = lastingGroup (groupAt s g)) : groupLanes t g = groupLanes s g := by
  rw [groupLanes, binding_of_lastingGroup h, groupLanes]

theorem offTrunk_self (s : State) : Keeps offTrunk False s s := Keeps.refl _ s False.elim

end

section
variable {α : Type} {g : GroupId} {l : Lane} {a : AccountId} {ls : List α} {n m : Nat} {b : Latent} {fs : List Latent}
  {seed : Latent → Bool} {after : FogAfter} {dropRem : Bool} {i s t : State} (h : Lasting i s)
include h

/-- What changes neither lanes nor groups. -/
theorem Lasting.keeps (ht : Keeps offTrunk False s t) : Lasting i t where
  lane l := (congrArg lastingLane (laneAt_congr (ht.trunkLanes rfl))).trans (h.lane l)
  group k := (congrArg lastingGroup (ht.groupAt_eq rfl)).trans (h.group k)

theorem modLane_lasting {f : LaneSt → LaneSt} (hf : ∀ x, lastingLane (f x) = lastingLane x) : Lasting i (modLane s l f) where
  lane j := by
    by_cases hj : j = l
    · rw [hj, laneAt_modLane_same, hf, h.lane]
    · rw [laneAt_modLane_other _ _ _ _ hj, h.lane]
  group := h.group

theorem modGroup_lasting {f : GroupSt → GroupSt} (hf : ∀ x, lastingGroup (f x) = lastingGroup x) :
    Lasting i (modGroup s g f) where
  lane := h.lane
  group j := by
    by_cases hj : j = g
    · rw [hj, groupAt_modGroup_same, hf, h.group]
    · rw [groupAt_modGroup_other _ _ _ _ hj, h.group]

theorem foldS_lasting {f : α → State → State} (hf : ∀ x t, Lasting i t → Lasting i (f x t)) : Lasting i (foldS ls f s) :=
  foldS_induction hf h

theorem count_lasting : Lasting i (count n m s) := h.keeps (count_keeps rfl (offTrunk_self s))

theorem setFlag_lasting : Lasting i (setFlag n m s) := h.keeps (setFlag_keeps rfl rfl rfl rfl (offTrunk_self s))

/-! ### Queued messages and stalls (R87, R348, R352) -/

theorem queueMsg_lasting {body : BitVec 448} : Lasting i (queueMsg g n body s) :=
  .ite h (.ite (count_lasting h) (modGroup_lasting h fun _ => rfl))

theorem queueRdi_lasting : Lasting i (queueRdi g s) :=
  .ite h (.ite (modGroup_lasting h fun _ => rfl) (modGroup_lasting (queueMsg_lasting h) fun _ => rfl))

theorem raiseRekey_lasting {half : Half} : Lasting i (raiseRekey n half m s) := by
  unfold raiseRekey
  extract_lets s1 s2
  have h2 : Lasting i s2 :=
    h.keeps (logEvent_keeps rfl rfl rfl rfl (setFlag_keeps rfl rfl rfl rfl (modHalf_keeps rfl (offTrunk_self s))))
  refine .ite h ?_
  split
  · exact queueMsg_lasting h2
  · exact h2

theorem slotStallTest_lasting : Lasting i (slotStallTest n s) := by
  unfold slotStallTest
  split
  · exact .ite h (raiseRekey_lasting (h.keeps (modSlot_keeps rfl (offTrunk_self s))))
  · exact h

theorem stallTest_lasting : Lasting i (stallTest a s) := by
  unfold stallTest
  split
  · exact slotStallTest_lasting h
  · exact h

/-! ### Fogged and lost bursts (R127, R164, R165) -/

theorem dropLatent_lasting : Lasting i (dropLatent g b s) := modGroup_lasting h fun _ => rfl

theorem missGrant_lasting : Lasting i (missGrant l n m s) := by
  have hdone : Lasting i (markDone l n m s) := modLane_lasting h fun _ => rfl
  exact .ite (hdone.keeps (countMissed_keeps rfl rfl rfl rfl (offTrunk_self _))) h

theorem returnOam_lasting {ms : List UpMsg} : Lasting i (returnOam g ms s) :=
  count_lasting (modGroup_lasting h fun _ => rfl)

theorem fogThese_lasting : Lasting i (fogThese g n fs seed after dropRem s) := by
  unfold fogThese
  extract_lets accts s1 s2 s3 s4 s5
  have h1 : Lasting i s1 :=
    foldS_lasting h fun _ t ht => ht.keeps (fogAccount_keeps rfl rfl rfl rfl rfl rfl rfl (offTrunk_self t))
  have h2 : Lasting i s2 := returnOam_lasting h1
  have h4 : Lasting i s4 := setFlag_lasting (count_lasting (count_lasting (count_lasting h2)))
  have h5 : Lasting i s5 := foldS_lasting h4 fun _ _ ht =>
    .ite (dropLatent_lasting ht) (.ite (missGrant_lasting (dropLatent_lasting ht))
      (modGroup_lasting (dropLatent_lasting ht) fun _ => rfl))
  exact .ite h (foldS_lasting h5 fun _ _ => stallTest_lasting)

theorem dropUnheld_lasting : Lasting i (dropUnheld g seed s) := modGroup_lasting h fun _ => rfl

theorem fogLaneBursts_lasting : Lasting i (fogLaneBursts g l seed s) := dropUnheld_lasting (fogThese_lasting h)

theorem loseDeveloped_lasting : Lasting i (loseDeveloped g b s) := by
  unfold loseDeveloped
  extract_lets a s1 s2
  have h2 : Lasting i s2 := .ite (dropLatent_lasting h) (setFlag_lasting (count_lasting (dropLatent_lasting h)))
  split
  next p _ =>
    extract_lets s3
    have h3 : Lasting i s3 := modGroup_lasting h2 fun x => rfl
    have hlost : Lasting i (count1 (aFragLost g) (dropBuf p.pkt.buf s3)) :=
      h3.keeps (count1_keeps rfl (dropBuf_keeps rfl rfl rfl rfl rfl rfl (offTrunk_self s3)))
    split
    · exact .ite (h3.keeps (loseRemainder_keeps rfl rfl rfl rfl rfl rfl rfl (offTrunk_self s3))) hlost
    · exact hlost
  · exact h2

theorem loseDevelopedWhere_lasting : Lasting i (loseDevelopedWhere g seed s) :=
  foldS_lasting h fun _ _ ht => stallTest_lasting (loseDeveloped_lasting ht)

theorem discardRemainders_lasting : Lasting i (discardRemainders g s) :=
  h.keeps (discardRemainders_keeps rfl rfl rfl rfl rfl rfl rfl (offTrunk_self s))

theorem stopBursts_lasting : Lasting i (stopBursts g s) := by
  have hfog : Lasting i (fogStopAll g s) := dropUnheld_lasting (fogThese_lasting h)
  exact discardRemainders_lasting (loseDevelopedWhere_lasting hfog)

/-! ### HOLDOVER (R79) -/

theorem enterHoldover_lasting : Lasting i (enterHoldover g s) := by
  unfold enterHoldover
  extract_lets s1 s2
  have h1 : Lasting i s1 := modGroup_lasting (setFlag_lasting h) fun _ => rfl
  have h2 : Lasting i s2 := foldS_lasting h1 fun _ _ => fogLaneBursts_lasting
  exact discardRemainders_lasting (loseDevelopedWhere_lasting h2)

theorem leaveHoldover_lasting : Lasting i (leaveHoldover g s) := by
  unfold leaveHoldover
  refine foldS_lasting ?_ fun _ _ ht => ?_
  · exact modGroup_lasting h fun _ => rfl
  · exact modLane_lasting ht fun _ => rfl

theorem holdoverTest_lasting : Lasting i (holdoverTest g s) :=
  .ite (enterHoldover_lasting h) (.ite (leaveHoldover_lasting h) h)

end

/-! ### Link fault and signal fail (R187, R201) -/

section
variable {g k : GroupId} {l : Lane} {i s : State}

theorem laneAt_followLinkFault : laneAt (followLinkFault g s) l = laneAt s l :=
  laneAt_congr ((followLinkFault_keeps (w := offLanes) rfl rfl rfl rfl rfl (Keeps.refl _ s False.elim)).trunkLanes rfl)

theorem laneAt_noteSf : laneAt (noteSf g s) l = laneAt s l :=
  laneAt_congr ((noteSf_keeps (w := offLanes) rfl (Keeps.refl _ s False.elim)).trunkLanes rfl)

theorem groupAt_refreshLinkFault : ∃ c, groupAt (refreshLinkFault g s) k = { groupAt s k with linkFault := c } := by
  unfold refreshLinkFault
  extract_lets c s1
  have h1 : ∃ c, groupAt s1 k = { groupAt s k with linkFault := c } := by
    by_cases hk : k = g
    · exact ⟨c, hk ▸ groupAt_modGroup_same ..⟩
    · exact ⟨_, groupAt_modGroup_other _ _ _ _ hk⟩
  split
  · exact ⟨_, rfl⟩
  · split
    · rwa [groupAt_setFlag]
    · exact h1

theorem groupAt_followLinkFault : ∃ c, groupAt (followLinkFault g s) k = { groupAt s k with linkFault := c } := by
  unfold followLinkFault
  split
  · exact ⟨_, rfl⟩
  · exact groupAt_refreshLinkFault

theorem groupAt_noteSf : ∃ p, groupAt (noteSf g s) k = { groupAt s k with prot := p } := by
  unfold noteSf
  split
  · by_cases hk : k = pairHome s g
    · rw [hk, groupAt_modGroup_same]
      exact ⟨_, rfl⟩
    · exact ⟨_, groupAt_modGroup_other _ _ _ _ hk⟩
  · exact ⟨_, rfl⟩

variable (h : Lasting i s)
include h

theorem followLinkFault_lasting : Lasting i (followLinkFault g s) where
  lane l := by rw [laneAt_followLinkFault, h.lane]
  group k := by
    obtain ⟨c, hc⟩ := groupAt_followLinkFault (g := g) (k := k) (s := s)
    rw [hc, ← h.group]
    rfl

theorem noteSf_lasting : Lasting i (noteSf g s) where
  lane l := by rw [laneAt_noteSf, h.lane]
  group k := by
    obtain ⟨p, hp⟩ := groupAt_noteSf (g := g) (k := k) (s := s)
    rw [hp, ← h.group]
    rfl

end

/-! ## A change of a lane's defects (R182, R184, R209) -/

section
variable {l lane : Lane} {n : Nat} {x : LaneSt} {f : LaneSt → LaneSt} {s : State}

/-- A lane after a change of its defects, made in second `n`. -/
def defectsChanged (n : Nat) (f : LaneSt → LaneSt) (x : LaneSt) : LaneSt :=
  let y := f (turnSecond n x)
  { y with defectSeen := y.defectSeen || y.los || y.lof || y.ais || y.sf }

/-- A change of a lane that reads and writes only what lasts. -/
def OnLasting (f : LaneSt → LaneSt) : Prop := ∀ x, lastingLane (f x) = lastingLane (f (lastingLane x))

theorem lastingLane_turnSecond : lastingLane (turnSecond n x) = lastingLane x := by
  unfold turnSecond
  split <;> rfl

theorem lastingLane_defectsChanged (hf : OnLasting f) : lastingLane (defectsChanged n f x) = lastingLane (f x) := calc
  lastingLane (f (turnSecond n x)) = lastingLane (f (lastingLane (turnSecond n x))) := hf _
  _ = lastingLane (f (lastingLane x)) := by rw [lastingLane_turnSecond]
  _ = lastingLane (f x) := (hf x).symm

/-- After the lane's own change its flags, its counts, and what follows in the group. -/
theorem changeDefects_lasting : Lasting (modLane s lane (defectsChanged s.time.sec.toNat f)) (changeDefects lane f s) := by
  unfold changeDefects
  extract_lets x y s1 s2
  have h1 : Lasting (modLane s lane (defectsChanged s.time.sec.toNat f)) s1 := .refl _
  have h2 : Lasting (modLane s lane (defectsChanged s.time.sec.toNat f)) s2 :=
    foldS_lasting h1 fun _ t ht => ht.keeps (defectMarks_keeps rfl rfl rfl rfl (offTrunk_self t))
  refine .ite h1 (.ite h2 ?_)
  split
  · exact noteSf_lasting (holdoverTest_lasting (queueRdi_lasting (followLinkFault_lasting h2)))
  · exact h2

theorem lastingLane_changeDefects_same (hf : OnLasting f) :
    lastingLane (laneAt (changeDefects lane f s) lane) = lastingLane (f (laneAt s lane)) := by
  rw [changeDefects_lasting.lane, laneAt_modLane_same, lastingLane_defectsChanged hf]

theorem lastingLane_changeDefects_other (h : l ≠ lane) :
    lastingLane (laneAt (changeDefects lane f s) l) = lastingLane (laneAt s l) := by
  rw [changeDefects_lasting.lane, laneAt_modLane_other _ _ _ _ h]

end

/-! ## A burst that stops (R185, R192) -/

section
variable {g k : GroupId} {l lane : Lane} {i s : State}

/-- A lane that sends nothing. -/
def darkened (x : LaneSt) : LaneSt := { x with burst := none, out := .dark }

/-- What a stopped burst loses comes first, and then the lane goes dark. -/
theorem cutBurst_eq (h : Lasting i s) : ∃ u, Lasting i u ∧ cutBurst g lane s = modLane u lane darkened := by
  unfold cutBurst
  extract_lets s1
  refine ⟨s1, ?_, rfl⟩
  unfold s1
  split
  next b _ =>
    have hsent : Lasting i (countSent g lane b (sentBlocks b (groupAt s g).ctr) s) :=
      h.keeps (countSent_keeps rfl rfl rfl (offTrunk_self s))
    exact .ite (stallTest_lasting (loseDeveloped_lasting hsent)) hsent
  · exact h

theorem truncateBurst_eq : ∃ u, Lasting s u ∧ truncateBurst g lane s = modLane u lane darkened :=
  cutBurst_eq ((Lasting.refl s).keeps (whenB_keeps (fun _ => count1_keeps rfl) (offTrunk_self s)))

theorem lastingLane_truncateBurst_same :
    lastingLane (laneAt (truncateBurst g lane s) lane) = lastingLane (darkened (laneAt s lane)) := by
  obtain ⟨u, hu, heq⟩ := truncateBurst_eq (g := g) (lane := lane) (s := s)
  rw [heq, laneAt_modLane_same]
  exact congrArg darkened (hu.lane lane)

theorem lastingLane_truncateBurst_other (h : l ≠ lane) :
    lastingLane (laneAt (truncateBurst g lane s) l) = lastingLane (laneAt s l) := by
  obtain ⟨u, hu, heq⟩ := truncateBurst_eq (g := g) (lane := lane) (s := s)
  rw [heq, laneAt_modLane_other _ _ _ _ h, hu.lane]

theorem lastingGroup_truncateBurst : lastingGroup (groupAt (truncateBurst g lane s) k) = lastingGroup (groupAt s k) := by
  obtain ⟨u, hu, heq⟩ := truncateBurst_eq (g := g) (lane := lane) (s := s)
  rw [heq, groupAt_modLane, hu.group]

end

/-! ## LOS, LOF, SF and SD (R182, R183, R185) -/

section
variable {g : GroupId} {l lane : Lane} {n run thresh : Nat} {on ok c : Bool} {s t : State}

/-! ### The lane of the event -/

/-- A lane on which LOS is declared: nothing is sent (R185). -/
def losDeclared (u : Bool) (x : LaneSt) : LaneSt := { darkened x with los := true, unreach := u }

theorem lastingLane_losDeclareEffect (hgr : laneGroup s lane = some g) : lastingLane (laneAt (losDeclareEffect lane s) lane) =
    lastingLane (losDeclared (losHeld s (laneAt s lane).losReach) (laneAt s lane)) := by
  unfold losDeclareEffect
  simp -zeta only [hgr]
  extract_lets u s1 s2
  have h2 : Lasting (truncateBurst g lane s) s2 := loseDevelopedWhere_lasting (fogLaneBursts_lasting (.refl _))
  have hlane : lastingLane (laneAt s2 lane) = lastingLane (darkened (laneAt s lane)) :=
    (h2.lane lane).trans lastingLane_truncateBurst_same
  rw [lastingLane_changeDefects_same fun _ => rfl]
  exact congrArg (fun x : LaneSt => { x with los := true, unreach := u }) hlane

theorem lastingLane_losClearEffect : lastingLane (laneAt (losClearEffect lane s) lane) =
    lastingLane { laneAt s lane with los := false, unreach := false } := lastingLane_changeDefects_same fun _ => rfl

theorem lastingLane_lofDeclareEffect (hgr : laneGroup s lane = some g) :
    lastingLane (laneAt (lofDeclareEffect lane s) lane) = lastingLane { laneAt s lane with lof := true } := by
  unfold lofDeclareEffect
  simp -zeta only [hgr]
  extract_lets s1
  have h1 : Lasting s s1 := loseDevelopedWhere_lasting (fogLaneBursts_lasting (.refl s))
  rw [lastingLane_changeDefects_same fun _ => rfl]
  exact congrArg (fun x : LaneSt => { x with lof := true }) (h1.lane lane)

theorem lastingLane_lofClearEffect : lastingLane (laneAt (lofClearEffect lane s) lane) =
    lastingLane { laneAt s lane with lof := false } := lastingLane_changeDefects_same fun _ => rfl

/-- The window that ended with a count of `n` is done with. -/
def windowTaken (n : Nat) (ok : Bool) (x : LaneSt) : LaneSt := { x with winPend := none, lastWinBits := n, lastWinEval := ok }

/-- SF and SD after a window evaluated with a count of `n` (R182). -/
def windowJudged (n : Nat) (x : LaneSt) : LaneSt :=
  { x with sf := (thresholdStep x.sf x.sfClear n x.endSf).1, sfClear := (thresholdStep x.sf x.sfClear n x.endSf).2,
           sd := (thresholdStep x.sd x.sdClear n x.endSd).1, sdClear := (thresholdStep x.sd x.sdClear n x.endSd).2 }

theorem lastingLane_windowEvaluateEffect (hgr : laneGroup s lane = some g) (hw : (laneAt s lane).winPend = some (n, ok)) :
    lastingLane (laneAt (windowEvaluateEffect lane s) lane) =
      lastingLane (if ok then windowJudged n (windowTaken n ok (laneAt s lane)) else windowTaken n ok (laneAt s lane)) := by
  unfold windowEvaluateEffect
  simp -zeta only [hgr, hw, Option.isSome_some]
  extract_lets s1
  have h1 : laneAt s1 lane = windowTaken n ok (laneAt s lane) := laneAt_modLane_same ..
  split
  · exact (lastingLane_changeDefects_same fun _ => rfl).trans (congrArg (fun x => lastingLane (windowJudged n x)) h1)
  · exact congrArg lastingLane h1

theorem thresholdStep_reached (h : thresh ≤ n) : (thresholdStep on run n thresh).1 = true := by simp [thresholdStep, h]

theorem thresholdStep_below (h : n < thresh) : (thresholdStep on run n thresh).1 = (on && decide (run + 1 < 10)) := by
  unfold thresholdStep
  rw [if_neg (by omega)]
  cases on
  · rfl
  · rw [if_pos rfl, Bool.true_and]
    split
    next hten => exact (decide_eq_false (by omega)).symm
    next hten => exact (decide_eq_true (by omega)).symm

/-! ### The other lanes -/

theorem lastingLane_losDeclareEffect_other (h : l ≠ lane) :
    lastingLane (laneAt (losDeclareEffect lane s) l) = lastingLane (laneAt s l) := by
  unfold losDeclareEffect
  split
  · rw [lastingLane_changeDefects_other h, (loseDevelopedWhere_lasting (fogLaneBursts_lasting (.refl _))).lane,
      lastingLane_truncateBurst_other h]
  · rfl

theorem lastingLane_lofDeclareEffect_other (h : l ≠ lane) :
    lastingLane (laneAt (lofDeclareEffect lane s) l) = lastingLane (laneAt s l) := by
  unfold lofDeclareEffect
  split
  · rw [lastingLane_changeDefects_other h, (loseDevelopedWhere_lasting (fogLaneBursts_lasting (.refl s))).lane]
  · rfl

theorem lastingLane_windowEvaluateEffect_other (h : l ≠ lane) :
    lastingLane (laneAt (windowEvaluateEffect lane s) l) = lastingLane (laneAt s l) := by
  unfold windowEvaluateEffect
  split
  · extract_lets s1
    have h1 : lastingLane (laneAt s1 l) = lastingLane (laneAt s l) := congrArg lastingLane (laneAt_modLane_other _ _ _ _ h)
    split
    · rw [lastingLane_changeDefects_other h, h1]
    · exact h1
  · rfl

/-- A row leaves a lane as its effect does, and without its guard as it is. -/
theorem lastingLane_of_next_whenB {f : State → State}
    (ht : (Host.Outcome.next (whenB c f s) : Host.Outcome State Fault Refusal) = .next t)
    (hf : lastingLane (laneAt (f s) l) = lastingLane (laneAt s l)) : lastingLane (laneAt t l) = lastingLane (laneAt s l) := by
  rw [← Host.Outcome.next.inj ht]
  cases c
  · rfl
  · exact hf

/-- None of the rows of LOS, LOF and the windows changes another lane's defects. -/
theorem lastingLane_defectRow_other {i : Instr}
    (hi : i ∈ [Instr.losDeclare lane, .losClear lane, .lofDeclare lane, .lofClear lane, .windowEvaluate lane])
    (ht : exec i s = .next t) (h : l ≠ lane) : lastingLane (laneAt t l) = lastingLane (laneAt s l) := by
  simp only [List.mem_cons, List.not_mem_nil, or_false] at hi
  obtain rfl | rfl | rfl | rfl | rfl := hi
  · exact lastingLane_of_next_whenB ht (lastingLane_losDeclareEffect_other h)
  · exact lastingLane_of_next_whenB ht (lastingLane_changeDefects_other h)
  · exact lastingLane_of_next_whenB ht (lastingLane_lofDeclareEffect_other h)
  · exact lastingLane_of_next_whenB ht (lastingLane_changeDefects_other h)
  · exact lastingLane_of_next_whenB ht (lastingLane_windowEvaluateEffect_other h)

/-! ### The rows run -/

theorem laneGroup_of_losDeclareGuard (h : losDeclareGuard lane s = true) : ∃ g, laneGroup s lane = some g := by
  simp only [losDeclareGuard, Bool.and_eq_true] at h
  obtain ⟨⟨hgroup, -⟩, -⟩ := h
  exact Option.isSome_iff_exists.mp hgroup

theorem laneGroup_of_lofDeclareGuard (h : lofDeclareGuard lane s = true) : ∃ g, laneGroup s lane = some g := by
  unfold lofDeclareGuard at h
  split at h
  next g hgr => exact ⟨g, hgr⟩
  · cases h

theorem exec_losDeclare (hg : losDeclareGuard lane s = true) : exec (.losDeclare lane) s = .next (losDeclareEffect lane s) :=
  next_whenB hg

theorem exec_losClear (hg : losClearGuard lane s = true) : exec (.losClear lane) s = .next (losClearEffect lane s) :=
  next_whenB hg

theorem exec_lofDeclare (hg : lofDeclareGuard lane s = true) : exec (.lofDeclare lane) s = .next (lofDeclareEffect lane s) :=
  next_whenB hg

theorem exec_lofClear (hg : lofClearGuard lane s = true) : exec (.lofClear lane) s = .next (lofClearEffect lane s) :=
  next_whenB hg

theorem exec_windowEvaluate (hgr : laneGroup s lane = some g) (hw : (laneAt s lane).winPend = some (n, ok)) :
    exec (.windowEvaluate lane) s = .next (windowEvaluateEffect lane s) :=
  next_whenB (by rw [windowEvaluateGuard, hgr, hw]; rfl)

end

/-! ## RDI (R189) -/

section
variable {g k : GroupId} {lane : Lane} {msg : OamRx} {stamp : Stamp} {s : State}

/-- Of the group of an accepted message only the records of the duplicate test change before the message is acted on (R86). -/
theorem groupAt_received : ∃ ds, groupAt (recordDup g msg stamp (takeUnit lane msg s)) g = { groupAt s g with dups := ds } := by
  have htaken : groupAt (takeUnit lane msg s) g = groupAt s g :=
    (takeUnit_keeps (w := within [.lanes]) rfl (keeps_self _ s)).groupAt_eq rfl
  rw [recordDup, groupAt_modGroup_same, htaken]
  exact ⟨_, rfl⟩

/-- The third message in a row that says the same decides (R189). -/
theorem rdi_rdiAct : (groupAt (rdiAct msg g s) g).rdi =
    if natBit (msgAt msg 4 1) 0 = (groupAt s g).rdiRunVal ∧ 2 ≤ (groupAt s g).rdiRun then natBit (msgAt msg 4 1) 0
    else (groupAt s g).rdi := by
  unfold rdiAct
  extract_lets v x run s1
  have h1 : (groupAt s1 g).rdi = x.rdi := by
    unfold s1 x
    rw [groupAt_modGroup_same, groupAt_count1]
  have hthird : 3 ≤ run ↔ v = x.rdiRunVal ∧ 2 ≤ x.rdiRun := by
    unfold run
    split
    next hv => exact ⟨fun hrun => ⟨hv, Nat.le_of_succ_le_succ hrun⟩, fun ⟨_, hrun⟩ => Nat.succ_le_succ hrun⟩
    next hv => exact iff_of_false (by decide) fun ⟨hval, _⟩ => hv hval
  have hdecides : (if 3 ≤ run then v else x.rdi) = if v = x.rdiRunVal ∧ 2 ≤ x.rdiRun then v else x.rdi :=
    ite_congr (propext hthird) (fun _ => rfl) fun _ => rfl
  refine .trans ?_ hdecides
  by_cases hrun : 3 ≤ run
  · rw [if_pos hrun]
    by_cases hv : x.rdi = v
    · rw [if_neg fun h => h.2 hv, h1, hv]
    · rw [if_pos ⟨hrun, hv⟩, groupAt_setFlag, groupAt_modGroup_same]
  · rw [if_neg hrun, if_neg fun h => hrun h.1, h1]

theorem exec_rdi (htype : msgType msg = 0x0B) (hv : oamVerdict s lane msg = .pass g)
    (hd : isDup (groupAt s g) msg (carrierStamp s lane msg) = false) : exec (.rdi lane msg) s =
      .next (rdiAct msg g (recordDup g msg (carrierStamp s lane msg) (takeUnit lane msg s))) :=
  congrArg Host.Outcome.next (oamReceive_accept htype hv rfl hd)

theorem exec_rdiTimeout (hg : rdiTimeoutGuard g s = true) : exec (.rdiTimeout g) s = .next (rdiTimeoutEffect g s) :=
  next_whenB hg

theorem rdi_rdiTimeoutEffect : (groupAt (rdiTimeoutEffect g s) g).rdi = false := by
  rw [rdiTimeoutEffect, groupAt_setFlag, groupAt_modGroup_same]

theorem groupAt_rdiTimeoutEffect_other (h : k ≠ g) : groupAt (rdiTimeoutEffect g s) k = groupAt s k := by
  rw [rdiTimeoutEffect, groupAt_setFlag, groupAt_modGroup_other _ _ _ _ h]

end

/-! ## DISABLE (R192, R193) -/

section
variable {g k : GroupId} {l lane : Lane} {ls : List Lane} {s : State}

/-- What the item of a list brings about and no item undoes holds after the list. -/
theorem foldS_establishes {α : Type} {x : α} {xs : List α} {f : α → State → State} {P : State → Prop} (hx : x ∈ xs)
    (hset : ∀ t, P (f x t)) (hkeep : ∀ y t, P t → P (f y t)) : P (foldS xs f s) := by
  induction xs generalizing s with
  | nil => cases hx
  | cons y xs ih =>
    rw [foldS_cons]
    rcases List.mem_cons.mp hx with rfl | hx
    · exact foldS_induction hkeep (hset s)
    · exact ih hx

theorem burst_truncateBurst_same : (laneAt (truncateBurst g lane s) lane).burst = none :=
  (LaneAgrees.of_lastingLane lastingLane_truncateBurst_same).burst.trans rfl

theorem burst_truncateBurst_none (h : (laneAt s l).burst = none) : (laneAt (truncateBurst g lane s) l).burst = none := by
  by_cases hl : l = lane
  · exact hl ▸ burst_truncateBurst_same
  · exact (LaneAgrees.of_lastingLane (lastingLane_truncateBurst_other hl)).burst.trans h

/-- What DISABLE loses first: the bursts in progress, and those not yet begun. -/
def burstsStopped (g : GroupId) (s : State) : State := stopBursts g (foldS (groupLanes s g) (truncateBurst g) s)

theorem burst_burstsStopped (h : l ∈ groupLanes s g) : (laneAt (burstsStopped g s) l).burst = none :=
  (LaneAgrees.of_lastingLane ((stopBursts_lasting (.refl _)).lane l)).burst.trans
    (foldS_establishes (P := fun t => (laneAt t l).burst = none) h (fun _ => burst_truncateBurst_same)
      fun _ _ => burst_truncateBurst_none)

theorem lastingGroup_burstsStopped : lastingGroup (groupAt (burstsStopped g s) k) = lastingGroup (groupAt s k) :=
  ((stopBursts_lasting (.refl _)).group k).trans
    (foldS_induction (P := fun t => lastingGroup (groupAt t k) = lastingGroup (groupAt s k))
      (fun _ _ ht => lastingGroup_truncateBurst.trans ht) rfl)

/-- A lane of a group that enters DISABLED: no grants, no request to range, and dark (R193). -/
def disabledLane (x : LaneSt) : LaneSt :=
  { x with maps := [], plan := [], changes := [], tables := [], rangeReq := none, out := .dark }

/-- A group that enters DISABLED (R192, R193). -/
def disabledGroup (x : GroupSt) : GroupSt :=
  { x with st := .disabled, oamQ := [], amends := [], rebuilds := [], waitFrom := none }

theorem burst_disabledLane {x : LaneSt} : (disabledLane x).burst = x.burst := rfl

theorem enterDisabled_eq : enterDisabled g s = modGroup (foldS (groupLanes (burstsStopped g s) g)
    (fun j t => modLane t j disabledLane) (burstsStopped g s)) g disabledGroup := rfl

theorem laneAt_foldS_modLane_other {f : LaneSt → LaneSt} (h : l ∉ ls) :
    laneAt (foldS ls (fun j t => modLane t j f) s) l = laneAt s l := by
  induction ls generalizing s with
  | nil => rfl
  | cons j ls ih =>
    obtain ⟨hj, hls⟩ := not_or.mp (mt List.mem_cons.mpr h)
    rw [foldS_cons, ih hls, laneAt_modLane_other _ _ _ _ hj]

/-- A change of some lanes that comes to the same when made twice is made of each of them. -/
theorem laneAt_foldS_modLane_mem {f : LaneSt → LaneSt} (hf : ∀ x, f (f x) = f x) (h : l ∈ ls) :
    laneAt (foldS ls (fun j t => modLane t j f) s) l = f (laneAt s l) := by
  induction ls generalizing s with
  | nil => cases h
  | cons j ls ih =>
    rw [foldS_cons]
    by_cases hl : l ∈ ls
    · rw [ih hl]
      by_cases hj : l = j
      · rw [hj, laneAt_modLane_same, hf]
      · rw [laneAt_modLane_other _ _ _ _ hj]
    · obtain rfl := (List.mem_cons.mp h).resolve_right hl
      rw [laneAt_foldS_modLane_other hl, laneAt_modLane_same]

theorem groupAt_enterDisabled : groupAt (enterDisabled g s) g = disabledGroup (groupAt (burstsStopped g s) g) := by
  rw [enterDisabled_eq, groupAt_modGroup_same, groupAt_foldS_modLane]

theorem laneAt_enterDisabled (h : l ∈ groupLanes s g) :
    laneAt (enterDisabled g s) l = disabledLane (laneAt (burstsStopped g s) l) := by
  rw [enterDisabled_eq, laneAt_modGroup, groupLanes_congr lastingGroup_burstsStopped,
    laneAt_foldS_modLane_mem (f := disabledLane) (fun _ => rfl) h]

/-- The DISABLE that waited is taken up. -/
def disableTaken (g : GroupId) (s : State) : State := modGroup s g fun x => { x with disableAt := none }

theorem disableTaken_lasting : Lasting s (disableTaken g s) := modGroup_lasting (.refl s) fun _ => rfl

theorem disableApplyEffect_ranged (h : rangedState (groupAt s g) = true) :
    disableApplyEffect g s = noteSf g (followLinkFault g (enterDisabled g (disableTaken g s))) := if_pos h

theorem exec_disableApply (hg : disableApplyGuard g s = true) :
    exec (.disableApply g) s = .next (disableApplyEffect g s) := next_whenB hg

theorem groupAt_disableApplyEffect (h : rangedState (groupAt s g) = true) :
    (groupAt (disableApplyEffect g s) g).st = .disabled ∧
    (groupAt (disableApplyEffect g s) g).termId = (groupAt s g).termId ∧ (groupAt (disableApplyEffect g s) g).oamQ = [] := by
  have hid : (groupAt (burstsStopped g (disableTaken g s)) g).termId = (groupAt s g).termId :=
    termId_of_lastingGroup (lastingGroup_burstsStopped.trans (disableTaken_lasting.group g))
  obtain ⟨p, hp⟩ := groupAt_noteSf (g := g) (k := g) (s := followLinkFault g (enterDisabled g (disableTaken g s)))
  obtain ⟨c, hc⟩ := groupAt_followLinkFault (g := g) (k := g) (s := enterDisabled g (disableTaken g s))
  rw [disableApplyEffect_ranged h, hp, hc, groupAt_enterDisabled]
  generalize groupAt (burstsStopped g (disableTaken g s)) g = x at hid ⊢
  exact ⟨rfl, hid, rfl⟩

theorem laneAt_disableApplyEffect (h : rangedState (groupAt s g) = true) (hl : l ∈ groupLanes s g) :
    (laneAt (disableApplyEffect g s) l).out = .dark ∧ (laneAt (disableApplyEffect g s) l).burst = none ∧
    (laneAt (disableApplyEffect g s) l).tables = [] := by
  have hl : l ∈ groupLanes (disableTaken g s) g := by rwa [groupLanes_congr (disableTaken_lasting.group g)]
  rw [disableApplyEffect_ranged h, laneAt_noteSf, laneAt_followLinkFault, laneAt_enterDisabled hl]
  exact ⟨rfl, burst_disabledLane.trans (burst_burstsStopped hl), rfl⟩

end

/-- Settles O42: whatever a change of a lane's defects and a loss of bursts bring about in the group leaves the defects, the ended
window and the output of every lane, and the binding and the terminal ID of every group.  The thresholds of a window are those it
began with (R213). -/
theorem defectsAndDisable : Obligations.DefectsAndDisable := by
  unfold Obligations.DefectsAndDisable
  refine ⟨fun lane s => ⟨fun hg => ?_, fun hg => ?_, fun hg => ?_, fun hg => ?_, fun g n ok hgr hw => ?_,
    fun i hi t ht l hl => ?_⟩, fun g s => ⟨fun lane msg _ htype hv hd => ?_, fun hg => ?_, fun hg hranged => ?_⟩⟩
  · obtain ⟨g, hgr⟩ := laneGroup_of_losDeclareGuard hg
    have h := LaneAgrees.of_lastingLane (lastingLane_losDeclareEffect hgr)
    exact ⟨_, exec_losDeclare hg, h.los.trans rfl, h.unreach.trans rfl, h.burst.trans rfl, h.out.trans rfl⟩
  · have h := LaneAgrees.of_lastingLane (lastingLane_losClearEffect (lane := lane) (s := s))
    exact ⟨_, exec_losClear hg, h.los.trans rfl, h.lof.trans rfl⟩
  · obtain ⟨g, hgr⟩ := laneGroup_of_lofDeclareGuard hg
    have h := LaneAgrees.of_lastingLane (lastingLane_lofDeclareEffect hgr)
    exact ⟨_, exec_lofDeclare hg, h.lof.trans rfl, h.los.trans rfl⟩
  · have h := LaneAgrees.of_lastingLane (lastingLane_lofClearEffect (lane := lane) (s := s))
    exact ⟨_, exec_lofClear hg, h.lof.trans rfl, h.los.trans rfl⟩
  · have h := LaneAgrees.of_lastingLane (lastingLane_windowEvaluateEffect hgr hw)
    refine ⟨_, exec_windowEvaluate hgr hw, ?_⟩
    cases ok with
    | false => exact ⟨h.winPend.trans rfl, fun _ => ⟨h.sf.trans rfl, h.sd.trans rfl⟩, nofun, nofun, nofun, nofun⟩
    | true =>
      exact ⟨h.winPend.trans rfl, nofun,
        fun _ hn => h.sf.trans (thresholdStep_reached hn), fun _ hn => h.sf.trans (thresholdStep_below hn),
        fun _ hn => h.sd.trans (thresholdStep_reached hn), fun _ hn => h.sd.trans (thresholdStep_below hn)⟩
  · have h := LaneAgrees.of_lastingLane (lastingLane_defectRow_other hi ht hl)
    exact ⟨h.los, h.lof, h.ais, h.sf, h.sd⟩
  · refine ⟨_, exec_rdi htype hv hd, ?_⟩
    obtain ⟨ds, hgroup⟩ := groupAt_received (g := g) (lane := lane) (msg := msg) (stamp := carrierStamp s lane msg) (s := s)
    rw [rdi_rdiAct, hgroup]
  · exact ⟨_, exec_rdiTimeout hg, rdi_rdiTimeoutEffect, fun k hk => groupAt_rdiTimeoutEffect_other hk⟩
  · obtain ⟨hst, hid, hq⟩ := groupAt_disableApplyEffect hranged
    exact ⟨_, exec_disableApply hg, hst, hid, hq, fun l hl => laneAt_disableApplyEffect hranged hl⟩

end Sys2Proof.Machine
end

section
/-!
PROOFS.  The statement about the events and the commands of the host ports (O43).
-/
namespace Sys2Proof.Machine

/-! ## What the operations do to the ports -/

section
variable {p : PortId} {m : MboxId} {d : Done} {a b : Nat} {s t : State}

/-- What leaves the ports component leaves every port. -/
theorem Keeps.portAt_eq {w : Comp → Bool} {k : Prop} (h : Keeps w k s t) (hw : w .ports = false) : portAt t p = portAt s p := by
  obtain ⟨hports, -⟩ := h.same .ports hw
  exact congrArg (·[p]) hports

@[simp] theorem portAt_setFlag : portAt (setFlag a b s) p = portAt s p :=
  (setFlag_keeps (w := within [.counters, .flags, .log, .history]) rfl rfl rfl rfl (keeps_self _ s)).portAt_eq rfl

@[simp] theorem portAt_count1 : portAt (count1 a s) p = portAt s p := rfl

/-- The answer of a command leaves the ports as the command did. -/
@[simp] theorem portAt_finish : portAt (finish m d) p = portAt d.st p := finish_keeps_answer.portAt_eq (by decide)

end

/-! ## Received frames (R220, R223, R224, R514) -/

section
variable {p : PortId} {f : FrameRx} {b c : Nat} {s t : State}

theorem exec_hostFrameRx (hg : hostFrameRxGuard p s = true) :
    exec (.hostFrameRx p f) s = .next (takeFrame p f (fecCounts p f s)) := next_whenB hg

theorem fecCounts_keeps_counts : Keeps (within [.counters, .flags, .log, .history]) False s (fecCounts p f s) :=
  fecCounts_keeps rfl rfl rfl rfl (keeps_self _ s)

@[simp] theorem portAt_fecCounts : portAt (fecCounts p f s) p = portAt s p := fecCounts_keeps_counts.portAt_eq rfl

/-- Whether a crossing is full hangs on the modes in force and the power state only. -/
theorem rxStalled_congr (hmode : t.path.mode = s.path.mode) (hpower : t.power = s.power) : rxStalled p t = rxStalled p s := by
  simp only [rxStalled, portMode, crossingFull, coreStopped, hmode, hpower]

@[simp] theorem rxStalled_fecCounts : rxStalled p (fecCounts p f s) = rxStalled p s := by
  obtain ⟨-, -, -, hmode, -⟩ := (fecCounts_keeps_counts (p := p) (f := f) (s := s)).same .ports rfl
  exact rxStalled_congr hmode (fecCounts_keeps_counts.same .power rfl)

theorem takeFrame_stalled (h : rxStalled p s = true) : takeFrame p f s = count1 (sliceReg (p.val / 4) 0xA00438) s := if_pos h

theorem takeFrame_discarded (h : rxStalled p s = false) (hd : rxDiscard (portAt s p) f = some (c, none)) :
    takeFrame p f s = count1 (aMac p c) s := by
  rw [takeFrame, h, if_neg Bool.false_ne_true, hd]

theorem takeFrame_flagged (h : rxStalled p s = false) (hd : rxDiscard (portAt s p) f = some (c, some b)) :
    takeFrame p f s = setFlag (aMacFlags p) b (count1 (aMac p c) s) := by
  rw [takeFrame, h, if_neg Bool.false_ne_true, hd]

end

/-! ## Pause storms and link changes (R220, R238) -/

section
variable {p o : PortId} {q : QueueId} {up lf : Bool} {s : State}

theorem exec_pauseStorm (hg : pauseStormGuard p s = true) : exec (.pauseStorm p) s = .next (pauseStormEffect p s) := next_whenB hg

theorem exec_pauseStormEnd (hg : pauseStormEndGuard p s = true) :
    exec (.pauseStormEnd p) s = .next (pauseStormEndEffect p s) := next_whenB hg

theorem exec_portLinkChange (hg : portLinkChangeGuard p s = true) :
    exec (.portLinkChange p up lf) s = .next (portLinkChangeEffect p up lf s) := next_whenB hg

/-- A queue that received pause does not stop. -/
def unpaused (now : Nat) (q : EgressQ) : EgressQ := { q with pauseEnd := now, pausedSince := none }

theorem portAt_pauseStormEffect_same : portAt (pauseStormEffect p s) p =
    { portAt s p with storm := some s.now, queues := (portAt s p).queues.map (unpaused s.now) } := by
  unfold pauseStormEffect
  rw [portAt_modPort_same, portAt_setFlag, portAt_count1]
  rfl

theorem portAt_pauseStormEffect_other (ho : o ≠ p) : portAt (pauseStormEffect p s) o = portAt s o := by
  unfold pauseStormEffect
  rw [portAt_modPort_other _ _ _ _ ho, portAt_setFlag, portAt_count1]

/-- The flag that goes with a change of the port's state touches no port. -/
theorem portAt_portLinkChangeEffect : portAt (portLinkChangeEffect p up lf s) o =
    portAt (modPort s p fun x => { x with aligned := up, lfRx := lf }) o := by
  unfold portLinkChangeEffect
  extract_lets was s1 is
  split
  · rfl
  · exact portAt_setFlag

end

/-! ## PORT_MODE_SET (R221) -/

section
variable {n : Nat} {k : SliceId} {l : List SliceId} {r : Request} {s : State}

/-- A mode recorded as pending on a slice. -/
def pendMode (n : Nat) (k : SliceId) (s : State) : State :=
  { s with path := { s.path with modePend := vmod s.path.modePend k fun _ => some n } }

theorem mem_maskSlices : k ∈ r.maskSlices ↔ r.inMask k.val = true := by simp [Request.maskSlices]

theorem modePend_foldS_pendMode :
    (foldS l (pendMode n) s).path.modePend[k] = if k ∈ l then some n else s.path.modePend[k] := by
  induction l generalizing s with
  | nil => rfl
  | cons j l ih =>
    rw [foldS_cons, ih]
    by_cases hj : k = j
    · rw [hj, if_pos (List.mem_cons_self ..)]
      exact ite_eq_left_iff.mpr fun _ => vmod_same ..
    · have hk : (pendMode n j s).path.modePend[k] = s.path.modePend[k] := vmod_other _ _ _ _ hj
      simp only [hk, List.mem_cons, hj, false_or]

theorem portModeSetApply_modePend : (portModeSetApply r s).st.path.modePend[k] =
    if r.inMask k.val = true then some (r.u8 0) else s.path.modePend[k] :=
  modePend_foldS_pendMode.trans (by simp only [mem_maskSlices])

theorem portModeSetApply_inForce : (portModeSetApply r s).st.path.mode = s.path.mode ∧
    (portModeSetApply r s).st.path.ports = s.path.ports :=
  foldS_induction (f := pendMode (r.u8 0)) (P := fun t => t.path.mode = s.path.mode ∧ t.path.ports = s.path.ports)
    (fun _ _ ht => ht) ⟨rfl, rfl⟩

end

/-! ## PORT_SET (R243) -/

theorem maxFrame_of_portSetChecks {r : Request} {s : State} (h : firstFailing (portSetChecks r s) = none) :
    1518 ≤ r.u16 2 ∧ r.u16 2 ≤ 10240 := by
  have hrange := fails_of_firstFailing_none h (List.mem_cons_of_mem _ (List.mem_cons_self ..))
  simp only [ckRange, Bool.or_eq_false_iff, decide_eq_false_iff_not] at hrange
  omega

/-! ## FLOW_CONTROL_SET (R244) -/

section
variable {r : Request} {now : Nat} {s : State}

/-- A queue under the settings of a FLOW_CONTROL_SET. -/
def flowQueue (r : Request) (now n : Nat) (q : EgressQ) : EgressQ :=
  if natBit (r.u8 2) 0 then { q with prio := queuePrio r n } else unpaused now { q with prio := queuePrio r n }

/-- A port under the settings of a FLOW_CONTROL_SET. -/
def flowControlled (r : Request) (now : Nat) (x : PortSt) : PortSt :=
  { x with
    fcMode := r.u8 1, rxHonour := natBit (r.u8 2) 0, txEnable := natBit (r.u8 2) 1, pfcMask := BitVec.ofNat 8 (r.u8 3),
    quanta := r.u16 4, refresh := r.u16 6, watchdog := r.u16 8,
    xoffAt := if x.xoff = 0 then x.xoffAt else some (x.xoffAt.getD now),
    queues := Vector.ofFn fun q : Fin 32 => flowQueue r now q.val x.queues[q] }

/-- The settings come after the release of a held XOFF (R239). -/
theorem portAt_flowControlSetApply : portAt (flowControlSetApply r s).st (reqPort r) =
    flowControlled r s.now (portAt (releaseHeld (reqPort r) (r.u8 1) (natBit (r.u8 2) 1) s) (reqPort r)) :=
  portAt_modPort_same ..

theorem pausedSince_flowControlled (h : natBit (r.u8 2) 0 = false) (x : PortSt) (q : QueueId) :
    (flowControlled r now x).queues[q].pausedSince = none := by
  simp [flowControlled, flowQueue, h, unpaused]

end

/-! ## MAC_FILTER_WRITE (R246) -/

section
variable {o : PortId} {r : Request} {s : State}

theorem macFilterWriteApply_hash (h : mfKind r = 0) : macFilterWriteApply r s =
    okDone (modPort s (reqPort r) fun x => { x with hash := hashAfter r x }) := if_pos h

theorem macFilterWriteApply_exact (h : mfKind r ≠ 0) : macFilterWriteApply r s =
    okDone (modPort s (reqPort r) fun x => { x with exact := exactAfter r x }) := if_neg h

theorem portAt_macFilterWriteApply_other (ho : o ≠ reqPort r) : portAt (macFilterWriteApply r s).st o = portAt s o := by
  by_cases h : mfKind r = 0
  · rw [macFilterWriteApply_hash h]
    exact portAt_modPort_other _ _ _ _ ho
  · rw [macFilterWriteApply_exact h]
    exact portAt_modPort_other _ _ _ _ ho

/-- The check for CONFLICT is made on the exact table that the request leaves. -/
theorem exactValid_of_macFilterWriteChecks (hk : mfKind r = 1) (h : firstFailing (macFilterWriteChecks r s) = none) :
    (exactValid (exactAfter r (portAt s (reqPort r)))).Nodup ∧
    ∀ a ∈ exactValid (exactAfter r (portAt s (reqPort r))), isGroupAddr a.toNat = false := by
  obtain ⟨-, hconflict⟩ := Bool.or_eq_false_iff.mp
    (fails_of_firstFailing_none h (List.mem_cons_of_mem _ (List.mem_cons_of_mem _ (List.mem_cons_self ..))))
  rw [hk, beq_self_eq_true, Bool.true_and, Bool.or_eq_false_iff] at hconflict
  obtain ⟨hgroup, hdistinct⟩ := hconflict
  exact ⟨by simpa using hdistinct, fun a ha => Bool.eq_false_iff.mpr (List.any_eq_false.mp hgroup a ha)⟩

end

/-- Settles O43: the FEC's own counts leave the port and its crossing as they were, a flag touches no port, and the answer of a
command leaves the packet path.  That a stalled crossing is counted before any test of the MAC is the model's choice of log 108. -/
theorem hostPortEventsAndCommands : Obligations.HostPortEventsAndCommands := by
  unfold Obligations.HostPortEventsAndCommands
  refine ⟨fun p s => ⟨fun f hg hfull => ?_, fun f c hg hfull hd => ?_, fun f c b hg hfull hd => ?_, fun hg => ?_,
    exec_pauseStormEnd, fun up lf hg => ?_⟩, fun m r s => ⟨fun hcur hchecks => ?_, fun hcur hchecks => ?_,
    fun hcur hchecks => ?_, fun hcur hchecks => ?_⟩⟩
  · rw [exec_hostFrameRx hg, takeFrame_stalled (rxStalled_fecCounts.trans hfull)]
  · rw [exec_hostFrameRx hg, takeFrame_discarded (rxStalled_fecCounts.trans hfull) (portAt_fecCounts.symm ▸ hd)]
  · rw [exec_hostFrameRx hg, takeFrame_flagged (rxStalled_fecCounts.trans hfull) (portAt_fecCounts.symm ▸ hd)]
  · refine ⟨_, exec_pauseStorm hg, ?_⟩
    rw [portAt_pauseStormEffect_same]
    exact ⟨rfl, fun q => by simp [unpaused], fun o ho => portAt_pauseStormEffect_other ho,
      (pauseStormEffect_keeps rfl rfl rfl rfl rfl (keeps_self _ s)).onlyChanges⟩
  · exact ⟨_, exec_portLinkChange hg, portAt_portLinkChangeEffect.trans (portAt_modPort_same ..),
      fun o ho => portAt_portLinkChangeEffect.trans (portAt_modPort_other _ _ _ _ ho),
      (portLinkChangeEffect_keeps rfl rfl rfl rfl rfl (keeps_self _ s)).onlyChanges⟩
  · obtain ⟨hmode, hports⟩ := portModeSetApply_inForce (r := r) (s := s)
    refine ⟨_, congrArg Host.Outcome.next (runCommand_pass hcur hchecks), ?_⟩
    rw [path_finish]
    exact ⟨hmode, fun k => portModeSetApply_modePend, hports⟩
  · obtain ⟨hmin, hmax⟩ := maxFrame_of_portSetChecks hchecks
    exact ⟨_, congrArg Host.Outcome.next (runCommand_pass hcur hchecks), portAt_finish.trans (portAt_modPort_same ..), hmin, hmax,
      fun o ho => portAt_finish.trans (portAt_modPort_other _ _ _ _ ho),
      (finish_keeps rfl rfl rfl rfl rfl (portSetApply_keeps rfl (keeps_self _ s))).onlyChanges⟩
  · refine ⟨_, congrArg Host.Outcome.next (runCommand_pass hcur hchecks), ?_⟩
    rw [portAt_finish, portAt_flowControlSetApply]
    exact ⟨rfl, rfl, rfl, rfl, rfl, rfl, fun hignored q => pausedSince_flowControlled hignored _ q⟩
  · refine ⟨_, congrArg Host.Outcome.next (runCommand_pass hcur hchecks),
      fun o ho => portAt_finish.trans (portAt_macFilterWriteApply_other ho), fun hk => ?_, fun hk => ?_⟩
    · rw [portAt_finish, macFilterWriteApply_hash hk, okDone, portAt_modPort_same]
      exact ⟨rfl, rfl⟩
    · rw [portAt_finish, macFilterWriteApply_exact (by omega), okDone, portAt_modPort_same]
      exact ⟨rfl, exactValid_of_macFilterWriteChecks hk hchecks⟩

end Sys2Proof.Machine
end

section
/-!
PROOFS.  The statement about the VERSIONED tables and the mirror sessions of the classifier (O44).
-/
namespace Sys2Proof.Machine

/-! ## What the operations do to the classifiers -/

section
variable {k : SliceId} {a b : Nat} {s t : State}

/-- What leaves the classifier component leaves every slice's classifier. -/
theorem Keeps.clsAt_eq {w : Comp → Bool} {c : Prop} (h : Keeps w c s t) (hw : w .cls = false) : clsAt t k = clsAt s k := by
  obtain ⟨hcls, -⟩ := h.same .cls hw
  exact congrArg (·[k]) hcls

@[simp] theorem clsAt_setFlag : clsAt (setFlag a b s) k = clsAt s k :=
  (setFlag_keeps (w := within [.counters, .flags, .log, .history]) rfl rfl rfl rfl (keeps_self _ s)).clsAt_eq rfl

end

/-! ## Retirement and the load of a shadow copy (R266, R277) -/

section
variable {i : Fin 3} {j k : SliceId} {s : State}

theorem exec_retirement (hg : retirementGuard k s = true) : exec (.retirement k) s = .next (retirementEffect k s) := next_whenB hg

/-- A classifier whose old version has retired. -/
def retired (now : Nat) (c : ClsSt) : ClsSt :=
  { c with shadow := c.cur, retirePending := false, staged := Vector.replicate 3 false,
           lastRetire := min 65535 ((now - c.flipAt) / 8) }

theorem clsAt_retirementEffect_same : clsAt (retirementEffect k s) k = retired s.now (clsAt s k) :=
  clsAt_setFlag.trans (clsAt_modCls_same ..)

theorem clsAt_retirementEffect_other (hj : j ≠ k) : clsAt (retirementEffect k s) j = clsAt s j :=
  clsAt_setFlag.trans (clsAt_modCls_other _ _ _ _ hj)

theorem staged_retired (now : Nat) (c : ClsSt) (i : Fin 3) : (retired now c).staged[i] = false := Vector.getElem_replicate ..

theorem exec_shadowLoadComplete (h : (clsAt s k).loading = some i) :
    exec (.shadowLoadComplete k) s = .next (shadowLoadCompleteEffect k s) :=
  next_whenB (Option.isSome_iff_exists.mpr ⟨i, h⟩)

theorem clsAt_shadowLoadCompleteEffect_frame : (clsAt (shadowLoadCompleteEffect k s) k).loading = none ∧
    (clsAt (shadowLoadCompleteEffect k s) k).retirePending = false ∧
    (clsAt (shadowLoadCompleteEffect k s) k).cur = (clsAt s k).cur := by
  rw [shadowLoadCompleteEffect, clsAt_modCls_same]
  exact ⟨rfl, rfl, rfl⟩

/-- The table that was loading holds the current one. -/
theorem shadow_shadowLoadCompleteEffect (h : (clsAt s k).loading = some i) :
    (i = 0 → (clsAt (shadowLoadCompleteEffect k s) k).shadow.em = (clsAt s k).cur.em) ∧
    (i = 1 → (clsAt (shadowLoadCompleteEffect k s) k).shadow.tern = (clsAt s k).cur.tern) ∧
    (i = 2 → (clsAt (shadowLoadCompleteEffect k s) k).shadow.spread = (clsAt s k).cur.spread) := by
  rw [shadowLoadCompleteEffect, clsAt_modCls_same, h]
  refine ⟨?_, ?_, ?_⟩
  all_goals
    rintro rfl
    rfl

theorem clsAt_shadowLoadCompleteEffect_other (hj : j ≠ k) : clsAt (shadowLoadCompleteEffect k s) j = clsAt s j :=
  clsAt_modCls_other _ _ _ _ hj

end

/-! ## RULE_COMMIT (R265, R276) -/

section
variable {k : SliceId} {l : List SliceId} {r : Request} {s : State}

/-- Classifier `d` is `c` after a flip: the other version, and the staged copy of each VERSIONED table current. -/
structure Flipped (c d : ClsSt) : Prop where
  version : d.version = !c.version
  em : c.versioned[(0 : Fin 3)] = true → d.cur.em = c.shadow.em
  tern : c.versioned[(1 : Fin 3)] = true → d.cur.tern = c.shadow.tern
  spread : c.versioned[(2 : Fin 3)] = true → d.cur.spread = c.shadow.spread

theorem flip_flipped : Flipped (clsAt s k) (clsAt (flip k s) k) := by
  unfold flip
  extract_lets c any pick other
  rw [clsAt_setFlag, clsAt_modCls_same]
  have hpick : ∀ i : Fin 3, c.versioned[i] = true → pick i = c.shadow := fun _ hv => if_pos hv
  exact ⟨rfl, fun hv => (congrArg RuleTables.em (hpick 0 hv) :), fun hv => (congrArg RuleTables.tern (hpick 1 hv) :),
    fun hv => (congrArg RuleTables.spread (hpick 2 hv) :)⟩

theorem clsAt_flip_other {j : SliceId} (hj : j ≠ k) : clsAt (flip k s) j = clsAt s j :=
  clsAt_setFlag.trans (clsAt_modCls_other _ _ _ _ hj)

theorem clsAt_foldS_flip_other (hk : k ∉ l) : clsAt (foldS l flip s) k = clsAt s k := by
  induction l generalizing s with
  | nil => rfl
  | cons j l ih =>
    obtain ⟨hj, hl⟩ := not_or.mp (mt List.mem_cons.mpr hk)
    rw [foldS_cons, ih hl, clsAt_flip_other hj]

/-- A slice that the list names once flips once. -/
theorem foldS_flip_flipped (hn : l.Nodup) (hk : k ∈ l) : Flipped (clsAt s k) (clsAt (foldS l flip s) k) := by
  induction l generalizing s with
  | nil => cases hk
  | cons j l ih =>
    obtain ⟨hj, hn⟩ := List.nodup_cons.mp hn
    rw [foldS_cons]
    rcases List.mem_cons.mp hk with rfl | hk
    · rw [clsAt_foldS_flip_other hj]
      exact flip_flipped
    · have hne : k ≠ j := fun h => hj (h ▸ hk)
      exact clsAt_flip_other hne ▸ ih hn hk

theorem nodup_maskSlices : r.maskSlices.Nodup := (List.nodup_finRange 8).filter _

theorem ruleCommitApply_flipped (h : r.inMask k.val = true) : Flipped (clsAt s k) (clsAt (ruleCommitApply r s).st k) :=
  foldS_flip_flipped nodup_maskSlices (mem_maskSlices.mpr h)

theorem clsAt_ruleCommitApply_other (h : r.inMask k.val = false) : clsAt (ruleCommitApply r s).st k = clsAt s k :=
  clsAt_foldS_flip_other fun hk => Bool.eq_false_iff.mp h (mem_maskSlices.mp hk)

/-- The answer of a command leaves the classifiers as the command did. -/
@[simp] theorem clsAt_finish {m : MboxId} {e : Done} : clsAt (finish m e) k = clsAt e.st k :=
  finish_keeps_answer.clsAt_eq (by decide)

end

/-! ## MIRROR_SET (R279) -/

theorem session_of_mirrorSetChecks {r : Request} {s : State} (h : firstFailing (mirrorSetChecks r s) = none) :
    1 ≤ r.u8 0 ∧ r.u8 0 ≤ 15 := by
  have hrange := fails_of_firstFailing_none h
    (List.mem_cons_of_mem _ (List.mem_cons_of_mem _ (List.mem_cons_self ..)))
  simp only [ckRange, Bool.or_eq_false_iff, beq_eq_false_iff_ne, decide_eq_false_iff_not] at hrange
  obtain ⟨⟨⟨⟨hzero, hmax⟩, -⟩, -⟩, -⟩ := hrange
  omega

/-- Settles O44: a flag and the answer of a command leave every classifier, and a mask names each slice once, so that each of its
slices flips once. -/
theorem versionedTablesAndSessions : Obligations.VersionedTablesAndSessions := by
  unfold Obligations.VersionedTablesAndSessions
  refine ⟨fun k s => ⟨fun hg => ?_, fun i hloading => ?_⟩, fun m r s => ⟨fun hcur hchecks => ?_, fun hcur hchecks => ?_⟩⟩
  · refine ⟨_, exec_retirement hg, ?_⟩
    rw [clsAt_retirementEffect_same]
    exact ⟨rfl, rfl, rfl, staged_retired _ _, fun j hj => clsAt_retirementEffect_other hj,
      (retirementEffect_keeps rfl rfl rfl rfl rfl (keeps_self _ s)).onlyChanges⟩
  · obtain ⟨hdone, hpending, hcurrent⟩ := clsAt_shadowLoadCompleteEffect_frame (k := k) (s := s)
    obtain ⟨hem, htern, hspread⟩ := shadow_shadowLoadCompleteEffect hloading
    exact ⟨_, exec_shadowLoadComplete hloading, hdone, hpending, hcurrent, hem, htern, hspread,
      fun j hj => clsAt_shadowLoadCompleteEffect_other hj,
      (shadowLoadCompleteEffect_keeps rfl (keeps_self _ s)).onlyChanges⟩
  · refine ⟨_, congrArg Host.Outcome.next (runCommand_pass hcur hchecks), fun k => ?_⟩
    rw [clsAt_finish]
    refine ⟨fun hk => ?_, fun hk => clsAt_ruleCommitApply_other hk⟩
    have hflip := ruleCommitApply_flipped (s := s) hk
    exact ⟨hflip.version, hflip.em, hflip.tern, hflip.spread⟩
  · obtain ⟨hmin, hmax⟩ := session_of_mirrorSetChecks hchecks
    refine ⟨_, congrArg Host.Outcome.next (runCommand_pass hcur hchecks), ?_⟩
    rw [path_finish]
    exact ⟨rfl, hmin, hmax, rfl, rfl⟩

end Sys2Proof.Machine
end

section
/-!
PROOFS.  The statement about the buffer manager's operations and the quotas of its owners (O45).
-/
namespace Sys2Proof.Machine

/-! ## Lists of items of which one concerns a part of the state -/

section
variable {α β : Type} {x : α} {l : List α} {f : α → State → State} {view : State → β} {s : State}

theorem view_foldS (h : ∀ y ∈ l, ∀ t, view (f y t) = view t) : view (foldS l f s) = view s := by
  induction l generalizing s with
  | nil => rfl
  | cons y l ih =>
    obtain ⟨hy, hl⟩ := List.forall_mem_cons.mp h
    rw [foldS_cons, ih hl, hy]

/-- A part of the state that one item of a list changes, and no other, changes once, from what it was. -/
theorem foldS_acts_once (hn : l.Nodup) (hx : x ∈ l) (h : ∀ y, y ≠ x → ∀ t, view (f y t) = view t) :
    ∃ t, view t = view s ∧ view (foldS l f s) = view (f x t) := by
  induction l generalizing s with
  | nil => cases hx
  | cons y l ih =>
    obtain ⟨hy, hl⟩ := List.nodup_cons.mp hn
    rw [foldS_cons]
    rcases List.mem_cons.mp hx with rfl | hxl
    · exact ⟨s, rfl, view_foldS fun z hz => h z (ne_of_mem_of_not_mem hz hy)⟩
    · obtain ⟨t, ht, hfold⟩ := ih hl hxl (s := f y s)
      exact ⟨t, ht.trans (h y (ne_of_mem_of_not_mem hxl hy).symm s), hfold⟩

end

/-! ## Flags that hardware sets, in every state -/

section
variable {a b m n : Nat} {r : Record} {s t : State}

/-- An entry written below a key leaves what the table reads there, even if the table is not canonical. -/
theorem sparseGet_set_above {α : Type} [DecidableEq α] {d x : α} {l : Sparse α} (hx : x ≠ d) (hm : m < n) :
    sparseGet d (sparseSet d l m x) n = sparseGet d l n := by
  induction l with
  | nil => simp [sparseSet, sparseGet, hx, Nat.ne_of_gt hm, Nat.not_lt_of_gt hm]
  | cons e l ih =>
    obtain ⟨k, v⟩ := e
    rcases Nat.lt_trichotomy m k with hlt | rfl | hgt
    · simp [sparseSet, sparseGet, hx, Nat.ne_of_lt hlt, hlt, Nat.ne_of_gt hm, Nat.not_lt_of_gt hm]
    · simp [sparseSet, sparseGet, hx, Nat.ne_of_gt hm, Nat.not_lt_of_gt hm]
    · simp [sparseSet, sparseGet, Nat.ne_of_gt hgt, Nat.not_lt_of_gt hgt, ih]

/-- What leaves the flags component leaves every flag word. -/
theorem Keeps.flagWord_eq {w : Comp → Bool} {c : Prop} (h : Keeps w c s t) (hw : w .flags = false) :
    flagWord t a = flagWord s a :=
  congrArg (sparseGet 0 · a) (h.same .flags hw)

theorem or_flagBit_ne_zero (v : Word) (hb : b < 32) : v ||| BitVec.ofNat 32 (2 ^ b) ≠ 0 := fun h => by
  have hbit : (v ||| BitVec.ofNat 32 (2 ^ b)).getLsbD b = false := h ▸ BitVec.getLsbD_zero
  rw [BitVec.getLsbD_or, getLsbD_flagBit_self hb, Bool.or_true] at hbit
  cases hbit

/-- The one flag that a record may set is EVQ_OVF (R480), below the words of every slice. -/
theorem flagWord_writeRecord (ha : aEvqFlags < a) : flagWord (writeRecord r s) a = flagWord s a := by
  have hpush : ∀ r t, flagWord (pushRecord r t) a = flagWord t a := fun r t =>
    (pushRecord_keeps (w := within [.log, .history]) rfl rfl (keeps_self _ t)).flagWord_eq rfl
  have hlose : ∀ r t, flagWord (evqLose r t) a = flagWord t a := fun r t =>
    (evqLose_keeps (w := within [.counters, .log]) rfl rfl (keeps_self _ t)).flagWord_eq rfl
  have hcopy : ∀ r t, flagWord (evqCopy r t) a = flagWord t a := fun r t =>
    (evqCopy_keeps (w := within [.log]) rfl (keeps_self _ t)).flagWord_eq rfl
  have hput : ∀ t, flagWord (putFlags aEvqFlags (flagWord t aEvqFlags ||| 1) t) a = flagWord t a := fun t =>
    sparseGet_set_above (or_flagBit_ne_zero (b := 0) _ (by decide)) ha
  unfold writeRecord
  extract_lets s1 s2 s3 r2 s4
  have h4 : flagWord s4 a = flagWord s a := by rw [hpush, hput, hlose, hpush]
  split
  · split
    · split
      · rw [hlose, hpush]
      · split
        · rw [hlose, h4]
        · exact h4
    · rw [hcopy, hpush]
  · exact hpush r s

/-- A flag of a slice is 1 once hardware has set it. -/
theorem getLsbD_setFlag (ha : aEvqFlags < a) (hb : b < 32) : (flagWord (setFlag a b s) a).getLsbD b = true := by
  by_cases h : (flagWord s a).getLsbD b = true
  · rw [setFlag_set h, h]
  · rw [setFlag_clear (Bool.eq_false_iff.mpr h), flagWord_writeRecord ha]
    have hput : flagWord (putFlags a (flagWord s a ||| BitVec.ofNat 32 (2 ^ b)) s) a = flagWord s a ||| BitVec.ofNat 32 (2 ^ b) :=
      sparseGet_set_same_of_ne (or_flagBit_ne_zero _ hb)
    rw [hput, BitVec.getLsbD_or, getLsbD_flagBit_self hb, Bool.or_true]

theorem aEvqFlags_lt_aBufFlags (k : SliceId) : aEvqFlags < aBufFlags k := by
  simp only [aEvqFlags, aBufFlags, sliceReg]
  omega

end

/-! ## What the operations do to the buffer managers -/

section
variable {j k : SliceId} {a b : Nat} {c d e : BufSt} {f : BufSt → BufSt} {s t : State}

/-- What leaves the buffer component leaves every slice's buffer manager. -/
theorem Keeps.bufAt_eq {w : Comp → Bool} {q : Prop} (h : Keeps w q s t) (hw : w .bufs = false) : bufAt t k = bufAt s k :=
  congrArg (·[k]) (h.same .bufs hw)

@[simp] theorem bufAt_setFlag : bufAt (setFlag a b s) k = bufAt s k :=
  (setFlag_keeps (w := within [.counters, .flags, .log, .history]) rfl rfl rfl rfl (keeps_self _ s)).bufAt_eq rfl

@[simp] theorem bufAt_logEvent {code : BitVec 16} {sev : Severity} {src : Byte} {data : List Byte} :
    bufAt (logEvent code sev src data s) k = bufAt s k :=
  (logEvent_keeps (w := within [.counters, .flags, .log, .history]) rfl rfl rfl rfl (keeps_self _ s)).bufAt_eq rfl

@[simp] theorem bufAt_warnFlags {o : Nat} : bufAt (warnFlags j o s) k = bufAt s k :=
  (warnFlags_keeps (w := within [.counters, .flags, .log, .history]) rfl rfl rfl rfl (keeps_self _ s)).bufAt_eq rfl

@[simp] theorem bufAt_count1 : bufAt (count1 a s) k = bufAt s k := rfl

@[simp] theorem bufAt_modPort {p : PortId} {f : PortSt → PortSt} : bufAt (modPort s p f) k = bufAt s k := rfl

/-- The answer of a command leaves the buffer managers as the command did. -/
@[simp] theorem bufAt_finish {m : MboxId} {x : Done} : bufAt (finish m x) k = bufAt x.st k :=
  finish_keeps_answer.bufAt_eq (by decide)

theorem bufAt_whenB {g : State → State} {q : Bool} (hg : ∀ t, bufAt (g t) k = bufAt t k) :
    bufAt (whenB q g s) k = bufAt s k := by
  cases q with
  | false => rfl
  | true => exact hg s

/-- Buffer manager `d` has the allocations, the pools and the quotas of `c`. -/
structure SameAllocs (c d : BufSt) : Prop where
  bitmap : d.bitmap = c.bitmap
  pools : d.pools = c.pools
  quota : ∀ u p, quotaOf d u p = quotaOf c u p

theorem SameAllocs.refl (c : BufSt) : SameAllocs c c := ⟨rfl, rfl, fun _ _ => rfl⟩

theorem SameAllocs.of_eq (h : d = c) : SameAllocs c d := h ▸ .refl c

theorem SameAllocs.trans (h : SameAllocs c d) (h' : SameAllocs d e) : SameAllocs c e :=
  ⟨h'.bitmap.trans h.bitmap, h'.pools.trans h.pools, fun u p => (h'.quota u p).trans (h.quota u p)⟩

/-- The arbiter, the REF_ADDs taken ahead and the latched misuse bear on no allocation, pool or quota. -/
theorem sameAllocs_notes (b : BufSt) {rr cycAt : Nat} {rrNext : Option Nat} {granted refAhead : List Nat} {misuse : Misuse} :
    SameAllocs b { b with rr, rrNext, cycAt, granted, refAhead, misuse } := ⟨rfl, rfl, fun _ _ => rfl⟩

/-- Nor does back-pressure. -/
theorem sameAllocs_pressures (b : BufSt) {poolPaused : Vector Bool 5} {owners : Vector OwnerSt 17}
    {prios : Vector (Vector PrioTh 8) 4} (h : ∀ u (hu : u < 17), owners[u].quota = b.owners[u].quota) :
    SameAllocs b { b with poolPaused, owners, prios } := by
  refine ⟨rfl, rfl, fun u p => ?_⟩
  by_cases hu : u < 17
  · simp only [quotaOf, ownerSt, hu, dif_pos, h u hu]
  · simp only [quotaOf, ownerSt, hu, dif_neg, not_false_eq_true]

theorem SameAllocs.poolAt_eq (h : SameAllocs c d) (p : Nat) : poolAt d p = poolAt c p := by simp only [poolAt, h.pools]

theorem SameAllocs.heldBy_eq (h : SameAllocs c d) (o p : Nat) : heldBy d o p = heldBy c o p := by simp only [heldBy, h.bitmap]

theorem SameAllocs.quotaSum_eq (h : SameAllocs c d) (p : Nat) : quotaSum d p = quotaSum c p := by simp only [quotaSum, h.quota]

theorem SameAllocs.freeSlot_eq (h : SameAllocs c d) (p fuel i : Nat) : freeSlot d p fuel i = freeSlot c p fuel i := by
  induction fuel generalizing i with
  | zero => rfl
  | succ fuel ih => simp only [freeSlot, h.bitmap, h.poolAt_eq, ih]

/-- The lowest free buffer of a pool goes to the request in either. -/
theorem SameAllocs.withGrant_bitmap (h : SameAllocs c d) (p : Nat) (x : AllocArgs) :
    (withGrant d p x).bitmap = (withGrant c p x).bitmap := by
  simp only [withGrant, freeKey, h.bitmap, h.poolAt_eq, h.freeSlot_eq]

theorem sameAllocs_modBuf (hf : SameAllocs (bufAt s k) (f (bufAt s k))) : SameAllocs (bufAt s j) (bufAt (modBuf s k f) j) := by
  by_cases h : j = k
  · rw [h, bufAt_modBuf_same]
    exact hf
  · exact .of_eq (bufAt_modBuf_other _ _ _ _ h)

theorem foldS_sameAllocs {α : Type} {l : List α} {g : α → State → State}
    (hg : ∀ x t, SameAllocs (bufAt t j) (bufAt (g x t) j)) :
    SameAllocs (bufAt s j) (bufAt (foldS l g s) j) :=
  foldS_induction (P := fun t => SameAllocs (bufAt s j) (bufAt t j)) (fun x t ht => ht.trans (hg x t)) (.refl _)

end

/-! ## Back-pressure (R294 to R297) -/

section
variable {j k : SliceId} {s : State}

/-- A slice's buffer manager with every back-pressure recomputed. -/
def pressureRefreshed (k : SliceId) (s : State) : BufSt :=
  { bufAt s k with
    poolPaused := Vector.ofFn fun p : Fin 5 => poolPressure k.val (bufAt s k) p,
    owners := Vector.ofFn fun u : Fin 17 => { (bufAt s k).owners[u] with paused := ownerPressure s k u },
    prios := Vector.ofFn fun i : Fin 4 => Vector.ofFn fun p : Fin 8 =>
      { ((bufAt s k).prios[i])[p] with
        xoff := prioPressure (bufAt s k) (ownerId k.val i.val) i.val p.val ((bufAt s k).prios[i])[p] } }

theorem sameAllocs_pressureRefreshed : SameAllocs (bufAt s k) (pressureRefreshed k s) :=
  sameAllocs_pressures _ fun _ hu => (congrArg OwnerSt.quota (Vector.getElem_ofFn hu) :)

theorem bufAt_refreshPressure : bufAt (refreshPressure k s) j = bufAt (modBuf s k fun _ => pressureRefreshed k s) j := by
  unfold refreshPressure
  extract_lets b b1 rises low
  rw [bufAt_whenB fun _ => bufAt_setFlag, bufAt_whenB fun _ => bufAt_setFlag]
  refine foldS_induction (P := fun t => bufAt t j = bufAt (modBuf s k fun _ => pressureRefreshed k s) j) (fun i t ht => ?_) rfl
  extract_lets port x
  split
  · exact ht
  · exact bufAt_modPort.trans ht

theorem sameAllocs_refreshPressure : SameAllocs (bufAt s j) (bufAt (refreshPressure k s) j) :=
  (sameAllocs_modBuf sameAllocs_pressureRefreshed).trans (.of_eq bufAt_refreshPressure)

theorem bufAt_refreshPressure_other (hj : j ≠ k) : bufAt (refreshPressure k s) j = bufAt s j :=
  bufAt_refreshPressure.trans (bufAt_modBuf_other _ _ _ _ hj)

end

/-! ## FREE, HAND_OFF, REF_ADD and REF_DROP (R287 to R289) -/

section
variable {j k : SliceId} {op : BufOp} {ptr : Word} {issuer o : Byte} {n i : Nat} {mk : MisKind} {e : BufEntry} {s : State}

theorem exec_free (h : present s k.val = true) :
    exec (.free k ptr issuer) s = .next (bufOp k .free ptr issuer.toNat s) := next_whenB h

theorem exec_handOff (h : handOffGuard k o n s = true) :
    exec (.handOff k ptr issuer o n) s = .next (bufOp k (.handOff o.toNat n) ptr issuer.toNat s) := next_whenB h

theorem exec_refDrop (h : present s k.val = true) :
    exec (.refDrop k ptr issuer) s = .next (bufOp k .refDrop ptr issuer.toNat s) := next_whenB h

/-- A REF_ADD taken ahead of a REF_DROP of its cycle is no longer noted as such. -/
def refAddTaken (k : SliceId) (ptr : Word) (s : State) : State :=
  modBuf s k fun b => { b with refAhead := b.refAhead.erase (ptrKey ptr) }

theorem exec_refAdd_ahead (h : present s k.val = true) (ha : (bufAt s k).refAhead.contains (ptrKey ptr) = true) :
    exec (.refAdd k ptr issuer) s = .next (refAddTaken k ptr s) :=
  (next_whenB h).trans (congrArg Host.Outcome.next (if_pos ha))

theorem exec_refAdd (h : present s k.val = true) (ha : (bufAt s k).refAhead.contains (ptrKey ptr) = false) :
    exec (.refAdd k ptr issuer) s = .next (bufOp k .refAdd ptr issuer.toNat s) :=
  (next_whenB h).trans (congrArg Host.Outcome.next (if_neg (Bool.eq_false_iff.mp ha)))

theorem bitmap_refAddTaken : (bufAt (refAddTaken k ptr s) j).bitmap = (bufAt s j).bitmap :=
  (sameAllocs_modBuf (sameAllocs_notes _)).bitmap

theorem refAddTaken_keeps {w : Comp → Bool} (h_bufs : w .bufs = true) : Keeps w False s (refAddTaken k ptr s) :=
  modBuf_keeps h_bufs (.refl _ _ nofun)

/-- An operation that no REF_ADD of its cycle comes before acts at once. -/
theorem bufOp_eq_now (h : op = .refDrop → waitingRefAdds k (ptrKey ptr) s = []) : bufOp k op ptr i s = bufOpNow k op ptr i s := by
  unfold bufOp
  split
  next hop => rw [h hop, foldS_nil]
  next => rfl

theorem bufOpNow_rejected (h : bufCheck k.val (bufAt s k) op ptr i = some mk) :
    bufOpNow k op ptr i s = bufMisuse k op ptr i mk s := by rw [bufOpNow, h]

theorem sameAllocs_bufMisuse : SameAllocs (bufAt s j) (bufAt (bufMisuse k op ptr i mk s) j) := by
  unfold bufMisuse
  extract_lets b holder m s1 s2
  rw [bufAt_logEvent, bufAt_setFlag]
  unfold s2 whenB
  split
  · exact (SameAllocs.of_eq bufAt_count1).trans (sameAllocs_modBuf (sameAllocs_notes _))
  · exact .of_eq bufAt_count1

/-- A rejected operation changes no allocation on any slice. -/
theorem bufOp_rejected (hw : op = .refDrop → waitingRefAdds k (ptrKey ptr) s = [])
    (h : bufCheck k.val (bufAt s k) op ptr i = some mk) :
    (∀ j, (bufAt (bufOp k op ptr i s) j).bitmap = (bufAt s j).bitmap) ∧
      OnlyChanges [.counters, .flags, .log, .bufs, .history] s (bufOp k op ptr i s) := by
  rw [bufOp_eq_now hw, bufOpNow_rejected h]
  exact ⟨fun j => sameAllocs_bufMisuse.bitmap, (bufMisuse_keeps rfl rfl rfl rfl rfl (keeps_self _ s)).onlyChanges⟩

/-- What the bitmap holds of a buffer after an operation that passes its checks. -/
def entryAfter (e : BufEntry) : BufOp → Option BufEntry
  | .free => none
  | .handOff o c => some { e with owner := o, count := if privileged o then c else 0 }
  | .refAdd => some { e with count := e.count + 1 }
  | .refDrop => if e.count ≤ 1 then none else some { e with count := e.count - 1 }

theorem bufApply_eq : bufApply k op ptr e s = putBuf k (ptrKey ptr) (entryAfter e op) s := by
  cases op with
  | free => rfl
  | handOff o c => rfl
  | refAdd => rfl
  | refDrop => exact (apply_ite (putBuf k (ptrKey ptr) · s) _ _ _).symm

theorem bufOpNow_passed (he : sparseGet none (bufAt s k).bitmap (ptrKey ptr) = some e)
    (h : bufCheck k.val (bufAt s k) op ptr i = none) :
    SameAllocs (bufAt (putBuf k (ptrKey ptr) (entryAfter e op) s) j) (bufAt (bufOpNow k op ptr i s) j) := by
  simp only [bufOpNow, h, he, bufApply_eq]
  exact foldS_sameAllocs fun _ _ => sameAllocs_refreshPressure

/-- An operation that passes its checks changes the entry of its buffer, and nothing on another slice. -/
theorem bufOp_passed (hw : op = .refDrop → waitingRefAdds k (ptrKey ptr) s = [])
    (he : sparseGet none (bufAt s k).bitmap (ptrKey ptr) = some e) (h : bufCheck k.val (bufAt s k) op ptr i = none) :
    (bufAt (bufOp k op ptr i s) k).bitmap = sparseSet none (bufAt s k).bitmap (ptrKey ptr) (entryAfter e op) ∧
      (∀ j, j ≠ k → (bufAt (bufOp k op ptr i s) j).bitmap = (bufAt s j).bitmap) ∧
      OnlyChanges [.counters, .flags, .log, .ports, .bufs, .history] s (bufOp k op ptr i s) := by
  refine ⟨?_, fun j hj => ?_, (bufOp_keeps rfl rfl rfl rfl rfl rfl (keeps_self _ s)).onlyChanges⟩
  · rw [bufOp_eq_now hw, (bufOpNow_passed he h).bitmap, putBuf, bufAt_modBuf_same]
  · rw [bufOp_eq_now hw, (bufOpNow_passed he h).bitmap, putBuf, bufAt_modBuf_other _ _ _ _ hj]

end

/-! ## BUFFER_ALLOC (R282, R285, R286, R298) -/

section
variable {j k : SliceId} {a : AllocArgs} {r : AllocReq} {p : Nat} {l : List AllocArgs} {lost : List Nat} {s : State}

theorem exec_bufferAlloc (h : bufferAllocGuard k r s = true) :
    exec (.bufferAlloc k r) s = .next (allocBuf k (allocArgs r) s).2 := next_whenB h

theorem allocBuf_stopped (h : (bufAt s k).stopped = true) : allocBuf k a s = (.error .stopped, count1 (aBuf k 0x70) s) := if_pos h

theorem sameAllocs_newCycle {now : Nat} {b : BufSt} : SameAllocs b (newCycle now b) := by
  unfold newCycle
  split
  · exact .refl b
  · exact sameAllocs_notes b

/-- The arbiter's choice for a request, and the pools in which it lost (R285). -/
def arbitration (k : SliceId) (a : AllocArgs) (s : State) : Option Nat × List Nat :=
  arbitrate k.val (newCycle s.now (bufAt s k)) a (waitingAllocs k s) (List.range 5)

/-- The state in which the arbiter's choice takes effect. -/
def arbitrated (k : SliceId) (a : AllocArgs) (s : State) : State :=
  noteLosses k a (waitingAllocs k s) (arbitration k a s).2 (modBuf s k fun _ => newCycle s.now (bufAt s k))

theorem sameAllocs_noteLosses : SameAllocs (bufAt s j) (bufAt (noteLosses k a l lost s) j) := by
  unfold noteLosses
  exact foldS_sameAllocs fun _ _ => (sameAllocs_modBuf (sameAllocs_notes _)).trans (.of_eq bufAt_count1)

theorem arbitrated_keeps : Keeps (within [.counters, .flags, .log, .bufs, .history]) False s (arbitrated k a s) :=
  noteLosses_keeps rfl rfl (modBuf_keeps rfl (keeps_self _ s))

theorem sameAllocs_arbitrated : SameAllocs (bufAt s j) (bufAt (arbitrated k a s) j) :=
  (sameAllocs_modBuf sameAllocs_newCycle).trans sameAllocs_noteLosses

/-- A request that no pool can serve is answered EMPTY. -/
theorem allocBuf_empty (hs : (bufAt s k).stopped = false) (hq : a.quotaOnly = false) (h : (arbitration k a s).1 = none) :
    (allocBuf k a s).2 = setFlag (aBufFlags k) 4 (count1 (aBuf k 0x58) (arbitrated k a s)) := by
  have h' := h
  rw [arbitration] at h'
  simp only [allocBuf, hs, h', hq, Bool.false_eq_true, if_false]
  rfl

/-- A buffer from the owner's quota is refused by no threshold of the owner (R294). -/
theorem allocBuf_fromQuota (hs : (bufAt s k).stopped = false) (hrx : isHostRx a.owner = false) (h : (arbitration k a s).1 = some p)
    (hq : heldBy (bufAt s k) a.owner p < quotaOf (bufAt s k) (a.owner % 32) p) :
    (allocBuf k a s).2 = grantBuf k a p (arbitrated k a s) := by
  have h' := h
  rw [arbitration] at h'
  have hquota : heldBy (newCycle s.now (bufAt s k)) a.owner p < quotaOf (newCycle s.now (bufAt s k)) (a.owner % 32) p := by
    rwa [sameAllocs_newCycle.heldBy_eq, sameAllocs_newCycle.quota]
  simp only [allocBuf, hs, h', hrx, hquota, decide_true, Bool.not_true, Bool.false_and, Bool.false_eq_true, if_false]
  rfl

/-- The lowest free buffer is recorded in the bitmap, and its key among those granted in the cycle. -/
def grantNoted (key p : Nat) (a : AllocArgs) (b : BufSt) : BufSt := { withGrant b p a with granted := b.granted ++ [key] }

theorem bitmap_grantNoted {key : Nat} {b : BufSt} : (grantNoted key p a b).bitmap = (withGrant b p a).bitmap := rfl

theorem sameAllocs_grantBuf :
    SameAllocs (bufAt (modBuf s k (grantNoted (freeKey (bufAt s k) p) p a)) j) (bufAt (grantBuf k a p s) j) := by
  unfold grantBuf
  extract_lets key s1 s2
  have hs2 : bufAt s2 j = bufAt s1 j := by
    unfold s2
    split
    · exact bufAt_whenB fun _ => bufAt_count1
    · rfl
  have hs1 : bufAt s1 j = bufAt (modBuf s k (grantNoted key p a)) j := bufAt_count1
  exact (SameAllocs.of_eq ((bufAt_warnFlags.trans hs2).trans hs1)).trans sameAllocs_refreshPressure

theorem bitmap_grantBuf_same : (bufAt (grantBuf k a p s) k).bitmap = (withGrant (bufAt s k) p a).bitmap := by
  rw [sameAllocs_grantBuf.bitmap, bufAt_modBuf_same, bitmap_grantNoted]

theorem bitmap_grantBuf_other (hj : j ≠ k) : (bufAt (grantBuf k a p s) j).bitmap = (bufAt s j).bitmap := by
  rw [sameAllocs_grantBuf.bitmap, bufAt_modBuf_other _ _ _ _ hj]

end

/-! ## BUF_OWNER_SET (R286, R308) -/

section
variable {k : SliceId} {p : Nat} {r : Request} {s : State}

/-- The owner's settings written on a slice. -/
def setOwner (r : Request) (k : SliceId) (s : State) : State := refreshPressure k (modBuf s k (bufAfterOwner r))

theorem bufAt_setOwner_other {j : SliceId} (h : k ≠ j) : bufAt (setOwner r j s) k = bufAt s k :=
  (bufAt_refreshPressure_other h).trans (bufAt_modBuf_other _ _ _ _ h)

theorem sameAllocs_setOwner : SameAllocs (bufAfterOwner r (bufAt s k)) (bufAt (setOwner r k s) k) :=
  (SameAllocs.of_eq (bufAt_modBuf_same s k (bufAfterOwner r))).trans sameAllocs_refreshPressure

/-- Each slice of the mask gets the settings of the request. -/
theorem sameAllocs_bufOwnerSetApply (hk : r.inMask k.val = true) :
    SameAllocs (bufAfterOwner r (bufAt s k)) (bufAt (bufOwnerSetApply r s).st k) := by
  obtain ⟨t, ht, hfold⟩ := foldS_acts_once (s := s) (f := setOwner r) (view := fun t => bufAt t k) nodup_maskSlices
    (mem_maskSlices.mpr hk) fun j hj t => bufAt_setOwner_other hj.symm
  exact ht ▸ sameAllocs_setOwner.trans (.of_eq hfold)

theorem poolAt_bufAfterOwner {b : BufSt} : poolAt (bufAfterOwner r b) p = poolAt b p := by
  unfold bufAfterOwner
  split <;> rfl

/-- The check for CONFLICT is made on the quotas that the request leaves. -/
theorem quotaSum_of_bufOwnerSetChecks (h : firstFailing (bufOwnerSetChecks r s) = none) (hk : r.inMask k.val = true) (hp : p < 5) :
    quotaSum (bufAfterOwner r (bufAt s k)) p ≤ (poolAt (bufAt s k) p).buffers := by
  obtain ⟨-, hconflict⟩ := Bool.or_eq_false_iff.mp (fails_of_firstFailing_none h
    (List.mem_cons_of_mem _ (List.mem_cons_of_mem _ (List.mem_cons_of_mem _ (List.mem_cons_self ..)))))
  have hslice := List.any_eq_false.mp hconflict k (mem_maskSlices.mpr hk)
  have hpool := List.any_eq_false.mp (Bool.eq_false_iff.mpr hslice) p (List.mem_range.mpr hp)
  simpa using hpool

theorem quotaSum_bufOwnerSetApply (h : firstFailing (bufOwnerSetChecks r s) = none) (hk : r.inMask k.val = true) (hp : p < 5) :
    quotaSum (bufAt (bufOwnerSetApply r s).st k) p ≤ (poolAt (bufAt (bufOwnerSetApply r s).st k) p).buffers := by
  have hset := sameAllocs_bufOwnerSetApply (s := s) hk
  rw [hset.quotaSum_eq, hset.poolAt_eq, poolAt_bufAfterOwner]
  exact quotaSum_of_bufOwnerSetChecks h hk hp

end

/-- Settles O45: back-pressure, flags and records leave every allocation, pool and quota, so that of these an operation
changes only what it writes itself.  That a REF_DROP takes the waiting REF_ADDs of its cycle first is log 42; that a request
takes the lowest free buffer is the model's choice. -/
theorem buffersBelongToTheirOwners : Obligations.BuffersBelongToTheirOwners := by
  unfold Obligations.BuffersBelongToTheirOwners
  refine ⟨fun k ptr issuer s hpres => ⟨fun hwait => ?_, fun o c mk hg hmis => ?_, fun e he => ⟨fun hpass => ?_, fun hpass => ?_,
    fun hpass hwait => ?_, fun o c hg hpass => ?_⟩, fun a hg hstop => ?_, fun a hg hrun hnone => ?_,
    fun a p hg hrun hrx hsome hquota => ?_⟩, fun m r s hcur hchecks => ?_⟩
  · simp only [List.forall_mem_cons]
    refine ⟨fun mk hmis => ?_, fun mk hmis => ?_, fun mk hmis => ?_, List.forall_mem_nil _⟩
    · exact ⟨_, exec_free hpres, bufOp_rejected nofun hmis⟩
    · by_cases ha : (bufAt s k).refAhead.contains (ptrKey ptr) = true
      · exact ⟨_, exec_refAdd_ahead hpres ha, fun _ => bitmap_refAddTaken, (refAddTaken_keeps rfl).onlyChanges⟩
      · exact ⟨_, exec_refAdd hpres (Bool.eq_false_iff.mpr ha), bufOp_rejected nofun hmis⟩
    · exact ⟨_, exec_refDrop hpres, bufOp_rejected (fun _ => hwait) hmis⟩
  · exact ⟨_, exec_handOff hg, bufOp_rejected nofun hmis⟩
  · exact ⟨_, exec_free hpres, bufOp_passed nofun he hpass⟩
  · by_cases ha : (bufAt s k).refAhead.contains (ptrKey ptr) = true
    · rw [if_pos ha]
      exact ⟨_, exec_refAdd_ahead hpres ha, bitmap_refAddTaken, fun _ _ => bitmap_refAddTaken,
        (refAddTaken_keeps rfl).onlyChanges⟩
    · rw [if_neg ha]
      exact ⟨_, exec_refAdd hpres (Bool.eq_false_iff.mpr ha), bufOp_passed nofun he hpass⟩
  · exact ⟨_, exec_refDrop hpres, bufOp_passed (fun _ => hwait) he hpass⟩
  · obtain ⟨hentry, hframe⟩ := bufOp_passed (op := .handOff o.toNat c) nofun he hpass
    exact ⟨_, exec_handOff hg, ⟨_, hentry, rfl, fun hpriv => if_pos hpriv⟩, hframe⟩
  · rw [exec_bufferAlloc hg, allocBuf_stopped hstop]
  · rw [exec_bufferAlloc hg, allocBuf_empty hrun rfl hnone]
    refine ⟨_, rfl, fun j => ?_, getLsbD_setFlag (aEvqFlags_lt_aBufFlags k) (by decide), ?_⟩
    · rw [bufAt_setFlag, bufAt_count1, sameAllocs_arbitrated.bitmap]
    · exact (setFlag_keeps rfl rfl rfl rfl (count1_keeps rfl arbitrated_keeps)).onlyChanges
  · refine ⟨_, exec_bufferAlloc hg, ?_, fun j hj => ?_, (allocBuf_keeps rfl rfl rfl rfl rfl rfl (keeps_self _ s)).onlyChanges⟩
    · rw [allocBuf_fromQuota hrun hrx hsome hquota, bitmap_grantBuf_same, sameAllocs_arbitrated.withGrant_bitmap]
    · rw [allocBuf_fromQuota hrun hrx hsome hquota, bitmap_grantBuf_other hj, sameAllocs_arbitrated.bitmap]
  · refine ⟨_, congrArg Host.Outcome.next (runCommand_pass hcur hchecks), fun k hk p hp => ?_⟩
    rw [bufAt_finish]
    exact quotaSum_bufOwnerSetApply hchecks hk hp

end Sys2Proof.Machine
end

section
/-!
PROOFS.  The statement about the shapers, the hierarchies and the policers of the schedulers (O46).
-/
namespace Sys2Proof.Machine

/-! ## What the operations do to the shapers -/

section
variable {p : PortId} {a : AccountId} {o r : ShaperRef} {m : MboxId} {d : Done} {s t : State}

/-- A part of a table's element that a change leaves where it meets it is left wherever the change falls. -/
theorem view_vmod {α β : Type} {n : Nat} {v : Vector α n} {i j : Fin n} {f : α → α} (view : α → β)
    (h : j = i → view (f v[j]) = view v[j]) : view (vmod v i f)[j] = view v[j] := by
  by_cases hj : j = i
  · subst hj
    rw [vmod_same, h rfl]
  · rw [vmod_other _ _ _ _ hj]

/-- A change of a port leaves the shapers that it leaves on that port, and those elsewhere. -/
theorem shaperAt_modPort {f : PortSt → PortSt} (hport : o = .port p → (f (portAt s p)).shaper = (portAt s p).shaper)
    (hnode : ∀ n, o = .node p n → (f (portAt s p)).nodes[n].shaper = (portAt s p).nodes[n].shaper)
    (hqueue : ∀ q, o = .queue p q → (f (portAt s p)).queues[q].shaper = (portAt s p).queues[q].shaper) :
    shaperAt (modPort s p f) o = shaperAt s o := by
  cases o with
  | port j => exact view_vmod PortSt.shaper fun hj => by subst hj; exact hport rfl
  | node j n => exact view_vmod (fun x : PortSt => x.nodes[n].shaper) fun hj => by subst hj; exact hnode n rfl
  | queue j q => exact view_vmod (fun x : PortSt => x.queues[q].shaper) fun hj => by subst hj; exact hqueue q rfl
  | cls _ _ => rfl
  | account _ => rfl

/-- A change of an account leaves the shapers that it leaves on that account, and those elsewhere. -/
theorem shaperAt_modAcct {f : AccountSt → AccountSt}
    (hacct : o = .account a → (f (acctAt s a)).shaper = (acctAt s a).shaper)
    (hcls : ∀ c, o = .cls a c → (f (acctAt s a)).classes[c].shaper = (acctAt s a).classes[c].shaper) :
    shaperAt (modAcct s a f) o = shaperAt s o := by
  cases o with
  | port _ => rfl
  | node _ _ => rfl
  | queue _ _ => rfl
  | cls b c => exact view_vmod (fun x : AccountSt => x.classes[c].shaper) fun hb => by subst hb; exact hcls c rfl
  | account b => exact view_vmod AccountSt.shaper fun hb => by subst hb; exact hacct rfl

theorem shaperAt_modNode {n : Fin 8} {f : NodeSt → NodeSt} (h : o = .node p n → ∀ x, (f x).shaper = x.shaper) :
    shaperAt (modNode s p n f) o = shaperAt s o :=
  shaperAt_modPort (fun _ => rfl) (fun _ ho => view_vmod NodeSt.shaper fun hn => h (hn ▸ ho) _) fun _ _ => rfl

theorem shaperAt_modQueue {q : QueueId} {f : EgressQ → EgressQ} (h : o = .queue p q → ∀ x, (f x).shaper = x.shaper) :
    shaperAt (modQueue s p q f) o = shaperAt s o :=
  shaperAt_modPort (fun _ => rfl) (fun _ _ => rfl) fun _ ho => view_vmod EgressQ.shaper fun hq => h (hq ▸ ho) _

theorem shaperAt_modClass {c : Fin 8} {f : ClassSt → ClassSt} (h : o = .cls a c → ∀ x, (f x).shaper = x.shaper) :
    shaperAt (modClass s a c f) o = shaperAt s o :=
  shaperAt_modAcct (fun _ => rfl) fun _ ho => view_vmod ClassSt.shaper fun hc => h (hc ▸ ho) _

theorem node_modNode_same {n : Fin 8} {f : NodeSt → NodeSt} :
    (portAt (modNode s p n f) p).nodes[n] = f (portAt s p).nodes[n] :=
  (congrArg (fun x : PortSt => x.nodes[n]) (portAt_modPort_same ..)).trans (vmod_same ..)

theorem queue_modQueue_same {q : QueueId} {f : EgressQ → EgressQ} :
    (portAt (modQueue s p q f) p).queues[q] = f (portAt s p).queues[q] :=
  (congrArg (fun x : PortSt => x.queues[q]) (portAt_modPort_same ..)).trans (vmod_same ..)

theorem queue_modQueue_other {q u : QueueId} {f : EgressQ → EgressQ} (h : u ≠ q) :
    (portAt (modQueue s p q f) p).queues[u] = (portAt s p).queues[u] :=
  (congrArg (fun x : PortSt => x.queues[u]) (portAt_modPort_same ..)).trans (vmod_other _ _ _ _ h)

theorem class_modClass_same {c : Fin 8} {f : ClassSt → ClassSt} :
    (acctAt (modClass s a c f) a).classes[c] = f (acctAt s a).classes[c] :=
  (congrArg (fun x : AccountSt => x.classes[c]) (acctAt_modAcct_same ..)).trans (vmod_same ..)

theorem shaperAt_modShaper_same {f : Shaper → Shaper} : shaperAt (modShaper s r f) r = f (shaperAt s r) := by
  cases r with
  | port p => exact congrArg PortSt.shaper (portAt_modPort_same ..)
  | node p n => exact congrArg NodeSt.shaper node_modNode_same
  | queue p q => exact congrArg EgressQ.shaper queue_modQueue_same
  | cls a c => exact congrArg ClassSt.shaper class_modClass_same
  | account a => exact congrArg AccountSt.shaper (acctAt_modAcct_same ..)

theorem shaperAt_modShaper_other {f : Shaper → Shaper} (h : o ≠ r) : shaperAt (modShaper s r f) o = shaperAt s o := by
  cases r with
  | port p => exact shaperAt_modPort (fun ho => absurd ho h) (fun _ _ => rfl) fun _ _ => rfl
  | node p n => exact shaperAt_modNode fun ho => absurd ho h
  | queue p q => exact shaperAt_modQueue fun ho => absurd ho h
  | cls a c => exact shaperAt_modClass fun ho => absurd ho h
  | account a => exact shaperAt_modAcct (fun ho => absurd ho h) fun _ _ => rfl

theorem shaperAt_congr (h : t.path = s.path) : shaperAt t o = shaperAt s o := by
  unfold shaperAt portAt acctAt
  rw [h]

/-- The answer of a command leaves the shapers as the command did. -/
@[simp] theorem shaperAt_finish : shaperAt (finish m d) o = shaperAt d.st o := shaperAt_congr path_finish

end

/-! ## The wheels (R322) -/

section
variable {k : SliceId} {p : PortId} {a : AccountId} {o r : ShaperRef} {now t0 : Nat} {sh : Shaper} {s : State}

theorem wheelDue_of_fine (hw : sh.wheel = some (t0, false)) (ht : t0 ≤ now) : wheelDue now sh = true := by
  simp [wheelDue, hw, ht]

theorem exec_shaperEligible (h : wheelDue s.now (shaperAt s r) = true) :
    exec (.shaperEligible r) s = .next (shaperEligibleEffect r s) := next_whenB h

theorem shaperAt_shaperEligibleEffect_same (h : wheelDue s.now (shaperAt s r) = true) :
    shaperAt (shaperEligibleEffect r s) r = { accrue s.now (shaperAt s r) with wheel := none } :=
  shaperAt_modShaper_same.trans (if_pos h)

theorem exec_overflowWheelMove (h : present s k.val = true) :
    exec (.overflowWheelMove k) s = .next (overflowWheelMoveEffect k s) := next_whenB h

theorem wheelMove_of_overflow (hw : sh.wheel = some (t0, true)) :
    wheelMove now sh = if t0 ≤ now + 16384 then { sh with wheel := some (t0, false) } else sh := by
  rw [wheelMove, hw]
  rfl

theorem wheelMove_of_no_overflow (hw : ∀ t0, sh.wheel ≠ some (t0, true)) : wheelMove now sh = sh := by
  unfold wheelMove
  split
  next t hwheel => exact absurd hwheel (hw t)
  next => rfl

/-- The shapers whose entries move with the overflow wheel of a slice: those of its ports and those of the accounts (log 44). -/
def MovesWith (k : SliceId) : ShaperRef → Prop
  | .port p | .node p _ | .queue p _ => p.val / 4 = k.val
  | .cls _ _ | .account _ => True

theorem portAt_overflowWheelMoveEffect : portAt (overflowWheelMoveEffect k s) p =
    if p.val / 4 = k.val then portShapers (wheelMove s.now) (portAt s p) else portAt s p := Vector.getElem_ofFn p.isLt

theorem acctAt_overflowWheelMoveEffect : acctAt (overflowWheelMoveEffect k s) a = acctShapers (wheelMove s.now) (acctAt s a) :=
  Vector.getElem_ofFn a.isLt

theorem shaperAt_overflowWheelMoveEffect (h : MovesWith k o) :
    shaperAt (overflowWheelMoveEffect k s) o = wheelMove s.now (shaperAt s o) := by
  cases o with
  | port p => exact congrArg PortSt.shaper (portAt_overflowWheelMoveEffect.trans (if_pos h))
  | node p n =>
    have hport := (portAt_overflowWheelMoveEffect (s := s)).trans (if_pos h)
    exact (congrArg (·.nodes[n].shaper) hport).trans (congrArg NodeSt.shaper (Vector.getElem_ofFn n.isLt))
  | queue p q =>
    have hport := (portAt_overflowWheelMoveEffect (s := s)).trans (if_pos h)
    exact (congrArg (·.queues[q].shaper) hport).trans (congrArg EgressQ.shaper (Vector.getElem_ofFn q.isLt))
  | cls a c =>
    have hacct := acctAt_overflowWheelMoveEffect (k := k) (a := a) (s := s)
    exact (congrArg (·.classes[c].shaper) hacct).trans (congrArg ClassSt.shaper (Vector.getElem_ofFn c.isLt))
  | account a => exact congrArg AccountSt.shaper acctAt_overflowWheelMoveEffect

theorem shaperAt_overflowWheelMoveEffect_elsewhere (h : ¬ MovesWith k o) :
    shaperAt (overflowWheelMoveEffect k s) o = shaperAt s o := by
  cases o with
  | port p => exact congrArg PortSt.shaper (portAt_overflowWheelMoveEffect.trans (if_neg h))
  | node p n => exact congrArg (·.nodes[n].shaper) (portAt_overflowWheelMoveEffect.trans (if_neg h))
  | queue p q => exact congrArg (·.queues[q].shaper) (portAt_overflowWheelMoveEffect.trans (if_neg h))
  | cls _ _ => exact absurd trivial h
  | account _ => exact absurd trivial h

theorem shaperAt_overflowWheelMoveEffect_of_no_overflow (hw : ∀ t0, (shaperAt s o).wheel ≠ some (t0, true)) :
    shaperAt (overflowWheelMoveEffect k s) o = shaperAt s o := by
  by_cases h : MovesWith k o
  · rw [shaperAt_overflowWheelMoveEffect h, wheelMove_of_no_overflow hw]
  · exact shaperAt_overflowWheelMoveEffect_elsewhere h

end

/-! ## Timed launch (R325, R326) -/

section
variable {p : PortId} {q : QueueId} {s : State}

theorem exec_timedLaunchDue_onTime (hg : timedLaunchDueGuard p q s = true) (ht : headLate s (portAt s p).queues[q] = false) :
    exec (.timedLaunchDue p q) s = .next (modQueue s p q fun y => { y with due := true }) :=
  (next_whenB hg).trans (congrArg Host.Outcome.next (if_neg (Bool.eq_false_iff.mp ht)))

end

/-! ## SCHED_SET and SCHED_TREE_SET (R324, R330, R331) -/

section
variable {o : ShaperRef} {r : Request} {now rate burst : Nat} {toBurst c : Bool} {f : State → State} {sh : Shaper} {s : State}

/-- Entering a wheel writes the wheel entry of a shaper alone. -/
theorem enterWheel_eq : ∃ e, enterWheel now sh = { sh with wheel := e } := by
  unfold enterWheel
  split
  · exact ⟨_, rfl⟩
  · exact ⟨_, rfl⟩

theorem setShaper_fields : (setShaper now rate burst toBurst).rate = rate ∧ (setShaper now rate burst toBurst).burst = burst ∧
    (setShaper now rate burst toBurst).tokens = if toBurst ∧ rate ≠ 0 then (burst * byteUnits : Nat) else 0 := by
  unfold setShaper
  obtain ⟨e, he⟩ := enterWheel_eq (now := now)
    (sh := { rate, burst, tokens := if toBurst && rate != 0 then (burst * byteUnits : Nat) else 0, at_ := now, wheel := none })
  rw [he]
  exact ⟨rfl, rfl, by simp⟩

theorem shaperAt_whenB (hf : ∀ t, shaperAt (f t) o = shaperAt t o) : shaperAt (whenB c f s) o = shaperAt s o := by
  cases c with
  | false => rfl
  | true => exact hf s

theorem shaperAt_scSetWeight : shaperAt (scSetWeight r s) o = shaperAt s o := by
  unfold scSetWeight
  split
  · exact shaperAt_modNode fun _ _ => rfl
  · exact shaperAt_modQueue fun _ _ => rfl
  · exact shaperAt_modClass fun _ _ => rfl
  · rfl

theorem shaperAt_scSetOverhead : shaperAt (scSetOverhead r s) o = shaperAt s o := by
  unfold scSetOverhead
  split
  · exact shaperAt_modPort (fun _ => rfl) (fun _ _ => rfl) fun _ _ => rfl
  · exact shaperAt_modAcct (fun _ => rfl) fun _ _ => rfl
  · rfl

theorem shaperAt_scSetTimed : shaperAt (scSetTimed r s) o = shaperAt s o := by
  unfold scSetTimed
  split
  · exact shaperAt_modQueue fun _ _ => rfl
  · rfl

/-- Of the settings of a SCHED_SET only SET_SHAPER bears on a shaper. -/
theorem shaperAt_schedSetApply : shaperAt (schedSetApply r s).st o = shaperAt (whenB (scFlag r 0)
    (fun st => modShaper st (scRef r) fun _ => setShaper s.now (scRate r) (scBurst r) (scFlag r 2)) s) o :=
  (shaperAt_whenB fun _ => shaperAt_scSetTimed).trans <| (shaperAt_whenB fun _ => shaperAt_scSetOverhead).trans <|
    shaperAt_whenB fun _ => shaperAt_scSetWeight

theorem shaperAt_schedSetApply_same (h : scFlag r 0 = true) : shaperAt (schedSetApply r s).st (scRef r) =
    setShaper s.now (scRate r) (scBurst r) (scFlag r 2) := by
  rw [shaperAt_schedSetApply, h, whenB_true, shaperAt_modShaper_same]

theorem shaperAt_schedSetApply_other (h : o ≠ scRef r ∨ scFlag r 0 = false) :
    shaperAt (schedSetApply r s).st o = shaperAt s o := by
  rw [shaperAt_schedSetApply]
  rcases h with hne | hflag
  · exact shaperAt_whenB fun _ => shaperAt_modShaper_other hne
  · rw [hflag, whenB_false]

theorem treeNodes_of_schedTreeSetChecks (h : firstFailing (schedTreeSetChecks r s) = none) {n : Nat} (hn : n ∈ treeNodes r) :
    n ≤ 7 := by
  have hrange := fails_of_firstFailing_none h
    (List.mem_cons_of_mem _ (List.mem_cons_of_mem _ (List.mem_cons_of_mem _ (List.mem_cons_self ..))))
  obtain ⟨-, hnodes⟩ := Bool.or_eq_false_iff.mp hrange
  simpa using List.any_eq_false.mp hnodes n hn

end

/-! ## POLICER_READ (R333) -/

section
variable {op : Nat} {m : MboxId} {r : Request} {d : Done} {e : Status} {x : List Byte} {s : State}

/-- The response that a command writes stands in its mailbox: the frame of the service port, the bookkeeping of the long
commands and the interrupt leave it there. -/
theorem resp_respond : (boxAt (respond m e x s) m).resp = stampResponse s e (boxAt s m).req.seq x := by
  unfold respond
  extract_lets b r s1 s2 _ s3
  have h2 : boxAt s2 m = boxAt (modBox s1 m fun b => { b with resp := r, st := .done }) m := congrArg (·.boxes[m])
    ((serviceAnswer_keeps (w := within [.env]) (k := False) rfl (keeps_self _ _)).same .mail rfl)
  have h3 : (boxAt s3 m).resp = r := congrArg Mbox.resp (h2.trans (boxAt_modBox_same ..))
  split
  · have hcause : (causeVec (Fin.ofNat 64 m.val) false s3).mail = s3.mail :=
      (causeVec_keeps (w := within [.log]) rfl (keeps_self _ s3)).same .mail rfl
    exact (congrArg (·.boxes[m].resp) hcause).trans h3
  · exact h3

theorem boxAt_bumpGen : boxAt (bumpGen r s) m = boxAt s m :=
  congrArg (·.boxes[m]) ((bumpGen_keeps (w := within [.bridge, .anchor]) rfl rfl (keeps_self _ s)).same .mail rfl)

/-- A command that ends without a FENCE after it is answered at once with its status and payload. -/
theorem resp_finish (h : (boxAt d.st m).req.fenceAfter = false) :
    (boxAt (finish m d) m).resp.payload = d.payload ∧ (boxAt (finish m d) m).resp.status = d.status := by
  unfold finish
  extract_lets q
  rw [h, Bool.and_false, if_neg Bool.false_ne_true, resp_respond]
  exact ⟨rfl, rfl⟩

theorem req_of_current (h : current op s = some (m, r)) : (boxAt s m).req = r := by
  unfold current at h
  split at h
  · split at h
    · cases h
      rfl
    · cases h
  · cases h

theorem length_toLe (n v : Nat) : (toLe n v).length = n := by
  induction n generalizing v with
  | zero => rfl
  | succ n ih => rw [toLe, List.length_cons, ih]

theorem length_policerBytes (now : Nat) (y : Policer) : (policerBytes now y).length = 40 := by
  simp [policerBytes, length_toLe]

theorem length_policerReadApply : (policerReadApply r s).payload.length = 40 * r.u16 2 := by
  simp [policerReadApply, polRange, List.length_flatMap, length_policerBytes, Function.comp_def, Nat.mul_comm]

theorem boxAt_policerReadApply : boxAt (policerReadApply r s).st m = boxAt s m := by
  have hkeeps := policerReadApply_keeps (x0 := r) (w := within [.policers]) rfl (keeps_self _ s)
  exact congrArg (·.boxes[m]) (hkeeps.st.same .mail rfl)

/-- The counters of a policer cleared. -/
def countersCleared (y : Policer) : Policer := { y with conformFrames := 0, conformBytes := 0, excessFrames := 0, excessBytes := 0 }

theorem policers_foldS_policerClear {l : List Nat} : (foldS l policerClear s).path.policers =
    l.foldl (fun ps i => sparseMod {} ps i countersCleared) s.path.policers := by
  induction l generalizing s with
  | nil => rfl
  | cons i l ih =>
    rw [foldS_cons, ih]
    rfl

theorem policers_policerReadApply : (policerReadApply r s).st.path.policers = if natBit (r.u8 4) 0 then
    (List.range (r.u16 2)).foldl (fun ps i => sparseMod {} ps (r.u16 0 + i) countersCleared) s.path.policers
    else s.path.policers := by
  unfold policerReadApply whenB
  split
  · exact policers_foldS_policerClear.trans List.foldl_map
  · rfl

end

/-- Settles O46: weights, overheads and timed settings bear on no shaper, and the answer of a command leaves the packet path.
That the entries of the accounts move with the wheel of any slice is the model's choice of log 44; the tokens after a SCHED_SET
are those of RESET_TO (R324). -/
theorem shapersAndPolicers : Obligations.ShapersAndPolicers := by
  unfold Obligations.ShapersAndPolicers
  refine ⟨fun s => ⟨fun sh t0 hfine hdue => ?_, fun k hpres => ?_, fun p q hg hontime => ?_⟩, fun m r s =>
    ⟨fun hcur hchecks => ?_, fun hcur hchecks => ?_, fun hcur hchecks => ?_, fun hcur hchecks => ?_⟩⟩
  · have hwheel := wheelDue_of_fine hfine hdue
    exact ⟨_, exec_shaperEligible hwheel, shaperAt_shaperEligibleEffect_same hwheel,
      fun o ho => shaperAt_modShaper_other ho, (shaperEligibleEffect_keeps rfl rfl (keeps_self _ s)).onlyChanges⟩
  · refine ⟨_, exec_overflowWheelMove hpres, (overflowWheelMoveEffect_keeps rfl rfl (keeps_self _ s)).onlyChanges, fun sh =>
      ⟨shaperAt_overflowWheelMoveEffect_of_no_overflow, fun t0 hover hslice => ?_⟩⟩
    rw [shaperAt_overflowWheelMoveEffect hslice, wheelMove_of_overflow hover]
  · exact ⟨_, exec_timedLaunchDue_onTime hg hontime, queue_modQueue_same, fun o ho => queue_modQueue_other ho,
      fun o ho => portAt_modPort_other _ _ _ _ ho, (modQueue_keeps rfl (keeps_self _ s)).onlyChanges⟩
  · refine ⟨_, congrArg Host.Outcome.next (runCommand_pass hcur hchecks),
      fun sh hsh => shaperAt_finish.trans (shaperAt_schedSetApply_other hsh), fun hset => ?_,
      (finish_keeps rfl rfl rfl rfl rfl (schedSetApply_keeps rfl rfl (keeps_self _ s))).onlyChanges⟩
    rw [shaperAt_finish, shaperAt_schedSetApply_same hset]
    exact setShaper_fields
  · refine ⟨_, congrArg Host.Outcome.next (runCommand_pass hcur hchecks), ?_⟩
    rw [portAt_finish, schedTreeSetApply, okDone, portAt_modPort_same]
    exact ⟨rfl, fun n hn => treeNodes_of_schedTreeSetChecks hchecks hn, rfl,
      fun o ho => portAt_finish.trans (portAt_modPort_other _ _ _ _ ho)⟩
  · exact ⟨_, congrArg Host.Outcome.next (runCommand_pass hcur hchecks), congrArg PathAll.policers path_finish⟩
  · refine ⟨_, congrArg Host.Outcome.next (runCommand_pass hcur hchecks), fun hfence => ?_,
      (congrArg PathAll.policers path_finish).trans policers_policerReadApply⟩
    obtain ⟨hpayload, hstatus⟩ := resp_finish (m := m) (d := policerReadApply r s)
      (by rw [boxAt_policerReadApply, req_of_current hcur, hfence])
    exact ⟨hpayload ▸ length_policerReadApply, hstatus⟩

end Sys2Proof.Machine
end

section
/-!
PROOFS.  The statements that every command has its effect (O11 to O28): what a row of each kind answers.
-/
namespace Sys2Proof.Machine

/-! ## What a row answers -/

section
variable {s : State} {m : MboxId} {r : Request}

/-- A command row whose request passes its checks answers its effect with the response written. -/
theorem next_runCommand {op : Nat} {ck : Request → State → List Check} {ap : Request → State → Done}
    (hcur : current op s = some (m, r)) (hchecks : firstFailing (ck r s) = none) :
    (Host.Outcome.next (runCommand op ck ap s) : Host.Outcome State Fault Refusal) = .next (finish m (ap r s)) :=
  congrArg Host.Outcome.next (runCommand_pass hcur hchecks)

/-- A long command row whose request passes its checks answers its start. -/
theorem next_runLong {op : Nat} {ck : Request → State → List Check} {start : MboxId → Request → State → State}
    (hcur : current op s = some (m, r)) (hchecks : firstFailing (ck r s) = none) :
    (Host.Outcome.next (runLong op ck start s) : Host.Outcome State Fault Refusal) = .next (start m r s) :=
  congrArg Host.Outcome.next (runLong_pass hcur hchecks)

/-- A downstream OAM message of its row's type that passes the tests of R86 and the row's own, and repeats none, is acted on. -/
theorem next_oamReceive {ty : Nat} {l : Lane} {msg : OamRx} {test : GroupId → State → RxTest} {act : GroupId → State → State}
    {g : GroupId} (htype : msgType msg = ty) (hverdict : oamVerdict s l msg = .pass g) (htest : test g s = .ok)
    (hdup : isDup (groupAt s g) msg (carrierStamp s l msg) = false) :
    (Host.Outcome.next (oamReceive ty l msg test act s) : Host.Outcome State Fault Refusal) =
      .next (act g (recordDup g msg (carrierStamp s l msg) (takeUnit l msg s))) :=
  congrArg Host.Outcome.next (oamReceive_accept htype hverdict htest hdup)

end

/-! ## Every command has its effect

Each clause is settled by the lemma of its row's kind: an event row, a command, a long command or a downstream message. -/

/-- Settles O11. -/
theorem registerAccessesComplete : Obligations.RegisterAccessesComplete :=
  ⟨fun _ _ _ => next_whenB, fun _ _ => next_whenB, fun _ _ _ => next_whenB, fun _ _ => next_whenB⟩

/-- Settles O12. -/
theorem bridgeAndAnchorCommandsComplete : Obligations.BridgeAndAnchorCommandsComplete :=
  ⟨fun _ _ _ => next_whenB, fun _ _ _ => next_runCommand, fun _ _ _ _ => next_whenB, fun _ _ _ _ => next_whenB,
   fun _ _ _ _ => next_whenB, fun _ _ _ => next_whenB, fun _ _ => next_whenB, fun _ _ _ => next_whenB,
   fun _ => next_whenB, fun _ => next_whenB, fun _ => next_whenB, fun _ _ _ => next_whenB, fun _ _ _ _ => next_whenB,
   fun _ _ _ => next_whenB, fun _ _ => next_whenB, fun _ _ => next_whenB, fun _ _ => next_whenB, fun _ => next_whenB,
   fun _ => next_whenB, fun _ _ => next_whenB, fun _ _ _ => next_runCommand⟩

/-- Settles O13. -/
theorem framingCommandsComplete : Obligations.FramingCommandsComplete :=
  ⟨fun _ _ => next_whenB, fun _ _ _ => next_whenB, fun _ _ _ => next_whenB, fun _ _ _ => next_whenB,
   fun _ _ _ => next_whenB, fun _ _ _ => next_whenB, fun _ _ _ => next_whenB, fun _ _ _ => next_whenB,
   fun _ _ _ => next_runCommand, fun _ _ _ => next_runCommand⟩

/-- Settles O14. -/
theorem rangingCommandsComplete : Obligations.RangingCommandsComplete :=
  ⟨fun _ _ _ => rfl, fun _ _ _ _ _ htype hv ht hd => next_oamReceive htype hv ht hd,
   fun _ _ _ _ _ htype hv hd => next_oamReceive htype hv rfl hd,
   fun _ _ _ _ _ htype hv hd => next_oamReceive htype hv rfl hd,
   fun _ _ _ _ _ htype hv ht hd => next_oamReceive htype hv ht hd, fun _ _ _ => next_runCommand,
   fun _ _ _ => next_whenB, fun _ _ => next_whenB, fun _ _ => next_whenB, fun _ _ => next_whenB, fun _ _ => next_whenB,
   fun _ _ => next_whenB, fun _ _ => next_whenB⟩

/-- Settles O15. -/
theorem grantAndBurstCommandsComplete : Obligations.GrantAndBurstCommandsComplete :=
  ⟨fun _ _ _ => next_whenB, fun _ _ => next_whenB, fun _ _ => next_whenB,
   fun _ _ _ _ _ htype hv hd => next_oamReceive htype hv rfl hd, fun _ _ => next_whenB,
   fun _ _ _ _ _ htype hv hd => next_oamReceive htype hv rfl hd, fun _ _ => next_whenB, fun _ _ => next_whenB,
   fun _ _ => next_whenB, fun _ _ _ => next_runCommand, fun _ _ => next_whenB, fun _ _ _ _ => next_whenB,
   fun _ _ => next_whenB, fun _ _ _ _ => next_whenB, fun _ _ _ _ => next_whenB,
   fun _ _ _ _ _ htype hv hd => next_oamReceive htype hv rfl hd, fun _ _ _ => next_runCommand,
   fun _ _ _ => next_runCommand⟩

/-- Settles O16. -/
theorem defectAndProtectionCommandsComplete : Obligations.DefectAndProtectionCommandsComplete :=
  ⟨fun _ _ => next_whenB, fun _ _ => next_whenB, fun _ _ => next_whenB, fun _ _ => next_whenB, fun _ _ => next_whenB,
   fun _ _ _ _ _ htype hv hd => next_oamReceive htype hv rfl hd, fun _ _ => next_whenB, fun _ _ => next_whenB,
   fun _ _ _ _ _ htype hv ht hd => next_oamReceive htype hv ht hd, fun _ _ => next_whenB,
   fun _ _ _ _ _ htype hv ht hd => next_oamReceive htype hv ht hd, fun _ _ => next_whenB, fun _ _ => next_whenB,
   fun _ _ _ _ _ htype hv hd => next_oamReceive htype hv rfl hd, fun _ _ _ => rfl, fun _ _ => next_whenB,
   fun _ _ => next_whenB, fun _ _ _ => next_runCommand, fun _ _ _ => next_runCommand, fun _ _ _ => next_runCommand,
   fun _ _ _ => next_runCommand⟩

/-- Settles O17. -/
theorem hostPortCommandsComplete : Obligations.HostPortCommandsComplete :=
  ⟨fun _ _ _ => next_runCommand, fun _ _ _ => next_whenB, fun _ _ _ => next_whenB, fun _ _ _ => next_whenB,
   fun _ _ => next_whenB, fun _ _ => next_whenB, fun _ _ => next_whenB, fun _ _ => next_whenB, fun _ _ => next_whenB,
   fun _ _ _ _ => next_whenB, fun _ _ => next_whenB, fun _ _ => next_whenB, fun _ _ => next_whenB,
   fun _ _ _ => next_runCommand, fun _ _ _ => next_runCommand, fun _ _ _ => next_runCommand,
   fun _ _ _ => next_runCommand, fun _ _ _ => next_runCommand, fun _ _ _ => next_whenB, fun _ _ _ => next_whenB⟩

/-- Settles O18. -/
theorem classifierCommandsComplete : Obligations.ClassifierCommandsComplete :=
  ⟨fun _ _ => next_whenB, fun _ _ => next_whenB, fun _ _ => next_whenB, fun _ _ => next_whenB,
   fun _ _ _ => next_runCommand, fun _ _ _ => next_runCommand, fun _ _ _ => next_runCommand,
   fun _ _ _ => next_runCommand, fun _ _ _ => next_runCommand, fun _ _ _ => next_runCommand, fun _ _ => next_whenB,
   fun _ _ _ => next_runCommand, fun _ _ _ => next_runCommand⟩

/-- Settles O19. -/
theorem bufferCommandsComplete : Obligations.BufferCommandsComplete :=
  ⟨fun _ _ _ => next_whenB, fun _ _ _ _ => next_whenB, fun _ _ _ _ _ _ => next_whenB, fun _ _ _ _ => next_whenB,
   fun _ _ _ _ => next_whenB, fun _ _ => next_whenB, fun _ _ => next_whenB, fun _ _ => next_whenB,
   fun _ _ => next_whenB, fun _ _ => next_whenB, fun _ _ => next_whenB, fun _ _ _ => next_runCommand,
   fun _ _ _ => next_runCommand, fun _ _ _ => next_runCommand, fun _ _ _ => next_runCommand,
   fun _ _ _ => next_runCommand⟩

/-- Settles O20. -/
theorem schedulingCommandsComplete : Obligations.SchedulingCommandsComplete :=
  ⟨fun _ _ => next_whenB, fun _ _ => next_whenB, fun _ _ _ => next_whenB, fun _ _ _ => next_runCommand,
   fun _ _ _ => next_runCommand, fun _ _ _ => next_runCommand, fun _ _ _ => next_runCommand⟩

/-- Settles O21. -/
theorem cipherCommandsComplete : Obligations.CipherCommandsComplete :=
  ⟨fun _ _ => next_whenB, fun _ _ _ _ _ htype hv hd => next_oamReceive htype hv rfl hd, fun _ _ => next_whenB,
   fun _ _ _ _ _ htype hv hd => next_oamReceive htype hv rfl hd, fun _ _ _ => next_whenB, fun _ _ _ => next_whenB,
   fun _ _ _ => next_whenB, fun _ _ => next_whenB, fun _ _ => next_whenB, fun _ => next_whenB,
   fun _ _ _ => next_runCommand, fun _ _ _ => next_runCommand, fun _ _ _ => next_runCommand,
   fun _ _ _ => next_runCommand, fun _ _ _ => next_runCommand, fun _ _ _ => next_runCommand,
   fun _ _ _ => next_runCommand, fun _ _ _ => next_runCommand⟩

/-- Settles O22. -/
theorem timeCommandsComplete : Obligations.TimeCommandsComplete :=
  ⟨fun _ => next_whenB, fun _ => next_whenB, fun _ => next_whenB, fun _ => next_whenB, fun _ => next_whenB,
   fun _ _ => next_whenB, fun _ _ _ => next_runCommand, fun _ _ _ => next_runCommand, fun _ _ _ => next_runCommand,
   fun _ _ _ => next_runCommand, fun _ => next_whenB⟩

/-- Settles O23. -/
theorem hbmCommandsComplete : Obligations.HbmCommandsComplete :=
  ⟨fun _ _ _ => next_whenB, fun _ _ _ => next_whenB, fun _ _ => next_whenB, fun _ _ => next_whenB,
   fun _ _ => next_whenB, fun _ _ => next_whenB, fun _ _ _ => next_whenB, fun _ _ => next_whenB,
   fun _ _ _ => next_whenB, fun _ _ => next_whenB, fun _ _ => next_whenB, fun _ _ => next_whenB, fun _ _ => next_whenB,
   fun _ _ _ => next_runLong, fun _ _ _ => next_whenB, fun _ _ _ => next_runCommand, fun _ _ _ => next_runCommand⟩

/-- Settles O24. -/
theorem serialLaneCommandsComplete : Obligations.SerialLaneCommandsComplete :=
  ⟨fun _ _ => next_whenB, fun _ _ => next_whenB, fun _ _ => next_whenB, fun _ _ => next_whenB, fun _ _ => next_whenB,
   fun _ _ _ => next_runCommand, fun _ _ _ => next_runCommand, fun _ _ _ => next_runCommand, fun _ _ => next_whenB,
   fun _ _ => next_whenB, fun _ _ _ => next_runCommand, fun _ _ => next_whenB, fun _ _ _ _ _ => next_whenB,
   fun _ _ => next_whenB⟩

/-- Settles O25. -/
theorem fabricCommandsComplete : Obligations.FabricCommandsComplete :=
  ⟨fun _ _ => next_whenB, fun _ _ _ => rfl, fun _ _ => next_whenB, fun _ _ => next_whenB, fun _ _ _ => rfl,
   fun _ _ => next_whenB, fun _ _ _ => next_whenB, fun _ _ _ => next_whenB, fun _ _ => next_whenB,
   fun _ _ _ => next_whenB, fun _ _ _ => next_whenB, fun _ => next_whenB, fun _ _ _ => next_whenB,
   fun _ _ => next_whenB, fun _ => next_whenB, fun _ _ _ => next_whenB, fun _ _ => next_whenB, fun _ => next_whenB,
   fun _ _ => next_whenB, fun _ _ _ => next_runCommand, fun _ _ _ => next_runCommand⟩

/-- Settles O26. -/
theorem mailboxAndEventCommandsComplete : Obligations.MailboxAndEventCommandsComplete :=
  ⟨fun _ _ _ _ => next_whenB, fun _ _ _ _ => next_whenB, fun _ _ _ => next_whenB, fun _ => next_whenB,
   fun _ => next_whenB, fun _ => next_whenB, fun _ _ => next_whenB, fun _ _ => next_whenB, fun _ _ => next_whenB,
   fun _ _ _ => next_whenB, fun _ _ _ _ => next_whenB, fun _ => next_whenB, fun _ _ => next_whenB,
   fun _ _ _ => next_runLong, fun _ _ => next_whenB, fun _ _ _ => next_runLong, fun _ _ => next_whenB,
   fun _ _ _ => next_runCommand, fun _ _ _ => next_runCommand, fun _ _ _ => next_runCommand,
   fun _ _ _ => next_runCommand, fun _ _ _ => next_runCommand, fun _ _ => next_whenB, fun _ _ => next_whenB,
   fun _ _ => next_whenB, fun _ _ _ => next_whenB, fun _ _ _ _ => next_whenB, fun _ _ => next_whenB,
   fun _ _ _ => next_whenB, fun _ _ _ => next_whenB⟩

/-- Settles O27. -/
theorem firmwareCommandsComplete : Obligations.FirmwareCommandsComplete :=
  ⟨fun _ _ _ => next_whenB, fun _ _ _ => next_runCommand, fun _ _ _ => next_runCommand, fun _ _ => next_whenB,
   fun _ _ _ => next_runLong, fun _ _ _ => next_runLong, fun _ _ _ => next_runLong, fun _ _ => next_whenB,
   fun _ _ => next_whenB, fun _ _ _ => next_runCommand, fun _ _ _ => next_runCommand, fun _ => next_whenB,
   fun _ _ => next_whenB, fun _ _ => next_whenB, fun _ => next_whenB⟩

/-- Settles O28. -/
theorem clockPowerResetCommandsComplete : Obligations.ClockPowerResetCommandsComplete :=
  ⟨fun _ _ _ => next_whenB, fun _ _ _ => next_whenB, fun _ _ _ _ _ => next_whenB, fun _ _ _ => next_whenB,
   fun _ _ _ => next_whenB, fun _ _ => next_whenB, fun _ _ => next_whenB, fun _ _ => next_whenB,
   fun _ _ _ => next_whenB, fun _ _ _ _ => next_whenB, fun _ _ => next_whenB, fun _ _ _ _ => next_whenB,
   fun _ _ => next_whenB, fun _ _ => next_whenB, fun _ _ => next_whenB, fun _ _ => next_whenB, fun _ _ => next_whenB,
   fun _ _ => next_whenB, fun _ _ _ => next_runLong, fun _ _ => next_whenB, fun _ _ _ => next_runCommand,
   fun _ _ _ => next_runCommand, fun _ _ _ => next_runLong, fun _ _ => next_whenB, fun _ _ => next_whenB,
   fun _ _ => next_whenB, fun _ _ => next_whenB, fun _ _ _ => next_whenB, fun _ => next_whenB, fun _ _ => next_whenB,
   fun _ => next_whenB⟩

end Sys2Proof.Machine
end

section
/-!
PROOFS.  The statements about a step and about the footprint of a command (O1, O2, O6).
-/
namespace Sys2Proof.Machine

/-! ## The step -/

/-- Settles O6: what lies outside the footprint of a command is kept. -/
theorem commandsWriteOnlyTheirComponents : Obligations.CommandsWriteOnlyTheirComponents := by
  unfold Obligations.CommandsWriteOnlyTheirComponents
  intro c s t hexec
  obtain ⟨u, hu, hkeeps⟩ := exec_keeps (k := False) (s := s) c False.elim
  obtain rfl : u = t := Host.Outcome.next.inj (hu.symm.trans hexec)
  exact hkeeps.onlyChanges

/-- Settles O1: a step looks at the front of the queue. -/
theorem stepRunsFrontCommand : Obligations.StepRunsFrontCommand := fun _ _ _ => rfl

/-- Every component but the tick count. -/
def offClock (c : Comp) : Bool := c != .now

/-- The instant at which a tick ends. -/
def clockAdvanced (s : State) : State := { s with now := s.now + 1 }

/-- What a tick does once the tick count has risen leaves the tick count. -/
theorem tick_keeps_clockAdvanced (s : State) : Keeps offClock False (clockAdvanced s) (tick s) := by
  unfold tick
  extract_lets s0 s1 s2 s3 s4 s5 s6 s7 s8
  have h1 : Keeps offClock False s0 s1 := tickTime_keeps rfl rfl rfl rfl rfl
    (foldS_keeps (fun _ _ => tickGroup_keeps rfl) (Keeps.refl _ s0 False.elim))
  have h2 : Keeps offClock False s0 s2 := foldS_keeps (fun _ _ => tickLane_keeps rfl rfl) h1
  have h3 : Keeps offClock False s0 s3 :=
    foldS_keeps (fun _ _ => tickSlice_keeps rfl) (foldS_keeps (fun _ _ => tickPm_keeps rfl) h2)
  have h4 : Keeps offClock False s0 s4 := foldS_keeps (fun _ _ => tickPattern_keeps rfl) h3
  have h5 : Keeps offClock False s0 s5 := foldS_keeps (fun _ _ => foldS_keeps fun _ _ => tickBridge_keeps rfl) h4
  have h6 : Keeps offClock False s0 s6 := foldS_keeps (fun _ _ => tickChan_keeps rfl rfl) h5
  have h7 : Keeps offClock False s0 s7 := foldS_keeps (fun _ _ => noteDrain_keeps rfl) h6
  have h8 : Keeps offClock False s0 s8 :=
    Keeps.ite h7 (tickLocal_keeps rfl rfl rfl rfl rfl rfl rfl rfl rfl rfl rfl rfl rfl rfl rfl h7)
  exact Keeps.ite (tickUs_keeps rfl rfl h8) h8

/-- Settles O2. -/
theorem emptyQueueLetsATickPass : Obligations.EmptyQueueLetsATickPass := by
  unfold Obligations.EmptyQueueLetsATickPass
  intro s hq
  have hkeeps := tick_keeps_clockAdvanced s
  obtain ⟨-, -, -, hpending⟩ := hkeeps.ident
  refine ⟨tick s, ?_, hkeeps.same .now rfl, hpending.trans hq⟩
  unfold step
  rw [hq]

end Sys2Proof.Machine
end

section
/-!
PROOFS.  The SVN floor (O58): what each operation that writes images and versions leaves of it.
-/
namespace Sys2Proof.Machine

/-! ## What leaves the SVN floor -/

/-- Every component but the images and versions of the firmware. -/
def offImage (c : Comp) : Bool := c != .image

/-- The SVN floor is the same in `t` as in `s`. -/
structure SameFloor (s t : State) : Prop where
  floor : t.fw.svnFloor = s.fw.svnFloor

section
variable {α : Type} {l : List α} {c : Bool} {h : Half} {m : MboxId} {ms : List MboxId} {d : Done} {r : Request} {a b : Nat}
  {f : State → State} {s t u : State}

theorem offImage_self (s : State) : Keeps offImage False s s := Keeps.refl _ s False.elim

theorem SameFloor.refl (s : State) : SameFloor s s := ⟨rfl⟩

theorem SameFloor.trans (h1 : SameFloor s t) (h2 : SameFloor t u) : SameFloor s u := ⟨h2.floor.trans h1.floor⟩

theorem SameFloor.ite {p : Prop} [Decidable p] (h1 : SameFloor s t) (h2 : SameFloor s u) : SameFloor s (if p then t else u) := by
  split <;> assumption

theorem SameFloor.congr (h : SameFloor s t) (hfw : u.fw = t.fw) : SameFloor s u := ⟨by rw [hfw, h.floor]⟩

theorem SameFloor.of_fw (hfw : t.fw = s.fw) : SameFloor s t := (SameFloor.refl s).congr hfw

theorem Keeps.sameFloor {w : Comp → Bool} {k : Prop} (h : Keeps w k s t) (hw : w .image = false) : SameFloor s t := by
  obtain ⟨-, -, hfloor, -⟩ := h.same .image hw
  exact ⟨hfloor⟩

theorem whenB_sameFloor (hf : SameFloor s (f s)) : SameFloor s (whenB c f s) := SameFloor.ite hf (.refl s)

theorem foldS_sameFloor {g : α → State → State} (hg : ∀ x t, SameFloor t (g x t)) : SameFloor s (foldS l g s) :=
  foldS_induction (P := SameFloor s) (fun x t ht => ht.trans (hg x t)) (.refl s)

theorem setFlag_sameFloor : SameFloor s (setFlag a b s) := (setFlag_keeps rfl rfl rfl rfl (offImage_self s)).sameFloor rfl

theorem count1_sameFloor : SameFloor s (count1 a s) := (count1_keeps rfl (offImage_self s)).sameFloor rfl

theorem logEvent_sameFloor {code : BitVec 16} {sev : Severity} {source : Byte} {data : List Byte} :
    SameFloor s (logEvent code sev source data s) := (logEvent_keeps rfl rfl rfl rfl (offImage_self s)).sameFloor rfl

theorem finish_sameFloor : SameFloor d.st (finish m d) := finish_keeps_answer.sameFloor rfl

theorem runLong_sameFloor {op : Nat} {ck : Request → State → List Check} {start : MboxId → Request → State → State}
    (hs : ∀ m r, SameFloor s (start m r s)) : SameFloor s (runLong op ck start s) := by
  unfold runLong
  split
  · split
    · exact SameFloor.trans (t := Done.st { st := s, status := _ }) (.refl s) finish_sameFloor
    · exact hs _ _
  · exact .refl s

/-! ### Takeovers (R40, R466) -/

theorem rollBack_sameFloor : SameFloor s (rollBack s) := by
  unfold rollBack
  split
  · extract_lets _ s1
    have h1 : SameFloor s s1 := ⟨rfl⟩
    exact h1.trans (setFlag_sameFloor.trans logEvent_sameFloor)
  · exact .refl s

theorem undoLong_sameFloor {x : LongKind} : SameFloor s (undoLong x s) := by
  unfold undoLong
  split
  · exact .of_fw rfl
  · exact rollBack_sameFloor
  · exact .refl s

theorem takeBoxes_sameFloor : SameFloor s (takeBoxes ms s) := by
  unfold takeBoxes
  extract_lets s1 s2
  have h1 : SameFloor s s1 := foldS_sameFloor fun _ _ => undoLong_sameFloor
  have h2 : SameFloor s1 s2 := foldS_sameFloor fun _ t => (takeBox_keeps rfl rfl rfl rfl (offImage_self t)).sameFloor rfl
  exact (h1.trans h2).congr rfl

theorem enterAnchor_sameFloor : SameFloor s (enterAnchor h s) := by
  have hload : SameFloor s (loadMirror h s) := by
    have hkeeps : Keeps offImage False s (loadMirror h s) := by apply loadMirror_keeps (h := offImage_self s) <;> rfl
    exact hkeeps.sameFloor rfl
  unfold enterAnchor
  extract_lets boot stale s1 _ s2 s3 _ s4
  have hrole : ∀ t, SameFloor t (modCap (setAnchor h .anchor t) h fun c => { c with bootElect := false }) :=
    fun t => (modCap_keeps rfl (setAnchor_keeps rfl (offImage_self t))).sameFloor rfl
  have h1 : SameFloor s s1 := SameFloor.trans (SameFloor.ite (.refl s) hload) (hrole _)
  have h2 : SameFloor s s2 := h1.trans ((Keeps.set_anchor rfl (offImage_self s1)).sameFloor rfl)
  have h3 : SameFloor s s3 := SameFloor.ite h2 (h2.trans (takeBoxes_sameFloor.trans (count1_sameFloor.trans setFlag_sameFloor)))
  have h4 : SameFloor s s4 := SameFloor.ite h3 ⟨h3.floor⟩
  exact h4.trans logEvent_sameFloor

theorem abstain_sameFloor {n : Nat} : SameFloor s (abstain h n s) :=
  (abstain_keeps rfl rfl rfl rfl rfl (offImage_self s)).sameFloor rfl

theorem claimProbeEffect_sameFloor {low high : Bool} : SameFloor s (claimProbeEffect h low high s) := by
  unfold claimProbeEffect
  extract_lets _ s1
  have h1 : SameFloor s s1 := SameFloor.ite (.refl s) (.of_fw rfl)
  exact SameFloor.ite (SameFloor.ite (h1.trans enterAnchor_sameFloor) (h1.trans abstain_sameFloor))
    (SameFloor.ite h1 (SameFloor.ite (h1.trans abstain_sameFloor) (h1.trans setFlag_sameFloor)))

theorem setAnchor_sameFloor {a : AnchorSt} : SameFloor s (setAnchor h a s) := (setAnchor_keeps rfl (offImage_self s)).sameFloor rfl

theorem modCap_sameFloor {g : AnchorCap → AnchorCap} : SameFloor s (modCap s h g) := (modCap_keeps rfl (offImage_self s)).sameFloor rfl

theorem settleElection_sameFloor : SameFloor s (settleElection h s) := by
  have hlate : SameFloor s (claimLate h s) := (claimLate_keeps rfl rfl rfl rfl rfl (offImage_self s)).sameFloor rfl
  unfold settleElection
  exact SameFloor.ite setAnchor_sameFloor (SameFloor.ite (SameFloor.ite
    (SameFloor.ite (modCap_sameFloor.trans (enterAnchor_sameFloor.trans setFlag_sameFloor)) setAnchor_sameFloor) abstain_sameFloor)
    (SameFloor.ite hlate (.refl s)))

theorem electionTimeoutEffect_sameFloor {high : Bool} : SameFloor s (electionTimeoutEffect h high s) :=
  ((senseLine_keeps rfl (offImage_self s)).sameFloor rfl).trans settleElection_sameFloor

theorem settleAbstain_sameFloor : SameFloor s (settleAbstain s) := by
  unfold settleAbstain
  extract_lets p s1
  have h1 : SameFloor s s1 :=
    SameFloor.ite ((setDrive_keeps rfl (offImage_self s)).sameFloor rfl) setFlag_sameFloor
  exact SameFloor.ite (h1.trans (modCap_sameFloor.trans (enterAnchor_sameFloor.trans setAnchor_sameFloor)))
    (SameFloor.ite setAnchor_sameFloor (SameFloor.ite setAnchor_sameFloor (.refl s)))

theorem peerPathReturnEffect_sameFloor : SameFloor s (peerPathReturnEffect s) :=
  settleAbstain_sameFloor.trans ((markDiverged_keeps rfl rfl rfl rfl rfl (offImage_self _)).sameFloor rfl)

/-! ### Resets and removal (R490, R534, R551) -/

theorem deviceReset_sameFloor {power : Bool} {n : Nat} {st : Straps} : SameFloor s (deviceReset power n st s) := by
  have hboot : ∀ t, SameFloor t (bootStart t) := fun t => (bootStart_keeps rfl rfl (offImage_self t)).sameFloor rfl
  exact ⟨(hboot _).floor⟩

theorem resetIssueStart_sameFloor : SameFloor s (resetIssueStart m r s) := by
  unfold resetIssueStart
  extract_lets s1
  have hnote : SameFloor s s1 := logEvent_sameFloor
  split
  · exact hnote.trans (SameFloor.trans (finish_sameFloor (d := okDone s1)) deviceReset_sameFloor)
  · have hkeeps : ∀ j n, Keeps offImage False s1 (resetSlice j n s1) := fun j n => by
      apply resetSlice_keeps (h := offImage_self s1) <;> rfl
    exact hnote.trans (((hkeeps _ _).sameFloor rfl).congr rfl)
  · have hkeeps : ∀ n j gs, Keeps offImage False s1 (resetFunction n j gs s1) := fun n j gs => by
      apply resetFunction_keeps (h := offImage_self s1) <;> rfl
    exact hnote.trans (((hkeeps _ _ _).sameFloor rfl).congr rfl)
  · exact hnote.trans (((quarantine_keeps rfl rfl rfl rfl rfl (offImage_self s1)).sameFloor rfl).congr rfl)

theorem abandonFlash_sameFloor : SameFloor s (abandonFlash s) := foldS_sameFloor fun _ t =>
  SameFloor.trans (t := { t with fw := { t.fw with stageSt := 0 } }) ⟨rfl⟩
    (finish_sameFloor (d := { st := { t with fw := { t.fw with stageSt := 0 } }, status := .aborted }))

theorem presenceLost_sameFloor (ht : SameFloor s t) :
    SameFloor s (logEvent 0x080C .critical 0xFF []
      (setFlag aBoard 6 { t with pins := { t.pins with prsnt := true, removed := true } })) :=
  have hpins : SameFloor s { t with pins := { t.pins with prsnt := true, removed := true } } := ht.congr rfl
  hpins.trans (setFlag_sameFloor.trans logEvent_sameFloor)

theorem removalEffect_sameFloor : SameFloor s (removalEffect s) := by
  have hdark : SameFloor s (foldS (List.finRange 32) darkLane s) := foldS_sameFloor fun l t =>
    (darkLane_keeps rfl rfl rfl rfl rfl rfl rfl rfl rfl rfl rfl (offImage_self t)).sameFloor rfl
  have hidle : ∀ t, SameFloor t (idleLanes t) := fun t => by
    have hkeeps : Keeps offImage False t (idleLanes t) := by apply idleLanes_keeps (h := offImage_self t) <;> rfl
    exact hkeeps.sameFloor rfl
  exact presenceLost_sameFloor (hdark.trans ((hidle _).trans abandonFlash_sameFloor))

/-! ### Staging and activation (R501 to R506) -/

theorem fwStageStart_sameFloor : SameFloor s (fwStageStart m r s) := by
  unfold fwStageStart
  extract_lets b _ _ s1
  have h1 : SameFloor s s1 := SameFloor.ite ⟨rfl⟩ (.refl s)
  exact h1.trans ⟨rfl⟩

theorem judgeImage_sameFloor : SameFloor s (judgeImage s).st := by
  unfold judgeImage
  extract_lets b _ s1 _ accepted _ rejected
  have haccepted : SameFloor s accepted := SameFloor.trans (t := { s1 with fw := { s1.fw with stageSt := 2 } }) ⟨rfl⟩ setFlag_sameFloor
  have hrejected : SameFloor s rejected := SameFloor.trans (t := { s with fw := { s.fw with stageSt := 3 } }) ⟨rfl⟩ setFlag_sameFloor
  split
  · exact haccepted.trans logEvent_sameFloor
  · exact hrejected.trans logEvent_sameFloor

theorem fwStageCompleteEffect_sameFloor : SameFloor s (fwStageCompleteEffect m s) := by
  unfold fwStageCompleteEffect
  extract_lets q s1
  have h1 : SameFloor s s1 := ⟨rfl⟩
  refine SameFloor.trans (t := Done.st _) ?_ finish_sameFloor
  split
  · exact h1.trans judgeImage_sameFloor
  · exact h1

theorem fwActivateStart_sameFloor : SameFloor s (fwActivateStart m r s) := by
  unfold fwActivateStart
  refine SameFloor.ite ?_ ?_
  · have hwrite : SameFloor s (writeDir (stagingBank s).val (validBanks s) s) := ⟨rfl⟩
    exact hwrite.trans (SameFloor.trans (finish_sameFloor (d := okDone _)) deviceReset_sameFloor)
  · split
    · exact ⟨rfl⟩
    · exact .refl s

/-- Management firmware in charge of the components of the active bank, before it reads the board table (R489). -/
def firmwareStarted (s : State) : State :=
  { s with fw := { s.fw with ready := true, running := runImage (bankBytes s (activeBank s)) s.fw.running } }

theorem firmwareReadyEffect_sameFloor : SameFloor s (firmwareReadyEffect s) :=
  have hstart : SameFloor s (firmwareStarted s) := ⟨rfl⟩
  have htable : SameFloor (firmwareStarted s) (readTable (firmwareStarted s)) :=
    (readTable_keeps rfl rfl rfl rfl rfl (offImage_self _)).sameFloor rfl
  hstart.trans (htable.trans logEvent_sameFloor)

theorem activationStepEffect_failed_sameFloor : SameFloor s (activationStepEffect false s) := by
  unfold activationStepEffect
  split
  · exact rollBack_sameFloor.trans (finish_sameFloor (d := { st := rollBack s, status := .aborted }))
  · exact .refl s

/-- A step of an activation leaves the floor, but the last, which may raise it (R490, R504). -/
theorem svnFloor_activated {x : Activation} : s.fw.svnFloor ≤ (activated x s).fw.svnFloor := by
  unfold activated
  extract_lets b img floor s1 _ s2 s3
  have hfloor : s.fw.svnFloor ≤ floor := by
    unfold floor
    split
    · exact Nat.le_max_left ..
    · exact Nat.le_refl _
  have h3 : SameFloor s2 (finish x.mbox (okDone s3)) := setFlag_sameFloor.trans (logEvent_sameFloor.trans (finish_sameFloor (d := okDone s3)))
  exact Nat.le_trans hfloor (Nat.le_of_eq h3.floor.symm)

theorem svnFloor_activationStepEffect : s.fw.svnFloor ≤ (activationStepEffect true s).fw.svnFloor := by
  unfold activationStepEffect
  split
  next x _ =>
    rw [if_pos rfl]
    unfold advance
    split
    · split <;> exact Nat.le_refl _
    · exact Nat.le_refl _
    · exact Nat.le_refl _
    · exact Nat.le_refl _
    · exact svnFloor_activated
  · exact Nat.le_refl _

end

/-- Every command but an activation step that succeeds leaves the SVN floor: those that write images and versions by the lemma
of their row, every other by its footprint. -/
theorem exec_sameFloor {c : Instr} {s t : State} (hexec : exec c s = .next t) (hc : c ≠ .activationStep true) : SameFloor s t := by
  by_cases hw : within (Instr.writes c) .image = false
  · obtain ⟨u, hu, hkeeps⟩ := exec_keeps (k := False) (s := s) c False.elim
    obtain rfl : u = t := Host.Outcome.next.inj (hu.symm.trans hexec)
    exact hkeeps.sameFloor hw
  · cases c
    case claimProbe => exact Host.Outcome.next.inj hexec ▸ whenB_sameFloor claimProbeEffect_sameFloor
    case electionTimeout => exact Host.Outcome.next.inj hexec ▸ whenB_sameFloor electionTimeoutEffect_sameFloor
    case peerPathReturn => exact Host.Outcome.next.inj hexec ▸ whenB_sameFloor peerPathReturnEffect_sameFloor
    case fwStageComplete => exact Host.Outcome.next.inj hexec ▸ whenB_sameFloor fwStageCompleteEffect_sameFloor
    case sliceControllerSwitch => exact Host.Outcome.next.inj hexec ▸ whenB_sameFloor ⟨rfl⟩
    case powerOnReset => exact Host.Outcome.next.inj hexec ▸ whenB_sameFloor deviceReset_sameFloor
    case pinReset => exact Host.Outcome.next.inj hexec ▸ whenB_sameFloor deviceReset_sameFloor
    case presenceReturn => exact Host.Outcome.next.inj hexec ▸ whenB_sameFloor deviceReset_sameFloor
    case removal => exact Host.Outcome.next.inj hexec ▸ whenB_sameFloor removalEffect_sameFloor
    case firmwareReady => exact Host.Outcome.next.inj hexec ▸ whenB_sameFloor firmwareReadyEffect_sameFloor
    case fwStage => exact Host.Outcome.next.inj hexec ▸ runLong_sameFloor fun _ _ => fwStageStart_sameFloor
    case fwActivate => exact Host.Outcome.next.inj hexec ▸ runLong_sameFloor fun _ _ => fwActivateStart_sameFloor
    case resetIssue => exact Host.Outcome.next.inj hexec ▸ runLong_sameFloor fun _ _ => resetIssueStart_sameFloor
    case activationStep ok =>
      cases ok
      · exact Host.Outcome.next.inj hexec ▸ whenB_sameFloor activationStepEffect_failed_sameFloor
      · exact absurd rfl hc
    all_goals exact absurd rfl hw

/-- Settles O58.  The floor rises at the last step of an activation alone, as the model chooses in log 72. -/
theorem svnFloorNeverFalls : Obligations.SvnFloorNeverFalls := by
  unfold Obligations.SvnFloorNeverFalls
  intro c s t hexec
  refine ⟨?_, fun hne => by_contra fun hc => hne (exec_sameFloor hexec hc).floor⟩
  by_cases hc : c = .activationStep true
  · subst hc
    obtain rfl := Host.Outcome.next.inj hexec
    unfold whenB
    split
    · exact svnFloor_activationStepEffect
    · exact Nat.le_refl _
  · exact Nat.le_of_eq (exec_sameFloor hexec hc).floor.symm

end Sys2Proof.Machine
end

section
/-!
PROOFS.  The mailboxes (O54 to O57): responses, the rows of the commands, doorbells and the taking of requests.
-/
namespace Sys2Proof.Machine

/-! ## What a response leaves (R462) -/

section
variable {m n : MboxId} {r : Request} {e : Status} {x : List Byte} {d : Done} {op : Nat} {s : State}

/-- No long command or execution of mailbox `m` goes on. -/
def settleBox (m : MboxId) (l : MailAll) : MailAll :=
  { l with longs := l.longs.filter fun c => c.mbox != m, cur := if l.cur == some m then none else l.cur }

/-- The mailboxes after a response: that of its mailbox holds it and is DONE, and nothing of it goes on. -/
theorem mail_respond : (respond m e x s).mail =
    settleBox m (modBox (mirrorCopy m (stampResponse s e (boxAt s m).req.seq x) s) m
      fun b => { b with resp := stampResponse s e (boxAt s m).req.seq x, st := .done }).mail := by
  have hsend : ∀ a t, (serviceAnswer m a t).mail = t.mail := fun a t =>
    (serviceAnswer_keeps (w := within [.env]) (k := False) rfl (keeps_self _ t)).same .mail rfl
  have hcause : ∀ v t, (causeVec v false t).mail = t.mail := fun v t =>
    (causeVec_keeps (w := within [.log]) (k := False) rfl (keeps_self _ t)).same .mail rfl
  unfold respond
  extract_lets b a s1 s2 _ s3
  have h3 : s3.mail = settleBox m (modBox s1 m fun b => { b with resp := a, st := .done }).mail :=
    congrArg (settleBox m) (hsend a _)
  split
  · exact (hcause ..).trans h3
  · exact h3

theorem mail_mirrorCopy {a : Response} : (mirrorCopy m a s).mail.ringQ = s.mail.ringQ ∧ (mirrorCopy m a s).mail.cur = s.mail.cur := by
  unfold mirrorCopy
  split <;> exact ⟨rfl, rfl⟩

theorem cur_respond : (respond m e x s).mail.cur = if s.mail.cur == some m then none else s.mail.cur := by
  rw [mail_respond]
  exact mail_mirrorCopy.2 ▸ rfl

theorem cur_respond_of_cur (h : s.mail.cur = some m) : (respond m e x s).mail.cur = none := by
  rw [cur_respond, h, beq_self_eq_true, if_pos rfl]

theorem ringQ_respond : (respond m e x s).mail.ringQ = s.mail.ringQ := by
  rw [mail_respond]
  exact mail_mirrorCopy.1

theorem st_respond : (boxAt (respond m e x s) m).st = .done := by
  unfold boxAt
  rw [mail_respond]
  exact congrArg Mbox.st (boxAt_modBox_same ..)

theorem respond_onlyChanges : OnlyChanges [.env, .anchor, .mail, .log] s (respond m e x s) :=
  Keeps.onlyChanges (k := False) (respond_keeps rfl rfl rfl rfl (keeps_self _ s))

/-- Mailboxes 0 to 7 send nothing on the service port (R469). -/
theorem env_respond (hm : m.val < 8) : (respond m e x s).env = s.env := by
  have hanswer : ∀ a t, serviceAnswer m a t = t := fun a t => if_neg (Nat.ne_of_lt hm)
  have hcause : ∀ v t, (causeVec v false t).env = t.env := fun v t =>
    (causeVec_keeps (w := within [.log]) (k := False) rfl (keeps_self _ t)).same .env rfl
  have hcopy : ∀ a, (mirrorCopy m a s).env = s.env := fun a =>
    (mirrorCopy_keeps (w := within [.anchor, .mail]) (k := False) rfl rfl (keeps_self _ s)).same .env rfl
  unfold respond
  simp only [hanswer]
  split
  · exact (hcause ..).trans (hcopy _)
  · exact hcopy _

theorem cur_of_current (h : current op s = some (m, r)) : s.mail.cur = some m := by
  unfold current at h
  split at h
  · split at h
    · cases h
      assumption
    · cases h
  · cases h

theorem boxAt_congr (h : s.mail = t.mail) : boxAt s m = boxAt t m := congrArg (·.boxes[m]) h

/-- A command that ends without a FENCE after it writes its response and is executed no more. -/
theorem finish_answers (hmail : d.st.mail = s.mail) (h : current op s = some (m, r)) (hf : r.fenceAfter = false) :
    (boxAt (finish m d) m).st = .done ∧ (boxAt (finish m d) m).resp.seq = r.seq ∧ (finish m d).mail.cur = none := by
  have hreq : (boxAt d.st m).req = r := (congrArg Mbox.req (boxAt_congr hmail)).trans (req_of_current h)
  have hbump : ∀ q, (bumpGen q d.st).mail = s.mail := fun q =>
    ((bumpGen_keeps (w := within [.bridge, .anchor]) (k := False) rfl rfl (keeps_self _ d.st)).same .mail rfl).trans hmail
  unfold finish
  extract_lets q s1
  have h1 : s1.mail = s.mail := by
    unfold s1
    split
    · exact hbump q
    · exact hmail
  have hq : q = r := hreq
  rw [hq, hf, Bool.and_false, if_neg Bool.false_ne_true, resp_respond]
  refine ⟨st_respond, ?_, cur_respond_of_cur (h1 ▸ cur_of_current h)⟩
  exact congrArg Request.seq ((congrArg Mbox.req (boxAt_congr h1)).trans (req_of_current h))

/-- A status other than OK is answered as it is, and no FENCE follows. -/
theorem finish_of_ne_ok (h : d.status ≠ .ok) : finish m d = respond m d.status d.payload d.st := by
  simp [finish, h]

theorem status_finish_of_ne_ok (h : d.status ≠ .ok) : (boxAt (finish m d) m).resp.status = d.status := by
  rw [finish_of_ne_ok h]
  exact congrArg Response.status resp_respond

end

/-! ## The rows of the commands (R463, R465) -/

/-- Every component but the mailboxes. -/
def offMail (c : Comp) : Bool := c != .mail

theorem offMail_self (s : State) : Keeps offMail False s s := Keeps.refl _ s False.elim

theorem mail_of_keepsDone {s : State} {d : Done} (h : KeepsDone offMail False s d) : d.st.mail = s.mail := h.st.same .mail rfl

/-- A command row runs its checks, and then its own effect, which leaves the mailboxes; or it is long and starts. -/
theorem exec_command {c : Instr} {op : Nat} {checks : Request → State → List Check} (h : Instr.command c = some (op, checks)) :
    (∃ ap, (∀ s, exec c s = .next (runCommand op checks ap s)) ∧ ∀ r s, (ap r s).st.mail = s.mail) ∨
    (∃ start, (∀ s, exec c s = .next (runLong op checks start s)) ∧ (opInfo op).any (fun i => i.long) = true) := by
  cases c
  all_goals cases h
  case fence => exact .inr ⟨_, fun _ => rfl, rfl⟩
  case drainFence => exact .inr ⟨_, fun _ => rfl, rfl⟩
  case hbmChannelRelease => exact .inr ⟨_, fun _ => rfl, rfl⟩
  case fwStage => exact .inr ⟨_, fun _ => rfl, rfl⟩
  case fwActivate => exact .inr ⟨_, fun _ => rfl, rfl⟩
  case logRead => exact .inr ⟨_, fun _ => rfl, rfl⟩
  case powerStateSet => exact .inr ⟨_, fun _ => rfl, rfl⟩
  case resetIssue => exact .inr ⟨_, fun _ => rfl, rfl⟩
  case trunkGroupSet => exact .inl ⟨_, fun _ => rfl, fun _ s => mail_of_keepsDone (trunkGroupSetApply_keeps rfl (offMail_self s))⟩
  case anchorHandover => exact .inl ⟨_, fun _ => rfl, fun _ s => mail_of_keepsDone (anchorHandoverApply_keeps rfl (offMail_self s))⟩
  case portFilterWrite => exact .inl ⟨_, fun _ => rfl, fun _ s => mail_of_keepsDone (portFilterWriteApply_keeps rfl rfl (offMail_self s))⟩
  case portFilterRead => exact .inl ⟨_, fun _ => rfl, fun _ s => mail_of_keepsDone (portFilterReadApply_keeps (offMail_self s))⟩
  case rangeProvision => exact .inl ⟨_, fun _ => rfl, fun _ s => mail_of_keepsDone (rangeProvisionApply_keeps rfl rfl rfl rfl rfl rfl rfl (offMail_self s))⟩
  case grantTableRead => exact .inl ⟨_, fun _ => rfl, fun _ s => mail_of_keepsDone (grantTableReadApply_keeps (offMail_self s))⟩
  case runaheadSet => exact .inl ⟨_, fun _ => rfl, fun _ s => mail_of_keepsDone (runaheadSetApply_keeps rfl (offMail_self s))⟩
  case accountStop => exact .inl ⟨_, fun _ => rfl, fun _ s => mail_of_keepsDone (by apply accountStopApply_keeps (h := offMail_self s) <;> rfl)⟩
  case defectSet => exact .inl ⟨_, fun _ => rfl, fun _ s => mail_of_keepsDone (defectSetApply_keeps rfl rfl rfl rfl rfl (offMail_self s))⟩
  case protectSet => exact .inl ⟨_, fun _ => rfl, fun _ s => mail_of_keepsDone (protectSetApply_keeps rfl (offMail_self s))⟩
  case protectRequest => exact .inl ⟨_, fun _ => rfl, fun _ s => mail_of_keepsDone (protectRequestApply_keeps rfl (offMail_self s))⟩
  case pmRead => exact .inl ⟨_, fun _ => rfl, fun _ s => mail_of_keepsDone (pmReadApply_keeps (offMail_self s))⟩
  case portModeSet => exact .inl ⟨_, fun _ => rfl, fun _ s => mail_of_keepsDone (portModeSetApply_keeps rfl (offMail_self s))⟩
  case portSet => exact .inl ⟨_, fun _ => rfl, fun _ s => mail_of_keepsDone (portSetApply_keeps rfl (offMail_self s))⟩
  case flowControlSet => exact .inl ⟨_, fun _ => rfl, fun _ s => mail_of_keepsDone (flowControlSetApply_keeps rfl rfl (offMail_self s))⟩
  case eeeSet => exact .inl ⟨_, fun _ => rfl, fun _ s => mail_of_keepsDone (eeeSetApply_keeps rfl rfl (offMail_self s))⟩
  case macFilterWrite => exact .inl ⟨_, fun _ => rfl, fun _ s => mail_of_keepsDone (macFilterWriteApply_keeps rfl (offMail_self s))⟩
  case macFilterRead => exact .inl ⟨_, fun _ => rfl, fun _ s => mail_of_keepsDone (macFilterReadApply_keeps (offMail_self s))⟩
  case clsSourceSet => exact .inl ⟨_, fun _ => rfl, fun _ s => mail_of_keepsDone (clsSourceSetApply_keeps rfl (offMail_self s))⟩
  case profileSet => exact .inl ⟨_, fun _ => rfl, fun _ s => mail_of_keepsDone (profileSetApply_keeps rfl (offMail_self s))⟩
  case ruleWrite => exact .inl ⟨_, fun _ => rfl, fun _ s => mail_of_keepsDone (ruleWriteApply_keeps rfl rfl rfl rfl rfl (offMail_self s))⟩
  case ruleRead => exact .inl ⟨_, fun _ => rfl, fun _ s => mail_of_keepsDone (ruleReadApply_keeps (offMail_self s))⟩
  case ruleCommit => exact .inl ⟨_, fun _ => rfl, fun _ s => mail_of_keepsDone (ruleCommitApply_keeps rfl rfl rfl rfl rfl (offMail_self s))⟩
  case tableModeSet => exact .inl ⟨_, fun _ => rfl, fun _ s => mail_of_keepsDone (tableModeSetApply_keeps rfl (offMail_self s))⟩
  case spreadSet => exact .inl ⟨_, fun _ => rfl, fun _ s => mail_of_keepsDone (spreadSetApply_keeps rfl (offMail_self s))⟩
  case mirrorSet => exact .inl ⟨_, fun _ => rfl, fun _ s => mail_of_keepsDone (mirrorSetApply_keeps rfl (offMail_self s))⟩
  case poolCarve => exact .inl ⟨_, fun _ => rfl, fun _ s => mail_of_keepsDone (poolCarveApply_keeps rfl (offMail_self s))⟩
  case bufOwnerSet => exact .inl ⟨_, fun _ => rfl, fun _ s => mail_of_keepsDone (bufOwnerSetApply_keeps rfl rfl rfl rfl rfl rfl (offMail_self s))⟩
  case bufPrioSet => exact .inl ⟨_, fun _ => rfl, fun _ s => mail_of_keepsDone (bufPrioSetApply_keeps rfl rfl rfl rfl rfl rfl (offMail_self s))⟩
  case bufPoolSet => exact .inl ⟨_, fun _ => rfl, fun _ s => mail_of_keepsDone (bufPoolSetApply_keeps rfl rfl rfl rfl rfl rfl (offMail_self s))⟩
  case spillSet => exact .inl ⟨_, fun _ => rfl, fun _ s => mail_of_keepsDone (spillSetApply_keeps rfl (offMail_self s))⟩
  case schedSet => exact .inl ⟨_, fun _ => rfl, fun _ s => mail_of_keepsDone (schedSetApply_keeps rfl rfl (offMail_self s))⟩
  case schedTreeSet => exact .inl ⟨_, fun _ => rfl, fun _ s => mail_of_keepsDone (schedTreeSetApply_keeps rfl (offMail_self s))⟩
  case policerSet => exact .inl ⟨_, fun _ => rfl, fun _ s => mail_of_keepsDone (policerSetApply_keeps rfl (offMail_self s))⟩
  case policerRead => exact .inl ⟨_, fun _ => rfl, fun _ s => mail_of_keepsDone (policerReadApply_keeps rfl (offMail_self s))⟩
  case keySlotSet => exact .inl ⟨_, fun _ => rfl, fun _ s => mail_of_keepsDone (keySlotSetApply_keeps rfl rfl rfl rfl rfl rfl (offMail_self s))⟩
  case keyLoad => exact .inl ⟨_, fun _ => rfl, fun _ s => mail_of_keepsDone (keyLoadApply_keeps rfl rfl rfl rfl rfl (offMail_self s))⟩
  case keyCommit => exact .inl ⟨_, fun _ => rfl, fun _ s => mail_of_keepsDone (by apply keyCommitApply_keeps (h := offMail_self s) <;> rfl)⟩
  case keyErase => exact .inl ⟨_, fun _ => rfl, fun _ s => mail_of_keepsDone (keyEraseApply_keeps rfl rfl rfl rfl (offMail_self s))⟩
  case keyBind => exact .inl ⟨_, fun _ => rfl, fun _ s => mail_of_keepsDone (keyBindApply_keeps rfl (offMail_self s))⟩
  case keyStatusRead => exact .inl ⟨_, fun _ => rfl, fun _ s => mail_of_keepsDone (keyStatusReadApply_keeps (offMail_self s))⟩
  case cipPortFailRead => exact .inl ⟨_, fun _ => rfl, fun _ s => mail_of_keepsDone (cipPortFailReadApply_keeps rfl (offMail_self s))⟩
  case kekSet => exact .inl ⟨_, fun _ => rfl, fun _ s => mail_of_keepsDone (kekSetApply_keeps rfl rfl (offMail_self s))⟩
  case timeSet => exact .inl ⟨_, fun _ => rfl, fun _ s => mail_of_keepsDone (timeSetApply_keeps rfl rfl rfl rfl rfl (offMail_self s))⟩
  case timeJumpAccept => exact .inl ⟨_, fun _ => rfl, fun _ s => mail_of_keepsDone (timeJumpAcceptApply_keeps rfl rfl rfl rfl rfl rfl (offMail_self s))⟩
  case timeOutputSet => exact .inl ⟨_, fun _ => rfl, fun _ s => mail_of_keepsDone (timeOutputSetApply_keeps rfl (offMail_self s))⟩
  case ptpSet => exact .inl ⟨_, fun _ => rfl, fun _ s => mail_of_keepsDone (ptpSetApply_keeps rfl (offMail_self s))⟩
  case hbmHistoryRead => exact .inl ⟨_, fun _ => rfl, fun _ s => mail_of_keepsDone (hbmHistoryReadApply_keeps (offMail_self s))⟩
  case hbmSet => exact .inl ⟨_, fun _ => rfl, fun _ s => mail_of_keepsDone (hbmSetApply_keeps rfl (offMail_self s))⟩
  case laneEqSet => exact .inl ⟨_, fun _ => rfl, fun _ s => mail_of_keepsDone (by apply laneEqSetApply_keeps (h := offMail_self s) <;> rfl)⟩
  case laneEqRead => exact .inl ⟨_, fun _ => rfl, fun _ s => mail_of_keepsDone (laneEqReadApply_keeps (offMail_self s))⟩
  case loopSet => exact .inl ⟨_, fun _ => rfl, fun _ s => mail_of_keepsDone (by apply loopSetApply_keeps (h := offMail_self s) <;> rfl)⟩
  case patternSet => exact .inl ⟨_, fun _ => rfl, fun _ s => mail_of_keepsDone (by apply patternSetApply_keeps (h := offMail_self s) <;> rfl)⟩
  case fabricSet => exact .inl ⟨_, fun _ => rfl, fun _ s => mail_of_keepsDone (by apply fabricSetApply_keeps (h := offMail_self s) <;> rfl)⟩
  case fabricRouteRead => exact .inl ⟨_, fun _ => rfl, fun _ s => mail_of_keepsDone (fabricRouteReadApply_keeps (offMail_self s))⟩
  case funcStop => exact .inl ⟨_, fun _ => rfl, fun _ s => mail_of_keepsDone (by apply funcStopApply_keeps (h := offMail_self s) <;> rfl)⟩
  case funcStart => exact .inl ⟨_, fun _ => rfl, fun _ s => mail_of_keepsDone (by apply funcStartApply_keeps (h := offMail_self s) <;> rfl)⟩
  case eventQueueSet => exact .inl ⟨_, fun _ => rfl, fun _ s => mail_of_keepsDone (eventQueueSetApply_keeps rfl (offMail_self s))⟩
  case eventRouteSet => exact .inl ⟨_, fun _ => rfl, fun _ s => mail_of_keepsDone (eventRouteSetApply_keeps rfl rfl (offMail_self s))⟩
  case mgtQueueSet => exact .inl ⟨_, fun _ => rfl, fun _ s => mail_of_keepsDone (mgtQueueSetApply_keeps rfl rfl rfl (offMail_self s))⟩
  case sensorGet => exact .inl ⟨_, fun _ => rfl, fun _ s => mail_of_keepsDone (sensorGetApply_keeps (offMail_self s))⟩
  case sensorSet => exact .inl ⟨_, fun _ => rfl, fun _ s => mail_of_keepsDone (sensorSetApply_keeps rfl (offMail_self s))⟩
  case fwStatusRead => exact .inl ⟨_, fun _ => rfl, fun _ s => mail_of_keepsDone (fwStatusReadApply_keeps (offMail_self s))⟩
  case fuseRead => exact .inl ⟨_, fun _ => rfl, fun _ s => mail_of_keepsDone (fuseReadApply_keeps (offMail_self s))⟩
  case dvfsSet => exact .inl ⟨_, fun _ => rfl, fun _ s => mail_of_keepsDone (dvfsSetApply_keeps rfl (offMail_self s))⟩
  case clockStatusRead => exact .inl ⟨_, fun _ => rfl, fun _ s => mail_of_keepsDone (clockStatusReadApply_keeps (offMail_self s))⟩

/-- Settles O56. -/
theorem firstFailingCheckIsTheAnswer : Obligations.FirstFailingCheckIsTheAnswer := by
  unfold Obligations.FirstFailingCheckIsTheAnswer
  intro c op checks m r st s hcommand hcur hfail hst
  have hexec : exec c s = .next (respond m st [] s) := by
    have hanswer : finish m { st := s, status := st } = respond m st [] s := finish_of_ne_ok hst
    rw [← hanswer]
    obtain ⟨ap, hrow, -⟩ | ⟨start, hrow, -⟩ := exec_command hcommand
    · rw [hrow, runCommand_fail hcur hfail]
    · rw [hrow, runLong_fail hcur hfail]
  refine ⟨_, hexec, st_respond, ?_, ?_, ?_, cur_respond_of_cur (cur_of_current hcur), respond_onlyChanges⟩
  · rw [resp_respond]
    rfl
  · rw [resp_respond, req_of_current hcur]
    rfl
  · rw [resp_respond]
    rfl

/-- Settles O57. -/
theorem shortCommandsAnswer : Obligations.ShortCommandsAnswer := by
  unfold Obligations.ShortCommandsAnswer
  intro c op checks m r s hcommand hshort hcur hfence
  obtain ⟨ap, hrow, hmail⟩ | ⟨start, -, hlong⟩ := exec_command hcommand
  · cases hfail : firstFailing (checks r s) with
    | some st => exact ⟨_, by rw [hrow, runCommand_fail hcur hfail], finish_answers (s := s) rfl hcur hfence⟩
    | none => exact ⟨_, by rw [hrow, runCommand_pass hcur hfail], finish_answers (hmail r s) hcur hfence⟩
  · exact absurd (hshort.symm.trans hlong) (by decide)

/-! ## Bytes written to a memory -/

section
variable {a k : Nat} {l : List Byte} {m : Sparse Byte}

/-- The bytes written replace those of their addresses, and no others. -/
theorem memRead_memWrite (h : sparseWf 0 m = true) :
    memRead (memWrite m a l) k = if a ≤ k ∧ k < a + l.length then l.getD (k - a) 0 else memRead m k := by
  induction l generalizing m a with
  | nil => exact (if_neg fun hk => by simp only [List.length_nil] at hk; omega).symm
  | cons x xs ih =>
    rw [memWrite, ih (sparseWf_set h), List.length_cons]
    obtain hlt | rfl | hgt := Nat.lt_trichotomy k a
    · rw [if_neg (by omega), if_neg (by omega)]
      exact sparseGet_set_other h (by omega)
    · rw [if_neg (by omega), if_pos (by omega), Nat.sub_self, List.getD_cons_zero]
      exact sparseGet_set_same h
    · obtain ⟨i, rfl⟩ := Nat.exists_eq_add_of_lt hgt
      have hhead : (x :: xs).getD (a + i + 1 - a) 0 = xs.getD (a + i + 1 - (a + 1)) 0 := by
        rw [show a + i + 1 - a = i + 1 by omega, show a + i + 1 - (a + 1) = i by omega, List.getD_cons_succ]
      rw [hhead]
      exact if_congr (by omega) rfl (sparseGet_set_other h (by omega))

end

/-! ## Doorbells and request areas (R460, R462) -/

section
variable {m : MboxId} {b : Bool} {k offset : Nat} {data : List Byte} {a : Sparse Byte} {s : State}

/-- Within its 4,096 bytes a request area takes a write as a memory does. -/
theorem storeArea_eq_memWrite (hlen : offset + data.length ≤ 4096) : storeArea a offset data = memWrite a offset data := by
  induction data generalizing a offset with
  | nil => rfl
  | cons x xs ih =>
    rw [List.length_cons] at hlen
    rw [storeArea, memWrite, if_pos (by omega), ih (by omega)]

/-- A command of a mailbox of the PCIe endpoint runs. -/
theorem whenB_hostBox {f : State → State} (hm : m.val < 8) : whenB (hostBox m) f s = f s := by
  rw [hostBox, decide_eq_true hm, whenB_true]

theorem exec_ring (hm : m.val < 8) : exec (.ring m) s = .next (ringEffect m s) := congrArg Host.Outcome.next (whenB_hostBox hm)

theorem exec_abort (hm : m.val < 8) : exec (.abort m b) s = .next (abortEffect m s) := congrArg Host.Outcome.next (whenB_hostBox hm)

theorem exec_requestAreaWrite (hm : m.val < 8) :
    exec (.requestAreaWrite m offset data) s = .next (requestAreaWriteEffect m offset data s) :=
  congrArg Host.Outcome.next (whenB_hostBox hm)

theorem abortEffect_pending (h : (boxAt s m).st = .pending) : abortEffect m s =
    { respond m .aborted [] s with mail := { (respond m .aborted [] s).mail with
        ringQ := (respond m .aborted [] s).mail.ringQ.filter fun x => x != m } } := by
  rw [abortEffect, h]
  exact if_pos rfl

/-- ABORT of a mailbox of the PCIe endpoint leaves the service port. -/
theorem abortEffect_onlyChanges (hm : m.val < 8) (h : (boxAt s m).st = .pending) :
    OnlyChanges [.anchor, .mail, .log] s (abortEffect m s) := by
  rw [abortEffect_pending h]
  have hkeeps : Keeps (within [.env, .anchor, .mail, .log]) False s
      { respond m .aborted [] s with mail := { (respond m .aborted [] s).mail with
        ringQ := (respond m .aborted [] s).mail.ringQ.filter fun x => x != m } } :=
    Keeps.set_mail rfl (respond_keeps rfl rfl rfl rfl (keeps_self _ s))
  intro c hc
  by_cases henv : c = .env
  · subst henv
    exact env_respond hm
  · exact hkeeps.onlyChanges c (by simp_all)

end

/-- Settles O54.  Doorbells of one cycle are those with no tick between them, as the model chooses in log 114. -/
theorem mailboxDoorbells : Obligations.MailboxDoorbells := by
  unfold Obligations.MailboxDoorbells
  intro m s hm
  refine ⟨fun hfree => ?_, fun hpending b => ?_, fun hbusy => ?_, fun hst b => ?_, fun offset data hfree hwf hlen => ?_,
    fun offset data hbusy => ?_⟩
  · rw [exec_ring hm, ringEffect, hfree]
    rfl
  · refine ⟨_, exec_abort hm, ?_, ?_, ?_, ?_, ?_, abortEffect_onlyChanges hm hpending⟩
    all_goals rw [abortEffect_pending hpending]
    · exact st_respond
    · exact congrArg Response.status resp_respond
    · exact congrArg Response.seq resp_respond
    · exact congrArg Response.payload resp_respond
    · exact congrArg (List.filter fun x => x != m) ringQ_respond
  · rw [exec_ring hm, ringEffect, hbusy]
    rfl
  · rw [exec_abort hm, abortEffect, if_neg fun h => hst (by simpa using h)]
    rfl
  · have heffect : requestAreaWriteEffect m offset data s = modBox s m fun b => { b with area := storeArea b.area offset data } :=
      if_pos hfree
    refine ⟨_, (exec_requestAreaWrite hm).trans (congrArg _ heffect), (modBox_keeps rfl (keeps_self _ s)).onlyChanges, ?_⟩
    rw [boxAt_modBox_same]
    exact ⟨rfl, rfl, rfl, fun k => (congrArg (sparseGet 0 · k) (storeArea_eq_memWrite hlen)).trans (memRead_memWrite hwf)⟩
  · rw [exec_requestAreaWrite hm, requestAreaWriteEffect, hbusy]
    rfl

/-! ## The taking of requests (R463 to R465) -/

section
variable {m : MboxId} {q : List MboxId} {s : State}

theorem boxAt_takeBoxUp : boxAt (takeBoxUp m s) m =
    { boxAt s m with st := .running, takenNo := s.mail.taken + 1, takenAt := s.now } := boxAt_modBox_same ..

theorem ringQ_takeBoxUp (h : s.mail.ringQ = m :: q) : (takeBoxUp m s).mail.ringQ = q := by
  have herase : (takeBoxUp m s).mail.ringQ = s.mail.ringQ.erase m := rfl
  rw [herase, h, List.erase_cons_head]

/-- What DEFERRED leaves of the mailboxes: the response, and one more long command. -/
theorem mail_deferBox : (deferBox m s).mail =
    { (modBox s m fun b => { b with resp := stampResponse s .deferred (boxAt s m).req.seq [] }).mail with
      longs := s.mail.longs ++ [{ mbox := m, kind := .taken }] } := by
  have hsend : ∀ a t, (serviceAnswer m a t).mail = t.mail := fun a t =>
    (serviceAnswer_keeps (w := within [.env]) (k := False) rfl (keeps_self _ t)).same .mail rfl
  unfold deferBox
  simp only [hsend]
  rfl

theorem boxAt_deferBox : boxAt (deferBox m s) m =
    { boxAt s m with resp := stampResponse s .deferred (boxAt s m).req.seq [] } := by
  unfold boxAt
  rw [mail_deferBox]
  exact boxAt_modBox_same ..

/-- Mailbox `m` is the one whose request is executed. -/
def executing (m : MboxId) (s : State) : State := { s with mail := { s.mail with cur := some m } }

theorem takeRequest_long (hpass : firstFailing (commonChecks s m (boxAt s m).req) = none) (hlong : takenLong (boxAt s m).req = true) :
    takeRequest m s = executing m (deferBox m (takeBoxUp m s)) := by
  rw [takeRequest, hpass, hlong]
  rfl

theorem takeRequest_short (hpass : firstFailing (commonChecks s m (boxAt s m).req) = none)
    (hlong : takenLong (boxAt s m).req = false) : takeRequest m s = executing m (takeBoxUp m s) := by
  rw [takeRequest, hpass, hlong]
  rfl

theorem takeRequest_fail {e : Status} (hfail : firstFailing (commonChecks s m (boxAt s m).req) = some e) :
    takeRequest m s = respond m e [] (takeBoxUp m s) := by
  rw [takeRequest, hfail]

theorem boxAt_executing : boxAt (executing m s) m = boxAt s m := rfl

theorem exec_commandTake (htakes : takesRequests s = true) (hcur : s.mail.cur = none) (hstop : takingStopped s = false)
    (hring : s.mail.ringQ = m :: q) (horder : ((boxAt s m).req.order && anyTaken s) = false) :
    exec .commandTake s = .next (takeRequest m s) := by
  have hnext : nextTaken s = some m := by
    rw [nextTaken, hstop, if_neg Bool.false_ne_true, hring]
    simp only [horder, Bool.false_eq_true, if_false]
  have hguard : commandTakeGuard s = true := by
    rw [commandTakeGuard, htakes, hcur, hnext]
    rfl
  have heffect : commandTakeEffect s = takeRequest m s := by
    rw [commandTakeEffect, hnext]
  exact congrArg Host.Outcome.next (by rw [hguard, whenB_true, heffect])

end

/-- Settles O55. -/
theorem requestsTakenInOrder : Obligations.RequestsTakenInOrder := by
  unfold Obligations.RequestsTakenInOrder
  intro m q s htakes hcur hstop hring horder
  rw [exec_commandTake htakes hcur hstop hring horder]
  have hup := boxAt_takeBoxUp (m := m) (s := s)
  have hringQ := ringQ_takeBoxUp hring
  refine ⟨fun hpass => ?_, fun e hfail => ?_⟩
  · cases hlong : takenLong (boxAt s m).req with
    | true =>
      have hdefer := boxAt_deferBox (m := m) (s := takeBoxUp m s)
      have hkeeps : Keeps (within [.mail, .env]) False s (executing m (deferBox m (takeBoxUp m s))) :=
        Keeps.set_mail rfl (deferBox_keeps rfl rfl (takeBoxUp_keeps rfl (keeps_self _ s)))
      rw [takeRequest_long hpass hlong]
      refine ⟨_, rfl, rfl, (congrArg MailAll.ringQ mail_deferBox).trans hringQ, ?_, ?_, hkeeps.onlyChanges,
        fun _ => ⟨?_, ?_, congrArg MailAll.longs mail_deferBox⟩, fun h => absurd h (by decide)⟩
      all_goals rw [boxAt_executing, hdefer, hup]
      all_goals rfl
    | false =>
      have hkeeps : Keeps (within [.mail, .env]) False s (executing m (takeBoxUp m s)) :=
        Keeps.set_mail rfl (takeBoxUp_keeps rfl (keeps_self _ s))
      rw [takeRequest_short hpass hlong]
      refine ⟨_, rfl, rfl, hringQ, ?_, ?_, hkeeps.onlyChanges, fun h => absurd h (by decide), fun _ => ⟨?_, rfl⟩⟩
      all_goals rw [boxAt_executing, hup]
  · rw [takeRequest_fail hfail]
    refine ⟨_, rfl, ?_, ringQ_respond.trans hringQ, st_respond, congrArg Response.status resp_respond, ?_,
      congrArg Response.payload resp_respond, (respond_keeps rfl rfl rfl rfl (takeBoxUp_keeps rfl (keeps_self _ s))).onlyChanges⟩
    · have hidle : (takeBoxUp m s).mail.cur = none := hcur
      rw [cur_respond, hidle]
      rfl
    · rw [resp_respond, hup]
      rfl

end Sys2Proof.Machine
end

section
/-!
PROOFS.  The holding register of the time counter (O48).
-/
namespace Sys2Proof.Machine

/-! ## The holding register of the time counter (R372) -/

section
variable {addr : Nat} {s u : State}

/-- The words of the holding register behind TIME_NS: they count nothing, hold no flag, and a read of them has no effect. -/
theorem readWord_held (h : addr = 0x40004 ∨ addr = 0x40008 ∨ addr = 0x4000C) :
    readWord addr 0 0 u = (timeWord u (addr - 0x40000), u) := by
  have hslice : addrSlice addr = none := if_neg (by omega)
  have habsent : addrAbsent u addr = false := by
    rw [addrAbsent, hslice, decide_eq_false (by omega)]
    rfl
  have hcut : addrCut u addr = false := by
    rw [addrCut, hslice]
    rfl
  have hlane : trxLane addr = none := by
    rw [trxLane, hslice]
  obtain ⟨hcoll, hlow, hhigh, hmask⟩ : isCollision addr = false ∧ isCounterLow addr = false ∧ isCounterHigh addr = false ∧
      w1cMask addr = 0 := by
    rcases h with rfl | rfl | rfl <;> decide
  have hplain : plainWord u addr = timeWord u (addr - 0x40000) := by
    have hpage : addr / 0x10000 = 4 := by omega
    have hword : globalWord u addr = timeWord u (addr - 0x40000) := by simp only [globalWord, hpage]
    rw [plainWord, hslice, hmask, hword]
    exact (congrArg (_ ||| ·) BitVec.and_zero).trans BitVec.or_zero
  have hns : addr ≠ 0x40000 := by omega
  simp only [readWord, habsent, hcut, hcoll, hlow, hhigh, hlane, if_neg hns, Bool.false_eq_true, if_false, hplain]

/-- Bits that lie within the lower of two vectors joined. -/
theorem extractLsb'_append_of_le {v w lo n : Nat} {x : BitVec w} {y : BitVec v} (h : lo + n ≤ v) :
    (x ++ y).extractLsb' lo n = y.extractLsb' lo n := by
  ext i hi
  simp only [BitVec.getElem_extractLsb', BitVec.getLsbD_append]
  rw [if_pos (by omega)]

/-- Bits that lie within the upper of two vectors joined. -/
theorem extractLsb'_append_add {v w lo n : Nat} {x : BitVec w} {y : BitVec v} :
    (x ++ y).extractLsb' (v + lo) n = x.extractLsb' lo n := by
  ext i hi
  simp only [BitVec.getElem_extractLsb', BitVec.getLsbD_append]
  rw [if_neg (by omega), show v + lo + i - v = lo + i by omega]

theorem fields_low16 (v : BitVec 96) (lo : Nat) : fields [(0, 16, fld v lo 16)] = (v.extractLsb' lo 16).setWidth 32 := by
  have hlt : (v.extractLsb' lo 16).toNat < 2 ^ 16 := (v.extractLsb' lo 16).isLt
  apply BitVec.eq_of_toNat_eq
  simp only [fields, fld, List.foldl_cons, List.foldl_nil, BitVec.toNat_ofNat, BitVec.toNat_setWidth, Nat.zero_add, Nat.pow_zero,
    Nat.mul_one, Nat.mod_eq_of_lt hlt]

end

/-- Settles O48. -/
theorem timeNsCapturesTheCounter : Obligations.TimeNsCapturesTheCounter := by
  unfold Obligations.TimeNsCapturesTheCounter
  intro s
  have hread : readWord 0x40000 0 0 s = (BitVec.ofNat 32 s.time.ns, captureTime s) := by
    simp [readWord, show addrAbsent s 0x40000 = false from rfl, show addrCut s 0x40000 = false from rfl,
      show isCollision 0x40000 = false from rfl, show isCounterLow 0x40000 = false by decide,
      show isCounterHigh 0x40000 = false by decide]
  have hexec : exec .timeNsRead s = .next (returned ((BitVec.ofNat 32 s.time.ns).setWidth 64) (captureTime s)) := by
    have heffect : timeNsReadEffect s = returned ((BitVec.ofNat 32 s.time.ns).setWidth 64) (captureTime s) := by
      rw [timeNsReadEffect, hostRead, hread]
    exact congrArg Host.Outcome.next heffect
  have hkeeps : Keeps (within [.env, .time]) False s (returned ((BitVec.ofNat 32 s.time.ns).setWidth 64) (captureTime s)) :=
    Keeps.set_env rfl (Keeps.set_time rfl (keeps_self _ s))
  refine ⟨_, hexec, rfl, rfl, hkeeps.onlyChanges, fun u hold => ?_⟩
  have hold : u.time.hold = s.time.sec ++ BitVec.ofNat 32 s.time.ns ++ BitVec.ofNat 16 (s.time.frac / 2 ^ 16) := hold
  have hfrac : u.time.hold.extractLsb' 0 16 = BitVec.ofNat 16 (s.time.frac / 2 ^ 16) := by
    rw [hold, extractLsb'_append_of_le (by decide), BitVec.extractLsb'_eq_self]
  have hlow : u.time.hold.extractLsb' 48 32 = s.time.sec.setWidth 32 := by
    rw [hold, BitVec.setWidth_eq_extractLsb' (by decide)]
    exact (extractLsb'_append_add (lo := 32)).trans (extractLsb'_append_add (lo := 0))
  have hhigh : u.time.hold.extractLsb' 80 16 = s.time.sec.extractLsb' 32 16 := by
    rw [hold]
    exact (extractLsb'_append_add (lo := 64)).trans (extractLsb'_append_add (lo := 32))
  have hreadLow : readWord 0x40008 0 0 u = (s.time.sec.setWidth 32, u) :=
    (readWord_held (.inr (.inl rfl))).trans (congrArg (·, u) hlow)
  have hreadHigh : readWord 0x4000C 0 0 u = ((s.time.sec.extractLsb' 32 16).setWidth 32, u) :=
    (readWord_held (.inr (.inr rfl))).trans (congrArg (·, u) ((fields_low16 ..).trans (congrArg _ hhigh)))
  refine ⟨(readWord_held (.inl rfl)).trans (congrArg (·, u) ((fields_low16 ..).trans (congrArg _ hfrac))), hreadLow, hreadHigh, ?_⟩
  have hsec : (s.time.sec.extractLsb' 32 16).setWidth 32 ++ s.time.sec.setWidth 32 = s.time.sec.setWidth 64 := by
    ext i hi
    simp only [BitVec.getElem_append, BitVec.getElem_setWidth, BitVec.getLsbD_extractLsb']
    split
    · rfl
    · next hge =>
      rw [show 32 + (i - 32) = i by omega]
      by_cases hlt : i < 48
      · simp [show i - 32 < 16 by omega]
      · simp [BitVec.getLsbD_of_ge s.time.sec i (by omega)]
  have hboth : alignedRead 0x40008 8 u = returned (s.time.sec.setWidth 64) u := by
    simp only [alignedRead, hreadLow, hreadHigh, if_pos, ← hsec]
  exact (exec_unalignedAccess rfl).trans (congrArg Host.Outcome.next hboth)

end Sys2Proof.Machine
end

section
/-!
PROOFS.  The HBM controller (O50, O51): requests, freezes and settings.
-/
namespace Sys2Proof.Machine

/-! ## Counters and flags that a record leaves -/

section
variable {a b n : Nat} {r : Record} {s : State}

theorem counterAt_evqLose (hc : sparseWf 0 s.regs.ctr = true) (hb : b ≠ aEvqLost) : counterAt (evqLose r s) b = counterAt s b :=
  (counterAt_count_other aEvqLost b 1 _ hc hb).trans rfl

theorem wf_count1 (hc : sparseWf 0 s.regs.ctr = true) : sparseWf 0 (count1 a s).regs.ctr = true :=
  sparseWf_mod (n := a) (f := fun v => (v + 1) % 2 ^ 64) hc

theorem wf_evqLose (hc : sparseWf 0 s.regs.ctr = true) : sparseWf 0 (evqLose r s).regs.ctr = true :=
  wf_count1 (a := aEvqLost) hc

/-- The one counter that a record may add to is EVQ_LOST (R480). -/
theorem counterAt_writeRecord (hc : sparseWf 0 s.regs.ctr = true) (hb : b ≠ aEvqLost) :
    counterAt (writeRecord r s) b = counterAt s b := by
  have hpush : ∀ r t, (pushRecord r t).regs.ctr = t.regs.ctr := fun r t =>
    (pushRecord_keeps (w := within [.log, .history]) (k := False) rfl rfl (keeps_self _ t)).same .counters rfl
  have hcopy : ∀ r t, (evqCopy r t).regs.ctr = t.regs.ctr := fun r t =>
    (evqCopy_keeps (w := within [.log]) (k := False) rfl (keeps_self _ t)).same .counters rfl
  unfold writeRecord
  extract_lets s1 s2 s3 r2 s4
  have h1 : s1.regs.ctr = s.regs.ctr := hpush r s
  have hwf1 : sparseWf 0 s1.regs.ctr = true := h1 ▸ hc
  have h2 : counterAt s2 b = counterAt s b :=
    (counterAt_evqLose hwf1 hb).trans (congrArg (sparseGet 0 · b) h1)
  have hctr4 : s4.regs.ctr = s2.regs.ctr := hpush r2 s3
  have h4 : counterAt s4 b = counterAt s b := (congrArg (sparseGet 0 · b) hctr4).trans h2
  have hwf4 : sparseWf 0 s4.regs.ctr = true := hctr4 ▸ wf_evqLose hwf1
  split
  · split
    · split
      · exact h2
      · split
        · exact (counterAt_evqLose hwf4 hb).trans h4
        · exact h4
    · exact (congrArg (sparseGet 0 · b) (hcopy r s1)).trans (congrArg (sparseGet 0 · b) h1)
  · exact congrArg (sparseGet 0 · b) h1

theorem counterAt_setFlag (hc : sparseWf 0 s.regs.ctr = true) (hb : b ≠ aEvqLost) :
    counterAt (setFlag a n s) b = counterAt s b := by
  unfold setFlag
  split
  · rfl
  · exact counterAt_writeRecord hc hb

theorem flagWord_logEvent {code : BitVec 16} {sev : Severity} {source : Byte} {data : List Byte} (ha : aEvqFlags < a) :
    flagWord (logEvent code sev source data s) a = flagWord s a := flagWord_writeRecord ha

end

/-! ## Reachability -/

/-- Bridge paths depend on the part, the bridges and the power states alone. -/
theorem path_congr {s t : State} {a b : Nat} (hpart : t.part = s.part) (hbridge : t.bridge = s.bridge) (hpower : t.power = s.power) :
    path t a b = path s a b := by
  have hlink : linkUp t = linkUp s := by
    funext k p
    simp only [linkUp, bridgeWired, present, bridgesRun, bridgeAt, hpart, hbridge, hpower]
  simp only [path, reachable, spread, present, presentSlices, hlink, hpart]

/-! ## HBM: what requests change (R394, R397) -/

section
variable {c d : ChanId} {r : HbmReq} {a k now : Nat} {l : List Byte} {m : Sparse Byte} {f : HbmChan → HbmChan} {s t u : State}

theorem aHbmChFlags_gt (c : ChanId) : aEvqFlags < aHbmChFlags c := by
  simp only [aEvqFlags, aHbmChFlags, sliceReg]
  omega

theorem aHbmC_ne_aEvqLost (c : ChanId) (off : Nat) : aHbmC c off ≠ aEvqLost := by
  simp only [aEvqLost, aHbmC, sliceReg]
  omega

/-- The bytes of channel `c`, its reads and its waiting requests are those of `s`, and every other channel is as in `s`. -/
structure SameStore (c : ChanId) (s t : State) : Prop where
  mem : (chanAt t c).mem = (chanAt s c).mem
  reads : (chanAt t c).reads = (chanAt s c).reads
  waiting : (chanAt t c).waiting = (chanAt s c).waiting
  others : ∀ d, d ≠ c → chanAt t d = chanAt s d

theorem SameStore.refl (c : ChanId) (s : State) : SameStore c s s := ⟨rfl, rfl, rfl, fun _ _ => rfl⟩

theorem SameStore.trans (h1 : SameStore c s t) (h2 : SameStore c t u) : SameStore c s u :=
  ⟨h2.mem.trans h1.mem, h2.reads.trans h1.reads, h2.waiting.trans h1.waiting, fun d hd => (h2.others d hd).trans (h1.others d hd)⟩

theorem Keeps.chanAt_eq {w : Comp → Bool} {p : Prop} (h : Keeps w p s t) (hw : w .hbm = false) : chanAt t c = chanAt s c :=
  congrArg (·.chans[c]) (h.same .hbm hw)

@[simp] theorem note_reads (e : HistEntry) (x : HbmChan) : (note e x).reads = x.reads := rfl

@[simp] theorem note_waiting (e : HistEntry) (x : HbmChan) : (note e x).waiting = x.waiting := rfl

theorem burst_store {x : HbmChan} : (burst now r a x).reads = x.reads ∧ (burst now r a x).waiting = x.waiting := by
  unfold burst
  dsimp only
  repeat' split
  all_goals simp

theorem burstCount_sameStore : SameStore c s (burstCount c r a s) := by
  have hcount : ∀ b b' t, SameStore c t (count1 b (count1 b' t)) := fun _ _ t => ⟨rfl, rfl, rfl, fun _ _ => rfl⟩
  have hburst : ∀ t, SameStore c t (modChan t c (burst s.now r a)) := fun t => {
    mem := by rw [chanAt_modChan_same, burst_mem]
    reads := by rw [chanAt_modChan_same, burst_store.1]
    waiting := by rw [chanAt_modChan_same, burst_store.2]
    others := fun d hd => chanAt_modChan_other _ _ _ _ hd }
  exact (hcount _ _ s).trans (hburst _)

theorem bursts_sameStore {l : List Nat} : SameStore c s (foldS l (burstCount c r) s) :=
  foldS_induction (P := SameStore c s) (fun _ _ ht => ht.trans burstCount_sameStore) (.refl c s)

/-- A write is stored and leaves the reads. -/
theorem chanAt_serveReq_write (h : r.write = true) :
    (chanAt (serveReq c r s) c).mem = memWrite (chanAt s c).mem r.addr r.data := by
  have hstore : SameStore c s (foldS (burstAddrs r) (burstCount c r) s) := bursts_sameStore
  rw [serveReq, chanAt_modChan_same, if_pos h]
  exact congrArg (memWrite · r.addr r.data) hstore.mem

/-- A read fetches the bytes as they stand, and stores none. -/
theorem chanAt_serveReq_read (h : r.write = false) : (chanAt (serveReq c r s) c).mem = (chanAt s c).mem ∧
    (chanAt (serveReq c r s) c).reads =
      (chanAt s c).reads ++ [{ r with data := memReads (chanAt s c).mem r.addr r.data.length }] := by
  have hstore : SameStore c s (foldS (burstAddrs r) (burstCount c r) s) := bursts_sameStore
  rw [serveReq, chanAt_modChan_same, if_neg (by rw [h]; decide)]
  exact ⟨hstore.mem, by rw [← hstore.mem, ← hstore.reads]⟩

theorem chanAt_serveReq_other (hd : d ≠ c) : chanAt (serveReq c r s) d = chanAt s d := by
  rw [serveReq, chanAt_modChan_other _ _ _ _ hd]
  exact bursts_sameStore.others d hd

theorem serveReq_keeps_hbm : Keeps (within [.counters, .hbm]) False s (serveReq c r s) := serveReq_keeps rfl rfl (keeps_self _ s)

theorem serveReq_onlyChanges : OnlyChanges [.counters, .hbm] s (serveReq c r s) := serveReq_keeps_hbm.onlyChanges

theorem tablePeer_ne (c : ChanId) : tablePeer c ≠ c := by
  revert c
  decide

theorem tablePeer_ne' (c : ChanId) : c ≠ tablePeer c := (tablePeer_ne c).symm

/-! ### Where a request goes -/

/-- A channel in SERVICE whose clock runs serves the request. -/
theorem arrive_service (hrun : hbmRuns s c = true) (hst : (chanAt s c).st = .service) (hsr : (chanAt s c).srEntering = false) :
    arrive c r s = serveReq c r s := by
  simp [arrive, hrun, hst, hsr]

theorem chanAt_count1 : chanAt (count1 a s) d = chanAt s d := rfl

theorem chanAt_setFlag {b : Nat} : chanAt (setFlag a b s) d = chanAt s d :=
  (setFlag_keeps (w := within [.counters, .flags, .log, .history]) (k := False) rfl rfl rfl rfl (keeps_self _ s)).chanAt_eq rfl

/-- A request changes no channel but the one at which it arrives. -/
theorem chanAt_arrive_other (hd : d ≠ c) : chanAt (arrive c r s) d = chanAt s d := by
  have hmod : ∀ f t, chanAt (modChan t c f) d = chanAt t d := fun f t => chanAt_modChan_other t c d f hd
  unfold arrive
  extract_lets x wait
  have hwait : ∀ t, chanAt (wait t) d = chanAt t d := fun t => hmod _ t
  split
  · rfl
  · split
    · exact hwait s
    · split
      · rfl
      · exact hwait s
      · exact chanAt_serveReq_other hd
      · split
        · split
          · exact (hwait _).trans (hmod _ s)
          · exact (chanAt_serveReq_other hd).trans (chanAt_setFlag.trans (chanAt_count1.trans (hmod _ s)))
        · exact chanAt_serveReq_other hd
      · exact (hwait _).trans chanAt_count1
      · exact (hwait _).trans (hmod _ s)
      · exact chanAt_count1

theorem exec_hbmRequest (h : reqLegal c r s = true) : exec (.hbmRequest c r) s = .next (requestEffect c r s) :=
  next_whenB (by rw [hbmRequestGuard, h, Bool.true_or])

/-- A request other than the table store's goes to its channel alone (R393). -/
theorem requestEffect_plain (h : reqLegal c r s = true) (htable : tableReq r = false) : requestEffect c r s = arrive c r s := by
  simp [requestEffect, h, htable]

/-- A read of a channel in SERVICE goes to its channel alone (R393). -/
theorem requestEffect_read (h : reqLegal c r s = true) (hst : (chanAt s c).st = .service) (hread : r.write = false) :
    requestEffect c r s = arrive c r s := by
  obtain ⟨⟨⟨hpath, hfault⟩, -⟩, -⟩ : ((path s r.requester.val (chanOwner c).val = true ∧ ownerFaulted s c = false) ∧
      0 < r.data.length) ∧ r.addr + r.data.length ≤ chanBytes := by simpa [reqLegal] using h
  have hgone : chanGone c r s = false := by simp [chanGone, hst, hpath, hfault]
  simp [requestEffect, h, hgone, hread]

theorem requestEffect_noPeer (h : reqLegal c r s = true) (hpeer : reqLegal (tablePeer c) r (arrive c r s) = false) :
    requestEffect c r s = arrive c r s := by
  simp [requestEffect, h, hpeer]

/-- A write of the table store goes to both copies (R393). -/
theorem requestEffect_table (h : reqLegal c r s = true) (htable : tableReq r = true) (hwrite : r.write = true)
    (hpeer : reqLegal (tablePeer c) r (arrive c r s) = true) :
    requestEffect c r s = arrive (tablePeer c) r (arrive c r s) := by
  simp [requestEffect, h, htable, hwrite, hpeer]

theorem reqLegal_serveReq : reqLegal d r (serveReq c r s) = reqLegal d r s := by
  have hkeeps := serveReq_keeps_hbm (c := c) (r := r) (s := s)
  obtain ⟨hpart, -⟩ := hkeeps.ident
  have hanchor : (serveReq c r s).anchor = s.anchor := hkeeps.same .anchor rfl
  simp only [reqLegal, ownerFaulted, capAt, hanchor, path_congr hpart (hkeeps.same .bridge rfl) (hkeeps.same .power rfl)]

theorem hbmRuns_serveReq : hbmRuns (serveReq c r s) d = hbmRuns s d := by
  have hpower : (serveReq c r s).power = s.power := serveReq_keeps_hbm.same .power rfl
  simp only [hbmRuns, hpower]

/-- A request joins those that wait. -/
def queueReq (r : HbmReq) (now idle : Nat) : HbmChan → HbmChan := fun x =>
  { x with waiting := x.waiting ++ [r], idleFrom := now, idleTime := idle }

/-- A request that meets a training, a retraining pause or self-refresh waits (R396, R402, R404). -/
theorem arrive_waits (h : (chanAt s c).st = .training ∨ (chanAt s c).st = .retrain ∨ (chanAt s c).st = .selfRefresh) :
    ∃ t, SameStore c s t ∧ Keeps (within [.counters, .hbm]) False s t ∧
      arrive c r s = modChan t c (queueReq r s.now s.hbm.srIdle) := by
  have hwake : ∀ f : HbmChan → HbmChan, (∀ x, (f x).mem = x.mem ∧ (f x).reads = x.reads ∧ (f x).waiting = x.waiting) →
      SameStore c s (modChan s c f) ∧ Keeps (within [.counters, .hbm]) False s (modChan s c f) := fun f hf => by
    obtain ⟨hmem, hreads, hwaiting⟩ := hf (chanAt s c)
    refine ⟨⟨?_, ?_, ?_, fun d hd => chanAt_modChan_other _ _ _ _ hd⟩, modChan_keeps rfl (fun hk => hk.elim) (keeps_self _ s)⟩
    all_goals rwa [chanAt_modChan_same]
  cases hrun : hbmRuns s c with
  | false => exact ⟨s, .refl c s, keeps_self _ s, by rcases h with h | h | h <;> simp [arrive, h, hrun] <;> rfl⟩
  | true =>
    rcases h with h | h | h
    · exact ⟨s, .refl c s, keeps_self _ s, by simp [arrive, h, hrun]; rfl⟩
    · exact ⟨count1 (aHbmC c 0x30) s, ⟨rfl, rfl, rfl, fun _ _ => rfl⟩, count1_keeps rfl (keeps_self _ s),
        by simp [arrive, h, hrun]; rfl⟩
    · obtain ⟨hstore, hkeeps⟩ := hwake (fun y => { y with exitAt := some (y.exitAt.getD s.now) }) fun _ => ⟨rfl, rfl, rfl⟩
      exact ⟨_, hstore, hkeeps, by simp [arrive, h, hrun]; rfl⟩

theorem arrive_frozen (h : (chanAt s c).st = .frozen) : arrive c r s = count1 (aHbmC c 0x58) s := by
  simp [arrive, h]

/-! ### Freezing (R408, R409) -/

/-- The channel as a freeze leaves it. -/
def frozen (cause addr req now : Nat) (hist : List HistEntry) (x : HbmChan) : HbmChan :=
  { x with st := .frozen, cause := cause, histValid := true, frozenHist := hist, frozenAt := now, faultAddr := addr, faultReq := req,
           waiting := [], reads := [], srEntering := false, sreAt := none, exitAt := none, exitWanted := false, retryAt := none }

/-- A freeze changes of the stack its channel alone; its counts, records and lost pages are elsewhere. -/
theorem hbm_freeze {cause addr req : Nat} {hist : List HistEntry} :
    (freeze c cause addr req hist s).hbm = (modChan s c (frozen cause addr req s.now hist)).hbm := by
  unfold freeze
  extract_lets x s1 s2 s3
  have hkeeps : Keeps (within [.counters, .flags, .log, .accounts, .history]) False s1
      (logEvent 0x0601 .error (BitVec.ofNat 8 (chanOwner c).val) ([BitVec.ofNat 8 c.val, BitVec.ofNat 8 cause] ++ toLe 4 addr) s3) :=
    logEvent_keeps rfl rfl rfl rfl (losePages_keeps rfl (setFlag_keeps rfl rfl rfl rfl (reportHistory_keeps rfl rfl rfl rfl
      (count_keeps rfl (count1_keeps rfl (keeps_self _ s1))))))
  exact hkeeps.same .hbm rfl

theorem chanAt_freeze {cause addr req : Nat} {hist : List HistEntry} :
    chanAt (freeze c cause addr req hist s) c = frozen cause addr req s.now hist (chanAt s c) :=
  (congrArg (·.chans[c]) hbm_freeze).trans (chanAt_modChan_same ..)

theorem mem_freeze {cause addr req : Nat} {hist : List HistEntry} :
    (chanAt (freeze c cause addr req hist s) d).mem = (chanAt s d).mem := by
  have hmod : chanAt (freeze c cause addr req hist s) d = chanAt (modChan s c (frozen cause addr req s.now hist)) d :=
    congrArg (·.chans[d]) hbm_freeze
  rw [hmod]
  by_cases hd : d = c
  · subst hd
    rw [chanAt_modChan_same]
    rfl
  · rw [chanAt_modChan_other _ _ _ _ hd]

theorem flag_freeze {cause addr req : Nat} {hist : List HistEntry} :
    (flagWord (freeze c cause addr req hist s) (aHbmChFlags c)).getLsbD 0 = true := by
  unfold freeze
  extract_lets x s1 s2 s3
  rw [flagWord_logEvent (aHbmChFlags_gt c)]
  exact getLsbD_setFlag (aHbmChFlags_gt c) (by decide)

/-! ### Reads, service entry and settings (R396, R407, R413) -/

/-- The oldest read returns where a path joins the owning slice and its requester (R28). -/
theorem nextRead_head {q : List HbmReq} (hreads : (chanAt s c).reads = r :: q)
    (hpath : path s (chanOwner c).val r.requester.val = true) : nextRead c s = some r := by
  rw [nextRead, hreads]
  exact List.find?_cons_of_pos hpath

/-- The channel and the host after a read: its data is delivered, and the later reads still wait. -/
def readReturned (c : ChanId) (r : HbmReq) (poisoned : Bool) (s : State) : State :=
  modChan { s with hbm := { s.hbm with readOut := r.data, poisoned := poisoned } } c fun x => { x with reads := x.reads.erase r }

theorem mem_modChan (hf : ∀ x, (f x).mem = x.mem) : (chanAt (modChan s c f) d).mem = (chanAt s d).mem := by
  by_cases hd : d = c
  · subst hd
    rw [chanAt_modChan_same, hf]
  · rw [chanAt_modChan_other _ _ _ _ hd]

theorem mem_readReturned {p : Bool} : (chanAt (readReturned c r p s) d).mem = (chanAt s d).mem := by
  rw [readReturned, mem_modChan]
  · rfl
  · exact fun _ => rfl

/-- A read corrected (R407): the entry of the history is marked, the word counted and the flag set. -/
def readCorrected (c : ChanId) (r : HbmReq) (s : State) : State :=
  modChan (readReturned c r false s) c fun y => { y with history := markRead 2 r.tag y.history }

theorem exec_hbmReadComplete_corrected (hnext : nextRead c s = some r) (hfrozen : (chanAt s c).st ≠ .frozen)
    (hreset : (chanAt s c).st ≠ .reset) : exec (.hbmReadComplete c .corrected) s =
      .next (setFlag (aHbmChFlags c) 4 (count1 (aHbmC c 0x20) (readCorrected c r s))) := by
  have hguard : hbmReadCompleteGuard c s = true := by simp [hbmReadCompleteGuard, hnext, hfrozen, hreset]
  refine (next_whenB hguard).trans (congrArg Host.Outcome.next ?_)
  rw [hbmReadCompleteEffect, hnext]
  rfl

/-- A read that cannot be corrected freezes the channel with cause 1 (R408), where its owner is not in ABSTAIN. -/
theorem exec_hbmReadComplete_uncorrectable (hguard : hbmReadCompleteGuard c s = true) (habstain : ownerAbstains s c = false) :
    ∃ addr req hist t, exec (.hbmReadComplete c .uncorrectable) s = .next (freeze c 1 addr req hist t) ∧
      ∀ d, (chanAt t d).mem = (chanAt s d).mem := by
  obtain ⟨⟨hnext, -⟩, -⟩ : ((nextRead c s).isSome = true ∧ (chanAt s c).st ≠ .frozen) ∧ (chanAt s c).st ≠ .reset := by
    simpa [hbmReadCompleteGuard] using hguard
  obtain ⟨r, hr⟩ := Option.isSome_iff_exists.mp hnext
  refine ⟨r.addr, r.unit, markNewest 4 (historyFrom (chanAt s c).history r.tag), if r.unit = 1 then losePages c (fun p => pageAddr p.page == r.addr) (readReturned c r true s) else readReturned c r true s,
    (next_whenB hguard).trans (congrArg Host.Outcome.next ?_), fun d => ?_⟩
  · rw [hbmReadCompleteEffect, hr]
    simp only [habstain, Bool.false_eq_true, if_false]
    rfl
  · split
    · exact mem_readReturned
    · exact mem_readReturned

theorem serveWaiting_none (h : (chanAt s c).waiting = []) : serveWaiting c s = modChan s c fun x => { x with waiting := [] } := by
  rw [serveWaiting, h]
  rfl

end

/-- Settles O50. -/
theorem hbmSingleBitErrorCorrected : Obligations.HbmSingleBitErrorCorrected := by
  unfold Obligations.HbmSingleBitErrorCorrected
  intro c r q s hreads hfrozen hreset hpath hcanonical
  obtain ⟨-, ⟨hctr, -⟩, -⟩ := hcanonical
  have hstack : (setFlag (aHbmChFlags c) 4 (count1 (aHbmC c 0x20) (readCorrected c r s))).hbm = (readCorrected c r s).hbm :=
    (setFlag_keeps (w := within [.counters, .flags, .log, .history]) (k := False) rfl rfl rfl rfl
      (count1_keeps rfl (keeps_self _ _))).same .hbm rfl
  have hkeeps : Keeps (within [.counters, .flags, .log, .hbm, .history]) False s
      (setFlag (aHbmChFlags c) 4 (count1 (aHbmC c 0x20) (readCorrected c r s))) :=
    setFlag_keeps rfl rfl rfl rfl (count1_keeps rfl (Keeps.set_hbm rfl (fun hk => hk.elim)
      (Keeps.set_hbm rfl (fun hk => hk.elim) (Keeps.set_hbm rfl (fun hk => hk.elim) (keeps_self _ s)))))
  refine ⟨_, exec_hbmReadComplete_corrected (nextRead_head hreads hpath) hfrozen hreset, congrArg HbmAll.readOut hstack,
    congrArg HbmAll.poisoned hstack, ?_, getLsbD_setFlag (aHbmChFlags_gt c) (by decide), ?_, fun d => ?_, hkeeps.onlyChanges⟩
  · have hctr' : sparseWf 0 (readCorrected c r s).regs.ctr = true := hctr
    rw [counterAt_setFlag (wf_count1 hctr') (aHbmC_ne_aEvqLost c _)]
    exact counterAt_count_same _ _ _ hctr'
  · have hchan : chanAt (readCorrected c r s) c = { chanAt s c with
        reads := (chanAt s c).reads.erase r, history := markRead 2 r.tag (chanAt s c).history } := by
      rw [readCorrected, chanAt_modChan_same, readReturned, chanAt_modChan_same]
      rfl
    have hrest : (chanAt s c).reads.erase r = q := by rw [hreads, List.erase_cons_head]
    exact ((congrArg (·.chans[c].reads) hstack).trans (congrArg HbmChan.reads hchan)).trans hrest
  · have hmem : (chanAt (readCorrected c r s) d).mem = (chanAt s d).mem := by
      rw [readCorrected, mem_modChan, mem_readReturned]
      exact fun _ => rfl
    exact (congrArg (·.chans[d].mem) hstack).trans hmem

/-! ## The requests, the freezes and the settings of the controller (O51) -/

section
variable {c : ChanId} {r : HbmReq} {s : State}

theorem mem_serveReq_write (hcanonical : Canonical s) (hwrite : r.write = true) (k : Nat) :
    memRead (chanAt (serveReq c r s) c).mem k =
      if r.addr ≤ k ∧ k < r.addr + r.data.length then r.data.getD (k - r.addr) 0 else memRead (chanAt s c).mem k := by
  rw [chanAt_serveReq_write hwrite]
  exact memRead_memWrite (hcanonical.1 c)

theorem canonical_serveReq (hcanonical : Canonical s) : Canonical (serveReq c r s) :=
  (serveReq_keeps (w := fun _ => true) rfl rfl (Keeps.refl _ s fun _ => hcanonical)).canonical

/-- A write of the table store that both copies take is read back from the copy. -/
theorem mem_peer_write (hcanonical : Canonical s) (hwrite : r.write = true) (hst : (chanAt s (tablePeer c)).st = .service)
    (hsr : (chanAt s (tablePeer c)).srEntering = false) (hrun : hbmRuns s (tablePeer c) = true) (k : Nat) :
    memRead (chanAt (arrive (tablePeer c) r (serveReq c r s)) (tablePeer c)).mem k =
      if r.addr ≤ k ∧ k < r.addr + r.data.length then r.data.getD (k - r.addr) 0 else memRead (chanAt s (tablePeer c)).mem k := by
  have hpeer : chanAt (serveReq c r s) (tablePeer c) = chanAt s (tablePeer c) := chanAt_serveReq_other (tablePeer_ne c)
  rw [arrive_service (hbmRuns_serveReq.trans hrun) (hpeer ▸ hst) (hpeer ▸ hsr),
    mem_serveReq_write (canonical_serveReq hcanonical) hwrite, hpeer]

/-- The part of the statement about a request to a channel in SERVICE (R393, R394). -/
theorem hbmRequest_service (hcanonical : Canonical s) (hlegal : reqLegal c r s = true) (hrun : hbmRuns s c = true)
    (hst : (chanAt s c).st = .service) (hsr : (chanAt s c).srEntering = false) :
    (r.write = true → ∃ t, exec (.hbmRequest c r) s = .next t ∧
      (∀ k, memRead (chanAt t c).mem k =
        if r.addr ≤ k ∧ k < r.addr + r.data.length then r.data.getD (k - r.addr) 0 else memRead (chanAt s c).mem k) ∧
      (r.unit ≠ 2 ∨ reservedBytes < r.addr + r.data.length → (∀ d, d ≠ c → chanAt t d = chanAt s d) ∧
        OnlyChanges [.counters, .hbm] s t) ∧
      (r.unit = 2 → r.addr + r.data.length ≤ reservedBytes → (chanAt s (tablePeer c)).st = .service →
        (chanAt s (tablePeer c)).srEntering = false → hbmRuns s (tablePeer c) = true → reqLegal (tablePeer c) r s = true →
        ∀ k, memRead (chanAt t (tablePeer c)).mem k =
          if r.addr ≤ k ∧ k < r.addr + r.data.length then r.data.getD (k - r.addr) 0
          else memRead (chanAt s (tablePeer c)).mem k)) ∧
    (r.write = false → ∃ t, exec (.hbmRequest c r) s = .next t ∧ (chanAt t c).mem = (chanAt s c).mem ∧
      (chanAt t c).reads = (chanAt s c).reads ++
        [{ r with data := (List.range r.data.length).map fun i => memRead (chanAt s c).mem (r.addr + i) }] ∧
      (∀ d, d ≠ c → chanAt t d = chanAt s d) ∧ OnlyChanges [.counters, .hbm] s t) := by
  have harrive : arrive c r s = serveReq c r s := arrive_service hrun hst hsr
  have hexec := exec_hbmRequest hlegal
  refine ⟨fun hwrite => ?_, fun hread => ?_⟩
  · cases htable : tableReq r with
    | false =>
      rw [requestEffect_plain hlegal htable, harrive] at hexec
      have htable' : ¬(r.unit = 2 ∧ r.addr + r.data.length ≤ reservedBytes) := fun h => by
        rw [tableReq, h.1, decide_eq_true h.2] at htable
        cases htable
      exact ⟨_, hexec, mem_serveReq_write hcanonical hwrite, fun _ => ⟨fun d hd => chanAt_serveReq_other hd, serveReq_onlyChanges⟩,
        fun hunit hlow => absurd ⟨hunit, hlow⟩ htable'⟩
    | true =>
      obtain ⟨hunit, hlow⟩ : r.unit = 2 ∧ r.addr + r.data.length ≤ reservedBytes := by simpa [tableReq, reqTable] using htable
      have hoff : ¬(r.unit ≠ 2 ∨ reservedBytes < r.addr + r.data.length) := by omega
      cases hpeer : reqLegal (tablePeer c) r s with
      | false =>
        rw [requestEffect_noPeer hlegal (by rw [harrive, reqLegal_serveReq, hpeer]), harrive] at hexec
        exact ⟨_, hexec, mem_serveReq_write hcanonical hwrite, fun h => absurd h hoff, fun _ _ _ _ _ h => absurd h (by decide)⟩
      | true =>
        rw [requestEffect_table hlegal htable hwrite (by rw [harrive, reqLegal_serveReq, hpeer]), harrive] at hexec
        refine ⟨_, hexec, fun k => ?_, fun h => absurd h hoff, fun _ _ hst' hsr' hrun' _ => mem_peer_write hcanonical hwrite hst' hsr' hrun'⟩
        rw [chanAt_arrive_other (tablePeer_ne' c)]
        exact mem_serveReq_write hcanonical hwrite k
  · rw [requestEffect_read hlegal hst hread, harrive] at hexec
    obtain ⟨hmem, hreads⟩ := chanAt_serveReq_read (c := c) (s := s) hread
    exact ⟨_, hexec, hmem, hreads, fun d hd => chanAt_serveReq_other hd, serveReq_onlyChanges⟩

/-- A channel in SERVICE from the entry on; what its stack reads is as it was from DIRECTED, and zeros otherwise. -/
theorem exec_hbmServiceEntry (hguard : hbmServiceEntryGuard c s = true) (hwaiting : (chanAt s c).waiting = []) :
    ∃ t, exec (.hbmServiceEntry c) s = .next t ∧ (chanAt t c).st = .service ∧ (∀ k, memRead (chanAt t c).mem k =
        if (chanAt s c).st = .directed then memRead (chanAt s c).mem k else 0) ∧ (∀ d, d ≠ c → chanAt t d = chanAt s d) := by
  refine ⟨_, next_whenB hguard, ?_⟩
  rw [hbmServiceEntryEffect, serveWaiting_none]
  · refine ⟨?_, fun k => ?_, fun d hd => ?_⟩
    · rw [chanAt_modChan_same, chanAt_modChan_same]
    · rw [chanAt_modChan_same, chanAt_modChan_same]
      dsimp only
      split
      · rfl
      · rfl
    · rw [chanAt_modChan_other _ _ _ _ hd, chanAt_modChan_other _ _ _ _ hd]
  · rw [chanAt_modChan_same]
    exact hwaiting

theorem exec_hbmCaParity (hguard : hbmCaParityGuard c s = true) : exec (.hbmCaParity c) s =
    .next (freeze c 2 (chanAt s c).lastAddr (chanAt s c).lastReq (markNewest 8 (chanAt s c).history) s) := next_whenB hguard

/-- The third retraining running that fails freezes the channel (R401). -/
theorem exec_hbmRetrainEnd_third (hguard : hbmRetrainEndGuard c s = true) (hfails : 2 ≤ (chanAt s c).trainFails)
    (habstain : ownerAbstains s c = false) : ∃ addr req hist t, exec (.hbmRetrainEnd c false) s = .next (freeze c 3 addr req hist t) ∧
      ∀ d, (chanAt t d).mem = (chanAt s d).mem := by
  refine ⟨(chanAt s c).lastAddr, (chanAt s c).lastReq, (chanAt s c).history,
    modChan (count1 (aHbmC c 0x38) s) c fun y => { y with trainFails := y.trainFails + 1 },
    (next_whenB hguard).trans (congrArg Host.Outcome.next ?_), fun d => ?_⟩
  · simp [hbmRetrainEndEffect, habstain, hfails]
  · rw [mem_modChan, chanAt_count1]
    exact fun _ => rfl

/-- A freeze with its cause, in the words of the statement. -/
theorem freeze_outcome {i : Instr} {cause addr req : Nat} {hist : List HistEntry} {u : State}
    (hexec : exec i s = .next (freeze c cause addr req hist u)) (hmem : ∀ d, (chanAt u d).mem = (chanAt s d).mem) :
    ∃ t, exec i s = .next t ∧ (chanAt t c).st = .frozen ∧ (chanAt t c).cause = cause ∧
      (chanAt t c).histValid = true ∧ (chanAt t c).waiting = [] ∧ (chanAt t c).reads = [] ∧
      (flagWord t (aHbmChFlags c)).getLsbD 0 = true ∧ (∀ d, (chanAt t d).mem = (chanAt s d).mem) := by
  refine ⟨_, hexec, ?_, ?_, ?_, ?_, ?_, flag_freeze, fun d => mem_freeze.trans (hmem d)⟩
  all_goals rw [chanAt_freeze]
  all_goals rfl

theorem mem_hbmSetApply {x : Request} {d : ChanId} : (chanAt (hbmSetApply x s).st d).mem = (chanAt s d).mem := by
  have hchan : chanAt (hbmSetApply x s).st d =
      let y := s.hbm.chans[d]
      if natBit (x.u8 0) d.val then y
      else if y.st == .selfRefresh then { y with exitAt := some (y.exitAt.getD s.now) }
      else if y.sreAt.isSome then { y with exitWanted := true }
      else { y with srEntering := false } := Vector.getElem_ofFn ..
  rw [hchan]
  dsimp only
  repeat' split
  all_goals rfl

end

/-- Settles O51.  Service entry from RESET or TRAINING with zero fill is the model's choice of log 48, and that a channel in
DIRECTED is already filled is that of log 145. -/
theorem hbmRequestsAndFreezes : Obligations.HbmRequestsAndFreezes := by
  unfold Obligations.HbmRequestsAndFreezes
  refine ⟨fun c r s hcanonical hlegal hrun hst hsr => hbmRequest_service hcanonical hlegal hrun hst hsr,
    fun c r s hlegal hunit => ?_, fun c s habstain => ?_, fun c s hguard hwaiting => exec_hbmServiceEntry hguard hwaiting,
    fun m r s hcur hchecks => ?_⟩
  · have htable : tableReq r = false := by simp [tableReq, reqTable, hunit]
    have hexec := exec_hbmRequest hlegal
    rw [requestEffect_plain hlegal htable] at hexec
    refine ⟨fun hst => ?_, fun hst => by rw [hexec, arrive_frozen hst]⟩
    obtain ⟨t, hstore, hkeeps, harrive⟩ := arrive_waits (r := r) hst
    rw [harrive] at hexec
    refine ⟨_, hexec, ?_, ?_, fun d hd => (chanAt_modChan_other _ _ _ _ hd).trans (hstore.others d hd),
      (modChan_keeps rfl (fun hk => hk.elim) hkeeps).onlyChanges⟩
    · rw [chanAt_modChan_same, queueReq, hstore.waiting]
    · rw [chanAt_modChan_same, queueReq, hstore.mem]
  · simp only [List.forall_mem_cons, List.not_mem_nil, false_imp_iff, implies_true, and_true]
    refine ⟨fun hguard => ?_, fun hguard => ?_, fun hguard => ?_⟩
    · obtain ⟨_, _, _, _, hexec, hmem⟩ := exec_hbmReadComplete_uncorrectable hguard habstain
      exact freeze_outcome hexec hmem
    · exact freeze_outcome (exec_hbmCaParity hguard) fun _ => rfl
    · obtain ⟨hend, hfails⟩ := Bool.and_eq_true_iff.mp hguard
      obtain ⟨_, _, _, _, hexec, hmem⟩ := exec_hbmRetrainEnd_third hend (of_decide_eq_true hfails) habstain
      exact freeze_outcome hexec hmem
  · have hhbm : (finish m (hbmSetApply r s)).hbm = (hbmSetApply r s).st.hbm := finish_keeps_answer.same .hbm rfl
    have hrange := fails_of_firstFailing_none hchecks (List.mem_cons_of_mem _ (List.mem_cons_self ..))
    simp only [ckRange, Bool.or_eq_false_iff, decide_eq_false_iff_not, Nat.not_lt] at hrange
    obtain ⟨⟨-, hlow⟩, hhigh⟩ := hrange
    exact ⟨_, next_runCommand hcur hchecks, congrArg HbmAll.srMask hhbm, congrArg HbmAll.srIdle hhbm, hlow, hhigh,
      fun c => (congrArg (·.chans[c].mem) hhbm).trans mem_hbmSetApply⟩

end Sys2Proof.Machine
end

section
/-!
PROOFS.  The cipher engine (O47): key slots, the utility and decrypt pipes, and the key commands.
-/
namespace Sys2Proof.Machine

/-! ## Key slots (R338, R353, R356) -/

section
variable {n : SlotId} {h : Half} {m : MboxId} {r : Request} {d : Done} {a b : Nat} {s t : State}

theorem aKeyFlags_gt (n : Nat) : aEvqFlags < aKeyFlags n := by
  simp only [aEvqFlags, aKeyFlags, devReg]
  omega

theorem slots_finish : (finish m d).crypto.slots = d.st.crypto.slots := finish_keeps_answer.same .slots rfl

theorem keks_finish : (finish m d).crypto.keks = d.st.crypto.keks := finish_keeps_answer.same .keks rfl

theorem slotAt_congr {n : Nat} (hslots : t.crypto.slots = s.crypto.slots) : slotAt t n = slotAt s n := congrArg (sparseGet ({} : KeySlot) · n) hslots

theorem setFlag_keeps_flags : Keeps (within [.counters, .flags, .log, .history]) False s (setFlag a b s) :=
  setFlag_keeps rfl rfl rfl rfl (keeps_self _ s)

theorem slots_setFlag : (setFlag a b s).crypto.slots = s.crypto.slots := setFlag_keeps_flags.same .slots rfl

theorem logged_slots {code : BitVec 16} {sev : Severity} {source : Byte} {data : List Byte} :
    (logEvent code sev source data (setFlag a b s)).crypto.slots = s.crypto.slots :=
  (logEvent_keeps (w := within [.counters, .flags, .log, .history]) rfl rfl rfl rfl setFlag_keeps_flags).same .slots rfl

/-- The part of the statement about an erase that completes. -/
theorem exec_keyEraseComplete (hguard : keyEraseCompleteGuard n s = true) : ∃ t, exec (.keyEraseComplete n) s = .next t ∧
    t.crypto.slots = sparseMod {} s.crypto.slots n.val (fun k => { k with
      halves := k.halves.map emptyHalf, current := 0, erasing := false, stall := false, waiting := none, lastSwitch := none }) ∧
    OnlyChanges [.counters, .flags, .log, .slots, .history] s t := by
  refine ⟨_, next_whenB hguard, logged_slots, ?_⟩
  have hkeeps : Keeps (within [.counters, .flags, .log, .slots, .history]) False s (keyEraseCompleteEffect n s) := by
    apply keyEraseCompleteEffect_keeps (h := keeps_self _ s) <;> rfl
  exact hkeeps.onlyChanges

/-- The part of the statement about a DOWN half whose lifetime ends. -/
theorem exec_downHalfLifetimeEnd (hguard : downHalfLifetimeEndGuard n h s = true) :
    ∃ t, exec (.downHalfLifetimeEnd n h) s = .next t ∧
      t.crypto.slots = sparseMod {} s.crypto.slots n.val (fun k => { k with
        halves := k.halves.set h { k.halves[h] with state := .retired } }) ∧
      OnlyChanges [.counters, .flags, .log, .slots, .history] s t := by
  have hloaded : (halfAt s n.val h).state = .loaded := by
    obtain ⟨⟨-, hstate⟩, -⟩ : ((slotAt s n.val).down = true ∧ (halfAt s n.val h).state = .loaded) ∧ _ := by
      simpa only [downHalfLifetimeEndGuard, Bool.and_eq_true, beq_iff_eq] using hguard
    exact hstate
  have hslots : (retireHalf n.val h 2 s).crypto.slots = (modHalf s n.val h fun x => { x with state := .retired }).crypto.slots := by
    rw [retireHalf, if_neg (by rw [hloaded]; decide)]
    exact logged_slots
  exact ⟨_, next_whenB hguard, hslots, (retireHalf_keeps rfl rfl rfl rfl rfl (keeps_self _ s)).onlyChanges⟩

/-! ## The utility pipe and the decrypt pipes (R355, R358) -/

theorem giveTask_suspends {j r : UtilTask} (hrun : s.crypto.util.running = some r) (hurgent : urgentTask j = true)
    (hnormal : urgentTask r = false) : giveTask j s =
      countUtil 0x50 (modUtil (fun u => { u with running := some j, suspended := some r }) s) := by
  rw [giveTask, hrun]
  simp only [hurgent, hnormal, Bool.not_false, Bool.and_self, if_true]

theorem util_countUtil : (countUtil a s).crypto.util = s.crypto.util := by
  have hsame : Comp.cipher.same s (countUtil a s) :=
    (countUtil_keeps (w := within [.counters]) (k := False) rfl (keeps_self _ s)).same .cipher rfl
  obtain ⟨-, -, hutil⟩ := hsame
  exact hutil

/-- The part of the statement about an URGENT job. -/
theorem exec_utilityJobArrive {job : UtilJob} {r : UtilTask} (hguard : utilityJobArriveGuard s = true)
    (hrun : s.crypto.util.running = some r) (hurgent : job.urgent = true) (hnormal : urgentTask r = false) :
    ∃ t, exec (.utilityJobArrive job) s = .next t ∧ t.crypto.util.running = some (.job job) ∧
      t.crypto.util.suspended = some r ∧ t.crypto.util.urgentQ = s.crypto.util.urgentQ ∧
      t.crypto.util.normalQ = s.crypto.util.normalQ ∧ OnlyChanges [.counters, .cipher] s t := by
  have hgive : giveTask (.job job) s = _ := giveTask_suspends hrun hurgent hnormal
  refine ⟨_, next_whenB hguard, ?_⟩
  rw [hgive, util_countUtil, ← hgive]
  exact ⟨rfl, rfl, rfl, rfl, (giveTask_keeps rfl rfl (keeps_self _ s)).onlyChanges⟩

/-- Every component but the decrypt pipes with their failure counts, and the utility pipe. -/
def offCipher (c : Comp) : Bool := c != .cipher

theorem offCipher_self (s : State) : Keeps offCipher False s s := Keeps.refl _ s False.elim

/-- The pipes and the failure counts are those of `s`. -/
theorem Keeps.pipes_eq (h : Keeps offCipher False s t) :
    t.crypto.portFail = s.crypto.portFail ∧ t.crypto.pipes = s.crypto.pipes := by
  obtain ⟨hfail, hpipes, -⟩ := h.same .cipher rfl
  exact ⟨hfail, hpipes⟩

theorem releasePlain_offCipher {j : DecJob} {plain : FrameBytes} : Keeps offCipher False s (releasePlain j plain s) := by
  apply releasePlain_keeps (h := offCipher_self s) <;> rfl

theorem failCtx_offCipher {j : DecJob} {id : Nat} : Keeps offCipher False s (failCtx j id s) := by
  apply failCtx_keeps (h := offCipher_self s) <;> rfl

theorem dropTicket_offCipher {id : Nat} : Keeps offCipher False s (dropTicket id s) := by
  apply dropTicket_keeps (h := offCipher_self s) <;> rfl

/-- A failed tag is counted for its filter entry, and the pipes are as they were (R355). -/
theorem pipes_tagFailed {j : DecJob} : (tagFailed j s).crypto.portFail =
      sparseMod 0 s.crypto.portFail (4096 * j.group.val + j.entry) (fun v => (v + 1) % 2 ^ 64) ∧
    (tagFailed j s).crypto.pipes = s.crypto.pipes := by
  unfold tagFailed
  extract_lets s1 _ s2
  split
  · exact (failCtx_offCipher (s := s2)).pipes_eq
  · exact (dropTicket_offCipher (s := s2)).pipes_eq

/-- The part of the statement about the oldest packet of a decrypt pipe. -/
theorem exec_decryptComplete {k : SliceId} {pipe : Half} {j : DecJob} {rest : List DecJob}
    (hpipe : s.crypto.pipes[pipeIndex k pipe] = j :: rest) (hneed : j.need = 0) :
    ∃ t, exec (.decryptComplete k pipe) s = .next t ∧ t.crypto.pipes = s.crypto.pipes.set (pipeIndex k pipe) rest ∧
      t.crypto.portFail = (if j.clear = false ∧ openJob j = none then
        sparseMod 0 s.crypto.portFail (4096 * j.group.val + j.entry) (fun v => (v + 1) % 2 ^ 64) else s.crypto.portFail) := by
  have hguard : decryptCompleteGuard k pipe s = true := by
    rw [decryptCompleteGuard, hpipe]
    exact beq_iff_eq.mpr hneed
  refine ⟨_, next_whenB hguard, ?_⟩
  unfold decryptCompleteEffect
  rw [hpipe]
  dsimp only
  cases hclear : j.clear with
  | true =>
    obtain ⟨hfail, hpipes⟩ := (releasePlain_offCipher (j := j) (plain := j.data.take j.length) (s := { s with crypto := { s.crypto with
      pipes := vmod s.crypto.pipes (pipeIndex k pipe) fun _ => rest } })).pipes_eq
    exact ⟨hpipes, hfail⟩
  | false =>
    cases hopen : openJob j with
    | none =>
      obtain ⟨hfail, hpipes⟩ := pipes_tagFailed (j := j) (s := { s with crypto := { s.crypto with
        pipes := vmod s.crypto.pipes (pipeIndex k pipe) fun _ => rest } })
      exact ⟨hpipes, hfail⟩
    | some plain =>
      obtain ⟨hfail, hpipes⟩ := (releasePlain_offCipher (j := j) (plain := plain) (s := noteVerified j (count1 (aCip k.val 0x10)
        { s with crypto := { s.crypto with pipes := vmod s.crypto.pipes (pipeIndex k pipe) fun _ => rest } }))).pipes_eq
      exact ⟨hpipes, hfail⟩

/-! ## The key commands (R360 to R364, R367) -/

theorem commandUnwrap_keeps_counters : Keeps (within [.counters]) False s (commandUnwrap s) := commandUnwrap_keeps rfl (keeps_self _ s)

theorem slots_commandUnwrap : (commandUnwrap s).crypto.slots = s.crypto.slots := commandUnwrap_keeps_counters.same .slots rfl

theorem keks_commandUnwrap : (commandUnwrap s).crypto.keks = s.crypto.keks := commandUnwrap_keeps_counters.same .keks rfl

/-- The key that a KEY_LOAD carries, where its unwrap succeeds. -/
def loadedKey (r : Request) (s : State) : Option KeyBits :=
  unwrapKey (kekAt s (r.u8 3)).1 (kekAt s (r.u8 3)).2 (natBit (r.u8 2) 0) ((r.payload.drop 8).take 40)

theorem slots_loadHalf {n : Nat} {w : KeyWrite} {key : KeyBits} {q : BitVec 16} : (loadHalf n w key q s).crypto.slots =
    sparseMod {} s.crypto.slots n (fun k => { k with
      halves := k.halves.set w.half
        { state := .loaded, aes256 := w.aes256, key := key, salt := w.salt, seq := q, gen := k.halves[w.half].gen + 1 } }) := rfl

theorem keyLoadApply_unwrapped {key : KeyBits} (hkey : loadedKey r s = some key) : (keyLoadApply r s).st.crypto.slots =
    sparseMod {} s.crypto.slots (r.u16 0) (fun k => { k with
      halves := k.halves.set (otherHalf (slotAt s (r.u16 0)).current)
        { state := .loaded, aes256 := natBit (r.u8 2) 0, key := key, salt := BitVec.ofNat 32 (r.u32 4),
          gen := k.halves[otherHalf (slotAt s (r.u16 0)).current].gen + 1 } }) := by
  have hkey' : unwrapKey (kekAt s (r.u8 3)).1 (kekAt s (r.u8 3)).2 (natBit (r.u8 2) 0) ((r.payload.drop 8).take 40) = some key := hkey
  rw [keyLoadApply]
  simp only [hkey']
  rw [slots_loadHalf, slots_commandUnwrap]

theorem keyLoadApply_refused (hkey : loadedKey r s = none) :
    keyLoadApply r s = { st := setFlag (aKeyFlags (r.u16 0)) 6 (commandUnwrap s), status := .conflict } := by
  have hkey' : unwrapKey (kekAt s (r.u8 3)).1 (kekAt s (r.u8 3)).2 (natBit (r.u8 2) 0) ((r.payload.drop 8).take 40) = none := hkey
  rw [keyLoadApply]
  simp only [hkey']

/-- The part of the statement about KEY_LOAD. -/
theorem exec_keyLoad (hcur : current 0x0601 s = some (m, r)) (hchecks : firstFailing (keyLoadChecks r s) = none) :
    (∀ key, loadedKey r s = some key → ∃ t, exec .keyLoad s = .next t ∧
      t.crypto.slots = sparseMod {} s.crypto.slots (r.u16 0) (fun k => { k with
        halves := k.halves.set (otherHalf (slotAt s (r.u16 0)).current)
          { state := .loaded, aes256 := natBit (r.u8 2) 0, key := key, salt := BitVec.ofNat 32 (r.u32 4),
            gen := k.halves[otherHalf (slotAt s (r.u16 0)).current].gen + 1 } }) ∧
      (slotAt s (r.u16 0)).manager = 0) ∧
    (loadedKey r s = none → ∃ t, exec .keyLoad s = .next t ∧ t.crypto.slots = s.crypto.slots ∧
      (flagWord t (aKeyFlags (r.u16 0))).getLsbD 6 = true ∧ (boxAt t m).resp.status = .conflict) := by
  have hexec : exec .keyLoad s = .next (finish m (keyLoadApply r s)) := next_runCommand hcur hchecks
  refine ⟨fun key hkey => ⟨_, hexec, slots_finish.trans (keyLoadApply_unwrapped hkey), ?_⟩, fun hkey => ?_⟩
  · have hmanager := fails_of_firstFailing_none hchecks
      (List.mem_cons_of_mem _ (List.mem_cons_of_mem _ (List.mem_cons_of_mem _ (List.mem_cons_self ..))))
    simpa using hmanager
  · rw [keyLoadApply_refused hkey] at hexec
    refine ⟨_, hexec, slots_finish.trans (slots_setFlag.trans slots_commandUnwrap), ?_, status_finish_of_ne_ok (show Status.conflict ≠ .ok by decide)⟩
    rw [finish_keeps_answer.flagWord_eq rfl]
    exact getLsbD_setFlag (aKeyFlags_gt _) (by decide)

/-- A slot one of whose halves is loaded is not an unused one. -/
theorem ne_default_of_loaded {k : KeySlot} (hloaded : k.halves[h].state = .loaded) : k ≠ {} := fun hk => by
  subst hk
  revert h
  decide

/-- A change of a slot that leaves it loaded is read back. -/
theorem slotAt_modSlot_loaded {n : Nat} {f : KeySlot → KeySlot} (hloaded : (f (slotAt s n)).halves[h].state = .loaded) :
    slotAt (modSlot s n f) n = f (slotAt s n) := sparseGet_set_same_of_ne (ne_default_of_loaded hloaded)

/-- The part of the statement about KEY_COMMIT. -/
theorem exec_keyCommit (hcur : current 0x0602 s = some (m, r)) (hchecks : firstFailing (keyCommitChecks r s) = none)
    (hnow : r.u32 4 = 0xFFFFFFFF) : ∃ t, exec .keyCommit s = .next t ∧ (slotAt t (r.u16 0)).current = kcHalf r ∧
      (slotAt s (r.u16 0)).halves[kcHalf r].state = .loaded ∧ (slotAt s (r.u16 0)).current ≠ kcHalf r := by
  have hnow' : kcNow r = true := beq_iff_eq.mpr hnow
  have hconflict := fails_of_firstFailing_none hchecks (List.mem_cons_of_mem _ (List.mem_cons_of_mem _ (List.mem_cons_of_mem _
    (List.mem_cons_of_mem _ (List.mem_cons_self ..)))))
  obtain ⟨hother, hloaded⟩ : kcHalf r ≠ (slotAt s (r.u16 0)).current ∧ (slotAt s (r.u16 0)).halves[kcHalf r].state = .loaded := by
    simpa [hnow'] using hconflict
  have hexec : exec .keyCommit s = .next (finish m (keyCommitApply r s)) := next_runCommand hcur hchecks
  have hmade : slotAt (makeCurrent (r.u16 0) (kcHalf r) s) (r.u16 0) =
      { slotAt s (r.u16 0) with current := kcHalf r, stall := false, waiting := none } :=
    (slotAt_congr slots_setFlag).trans (slotAt_modSlot_loaded hloaded)
  refine ⟨_, hexec, ?_, hloaded, hother.symm⟩
  rw [slotAt_congr slots_finish, keyCommitApply]
  simp only [hnow', if_true, okDone]
  rw [slotAt_modSlot_loaded (h := kcHalf r) (by rw [hmade]; exact hloaded), hmade]

/-- The part of the statement about KEY_ERASE. -/
theorem exec_keyErase (hcur : current 0x0603 s = some (m, r)) (hchecks : firstFailing (keyEraseChecks r s) = none) :
    ∃ t, exec .keyErase s = .next t ∧
      t.crypto.slots = (if slotEmpty (slotAt s (r.u16 0)) || (slotAt s (r.u16 0)).erasing then s.crypto.slots
        else sparseMod {} s.crypto.slots (r.u16 0) fun k => { k with erasing := true, switch := none, write := none }) := by
  have hack : ∀ g q u, (queueAck g 0x08 ackBusy q u).crypto.slots = u.crypto.slots := fun g q u =>
    (queueAck_keeps (w := within [.counters, .groups]) (k := False) rfl rfl (keeps_self _ u)).same .slots rfl
  refine ⟨_, next_runCommand hcur hchecks, slots_finish.trans ?_⟩
  unfold keyEraseApply
  extract_lets n k queued s1
  split
  · rfl
  · split
    · split
      · exact hack ..
      · rfl
    · rfl

theorem bind_ne_of_boundAccount_none {n : Nat} (hbound : boundAccount s n = none) (a : AccountId) : (acctAt s a).bind ≠ .slot n := by
  have hall := List.find?_eq_none.mp hbound a (List.mem_finRange a)
  simpa using hall

/-- The part of the statement about KEY_SLOT_SET. -/
theorem exec_keySlotSet (hcur : current 0x0600 s = some (m, r)) (hchecks : firstFailing (keySlotSetChecks r s) = none) :
    ∃ t, exec .keySlotSet s = .next t ∧
      ((slotAt s (r.u16 0)).down ≠ (r.u8 2 == 1) ∨ (slotAt s (r.u16 0)).manager ≠ r.u8 3 →
        (slotAt s (r.u16 0)).halves[(0 : Fin 2)].state = .empty ∧ (slotAt s (r.u16 0)).halves[(1 : Fin 2)].state = .empty ∧
          ∀ a, (acctAt s a).bind ≠ .slot (r.u16 0)) := by
  have hconflict := fails_of_firstFailing_none hchecks (List.mem_cons_of_mem _ (List.mem_cons_of_mem _ (List.mem_cons_self ..)))
  refine ⟨_, next_runCommand hcur hchecks, fun hchange => ?_⟩
  have hchange' : ((r.u8 2 == 1) != (slotAt s (r.u16 0)).down || r.u8 3 != (slotAt s (r.u16 0)).manager) = true := by
    rw [Bool.or_eq_true, bne_iff_ne, bne_iff_ne]
    exact hchange.imp Ne.symm Ne.symm
  obtain ⟨⟨h0, h1⟩, hbound⟩ : ((slotAt s (r.u16 0)).halves[(0 : Fin 2)].state = .empty ∧
      (slotAt s (r.u16 0)).halves[(1 : Fin 2)].state = .empty) ∧ boundAccount s (r.u16 0) = none := by
    simpa [hchange'] using hconflict
  exact ⟨h0, h1, bind_ne_of_boundAccount_none hbound⟩

/-- What a KEY_BIND binds its account to. -/
def boundTo (r : Request) : KeyBind :=
  if r.u16 2 = 0xFFFE then .clear else if r.u16 2 = 0xFFFF then .unbound else .slot (r.u16 2)

/-- What the checks of a KEY_BIND leave open: its account and slot, an UP slot, and no other account bound to it. -/
theorem keyBindChecks_pass (hchecks : firstFailing (keyBindChecks r s) = none) : r.u16 0 ≤ 255 ∧
    (∀ n, boundTo r = .slot n → n = r.u16 2 ∧ r.u16 2 ≤ 1023) ∧
    (r.u16 2 ≤ 1023 → (slotAt s (r.u16 2)).down = false ∧ ∀ x, boundAccount s (r.u16 2) = some x → x.val = r.u16 0) := by
  have hrange := fails_of_firstFailing_none hchecks (List.mem_cons_of_mem _ (List.mem_cons_self ..))
  have hconflict := fails_of_firstFailing_none hchecks (List.mem_cons_of_mem _ (List.mem_cons_of_mem _ (List.mem_cons_self ..)))
  obtain ⟨haccount, hslot⟩ := Bool.or_eq_false_iff.mp hrange
  refine ⟨by simpa using haccount, fun n hbound => ?_, fun hlow => ?_⟩
  · unfold boundTo at hbound
    split at hbound
    · cases hbound
    · next hclear =>
      split at hbound
      · cases hbound
      · next hunbound =>
        cases hbound
        exact ⟨rfl, by simpa [hclear, hunbound] using hslot⟩
  · rw [decide_eq_true hlow, Bool.true_and] at hconflict
    obtain ⟨hdown, hbound⟩ := Bool.or_eq_false_iff.mp hconflict
    refine ⟨hdown, fun x hx => ?_⟩
    rw [hx] at hbound
    simpa using hbound

/-- Where no two accounts share a slot, an account that has the slot of a KEY_BIND is the one it names. -/
theorem eq_of_bind_boundTo (hchecks : firstFailing (keyBindChecks r s) = none)
    (hshare : ∀ a b n, (acctAt s a).bind = .slot n → (acctAt s b).bind = .slot n → a = b) {a : AccountId} {n : Nat}
    (hbind : (acctAt s a).bind = .slot n) (hnew : boundTo r = .slot n) : a = Fin.ofNat 256 (r.u16 0) := by
  obtain ⟨haccount, hslot, hup⟩ := keyBindChecks_pass hchecks
  obtain ⟨rfl, hlow⟩ := hslot n hnew
  obtain ⟨-, honly⟩ := hup hlow
  have hsome : (boundAccount s (r.u16 2)).isSome = true := by
    rw [boundAccount, List.find?_isSome]
    exact ⟨a, List.mem_finRange a, beq_iff_eq.mpr hbind⟩
  obtain ⟨x, hx⟩ := Option.isSome_iff_exists.mp hsome
  have hxbind : (acctAt s x).bind = .slot (r.u16 2) := by simpa using List.find?_some hx
  have hxval : x.val = r.u16 0 := honly x hx
  rw [hshare a x _ hbind hxbind]
  exact Fin.ext (hxval.trans (Nat.mod_eq_of_lt (by omega)).symm)

/-- The part of the statement about KEY_BIND. -/
theorem exec_keyBind (hcur : current 0x0604 s = some (m, r)) (hchecks : firstFailing (keyBindChecks r s) = none) :
    ∃ t, exec .keyBind s = .next t ∧ (acctAt t (Fin.ofNat 256 (r.u16 0))).bind = boundTo r ∧
      (∀ a, a ≠ Fin.ofNat 256 (r.u16 0) → acctAt t a = acctAt s a) ∧
      ((∀ a b n, (acctAt s a).bind = .slot n → (acctAt s b).bind = .slot n → a = b) →
        ∀ a b n, (acctAt t a).bind = .slot n → (acctAt t b).bind = .slot n → a = b) ∧
      (r.u16 2 ≤ 1023 → (slotAt s (r.u16 2)).down = false) ∧
      OnlyChanges [.env, .bridge, .anchor, .mail, .log, .accounts] s t := by
  have hsame : (acctAt (finish m (keyBindApply r s)) (Fin.ofNat 256 (r.u16 0))).bind = boundTo r :=
    (congrArg (·.accounts[Fin.ofNat 256 (r.u16 0)].bind) path_finish).trans (congrArg AccountSt.bind (acctAt_modAcct_same ..))
  have hother : ∀ a, a ≠ Fin.ofNat 256 (r.u16 0) → acctAt (finish m (keyBindApply r s)) a = acctAt s a := fun a ha =>
    (congrArg (·.accounts[a]) path_finish).trans (acctAt_modAcct_other _ _ _ _ ha)
  refine ⟨_, next_runCommand hcur hchecks, hsame, hother, fun hshare a b n ha hb => ?_,
    fun hlow => ((keyBindChecks_pass hchecks).2.2 hlow).1, ?_⟩
  · by_cases hka : a = Fin.ofNat 256 (r.u16 0)
    · by_cases hkb : b = Fin.ofNat 256 (r.u16 0)
      · exact hka.trans hkb.symm
      · rw [hka, hsame] at ha
        rw [hother b hkb] at hb
        exact absurd (eq_of_bind_boundTo hchecks hshare hb ha) hkb
    · rw [hother a hka] at ha
      by_cases hkb : b = Fin.ofNat 256 (r.u16 0)
      · rw [hkb, hsame] at hb
        exact absurd (eq_of_bind_boundTo hchecks hshare ha hb) hka
      · rw [hother b hkb] at hb
        exact hshare a b n ha hb
  · have hkeeps : Keeps (within [.env, .bridge, .anchor, .mail, .log, .accounts]) False s (finish m (keyBindApply r s)) :=
      finish_keeps rfl rfl rfl rfl rfl (keyBindApply_keeps rfl (keeps_self _ s))
    exact hkeeps.onlyChanges

/-- The key that a KEK_SET carries, where its unwrap under the device root key succeeds. -/
def setKek (r : Request) (s : State) : Option KeyBits :=
  unwrapKey true s.fw.fuses.rootKey (natBit (r.u8 1) 0) ((r.payload.drop 4).take 40)

theorem kekSetApply_erases (herase : natBit (r.u8 1) 1 = true) :
    (kekSetApply r s).st.crypto.keks = s.crypto.keks.set (Fin.ofNat 8 (r.u8 0)) none := by
  rw [kekSetApply, if_pos herase]
  rfl

theorem kekSetApply_writes {key : KeyBits} (hkeep : natBit (r.u8 1) 1 = false) (hkey : setKek r s = some key) :
    (kekSetApply r s).st.crypto.keks = s.crypto.keks.set (Fin.ofNat 8 (r.u8 0)) (some (natBit (r.u8 1) 0, key)) := by
  have hkey' : unwrapKey true s.fw.fuses.rootKey (natBit (r.u8 1) 0) ((r.payload.drop 4).take 40) = some key := hkey
  rw [kekSetApply, if_neg (by rw [hkeep]; decide)]
  simp only [hkey', okDone, vmod, keks_commandUnwrap]

theorem kekSetApply_refused (hkeep : natBit (r.u8 1) 1 = false) (hkey : setKek r s = none) :
    kekSetApply r s = { st := commandUnwrap s, status := .conflict } := by
  have hkey' : unwrapKey true s.fw.fuses.rootKey (natBit (r.u8 1) 0) ((r.payload.drop 4).take 40) = none := hkey
  rw [kekSetApply, if_neg (by rw [hkeep]; decide)]
  simp only [hkey']

/-- The part of the statement about KEK_SET. -/
theorem exec_kekSet (hcur : current 0x0607 s = some (m, r)) (hchecks : firstFailing (kekSetChecks r s) = none) :
    (∀ v, (natBit (r.u8 1) 1 = true ∧ v = none) ∨ (natBit (r.u8 1) 1 = false ∧ ∃ k, setKek r s = some k ∧
          v = some (natBit (r.u8 1) 0, k)) →
        ∃ t, exec .kekSet s = .next t ∧ t.crypto.keks = s.crypto.keks.set (Fin.ofNat 8 (r.u8 0)) v ∧
        OnlyChanges [.env, .counters, .bridge, .anchor, .mail, .log, .keks] s t) ∧
      (natBit (r.u8 1) 1 = false → setKek r s = none →
        ∃ t, exec .kekSet s = .next t ∧ t.crypto.keks = s.crypto.keks ∧ (boxAt t m).resp.status = .conflict) := by
  have hexec : exec .kekSet s = .next (finish m (kekSetApply r s)) := next_runCommand hcur hchecks
  have hkeeps : Keeps (within [.env, .counters, .bridge, .anchor, .mail, .log, .keks]) False s (finish m (kekSetApply r s)) :=
    finish_keeps rfl rfl rfl rfl rfl (kekSetApply_keeps rfl rfl (keeps_self _ s))
  refine ⟨fun v hv => ⟨_, hexec, keks_finish.trans ?_, hkeeps.onlyChanges⟩, fun hkeep hkey => ?_⟩
  · obtain ⟨herase, rfl⟩ | ⟨hkeep, key, hkey, rfl⟩ := hv
    · exact kekSetApply_erases herase
    · exact kekSetApply_writes hkeep hkey
  · rw [kekSetApply_refused hkeep hkey] at hexec
    exact ⟨_, hexec, keks_finish.trans keks_commandUnwrap, status_finish_of_ne_ok (show Status.conflict ≠ .ok by decide)⟩

end

/-- Settles O47.  That an unwrap which fails under a key-encryption key answers CONFLICT is the model's choice of log 11. -/
theorem keySlots : Obligations.KeySlots := by
  unfold Obligations.KeySlots
  exact ⟨fun n s => ⟨exec_keyEraseComplete, fun h => exec_downHalfLifetimeEnd⟩,
    fun job r s hguard hrun hurgent hnormal => exec_utilityJobArrive hguard hrun hurgent hnormal,
    fun k pipe j rest s hpipe hneed => exec_decryptComplete hpipe hneed,
    fun m r s => ⟨exec_keyLoad, exec_keyCommit, exec_keyErase, exec_keySlotSet, exec_keyBind, exec_kekSet⟩⟩

end Sys2Proof.Machine
end

section
/-!
PROOFS.  Firmware (O59): the boot directory, staging, checkpoints, sensors and activation.
-/
namespace Sys2Proof.Machine

/-! ## The boot directory and the image banks (R493, R501) -/

section
variable {m : MboxId} {r : Request} {d : Done} {b : Half} {n : Nat} {ok : Bool} {s t : State}

/-- The images and versions of `t` are those of `s`. -/
theorem Keeps.image_eq {w : Comp → Bool} {p : Prop} (h : Keeps w p s t) (hw : w .image = false) : Comp.image.same s t := h.same .image hw

theorem image_finish : Comp.image.same d.st (finish m d) := finish_keeps_answer.same .image rfl

theorem dirInForce_congr (h : t.fw.dirs = s.fw.dirs) : dirInForce t = dirInForce s := by
  simp only [dirInForce, h]

theorem activeBank_congr (h : t.fw.dirs = s.fw.dirs) : activeBank t = activeBank s := by
  simp only [activeBank, dirInForce_congr h]

theorem stagingBank_congr (h : t.fw.dirs = s.fw.dirs) : stagingBank t = stagingBank s := by
  simp only [stagingBank, activeBank_congr h]

theorem bankValid_congr (h : t.fw.dirs = s.fw.dirs) : bankValid t b = bankValid s b := by
  simp only [bankValid, validBanks, dirInForce_congr h]

theorem half_cases (x : Half) : x = 0 ∨ x = 1 := by
  revert x
  decide

/-- No valid copy is newer than the one in force. -/
theorem gen_le_dirInForce {x : Half} (hok : s.fw.dirs[x].ok = true) : s.fw.dirs[x].gen ≤ ((dirInForce s).getD {}).gen := by
  unfold dirInForce
  extract_lets u v
  obtain rfl | rfl := half_cases x
  · have hu : u.ok = true := hok
    by_cases hv : v.ok = true ∧ u.gen < v.gen
    · rw [if_neg (by simp [hv.1, Nat.not_le.mpr hv.2]), if_pos hv.1]
      exact Nat.le_of_lt hv.2
    · rw [if_pos (by simp only [not_and, Nat.not_lt] at hv; cases hw : v.ok <;> simp_all)]
      exact Nat.le_refl _
  · have hv : v.ok = true := hok
    by_cases hu : u.ok = true ∧ v.gen ≤ u.gen
    · rw [if_pos (by simp [hu.1, hu.2])]
      exact hu.2
    · rw [if_neg (by simp only [not_and, Nat.not_le] at hu; cases hw : u.ok <;> simp_all), if_pos hv]
      exact Nat.le_refl _

/-- A valid copy newer than the other is in force. -/
theorem dirInForce_of_newest {x : Half} {e : BootDir} (hx : s.fw.dirs[x] = e) (hok : e.ok = true)
    (hnew : s.fw.dirs[otherOf x].ok = true → s.fw.dirs[otherOf x].gen < e.gen) : dirInForce s = some e := by
  subst hx
  unfold dirInForce
  extract_lets u v
  obtain rfl | rfl := half_cases x
  · have hnew' : v.ok = true → v.gen < u.gen := hnew
    have hu : u.ok = true := hok
    rw [if_pos (by cases hv : v.ok <;> simp_all [Nat.le_of_lt])]
  · have hnew' : u.ok = true → u.gen < v.gen := hnew
    have hv : v.ok = true := hok
    rw [if_neg (by cases hu : u.ok <;> simp_all), if_pos hv]

/-- The copy written last is in force (R493). -/
theorem dirInForce_writeDir {active valid : Nat} : dirInForce (writeDir active valid s) =
    some { ok := true, gen := ((dirInForce s).getD {}).gen + 1, active := active, valid := valid } := by
  have hother : ∀ e, (s.fw.dirs.set (dirTarget s) e)[otherOf (dirTarget s)] = s.fw.dirs[otherOf (dirTarget s)] := fun e => by
    refine Vector.getElem_set_ne _ _ fun heq => ?_
    have hne : ∀ x : Half, x.val ≠ (otherOf x).val := by decide
    exact hne _ heq
  refine dirInForce_of_newest (x := dirTarget s) (Vector.getElem_set_self ..) rfl fun hok => ?_
  have hok' : s.fw.dirs[otherOf (dirTarget s)].ok = true := (congrArg BootDir.ok (hother _)).symm.trans hok
  exact Nat.lt_succ_of_le (Nat.le_trans (Nat.le_of_eq (congrArg BootDir.gen (hother _))) (gen_le_dirInForce hok'))

theorem bankValid_writeDir {active valid : Nat} : bankValid (writeDir active valid s) b = natBit valid b.val := by
  rw [bankValid, validBanks, dirInForce_writeDir]
  rfl

theorem activeBank_writeDir {valid : Nat} : activeBank (writeDir b.val valid s) = b := by
  rw [activeBank, dirInForce_writeDir]
  exact Fin.ext (Nat.mod_eq_of_lt b.isLt)

/-- VALID of a bank alone is set or cleared. -/
theorem natBit_validWith {v : Bool} : natBit (validWith s b v) b.val = v := by
  unfold validWith
  extract_lets keep
  have hkeep : keep = 2 ^ (otherOf b).val ∨ keep = 0 := by
    unfold keep
    split
    · exact .inl rfl
    · exact .inr rfl
  have hbits : ∀ (x : Half) (u : Bool), natBit (2 ^ (otherOf x).val + if u then 2 ^ x.val else 0) x.val = u ∧
      natBit (0 + if u then 2 ^ x.val else 0) x.val = u := by decide
  rcases hkeep with hkeep | hkeep
  · rw [hkeep, (hbits b v).1]
  · rw [hkeep, (hbits b v).2]

/-! ## Sensors and fuses (R494, R495, R510) -/

/-- The part of the statement about SENSOR_SET. -/
theorem exec_sensorSet (hcur : current 0x0B12 s = some (m, r)) (hchecks : firstFailing (sensorSetChecks r s) = none) :
    ∃ t, exec .sensorSet s = .next t ∧ t.fw.sensors = sparseSet {} s.fw.sensors (r.u8 0)
        { enabled := r.u8 1 == 1, high := signed 32 (r.u32 4), low := signed 32 (r.u32 8) } ∧
      (r.u8 1 = 1 → signed 32 (r.u32 8) < signed 32 (r.u32 4)) := by
  have hsensors : Comp.sensors.same (sensorSetApply r s).st (finish m (sensorSetApply r s)) := finish_keeps_answer.same .sensors rfl
  obtain ⟨-, hset⟩ := hsensors
  have hconflict := fails_of_firstFailing_none hchecks (List.mem_cons_of_mem _ (List.mem_cons_of_mem _ (List.mem_cons_self ..)))
  refine ⟨_, next_runCommand hcur hchecks, hset, fun henabled => ?_⟩
  simpa [henabled] using hconflict

theorem length_vecBytes {w : Nat} (v : BitVec w) : (vecBytes v).length = w / 8 := by
  rw [vecBytes, List.length_map, List.length_range]

/-- The part of the statement about FUSE_READ. -/
theorem exec_fuseRead (hcur : current 0x0B03 s = some (m, r)) (hchecks : firstFailing (fuseReadChecks r s) = none)
    (hfence : r.fenceAfter = false) : ∃ t, exec .fuseRead s = .next t ∧ (boxAt t m).resp.payload.length = 64 := by
  have hbox : (boxAt (fuseReadApply r s).st m).req.fenceAfter = false := by
    have hreq : (boxAt (fuseReadApply r s).st m).req = r := req_of_current hcur
    rw [hreq, hfence]
  refine ⟨_, next_runCommand hcur hchecks, ?_⟩
  rw [(resp_finish hbox).1]
  simp [fuseReadApply, length_toLe, length_vecBytes]

/-- A record of a threshold and its flag leave the sensors. -/
theorem raiseSensor_sensors {code : BitVec 16} {flags i : Nat} {w : Word} : Comp.sensors.same s (raiseSensor code flags i w s) :=
  Keeps.same (logEvent_keeps (w := within [.counters, .flags, .log, .history]) (k := False) rfl rfl rfl rfl setFlag_keeps_flags)
    .sensors rfl

theorem readings_whenB {c : Bool} {f : State → State} (hf : ∀ t, (f t).fw.readings = t.fw.readings) :
    (whenB c f s).fw.readings = s.fw.readings := by
  cases c
  · rfl
  · exact hf s

/-- A sample stores the reading, whatever its thresholds say. -/
theorem readings_sensorSampleEffect {i : Nat} {v : Word} :
    (sensorSampleEffect i v s).fw.readings = sparseSet noReading s.fw.readings i (sampled s i v) := by
  have hraise : ∀ code flags w t, (raiseSensor code flags i w t).fw.readings = t.fw.readings := fun code flags w t =>
    (raiseSensor_sensors (s := t) (code := code) (flags := flags) (i := i) (w := w)).1
  have hdie : ∀ w t, (noteDie i w t).fw.readings = t.fw.readings := fun w t => by
    unfold noteDie
    split <;> rfl
  unfold sensorSampleEffect
  extract_lets w _ s1 x y _ s2 s3
  have h1 : s1.fw.readings = sparseSet noReading s.fw.readings i w := hdie w _
  split
  · exact (readings_whenB fun t => hraise _ _ w t).trans ((readings_whenB fun t => hraise _ _ w t).trans h1)
  · exact h1

/-- The part of the statement about a sample. -/
theorem exec_sensorSample {i : Nat} {v : Word} (hguard : sensorSampleGuard i s = true) :
    ∃ t, exec (.sensorSample i v) s = .next t ∧
      t.fw.readings = sparseSet noReading s.fw.readings i
        (if i = 96 then stackReading s else if i = 98 then highestDie s else if sensorLive s i then v else noReading) ∧
      OnlyChanges [.counters, .flags, .log, .sensors, .history, .power] s t :=
  ⟨_, next_whenB hguard, readings_sensorSampleEffect,
    (sensorSampleEffect_keeps rfl rfl rfl rfl rfl rfl (keeps_self _ s)).onlyChanges⟩

/-! ## Checkpoints (R496) -/

/-- The part of the statement about a checkpoint. -/
theorem exec_checkpoint (hguard : checkpointGuard s = true) : ∃ t, exec (.checkpoint ok) s = .next t ∧
    t.fw.nextSlot = (s.fw.nextSlot + 1) % 64 ∧ ∃ x, t.fw.slots = sparseSet none s.fw.slots s.fw.nextSlot x ∧
      (ok = true → ∃ y, x = some y ∧ y.boot = s.fw.boot ∧ y.records.length ≤ 16382) ∧ (ok = false → x = none) := by
  refine ⟨_, next_whenB hguard, ?_⟩
  cases ok with
  | true =>
    let slot : CkSlot := {
      boot := s.fw.boot, firstSeq := firstSeqOf s (checkpointRecords s), timeSec := s.time.sec.setWidth 32,
      records := checkpointRecords s }
    have hslot : (checkpointEffect true s).fw.nextSlot = (s.fw.nextSlot + 1) % 64 ∧
        (checkpointEffect true s).fw.slots = sparseSet none s.fw.slots s.fw.nextSlot (some slot) := by
      unfold checkpointEffect
      extract_lets l n
      rw [if_pos rfl]
      split
      · exact ⟨rfl, rfl⟩
      · exact ⟨rfl, rfl⟩
    have hrecords : (checkpointRecords s).length ≤ 16382 := by
      rw [checkpointRecords, List.length_reverse]
      exact List.length_take_le ..
    exact ⟨hslot.1, _, hslot.2, fun _ => ⟨slot, rfl, rfl, hrecords⟩, fun h => absurd h (by decide)⟩
  | false =>
    have hsame : Comp.checkpoints.same (passSlot { s with fw := { s.fw with slots := sparseSet none s.fw.slots s.fw.nextSlot none } })
        (checkpointEffect false s) :=
      Keeps.same (logEvent_keeps (w := within [.counters, .flags, .log, .history]) (k := False) rfl rfl rfl rfl setFlag_keeps_flags)
        .checkpoints rfl
    obtain ⟨hslots, hnext, -⟩ := hsame
    exact ⟨hnext, none, hslots, fun h => absurd h (by decide), fun _ => rfl⟩

/-! ## Staging and activation (R501 to R506) -/

theorem stageTotal_of_fwStageChecks (hchecks : firstFailing (fwStageChecks r s) = none) : r.u32 4 ≤ 8388608 := by
  have hrange := fails_of_firstFailing_none hchecks (List.mem_cons_of_mem _ (List.mem_cons_self ..))
  simp only [ckRange, Bool.or_eq_false_iff, decide_eq_false_iff_not, Nat.not_lt] at hrange
  exact hrange.1.1

/-- The part of the statement about a first chunk. -/
theorem exec_fwStage (hcur : current 0x0B00 s = some (m, r)) (hchecks : firstFailing (fwStageChecks r s) = none)
    (hfirst : fsFirst r = true) : ∃ t, exec .fwStage s = .next t ∧ bankBytes t (stagingBank s) = [] ∧
      bankValid t (stagingBank s) = false ∧ t.fw.stageNext = fsEnd r ∧ t.fw.stageTotal = r.u32 4 ∧ r.u32 4 ≤ 8388608 := by
  have hstart : ∃ u, fwStageStart m r s = u ∧ u.fw.banks = s.fw.banks.set (stagingBank s) [] ∧
      u.fw.dirs = (writeDir (activeBank s).val (validWith s (stagingBank s) false) s).fw.dirs ∧
      u.fw.stageNext = fsEnd r ∧ u.fw.stageTotal = r.u32 4 := by
    refine ⟨_, rfl, ?_⟩
    unfold fwStageStart
    rw [hfirst]
    exact ⟨rfl, rfl, rfl, rfl⟩
  obtain ⟨u, hu, hbanks, hdirs, hnext, htotal⟩ := hstart
  have hexec : exec .fwStage s = .next u := hu ▸ next_runLong hcur hchecks
  refine ⟨u, hexec, ?_, ?_, hnext, htotal, stageTotal_of_fwStageChecks hchecks⟩
  · rw [bankBytes, hbanks]
    exact Vector.getElem_set_self ..
  · rw [bankValid_congr hdirs, bankValid_writeDir, natBit_validWith]

theorem dirs_storeChunk : (storeChunk r s).fw.dirs = s.fw.dirs := rfl

theorem bankBytes_storeChunk : bankBytes (storeChunk r s) (stagingBank s) =
    (if fsFirst r then [] else bankBytes s (stagingBank s)) ++ fsData r := Vector.getElem_set_self ..

theorem logged_image {a b : Nat} {code : BitVec 16} {sev : Severity} {source : Byte} {data : List Byte} :
    Comp.image.same s (logEvent code sev source data (setFlag a b s)) :=
  Keeps.same (logEvent_keeps (w := within [.counters, .flags, .log, .history]) (k := False) rfl rfl rfl rfl setFlag_keeps_flags)
    .image rfl

/-- An image that is not admissible is answered with its reason, and leaves the directory and the banks. -/
theorem judgeImage_rejected (hreason : stagedReason s = some n) : (judgeImage s).status = .conflict ∧
    (judgeImage s).payload = [BitVec.ofNat 8 n] ∧ (judgeImage s).st.fw.dirs = s.fw.dirs ∧ (judgeImage s).st.fw.banks = s.fw.banks := by
  unfold judgeImage
  rw [hreason]
  obtain ⟨hdirs, hbanks, -⟩ := logged_image (s := { s with fw := { s.fw with stageSt := 3 } }) (a := aFwFlags) (b := 1) (code := 0x0902)
    (sev := .error) (source := 0xFF) (data := [BitVec.ofNat 8 n])
  exact ⟨rfl, rfl, hdirs, hbanks⟩

/-- An admissible image makes its bank VALID; the active bank and the bytes stay. -/
theorem judgeImage_accepted (hreason : stagedReason s = none) :
    (judgeImage s).st.fw.dirs = (writeDir (activeBank s).val (validWith s (stagingBank s) true) s).fw.dirs ∧
    (judgeImage s).st.fw.banks = s.fw.banks ∧ (judgeImage s).st.fw.stageSt = 2 := by
  unfold judgeImage
  rw [hreason]
  extract_lets b img s1 _ s2
  obtain ⟨hdirs, hbanks, -, hstage, -⟩ := logged_image (s := { s1 with fw := { s1.fw with stageSt := 2 } }) (a := aFwFlags) (b := 0)
    (code := 0x0901) (sev := .notice) (source := 0xFF) (data := BitVec.ofNat 8 b.val :: BitVec.ofNat 8 (imgSvn img) :: toLe 4 (imgBuild img))
  exact ⟨hdirs, hbanks, hstage⟩

/-- The chunk as its completion leaves it: stored, and judged where it is the last. -/
def chunkDone (r : Request) (s : State) : Done := if fsLast r then judgeImage (storeChunk r s) else okDone (storeChunk r s)

theorem exec_fwStageComplete (hguard : fwStageCompleteGuard m s = true) :
    exec (.fwStageComplete m) s = .next (finish m (chunkDone (boxAt s m).req s)) := next_whenB hguard

theorem banks_chunkDone : (chunkDone r s).st.fw.banks = (storeChunk r s).fw.banks := by
  unfold chunkDone
  split
  · cases hreason : stagedReason (storeChunk r s) with
    | some n => exact (judgeImage_rejected hreason).2.2.2
    | none => exact (judgeImage_accepted hreason).2.1
  · rfl

/-- The part of the statement about a chunk that completes. -/
theorem fwStageComplete_outcome (hguard : fwStageCompleteGuard m s = true) : ∃ t, exec (.fwStageComplete m) s = .next t ∧
    bankBytes t (stagingBank s) = (if fsFirst (boxAt s m).req then [] else bankBytes s (stagingBank s)) ++ fsData (boxAt s m).req ∧
    (fsLast (boxAt s m).req = true →
      (∀ n, stagedReason (storeChunk (boxAt s m).req s) = some n → (boxAt t m).resp.status = .conflict ∧
        (boxAt t m).resp.payload = [BitVec.ofNat 8 n] ∧ t.fw.dirs = s.fw.dirs) ∧
      (stagedReason (storeChunk (boxAt s m).req s) = none →
        bankValid t (stagingBank s) = true ∧ activeBank t = activeBank s ∧ t.fw.stageSt = 2)) := by
  obtain ⟨hdirs, hbanks, -, hstage, -⟩ := image_finish (m := m) (d := chunkDone (boxAt s m).req s)
  refine ⟨_, exec_fwStageComplete hguard, ?_, fun hlast => ?_⟩
  · rw [bankBytes, hbanks, banks_chunkDone]
    exact bankBytes_storeChunk
  · have hjudged : chunkDone (boxAt s m).req s = judgeImage (storeChunk (boxAt s m).req s) := if_pos hlast
    rw [hjudged] at hdirs hstage ⊢
    refine ⟨fun n hreason => ?_, fun hreason => ?_⟩
    · obtain ⟨hstatus, hpayload, hkept, -⟩ := judgeImage_rejected hreason
      have hrefused : (judgeImage (storeChunk (boxAt s m).req s)).status ≠ .ok := by
        rw [hstatus]
        decide
      refine ⟨(status_finish_of_ne_ok hrefused).trans hstatus, ?_, hdirs.trans hkept⟩
      rw [finish_of_ne_ok hrefused]
      exact (congrArg Response.payload resp_respond).trans hpayload
    · obtain ⟨hwritten, -, hstaged⟩ := judgeImage_accepted hreason
      refine ⟨?_, ?_, hstage.trans hstaged⟩
      · rw [bankValid_congr (hdirs.trans hwritten), bankValid_writeDir]
        exact natBit_validWith
      · rw [activeBank_congr (hdirs.trans hwritten), activeBank_writeDir]
        exact activeBank_congr rfl

/-- The part of the statement about an activation that fails. -/
theorem exec_activationStep_failed {a : Activation} (hact : s.fw.act = some a) : ∃ t, exec (.activationStep false) s = .next t ∧
    t.fw.act = none ∧ t.fw.running = a.before ∧ t.fw.dirs = s.fw.dirs ∧ (boxAt t a.mbox).resp.status = .aborted := by
  have hguard : activationStepGuard false s = true := by
    rw [activationStepGuard, hact]
    rfl
  have heffect : activationStepEffect false s = finish a.mbox { st := rollBack s, status := .aborted } := by
    rw [activationStepEffect, hact]
    rfl
  have hback : Comp.image.same { s with fw := { s.fw with act := none, running := a.before } } (rollBack s) := by
    unfold rollBack
    rw [hact]
    exact logged_image
  obtain ⟨hdirs, -, -, -, -, -, hact', hrunning⟩ := hback
  obtain ⟨hdirs', -, -, -, -, -, hact'', hrunning'⟩ := image_finish (m := a.mbox) (d := { st := rollBack s, status := .aborted })
  refine ⟨_, (next_whenB hguard).trans (congrArg _ heffect), hact''.trans hact', hrunning'.trans hrunning, hdirs'.trans hdirs, ?_⟩
  exact status_finish_of_ne_ok (show Status.aborted ≠ .ok by decide)

/-! ## Darkroom mode at a start that fails (R508, R509) -/

/-- The part of the statement about firmware that is not ready in time. -/
theorem exec_fwStartTimeout (hguard : fwStartTimeoutGuard s = true) : ∃ t, exec .fwStartTimeout s = .next t ∧
    t.fw.darkroom = true ∧ t.fw.drCause = 3 ∧ (∀ i : Fin 8, t.crypto.keks[i] = none) ∧
    (∀ n : Fin 88, n.val % 11 ≠ 10 → (serialAt t n).tx = .off ∧ (serialAt t n).rx = .off) ∧
    OnlyChanges [.keks, .serdes, .boot] s t := by
  have hkeeps : Keeps (within [.keks, .serdes, .boot]) False s (fwStartTimeoutEffect s) := by
    apply fwStartTimeoutEffect_keeps (h := keeps_self _ s) <;> rfl
  refine ⟨_, next_whenB hguard, rfl, rfl, fun i => Vector.getElem_replicate .., fun n hn => ?_, hkeeps.onlyChanges⟩
  have hlane : serialAt (fwStartTimeoutEffect s) n = { s.serdes.lanes[n] with tx := .off, rx := .off } :=
    (Vector.getElem_ofFn ..).trans (if_neg hn)
  rw [hlane]
  exact ⟨rfl, rfl⟩

end

/-- Settles O59.  That a checkpoint which fails passes its slot is the model's choice of log 77, the readings of sensors 96 and 98
those of logs 148 and 111, and that chunks are appended in the order taken that of log 150. -/
theorem firmwareCommands : Obligations.FirmwareCommands := by
  unfold Obligations.FirmwareCommands
  exact ⟨fun m r s => ⟨exec_sensorSet, exec_fwStage, exec_fuseRead⟩,
    fun s => ⟨fun i v => exec_sensorSample, fun ok => exec_checkpoint, fun m => fwStageComplete_outcome,
      fun a => exec_activationStep_failed, exec_fwStartTimeout⟩⟩

end Sys2Proof.Machine
end

section
/-!
PROOFS.  What the loss of a lane's lock and the passage of cells leave as it was: flags, bursts, links and locks.
-/
namespace Sys2Proof.Machine

/-! ## What the loss of a lane, and cells on their way, leave as it was -/

/-- A fabric lane but for what the sending and receiving of cells changes: its link and its settings (R436, R454). -/
def linkPart (y : FabLaneSt) : FabLaneSt :=
  { y with aligned := false, alignLostAt := 0, heldHigh := false, heldNormal := false, heldSince := 0, xoffSent := false,
           lpiTx := false, lpiRx := false, neighStopped := false, lastCellAt := 0, lastHelloAt := 0, helloSentAt := 0,
           lastSentAt := 0, lastBusyAt := 0, lsasSent := false, lsaSeen := false, queues := Vector.replicate 3 [], lastSent := [] }

/-- From `s` to `t` no flag clears, no line lane begins or ends a burst, no fabric link changes, the fabric runs or stands as
it did with its settings, and no serial lane gains a lock. -/
structure Quiet (s t : State) : Prop where
  flags : sparseWf 0 s.regs.w1c = true → sparseWf 0 t.regs.w1c = true ∧
    ∀ a b, (flagWord s a).getLsbD b = true → (flagWord t a).getLsbD b = true
  sends : ∀ l, (laneAt t l).out = (laneAt s l).out ∧ (laneAt t l).burst = (laneAt s l).burst
  link : ∀ f, linkPart (fabAt t f) = linkPart (fabAt s f)
  func : t.fabric.stopped = s.fabric.stopped ∧ t.fabric.setting = s.fabric.setting
  cdr : ∀ n : LaneNo, s.serdes.cdrLock[n] = false → t.serdes.cdrLock[n] = false
  chk : ∀ n, (serialAt s n).chkLock = false → (serialAt t n).chkLock = false

/-- Every component but those that `Quiet` speaks of. -/
def offQuiet (c : Comp) : Bool := c != .flags && c != .lanes && c != .fabric && c != .serdes

section
variable {w : Comp → Bool} {p : Prop} {i s t u : State}

theorem Quiet.refl (s : State) : Quiet s s where
  flags hwf := ⟨hwf, fun _ _ hb => hb⟩
  sends _ := ⟨rfl, rfl⟩
  link _ := rfl
  func := ⟨rfl, rfl⟩
  cdr _ hn := hn
  chk _ hn := hn

theorem Quiet.trans (h : Quiet s t) (h' : Quiet t u) : Quiet s u where
  flags hwf := ⟨(h'.flags (h.flags hwf).1).1, fun a b hb => (h'.flags (h.flags hwf).1).2 a b ((h.flags hwf).2 a b hb)⟩
  sends l := ⟨(h'.sends l).1.trans (h.sends l).1, (h'.sends l).2.trans (h.sends l).2⟩
  link f := (h'.link f).trans (h.link f)
  func := ⟨h'.func.1.trans h.func.1, h'.func.2.trans h.func.2⟩
  cdr n hn := h'.cdr n (h.cdr n hn)
  chk n hn := h'.chk n (h.chk n hn)

theorem Quiet.ite {c : Prop} [Decidable c] (h : Quiet s t) (h' : Quiet s u) : Quiet s (if c then t else u) := by
  split <;> assumption

theorem Quiet.adj_eq (h : Quiet s t) (f : FabLane) : (fabAt t f).adj = (fabAt s f).adj := (congrArg FabLaneSt.adj (h.link f) :)

theorem Quiet.cause_eq (h : Quiet s t) (f : FabLane) : (fabAt t f).cause = (fabAt s f).cause := (congrArg FabLaneSt.cause (h.link f) :)

theorem Quiet.neighId_eq (h : Quiet s t) (f : FabLane) : (fabAt t f).neighId = (fabAt s f).neighId :=
  (congrArg FabLaneSt.neighId (h.link f) :)

theorem offQuiet_self (s : State) : Keeps offQuiet False s s := Keeps.refl _ s False.elim

/-- What writes no flag, line lane, fabric lane or serial lane. -/
theorem Quiet.of_keeps (h : Keeps offQuiet False s t) : Quiet s t := by
  have hflags : t.regs.w1c = s.regs.w1c := h.same .flags rfl
  have hlanes : t.trunk.lanes = s.trunk.lanes := (h.same .lanes rfl).1
  have hfabric : t.fabric = s.fabric := h.same .fabric rfl
  have hserdes : t.serdes = s.serdes := h.same .serdes rfl
  exact {
    flags := fun hwf => ⟨hflags ▸ hwf, fun a b hb => by rw [flagWord, hflags]; exact hb⟩
    sends := fun l => by rw [laneAt_congr hlanes]; exact ⟨rfl, rfl⟩
    link := fun f => by rw [fabAt, hfabric, fabAt]
    func := by rw [hfabric]; exact ⟨rfl, rfl⟩
    cdr := fun n hn => by rw [hserdes]; exact hn
    chk := fun n hn => by rw [serialAt, hserdes]; exact hn }

end

section
variable {α : Type} {ls : List α} {c : Bool} {f : State → State} {n : LaneNo} {l : Lane} {v : FabLane} {i s t : State} (h : Quiet i s)
include h

theorem Quiet.keeps (ht : Keeps offQuiet False s t) : Quiet i t := h.trans (.of_keeps ht)

theorem foldS_quiet {g : α → State → State} (hg : ∀ x t, Quiet i t → Quiet i (g x t)) : Quiet i (foldS ls g s) :=
  foldS_induction hg h

theorem whenB_quiet (hf : ∀ t, Quiet i t → Quiet i (f t)) : Quiet i (whenB c f s) := .ite (hf s h) h

theorem modLane_quiet {g : LaneSt → LaneSt} (hg : ∀ x, (g x).out = x.out ∧ (g x).burst = x.burst := by intro; exact ⟨rfl, rfl⟩) :
    Quiet i (modLane s l g) := h.trans
  { Quiet.refl s with
    sends := fun j => by
      by_cases hj : j = l
      · rw [hj, laneAt_modLane_same]
        exact hg _
      · rw [laneAt_modLane_other _ _ _ _ hj]
        exact ⟨rfl, rfl⟩ }

theorem modFab_quiet {g : FabLaneSt → FabLaneSt} (hg : ∀ y, linkPart (g y) = linkPart y := by intro; rfl) :
    Quiet i (modFab s v g) := h.trans
  { Quiet.refl s with
    link := fun j => by
      by_cases hj : j = v
      · rw [hj, fabAt, modFab, vmod_same]
        exact hg _
      · rw [fabAt, modFab, vmod_other _ _ _ _ hj, fabAt] }

/-- The fabric function with other cells waiting, and other sequences. -/
theorem setFabric_quiet {x : FabricAll} (hlanes : x.lanes = s.fabric.lanes) (hstopped : x.stopped = s.fabric.stopped)
    (hsetting : x.setting = s.fabric.setting) : Quiet i { s with fabric := x } := h.trans
  { Quiet.refl s with
    link := fun f => congrArg (fun v : Vector FabLaneSt 16 => linkPart v[f]) hlanes
    func := ⟨hstopped, hsetting⟩ }

theorem modSerial_quiet {g : SerialLane → SerialLane} (hg : ∀ x, x.chkLock = false → (g x).chkLock = false) :
    Quiet i (modSerial s n g) := h.trans
  { Quiet.refl s with
    chk := fun m hm => by
      by_cases hn : m = n
      · subst hn
        rw [serialAt, modSerial, vmod_same]
        exact hg _ hm
      · rw [serialAt, modSerial, vmod_other _ _ _ _ hn]
        exact hm }

/-- A serial lane loses CDR lock. -/
theorem dropCdr_quiet : Quiet i { s with serdes := { s.serdes with cdrLock := s.serdes.cdrLock.set n false } } := h.trans
  { Quiet.refl s with
    cdr := fun m hm => by
      by_cases hn : m = n
      · subst hn
        exact Vector.getElem_set_self ..
      · exact (Vector.getElem_set_ne n.isLt m.isLt fun e => hn (Fin.ext e.symm)).trans hm }

end

/-! ## Flags and records (R477, R478) -/

section
variable {a b n : Nat} {w : Word} {r : Record} {code : BitVec 16} {sev : Severity} {source : Byte} {data : List Byte} {i s : State}
  (h : Quiet i s)
include h

theorem putFlags_quiet (hw : ∀ b, (flagWord s a).getLsbD b = true → w.getLsbD b = true) : Quiet i (putFlags a w s) := h.trans
  { Quiet.refl s with
    flags := fun hwf => ⟨sparseWf_set hwf, fun x b hb => by
      by_cases hx : x = a
      · subst hx
        rw [flagWord, putFlags, sparseGet_set_same hwf]
        exact hw b hb
      · rw [flagWord, putFlags, sparseGet_set_other hwf hx]
        exact hb⟩ }

theorem raiseFlags_quiet : Quiet i (putFlags a (flagWord s a ||| w) s) :=
  putFlags_quiet h fun b hb => by rw [BitVec.getLsbD_or, hb, Bool.true_or]

theorem pushRecord_quiet : Quiet i (pushRecord r s) := h.keeps (pushRecord_keeps rfl rfl (offQuiet_self s))

theorem evqLose_quiet : Quiet i (evqLose r s) := h.keeps (evqLose_keeps rfl rfl (offQuiet_self s))

theorem writeRecord_quiet : Quiet i (writeRecord r s) := by
  unfold writeRecord
  extract_lets s1 s2 s3 r2 s4
  have h1 : Quiet i s1 := pushRecord_quiet h
  have h2 : Quiet i s2 := evqLose_quiet h1
  have h4 : Quiet i s4 := pushRecord_quiet (raiseFlags_quiet h2)
  have hcopy : Quiet i (evqCopy r s1) := h1.keeps (evqCopy_keeps rfl (offQuiet_self s1))
  exact .ite (.ite (.ite h2 (.ite (evqLose_quiet h4) h4)) hcopy) h1

theorem logEvent_quiet : Quiet i (logEvent code sev source data s) := writeRecord_quiet h

theorem setFlag_quiet : Quiet i (setFlag a b s) := .ite h (writeRecord_quiet (raiseFlags_quiet h))

theorem count_quiet : Quiet i (count a n s) := h.keeps (count_keeps rfl (offQuiet_self s))

theorem count1_quiet : Quiet i (count1 a s) := count_quiet h

end

/-! ## Buffers (R282 to R298) -/

section
variable {k : SliceId} {f : BufSt → BufSt} {a : AllocArgs} {n owner : Nat} {op : BufOp} {ptr : Word} {own : Option Word}
  {mk : MisKind} {p : Packet} {r : Except AllocFail Word} {o : Option Packet} {i s t : State} (h : Quiet i s)
include h

theorem modBuf_quiet : Quiet i (modBuf s k f) := h.keeps (modBuf_keeps rfl (offQuiet_self s))

theorem dropOwed_quiet : Quiet i (dropOwed p s) := h.keeps (dropOwed_keeps rfl (offQuiet_self s))

theorem refreshPressure_quiet : Quiet i (refreshPressure k s) := by
  unfold refreshPressure
  extract_lets b b1 rises low
  refine whenB_quiet (whenB_quiet (foldS_quiet (modBuf_quiet h) fun j t ht => ?_) fun _ => setFlag_quiet) fun _ => setFlag_quiet
  exact .ite ht (ht.keeps (modPort_keeps rfl (offQuiet_self t)))

theorem warnFlags_quiet : Quiet i (warnFlags k owner s) :=
  whenB_quiet (whenB_quiet h fun _ ht => logEvent_quiet (setFlag_quiet ht)) fun _ => setFlag_quiet

theorem grantBuf_quiet : Quiet i (grantBuf k a n s) := by
  unfold grantBuf
  extract_lets key s1 s2
  have h1 : Quiet i s1 := count1_quiet (modBuf_quiet h)
  have h2 : Quiet i s2 := by
    unfold s2
    split
    · exact whenB_quiet h1 fun _ => count1_quiet
    · exact h1
  exact refreshPressure_quiet (warnFlags_quiet h2)

theorem allocBuf_quiet : Quiet i (allocBuf k a s).2 := by
  unfold allocBuf
  split
  · exact count1_quiet h
  · extract_lets b others found s1
    have h1 : Quiet i s1 := (modBuf_quiet h).keeps (noteLosses_keeps rfl rfl (offQuiet_self _))
    split
    · split
      · exact h1
      · exact setFlag_quiet (count1_quiet h1)
    next n _ =>
      extract_lets
      rw [apply_ite Prod.snd, apply_ite Prod.snd]
      dsimp only
      exact .ite (count1_quiet h1) (.ite (count1_quiet h1) (grantBuf_quiet h1))

theorem quiet_of_allocBuf (heq : allocBuf k a s = (r, t)) : Quiet i t := by
  have h2 : Quiet i (allocBuf k a s).2 := allocBuf_quiet h
  rwa [heq] at h2

theorem bufMisuse_quiet : Quiet i (bufMisuse k op ptr n mk s) :=
  logEvent_quiet (setFlag_quiet (whenB_quiet (count1_quiet h) fun _ => modBuf_quiet))

theorem bufOpNow_quiet : Quiet i (bufOpNow k op ptr n s) := by
  unfold bufOpNow
  split
  · exact bufMisuse_quiet h
  · split
    · exact foldS_quiet (h.keeps (bufApply_keeps rfl (offQuiet_self s))) fun _ _ => refreshPressure_quiet
    · exact h

theorem bufOp_quiet : Quiet i (bufOp k op ptr n s) :=
  bufOpNow_quiet (.ite (foldS_quiet h fun _ _ ht => bufOpNow_quiet (modBuf_quiet ht)) h)

theorem dropBuf_quiet : Quiet i (dropBuf own s) := by
  unfold dropBuf
  split
  · exact bufOp_quiet h
  · exact h

theorem passBuf_quiet : Quiet i (passBuf own owner s) := by
  unfold passBuf
  split
  · exact .ite h (bufOp_quiet h)
  · exact h

theorem discard_quiet : Quiet i (discard p s) := dropOwed_quiet (dropBuf_quiet h)

theorem holdStopped_quiet : Quiet i (holdStopped p s).2 := by
  unfold holdStopped
  split
  · extract_lets o k
    split
    · exact h
    · split
      · exact count1_quiet (discard_quiet h)
      · split
        next heq => exact quiet_of_allocBuf (dropBuf_quiet h) heq
        next heq => exact count1_quiet (dropOwed_quiet (quiet_of_allocBuf (dropBuf_quiet h) heq))
  · exact h

theorem quiet_of_holdStopped (heq : holdStopped p s = (o, t)) : Quiet i t := by
  have h2 : Quiet i (holdStopped p s).2 := holdStopped_quiet h
  rwa [heq] at h2

theorem receiveFrame_quiet : Quiet i (receiveFrame k n p s) := by
  unfold receiveFrame
  extract_lets o
  split
  next heq => exact (quiet_of_allocBuf h heq).keeps (enterPath_keeps rfl (offQuiet_self _))
  next heq => exact dropOwed_quiet (quiet_of_allocBuf h heq)

end

/-! ## Cells on their way (R439, R444, R446) -/

section
variable {k : SliceId} {x : CellOut} {l : FabLane} {n : Nat} {d : FabDest} {p : Packet} {i s : State} (h : Quiet i s)
include h

theorem cellLeft_quiet : Quiet i (cellLeft k x s) := by
  unfold cellLeft
  split
  · extract_lets s1
    have h1 : Quiet i s1 := dropBuf_quiet (passBuf_quiet h)
    split
    · exact count1_quiet (h1.keeps (stampOwed_keeps rfl (offQuiet_self s1)))
    · exact h1
  · exact h

theorem fabLocal_quiet : Quiet i (fabLocal k x s) := setFabric_quiet (cellLeft_quiet h) rfl rfl rfl

theorem fabTransmit_quiet : Quiet i (fabTransmit l x s) := by
  unfold fabTransmit
  extract_lets off s1 s2
  have h1 : Quiet i s1 := modFab_quiet h
  exact cellLeft_quiet (.ite h1 (count_quiet (count1_quiet (modFab_quiet h1))))

theorem fabDrain_quiet : Quiet i (fabDrain l s) := by
  refine foldS_quiet h fun c t ht => ?_
  have h1 : Quiet i (modFab t l fun y => { y with queues := y.queues.set c [] }) := modFab_quiet ht
  exact .ite (foldS_quiet h1 fun _ _ => fabTransmit_quiet) ht

theorem fabQueue_quiet : Quiet i (fabQueue l x s) := fabDrain_quiet (modFab_quiet h)

/-- A cell that is not sent on lets its buffer go. -/
theorem loseCell_quiet : Quiet i (match x.pkt with | some p => dropOwed p (dropBuf p.buf s) | none => s) := by
  split
  · exact dropOwed_quiet (dropBuf_quiet h)
  · exact h

theorem fabRoute_quiet : Quiet i (fabRoute n x s) := by
  unfold fabRoute
  split
  · exact fabLocal_quiet h
  · split
    · exact .ite (fabQueue_quiet h) (.ite (h.keeps (bridgeSend_keeps rfl (offQuiet_self s))) (loseCell_quiet (count1_quiet h)))
    · exact loseCell_quiet (count1_quiet h)

theorem fabSend_quiet : Quiet i (fabSend d p s) := by
  unfold fabSend
  split
  · split
    next heq => exact setFabric_quiet (quiet_of_holdStopped h heq) rfl rfl rfl
    next heq => exact quiet_of_holdStopped h heq
  · split
    · exact dropOwed_quiet (dropBuf_quiet (count1_quiet h))
    · exact fabRoute_quiet (setFabric_quiet (h.keeps (tcCount_keeps rfl (offQuiet_self s))) rfl rfl rfl)

end

/-! ## The packets of a lane that loses delineation (R65, R74) -/

section
variable {g : GroupId} {l : Lane} {port : PortTag} {stamp : BitVec 96} {bytes : FrameBytes} {n : Nat} {i s : State} (h : Quiet i s)
include h

theorem deliverDown_quiet : Quiet i (deliverDown g l port stamp bytes s) := by
  unfold deliverDown
  extract_lets k p o
  split
  · split
    · split
      next heq => exact fabSend_quiet (quiet_of_allocBuf h heq)
      next heq => exact quiet_of_allocBuf h heq
    · exact receiveFrame_quiet h
  · exact receiveFrame_quiet h

/-- The extractor with other packets. -/
theorem setExtract_quiet {x : List Extract} : Quiet i { s with trunk := { s.trunk with extract := x } } := h.trans { Quiet.refl s with }

theorem releaseFront_quiet : Quiet i (releaseFront g port s) := by
  refine foldS_quiet (setExtract_quiet h) fun e t ht => ?_
  split
  · exact deliverDown_quiet ht
  · exact ht

theorem dropTicket_quiet : Quiet i (dropTicket n s) := by
  unfold dropTicket
  split
  · exact releaseFront_quiet (setExtract_quiet h)
  · exact h

theorem dropCutJobs_quiet : Quiet i (dropCutJobs l s) := by
  unfold dropCutJobs
  extract_lets cut _ s1
  have h1 : Quiet i s1 := h.trans { Quiet.refl s with }
  exact foldS_quiet (modLane_quiet h1) fun _ _ => dropTicket_quiet

theorem openSettle_quiet : Quiet i (openSettle l s) := modLane_quiet h

theorem abortContexts_quiet : Quiet i (abortContexts l s) := by
  unfold abortContexts
  extract_lets cs s1
  have h1 : Quiet i s1 := modLane_quiet (dropCutJobs_quiet (count_quiet h))
  exact openSettle_quiet (foldS_quiet h1 fun _ _ => dropTicket_quiet)

theorem loseDelineation_quiet : Quiet i (loseDelineation l s) :=
  setFlag_quiet (modLane_quiet (abortContexts_quiet h))

end

/-! ## The state of a group whose lanes lose SYNC (R78, R79) -/

section
variable {g : GroupId} {f : GroupSt → GroupSt} {st : TermSt} {i s : State} (h : Quiet i s)
include h

theorem modGroup_quiet : Quiet i (modGroup s g f) := h.keeps (modGroup_keeps rfl (offQuiet_self s))

theorem listenTest_quiet : Quiet i (listenTest g s) := by
  unfold listenTest
  extract_lets x
  split
  · split
    · exact setFlag_quiet (modGroup_quiet h)
    · exact setFlag_quiet (modGroup_quiet h)
    · exact modGroup_quiet h
  · exact h

theorem clearGrants_quiet : Quiet i (clearGrants g s) :=
  modGroup_quiet (foldS_quiet h fun _ _ ht => modLane_quiet ht)

theorem dropEqdPending_quiet : Quiet i (dropEqdPending g s) :=
  modGroup_quiet (foldS_quiet h fun _ _ ht => modLane_quiet ht)

theorem unrangeLanes_quiet : Quiet i (unrangeLanes g s) :=
  foldS_quiet h fun _ _ ht => modLane_quiet ht

theorem loseIdentity_quiet : Quiet i (loseIdentity st g s) :=
  modGroup_quiet (foldS_quiet (unrangeLanes_quiet (dropEqdPending_quiet h)) fun _ _ ht => modLane_quiet ht)

theorem enterListen_quiet : Quiet i (enterListen g s) := by
  unfold enterListen
  extract_lets s1 s2 s3
  have h2 : Quiet i s2 := modGroup_quiet (loseIdentity_quiet (clearGrants_quiet h))
  have h3 : Quiet i s3 := foldS_quiet h2 fun _ t ht => ht.keeps (modAcct_keeps rfl (offQuiet_self t))
  exact listenTest_quiet h3

theorem syncChanged_quiet : Quiet i (syncChanged g s) := by
  unfold syncChanged
  extract_lets s1 x
  have h1 : Quiet i s1 := h.keeps (followClock_keeps rfl (offQuiet_self s))
  exact .ite (listenTest_quiet h1) (.ite (enterListen_quiet h1) h1)

end

/-! ## A lane that loses lock or starts anew (R56, R415, R421) -/

section
variable {l : Lane} {n : LaneNo} {dest : Align} {i s : State} (h : Quiet i s)
include h

theorem leaveSync_quiet : Quiet i (leaveSync l dest s) := by
  unfold leaveSync
  extract_lets s1 s2
  have h2 : Quiet i s2 := modLane_quiet (.ite (loseDelineation_quiet h) h)
  split
  · exact syncChanged_quiet h2
  · exact h2

theorem loseBlockLock_quiet : Quiet i (loseBlockLock l s) :=
  setFlag_quiet (modLane_quiet (.ite (leaveSync_quiet h) h))

theorem laneStart_quiet : Quiet i (laneStart n s) := by
  unfold laneStart
  extract_lets _ s1 s2
  have h2 : Quiet i s2 := modSerial_quiet (dropCdr_quiet h) fun _ _ => rfl
  split
  · exact h2.keeps (modPort_keeps rfl (offQuiet_self s2))
  · exact .ite (loseBlockLock_quiet h2) h2
  · exact modFab_quiet h2
  · exact h2

theorem idleLanes_quiet : Quiet i (idleLanes s) := foldS_quiet h fun _ _ ht => modSerial_quiet (laneStart_quiet ht) fun _ hx => hx

end

/-! ## A clock source that fails (R516, R519, R520) -/

section
variable {f : State → State} {k : SliceId} {d src dst test : Nat} {e : Fin 8} {g : DomainSt → DomainSt} {clock : ClockSrc}
  {carry : Carry} {l : Lane} {i s : State} (h : Quiet i s)
include h

theorem loseCarry_quiet : Quiet i (loseCarry carry s) := by
  unfold loseCarry
  split
  · exact discard_quiet h
  · split
    · exact discard_quiet h
    · exact h

theorem dropTransit_quiet : Quiet i (dropTransit s) := by
  have hcut : ∀ x, Quiet i { s with bridge := x } := fun x => h.trans { Quiet.refl s with }
  exact foldS_quiet (hcut _) fun _ _ ht => count1_quiet (loseCarry_quiet ht)

omit h in
theorem linkChange_quiet (hf : Quiet i (f s)) : Quiet i (linkChange f s) := by
  unfold linkChange
  extract_lets s1
  have h1 : Quiet i s1 := dropTransit_quiet (hf.keeps (refreshReach_keeps rfl (offQuiet_self _)))
  exact .ite (setFlag_quiet (h1.keeps (keepMirror_keeps rfl (offQuiet_self s1)))) (.ite (setFlag_quiet h1) h1)

theorem noteSwitch_quiet : Quiet i (noteSwitch k d src dst s) := logEvent_quiet (setFlag_quiet (count1_quiet h))

theorem noteStop_quiet : Quiet i (noteStop k d src s) := logEvent_quiet (setFlag_quiet (count1_quiet h))

theorem restartLanes_quiet : Quiet i (restartLanes k e s) := .ite h (foldS_quiet h fun _ _ => laneStart_quiet)

theorem modDomain_quiet : Quiet i (modDomain s k e g) := h.keeps (modDomain_keeps rfl (offQuiet_self s))

theorem failDomain_quiet : Quiet i (failDomain k src e s) :=
  .ite (.ite (restartLanes_quiet (noteSwitch_quiet (modDomain_quiet h))) (noteStop_quiet (modDomain_quiet h))) h

theorem failOther_quiet : Quiet i (failOther k clock s) := by
  have hstop : ∀ d x, Quiet i (noteStop k d x s) := fun _ _ => noteStop_quiet h
  unfold failOther
  split
  · exact .ite (.ite ((hstop 7 2).keeps (pcieDown_keeps rfl rfl rfl rfl rfl (offQuiet_self _))) (hstop 7 2)) h
  · exact .ite ((hstop 7 3).trans { Quiet.refl _ with }) (hstop 7 3)
  · exact .ite (.ite (noteSwitch_quiet h) (hstop 7 4)) h
  · exact h

theorem failSource_quiet : Quiet i (failSource k clock test s) := by
  unfold failSource
  extract_lets s1 s2
  have h1 : Quiet i s1 := h.keeps (modMeter_keeps rfl (offQuiet_self s))
  have h2 : Quiet i s2 := logEvent_quiet (setFlag_quiet h1)
  exact failOther_quiet (linkChange_quiet (foldS_quiet h2 fun _ _ => failDomain_quiet))

/-- The loss of CDR lock on a line lane (R56, R421). -/
theorem lineCdrLost_quiet : Quiet i (lineCdrLost l s) := by
  unfold lineCdrLost
  extract_lets g s1
  have h1 : Quiet i s1 := .ite (loseBlockLock_quiet h) h
  clear_value g
  cases g with
  | some g => exact .ite (failSource_quiet h1) h1
  | none => exact h1

end

end Sys2Proof.Machine
end

section
/-!
PROOFS.  Clocks, power states and resets (O60).
-/
namespace Sys2Proof.Machine

/-! ## The power of the slices (R512 to R526) -/

section
variable {a b n : Nat} {k j : SliceId} {c : Fin 8} {p : SlicePower} {f : SlicePw → SlicePw} {g : Meter → Meter} {i : Nat} {v : Int}
  {code : BitVec 16} {sev : Severity} {source : Byte} {data : List Byte} {act : State → State} {s t : State}

/-- Every component but the power of the slices. -/
def offPower (c : Comp) : Bool := c != .power

theorem offPower_self (s : State) : Keeps offPower False s s := Keeps.refl _ s False.elim

theorem pwAt_congr (h : t.power = s.power) : pwAt t k = pwAt s k := congrArg (·.slices[k]) h

theorem power_setFlag : (setFlag a b s).power = s.power := (setFlag_keeps rfl rfl rfl rfl (offPower_self s)).same .power rfl

theorem power_logEvent : (logEvent code sev source data s).power = s.power :=
  (logEvent_keeps rfl rfl rfl rfl (offPower_self s)).same .power rfl

theorem pwAt_modPw_same : pwAt (modPw s k f) k = f (pwAt s k) := vmod_same ..

theorem pwAt_modPw_other (h : j ≠ k) : pwAt (modPw s k f) j = pwAt s j := vmod_other _ _ _ _ h

theorem meterOf_modMeter_same : meterOf (modMeter s k c g) k c = g (meterOf s k c) := by
  have hslice : pwAt (modMeter s k c g) k = { pwAt s k with meters := vmod (pwAt s k).meters c g } := pwAt_modPw_same
  exact (congrArg (·.meters[c]) hslice).trans (vmod_same ..)

/-- A change of links leaves the slices as its own change has them. -/
theorem power_linkChange : (linkChange act s).power = (act s).power := by
  unfold linkChange
  extract_lets s1
  have h1 : s1.power = (act s).power := (dropTransit_keeps rfl rfl rfl rfl rfl rfl rfl rfl
    (refreshReach_keeps rfl (offPower_self (act s)))).same .power rfl
  have hmirror : (keepMirror s1).power = s1.power := (keepMirror_keeps rfl (offPower_self s1)).same .power rfl
  split
  · rw [power_setFlag, hmirror, h1]
  · split
    · rw [power_setFlag, h1]
    · exact h1

/-- A slice changes its power state, and no other does (R526). -/
theorem power_setPower : (setPower k p s).power =
    { s.power with st := s.power.st.set k p, slices := vmod s.power.slices k fun x => { x with since := s.now } } := by
  unfold setPower
  extract_lets old _ s1 quiet
  split
  · rfl
  · exact power_logEvent

theorem st_setPower_same : (setPower k p s).power.st[k] = p := by
  rw [power_setPower]
  exact Vector.getElem_set_self ..

theorem st_setPower_other (h : j ≠ k) : (setPower k p s).power.st[j] = s.power.st[j] := by
  rw [power_setPower]
  exact Vector.getElem_set_ne k.isLt j.isLt fun e => h (Fin.ext e.symm)

theorem pwAt_setPower_same : pwAt (setPower k p s) k = { pwAt s k with since := s.now } := by
  rw [pwAt, power_setPower]
  exact vmod_same ..

/-! ### Clocks, levels and thermal actions (R515, R523, R525) -/

theorem pwAt_avsTimeoutEffect (j : SliceId) : pwAt (avsTimeoutEffect k s) j =
    pwAt (modPw s k fun x => { x with avs := none, unconfirmed := true, lastPoll := s.now }) j :=
  pwAt_congr (power_logEvent.trans power_setFlag)

/-- Slice `k` is changed without losing its cap, and no other slice is. -/
theorem stepDown_keepsCap (hcap : (pwAt s k).capped = true) :
    (pwAt (stepDown k s) k).capped = true ∧ ∀ j, j ≠ k → pwAt (stepDown k s) j = pwAt s j :=
  ⟨(congrArg SlicePw.capped pwAt_modPw_same).trans hcap, fun _ hj => pwAt_modPw_other hj⟩

theorem capped_noteTemp : (pwAt (noteTemp k i v s) k).capped = (pwAt s k).capped := by rw [noteTemp, pwAt_modPw_same]

theorem thermalThrottleEffect_caps : (pwAt (thermalThrottleEffect k i v s) k).capped = true ∧
    ∀ j, j ≠ k → pwAt (thermalThrottleEffect k i v s) j = pwAt s j := by
  unfold thermalThrottleEffect
  extract_lets s1 s2 s3
  have h1 : (pwAt s1 k).capped = (pwAt s k).capped := capped_noteTemp
  have hother : ∀ j, j ≠ k → pwAt s1 j = pwAt s j := fun j hj => pwAt_modPw_other hj
  split
  next hcap => exact ⟨h1.trans hcap, hother⟩
  · have h3 : ∀ j, pwAt s3 j = pwAt (modPw s1 k fun p => { p with capped := true }) j := fun j =>
      pwAt_congr (power_logEvent.trans power_setFlag)
    have hcap : (pwAt s3 k).capped = true := by rw [h3, pwAt_modPw_same]
    have hothers : ∀ j, j ≠ k → pwAt s3 j = pwAt s j := fun j hj => by rw [h3, pwAt_modPw_other hj, hother j hj]
    split
    · exact ⟨(stepDown_keepsCap hcap).1, fun j hj => ((stepDown_keepsCap hcap).2 j hj).trans (hothers j hj)⟩
    · exact ⟨hcap, hothers⟩

theorem thermalShutdownEffect_down : (thermalShutdownEffect k i v s).power.st[k] = .down ∧
    (pwAt (thermalShutdownEffect k i v s) k).shutdown = true := by
  unfold thermalShutdownEffect
  extract_lets s1 s2
  have h1 : (pwAt s1 k).shutdown = true := congrArg SlicePw.shutdown pwAt_modPw_same
  have hdark : (darken k .off s1).power = s1.power :=
    (darken_keeps rfl rfl rfl rfl rfl rfl rfl rfl rfl rfl rfl rfl rfl rfl rfl (offPower_self s1)).same .power rfl
  have h2 : s2.power = (setPower k .down (darken k .off s1)).power := power_linkChange
  have hend : (logEvent 0x0808 .critical (BitVec.ofNat 8 k.val) (thermalData k i v) (faultHalf k s2)).power = s2.power :=
    power_logEvent.trans ((faultHalf_keeps rfl (offPower_self s2)).same .power rfl)
  refine ⟨by rw [hend, h2, st_setPower_same], ?_⟩
  rw [pwAt_congr (hend.trans h2), pwAt_setPower_same]
  exact (congrArg SlicePw.shutdown (pwAt_congr hdark)).trans h1

/-! ### IDLE (R526) and the levels asked for (R537) -/

theorem st_idleEntryEffect (j : SliceId) : (idleEntryEffect k s).power.st[j] = (setPower k .idle s).power.st[j] := rfl

theorem st_idleExitEffect (j : SliceId) : (idleExitEffect k s).power.st[j] = (setPower k .run s).power.st[j] := rfl

/-- A change of the slices of a list is made once on each of them, and on no other. -/
theorem pwAt_foldS_modPw {l : List SliceId} (hn : l.Nodup) :
    pwAt (foldS l (fun j t => modPw t j f) s) k = if k ∈ l then f (pwAt s k) else pwAt s k := by
  split
  next hk =>
    obtain ⟨t, ht, hfold⟩ := foldS_acts_once (view := fun t => pwAt t k) (s := s) (f := fun j t => modPw t j f) hn hk
      fun j hj t => pwAt_modPw_other (Ne.symm hj)
    have hfold' : pwAt (foldS l (fun j t => modPw t j f) s) k = pwAt (modPw t k f) k := hfold
    have ht' : pwAt t k = pwAt s k := ht
    rw [hfold', pwAt_modPw_same, ht']
  next hk =>
    exact view_foldS (view := fun t => pwAt t k) fun j hj t => pwAt_modPw_other (ne_of_mem_of_not_mem hj hk).symm

theorem pwAt_dvfsSet {m : MboxId} {r : Request} : pwAt (finish m (dvfsSetApply r s)) k =
    if r.inMask k.val then { pwAt s k with levelReq := r.u8 0 } else pwAt s k := by
  have hfinish : (finish m (dvfsSetApply r s)).power = (dvfsSetApply r s).st.power := finish_keeps_answer.same .power rfl
  rw [pwAt_congr hfinish]
  refine (pwAt_foldS_modPw nodup_maskSlices).trans ?_
  simp only [mem_maskSlices]

end

/-! ## Removal (R551) -/

section
variable {g : GroupId} {l o : Lane} {s t : State}

/-- Lane `l` sends nothing. -/
def SendsNothing (l : Lane) (s : State) : Prop := (laneAt s l).out = .dark ∧ (laneAt s l).burst = none

theorem SendsNothing.of_lasting (h : Lasting s t) (hs : SendsNothing l s) : SendsNothing l t := by
  have hagrees := LaneAgrees.of_lastingLane (h.lane l)
  exact ⟨hagrees.out.trans hs.1, hagrees.burst.trans hs.2⟩

theorem sendsNothing_darkened (h : o = l ∨ SendsNothing l s) : SendsNothing l (modLane s o darkened) := by
  by_cases ho : l = o
  · subst ho
    unfold SendsNothing
    rw [laneAt_modLane_same]
    exact ⟨rfl, rfl⟩
  · unfold SendsNothing
    rw [laneAt_modLane_other _ _ _ _ ho]
    exact h.resolve_left (Ne.symm ho)

/-- A lane that goes dark sends nothing, nor does one that sent nothing before. -/
theorem sendsNothing_darkLane (h : o = l ∨ SendsNothing l s) : SendsNothing l (darkLane o s) := by
  unfold darkLane
  split
  next g _ =>
    obtain ⟨u, hu, heq⟩ := truncateBurst_eq (g := g) (lane := o) (s := s)
    rw [heq]
    exact (sendsNothing_darkened (h.imp_right fun hs => hs.of_lasting hu)).of_lasting (loseDevelopedWhere_lasting (.refl _))
  · exact sendsNothing_darkened h

theorem sendsNothing_darkLanes : SendsNothing l (foldS (List.finRange 32) darkLane s) :=
  foldS_establishes (P := SendsNothing l) (List.mem_finRange l) (fun _ => sendsNothing_darkLane (.inl rfl))
    fun _ _ ht => sendsNothing_darkLane (.inr ht)

theorem SendsNothing.of_quiet (h : Quiet s t) (hs : SendsNothing l s) : SendsNothing l t :=
  ⟨(h.sends l).1.trans hs.1, (h.sends l).2.trans hs.2⟩

theorem setPins_quiet {x : PinAll} (h : Quiet s t) : Quiet s { t with pins := x } := h.trans { Quiet.refl t with }

theorem removalEffect_dark : (removalEffect s).pins.removed = true ∧ ∀ l, SendsNothing l (removalEffect s) := by
  unfold removalEffect
  extract_lets s1 s2 _ s3
  have h2 : Quiet s1 s2 := (idleLanes_quiet (.refl s1)).keeps (abandonFlash_keeps rfl rfl rfl rfl rfl rfl (offQuiet_self _))
  have h3 : Quiet s1 s3 := setPins_quiet h2
  refine ⟨?_, fun l => sendsNothing_darkLanes.of_quiet (logEvent_quiet (setFlag_quiet h3))⟩
  have hpins : (logEvent 0x080C .critical 0xFF [] (setFlag aBoard 6 s3)).pins = s3.pins :=
    (logEvent_keeps (w := within [.counters, .flags, .log, .history]) rfl rfl rfl rfl setFlag_keeps_flags).same .pins rfl
  exact congrArg PinAll.removed hpins

end

/-! ## The PCIe function (R553) -/

section
variable {a b : Nat} {r : Record} {m n : MboxId} {e : Status} {x : List Byte} {s : State}

theorem evq_pushRecord : (pushRecord r s).ev.evq = s.ev.evq := by
  have hhistory : ∀ old, (pushHistory old s).ev.evq = s.ev.evq := fun old => by
    obtain ⟨-, -, -, hevq, -⟩ := (pushHistory_keeps (r := old) (w := within [.history]) (k := False) rfl (keeps_self _ s)).same .log rfl
    exact hevq
  unfold pushRecord
  extract_lets s1
  have h1 : s1.ev.evq = s.ev.evq := by
    unfold s1
    split
    · split
      · exact hhistory _
      · rfl
    · rfl
  exact h1

/-- While the event queue is disabled a record changes nothing of it (R480). -/
theorem evq_writeRecord (h : s.ev.evq.enabled = false) : (writeRecord r s).ev.evq = s.ev.evq := by
  have htakes : evqTakes r s = false := by rw [evqTakes, h, Bool.false_and]
  simp only [writeRecord, htakes, Bool.false_eq_true, if_false, evq_pushRecord]

theorem evq_setFlag (h : s.ev.evq.enabled = false) : (setFlag a b s).ev.evq = s.ev.evq := by
  unfold setFlag
  split
  · rfl
  · exact evq_writeRecord h

theorem boxAt_respond_other (h : n ≠ m) : boxAt (respond m e x s) n = boxAt s n := by
  have hmirror : ∀ a, boxAt (mirrorCopy m a s) n = boxAt s n := fun a => by
    unfold mirrorCopy
    split
    · exact boxAt_modBox_other _ _ _ _ h
    · rfl
  have hbox : ∀ u f, boxAt (modBox u m f) n = boxAt u n := fun u f => boxAt_modBox_other _ _ _ _ h
  calc boxAt (respond m e x s) n
    _ = boxAt (modBox (mirrorCopy m (stampResponse s e (boxAt s m).req.seq x) s) m
          fun b => { b with resp := stampResponse s e (boxAt s m).req.seq x, st := .done }) n := congrArg (·.boxes[n]) mail_respond
    _ = boxAt s n := (hbox _ _).trans (hmirror _)

/-- A mailbox that is PENDING after responses to some was so before and had none. -/
theorem pending_responds {ms : List MboxId} (h : (boxAt (foldS ms (fun m t => respond m e x t) s) n).st = .pending) :
    n ∉ ms ∧ (boxAt s n).st = .pending := by
  induction ms generalizing s with
  | nil => exact ⟨List.not_mem_nil, h⟩
  | cons m ms ih =>
    obtain ⟨hms, hst⟩ := ih h
    have hm : n ≠ m := fun hm => by
      rw [hm, st_respond] at hst
      cases hst
    rw [boxAt_respond_other hm] at hst
    exact ⟨fun hmem => (List.mem_cons.mp hmem).elim hm hms, hst⟩

/-- Where the PCIe function is reset nothing of the host's mailboxes waits, and its event queue is disabled. -/
theorem pcieDown_resets : (pcieDown s).ev.evq.enabled = false ∧ (pcieDown s).anchor.pcieUp = false ∧
    ∀ n : MboxId, n.val < 8 → (boxAt (pcieDown s) n).st ≠ .pending := by
  refine ⟨rfl, rfl, fun n hn hpending => ?_⟩
  obtain ⟨hms, hst⟩ := pending_responds hpending
  exact hms (List.mem_filter.mpr ⟨List.mem_finRange n, by simp [hn, hst]⟩)

theorem perstEffect_resets : (perstEffect s).ev.evq.enabled = false ∧ (perstEffect s).anchor.pcieUp = false ∧
    ∀ n : MboxId, n.val < 8 → (boxAt (perstEffect s) n).st ≠ .pending := by
  obtain ⟨hevq, hup, hbox⟩ := pcieDown_resets (s := s)
  have hanchor : (perstEffect s).anchor = (pcieDown s).anchor := setFlag_keeps_flags.same .anchor rfl
  have hmail : (perstEffect s).mail = (pcieDown s).mail := setFlag_keeps_flags.same .mail rfl
  refine ⟨?_, by rw [hanchor, hup], fun n hn => by rw [boxAt_congr hmail]; exact hbox n hn⟩
  rw [perstEffect, evq_setFlag hevq, hevq]

end

/-! ## The device after a reset (R534) -/

section
variable {cause : Nat} {power : Bool} {straps : Straps} {s u : State}

/-- In `t` the device is as in the reset state, with what a device reset keeps of `s` (R491, R492, R493). -/
def AfterReset (s t : State) : Prop :=
  t.regs = State.reset.regs ∧ t.trunk = State.reset.trunk ∧ t.path = State.reset.path ∧ t.crypto = State.reset.crypto ∧
    t.hbm = State.reset.hbm ∧ t.fabric = State.reset.fabric ∧ t.mail = State.reset.mail ∧ t.ev = State.reset.ev ∧
    (∀ i : Fin 8, t.crypto.keks[i] = none) ∧ SameIdentity s t ∧ t.fw.svnFloor = s.fw.svnFloor ∧
    t.fw.dirs = s.fw.dirs ∧ t.fw.banks = s.fw.banks

/-- Darkroom mode is the firmware's state and that of the lanes, of which a reset says nothing else. -/
theorem AfterReset.bootStart (h : AfterReset s u) : AfterReset s (bootStart u) := by
  by_cases hc : bootCause u = 0
  · rwa [Machine.bootStart, if_pos hc]
  · obtain ⟨hregs, htrunk, hpath, hcrypto, hhbm, hfabric, hmail, hev, hkeks, ⟨hpart, hserial, hfuses, hpending⟩, hfloor, hdirs, hbanks⟩ := h
    rw [Machine.bootStart, if_neg hc]
    exact ⟨hregs, htrunk, hpath, hcrypto, hhbm, hfabric, hmail, hev, hkeks, ⟨hpart, hserial, hfuses, hpending⟩, hfloor, hdirs, hbanks⟩

theorem reset_keks (i : Fin 8) : State.reset.crypto.keks[i] = none := by
  revert i
  decide

theorem afterReset_deviceReset : AfterReset s (deviceReset power cause straps s) :=
  AfterReset.bootStart ⟨rfl, rfl, rfl, rfl, rfl, rfl, rfl, rfl, reset_keks, ⟨rfl, rfl, rfl, rfl⟩, rfl, rfl, rfl⟩

end

/-- Settles O60.  The key-encryption keys are lost by R491, and the boot directory and the banks are kept by R492 and R493. -/
theorem clocksPowerAndResets : Obligations.ClocksPowerAndResets := by
  unfold Obligations.ClocksPowerAndResets
  refine ⟨fun k s => ⟨fun src hg => ?stable, fun hg => ?timeout, fun i v hg => ?throttle, fun hg => ?release, fun i v hg => ?shutdown,
    fun hg => ?idle, fun hg => ?leave, fun c hg => ?quarantine⟩, fun m r s hcur hchecks => ?level, fun s => ⟨fun hg => ?removal,
    fun hg => ?perst, fun straps c hc => ?reset⟩⟩
  case stable =>
    exact ⟨_, next_whenB hg, congrArg Meter.st meterOf_modMeter_same, fun j hj => pwAt_modPw_other hj,
      (modMeter_keeps rfl (keeps_self _ s)).onlyChanges⟩
  case timeout =>
    refine ⟨_, next_whenB hg, ?_, ?_, ?_, fun j hj => (pwAt_avsTimeoutEffect j).trans (pwAt_modPw_other hj)⟩ <;>
      rw [pwAt_avsTimeoutEffect, pwAt_modPw_same]
  case throttle => exact ⟨_, next_whenB hg, thermalThrottleEffect_caps⟩
  case release =>
    exact ⟨_, next_whenB hg, pwAt_modPw_same, fun j hj => pwAt_modPw_other hj, (modPw_keeps rfl (keeps_self _ s)).onlyChanges⟩
  case shutdown => exact ⟨_, next_whenB hg, thermalShutdownEffect_down⟩
  case idle => exact ⟨_, next_whenB hg, st_setPower_same, fun j hj => st_setPower_other hj⟩
  case leave => exact ⟨_, next_whenB hg, st_setPower_same, fun j hj => st_setPower_other hj⟩
  case quarantine =>
    exact ⟨_, next_whenB hg, pwAt_modPw_same, fun j hj => pwAt_modPw_other hj, (modPw_keeps rfl (keeps_self _ s)).onlyChanges⟩
  case level => exact ⟨_, next_runCommand hcur hchecks, fun k => pwAt_dvfsSet⟩
  case removal => exact ⟨_, next_whenB hg, removalEffect_dark⟩
  case perst => exact ⟨_, next_whenB hg, perstEffect_resets⟩
  case reset =>
    simp only [List.mem_cons, List.not_mem_nil, or_false] at hc
    obtain rfl | rfl := hc
    · exact ⟨_, next_whenB rfl, afterReset_deviceReset⟩
    · exact ⟨_, next_whenB rfl, afterReset_deviceReset⟩

end Sys2Proof.Machine
end

section
/-!
PROOFS.  The fabric (O53): HELLO, links, the database, routes, NOTIFY and the settings.
-/
namespace Sys2Proof.Machine

/-! ## Cells, counters and own changes leave every link as it was -/

section
variable {k n : Nat} {a : Fin 64} {l : FabLane} {x : CellOut} {cs : List CellOut} {high normal : Bool} {ty : Nat}
  {payload : List Byte} {i s : State} (h : Quiet i s)
include h

theorem ownChanged_quiet : Quiet i (ownChanged s) := setFabric_quiet h rfl rfl rfl

theorem pruneRx_quiet : Quiet i (pruneRx s) := setFabric_quiet h rfl rfl rfl

theorem useAlternate_quiet : Quiet i (useAlternate l a s) := by
  unfold useAlternate
  extract_lets r _ s1
  have h1 : Quiet i s1 := setFabric_quiet h rfl rfl rfl
  exact .ite h (setFlag_quiet (count1_quiet h1))

theorem putAhead_quiet : Quiet i (putAhead k cs s) := by
  unfold putAhead
  extract_lets target moved
  have hmoved : Quiet i moved := by
    refine foldS_quiet (ls := List.finRange 16) (g := fun l st =>
      let mine := cs.filter fun c => target c == some l && path s k (l.val / 2)
      if mine.isEmpty then st
      else fabDrain l (modFab st l fun y => { y with
        queues := Vector.ofFn fun q : Fin 3 => (mine.filter fun c => chClass c.header % 3 == q.val) ++ y.queues[q] }))
      h fun j t ht => ?_
    exact .ite ht (fabDrain_quiet (modFab_quiet ht))
  exact foldS_quiet hmoved fun _ _ => fabRoute_quiet

theorem countCell_quiet : Quiet i (countCell l n s) := count_quiet (count1_quiet (modFab_quiet h))

theorem takeXoff_quiet : Quiet i (takeXoff l high normal s) := fabDrain_quiet (modFab_quiet h)

theorem sendLocal_quiet : Quiet i (sendLocal ty payload l s) := fabQueue_quiet h

end

/-! ## One link changes (R436) -/

/-- From `s` to `t` the link of lane `l` has come to satisfy `P`, and no other link, nor the address setting, has changed. -/
structure LinkChanges (l : FabLane) (P : FabLaneSt → Prop) (s t : State) : Prop where
  own : P (linkPart (fabAt t l))
  others : ∀ o, o ≠ l → linkPart (fabAt t o) = linkPart (fabAt s o)
  setting : t.fabric.setting = s.fabric.setting

section
variable {l : FabLane} {P Q : FabLaneSt → Prop} {f : FabLaneSt → FabLaneSt} {cause : Nat} {s t u : State}

theorem fabAt_modFab_same : fabAt (modFab s l f) l = f (fabAt s l) := vmod_same ..

theorem fabAt_modFab_other {o : FabLane} (h : o ≠ l) : fabAt (modFab s l f) o = fabAt s o := vmod_other _ _ _ _ h

theorem LinkChanges.quiet (h : LinkChanges l P s t) (ht : Quiet t u) : LinkChanges l P s u where
  own := by rw [ht.link]; exact h.own
  others o ho := by rw [ht.link, h.others o ho]
  setting := ht.func.2.trans h.setting

theorem Quiet.linkChanges (h : Quiet s t) (hp : P (linkPart (fabAt s l))) : LinkChanges l P s t where
  own := by rw [h.link]; exact hp
  others o _ := h.link o
  setting := h.func.2

theorem LinkChanges.trans (h : LinkChanges l P s t) (h' : LinkChanges l Q t u) : LinkChanges l Q s u where
  own := h'.own
  others o ho := (h'.others o ho).trans (h.others o ho)
  setting := h'.setting.trans h.setting

theorem LinkChanges.mono (h : LinkChanges l P s t) (hpq : ∀ y, P y → Q y) : LinkChanges l Q s t := ⟨hpq _ h.own, h.others, h.setting⟩

theorem LinkChanges.adj_other (h : LinkChanges l P s t) {o : FabLane} (ho : o ≠ l) : (fabAt t o).adj = (fabAt s o).adj :=
  (congrArg FabLaneSt.adj (h.others o ho) :)

theorem linkChanges_modFab (hp : P (linkPart (f (fabAt s l)))) : LinkChanges l P s (modFab s l f) where
  own := by rw [fabAt_modFab_same]; exact hp
  others o ho := by rw [fabAt_modFab_other ho]
  setting := rfl

/-- A link that is not DOWN goes DOWN with the cause given; one that is DOWN stays so. -/
theorem takeDown_link : LinkChanges l (fun y => y.adj = .down ∧ ((fabAt s l).adj ≠ .down → y.cause = cause)) s (takeDown l cause s) := by
  unfold takeDown
  extract_lets y cells s1 s2 s3
  split
  next hdown =>
    have hadj : (fabAt s l).adj = .down := eq_of_beq hdown
    exact (modFab_quiet (.refl s)).linkChanges ⟨hadj, fun hne => absurd hadj hne⟩
  next hup =>
    have h0 : LinkChanges l (fun y => y.adj = .down ∧ ((fabAt s l).adj ≠ .down → y.cause = cause)) s (modFab s l (laneDown cause)) :=
      linkChanges_modFab ⟨rfl, fun _ => rfl⟩
    have h1 : Quiet (modFab s l (laneDown cause)) s1 := count1_quiet (setFlag_quiet (.refl _))
    have h2 : Quiet (modFab s l (laneDown cause)) s2 := foldS_quiet h1 fun _ _ => useAlternate_quiet
    have h3 : Quiet (modFab s l (laneDown cause)) s3 := putAhead_quiet h2
    exact h0.quiet (pruneRx_quiet (.ite (ownChanged_quiet h3) h3))

theorem raiseFull_link : LinkChanges l (fun y => y.adj = .full) s (raiseFull l s) :=
  (linkChanges_modFab (P := fun y => y.adj = .full) rfl).quiet (ownChanged_quiet (setFlag_quiet (.refl _)))

/-- A link in TWO_WAY stays there or becomes FULL. -/
theorem testFull_link (hp : (fabAt s l).adj = .twoWay) : LinkChanges l (fun y => y.adj = .twoWay ∨ y.adj = .full) s (testFull l s) := by
  unfold testFull
  extract_lets y
  split
  · exact raiseFull_link.mono fun _ => .inr
  · exact (Quiet.refl s).linkChanges (.inl hp)

theorem testFull_others : LinkChanges l (fun _ => True) s (testFull l s) := by
  unfold testFull
  extract_lets y
  split
  · exact raiseFull_link.mono fun _ _ => trivial
  · exact (Quiet.refl s).linkChanges trivial

theorem raiseTwoWay_link : LinkChanges l (fun y => y.adj = .twoWay ∨ y.adj = .full) s (raiseTwoWay l s) := by
  unfold raiseTwoWay
  extract_lets s1 s2
  have h1 : LinkChanges l (fun y => y.adj = .twoWay) s s1 := linkChanges_modFab rfl
  have h2 : LinkChanges l (fun y => y.adj = .twoWay) s s2 := h1.quiet (foldS_quiet (.refl s1) fun _ _ => sendLocal_quiet)
  have h3 : LinkChanges l (fun y => y.adj = .twoWay) s (modFab s2 l fun y => { y with lsasSent := true }) :=
    h2.quiet (modFab_quiet (.refl s2))
  exact h3.trans (testFull_link h3.own)

end

/-! ## A HELLO (R436, R438) -/

section
variable {l : FabLane} {b : List Byte} {P : FabLaneSt → Prop} {u s t : State}

/-- The DEVICE_ID that a HELLO gives, and the one it names as its neighbour. -/
def helloId (b : List Byte) : Wide := vecOfBytes 64 (b.take 8)
def helloNamed (b : List Byte) : Wide := vecOfBytes 64 ((b.drop 8).take 8)

/-- The partner, or this device's own function, is stopped. -/
def helloStopped (b : List Byte) (s : State) : Bool := natBit (leAt b 26 1) 2 || s.fabric.stopped

/-- The state as every HELLO of the right length leaves it first. -/
def helloHeard (l : FabLane) (b : List Byte) (s : State) : State :=
  modFab s l fun z => { z with lastHelloAt := s.now, aligned := true, neighStopped := natBit (leAt b 26 1) 2 }

/-- The link in INIT with the partner that a HELLO gives. -/
def linkInit (b : List Byte) (z : FabLaneSt) : FabLaneSt := { recordHello b z with adj := .init }

theorem helloAct_short (hlen : b.length ≠ 40) : helloAct l b s = s := if_pos hlen

theorem helloAct_eq (hlen : b.length = 40) : helloAct l b s =
    if helloId b = s.serial then
      setFlag aFabFlags 6 (modFab (if (fabAt s l).adj == .down || (fabAt s l).adj == .init then helloHeard l b s
        else takeDown l causeOneWay (helloHeard l b s)) l (linkInit b))
    else if helloStopped b s then takeDown l causeDisabled (helloHeard l b s)
    else match (fabAt s l).adj with
      | .down => modFab (helloHeard l b s) l (linkInit b)
      | .init =>
        if helloId b ≠ (fabAt s l).neighId then takeDown l causeOneWay (helloHeard l b s)
        else if helloNamed b == s.serial then raiseTwoWay l (modFab (helloHeard l b s) l (recordHello b))
        else modFab (helloHeard l b s) l (recordHello b)
      | _ =>
        if helloId b ≠ (fabAt s l).neighId ∨ (helloNamed b == s.serial) = false then takeDown l causeOneWay (helloHeard l b s)
        else testFull l (modFab (helloHeard l b s) l (recordHello b)) := if_neg (not_not_intro hlen)

theorem helloHeard_quiet : Quiet s (helloHeard l b s) := modFab_quiet (.refl s)

theorem adj_helloHeard : (fabAt (helloHeard l b s) l).adj = (fabAt s l).adj := helloHeard_quiet.adj_eq l

/-- What follows upon the HELLO heard. -/
theorem LinkChanges.of_helloHeard (h : LinkChanges l P (helloHeard l b s) t) : LinkChanges l P s t :=
  (helloHeard_quiet.linkChanges (P := fun _ => True) trivial).trans h

theorem helloTakeDown {cause : Nat} : LinkChanges l (fun y => y.adj = .down ∧ ((fabAt s l).adj ≠ .down → y.cause = cause)) s
    (takeDown l cause (helloHeard l b s)) := by
  have h := (takeDown_link (s := helloHeard l b s) (l := l) (cause := cause)).of_helloHeard
  rwa [adj_helloHeard] at h

theorem linkInit_link (h : LinkChanges l P s t) :
    LinkChanges l (fun y => y.adj = .init ∧ y.neighId = helloId b) s (modFab t l (linkInit b)) :=
  h.trans (linkChanges_modFab (P := fun y => y.adj = .init ∧ y.neighId = helloId b) ⟨rfl, rfl⟩)

/-- The device's own HELLO raises the lane to INIT (R438). -/
theorem helloAct_own (hlen : b.length = 40) (hid : helloId b = s.serial) :
    LinkChanges l (fun y => y.adj = .init) s (helloAct l b s) := by
  rw [helloAct_eq hlen, if_pos hid]
  have hinit : LinkChanges l (fun _ => True) s (if (fabAt s l).adj == .down || (fabAt s l).adj == .init then helloHeard l b s
      else takeDown l causeOneWay (helloHeard l b s)) := by
    split
    · exact helloHeard_quiet.linkChanges trivial
    · exact helloTakeDown.mono fun _ _ => trivial
  exact ((linkInit_link hinit).mono fun _ hy => hy.1).quiet (setFlag_quiet (.refl _))

theorem helloAct_stopped (hlen : b.length = 40) (hid : helloId b ≠ s.serial) (hstopped : helloStopped b s = true) :
    LinkChanges l (fun y => y.adj = .down ∧ ((fabAt s l).adj ≠ .down → y.cause = causeDisabled)) s (helloAct l b s) := by
  rw [helloAct_eq hlen, if_neg hid, if_pos hstopped]
  exact helloTakeDown

section
variable (hlen : b.length = 40) (hid : helloId b ≠ s.serial) (hrun : helloStopped b s = false)
include hlen hid hrun

theorem helloAct_down (hadj : (fabAt s l).adj = .down) :
    LinkChanges l (fun y => y.adj = .init ∧ y.neighId = helloId b) s (helloAct l b s) := by
  rw [helloAct_eq hlen, if_neg hid, hrun, if_neg Bool.false_ne_true]
  simp only [hadj]
  exact linkInit_link (helloHeard_quiet.linkChanges (P := fun _ => True) trivial)

theorem helloAct_init (hadj : (fabAt s l).adj = .init) (hsame : helloId b = (fabAt s l).neighId) :
    LinkChanges l (fun y => if helloNamed b = s.serial then y.adj = .twoWay ∨ y.adj = .full else y.adj = .init) s (helloAct l b s) := by
  have hrecorded : LinkChanges l (fun y => y.adj = .init) s (modFab (helloHeard l b s) l (recordHello b)) :=
    (linkChanges_modFab (P := fun y => y.adj = .init) (by exact adj_helloHeard.trans hadj)).of_helloHeard
  rw [helloAct_eq hlen, if_neg hid, hrun, if_neg Bool.false_ne_true]
  simp only [hadj]
  rw [if_neg (not_not_intro hsame)]
  by_cases hnamed : helloNamed b = s.serial
  · simp only [hnamed, beq_self_eq_true, if_true]
    exact hrecorded.trans raiseTwoWay_link
  · simp only [hnamed, beq_iff_eq, if_false]
    exact hrecorded

/-- A link not DOWN goes DOWN as ONE_WAY where the partner has changed, or, past INIT, no longer names this device. -/
theorem helloAct_oneWay (hadj : (fabAt s l).adj ≠ .down)
    (hlost : helloId b ≠ (fabAt s l).neighId ∨ ((fabAt s l).adj = .twoWay ∨ (fabAt s l).adj = .full) ∧ helloNamed b ≠ s.serial) :
    LinkChanges l (fun y => y.adj = .down ∧ y.cause = causeOneWay) s (helloAct l b s) := by
  have hdown : LinkChanges l (fun y => y.adj = .down ∧ y.cause = causeOneWay) s (takeDown l causeOneWay (helloHeard l b s)) :=
    helloTakeDown.mono fun y hy => ⟨hy.1, hy.2 hadj⟩
  rw [helloAct_eq hlen, if_neg hid, hrun, if_neg Bool.false_ne_true]
  split
  next hd => exact absurd hd hadj
  next hi =>
    rw [hi] at hlost
    rw [if_pos (hlost.resolve_right fun h => by simp at h)]
    exact hdown
  next =>
    rw [if_pos (hlost.imp_right fun h => beq_eq_false_iff_ne.mpr h.2)]
    exact hdown

end

/-- A HELLO changes no other lane's link. -/
theorem helloAct_others : LinkChanges l (fun _ => True) s (helloAct l b s) := by
  by_cases hlen : b.length = 40
  · have hheard : LinkChanges l (fun _ => True) s (helloHeard l b s) := helloHeard_quiet.linkChanges trivial
    have hdown : ∀ c, LinkChanges l (fun _ => True) s (takeDown l c (helloHeard l b s)) := fun _ => helloTakeDown.mono fun _ _ => trivial
    have hinit : ∀ t, LinkChanges l (fun _ => True) s t → LinkChanges l (fun _ => True) s (modFab t l (linkInit b)) :=
      fun _ ht => (linkInit_link ht).mono fun _ _ => trivial
    have hrecorded : LinkChanges l (fun _ => True) s (modFab (helloHeard l b s) l (recordHello b)) :=
      hheard.trans (linkChanges_modFab trivial)
    rw [helloAct_eq hlen]
    split
    · refine (hinit _ ?_).quiet (setFlag_quiet (.refl _))
      split
      · exact hheard
      · exact hdown _
    · split
      · exact hdown _
      · split
        · exact hinit _ hheard
        · split
          · exact hdown _
          · split
            · exact hrecorded.trans (raiseTwoWay_link.mono fun _ _ => trivial)
            · exact hrecorded
        · split
          · exact hdown _
          · exact hrecorded.trans testFull_others
  · rw [helloAct_short hlen]
    exact (Quiet.refl s).linkChanges trivial

/-- What the counts of a cell and its XOFF bits leave of what a HELLO reads (R439). -/
def helloTaken (l : FabLane) (x : Hello) (s : State) : State := takeXoff l x.xoffHigh x.xoffNormal (countCell l x.bytes.length s)

theorem helloTaken_quiet {x : Hello} : Quiet s (helloTaken l x s) := takeXoff_quiet (countCell_quiet (.refl s))

theorem serial_helloTaken {x : Hello} : (helloTaken l x s).serial = s.serial := by
  have h : Keeps (fun _ => true) False s (helloTaken l x s) := by
    apply takeXoff_keeps (h := by apply countCell_keeps (h := Keeps.refl _ s False.elim) <;> rfl) <;> rfl
  exact h.ident.2.1

/-- The part of the statement about a HELLO. -/
theorem exec_hello {x : Hello} (hguard : helloGuard l s = true) :
    ∃ t, exec (.hello l x) s = .next t ∧ (∀ o, o ≠ l → (fabAt t o).adj = (fabAt s o).adj) ∧
      (x.bytes.length ≠ 40 → (fabAt t l).adj = (fabAt s l).adj) ∧
      (x.bytes.length = 40 → helloId x.bytes = s.serial → (fabAt t l).adj = .init) ∧
      (x.bytes.length = 40 → helloId x.bytes ≠ s.serial → helloStopped x.bytes s = true →
        (fabAt t l).adj = .down ∧ ((fabAt s l).adj ≠ .down → (fabAt t l).cause = 7)) ∧
      (x.bytes.length = 40 → helloId x.bytes ≠ s.serial → helloStopped x.bytes s = false →
        ((fabAt s l).adj = .down → (fabAt t l).adj = .init ∧ (fabAt t l).neighId = helloId x.bytes) ∧
        ((fabAt s l).adj = .init → helloId x.bytes = (fabAt s l).neighId →
          if helloNamed x.bytes = s.serial then (fabAt t l).adj = .twoWay ∨ (fabAt t l).adj = .full else (fabAt t l).adj = .init) ∧
        ((fabAt s l).adj ≠ .down → helloId x.bytes ≠ (fabAt s l).neighId → (fabAt t l).adj = .down ∧ (fabAt t l).cause = 4) ∧
        ((fabAt s l).adj = .twoWay ∨ (fabAt s l).adj = .full → helloNamed x.bytes ≠ s.serial →
          (fabAt t l).adj = .down ∧ (fabAt t l).cause = 4)) := by
  have hq : Quiet s (helloTaken l x s) := helloTaken_quiet
  have hstopped : helloStopped x.bytes (helloTaken l x s) = helloStopped x.bytes s := by
    rw [helloStopped, hq.func.1, helloStopped]
  refine ⟨helloAct l x.bytes (helloTaken l x s), next_whenB hguard, fun o ho => (helloAct_others.adj_other ho).trans (hq.adj_eq o), ?_⟩
  rw [← hq.adj_eq l, ← hq.neighId_eq l, ← hstopped, ← serial_helloTaken (l := l) (x := x)]
  generalize helloTaken l x s = u
  refine ⟨fun hlen => by rw [helloAct_short hlen], fun hlen hid => (helloAct_own hlen hid).own,
    fun hlen hid hstop => (helloAct_stopped hlen hid hstop).own, fun hlen hid hrun => ⟨fun hadj => ?_, fun hadj hsame => ?_,
      fun hadj hlost => ?_, fun hadj hlost => ?_⟩⟩
  · exact (helloAct_down hlen hid hrun hadj).own
  · exact (helloAct_init hlen hid hrun hadj hsame).own
  · exact (helloAct_oneWay hlen hid hrun hadj (.inl hlost)).own
  · exact (helloAct_oneWay hlen hid hrun (fun hd => by rw [hd] at hadj; simp at hadj) (.inr ⟨hadj, hlost⟩)).own

end

/-! ## Links that go DOWN, quiet lanes and the database (R436, R441, R443, R453) -/

section
variable {l : FabLane} {a b n : Nat} {d e : Wide} {c : FabDownCause} {s : State}

theorem fabric_setFlag : (setFlag a b s).fabric = s.fabric := setFlag_keeps_flags.same .fabric rfl

/-- The part of the statement about the loss of a link. -/
theorem exec_fabricLinkDown (hguard : fabricLinkDownGuard l c s = true) : ∃ t, exec (.fabricLinkDown l c) s = .next t ∧
    (fabAt t l).adj = .down ∧ (fabAt t l).cause = downCode c ∧ (∀ o, o ≠ l → (fabAt t o).adj = (fabAt s o).adj) := by
  have hup : (fabAt s l).adj ≠ .down := by
    simp only [fabricLinkDownGuard, Bool.and_eq_true, bne_iff_ne] at hguard
    exact hguard.1
  have hdown : LinkChanges l (fun y => y.adj = .down ∧ y.cause = downCode c) s (takeDown l (downCode c) s) :=
    takeDown_link.mono fun y hy => ⟨hy.1, hy.2 hup⟩
  have heffect : LinkChanges l (fun y => y.adj = .down ∧ y.cause = downCode c) s (fabricLinkDownEffect l c s) := by
    unfold fabricLinkDownEffect
    extract_lets s1
    split
    · exact hdown.quiet (modFab_quiet (.refl s1))
    · exact hdown
  exact ⟨_, next_whenB hguard, heffect.own.1, heffect.own.2, fun o ho => heffect.adj_other ho⟩

theorem fabricCellRxEffect_bad {x : Cell} (hbad : cellOk x = false) : fabricCellRxEffect l x s = count1 (aFabLane l 0x20) s := by
  rw [fabricCellRxEffect, hbad]
  rfl

/-- The root follows the database and leaves it (R440). -/
theorem refreshRoot_database : (refreshRoot s).fabric.lsas = s.fabric.lsas ∧ (refreshRoot s).fabric.dbChanged = s.fabric.dbChanged := by
  unfold refreshRoot
  extract_lets r
  split
  · exact ⟨rfl, rfl⟩
  · rw [fabric_setFlag]
    exact ⟨rfl, rfl⟩

/-- An LSA that is removed is not found, and every other is. -/
theorem find_filter_device {xs : List LsaHeld} : (xs.filter fun y => y.device != d).find? (fun y => y.device == e) =
    if e = d then none else xs.find? fun y => y.device == e := by
  rw [List.find?_filter]
  split
  next he =>
    subst he
    exact List.find?_eq_none.mpr fun y _ => by simp
  next he =>
    congr 1
    funext y
    by_cases hy : y.device = e
    · simp [hy, he]
    · simp [hy]

/-- The part of the statement about an LSA that is not refreshed. -/
theorem exec_lsaExpiry (hguard : lsaExpiryGuard d s = true) : ∃ t, exec (.lsaExpiry d) s = .next t ∧ lsaAt t d = none ∧
    (∀ e, e ≠ d → lsaAt t e = lsaAt s e) ∧ t.fabric.dbChanged = true := by
  have hlsas : (lsaExpiryEffect d s).fabric.lsas = s.fabric.lsas.filter (fun y => y.device != d) ∧
      (lsaExpiryEffect d s).fabric.dbChanged = true := by
    unfold lsaExpiryGuard at hguard
    unfold lsaExpiryEffect
    split
    · exact refreshRoot_database
    next hnone => simp [hnone] at hguard
  have hat : ∀ e, lsaAt (lsaExpiryEffect d s) e = if e = d then none else lsaAt s e := fun e => by
    rw [lsaAt, hlsas.1, find_filter_device, lsaAt]
  exact ⟨_, next_whenB hguard, (hat d).trans (if_pos rfl), fun e he => (hat e).trans (if_neg he), hlsas.2⟩

end

/-! ## The route table (R444) -/

section
variable {l : List Nat} {m : BitVec 16} {i n : Nat} {costs : List (Nat × Nat)} {s : State}

/-- The mask of lanes has bits of those lanes only. -/
theorem getLsbD_laneMask (h : (l.foldl (fun m n => m ||| BitVec.ofNat 16 (2 ^ n)) m).getLsbD i = true) :
    m.getLsbD i = true ∨ i ∈ l := by
  induction l generalizing m with
  | nil => exact .inl h
  | cons n l ih =>
    rcases ih h with hm | hl
    · rw [BitVec.getLsbD_or, Bool.or_eq_true, BitVec.getLsbD_ofNat, Nat.testBit_two_pow] at hm
      refine hm.imp_right fun hn => ?_
      simp only [Bool.and_eq_true, decide_eq_true_eq] at hn
      exact hn.2 ▸ List.mem_cons_self ..
    · exact .inr (List.mem_cons_of_mem _ hl)

/-- The lanes of a mask. -/
def maskLanes (m : BitVec 16) : List Nat := (List.range 16).filter fun i => m.getLsbD i

theorem length_maskLanes_zero : (maskLanes 0).length ≤ 4 := by decide

/-- At most four lanes are chosen. -/
theorem length_bestLanes : (maskLanes (bestLanes costs).1).length ≤ 4 := by
  unfold bestLanes
  split
  · exact length_maskLanes_zero
  next c _ =>
    extract_lets lanes
    have hsub : maskLanes (lanes.foldl (fun m n => m ||| BitVec.ofNat 16 (2 ^ n)) 0) ⊆ lanes := fun i hi =>
      (getLsbD_laneMask (List.mem_filter.mp hi).2).resolve_left (by simp)
    have hnodup : (maskLanes (lanes.foldl (fun m n => m ||| BitVec.ofNat 16 (2 ^ n)) 0)).Nodup := List.nodup_range.filter _
    exact (hnodup.subperm hsub).length_le.trans (List.length_take_le ..)

theorem length_routeEntry {edges : List FabEdge} {target : Wide} : (maskLanes (routeEntry s edges target).primary).length ≤ 4 ∧
    (maskLanes (routeEntry s edges target).alternate).length ≤ 4 := by
  unfold routeEntry
  extract_lets ids own p inPrimary near a b
  refine ⟨length_bestLanes, ?_⟩
  show (maskLanes (if a.1 = 0 then b.1 else a.1)).length ≤ 4
  split
  · exact length_bestLanes
  · exact length_bestLanes

theorem length_newRoutes (a : Fin 64) : (maskLanes (newRoutes s)[a].primary).length ≤ 4 ∧
    (maskLanes (newRoutes s)[a].alternate).length ≤ 4 := by
  have hentry : (newRoutes s)[a] = match addressHolder s a.val with
      | some d => if d = s.serial then { device := d, cost := 0 } else routeEntry s (fabEdges s) d
      | none => {} := Vector.getElem_ofFn ..
  rw [hentry]
  split
  · split
    · exact ⟨length_maskLanes_zero, length_maskLanes_zero⟩
    · exact length_routeEntry
  · exact ⟨length_maskLanes_zero, length_maskLanes_zero⟩

/-- The contexts that go are no part of the route table. -/
theorem routes_pruned {old : Vector FabRoute 64} : (pruneRx (dropMoved old s)).fabric.routes = s.fabric.routes ∧
    (pruneRx (dropMoved old s)).fabric.dbChanged = s.fabric.dbChanged := ⟨rfl, rfl⟩

theorem fabric_routeRecomputeEffect : (routeRecomputeEffect s).fabric.routes = newRoutes s ∧
    (routeRecomputeEffect s).fabric.dbChanged = false := by
  unfold routeRecomputeEffect
  extract_lets _ s1
  rw [routes_pruned.1, routes_pruned.2, fabric_setFlag]
  exact ⟨rfl, rfl⟩

end

/-! ## NOTIFY and ACK (R451) -/

section
variable {g k : GroupId} {src seq : Nat} {p : Pair} {q : Nat × Nat × Nat} {f : PairSt → PairSt} {s : State}

theorem protAt_modProt_same : protAt (modProt s g f) g = f (protAt s g) := congrArg GroupSt.prot (groupAt_modGroup_same ..)

theorem protAt_modProt_other (h : k ≠ g) : protAt (modProt s g f) k = protAt s k :=
  congrArg GroupSt.prot (groupAt_modGroup_other _ _ _ _ h)

/-- One group's NOTIFY ends where the ACK echoes it. -/
def ackGroup (src seq : Nat) (g : GroupId) (s : State) : State :=
  match (groupAt s g).pair, (protAt s g).notify with
  | some p, some (q, _, _) => if p.peer = src ∧ q = seq then modProt s g fun x => { x with notify := none } else s
  | _, _ => s

theorem ackAct_eq : ackAct src seq s = foldS (List.finRange 4) (ackGroup src seq) s := rfl

theorem groupAt_ackGroup_other (h : g ≠ k) : groupAt (ackGroup src seq g s) k = groupAt s k := by
  unfold ackGroup
  split
  · split
    · exact groupAt_modGroup_other _ _ _ _ h.symm
    · rfl
  · rfl

theorem notify_ackGroup (hpair : (groupAt s g).pair = some p) (hnotify : (protAt s g).notify = some q) :
    (protAt (ackGroup src seq g s) g).notify = if p.peer = src ∧ q.1 = seq then none else some q := by
  unfold ackGroup
  simp only [hpair, hnotify]
  split
  · rw [protAt_modProt_same]
  · exact hnotify

theorem notify_ackAct (hpair : (groupAt s g).pair = some p) (hnotify : (protAt s g).notify = some q) :
    (protAt (ackAct src seq s) g).notify = if p.peer = src ∧ q.1 = seq then none else some q := by
  obtain ⟨t, ht, hfold⟩ := foldS_acts_once (view := fun t => groupAt t g) (s := s) (f := ackGroup src seq) (List.nodup_finRange 4)
    (List.mem_finRange g) fun k hk t => groupAt_ackGroup_other hk
  have ht' : groupAt t g = groupAt s g := ht
  rw [ackAct_eq, protAt]
  rw [show groupAt (foldS (List.finRange 4) (ackGroup src seq) s) g = groupAt (ackGroup src seq g t) g from hfold]
  exact notify_ackGroup (by rw [ht', hpair]) (by rw [protAt, ht', ← protAt, hnotify])

end

/-! ## FABRIC_SET and FABRIC_ROUTE_READ (R454, R455) -/

section
variable {m : MboxId} {r : Request} {l o : FabLane} {d : Done} {s : State}

theorem fabric_finish : (finish m d).fabric = d.st.fabric := finish_keeps_answer.same .fabric rfl

/-- A lane that is enabled and costs as the request says. -/
def LaneSet (r : Request) (l : FabLane) (s : State) : Prop :=
  (fabAt s l).enabled = natBit (fsMask r) l.val ∧ (fabAt s l).cost = r.u16 (8 + 2 * l.val)

theorem setFabLane_link : LinkChanges l (fun y => y.enabled = natBit (fsMask r) l.val ∧ y.cost = r.u16 (8 + 2 * l.val)) s
    (setFabLane r l s) := by
  unfold setFabLane
  extract_lets on s1 s2
  have h1 : LinkChanges l (fun _ => True) s s1 := by
    unfold s1
    split
    · exact takeDown_link.mono fun _ _ => trivial
    · exact (Quiet.refl s).linkChanges trivial
  have h2 : LinkChanges l (fun _ => True) s s2 := h1.quiet (.ite (ownChanged_quiet (.refl s1)) (.refl s1))
  exact h2.trans (linkChanges_modFab (P := fun y => y.enabled = natBit (fsMask r) l.val ∧ y.cost = r.u16 (8 + 2 * l.val)) ⟨rfl, rfl⟩)

theorem laneSet_setFabLane (h : LaneSet r l s) : LaneSet r l (setFabLane r o s) := by
  by_cases ho : l = o
  · subst ho
    exact setFabLane_link.own
  · have hlink := (setFabLane_link (r := r) (l := o) (s := s)).others l ho
    exact ⟨(congrArg FabLaneSt.enabled hlink :).trans h.1, (congrArg FabLaneSt.cost hlink :).trans h.2⟩

theorem laneSet_setFabLanes : LaneSet r l (foldS (List.finRange 16) (setFabLane r) s) :=
  foldS_establishes (P := LaneSet r l) (List.mem_finRange l) (fun _ => setFabLane_link.own) fun _ _ => laneSet_setFabLane

theorem setting_setFabLanes : (foldS (List.finRange 16) (setFabLane r) s).fabric.setting = s.fabric.setting :=
  foldS_induction (P := fun t => t.fabric.setting = s.fabric.setting) (fun _ _ ht => setFabLane_link.setting.trans ht) rfl

theorem fabric_fabricSet : (finish m (fabricSetApply r s)).fabric = { (foldS (List.finRange 16) (setFabLane r) s).fabric with
    settingPend := if s.fabric.stopped then some (r.u8 0) else (foldS (List.finRange 16) (setFabLane r) s).fabric.settingPend,
    lpi := natBit (r.u8 1) 0, ttl := r.u8 2, prioClass := BitVec.ofNat 16 (r.u16 6) } := fabric_finish.trans rfl

/-- The part of the statement about FABRIC_SET. -/
theorem exec_fabricSet (hcur : current 0x0A00 s = some (m, r)) (hchecks : firstFailing (fabricSetChecks r s) = none) :
    ∃ t, exec .fabricSet s = .next t ∧
      (∀ l, (fabAt t l).enabled = natBit (fsMask r) l.val ∧ (fabAt t l).cost = r.u16 (8 + 2 * l.val)) ∧
      t.fabric.setting = s.fabric.setting ∧ (s.fabric.stopped = true → t.fabric.settingPend = some (r.u8 0)) ∧
      t.fabric.lpi = natBit (r.u8 1) 0 ∧ t.fabric.ttl = r.u8 2 ∧ t.fabric.prioClass = BitVec.ofNat 16 (r.u16 6) := by
  refine ⟨_, next_runCommand hcur hchecks, fun l => ?_, ?_, fun hstopped => ?_, ?_, ?_, ?_⟩
  · rw [fabAt, fabric_fabricSet]
    exact laneSet_setFabLanes (r := r) (s := s)
  · rw [fabric_fabricSet]
    dsimp only
    exact setting_setFabLanes
  · rw [fabric_fabricSet]
    exact if_pos hstopped
  · rw [fabric_fabricSet]
  · rw [fabric_fabricSet]
  · rw [fabric_fabricSet]

theorem length_routeBytes (a : Nat) : (routeBytes s a).length = 16 := by
  simp only [routeBytes, List.length_append, List.length_cons, List.length_nil, length_toLe]

/-- The part of the statement about FABRIC_ROUTE_READ. -/
theorem exec_fabricRouteRead (hcur : current 0x0A01 s = some (m, r)) (hchecks : firstFailing (fabricRouteReadChecks r s) = none)
    (hfence : r.fenceAfter = false) : ∃ t, exec .fabricRouteRead s = .next t ∧
      (boxAt t m).resp.payload.length = 16 * r.u8 1 ∧ t.fabric = s.fabric := by
  refine ⟨_, next_runCommand hcur hchecks, ?_, fabric_finish⟩
  have hbox : (boxAt (fabricRouteReadApply r s).st m).req.fenceAfter = false := by
    rw [← hfence]
    exact congrArg Request.fenceAfter (req_of_current hcur)
  rw [(resp_finish hbox).1]
  simp only [fabricRouteReadApply, List.length_flatMap, length_routeBytes, List.map_const', List.sum_replicate, List.length_range,
    smul_eq_mul, Nat.mul_comm]

end

/-- Settles O53.  That a HELLO to a stopped fabric leaves the lane DOWN as DISABLED is the model's choice of log 87, that one of a
changed DEVICE_ID takes a lane in INIT DOWN that of log 101; the device's own HELLO is R438. -/
theorem fabricLinksAndRoutes : Obligations.FabricLinksAndRoutes := by
  unfold Obligations.FabricLinksAndRoutes
  refine ⟨fun l h s => exec_hello, fun l s => ⟨fun c => exec_fabricLinkDown, fun c hg hbad => ?_, fun hg => next_whenB hg⟩,
    fun s => ⟨fun a hg => next_whenB hg, fun d => exec_lsaExpiry, fun hg => ?_, fun g hg => ?_, fun src seq => ?_⟩,
    fun m r s => ⟨exec_fabricSet, exec_fabricRouteRead⟩⟩
  · exact (next_whenB hg).trans (congrArg Host.Outcome.next (fabricCellRxEffect_bad hbad))
  · refine ⟨_, next_whenB hg, fabric_routeRecomputeEffect.1, fabric_routeRecomputeEffect.2, fun a => ?_⟩
    rw [fabric_routeRecomputeEffect.1]
    exact length_newRoutes a
  · have hprot : ∀ k, protAt (notifyFailEffect g s) k = protAt (modProt s g fun x => { x with notify := none, notifyFail := true }) k :=
      fun k => congrArg GroupSt.prot groupAt_setFlag
    refine ⟨_, next_whenB hg, ?_, ?_, getLsbD_setFlag (by decide) (by decide), fun k hk => (hprot k).trans (protAt_modProt_other hk)⟩
    · rw [hprot, protAt_modProt_same]
    · rw [hprot, protAt_modProt_same]
  · exact ⟨_, rfl, fun g p q => notify_ackAct⟩

end Sys2Proof.Machine
end

section
/-!
PROOFS.  Serial lanes (O52): locks, DEEP, the checker, loops and patterns.
-/
namespace Sys2Proof.Machine

/-! ## Serial lanes: what an operation does to them and to their locks (R415, R421) -/

section
variable {a b : Nat} {n m : LaneNo} {f : SerialLane → SerialLane} {d : Done} {q : MboxId} {i s t : State}

/-- Every component but the serial lanes. -/
def offSerdes (c : Comp) : Bool := c != .serdes

theorem offSerdes_self (s : State) : Keeps offSerdes False s s := Keeps.refl _ s False.elim

theorem serialAt_congr (h : t.serdes = s.serdes) : serialAt t n = serialAt s n := congrArg (·.lanes[n]) h

theorem serdes_setFlag : (setFlag a b s).serdes = s.serdes := setFlag_keeps_flags.same .serdes rfl

theorem serdes_finish : (finish q d).serdes = d.st.serdes := finish_keeps_answer.same .serdes rfl

theorem serialAt_modSerial_same : serialAt (modSerial s n f) n = f (serialAt s n) := vmod_same ..

theorem serialAt_modSerial_other (h : m ≠ n) : serialAt (modSerial s n f) m = serialAt s m := vmod_other _ _ _ _ h

theorem aLneFlags_gt (n : LaneNo) : aEvqFlags < aLneFlags n := by
  simp only [aEvqFlags, aLneFlags, sliceReg]
  omega

theorem aLne_ne_aEvqLost (n : LaneNo) (off : Nat) : aLne n off ≠ aEvqLost := by
  simp only [aEvqLost, aLne, sliceReg]
  omega

/-- A lane that starts: its locks are gone and its time runs from now; no other lane changes (R421). -/
def startedLane (now : Nat) (x : SerialLane) : SerialLane := { x with startAt := now, chkLock := false }

theorem serdes_laneStart : (laneStart n s).serdes =
    { s.serdes with cdrLock := s.serdes.cdrLock.set n false, lanes := vmod s.serdes.lanes n (startedLane s.now) } := by
  unfold laneStart
  extract_lets _ s1 s2
  split
  · rfl
  · split
    · exact (loseBlockLock_keeps rfl rfl rfl rfl rfl rfl rfl rfl rfl rfl rfl rfl rfl rfl (offSerdes_self s2)).same .serdes rfl
    · rfl
  · rfl
  · rfl

theorem serialAt_laneStart_same : serialAt (laneStart n s) n = startedLane s.now (serialAt s n) := by
  rw [serialAt, serdes_laneStart]
  exact vmod_same ..

theorem serialAt_laneStart_other (h : m ≠ n) : serialAt (laneStart n s) m = serialAt s m := by
  rw [serialAt, serdes_laneStart]
  exact vmod_other _ _ _ _ h

theorem serdes_testDown : (testDown n s).serdes = s.serdes := by
  unfold testDown
  split
  · split
    · exact (takeDown_keeps rfl rfl rfl rfl rfl rfl rfl rfl rfl (offSerdes_self s)).same .serdes rfl
    · rfl
  · rfl

end

/-! ## CDR lock (R421) and DEEP (R422, R423) -/

section
variable {l : SerialRef} {n m : LaneNo} {i s : State}

theorem loseChk_quiet (h : Quiet i s) : Quiet i (loseChk n s) :=
  .ite (setFlag_quiet (count1_quiet (modSerial_quiet h fun _ _ => rfl))) h

theorem chkLock_loseChk : (serialAt (loseChk n s) n).chkLock = false := by
  unfold loseChk
  split
  · rw [serialAt_congr serdes_setFlag]
    exact congrArg SerialLane.chkLock serialAt_modSerial_same
  next h => exact Bool.not_eq_true _ ▸ h

theorem cdrLock_loseChk : (loseChk n s).serdes.cdrLock = s.serdes.cdrLock := by
  unfold loseChk
  split
  · rw [serdes_setFlag]
    rfl
  · rfl

/-- The part of the statement about CDR lock gained. -/
theorem exec_cdrLockGained (hguard : cdrLockGainedGuard l s = true) : ∃ t, exec (.cdrLockGained l) s = .next t ∧
    t.serdes = { s.serdes with cdrLock := s.serdes.cdrLock.set (serialNo l) true } ∧
    (flagWord t (aLneFlags (serialNo l))).getLsbD 1 = true ∧ OnlyChanges [.counters, .flags, .log, .serdes, .history] s t :=
  ⟨_, next_whenB hguard, serdes_setFlag, getLsbD_setFlag (aLneFlags_gt _) (by decide),
    (cdrLockGainedEffect_keeps rfl rfl rfl rfl rfl (keeps_self _ s)).onlyChanges⟩

/-- The part of the statement about CDR lock lost: what follows on a line lane gains no lock and clears no flag. -/
theorem exec_cdrLost (hcanonical : Canonical s) (hguard : cdrLostGuard l s = true) : ∃ t, exec (.cdrLost l) s = .next t ∧
    t.serdes.cdrLock[serialNo l] = false ∧ (serialAt t (serialNo l)).chkLock = false ∧
    (flagWord t (aLneFlags (serialNo l))).getLsbD 0 = true := by
  refine ⟨_, next_whenB hguard, ?_⟩
  unfold cdrLostEffect
  extract_lets n _ s1
  have hwf : sparseWf 0 s1.regs.w1c = true :=
    ((setFlag_quiet (count1_quiet (loseChk_quiet (dropCdr_quiet (.refl s)))) : Quiet s s1).flags hcanonical.2.1.2.1).1
  have hserdes : s1.serdes = (loseChk n { s with serdes := { s.serdes with cdrLock := s.serdes.cdrLock.set n false } }).serdes :=
    serdes_setFlag
  have hcdr : s1.serdes.cdrLock[n] = false := by
    rw [hserdes, cdrLock_loseChk]
    exact Vector.getElem_set_self ..
  have hchk : (serialAt s1 n).chkLock = false := by
    rw [serialAt_congr hserdes]
    exact chkLock_loseChk
  have hflag : (flagWord s1 (aLneFlags n)).getLsbD 0 = true := getLsbD_setFlag (aLneFlags_gt _) (by decide)
  split
  next line _ =>
    have h : Quiet s1 (lineCdrLost line s1) := lineCdrLost_quiet (.refl s1)
    exact ⟨h.cdr n hcdr, h.chk n hchk, (h.flags hwf).2 _ _ hflag⟩
  · exact ⟨hcdr, hchk, hflag⟩

/-- The part of the statement about a DEEP entry that completes. -/
theorem exec_deepEntryComplete (hguard : deepEntryCompleteGuard l s = true) : ∃ t, exec (.deepEntryComplete l) s = .next t ∧
    (serialAt t (serialNo l)).tx = .deep ∧ (serialAt t (serialNo l)).rx = .deep ∧ (serialAt t (serialNo l)).deepAt = none ∧
    t.serdes.cdrLock = s.serdes.cdrLock.set (serialNo l) false ∧ (∀ n, n ≠ serialNo l → serialAt t n = serialAt s n) := by
  refine ⟨_, next_whenB hguard, ?_⟩
  unfold deepEntryCompleteEffect
  extract_lets n s1
  have hserial : ∀ f, serialAt (count1 (aLne n 0x08) (modSerial s1 n f)) n = f (serialAt s1 n) := fun _ => serialAt_modSerial_same
  refine ⟨by rw [hserial], by rw [hserial], by rw [hserial], congrArg SerialAll.cdrLock serdes_laneStart, fun m hm => ?_⟩
  exact (serialAt_modSerial_other hm).trans (serialAt_laneStart_other hm)

theorem exec_deepExit_aborted (hguard : deepExitGuard l s = true) {t0 : Nat} (hat : (serialAt s (serialNo l)).deepAt = some t0)
    (hearly : s.now < t0 + 9 * usTicks) : ∃ t, exec (.deepExit l) s = .next t ∧
      t.serdes = { s.serdes with lanes := s.serdes.lanes.set (serialNo l) { serialAt s (serialNo l) with deepAt := none } } ∧
      (flagWord t (aLneFlags (serialNo l))).getLsbD 4 = true := by
  refine ⟨_, next_whenB hguard, ?_⟩
  have heffect : deepExitEffect l s = setFlag (aLneFlags (serialNo l)) 4 (count1 (aLne (serialNo l) 0x10)
      (modSerial s (serialNo l) fun x => { x with deepAt := none })) := by
    simp only [deepExitEffect, hat, if_pos hearly]
  rw [heffect]
  exact ⟨serdes_setFlag, getLsbD_setFlag (aLneFlags_gt _) (by decide)⟩

theorem exec_deepExit_late (hguard : deepExitGuard l s = true) {t0 : Nat} (hat : (serialAt s (serialNo l)).deepAt = some t0)
    (hlate : t0 + 9 * usTicks ≤ s.now) : exec (.deepExit l) s = .next { s with serdes := { s.serdes with
      lanes := s.serdes.lanes.set (serialNo l) { serialAt s (serialNo l) with deepExit := true } } } := by
  have heffect : deepExitEffect l s = modSerial s (serialNo l) fun x => { x with deepExit := true } := by
    simp only [deepExitEffect, hat, if_neg (Nat.not_lt.mpr hlate)]
  exact (next_whenB hguard).trans (congrArg Host.Outcome.next heffect)

theorem exec_deepExit_begins (hguard : deepExitGuard l s = true) (hat : (serialAt s (serialNo l)).deepAt = none) :
    exec (.deepExit l) s = .next { s with serdes := { s.serdes with
      lanes := s.serdes.lanes.set (serialNo l) { serialAt s (serialNo l) with exitAt := some s.now } } } := by
  have heffect : deepExitEffect l s = modSerial s (serialNo l) fun x => { x with exitAt := some s.now } := by
    simp only [deepExitEffect, hat]
  exact (next_whenB hguard).trans (congrArg Host.Outcome.next heffect)

/-- The part of the statement about an exit that completes. -/
theorem exec_deepExitComplete (hguard : deepExitCompleteGuard l s = true) : ∃ t, exec (.deepExitComplete l) s = .next t ∧
    (serialAt t (serialNo l)).tx = .run ∧ (serialAt t (serialNo l)).rx = .run ∧ (serialAt t (serialNo l)).exitAt = none ∧
    (∀ n, n ≠ serialNo l → serialAt t n = serialAt s n) := by
  refine ⟨_, next_whenB hguard, ?_, ?_, ?_, fun m hm => (serialAt_laneStart_other hm).trans (serialAt_modSerial_other hm)⟩ <;>
    rw [deepExitCompleteEffect, serialAt_laneStart_same, serialAt_modSerial_same] <;> rfl

end

/-! ## The checker (R429) -/

section
variable {l : SerialRef} {n m : LaneNo} {e b w : Nat} {s : State}

theorem loseChk_locked (h : (serialAt s n).chkLock = true) : loseChk n s =
    setFlag (aLneFlags n) 5 (count1 (aLne n 0x30) (modSerial s n fun x => { x with chkLock := false })) := if_pos h

theorem wf_count {a c : Nat} (h : sparseWf 0 s.regs.ctr = true) : sparseWf 0 (count a c s).regs.ctr = true := sparseWf_set h

/-- The counters after a lock that is lost: one more in that of the losses. -/
theorem counterAt_loseChk (hc : sparseWf 0 s.regs.ctr = true) (h : (serialAt s n).chkLock = true) {off : Nat} :
    counterAt (loseChk n s) (aLne n off) =
      if off = 0x30 then (counterAt s (aLne n 0x30) + 1) % 2 ^ 64 else counterAt s (aLne n off) := by
  have hwf : sparseWf 0 (modSerial s n fun x => { x with chkLock := false }).regs.ctr = true := hc
  rw [loseChk_locked h, counterAt_setFlag (wf_count1 hwf) (aLne_ne_aEvqLost _ _)]
  split
  next ho =>
    subst ho
    exact counterAt_count_same _ _ _ hwf
  next ho => exact counterAt_count_other _ _ _ _ hwf fun ha => ho (by simp only [aLne, sliceReg] at ha; omega)

/-- The part of the statement about the symbols and bits counted. -/
theorem exec_chkLockLost (hcanonical : Canonical s) (hguard : chkLockLostGuard l s = true) : ∃ t, exec (.chkLockLost l e b w) s = .next t ∧
    serialAt t (serialNo l) = { serialAt s (serialNo l) with chkLock := decide (w ≤ 256) } ∧
    (∀ m, m ≠ serialNo l → serialAt t m = serialAt s m) ∧
    counterAt t (aLne (serialNo l) 0x20) = (counterAt s (aLne (serialNo l) 0x20) + e) % 2 ^ 64 ∧
    counterAt t (aLne (serialNo l) 0x28) = (counterAt s (aLne (serialNo l) 0x28) + b) % 2 ^ 64 ∧
    counterAt t (aLne (serialNo l) 0x30) = (counterAt s (aLne (serialNo l) 0x30) + if 256 < w then 1 else 0) % 2 ^ 64 := by
  refine ⟨_, next_whenB hguard, ?_⟩
  unfold chkLockLostEffect
  extract_lets n s1
  have hlocked : (serialAt s n).chkLock = true := hguard
  have hwf : sparseWf 0 s.regs.ctr = true := hcanonical.2.1.1
  have hwf1 : sparseWf 0 s1.regs.ctr = true := wf_count (wf_count hwf)
  have hne : ∀ x y, x ≠ y → aLne n x ≠ aLne n y := fun x y hxy ha => hxy (by simp only [aLne, sliceReg] at ha; omega)
  have hsym : counterAt s1 (aLne n 0x20) = (counterAt s (aLne n 0x20) + e) % 2 ^ 64 := by
    unfold s1
    rw [counterAt_count_other _ _ _ _ (wf_count hwf) (hne _ _ (by decide)), counterAt_count_same _ _ _ hwf]
  have hbit : counterAt s1 (aLne n 0x28) = (counterAt s (aLne n 0x28) + b) % 2 ^ 64 := by
    unfold s1
    rw [counterAt_count_same _ _ _ (wf_count hwf), counterAt_count_other _ _ _ _ hwf (hne _ _ (by decide))]
  have hlost : counterAt s1 (aLne n 0x30) = counterAt s (aLne n 0x30) := by
    unfold s1
    rw [counterAt_count_other _ _ _ _ (wf_count hwf) (hne _ _ (by decide)), counterAt_count_other _ _ _ _ hwf (hne _ _ (by decide))]
  split
  next hw =>
    have hserial : ∀ m, serialAt (loseChk n s1) m = serialAt (modSerial s1 n fun x => { x with chkLock := false }) m := fun m => by
      rw [loseChk_locked (s := s1) hlocked]
      exact serialAt_congr serdes_setFlag
    have hcount : ∀ off, counterAt (loseChk n s1) (aLne n off) =
        if off = 0x30 then (counterAt s1 (aLne n 0x30) + 1) % 2 ^ 64 else counterAt s1 (aLne n off) := fun _ =>
      counterAt_loseChk hwf1 hlocked
    refine ⟨?_, fun m hm => (hserial m).trans (serialAt_modSerial_other hm), (hcount _).trans hsym, (hcount _).trans hbit, ?_⟩
    · rw [hserial, serialAt_modSerial_same, decide_eq_false (Nat.not_le.mpr hw)]
      rfl
    · exact (hcount 0x30).trans (by rw [if_pos rfl, hlost])
  next hw =>
    refine ⟨?_, fun _ _ => rfl, hsym, hbit, ?_⟩
    · rw [decide_eq_true (Nat.not_lt.mp hw), ← hlocked]
      rfl
    · exact hlost.trans (Nat.mod_eq_of_lt (hcanonical.2.1.2.2.2.1 _)).symm

end

/-! ## Loops (R424, R425) -/

section
variable {l : SerialRef} {n m : LaneNo} {s : State}

/-- A lane whose loop has ended, started anew. -/
def LoopEnded (n : LaneNo) (s : State) : Prop :=
  (serialAt s n).loop = .none ∧ (serialAt s n).loopEnd = none ∧ (serialAt s n).startAt = s.now

theorem serialAt_expireLoop_other (h : m ≠ n) : serialAt (expireLoop n s) m = serialAt s m :=
  (serialAt_congr serdes_setFlag).trans ((serialAt_laneStart_other h).trans (serialAt_modSerial_other h))

theorem now_expireLoop : (expireLoop n s).now = s.now :=
  (expireLoop_keeps (w := fun c => c != .now) rfl rfl rfl rfl rfl rfl rfl rfl rfl rfl rfl rfl rfl rfl rfl
    (Keeps.refl _ s False.elim : Keeps _ False s s)).same .now rfl

theorem loopEnded_expireLoop : LoopEnded n (expireLoop n s) := by
  have hserial : ∀ f, serialAt (setFlag (aLneFlags n) 2 (laneStart n (modSerial s n f))) n = startedLane s.now (f (serialAt s n)) :=
    fun f => by rw [serialAt_congr serdes_setFlag, serialAt_laneStart_same, serialAt_modSerial_same]; rfl
  unfold LoopEnded
  rw [now_expireLoop, expireLoop, hserial]
  exact ⟨rfl, rfl, rfl⟩

theorem LoopEnded.expireLoop (h : LoopEnded n s) : LoopEnded n (expireLoop m s) := by
  by_cases hn : n = m
  · exact hn ▸ loopEnded_expireLoop
  · unfold LoopEnded
    rw [serialAt_expireLoop_other hn, now_expireLoop]
    exact h

/-- A port takes one, two or four lanes. -/
theorem portLanes_cases (k : Nat) : portLanes k = 1 ∨ portLanes k = 2 ∨ portLanes k = 4 := by
  unfold portLanes
  split
  · exact .inr (.inr rfl)
  · split
    · exact .inr (.inl rfl)
    · exact .inl rfl

/-- The port of a host lane is in the lane's slice. -/
theorem laneSlice_lanePort {h : Fin 32} : laneSlice (lanePort s h) = laneSlice h := by
  simp only [laneSlice, lanePort, Fin.ofNat, Fin.mk.injEq]
  rcases portLanes_cases s.path.mode[laneSlice h] with hw | hw | hw <;> simp only [laneSlice] at hw <;> rw [hw] <;> omega

/-- A lane's number is its port's number and its place in the port, counted in blocks of eleven (R415). -/
theorem serial_of_place {h w : Nat} (hw : w = 1 ∨ w = 2 ∨ w = 4) :
    11 * (h / w * w / 4) + h / w * w % 4 + h % w = 11 * (h / 4) + h % 4 := by
  rcases hw with rfl | rfl | rfl <;> omega

/-- A host lane is among the lanes of its port. -/
theorem mem_portSerials {h : Fin 32} (hhost : noHost n = some h) : n ∈ portSerials s (lanePort s h) := by
  obtain ⟨hlane, hh⟩ := Option.dite_none_right_eq_some.mp hhost
  have hval : h.val = 4 * (n.val / 11) + n.val % 11 := by rw [← Option.some.inj hh]
  have hmode : portMode s (lanePort s h) = s.path.mode[laneSlice h] :=
    congrArg (fun c : SliceId => s.path.mode[c]) laneSlice_lanePort
  have hw := portLanes_cases s.path.mode[laneSlice h]
  have hport : (lanePort s h).val = h.val / portLanes s.path.mode[laneSlice h] * portLanes s.path.mode[laneSlice h] :=
    Nat.mod_eq_of_lt (Nat.lt_of_le_of_lt (Nat.div_mul_le_self _ _) h.isLt)
  have hplace := serial_of_place (h := h.val) hw
  refine List.mem_map.mpr ⟨h.val % portLanes s.path.mode[laneSlice h], List.mem_range.mpr ?_, Fin.ext ?_⟩
  · rw [hmode]
    exact Nat.mod_lt _ (by omega)
  · calc (11 * ((lanePort s h).val / 4) + (lanePort s h).val % 4 + h.val % portLanes s.path.mode[laneSlice h]) % 88
      _ = (11 * (h.val / 4) + h.val % 4) % 88 := by rw [hport, hplace]
      _ = n.val := by omega

/-- A lane that holds a loop is among the lanes of the loop. -/
theorem mem_loopMates : n ∈ loopMates s n := by
  unfold loopMates
  split
  next h hhost => exact mem_portSerials hhost
  · exact List.mem_singleton_self n

/-- The part of the statement about a loop that has run out. -/
theorem exec_loopExpired (hguard : loopExpiredGuard l s = true) : ∃ t, exec (.loopExpired l) s = .next t ∧
    serialNo l ∈ loopMates s (serialNo l) ∧
    ∀ n, (n ∈ loopMates s (serialNo l) → (serialAt t n).loop = .none ∧ (serialAt t n).loopEnd = none ∧
        (serialAt t n).startAt = s.now) ∧
      (n ∉ loopMates s (serialNo l) → serialAt t n = serialAt s n) := by
  refine ⟨_, next_whenB hguard, mem_loopMates, fun n => ⟨fun hn => ?_, fun hn => ?_⟩⟩
  · obtain ⟨hloop, hend, hstart⟩ : LoopEnded n (loopExpiredEffect l s) :=
      foldS_establishes (P := LoopEnded n) hn (fun _ => loopEnded_expireLoop) fun _ _ => LoopEnded.expireLoop
    have hnow : (loopExpiredEffect l s).now = s.now :=
      foldS_induction (P := fun t => t.now = s.now) (fun _ _ ht => now_expireLoop.trans ht) rfl
    exact ⟨hloop, hend, hstart.trans hnow⟩
  · exact view_foldS (view := fun t => serialAt t n) fun m hm t => serialAt_expireLoop_other (ne_of_mem_of_not_mem hm hn).symm

end

/-! ## Settings of a lane (R420, R428) and the bursts of a loop (R426) -/

section
variable {m : MboxId} {r : Request} {l : Lane} {s : State} {d : LoopOut} {rest : List LoopOut}

/-- The part of the statement about LANE_EQ_SET. -/
theorem exec_laneEqSet (hcur : current 0x0900 s = some (m, r)) (hchecks : firstFailing (laneEqSetChecks r s) = none) :
    ∃ t, exec .laneEqSet s = .next t ∧
      serialAt t (entryLane (eqRaw r.payload 0)) = { serialAt s (entryLane (eqRaw r.payload 0)) with
        eq := (eqRaw r.payload 0).entry, eqSource := 2, startAt := s.now, chkLock := false } ∧
      eqValid (eqRaw r.payload 0) = true ∧ (∀ n, n ≠ entryLane (eqRaw r.payload 0) → serialAt t n = serialAt s n) := by
  refine ⟨_, next_runCommand hcur hchecks, ?_, ?_, fun n hn => ?_⟩
  · rw [serialAt_congr serdes_finish]
    exact serialAt_laneStart_same.trans (congrArg (startedLane s.now) serialAt_modSerial_same)
  · have hrange := fails_of_firstFailing_none hchecks (List.mem_cons_of_mem _ (List.mem_cons_self ..))
    simp only [ckRange, Bool.or_eq_false_iff, Bool.not_eq_false'] at hrange
    exact hrange.1
  · exact (serialAt_congr serdes_finish).trans ((serialAt_laneStart_other hn).trans (serialAt_modSerial_other hn))

/-- The part of the statement about PATTERN_SET. -/
theorem exec_patternSet (hcur : current 0x0903 s = some (m, r)) (hchecks : firstFailing (patternSetChecks r s) = none) :
    ∃ t, exec .patternSet s = .next t ∧
      (serialAt t (psLane r)).gen = r.u8 2 ∧ (serialAt t (psLane r)).chk = r.u8 3 ∧ (serialAt t (psLane r)).chkLock = false ∧
      (serialAt t (psLane r)).startAt = s.now ∧ (∀ n, n ≠ psLane r → serialAt t n = serialAt s n) := by
  refine ⟨_, next_runCommand hcur hchecks, ?_⟩
  have hserdes : (finish m (patternSetApply r s)).serdes = _ := serdes_finish.trans serdes_testDown
  have hlane := (serialAt_congr hserdes).trans (serialAt_laneStart_same.trans (congrArg (startedLane s.now) serialAt_modSerial_same))
  rw [hlane]
  exact ⟨rfl, rfl, rfl, rfl, fun n hn =>
    (serialAt_congr hserdes).trans ((serialAt_laneStart_other hn).trans (serialAt_modSerial_other hn))⟩

theorem length_bitsMsb {w : Nat} {v : BitVec w} : (bitsMsb v).length = w :=
  (List.length_map ..).trans List.length_range

/-- Four words fill a data block. -/
theorem length_dataBodies {seed : BitVec 31} {ws : List (BitVec 64)} : (dataBodies seed ws).length = 64 * ws.length / 256 := by
  have hbits : (ws.flatMap fun w => bitsMsb w).length = 64 * ws.length := by
    rw [List.length_flatMap]
    simp only [length_bitsMsb, List.map_const', List.sum_replicate, smul_eq_mul, Nat.mul_comm]
  rw [dataBodies, List.length_map, List.length_range, hbits]

theorem length_loopBlocksOf : (loopBlocksOf d).length = 34 + 64 * d.words.length / 256 := by
  simp only [loopBlocksOf, List.length_append, List.length_replicate, List.length_cons, List.length_map, List.length_nil,
    length_dataBodies]
  omega

/-- A loop burst begins with the preamble and its delimiter. -/
theorem take_loopBlocksOf : (loopBlocksOf d).take 33 = List.replicate 32 (true, leaderBody) ++
    [(true, delimiterBody 255 0 0 (BitVec.ofNat 16 d.fn) (epochOf d.fn) 0 d.len false)] := by
  rw [loopBlocksOf, List.append_assoc, List.take_append, List.take_of_length_le (by simp), List.length_replicate]
  rfl

/-- The part of the statement about the loop burst that has waited longest. -/
theorem exec_loopBurst (hguard : loopBurstGuard l s = true) (hdue : (serialAt s (lineSerial l)).loopDue = d :: rest) :
    ∃ t, exec (.loopBurst l) s = .next t ∧
      (serialAt t (lineSerial l)).loopBurst = some d ∧ (serialAt t (lineSerial l)).loopDue = rest ∧
      (serialAt t (lineSerial l)).loopBlocks.take 33 = List.replicate 32 (true, leaderBody) ++
        [(true, delimiterBody 255 0 0 (BitVec.ofNat 16 d.fn) (epochOf d.fn) 0 d.len false)] ∧
      (34 ≤ d.len → d.words.length = 4 * (d.len - 34) → (serialAt t (lineSerial l)).loopBlocks.length = d.len) ∧
      (∀ n, n ≠ lineSerial l → serialAt t n = serialAt s n) := by
  have hlane : serialAt (loopBurstEffect l s) (lineSerial l) =
      { serialAt s (lineSerial l) with loopDue := rest, loopBurst := some d, loopBlocks := loopBlocksOf d } :=
    serialAt_modSerial_same.trans (by simp only [hdue])
  refine ⟨_, next_whenB hguard, ?_⟩
  rw [hlane]
  refine ⟨rfl, rfl, take_loopBlocksOf, fun hlen hwords => ?_, fun n hn => serialAt_modSerial_other hn⟩
  rw [length_loopBlocksOf, hwords]
  omega

end

/-- Settles O52. The statement takes the model's choices for a loop that ends on every lane of its port (log 113), for the operands
of a checker lock lost (log 55) and for the checker's lock at a loss of CDR lock (log 146). -/
theorem serialLanes : Obligations.SerialLanes := by
  refine ⟨fun l s hcanonical => ⟨exec_cdrLockGained, exec_cdrLost hcanonical, next_whenB, exec_deepEntryComplete, fun hguard => ?_,
      exec_deepExitComplete, next_whenB, fun hguard e b n => exec_chkLockLost hcanonical hguard, exec_loopExpired⟩,
    fun m r s => ⟨exec_laneEqSet, exec_patternSet⟩, fun l s d rest => exec_loopBurst⟩
  exact ⟨fun _ => exec_deepExit_aborted hguard, fun _ => exec_deepExit_late hguard, exec_deepExit_begins hguard⟩

end Sys2Proof.Machine
end
